-- ==== Sys2Proof/Word.lean ====
section
/-!
DEFINITION. The word types of the host ports and the plainest arithmetic on them (00_scope.md, "Units and formats";
R9, R370: 32-bit registers in a 24-bit byte address space).
-/

namespace Sys2Proof

/-- A 32-bit register word. -/
abbrev Word := BitVec 32

/-- A 24-bit byte address (R389). -/
abbrev Addr := BitVec 24

/-- A byte of a stream, a record or a telegram. -/
abbrev Byte := BitVec 8

/-- The two host ports (R367). -/
inductive HPort where
  | a | b
  deriving DecidableEq, Repr, Inhabited

/-- Port A is 0 and port B is 1, the encoding of every field that names a port. -/
def HPort.toNat : HPort → Nat
  | .a => 0
  | .b => 1

/-- The other port. -/
def HPort.other : HPort → HPort
  | .a => .b
  | .b => .a

end Sys2Proof
end

