-- ==== Sys2Proof/Syntax.lean ====
section
/-!
DEFINITION. The commands of the block: one constructor for each row of spec/opcode_table.json, in the table's order,
with the row's operands. Indices are bounded by their type; relations between operands are in WellFormed.lean. An
operand that is a physical quantity (a measured voltage, a demodulated sample, a ball's level) is what the outside
world presents with that event.
-/

namespace Sys2Proof

/-- What the pins and the analogue die present at a safety-cycle boundary: VIN in the unit of CRU_VIN (R399), the pins
whose crossbar switch does not follow its route (R50), the SOUT balls that read high and low (R286, R293), the readback of
TL_PERMIT (oscillating), TL_STOP_N and TL_STILL (R296), the single-bit corrections in the buffer memories of the two
controllers (R320), and the partner's boundary marker: its safety cycle and the offset of its count in ticks (R348). -/
structure BoundaryInputs where
  vin     : Nat
  xbarBad : List (Fin 96)
  soutHigh : BitVec 12
  soutLow  : BitVec 12
  tlBalls  : BitVec 3
  bufCe0   : Bool
  bufCe1   : Bool
  marker   : Option (Nat × Int)
  deriving DecidableEq, Repr, Inhabited

/-- A CAN or CAN FD frame on the bus (ISO 11898-1 fields as CANx_BUFb_W0 and _W1 name them). -/
structure CanFrame where
  id   : BitVec 29
  ide  : Bool
  rtr  : Bool
  fdf  : Bool
  brs  : Bool
  esi  : Bool
  dlc  : BitVec 4
  data : List Byte
  deriving DecidableEq, Repr, Inhabited

/-- What a controller counts for a bus error under the fault confinement of ISO 11898-1 (R316): a transmitter's error that
makes it send an error flag; a missing acknowledgement, with whether a dominant bit showed during a passive error flag; a
transmitter's stuff error during arbitration that ISO 11898-1 does not count; a dominant bit error or a run of dominant bits
around a transmitter's error or overload flag; a receiver's error; the dominant bit that makes a receiver's error the primary
one, or an error around its own flag. -/
inductive CanErrKind where
  | txError | txAck (dominant : Bool) | txUncounted | txFlag | rxError | rxFlag
  deriving DecidableEq, Repr, Inhabited

/-- The error of CANx_ERR.LEC (codes 1 to 6). -/
inductive CanErrCode where
  | stuff | form | ack | bit1 | bit0 | crc
  deriving DecidableEq, Repr, Inhabited

/-- A bus error as a controller sees it: what it counts, its code, whether it lay in the data phase of a frame with bit-rate
switching, and whether it lay in the data field (R319). -/
structure CanError where
  kind      : CanErrKind
  code      : CanErrCode
  dataPhase : Bool
  dataField : Bool
  tdcv      : Option (BitVec 7)
  deriving DecidableEq, Repr, Inhabited

/-- Why a controller is lost (R320). -/
inductive CanLostCause where
  | ram | domTo | overTemp | busOff
  deriving DecidableEq, Repr, Inhabited

/-- What the sampling instant of the seal balls shows: five samples of the sixteen balls (R241). -/
abbrev SealSamples := List (BitVec 16)

/-- A finding of the scrubber in one configuration word (R224): no error, a single-bit error, a double-bit error. -/
inductive ScrubFinding where
  | clean | single (bit : Fin 72) | double
  deriving DecidableEq, Repr, Inhabited

/-- The class of a monitor episode, as the conditions of R96 show it. -/
inductive MonClass where
  | srcLost | lineOpen | loopOpen | loopShort | other
  deriving DecidableEq, Repr, Inhabited

/-- A section as the cycle image shows it: state, count, SWEEP_AXLES, CAUSE, CAUSE_CP, SINGLE, MULTI, early flag and
evidence bits. -/
structure SecImage where
  state   : Nat
  count   : Nat
  sweep   : Nat
  cause   : Nat
  causeCp : Nat
  single  : Bool
  multi   : Bool
  early   : Bool
  evid    : Nat
  deriving DecidableEq, Repr, Inhabited

/-- A connection as the cycle image carries it: state, whitelist entry, bound, TX SEQ. -/
structure ConnImage where
  state : Nat
  wl    : Nat
  bound : Bool
  txSeq : Nat
  deriving DecidableEq, Repr, Inhabited

/-- A pending announcement as the cycle image carries it. -/
structure PendImage where
  valid : Bool
  wl    : Nat
  pid   : Nat
  age   : Nat
  nonce : Nat
  deriving DecidableEq, Repr, Inhabited

/-- A restore or a DISTURB applied at the image's boundary: operation (1 SUPERVISED, 2 DIRECT, 3 DISTURB, 5 by identity) and
section. -/
structure RestoreImage where
  op  : Nat
  sec : Nat
  deriving DecidableEq, Repr, Inhabited

/-- The content of a cycle image, part by part as the table of its parts gives them (R350). The computed parts that no
rule reads in the standby unit are lists of numbers. -/
structure CycleImage where
  cycle     : Nat
  dev       : Nat
  role      : Nat
  verdict   : Option Bool
  tbAck     : Bool
  agree     : Nat
  frontEnd  : List Nat
  secs      : List SecImage
  motion    : List Nat
  sout      : Nat
  tlp       : Bool
  tls       : Bool
  tx        : Nat
  hst       : Nat
  safetyIo  : List Nat
  drive     : Nat
  commits   : List (Nat × Nat)
  restores  : List RestoreImage
  directs   : List (Option (Nat × Nat × Nat))
  conns     : List ConnImage
  pends     : List PendImage
  tlSeq     : Nat
  sqElapsed : Nat
  kaPos     : Nat
  deriving DecidableEq, Repr, Inhabited

/-- What a STATUS frame carries (R351): READY, NOT_READY reason, the last cycle received complete, ID_READY bits, verdict
request, verdict, TB_REQ, the sections of the DISTURB commands of its hosts (R180), with role and device state. -/
structure PartnerStatus where
  ready      : Bool
  reason     : Nat
  ack        : Nat
  idReady    : Nat
  verdictReq : Bool
  verdict    : Option Bool
  tbReq      : Bool
  disturbs   : List Nat
  role       : Nat
  dev        : Nat
  deriving DecidableEq, Repr, Inhabited

/-- The payload of a link frame by its TYPE (R349, R350, R351). An IMAGE frame gives its bytes and, with the frame that
completes the cycle image, what the bytes of the cycle's IMAGE frames spell. An undefined TYPE is `other`. -/
inductive LinkPayload where
  | image (bytes : List Byte) (content : Option CycleImage)
  | delta (recs : List (Nat × List Byte))
  | refresh (recs : List (Nat × List Byte))
  | endFrame (count : Nat) (crc : Nat)
  | status (st : PartnerStatus)
  | other
  deriving DecidableEq, Repr, Inhabited

/-- A frame of the Luarin link as it arrives (R349): whether its CRC passed, its flags, its place in the cycle's sequence,
the safety cycle it describes, its payload. -/
structure LinkFrame where
  crcOk   : Bool
  backlog : Bool
  resent  : Bool
  frameNo : Nat
  cycle   : Nat
  payload : LinkPayload
  deriving DecidableEq, Repr, Inhabited

/-- What one core's output path carries of a transaction (R253): its type (0 fetch, 1 read, 2 write, 3 keep-alive token), its
address, its content and the check bits that the core appends. -/
structure VoterLane where
  kind  : BitVec 2
  addr  : Addr
  data  : Word
  check : Byte
  deriving DecidableEq, Repr, Inhabited

/-- A transaction as it reaches the voter, aligned (R253, R255): the three lanes, a mismatch indicated on the disabled comparator of a
fenced lane, and whether the target, which verifies the check bits, rejects those issued. -/
structure VoterTxn where
  lane0    : VoterLane
  lane1    : VoterLane
  lane2    : VoterLane
  fenced   : Option (Fin 3)
  rejected : Bool
  deriving DecidableEq, Repr, Inhabited

/-- What a debugger writes (R274): a core register, a word of working memory, a device register, or one of the eight breakpoints
and four watchpoints, set at the address written or removed. -/
inductive DebugTarget where
  | coreReg (n : BitVec 8)
  | memory (addr : Addr)
  | device (addr : Addr)
  | breakpoint (k : Fin 8) (set : Bool)
  | watchpoint (k : Fin 4) (set : Bool)
  deriving DecidableEq, Repr, Inhabited

/-- A debugger's write. -/
structure DebugWrite where
  target : DebugTarget
  value  : Word
  deriving DecidableEq, Repr, Inhabited

/-- A firmware patch of the flash's patch area as R276 checks it: its level, the ROM revision that it names, its code, and the
signature over all of these. -/
structure Patch where
  level : BitVec 8
  rom : BitVec 16
  code : List Byte
  signature : BitVec 512
  deriving DecidableEq, Repr, Inhabited

/-- The commands: writes, reads and frames of the host ports, the events of pins, sensors and buses, and the block's
own scheduled actions. One constructor for each row of the table, in the table's order. -/
inductive Instr where
  | timestampWrap
  | safetyCycleBoundary (inp : BoundaryInputs)
  | registerWrite (p : HPort) (addr : Addr) (v : Word)
  | pairHWrite (p : HPort) (addr : Addr) (v : Word)
  | pairLWrite (p : HPort) (addr : Addr) (v : Word)
  | pairLRead (p : HPort) (addr : Addr)
  | posRead (p : HPort) (port : Fin 4)
  | cruTimeRead (p : HPort)
  | w1cClear (p : HPort) (addr : Addr) (mask : Word)
  | readInc (p : HPort) (n : Fin 64) (addr : Addr) (crc : BitVec 16)
  | readFix (p : HPort) (n : Fin 64) (addr : Addr) (crc : BitVec 16)
  | writeInc (p : HPort) (n : Fin 64) (addr : Addr) (data : List Word) (crc : BitVec 16) (csOk : Bool)
  | writeFix (p : HPort) (n : Fin 64) (addr : Addr) (data : List Word) (crc : BitVec 16) (csOk : Bool)
  | repeatResponse (p : HPort) (n : Fin 64) (crc : BitVec 16)
  | altPhaseInversion
  | pendingExcApply (sp : Fin 24)
  | settlingEnd (sp : Fin 24)
  | force (p : HPort) (pts : BitVec 24)
  | cancel (p : HPort) (pts : BitVec 24)
  | sourceFailure (src : Fin 56) (onset : Nat)
  | clampConduction (pin : Fin 96) (onset : Nat) (last : Nat)
  | clampEpisodeEnd (pin : Fin 96)
  | carrierLoss (sp : Fin 24) (onset : Nat)
  | carrierReturn (sp : Fin 24)
  | dampingSample (ch : Fin 48) (k : Nat) (i : Int) (q : Int) (ovr : BitVec 5)
  | calPairEnd (ch : Fin 48)
  | refCapture (p : HPort) (ch : BitVec 6) (all : Bool)
  | refCaptureDone (ch : Fin 48)
  | refErr (ch : Fin 48)
  | snapGo (p : HPort) (src : BitVec 2)
  | snapDone
  | monitorFlag (ch : Fin 48) (onset : Nat) (cls : MonClass)
  | monitorEpisodeEnd (ch : Fin 48) (last : Nat)
  | glitch (ch : Fin 48)
  | toneVisitVerdict (ch : Fin 48) (mag : BitVec 16) (phase : BitVec 16) (limit : Bool) (cross : Option (Fin 48 × BitVec 16))
  | toneSelfCheck (mag : BitVec 16) (phase : BitVec 16) (residual : BitVec 16)
  | channelStale (ch : Fin 48)
  | supClear (p : HPort) (ch : BitVec 6) (all : Bool)
  | faultyRelease (ch : Fin 48)
  | zrefCapture (p : HPort) (ch : BitVec 6) (all : Bool)
  | zrefCaptureDone (ch : Fin 48)
  | zrefErr (ch : Fin 48)
  | holdExpiry (sp : Fin 24)
  | linkWindowExpiry (sp : Fin 24)
  | parked (ch : Fin 48)
  | matchJobStart
  | matchJobComplete (eng : Fin 2)
  | quietFinal (sp : Fin 24) (neg : Bool)
  | jobLate
  | pop (p : HPort)
  | recReqGo (p : HPort) (slot : BitVec 12)
  | supervised (p : HPort) (sec : BitVec 6)
  | direct (p : HPort) (sec : BitVec 6) (tok : BitVec 16)
  | disturb (p : HPort) (sec : BitVec 6)
  | directWithdraw (p : HPort)
  | directExpired (p : HPort)
  | identityRestore (sec : Fin 48)
  | standbyDisturbReject (p : HPort)
  | speedStale (sp : Fin 24)
  | pointLullEntry (sp : Fin 24)
  | encoderFrame (port : Fin 4) (edge : Nat) (idleHigh : Bool) (bits : List Bool)
  | encoderLate (port : Fin 4)
  | portLullEntry (port : Fin 4)
  | encoderFaultRelease (port : Fin 4)
  | portClear (p : HPort) (ports : BitVec 4)
  | rearm (p : HPort) (cmps : BitVec 16)
  | disarm (p : HPort) (cmps : BitVec 16)
  | axqGo (p : HPort)
  | filterTimerExpiry (tile : Fin 2048) (ch : Fin 4)
  | scrubWord (finding : ScrubFinding)
  | doubleBitError (word : Fin 524288)
  | cfgMemWrite (p : HPort) (addr : Addr) (v : Word)
  | powerOnReset (vin : BitVec 16)
  | resetPin (dur : Nat)
  | resetRelease (patches : Option (List Patch)) (qualified : Bool)
  | pllLock (seals : SealSamples)
  | loadEnd (seals : SealSamples) (fails : BitVec 3) (readErr : Option (BitVec 11))
  | sealReading (seals : SealSamples)
  | commit (p : HPort)
  | discard (p : HPort)
  | uploadStart (p : HPort) (target : BitVec 2)
  | uploadAbort (p : HPort)
  | uploadData (p : HPort) (w : Word)
  | upDone
  | voterTransaction (txn : VoterTxn)
  | selfTestDone (core : Fin 3) (pass : Bool)
  | periodicTestDue
  | keepaliveToken (v : Word)
  | keepaliveGrantExpiry
  | squallLimit
  | debugHalt (hit : Bool)
  | debugStep
  | debugResume
  | debugWrite (w : DebugWrite)
  | replayDrain
  | bypass
  | idcode
  | samplePreload
  | extest
  | vendorDebug
  | testLogicReset
  | pairInputChange (j : Fin 16) (a : Bool) (b : Bool)
  | discrepancyFault (j : Fin 16)
  | clearIn (p : HPort) (mask : BitVec 16)
  | clearOut (p : HPort) (mask : BitVec 12)
  | testPulse (k : Fin 12)
  | pulseEnd (k : Fin 12) (low : Bool)
  | stuckOff (k : Fin 12) (limit : Bool)
  | stuckOn (k : Fin 12)
  | overload (k : Fin 12)
  | overtemp (k : Fin 12)
  | tlpDrv
  | tlsDrv
  | tlForeign
  | clearDrv (p : HPort)
  | tlTelegramFrame (rx : List Byte)
  | rxLapse
  | canFrameReceived (x : Fin 2) (frame : CanFrame)
  | rxBufLock (p : HPort) (x : Fin 2) (b : Fin 64)
  | rxBufRelease (p : HPort) (x : Fin 2) (b : Fin 64)
  | lockRel (p : HPort) (x : Fin 2) (b : Fin 64)
  | txBufWrite (p : HPort) (x : Fin 2) (b : Fin 64) (k : Fin 18) (v : Word)
  | txReq (p : HPort) (x : Fin 2) (b : Fin 64)
  | bufAbort (p : HPort) (x : Fin 2) (b : Fin 64)
  | reenable (p : HPort) (x : Fin 2) (b : Fin 64)
  | canFrameTransmitted (x : Fin 2) (tdcv : BitVec 7)
  | canError (x : Fin 2) (e : CanError)
  | busoffRecovery (x : Fin 2)
  | canRelease (p : HPort) (x : Fin 2)
  | abortAll (p : HPort) (x : Fin 2)
  | canControllerLost (x : Fin 2) (cause : CanLostCause)
  | cvuStart (p : HPort) (n : Fin 16)
  | data32 (p : HPort) (n : Fin 16) (v : Word)
  | data16 (p : HPort) (n : Fin 16) (v : BitVec 16)
  | data8 (p : HPort) (n : Fin 16) (v : Byte)
  | ctxWrite (p : HPort) (n : Fin 16) (v : Word)
  | finish (p : HPort) (n : Fin 16)
  | cvuRelease (p : HPort) (n : Fin 16)
  | telegramBuild (c : Fin 64)
  | connLapse (c : Fin 64)
  | announceExpired (k : Fin 4)
  | accept (p : HPort) (wl : BitVec 5)
  | refuse (p : HPort) (wl : BitVec 5)
  | steRelease (p : HPort) (conn : BitVec 6)
  | dynHoldExpiry (c : Fin 64)
  | intlkInChange (level : Bool)
  | toBlocked
  | intlkErr
  | roleClaim
  | linkUp (pref : Bool) (rev : Word) (digest : BitVec 256)
  | linkFrame (frame : LinkFrame)
  | linkDown
  | ackDiv (p : HPort)
  | takeoverClaim
  | takeoverDrive
  | handoverClaim
  | semTake (p : HPort) (k : Fin 32) (id : BitVec 2)
  | semRelease (p : HPort) (k : Fin 32)
  | freeOwn (p : HPort)
  | enterComm (p : HPort) (key : BitVec 16)
  | commissioningEntry
  | resetCommand (p : HPort) (key : BitVec 16)
  | resetExpired
  | goSafe (p : HPort) (key : BitVec 16)
  | devWithdraw (p : HPort) (key : BitVec 16)
  | gqFree (p : HPort) (n : BitVec 12)
  | bcwFreeze (n : Fin 8)
  | bcwUnfreeze
  | bcwClearArm
  | bcwClear
  | bcwClearCancel (v : Byte)
  | clearWindowExpiry
  | monitorWindow (mon : Bool) (count : BitVec 16) (other : Option (BitVec 16))
  | pllLockLoss
  | startupEntry
  | calEnd
  | sweepLate
  | operationalEntry
  | powerOnResetRearm
  | lostArbitration (x : Fin 2)
  | protocolException (x : Fin 2)
  deriving DecidableEq, Repr

end Sys2Proof
end

