-- ==== Sys2Proof/Decode.lean ====
section
/-!
DEFINITION. Words as commands. The table of this block's commands gives no row any bits (spec/opcode_table.json: every
row's list of fields is empty): commands come from ports, pins, buses and the block's own schedule, not as words. The bytes of a
host port's frame do spell commands (16_host_ports.md R368).
-/

namespace Sys2Proof

/-- The command that a word spells by the table's bits: none, for no row has bits. -/
def decodeTableWord (_nbits _w : Nat) : Option Instr := none

/-! ### Frames of a host port (R368) -/

/-- Bytes as words, the most significant byte first; an incomplete word at the end is none. -/
def frameWords : List Byte → List Word
  | a :: b :: c :: d :: rest => (a ++ b ++ c ++ d) :: frameWords rest
  | _ => []

/-- The command that a frame's request spells, its bytes as they cross the wire: opcode, with the command in bits 7:6 and the word count
less 1 in bits 5:0, address, the words of a WRITE frame, request CRC; `csOk` tells whether CS_N rose after exactly the cycles of these
bytes. A READ_INC at 0xFF_FFFF is the REPEAT request (R372). A write frame of another length than its count asks for is one whose CS_N rose
early or late (R370); of a read request that breaks off R368 to R372 say nothing, and it spells no command. -/
def frameCommand (p : HPort) (bytes : List Byte) (csOk : Bool) : Option Instr :=
  match bytes with
  | op :: a2 :: a1 :: a0 :: rest =>
    let n : Fin 64 := ⟨op.toNat % 64, Nat.mod_lt _ (by decide)⟩
    let addr : Addr := a2 ++ a1 ++ a0
    let body := rest.take (rest.length - 2)
    let crc : BitVec 16 := (rest.drop (rest.length - 2)).foldl (fun c x => c * 256 + x.zeroExtend 16) 0
    let whole := csOk && rest.length == 4 * (n.val + 1) + 2
    match op.toNat / 64 with
    | 0 => if rest.length = 2 then some (if addr = 0xFFFFFF then .repeatResponse p n crc else .readInc p n addr crc) else none
    | 1 => if rest.length = 2 then some (.readFix p n addr crc) else none
    | 2 => some (.writeInc p n addr (frameWords body) crc whole)
    | _ => some (.writeFix p n addr (frameWords body) crc whole)
  | _ => none

end Sys2Proof
end

