-- ==== Sys2Proof/Config.lean ====
section
/-!
DEFINITION. What one implementation fixes and the spec leaves open: free values, each an opaque constant with no body,
so that no proof can see what it is and a statement holds whatever it is.
-/

namespace Sys2Proof

/-- Whether a quotient whose rounding the spec does not state is rounded up: a free value (DESIGN CHOICE, log entry 12). -/
opaque Config.roundUp : Int → Int → Bool

/-- Where an exact half goes when the spec says "rounded to the nearest": a free value (DESIGN CHOICE, log entry 12). -/
opaque Config.tieUp : Int → Int → Bool

/-- The result of a quotient whose divisor is 0, which the spec does not state: a free value (DESIGN CHOICE, log entry 12). -/
opaque Config.divZero : Int → Int

/-- Whether a square root that the spec does not round is rounded up: a free value (DESIGN CHOICE, log entry 12). -/
opaque Config.sqrtUp : Nat → Bool

/-- Cosine and sine of a phase of 16 bits, LSB 2π ÷ 65,536, in units of 2^−62, as the implementation computes them (R72):
free values (DESIGN CHOICE, log entry 11). -/
opaque Config.cosOf : Nat → Int
opaque Config.sinOf : Nat → Int

/-- The production-trimmed offset of a channel's current path (R73), which the spec does not give: a free value (DESIGN CHOICE, log
entry 14). -/
opaque Config.currentTrim : Nat → Int

/-- D_Q in DC_SUPPLY mode, which the spec does not state: a free value (DESIGN CHOICE, log entry 14). -/
opaque Config.dqInDc : Int → Int

/-- Phase and amplitude of a vector (I, Q), in the units of MEAS_CHn_REF (R74, R80): free values (DESIGN CHOICE, log entry 11). -/
opaque Config.phaseOf : Int → Int → Nat
opaque Config.ampOf : Int → Int → Nat

/-- What a field of a given width holds when the value computed for it falls outside its format: a free value (DESIGN CHOICE, log entry
15). -/
opaque Config.outOfRange : Nat → Int → Nat

/-- A fix in the track's frame expressed in the frame of a port, which R200 asks for and no rule defines: a free value (DESIGN
CHOICE, log entry 16). -/
opaque Config.toPortFrame : Nat → Int → Int

/-- The centre tick of a system of which a passage has no untagged sample, so that R91 has nothing to fit: a free value
(DESIGN CHOICE, log entry 11). -/
opaque Config.noFit : Nat → Nat

/-- The keep-alive token of a position of the sequence of R265, which the spec does not give: a free value (DESIGN CHOICE, log entry
58). -/
opaque Config.tokenOf : Nat → BitVec 32

/-- The supply voltage VIN_START above which the power-on reset releases, in steps of 10 mV from 9.00 V (R398): a free
value (DESIGN CHOICE, log entry 62). -/
opaque Config.vinStart : Nat

/-- Whether a low pulse on RESET_N longer than 1 µs and shorter than 5 µs resets the device (R406): a free value
(DESIGN CHOICE, log entry 62). -/
opaque Config.pulseResets : Nat → Bool

/-- The value, between 119 and 127, to which ISO 11898-1 lets a controller set a receive error counter above 127 after a frame
received without error (R316), as an offset from 119: a free value (PRESUMED, log entry 46). -/
opaque Config.recAfterPassive : Nat → Nat

/-- What the spec does not give of the factory stream (R237): 0 FMT_MINOR, 1 REV_MIN, 2 REV_MAX, 3 PROJECT_ID, 4
PROJECT_REV, 5 SMALL_DECL, 8 to 15 the words of its digest: free values (DESIGN CHOICE, log entry 17). -/
opaque Config.factoryWord : Nat → BitVec 32

/-- Whether the frame that a controller would send next is already on the bus when a request or an ABORT meets it (R314): the commands
show a frame at its end only. A free value (DESIGN CHOICE, log entry 99). -/
opaque Config.frameStarted : Nat → Bool

/-- Whether a controller's next frame had started when it leaves the bus at a tick, the commands having told of none (R319): a free value
(DESIGN CHOICE, log entry 99). -/
opaque Config.frameCut : Nat → Nat → Bool

/-- The address that one instruction of the firmware reads, if it reads one, by a core's registers, private memory and pipeline position
(R275, R276): the firmware is not in the spec. A free value (DESIGN CHOICE, log entry 100). -/
opaque Config.coreReads : List (Nat × Nat) → List (Nat × Nat) → Nat → Option (BitVec 24)

/-- What one instruction of the firmware makes of a core's registers, private memory and pipeline position with the word read (R275,
R276): a free value (DESIGN CHOICE, log entry 100). -/
opaque Config.coreStep : List (Nat × Nat) → List (Nat × Nat) → Nat → Option Nat → List (Nat × Nat) × List (Nat × Nat) × Nat

/-- The device's identification code under IEEE 1149.1, which the spec does not give (R273): a free value (DESIGN CHOICE, log entry 101). -/
opaque Config.idcode : BitVec 32

/-- The bits that a tester shifts through DBG_TDI into the boundary-scan cells EXTEST drives (R273); the command carries none. -/
opaque Config.scanCells : Nat → BitVec 3

/-- The bytes of a cycle image, whose layout the spec does not give (R350, R352), at most 65,536 of them: a free value, taken anew for
each image (DESIGN CHOICE, log entry 18). -/
opaque Config.imageBytes : Nat → List Byte

/-- The public key in ROM, a point of P-256 by its coordinates, which the spec does not give (R276): a free value (DESIGN CHOICE, log
entry 102). -/
opaque Config.romKey : BitVec 256 × BitVec 256

/-- Whether a ball reads at a level that the command which tells of it leaves open (R286, R290, R297): a free value (DESIGN CHOICE, log
entry 113). -/
opaque Config.ballReads : Nat → Bool

/-- Which of two lines a readback fault concerns where the command names neither (R297): TL_STOP_N, TL_STILL or both: a free value (DESIGN
CHOICE, log entry 113). -/
opaque Config.lineOf : Nat → Fin 3

/-- What is recorded of a transaction where the two lanes compared differ (R255, SPU_MM_INFO, SPU_MM_ADDR): a free value (DESIGN CHOICE,
log entry 98). -/
opaque Config.laneBits : Nat → BitVec 66

end Sys2Proof
end

