-- ==== Sys2Proof/Machine/Regs.lean ====
section
/-!
DEFINITION. The register map: one constant per register field the spec's tables give (chapter "Registers" of
02 to 18), and one descriptor per register. Written out from the tables "Bits | Field | Class | Reset"; a field's
place is kept as a bit address, eight bits to each byte address, so that two fields are the same piece of state
exactly when their bit addresses are equal. Indexed registers carry their stride in bits.
-/

namespace Sys2Proof.Machine

/-- The access classes of R12 to R16 (the class column of every register table). -/
inductive Cls where
  | ro | w1c | wo | static | shadow | live
  deriving DecidableEq, Repr

/-- A register field: bit address of its lowest bit at index 0, distance in bits between two indices, width. -/
structure Fld where
  bit    : Nat
  stride : Nat
  width  : Nat
  deriving DecidableEq, Repr

/-- The bit address of a field at an index. -/
def Fld.key (f : Fld) (i : Nat) : Nat := f.bit + f.stride * i

/-- The same field displaced by a number of bits (a second index, a controller, a port's copy). -/
def Fld.offB (f : Fld) (b : Nat) : Fld := { f with bit := f.bit + b }

/-- The field in controller CAN1 when `x = 1`: the block at 0x0C_4000 (R389). -/
def Fld.can (f : Fld) (x : Nat) : Fld := f.offB (x * (0x4000 * 8))

/-- The copy of port `p` of a register held separately for each host port (R375): one copy per port at one address,
kept here beyond the 24-bit address space of the ports. -/
def Fld.port (f : Fld) (p : Nat) : Fld := f.offB (p * (0x1000000 * 8))

/-- A register: byte address, the strides and counts of its indices, whether it is held separately for each port,
and its fields at index 0 with their classes. -/
structure RegDesc where
  addr    : Nat
  dims    : List (Nat × Nat)
  perPort : Bool
  fields  : List (Fld × Cls)
  deriving DecidableEq, Repr

namespace F

-- EXC_MODE — offset 0x0000 (spec/02_excitation.md)
def EXC_MODE_AUTO_SPARE : Fld := ⟨0x10000 * 8 + 0, 0, 1⟩
def EXC_MODE_CAL_PAIRS : Fld := ⟨0x10000 * 8 + 4, 0, 4⟩
def EXC_MODE_DRIVE_EN : Fld := ⟨0x10000 * 8 + 8, 0, 1⟩
def EXC_MODE_INTLK_IN : Fld := ⟨0x10000 * 8 + 9, 0, 1⟩
-- EXC_MON — offset 0x0004 (spec/02_excitation.md)
def EXC_MON_FREE_SPARES : Fld := ⟨0x10004 * 8 + 0, 0, 6⟩
def EXC_MON_SRC_FAIL : Fld := ⟨0x10004 * 8 + 8, 0, 1⟩
def EXC_MON_NO_SPARE : Fld := ⟨0x10004 * 8 + 9, 0, 1⟩
def EXC_MON_XBAR_ERR : Fld := ⟨0x10004 * 8 + 10, 0, 1⟩
def EXC_MON_PEND_DROP : Fld := ⟨0x10004 * 8 + 11, 0, 1⟩
def EXC_MON_SUBST_CNT : Fld := ⟨0x10004 * 8 + 16, 0, 8⟩
-- EXC_CMD — offset 0x0008 (spec/02_excitation.md)
def EXC_CMD_POINTS : Fld := ⟨0x10008 * 8 + 0, 0, 24⟩
def EXC_CMD_OP : Fld := ⟨0x10008 * 8 + 24, 0, 2⟩
-- EXC_PEND — offset 0x000C (spec/02_excitation.md)
def EXC_PEND_PEND : Fld := ⟨0x1000C * 8 + 0, 0, 24⟩
-- EXC_CLAMPk — offset 0x0010 + 4k (spec/02_excitation.md)
def EXC_CLAMPk_CLAMP : Fld := ⟨0x10010 * 8 + 0, 32, 32⟩
-- EXC_SRCn — offset 0x0020 + 4n (spec/02_excitation.md)
def EXC_SRCn_STATUS : Fld := ⟨0x10020 * 8 + 0, 32, 2⟩
def EXC_SRCn_PIN : Fld := ⟨0x10020 * 8 + 8, 32, 7⟩
def EXC_SRCn_RETIRE : Fld := ⟨0x10020 * 8 + 16, 32, 1⟩
-- EXC_ROUTEp — offset 0x0100 + 4p (spec/02_excitation.md)
def EXC_ROUTEp_SRC : Fld := ⟨0x10100 * 8 + 0, 32, 6⟩
def EXC_ROUTEp_FUNC : Fld := ⟨0x10100 * 8 + 8, 32, 2⟩
def EXC_ROUTEp_CLAMP_CNT : Fld := ⟨0x10100 * 8 + 24, 32, 8⟩
-- EXC_CARRIER_SPn — offset 0x0300 + 4n (spec/02_excitation.md)
def EXC_CARRIER_SPn_CARRIER : Fld := ⟨0x10300 * 8 + 0, 32, 8⟩
def EXC_CARRIER_SPn_AMP : Fld := ⟨0x10300 * 8 + 8, 32, 6⟩
def EXC_CARRIER_SPn_MODE : Fld := ⟨0x10300 * 8 + 16, 32, 2⟩
def EXC_CARRIER_SPn_ALT_PHASE : Fld := ⟨0x10300 * 8 + 20, 32, 1⟩
-- MEAS_STATUS — offset 0x0000 (spec/03_measurement.md)
def MEAS_STATUS_SNAP_DONE : Fld := ⟨0x20000 * 8 + 0, 0, 1⟩
def MEAS_STATUS_SNAP_BUSY : Fld := ⟨0x20000 * 8 + 1, 0, 1⟩
def MEAS_STATUS_SNAP_REFUSED : Fld := ⟨0x20000 * 8 + 2, 0, 1⟩
def MEAS_STATUS_SNAP_PORT : Fld := ⟨0x20000 * 8 + 3, 0, 1⟩
def MEAS_STATUS_REF_BUSY : Fld := ⟨0x20000 * 8 + 8, 0, 1⟩
def MEAS_STATUS_REF_ERR : Fld := ⟨0x20000 * 8 + 9, 0, 1⟩
def MEAS_STATUS_OFFS_ERR : Fld := ⟨0x20000 * 8 + 10, 0, 1⟩
def MEAS_STATUS_DRIFT : Fld := ⟨0x20000 * 8 + 11, 0, 1⟩
-- MEAS_SNAP_REQ — offset 0x0004 (spec/03_measurement.md)
def MEAS_SNAP_REQ_GO : Fld := ⟨0x20004 * 8 + 0, 0, 1⟩
def MEAS_SNAP_REQ_SRC : Fld := ⟨0x20004 * 8 + 4, 0, 2⟩
-- MEAS_SNAP_MASK0 — offset 0x0008, MEAS_SNAP_MASK1 — offset 0x000C (spec/03_measurement.md)
def MEAS_SNAP_MASK0_MASK : Fld := ⟨0x20008 * 8 + 0, 0, 32⟩
-- MEAS_SNAP_MASK0 — offset 0x0008, MEAS_SNAP_MASK1 — offset 0x000C (spec/03_measurement.md)
def MEAS_SNAP_MASK1_MASK : Fld := ⟨0x2000C * 8 + 0, 0, 16⟩
-- MEAS_SNAP_TS_L — offset 0x0010, MEAS_SNAP_TS_H — offset 0x0014 (spec/03_measurement.md)
def MEAS_SNAP_TS_L_TS : Fld := ⟨0x20010 * 8 + 0, 0, 32⟩
-- MEAS_SNAP_TS_L — offset 0x0010, MEAS_SNAP_TS_H — offset 0x0014 (spec/03_measurement.md)
def MEAS_SNAP_TS_H_TS : Fld := ⟨0x20014 * 8 + 0, 0, 8⟩
-- MEAS_SNAP_TAGk — offset 0x0020 + 4k (spec/03_measurement.md)
def MEAS_SNAP_TAGk_TAG : Fld := ⟨0x20020 * 8 + 0, 4, 4⟩
-- MEAS_REF_CMD — offset 0x0040 (spec/03_measurement.md)
def MEAS_REF_CMD_CH : Fld := ⟨0x20040 * 8 + 0, 0, 6⟩
def MEAS_REF_CMD_ALL : Fld := ⟨0x20040 * 8 + 8, 0, 1⟩
-- MEAS_UCURVEu_CFG — offset 0x0080 + 4u (spec/03_measurement.md)
def MEAS_UCURVEu_CFG_D_MIN : Fld := ⟨0x20080 * 8 + 0, 32, 14⟩
def MEAS_UCURVEu_CFG_D_MAX : Fld := ⟨0x20080 * 8 + 14, 32, 14⟩
def MEAS_UCURVEu_CFG_INPUT : Fld := ⟨0x20080 * 8 + 28, 32, 2⟩
-- MEAS_CHn_CFG — offset 0x0100 + 4n (spec/03_measurement.md)
def MEAS_CHn_CFG_CURVE : Fld := ⟨0x20100 * 8 + 0, 32, 4⟩
def MEAS_CHn_CFG_CURVE_PEND : Fld := ⟨0x20100 * 8 + 4, 32, 1⟩
def MEAS_CHn_CFG_OFFS_VALID : Fld := ⟨0x20100 * 8 + 8, 32, 1⟩
def MEAS_CHn_CFG_B_VALID : Fld := ⟨0x20100 * 8 + 9, 32, 1⟩
def MEAS_CHn_CFG_DRIFT : Fld := ⟨0x20100 * 8 + 10, 32, 1⟩
def MEAS_CHn_CFG_CAL_BAD : Fld := ⟨0x20100 * 8 + 11, 32, 1⟩
-- MEAS_CHn_REF — offset 0x0200 + 4n (spec/03_measurement.md)
def MEAS_CHn_REF_REF_AMP : Fld := ⟨0x20200 * 8 + 0, 32, 16⟩
def MEAS_CHn_REF_REF_PHASE : Fld := ⟨0x20200 * 8 + 16, 32, 16⟩
-- MEAS_CHn_OFFS_I — offset 0x0300 + 8n, MEAS_CHn_OFFS_Q — offset 0x0304 + 8n (spec/03_measurement.md)
def MEAS_CHn_OFFS_I_OFFS : Fld := ⟨0x20300 * 8 + 0, 64, 32⟩
-- MEAS_CHn_OFFS_I — offset 0x0300 + 8n, MEAS_CHn_OFFS_Q — offset 0x0304 + 8n (spec/03_measurement.md)
def MEAS_CHn_OFFS_Q_OFFS : Fld := ⟨0x20304 * 8 + 0, 64, 32⟩
-- MEAS_CHn_NOISE — offset 0x0500 + 4n (spec/03_measurement.md)
def MEAS_CHn_NOISE_SIGMA : Fld := ⟨0x20500 * 8 + 0, 32, 32⟩
-- MEAS_CHn_B1 — offset 0x0600 + 4n (spec/03_measurement.md)
def MEAS_CHn_B1_B1 : Fld := ⟨0x20600 * 8 + 0, 32, 32⟩
-- MEAS_CHn_BPASS — offset 0x0700 + 4n (spec/03_measurement.md)
def MEAS_CHn_BPASS_B : Fld := ⟨0x20700 * 8 + 0, 32, 31⟩
def MEAS_CHn_BPASS_VALID : Fld := ⟨0x20700 * 8 + 31, 32, 1⟩
-- MEAS_SNAP_CHn_L — offset 0x1000 + 8n, MEAS_SNAP_CHn_H — offset 0x1004 + 8n (spec/03_measurement.md)
def MEAS_SNAP_CHn_L_VALUE : Fld := ⟨0x21000 * 8 + 0, 64, 32⟩
-- MEAS_SNAP_CHn_L — offset 0x1000 + 8n, MEAS_SNAP_CHn_H — offset 0x1004 + 8n (spec/03_measurement.md)
def MEAS_SNAP_CHn_H_VALUE : Fld := ⟨0x21004 * 8 + 0, 64, 8⟩
-- MEAS_UCURVEu_KNOTj — offset 0x2000 + 0x100u + 4j (spec/03_measurement.md)
def MEAS_UCURVEu_KNOTj_KNOT : Fld := ⟨0x22000 * 8 + 0, 32, 32⟩
-- SUP_TONE_CFG — offset 0x0000 (spec/04_sensor_supervision.md)
def SUP_TONE_CFG_DEV_LIM : Fld := ⟨0x30000 * 8 + 0, 0, 6⟩
def SUP_TONE_CFG_PH_LIM : Fld := ⟨0x30000 * 8 + 8, 0, 5⟩
def SUP_TONE_CFG_XT_LIM : Fld := ⟨0x30000 * 8 + 16, 0, 5⟩
def SUP_TONE_CFG_AGE_LIM : Fld := ⟨0x30000 * 8 + 24, 0, 8⟩
-- SUP_STATUS — offset 0x0004 (spec/04_sensor_supervision.md)
def SUP_STATUS_SLOT : Fld := ⟨0x30004 * 8 + 0, 0, 6⟩
def SUP_STATUS_TONE_ERR : Fld := ⟨0x30004 * 8 + 8, 0, 1⟩
def SUP_STATUS_FAULT_NEW : Fld := ⟨0x30004 * 8 + 9, 0, 1⟩
def SUP_STATUS_ZREF_BUSY : Fld := ⟨0x30004 * 8 + 10, 0, 1⟩
def SUP_STATUS_ZREF_ERR : Fld := ⟨0x30004 * 8 + 11, 0, 1⟩
def SUP_STATUS_CLEAR_LAPSE : Fld := ⟨0x30004 * 8 + 12, 0, 1⟩
def SUP_STATUS_STALE_ANY : Fld := ⟨0x30004 * 8 + 13, 0, 1⟩
-- SUP_CMD — offset 0x0008 (spec/04_sensor_supervision.md)
def SUP_CMD_CH : Fld := ⟨0x30008 * 8 + 0, 0, 6⟩
def SUP_CMD_ALL : Fld := ⟨0x30008 * 8 + 8, 0, 1⟩
def SUP_CMD_OP : Fld := ⟨0x30008 * 8 + 16, 0, 2⟩
-- SUP_FAULTY0 — offset 0x0010, SUP_FAULTY1 — offset 0x0014 (spec/04_sensor_supervision.md)
def SUP_FAULTY0_FAULTY : Fld := ⟨0x30010 * 8 + 0, 0, 32⟩
-- SUP_FAULTY0 — offset 0x0010, SUP_FAULTY1 — offset 0x0014 (spec/04_sensor_supervision.md)
def SUP_FAULTY1_FAULTY : Fld := ⟨0x30014 * 8 + 0, 0, 16⟩
-- SUP_SELF — offset 0x0018 (spec/04_sensor_supervision.md)
def SUP_SELF_MAG : Fld := ⟨0x30018 * 8 + 0, 0, 16⟩
def SUP_SELF_PASS48 : Fld := ⟨0x30018 * 8 + 16, 0, 1⟩
def SUP_SELF_PASS49 : Fld := ⟨0x30018 * 8 + 17, 0, 1⟩
-- SUP_CHn_ZREF — offset 0x0100 + 4n (spec/04_sensor_supervision.md)
def SUP_CHn_ZREF_MAG : Fld := ⟨0x30100 * 8 + 0, 32, 16⟩
def SUP_CHn_ZREF_PHASE : Fld := ⟨0x30100 * 8 + 16, 32, 16⟩
-- SUP_CHn_IMP — offset 0x0200 + 4n (spec/04_sensor_supervision.md)
def SUP_CHn_IMP_MAG : Fld := ⟨0x30200 * 8 + 0, 32, 16⟩
def SUP_CHn_IMP_PHASE : Fld := ⟨0x30200 * 8 + 16, 32, 16⟩
-- SUP_CHn_FAULT — offset 0x0300 + 4n (spec/04_sensor_supervision.md)
def SUP_CHn_FAULT_REASON : Fld := ⟨0x30300 * 8 + 0, 32, 4⟩
def SUP_CHn_FAULT_CLR_ARMED : Fld := ⟨0x30300 * 8 + 8, 32, 1⟩
def SUP_CHn_FAULT_PASS_CNT : Fld := ⟨0x30300 * 8 + 9, 32, 3⟩
def SUP_CHn_FAULT_FLAG_CNT : Fld := ⟨0x30300 * 8 + 16, 32, 8⟩
def SUP_CHn_FAULT_GLITCH_CNT : Fld := ⟨0x30300 * 8 + 24, 32, 8⟩
-- SUP_CHn_VISIT — offset 0x0400 + 4n (spec/04_sensor_supervision.md)
def SUP_CHn_VISIT_RESULT : Fld := ⟨0x30400 * 8 + 0, 32, 3⟩
def SUP_CHn_VISIT_STALE : Fld := ⟨0x30400 * 8 + 3, 32, 1⟩
def SUP_CHn_VISIT_AGE : Fld := ⟨0x30400 * 8 + 8, 32, 24⟩
-- WEV_STATUS — offset 0x0000 (spec/05_wheel_events.md)
def WEV_STATUS_SEQ_FAULT : Fld := ⟨0x40000 * 8 + 0, 0, 1⟩
def WEV_STATUS_HYST_LOW : Fld := ⟨0x40000 * 8 + 1, 0, 1⟩
def WEV_STATUS_PARK_NEW : Fld := ⟨0x40000 * 8 + 2, 0, 1⟩
def WEV_STATUS_SERIAL : Fld := ⟨0x40000 * 8 + 16, 0, 16⟩
-- WEV_GQ_FILTER — offset 0x0004 (spec/05_wheel_events.md)
def WEV_GQ_FILTER_KINDS : Fld := ⟨0x40004 * 8 + 0, 0, 9⟩
-- WEV_CHn_THR — offset 0x0100 + 4n (spec/05_wheel_events.md)
def WEV_CHn_THR_ON_THR : Fld := ⟨0x40100 * 8 + 0, 32, 16⟩
def WEV_CHn_THR_OFF_THR : Fld := ⟨0x40100 * 8 + 16, 32, 16⟩
-- WEV_SPn_GEOM — offset 0x0200 + 4n (spec/05_wheel_events.md)
def WEV_SPn_GEOM_SPACING : Fld := ⟨0x40200 * 8 + 0, 32, 11⟩
def WEV_SPn_GEOM_FIELD : Fld := ⟨0x40200 * 8 + 16, 32, 11⟩
def WEV_SPn_GEOM_ORIENT : Fld := ⟨0x40200 * 8 + 27, 32, 1⟩
-- WEV_SPn_CFG — offset 0x0300 + 4n (spec/05_wheel_events.md)
def WEV_SPn_CFG_HOLD : Fld := ⟨0x40300 * 8 + 0, 32, 4⟩
def WEV_SPn_CFG_PARK_TIME : Fld := ⟨0x40300 * 8 + 8, 32, 8⟩
def WEV_SPn_CFG_PARK_BAND : Fld := ⟨0x40300 * 8 + 16, 32, 8⟩
-- WEV_SPn_STATE — offset 0x0400 + 4n (spec/05_wheel_events.md)
def WEV_SPn_STATE_SEQ : Fld := ⟨0x40400 * 8 + 0, 32, 4⟩
def WEV_SPn_STATE_ENTRY : Fld := ⟨0x40400 * 8 + 4, 32, 2⟩
def WEV_SPn_STATE_DIR_LAST : Fld := ⟨0x40400 * 8 + 6, 32, 1⟩
def WEV_SPn_STATE_THR_PEND : Fld := ⟨0x40400 * 8 + 7, 32, 1⟩
def WEV_SPn_STATE_STATE_A : Fld := ⟨0x40400 * 8 + 8, 32, 3⟩
def WEV_SPn_STATE_STATE_B : Fld := ⟨0x40400 * 8 + 11, 32, 3⟩
def WEV_SPn_STATE_HYST_LOW_A : Fld := ⟨0x40400 * 8 + 14, 32, 1⟩
def WEV_SPn_STATE_HYST_LOW_B : Fld := ⟨0x40400 * 8 + 15, 32, 1⟩
-- WEV_SPn_PCNT — offset 0x0500 + 4n (spec/05_wheel_events.md)
def WEV_SPn_PCNT_POS : Fld := ⟨0x40500 * 8 + 0, 32, 16⟩
def WEV_SPn_PCNT_NEG : Fld := ⟨0x40500 * 8 + 16, 32, 16⟩
-- WEV_SPn_XCNT — offset 0x0600 + 4n (spec/05_wheel_events.md)
def WEV_SPn_XCNT_EDDY : Fld := ⟨0x40600 * 8 + 0, 32, 8⟩
def WEV_SPn_XCNT_HOLD_CANCEL : Fld := ⟨0x40600 * 8 + 8, 32, 8⟩
def WEV_SPn_XCNT_SEQ_FAULT : Fld := ⟨0x40600 * 8 + 16, 32, 8⟩
def WEV_SPn_XCNT_UNRESOLVED : Fld := ⟨0x40600 * 8 + 24, 32, 8⟩
-- WEV_CPc_MAP — offset 0x0700 + 4c (spec/05_wheel_events.md)
def WEV_CPc_MAP_SP : Fld := ⟨0x40700 * 8 + 0, 32, 5⟩
def WEV_CPc_MAP_VALID : Fld := ⟨0x40700 * 8 + 7, 32, 1⟩
-- LEDG_CFG — offset 0x0000 (spec/06_axle_ledger.md)
def LEDG_CFG_W : Fld := ⟨0x50000 * 8 + 0, 0, 5⟩
def LEDG_CFG_LOOKAHEAD : Fld := ⟨0x50000 * 8 + 8, 0, 5⟩
def LEDG_CFG_D_ACC : Fld := ⟨0x50000 * 8 + 16, 0, 8⟩
def LEDG_CFG_D_CAP : Fld := ⟨0x50000 * 8 + 24, 0, 8⟩
-- LEDG_COST — offset 0x0004 (spec/06_axle_ledger.md)
def LEDG_COST_INS_COST : Fld := ⟨0x50004 * 8 + 0, 0, 8⟩
def LEDG_COST_SKIP_COST : Fld := ⟨0x50004 * 8 + 8, 0, 8⟩
def LEDG_COST_QUIET : Fld := ⟨0x50004 * 8 + 16, 0, 16⟩
-- LEDG_TOL0 — offset 0x0008, LEDG_TOL1 — offset 0x000C, LEDG_TOL2 — offset 0x0010 (spec/06_axle_ledger.md)
def LEDG_TOL0_PEAK_TOL : Fld := ⟨0x50008 * 8 + 0, 0, 16⟩
def LEDG_TOL0_FLEN_TOL : Fld := ⟨0x50008 * 8 + 16, 0, 16⟩
-- LEDG_TOL0 — offset 0x0008, LEDG_TOL1 — offset 0x000C, LEDG_TOL2 — offset 0x0010 (spec/06_axle_ledger.md)
def LEDG_TOL1_ABR_TOL : Fld := ⟨0x5000C * 8 + 0, 0, 16⟩
def LEDG_TOL1_ASYM_TOL : Fld := ⟨0x5000C * 8 + 16, 0, 16⟩
-- LEDG_TOL0 — offset 0x0008, LEDG_TOL1 — offset 0x000C, LEDG_TOL2 — offset 0x0010 (spec/06_axle_ledger.md)
def LEDG_TOL2_DIAM_TOL : Fld := ⟨0x50010 * 8 + 0, 0, 16⟩
def LEDG_TOL2_GAP_TOL : Fld := ⟨0x50010 * 8 + 16, 0, 16⟩
-- LEDG_SLIP_CFG — offset 0x0014 (spec/06_axle_ledger.md)
def LEDG_SLIP_CFG_SLIP_LIM : Fld := ⟨0x50014 * 8 + 0, 0, 16⟩
def LEDG_SLIP_CFG_MIN_DIST : Fld := ⟨0x50014 * 8 + 16, 0, 16⟩
-- LEDG_STATUS — offset 0x0020 (spec/06_axle_ledger.md)
def LEDG_STATUS_IN_FLIGHT : Fld := ⟨0x50020 * 8 + 0, 0, 13⟩
def LEDG_STATUS_LEDGER_FULL : Fld := ⟨0x50020 * 8 + 16, 0, 1⟩
def LEDG_STATUS_LAPSE_NEW : Fld := ⟨0x50020 * 8 + 17, 0, 1⟩
def LEDG_STATUS_LOC_NEW : Fld := ⟨0x50020 * 8 + 18, 0, 1⟩
def LEDG_STATUS_SLIP_NEW : Fld := ⟨0x50020 * 8 + 19, 0, 1⟩
def LEDG_STATUS_QUEUE_FULL : Fld := ⟨0x50020 * 8 + 20, 0, 1⟩
def LEDG_STATUS_ENG0_BUSY : Fld := ⟨0x50020 * 8 + 21, 0, 1⟩
def LEDG_STATUS_ENG1_BUSY : Fld := ⟨0x50020 * 8 + 22, 0, 1⟩
-- LEDG_QUEUE — offset 0x0024 (spec/06_axle_ledger.md)
def LEDG_QUEUE_QDEPTH : Fld := ⟨0x50024 * 8 + 0, 0, 11⟩
def LEDG_QUEUE_QMAX : Fld := ⟨0x50024 * 8 + 16, 0, 11⟩
-- LEDG_QAGE — offset 0x0028 (spec/06_axle_ledger.md)
def LEDG_QAGE_OLDEST_AGE : Fld := ⟨0x50028 * 8 + 0, 0, 16⟩
-- LEDG_CNT — offset 0x002C (spec/06_axle_ledger.md)
def LEDG_CNT_LAPSED_CNT : Fld := ⟨0x5002C * 8 + 0, 0, 16⟩
def LEDG_CNT_CREATE_FAIL : Fld := ⟨0x5002C * 8 + 16, 0, 16⟩
-- LEDG_JOBS — offset 0x0030 (spec/06_axle_ledger.md)
def LEDG_JOBS_JOBS : Fld := ⟨0x50030 * 8 + 0, 0, 32⟩
-- LEDG_LOC_STAT — offset 0x0040 (spec/06_axle_ledger.md)
def LEDG_LOC_STAT_LOC_COUNT : Fld := ⟨0x50040 * 8 + 0, 0, 5⟩
def LEDG_LOC_STAT_LOC_OVF : Fld := ⟨0x50040 * 8 + 8, 0, 1⟩
-- LEDG_LOC_INFO — offset 0x0044 (spec/06_axle_ledger.md)
def LEDG_LOC_INFO_KIND : Fld := ⟨0x50044 * 8 + 0, 0, 3⟩
def LEDG_LOC_INFO_CP : Fld := ⟨0x50044 * 8 + 8, 0, 5⟩
def LEDG_LOC_INFO_EVID_UP : Fld := ⟨0x50044 * 8 + 16, 0, 6⟩
def LEDG_LOC_INFO_EVID_DN : Fld := ⟨0x50044 * 8 + 24, 0, 6⟩
-- LEDG_LOC_AXLE — offset 0x0048 (spec/06_axle_ledger.md)
def LEDG_LOC_AXLE_AXLE_ID : Fld := ⟨0x50048 * 8 + 0, 0, 32⟩
-- LEDG_LOC_TS_L — offset 0x004C, LEDG_LOC_TS_H — offset 0x0050 (spec/06_axle_ledger.md)
def LEDG_LOC_TS_L_TS : Fld := ⟨0x5004C * 8 + 0, 0, 32⟩
-- LEDG_LOC_TS_L — offset 0x004C, LEDG_LOC_TS_H — offset 0x0050 (spec/06_axle_ledger.md)
def LEDG_LOC_TS_H_TS : Fld := ⟨0x50050 * 8 + 0, 0, 8⟩
-- LEDG_LOC_POP — offset 0x0054 (spec/06_axle_ledger.md)
def LEDG_LOC_POP_POP : Fld := ⟨0x50054 * 8 + 0, 0, 1⟩
-- LEDG_SLIP_PORTk — offset 0x0060 + 4k (spec/06_axle_ledger.md)
def LEDG_SLIP_PORTk_SLIP : Fld := ⟨0x50060 * 8 + 0, 32, 32⟩
-- LEDG_REC_REQ — offset 0x0080 (spec/06_axle_ledger.md)
def LEDG_REC_REQ_SLOT : Fld := ⟨0x50080 * 8 + 0, 0, 12⟩
def LEDG_REC_REQ_GO : Fld := ⟨0x50080 * 8 + 31, 0, 1⟩
-- LEDG_REC_STAT — offset 0x0084 (spec/06_axle_ledger.md)
def LEDG_REC_STAT_DONE : Fld := ⟨0x50084 * 8 + 0, 0, 1⟩
def LEDG_REC_STAT_SLOT : Fld := ⟨0x50084 * 8 + 16, 0, 12⟩
-- LEDG_REC_Wk — offset 0x0100 + 4k (spec/06_axle_ledger.md)
def LEDG_REC_Wk_DATA : Fld := ⟨0x50100 * 8 + 0, 32, 32⟩
-- LEDG_SPn_CFG — offset 0x0200 + 4n (spec/06_axle_ledger.md)
def LEDG_SPn_CFG_STATION : Fld := ⟨0x50200 * 8 + 0, 32, 1⟩
def LEDG_SPn_CFG_HOST_SEC : Fld := ⟨0x50200 * 8 + 2, 32, 6⟩
def LEDG_SPn_CFG_SLIP_PORT : Fld := ⟨0x50200 * 8 + 8, 32, 2⟩
def LEDG_SPn_CFG_SLIP_EN : Fld := ⟨0x50200 * 8 + 10, 32, 1⟩
-- LEDG_SPn_REF — offset 0x0280 + 4n (spec/06_axle_ledger.md)
def LEDG_SPn_REF_ABR_REF : Fld := ⟨0x50280 * 8 + 0, 32, 16⟩
def LEDG_SPn_REF_DIAM_REF : Fld := ⟨0x50280 * 8 + 16, 32, 16⟩
-- LEDG_SECn — offset 0x0300 + 4n (spec/06_axle_ledger.md)
def LEDG_SECn_LCOUNT : Fld := ⟨0x50300 * 8 + 0, 32, 13⟩
def LEDG_SECn_DIFF : Fld := ⟨0x50300 * 8 + 13, 32, 1⟩
def LEDG_SECn_EVID : Fld := ⟨0x50300 * 8 + 14, 32, 1⟩
def LEDG_SECn_ID_OK : Fld := ⟨0x50300 * 8 + 15, 32, 1⟩
def LEDG_SECn_BAD_DIST : Fld := ⟨0x50300 * 8 + 16, 32, 1⟩
def LEDG_SECn_BAD_LAPSED : Fld := ⟨0x50300 * 8 + 17, 32, 1⟩
def LEDG_SECn_BAD_VIRT : Fld := ⟨0x50300 * 8 + 18, 32, 1⟩
def LEDG_SECn_BAD_ALIGN : Fld := ⟨0x50300 * 8 + 19, 32, 1⟩
def LEDG_SECn_COVER_LOST : Fld := ⟨0x50300 * 8 + 20, 32, 1⟩
def LEDG_SECn_PENDING : Fld := ⟨0x50300 * 8 + 21, 32, 1⟩
-- SECT_STATUS — offset 0x0000 (spec/07_section_states.md)
def SECT_STATUS_DIST_NEW : Fld := ⟨0x60000 * 8 + 0, 0, 1⟩
def SECT_STATUS_RESTORED : Fld := ⟨0x60000 * 8 + 1, 0, 1⟩
def SECT_STATUS_REJECT : Fld := ⟨0x60000 * 8 + 2, 0, 1⟩
def SECT_STATUS_ALIGN_ERR : Fld := ⟨0x60000 * 8 + 3, 0, 1⟩
def SECT_STATUS_LIMIT : Fld := ⟨0x60000 * 8 + 4, 0, 1⟩
def SECT_STATUS_N_DIST : Fld := ⟨0x60000 * 8 + 16, 0, 6⟩
-- SECT_RESTORE_CMD — offset 0x0004 (spec/07_section_states.md)
def SECT_RESTORE_CMD_SEC : Fld := ⟨0x60004 * 8 + 0, 0, 6⟩
def SECT_RESTORE_CMD_OP : Fld := ⟨0x60004 * 8 + 8, 0, 3⟩
def SECT_RESTORE_CMD_TOKEN : Fld := ⟨0x60004 * 8 + 16, 0, 16⟩
-- SECT_RESTORE_RES — offset 0x0008 (spec/07_section_states.md)
def SECT_RESTORE_RES_SEC : Fld := ⟨0x60008 * 8 + 0, 0, 6⟩
def SECT_RESTORE_RES_OP : Fld := ⟨0x60008 * 8 + 8, 0, 3⟩
def SECT_RESTORE_RES_RESULT : Fld := ⟨0x60008 * 8 + 12, 0, 2⟩
def SECT_RESTORE_RES_REASON : Fld := ⟨0x60008 * 8 + 16, 0, 4⟩
-- SECT_DIRECT_A — offset 0x0010, SECT_DIRECT_B — offset 0x0014 (spec/07_section_states.md)
def SECT_DIRECT_A_SEC : Fld := ⟨0x60010 * 8 + 0, 0, 6⟩
def SECT_DIRECT_A_VALID : Fld := ⟨0x60010 * 8 + 7, 0, 1⟩
def SECT_DIRECT_A_AGE : Fld := ⟨0x60010 * 8 + 16, 0, 16⟩
-- SECT_DIRECT_A — offset 0x0010, SECT_DIRECT_B — offset 0x0014 (spec/07_section_states.md)
def SECT_DIRECT_B_SEC : Fld := ⟨0x60014 * 8 + 0, 0, 6⟩
def SECT_DIRECT_B_VALID : Fld := ⟨0x60014 * 8 + 7, 0, 1⟩
def SECT_DIRECT_B_AGE : Fld := ⟨0x60014 * 8 + 16, 0, 16⟩
-- SECT_OCC0 — offset 0x0020, SECT_OCC1 — offset 0x0024 (spec/07_section_states.md)
def SECT_OCC0_OCC : Fld := ⟨0x60020 * 8 + 0, 0, 32⟩
-- SECT_OCC0 — offset 0x0020, SECT_OCC1 — offset 0x0024 (spec/07_section_states.md)
def SECT_OCC1_OCC : Fld := ⟨0x60024 * 8 + 0, 0, 16⟩
-- SECT_n_STATE — offset 0x0100 + 4n (spec/07_section_states.md)
def SECT_n_STATE_STATE : Fld := ⟨0x60100 * 8 + 0, 32, 2⟩
def SECT_n_STATE_EARLY : Fld := ⟨0x60100 * 8 + 2, 32, 1⟩
def SECT_n_STATE_OCC : Fld := ⟨0x60100 * 8 + 3, 32, 1⟩
def SECT_n_STATE_LULL : Fld := ⟨0x60100 * 8 + 4, 32, 1⟩
def SECT_n_STATE_MOVING : Fld := ⟨0x60100 * 8 + 5, 32, 1⟩
def SECT_n_STATE_SINGLE : Fld := ⟨0x60100 * 8 + 6, 32, 1⟩
def SECT_n_STATE_MULTI : Fld := ⟨0x60100 * 8 + 7, 32, 1⟩
def SECT_n_STATE_CAUSE : Fld := ⟨0x60100 * 8 + 8, 32, 4⟩
def SECT_n_STATE_CAUSE_CP : Fld := ⟨0x60100 * 8 + 12, 32, 6⟩
def SECT_n_STATE_ID_READY : Fld := ⟨0x60100 * 8 + 18, 32, 1⟩
def SECT_n_STATE_STBY_AGREE : Fld := ⟨0x60100 * 8 + 19, 32, 1⟩
def SECT_n_STATE_USED : Fld := ⟨0x60100 * 8 + 20, 32, 1⟩
-- SECT_n_CNT — offset 0x0200 + 4n (spec/07_section_states.md)
def SECT_n_CNT_COUNT : Fld := ⟨0x60200 * 8 + 0, 32, 12⟩
def SECT_n_CNT_SWEEP_AXLES : Fld := ⟨0x60200 * 8 + 16, 32, 8⟩
def SECT_n_CNT_LIMIT_CNT : Fld := ⟨0x60200 * 8 + 24, 32, 8⟩
-- SECT_n_CFG — offset 0x0300 + 4n (spec/07_section_states.md)
def SECT_n_CFG_EARLY_EN : Fld := ⟨0x60300 * 8 + 0, 32, 1⟩
def SECT_n_CFG_DIRECT_EN : Fld := ⟨0x60300 * 8 + 1, 32, 1⟩
def SECT_n_CFG_ID_EN : Fld := ⟨0x60300 * 8 + 2, 32, 1⟩
def SECT_n_CFG_MOVING : Fld := ⟨0x60300 * 8 + 3, 32, 1⟩
def SECT_n_CFG_PORT : Fld := ⟨0x60300 * 8 + 4, 32, 2⟩
def SECT_n_CFG_SWEEP_MIN : Fld := ⟨0x60300 * 8 + 8, 32, 4⟩
def SECT_n_CFG_NBND : Fld := ⟨0x60300 * 8 + 12, 32, 4⟩
-- SECT_n_BND0 (spec/07_section_states.md)
def SECT_n_BND_CP : Fld := ⟨0x60400 * 8 + 0, 64, 5⟩
def SECT_n_BND_SENSE : Fld := ⟨0x60400 * 8 + 5, 64, 1⟩
def SECT_n_BND_ALIGNED : Fld := ⟨0x60400 * 8 + 6, 64, 1⟩
def SECT_n_BND_VALID : Fld := ⟨0x60400 * 8 + 7, 64, 1⟩
-- SECT_n_BND1 (spec/07_section_states.md)
-- SECT_VCPk_CFG — offset 0x0800 + 0x20k (spec/07_section_states.md)
def SECT_VCPk_CFG_PORT : Fld := ⟨0x60800 * 8 + 0, 256, 2⟩
def SECT_VCPk_CFG_MSEC : Fld := ⟨0x60800 * 8 + 8, 256, 6⟩
def SECT_VCPk_CFG_VALID : Fld := ⟨0x60800 * 8 + 31, 256, 1⟩
-- SECT_VCPk_POS_L — offset 0x0804 + 0x20k, SECT_VCPk_POS_H — offset 0x0808 + 0x20k (spec/07_section_states.md)
def SECT_VCPk_POS_L_POS : Fld := ⟨0x60804 * 8 + 0, 256, 32⟩
-- SECT_VCPk_POS_L — offset 0x0804 + 0x20k, SECT_VCPk_POS_H — offset 0x0808 + 0x20k (spec/07_section_states.md)
def SECT_VCPk_POS_H_POS : Fld := ⟨0x60808 * 8 + 0, 256, 8⟩
-- SECT_VCPk_RMIN_L/H — offset 0x080C/0x0810 + 0x20k, SECT_VCPk_RMAX_L/H — offset 0x0814/0x0818 + 0x20k (spec/07_section_states.md)
def SECT_VCPk_RMIN_L_RMIN : Fld := ⟨0x6080C * 8 + 0, 256, 32⟩
-- SECT_VCPk_RMIN_L/H — offset 0x080C/0x0810 + 0x20k, SECT_VCPk_RMAX_L/H — offset 0x0814/0x0818 + 0x20k (spec/07_section_states.md)
def SECT_VCPk_RMIN_H_RMIN : Fld := ⟨0x60810 * 8 + 0, 256, 8⟩
-- SECT_VCPk_RMIN_L/H — offset 0x080C/0x0810 + 0x20k, SECT_VCPk_RMAX_L/H — offset 0x0814/0x0818 + 0x20k (spec/07_section_states.md)
def SECT_VCPk_RMAX_L_RMAX : Fld := ⟨0x60814 * 8 + 0, 256, 32⟩
-- SECT_VCPk_RMIN_L/H — offset 0x080C/0x0810 + 0x20k, SECT_VCPk_RMAX_L/H — offset 0x0814/0x0818 + 0x20k (spec/07_section_states.md)
def SECT_VCPk_RMAX_H_RMAX : Fld := ⟨0x60818 * 8 + 0, 256, 8⟩
-- SECT_VCPk_STAT — offset 0x081C + 0x20k (spec/07_section_states.md)
def SECT_VCPk_STAT_STATE : Fld := ⟨0x6081C * 8 + 0, 256, 3⟩
def SECT_VCPk_STAT_LATE : Fld := ⟨0x6081C * 8 + 3, 256, 1⟩
def SECT_VCPk_STAT_OUT_OF_RANGE : Fld := ⟨0x6081C * 8 + 4, 256, 1⟩
def SECT_VCPk_STAT_PORT_FAULT : Fld := ⟨0x6081C * 8 + 5, 256, 1⟩
-- SECT_ALNj_CFG — offset 0x0A00 + 0x20j (spec/07_section_states.md)
def SECT_ALNj_CFG_CP : Fld := ⟨0x60A00 * 8 + 0, 256, 5⟩
def SECT_ALNj_CFG_MSEC : Fld := ⟨0x60A00 * 8 + 8, 256, 6⟩
def SECT_ALNj_CFG_FSEC : Fld := ⟨0x60A00 * 8 + 16, 256, 6⟩
def SECT_ALNj_CFG_VALID : Fld := ⟨0x60A00 * 8 + 31, 256, 1⟩
-- SECT_ALNj_MIN_L/H — offset 0x0A04/0x0A08 + 0x20j, SECT_ALNj_MAX_L/H — offset 0x0A0C/0x0A10 + 0x20j (spec/07_section_states.md)
def SECT_ALNj_MIN_L_MIN : Fld := ⟨0x60A04 * 8 + 0, 256, 32⟩
-- SECT_ALNj_MIN_L/H — offset 0x0A04/0x0A08 + 0x20j, SECT_ALNj_MAX_L/H — offset 0x0A0C/0x0A10 + 0x20j (spec/07_section_states.md)
def SECT_ALNj_MIN_H_MIN : Fld := ⟨0x60A08 * 8 + 0, 256, 8⟩
-- SECT_ALNj_MIN_L/H — offset 0x0A04/0x0A08 + 0x20j, SECT_ALNj_MAX_L/H — offset 0x0A0C/0x0A10 + 0x20j (spec/07_section_states.md)
def SECT_ALNj_MAX_L_MAX : Fld := ⟨0x60A0C * 8 + 0, 256, 32⟩
-- SECT_ALNj_MIN_L/H — offset 0x0A04/0x0A08 + 0x20j, SECT_ALNj_MAX_L/H — offset 0x0A0C/0x0A10 + 0x20j (spec/07_section_states.md)
def SECT_ALNj_MAX_H_MAX : Fld := ⟨0x60A10 * 8 + 0, 256, 8⟩
-- SECT_ALNj_MIN_L/H — offset 0x0A04/0x0A08 + 0x20j, SECT_ALNj_MAX_L/H — offset 0x0A0C/0x0A10 + 0x20j (spec/07_section_states.md)
-- SPOS_STATUS — offset 0x0000 (spec/08_speed_position.md)
def SPOS_STATUS_DIRCHG : Fld := ⟨0x70000 * 8 + 0, 0, 1⟩
def SPOS_STATUS_LULL_ON : Fld := ⟨0x70000 * 8 + 1, 0, 1⟩
def SPOS_STATUS_LULL_OFF : Fld := ⟨0x70000 * 8 + 2, 0, 1⟩
def SPOS_STATUS_STALE : Fld := ⟨0x70000 * 8 + 3, 0, 1⟩
def SPOS_STATUS_FIX_ERR : Fld := ⟨0x70000 * 8 + 4, 0, 1⟩
-- SPOS_IRQ_MASK — offset 0x0004 (spec/08_speed_position.md)
def SPOS_IRQ_MASK_MASK : Fld := ⟨0x70004 * 8 + 0, 0, 5⟩
-- SPOS_CFG — offset 0x0008 (spec/08_speed_position.md)
def SPOS_CFG_LULL_TIME : Fld := ⟨0x70008 * 8 + 0, 0, 16⟩
def SPOS_CFG_FIX_LIM : Fld := ⟨0x70008 * 8 + 16, 0, 16⟩
-- SPOS_LULL0 — offset 0x0010, SPOS_LULL1 — offset 0x0014 (spec/08_speed_position.md)
def SPOS_LULL0_LULL : Fld := ⟨0x70010 * 8 + 0, 0, 32⟩
-- SPOS_LULL0 — offset 0x0010, SPOS_LULL1 — offset 0x0014 (spec/08_speed_position.md)
def SPOS_LULL1_LULL : Fld := ⟨0x70014 * 8 + 0, 0, 16⟩
-- SPOS_AXQ_ID — offset 0x0020 (spec/08_speed_position.md)
def SPOS_AXQ_ID_AXLE_ID : Fld := ⟨0x70020 * 8 + 0, 0, 32⟩
-- SPOS_AXQ_REQ — offset 0x0024 (spec/08_speed_position.md)
def SPOS_AXQ_REQ_GO : Fld := ⟨0x70024 * 8 + 0, 0, 1⟩
-- SPOS_AXQ_STAT — offset 0x0028 (spec/08_speed_position.md)
def SPOS_AXQ_STAT_DONE : Fld := ⟨0x70028 * 8 + 0, 0, 1⟩
def SPOS_AXQ_STAT_POS_ST : Fld := ⟨0x70028 * 8 + 1, 0, 3⟩
def SPOS_AXQ_STAT_FRAME : Fld := ⟨0x70028 * 8 + 4, 0, 3⟩
-- SPOS_AXQ_POS_L — offset 0x002C, SPOS_AXQ_POS_H — offset 0x0030 (spec/08_speed_position.md)
def SPOS_AXQ_POS_L_POS : Fld := ⟨0x7002C * 8 + 0, 0, 32⟩
-- SPOS_AXQ_POS_L — offset 0x002C, SPOS_AXQ_POS_H — offset 0x0030 (spec/08_speed_position.md)
def SPOS_AXQ_POS_H_POS : Fld := ⟨0x70030 * 8 + 0, 0, 8⟩
-- SPOS_AXQ_TS_L — offset 0x0034, SPOS_AXQ_TS_H — offset 0x0038 (spec/08_speed_position.md)
def SPOS_AXQ_TS_L_TS : Fld := ⟨0x70034 * 8 + 0, 0, 32⟩
-- SPOS_AXQ_TS_L — offset 0x0034, SPOS_AXQ_TS_H — offset 0x0038 (spec/08_speed_position.md)
def SPOS_AXQ_TS_H_TS : Fld := ⟨0x70038 * 8 + 0, 0, 8⟩
-- SPOS_SPn_CFG — offset 0x0100 + 4n (spec/08_speed_position.md)
def SPOS_SPn_CFG_SPD_SCALE : Fld := ⟨0x70100 * 8 + 0, 32, 18⟩
def SPOS_SPn_CFG_SPD_PORT : Fld := ⟨0x70100 * 8 + 18, 32, 2⟩
def SPOS_SPn_CFG_SPD_EN : Fld := ⟨0x70100 * 8 + 20, 32, 1⟩
def SPOS_SPn_CFG_FRAME : Fld := ⟨0x70100 * 8 + 21, 32, 3⟩
def SPOS_SPn_CFG_GAP_NOM : Fld := ⟨0x70100 * 8 + 24, 32, 8⟩
-- SPOS_SPn_SST — offset 0x0180 + 4n (spec/08_speed_position.md)
def SPOS_SPn_SST_SPD_ST : Fld := ⟨0x70180 * 8 + 0, 32, 3⟩
def SPOS_SPn_SST_DIR : Fld := ⟨0x70180 * 8 + 3, 32, 1⟩
def SPOS_SPn_SST_DIR_VALID : Fld := ⟨0x70180 * 8 + 4, 32, 1⟩
def SPOS_SPn_SST_LULL : Fld := ⟨0x70180 * 8 + 5, 32, 1⟩
def SPOS_SPn_SST_AGE : Fld := ⟨0x70180 * 8 + 8, 32, 24⟩
-- SPOS_SPn_TPOS_L — offset 0x0200 + 8n, SPOS_SPn_TPOS_H — offset 0x0204 + 8n (spec/08_speed_position.md)
def SPOS_SPn_TPOS_L_TPOS : Fld := ⟨0x70200 * 8 + 0, 64, 32⟩
-- SPOS_SPn_TPOS_L — offset 0x0200 + 8n, SPOS_SPn_TPOS_H — offset 0x0204 + 8n (spec/08_speed_position.md)
def SPOS_SPn_TPOS_H_TPOS : Fld := ⟨0x70204 * 8 + 0, 64, 8⟩
-- SPOS_SPn_SPEED_L — offset 0x0300 + 8n, SPOS_SPn_SPEED_H — offset 0x0304 + 8n (spec/08_speed_position.md)
def SPOS_SPn_SPEED_L_SPEED : Fld := ⟨0x70300 * 8 + 0, 64, 32⟩
-- SPOS_SPn_SPEED_L — offset 0x0300 + 8n, SPOS_SPn_SPEED_H — offset 0x0304 + 8n (spec/08_speed_position.md)
def SPOS_SPn_SPEED_H_SPEED : Fld := ⟨0x70304 * 8 + 0, 64, 8⟩
-- SPOS_SECn_CFG — offset 0x0400 + 4n (spec/08_speed_position.md)
def SPOS_SECn_CFG_DRIVE_PORT : Fld := ⟨0x70400 * 8 + 0, 32, 2⟩
def SPOS_SECn_CFG_DRIVE_EN : Fld := ⟨0x70400 * 8 + 2, 32, 1⟩
-- DENC_STATUS — offset 0x0000 (spec/08_speed_position.md)
def DENC_STATUS_FAULT_NEW : Fld := ⟨0x80000 * 8 + 0, 0, 4⟩
def DENC_STATUS_LATE_NEW : Fld := ⟨0x80000 * 8 + 4, 0, 4⟩
def DENC_STATUS_DIRCHG : Fld := ⟨0x80000 * 8 + 8, 0, 4⟩
def DENC_STATUS_LULL_CHG : Fld := ⟨0x80000 * 8 + 12, 0, 4⟩
def DENC_STATUS_DRIFT_FAIL : Fld := ⟨0x80000 * 8 + 16, 0, 4⟩
def DENC_STATUS_CMP_FIRED : Fld := ⟨0x80000 * 8 + 20, 0, 1⟩
def DENC_STATUS_CMP_LOST : Fld := ⟨0x80000 * 8 + 21, 0, 1⟩
-- DENC_IRQ_MASK — offset 0x0004 (spec/08_speed_position.md)
def DENC_IRQ_MASK_MASK : Fld := ⟨0x80004 * 8 + 0, 0, 22⟩
-- DENC_CMD — offset 0x0008 (spec/08_speed_position.md)
def DENC_CMD_PORTS : Fld := ⟨0x80008 * 8 + 0, 0, 4⟩
def DENC_CMD_CMPS : Fld := ⟨0x80008 * 8 + 4, 0, 16⟩
def DENC_CMD_OP : Fld := ⟨0x80008 * 8 + 20, 0, 3⟩
-- DENC_CMP_STATUS — offset 0x000C (spec/08_speed_position.md)
def DENC_CMP_STATUS_FIRED : Fld := ⟨0x8000C * 8 + 0, 0, 16⟩
def DENC_CMP_STATUS_LOST : Fld := ⟨0x8000C * 8 + 16, 0, 16⟩
-- DENC_PORTn_CFG — offset 0x0100 + 0x40n (spec/08_speed_position.md)
def DENC_PORTn_CFG_ATTACH : Fld := ⟨0x80100 * 8 + 0, 512, 1⟩
def DENC_PORTn_CFG_PARITY : Fld := ⟨0x80100 * 8 + 1, 512, 2⟩
def DENC_PORTn_CFG_TRACK_SIGN : Fld := ⟨0x80100 * 8 + 3, 512, 1⟩
def DENC_PORTn_CFG_CLK_DIV : Fld := ⟨0x80100 * 8 + 8, 512, 8⟩
def DENC_PORTn_CFG_POLL : Fld := ⟨0x80100 * 8 + 16, 512, 10⟩
def DENC_PORTn_CFG_MONO : Fld := ⟨0x80100 * 8 + 26, 512, 6⟩
-- DENC_PORTn_FRAME — offset 0x0104 + 0x40n (spec/08_speed_position.md)
def DENC_PORTn_FRAME_FRAME_LEN : Fld := ⟨0x80104 * 8 + 0, 512, 6⟩
def DENC_PORTn_FRAME_POS_START : Fld := ⟨0x80104 * 8 + 8, 512, 6⟩
def DENC_PORTn_FRAME_POS_WIDTH : Fld := ⟨0x80104 * 8 + 16, 512, 6⟩
def DENC_PORTn_FRAME_CODE : Fld := ⟨0x80104 * 8 + 22, 512, 1⟩
def DENC_PORTn_FRAME_ERR_EN : Fld := ⟨0x80104 * 8 + 23, 512, 1⟩
def DENC_PORTn_FRAME_ERR_IDX : Fld := ⟨0x80104 * 8 + 24, 512, 6⟩
def DENC_PORTn_FRAME_ERR_POL : Fld := ⟨0x80104 * 8 + 30, 512, 1⟩
-- DENC_PORTn_TIMING — offset 0x0108 + 0x40n (spec/08_speed_position.md)
def DENC_PORTn_TIMING_DATA_DLY : Fld := ⟨0x80108 * 8 + 0, 512, 11⟩
def DENC_PORTn_TIMING_LAT_COMP : Fld := ⟨0x80108 * 8 + 16, 512, 12⟩
def DENC_PORTn_TIMING_SPEED_WIN : Fld := ⟨0x80108 * 8 + 28, 512, 4⟩
-- DENC_PORTn_SCALE — offset 0x010C + 0x40n (spec/08_speed_position.md)
def DENC_PORTn_SCALE_SCALE : Fld := ⟨0x8010C * 8 + 0, 512, 32⟩
-- DENC_PORTn_OFFS_L — offset 0x0110 + 0x40n, DENC_PORTn_OFFS_H — offset 0x0114 + 0x40n (spec/08_speed_position.md)
def DENC_PORTn_OFFS_L_OFFS : Fld := ⟨0x80110 * 8 + 0, 512, 32⟩
-- DENC_PORTn_OFFS_L — offset 0x0110 + 0x40n, DENC_PORTn_OFFS_H — offset 0x0114 + 0x40n (spec/08_speed_position.md)
def DENC_PORTn_OFFS_H_OFFS : Fld := ⟨0x80114 * 8 + 0, 512, 8⟩
-- DENC_PORTn_LIM — offset 0x0118 + 0x40n (spec/08_speed_position.md)
def DENC_PORTn_LIM_MAX_STEP : Fld := ⟨0x80118 * 8 + 0, 512, 16⟩
def DENC_PORTn_LIM_DIR_HYST : Fld := ⟨0x80118 * 8 + 16, 512, 8⟩
def DENC_PORTn_LIM_LATE_LIM : Fld := ⟨0x80118 * 8 + 24, 512, 4⟩
-- DENC_PORTn_LULL — offset 0x011C + 0x40n (spec/08_speed_position.md)
def DENC_PORTn_LULL_LULL_BAND : Fld := ⟨0x8011C * 8 + 0, 512, 16⟩
def DENC_PORTn_LULL_LULL_TIME : Fld := ⟨0x8011C * 8 + 16, 512, 16⟩
-- DENC_PORTn_POS_L — offset 0x0120 + 0x40n, DENC_PORTn_POS_H — offset 0x0124 + 0x40n (spec/08_speed_position.md)
def DENC_PORTn_POS_L_POS : Fld := ⟨0x80120 * 8 + 0, 512, 32⟩
-- DENC_PORTn_POS_L — offset 0x0120 + 0x40n, DENC_PORTn_POS_H — offset 0x0124 + 0x40n (spec/08_speed_position.md)
def DENC_PORTn_POS_H_POS : Fld := ⟨0x80124 * 8 + 0, 512, 8⟩
-- DENC_PORTn_TS_L — offset 0x0128 + 0x40n, DENC_PORTn_TS_H — offset 0x012C + 0x40n (spec/08_speed_position.md)
def DENC_PORTn_TS_L_TS : Fld := ⟨0x80128 * 8 + 0, 512, 32⟩
-- DENC_PORTn_TS_L — offset 0x0128 + 0x40n, DENC_PORTn_TS_H — offset 0x012C + 0x40n (spec/08_speed_position.md)
def DENC_PORTn_TS_H_TS : Fld := ⟨0x8012C * 8 + 0, 512, 8⟩
-- DENC_PORTn_SPEED_L — offset 0x0130 + 0x40n, DENC_PORTn_SPEED_H — offset 0x0134 + 0x40n (spec/08_speed_position.md)
def DENC_PORTn_SPEED_L_SPEED : Fld := ⟨0x80130 * 8 + 0, 512, 32⟩
-- DENC_PORTn_SPEED_L — offset 0x0130 + 0x40n, DENC_PORTn_SPEED_H — offset 0x0134 + 0x40n (spec/08_speed_position.md)
def DENC_PORTn_SPEED_H_SPEED : Fld := ⟨0x80134 * 8 + 0, 512, 8⟩
-- DENC_PORTn_STAT — offset 0x0138 + 0x40n (spec/08_speed_position.md)
def DENC_PORTn_STAT_STATE : Fld := ⟨0x80138 * 8 + 0, 512, 2⟩
def DENC_PORTn_STAT_DIR : Fld := ⟨0x80138 * 8 + 2, 512, 1⟩
def DENC_PORTn_STAT_DIR_VALID : Fld := ⟨0x80138 * 8 + 3, 512, 1⟩
def DENC_PORTn_STAT_LULL : Fld := ⟨0x80138 * 8 + 4, 512, 1⟩
def DENC_PORTn_STAT_DRIFT_FAIL : Fld := ⟨0x80138 * 8 + 5, 512, 1⟩
def DENC_PORTn_STAT_CLR_ARMED : Fld := ⟨0x80138 * 8 + 6, 512, 1⟩
def DENC_PORTn_STAT_LAST_ERR : Fld := ⟨0x80138 * 8 + 8, 512, 3⟩
def DENC_PORTn_STAT_ERR_CNT : Fld := ⟨0x80138 * 8 + 16, 512, 8⟩
-- DENC_PORTn_DRIFT — offset 0x013C + 0x40n (spec/08_speed_position.md)
def DENC_PORTn_DRIFT_DRIFT : Fld := ⟨0x8013C * 8 + 0, 512, 32⟩
-- DENC_REFm_CFG — offset 0x0200 + 0x20m (spec/08_speed_position.md)
def DENC_REFm_CFG_SP : Fld := ⟨0x80200 * 8 + 0, 256, 5⟩
def DENC_REFm_CFG_PORT : Fld := ⟨0x80200 * 8 + 8, 256, 2⟩
def DENC_REFm_CFG_DRIFT_LIM : Fld := ⟨0x80200 * 8 + 16, 256, 15⟩
def DENC_REFm_CFG_VALID : Fld := ⟨0x80200 * 8 + 31, 256, 1⟩
-- DENC_REFm_POSP_L/H — offset 0x0204/0x0208 + 0x20m, DENC_REFm_POSN_L/H — offset 0x020C/0x0210 + 0x20m (spec/08_speed_position.md)
def DENC_REFm_POSP_L_POSP : Fld := ⟨0x80204 * 8 + 0, 256, 32⟩
-- DENC_REFm_POSP_L/H — offset 0x0204/0x0208 + 0x20m, DENC_REFm_POSN_L/H — offset 0x020C/0x0210 + 0x20m (spec/08_speed_position.md)
def DENC_REFm_POSP_H_POSP : Fld := ⟨0x80208 * 8 + 0, 256, 8⟩
-- DENC_REFm_POSP_L/H — offset 0x0204/0x0208 + 0x20m, DENC_REFm_POSN_L/H — offset 0x020C/0x0210 + 0x20m (spec/08_speed_position.md)
def DENC_REFm_POSN_L_POSN : Fld := ⟨0x8020C * 8 + 0, 256, 32⟩
-- DENC_REFm_POSP_L/H — offset 0x0204/0x0208 + 0x20m, DENC_REFm_POSN_L/H — offset 0x020C/0x0210 + 0x20m (spec/08_speed_position.md)
def DENC_REFm_POSN_H_POSN : Fld := ⟨0x80210 * 8 + 0, 256, 8⟩
-- DENC_REFm_POSP_L/H — offset 0x0204/0x0208 + 0x20m, DENC_REFm_POSN_L/H — offset 0x020C/0x0210 + 0x20m (spec/08_speed_position.md)
-- DENC_CMPk_CFG — offset 0x0400 + 0x20k (spec/08_speed_position.md)
def DENC_CMPk_CFG_EN : Fld := ⟨0x80400 * 8 + 0, 256, 1⟩
def DENC_CMPk_CFG_SRC : Fld := ⟨0x80400 * 8 + 1, 256, 1⟩
def DENC_CMPk_CFG_PORT : Fld := ⟨0x80400 * 8 + 2, 256, 2⟩
def DENC_CMPk_CFG_FDIR : Fld := ⟨0x80400 * 8 + 4, 256, 2⟩
def DENC_CMPk_CFG_FIRE_IF_PASSED : Fld := ⟨0x80400 * 8 + 6, 256, 1⟩
-- DENC_CMPk_AXLE — offset 0x0404 + 0x20k (spec/08_speed_position.md)
def DENC_CMPk_AXLE_AXLE_ID : Fld := ⟨0x80404 * 8 + 0, 256, 32⟩
-- DENC_CMPk_POS_L — offset 0x0408 + 0x20k, DENC_CMPk_POS_H — offset 0x040C + 0x20k (spec/08_speed_position.md)
def DENC_CMPk_POS_L_POS : Fld := ⟨0x80408 * 8 + 0, 256, 32⟩
-- DENC_CMPk_POS_L — offset 0x0408 + 0x20k, DENC_CMPk_POS_H — offset 0x040C + 0x20k (spec/08_speed_position.md)
def DENC_CMPk_POS_H_POS : Fld := ⟨0x8040C * 8 + 0, 256, 8⟩
-- DENC_CMPk_STAT — offset 0x0410 + 0x20k (spec/08_speed_position.md)
def DENC_CMPk_STAT_ARMED : Fld := ⟨0x80410 * 8 + 0, 256, 1⟩
def DENC_CMPk_STAT_BEHIND : Fld := ⟨0x80410 * 8 + 1, 256, 1⟩
def DENC_CMPk_STAT_FIRED : Fld := ⟨0x80410 * 8 + 2, 256, 1⟩
def DENC_CMPk_STAT_LATE : Fld := ⟨0x80410 * 8 + 3, 256, 1⟩
def DENC_CMPk_STAT_LOST : Fld := ⟨0x80410 * 8 + 4, 256, 1⟩
def DENC_CMPk_STAT_FIRE_CNT : Fld := ⟨0x80410 * 8 + 8, 256, 8⟩
-- DENC_CMPk_FTS_L — offset 0x0414 + 0x20k, DENC_CMPk_FTS_H — offset 0x0418 + 0x20k (spec/08_speed_position.md)
def DENC_CMPk_FTS_L_FTS : Fld := ⟨0x80414 * 8 + 0, 256, 32⟩
-- DENC_CMPk_FTS_L — offset 0x0414 + 0x20k, DENC_CMPk_FTS_H — offset 0x0418 + 0x20k (spec/08_speed_position.md)
def DENC_CMPk_FTS_H_FTS : Fld := ⟨0x80418 * 8 + 0, 256, 8⟩
-- FAB_STATUS — offset 0x0000 (spec/09_section_fabric.md)
def FAB_STATUS_CE_NEW : Fld := ⟨0x90000 * 8 + 0, 0, 1⟩
def FAB_STATUS_STUCK : Fld := ⟨0x90000 * 8 + 1, 0, 1⟩
def FAB_STATUS_CE_SQ : Fld := ⟨0x90000 * 8 + 2, 0, 1⟩
def FAB_STATUS_UE : Fld := ⟨0x90000 * 8 + 3, 0, 1⟩
def FAB_STATUS_DIRTY : Fld := ⟨0x90000 * 8 + 4, 0, 1⟩
-- FAB_INFO — offset 0x0004 (spec/09_section_fabric.md)
def FAB_INFO_TILES_USED : Fld := ⟨0x90004 * 8 + 0, 0, 12⟩
def FAB_INFO_CPS_USED : Fld := ⟨0x90004 * 8 + 12, 0, 6⟩
def FAB_INFO_SMALL : Fld := ⟨0x90004 * 8 + 18, 0, 1⟩
def FAB_INFO_QUADS : Fld := ⟨0x90004 * 8 + 20, 0, 4⟩
-- FAB_DEPTH — offset 0x0008 (spec/09_section_fabric.md)
def FAB_DEPTH_DEPTH : Fld := ⟨0x90008 * 8 + 0, 0, 16⟩
def FAB_DEPTH_RING_STEPS : Fld := ⟨0x90008 * 8 + 16, 0, 4⟩
-- FAB_SCRUB — offset 0x000C (spec/09_section_fabric.md)
def FAB_SCRUB_WORD : Fld := ⟨0x9000C * 8 + 0, 0, 19⟩
def FAB_SCRUB_PASSES : Fld := ⟨0x9000C * 8 + 19, 0, 13⟩
-- FAB_CE_CFG — offset 0x0010 (spec/09_section_fabric.md)
def FAB_CE_CFG_CE_LIM : Fld := ⟨0x90010 * 8 + 0, 0, 8⟩
-- FAB_CE_CNT — offset 0x0014 (spec/09_section_fabric.md)
def FAB_CE_CNT_CE_TOTAL : Fld := ⟨0x90014 * 8 + 0, 0, 16⟩
def FAB_CE_CNT_CE_WIN : Fld := ⟨0x90014 * 8 + 16, 0, 8⟩
def FAB_CE_CNT_STUCK_CNT : Fld := ⟨0x90014 * 8 + 24, 0, 8⟩
-- FAB_CE_LAST — offset 0x0018 (spec/09_section_fabric.md)
def FAB_CE_LAST_WORD : Fld := ⟨0x90018 * 8 + 0, 0, 19⟩
def FAB_CE_LAST_BIT : Fld := ⟨0x90018 * 8 + 19, 0, 7⟩
-- FAB_UE_ADDR — offset 0x001C (spec/09_section_fabric.md)
def FAB_UE_ADDR_WORD : Fld := ⟨0x9001C * 8 + 0, 0, 19⟩
def FAB_UE_ADDR_VALID : Fld := ⟨0x9001C * 8 + 31, 0, 1⟩
-- FAB_OUTDEM — offset 0x0020 (spec/09_section_fabric.md)
def FAB_OUTDEM_SOUT : Fld := ⟨0x90020 * 8 + 0, 0, 12⟩
def FAB_OUTDEM_TLP : Fld := ⟨0x90020 * 8 + 12, 0, 1⟩
def FAB_OUTDEM_TLS : Fld := ⟨0x90020 * 8 + 13, 0, 1⟩
def FAB_OUTDEM_SOUT_SNAP : Fld := ⟨0x90020 * 8 + 16, 0, 12⟩
def FAB_OUTDEM_TLP_SNAP : Fld := ⟨0x90020 * 8 + 28, 0, 1⟩
def FAB_OUTDEM_TLS_SNAP : Fld := ⟨0x90020 * 8 + 29, 0, 1⟩
-- FAB_TXBIT0 — offset 0x0024, FAB_TXBIT1 — offset 0x0028 (spec/09_section_fabric.md)
def FAB_TXBIT0_TX : Fld := ⟨0x90024 * 8 + 0, 0, 32⟩
-- FAB_TXBIT0 — offset 0x0024, FAB_TXBIT1 — offset 0x0028 (spec/09_section_fabric.md)
def FAB_TXBIT1_TX : Fld := ⟨0x90028 * 8 + 0, 0, 32⟩
-- FAB_HDEM — offset 0x002C (spec/09_section_fabric.md)
def FAB_HDEM_HDEM : Fld := ⟨0x9002C * 8 + 0, 0, 32⟩
-- FAB_HSTAT — offset 0x0030 (spec/09_section_fabric.md)
def FAB_HSTAT_HST : Fld := ⟨0x90030 * 8 + 0, 0, 32⟩
-- FAB_WATCH_VAL0 — offset 0x0080, FAB_WATCH_VAL1 — offset 0x0084 (spec/09_section_fabric.md)
def FAB_WATCH_VAL0_VAL : Fld := ⟨0x90080 * 8 + 0, 0, 32⟩
-- FAB_WATCH_VAL0 — offset 0x0080, FAB_WATCH_VAL1 — offset 0x0084 (spec/09_section_fabric.md)
def FAB_WATCH_VAL1_VAL : Fld := ⟨0x90084 * 8 + 0, 0, 32⟩
-- FAB_WATCH_SELk — offset 0x0100 + 4k (spec/09_section_fabric.md)
def FAB_WATCH_SELk_NET_LO : Fld := ⟨0x90100 * 8 + 0, 32, 16⟩
def FAB_WATCH_SELk_NET_HI : Fld := ⟨0x90100 * 8 + 16, 32, 16⟩
-- FAB_SECn_TILE — offset 0x0200 + 4n (spec/09_section_fabric.md)
def FAB_SECn_TILE_TILE : Fld := ⟨0x90200 * 8 + 0, 32, 11⟩
def FAB_SECn_TILE_VALID : Fld := ⟨0x90200 * 8 + 31, 32, 1⟩
-- FAB_OUTSELk — offset 0x0400 + 4k (spec/09_section_fabric.md)
def FAB_OUTSELk_NET_LO : Fld := ⟨0x90400 * 8 + 0, 32, 16⟩
def FAB_OUTSELk_NET_HI : Fld := ⟨0x90400 * 8 + 16, 32, 16⟩
-- FAB_TXSELk — offset 0x0420 + 4k (spec/09_section_fabric.md)
def FAB_TXSELk_NET_LO : Fld := ⟨0x90420 * 8 + 0, 32, 16⟩
def FAB_TXSELk_NET_HI : Fld := ⟨0x90420 * 8 + 16, 32, 16⟩
-- FAB_HSTSELk — offset 0x04A0 + 4k (spec/09_section_fabric.md)
def FAB_HSTSELk_NET_LO : Fld := ⟨0x904A0 * 8 + 0, 32, 16⟩
def FAB_HSTSELk_NET_HI : Fld := ⟨0x904A0 * 8 + 16, 32, 16⟩
-- FAB_PPq_k — offset 0x0500 + 0x40q + 4k (spec/09_section_fabric.md)
def FAB_PPq_k_CP : Fld := ⟨0x90500 * 8 + 0, 32, 5⟩
def FAB_PPq_k_VALID : Fld := ⟨0x90500 * 8 + 31, 32, 1⟩
-- CFG_STATUS — offset 0x0000 (spec/10_bitstream_seal.md)
def CFG_STATUS_LOADED : Fld := ⟨0x120000 * 8 + 0, 0, 1⟩
def CFG_STATUS_SOURCE : Fld := ⟨0x120000 * 8 + 1, 0, 2⟩
def CFG_STATUS_CFG_COMMIT_ERR : Fld := ⟨0x120000 * 8 + 4, 0, 1⟩
def CFG_STATUS_SEAL_CHG : Fld := ⟨0x120000 * 8 + 5, 0, 1⟩
def CFG_STATUS_DEPTH_LOW : Fld := ⟨0x120000 * 8 + 6, 0, 1⟩
def CFG_STATUS_UP_DONE : Fld := ⟨0x120000 * 8 + 7, 0, 1⟩
def CFG_STATUS_UP_ERR : Fld := ⟨0x120000 * 8 + 8, 0, 1⟩
-- CFG_LOAD_ERR — offset 0x0004 (spec/10_bitstream_seal.md)
def CFG_LOAD_ERR_CODE : Fld := ⟨0x120004 * 8 + 0, 0, 4⟩
def CFG_LOAD_ERR_FRAME : Fld := ⟨0x120004 * 8 + 16, 0, 11⟩
-- CFG_SEAL_READ — offset 0x0008 (spec/10_bitstream_seal.md)
def CFG_SEAL_READ_SEAL : Fld := ⟨0x120008 * 8 + 0, 0, 16⟩
def CFG_SEAL_READ_UNSETTLED : Fld := ⟨0x120008 * 8 + 16, 0, 16⟩
-- CFG_SEAL_EXPECT — offset 0x000C (spec/10_bitstream_seal.md)
def CFG_SEAL_EXPECT_CODE : Fld := ⟨0x12000C * 8 + 0, 0, 16⟩
def CFG_SEAL_EXPECT_STARTUP : Fld := ⟨0x12000C * 8 + 16, 0, 16⟩
-- CFG_SLOT — offset 0x0010 (spec/10_bitstream_seal.md)
def CFG_SLOT_BOOT_SLOT : Fld := ⟨0x120010 * 8 + 0, 0, 1⟩
def CFG_SLOT_A_VALID : Fld := ⟨0x120010 * 8 + 2, 0, 1⟩
def CFG_SLOT_B_VALID : Fld := ⟨0x120010 * 8 + 3, 0, 1⟩
-- CFG_SLOT_SEAL — offset 0x0014 (spec/10_bitstream_seal.md)
def CFG_SLOT_SEAL_A_SEAL : Fld := ⟨0x120014 * 8 + 0, 0, 16⟩
def CFG_SLOT_SEAL_B_SEAL : Fld := ⟨0x120014 * 8 + 16, 0, 16⟩
-- CFG_COMMIT — offset 0x0018 (spec/10_bitstream_seal.md)
def CFG_COMMIT_OP : Fld := ⟨0x120018 * 8 + 0, 0, 2⟩
-- CFG_COMMIT_STAT — offset 0x001C (spec/10_bitstream_seal.md)
def CFG_COMMIT_STAT_STATE : Fld := ⟨0x12001C * 8 + 0, 0, 3⟩
def CFG_COMMIT_STAT_REASON : Fld := ⟨0x12001C * 8 + 8, 0, 4⟩
def CFG_COMMIT_STAT_PENDING : Fld := ⟨0x12001C * 8 + 16, 0, 12⟩
-- CFG_COMMIT_ADDR — offset 0x0020 (spec/10_bitstream_seal.md)
def CFG_COMMIT_ADDR_ADDR : Fld := ⟨0x120020 * 8 + 0, 0, 24⟩
-- CFG_HDR — offset 0x0024 (spec/10_bitstream_seal.md)
def CFG_HDR_FMT_MINOR : Fld := ⟨0x120024 * 8 + 0, 0, 8⟩
def CFG_HDR_FMT_MAJOR : Fld := ⟨0x120024 * 8 + 8, 0, 8⟩
def CFG_HDR_TILE_COUNT : Fld := ⟨0x120024 * 8 + 16, 0, 12⟩
-- CFG_HDR_REV — offset 0x0028 (spec/10_bitstream_seal.md)
def CFG_HDR_REV_REV_MIN : Fld := ⟨0x120028 * 8 + 0, 0, 16⟩
def CFG_HDR_REV_REV_MAX : Fld := ⟨0x120028 * 8 + 16, 0, 16⟩
-- CFG_PROJECT — offset 0x002C, CFG_PROJREV — offset 0x0030 (spec/10_bitstream_seal.md)
def CFG_PROJECT_VALUE : Fld := ⟨0x12002C * 8 + 0, 0, 32⟩
-- CFG_PROJECT — offset 0x002C, CFG_PROJREV — offset 0x0030 (spec/10_bitstream_seal.md)
def CFG_PROJREV_VALUE : Fld := ⟨0x120030 * 8 + 0, 0, 32⟩
-- CFG_DEPTH_DECL — offset 0x0034 (spec/10_bitstream_seal.md)
def CFG_DEPTH_DECL_DEPTH_DECL : Fld := ⟨0x120034 * 8 + 0, 0, 16⟩
def CFG_DEPTH_DECL_SMALL_DECL : Fld := ⟨0x120034 * 8 + 16, 0, 1⟩
-- CFG_DIGESTk — offset 0x0040 + 4k (spec/10_bitstream_seal.md)
def CFG_DIGESTk_DIGEST : Fld := ⟨0x120040 * 8 + 0, 32, 32⟩
-- CFG_UP_CTRL — offset 0x0080 (spec/10_bitstream_seal.md)
def CFG_UP_CTRL_OP : Fld := ⟨0x120080 * 8 + 0, 0, 2⟩
def CFG_UP_CTRL_TARGET : Fld := ⟨0x120080 * 8 + 4, 0, 2⟩
-- CFG_UP_DATA — offset 0x0084 (spec/10_bitstream_seal.md)
def CFG_UP_DATA_DATA : Fld := ⟨0x120084 * 8 + 0, 0, 32⟩
-- CFG_UP_STAT — offset 0x0088 (spec/10_bitstream_seal.md)
def CFG_UP_STAT_STATE : Fld := ⟨0x120088 * 8 + 0, 0, 3⟩
def CFG_UP_STAT_ACCEPT : Fld := ⟨0x120088 * 8 + 3, 0, 1⟩
def CFG_UP_STAT_UP_PORT : Fld := ⟨0x120088 * 8 + 4, 0, 1⟩
def CFG_UP_STAT_CODE : Fld := ⟨0x120088 * 8 + 8, 0, 4⟩
-- CFG_UP_WORDS — offset 0x008C (spec/10_bitstream_seal.md)
def CFG_UP_WORDS_WORDS : Fld := ⟨0x12008C * 8 + 0, 0, 21⟩
-- SPU_STATUS — offset 0x0000 (spec/11_safety_processor.md)
def SPU_STATUS_MM_NEW : Fld := ⟨0x100000 * 8 + 0, 0, 1⟩
def SPU_STATUS_TRANS_NEW : Fld := ⟨0x100000 * 8 + 1, 0, 1⟩
def SPU_STATUS_FENCE_NEW : Fld := ⟨0x100000 * 8 + 2, 0, 1⟩
def SPU_STATUS_SQ_ENTER : Fld := ⟨0x100000 * 8 + 3, 0, 1⟩
def SPU_STATUS_KA_ERR : Fld := ⟨0x100000 * 8 + 4, 0, 1⟩
def SPU_STATUS_PT_FAIL : Fld := ⟨0x100000 * 8 + 5, 0, 1⟩
def SPU_STATUS_HALTED : Fld := ⟨0x100000 * 8 + 6, 0, 1⟩
def SPU_STATUS_PATCH_ERR : Fld := ⟨0x100000 * 8 + 7, 0, 1⟩
-- SPU_IRQ_MASK — offset 0x0004 (spec/11_safety_processor.md)
def SPU_IRQ_MASK_MASK : Fld := ⟨0x100004 * 8 + 0, 0, 6⟩
-- SPU_CORE — offset 0x0008 (spec/11_safety_processor.md)
def SPU_CORE_CORE0_ST : Fld := ⟨0x100008 * 8 + 0, 0, 3⟩
def SPU_CORE_CORE1_ST : Fld := ⟨0x100008 * 8 + 3, 0, 3⟩
def SPU_CORE_CORE2_ST : Fld := ⟨0x100008 * 8 + 6, 0, 3⟩
def SPU_CORE_DONOR : Fld := ⟨0x100008 * 8 + 9, 0, 2⟩
def SPU_CORE_MODE : Fld := ⟨0x100008 * 8 + 11, 0, 2⟩
-- SPU_SQ — offset 0x000C (spec/11_safety_processor.md)
def SPU_SQ_FIRST : Fld := ⟨0x10000C * 8 + 0, 0, 4⟩
def SPU_SQ_SECOND : Fld := ⟨0x10000C * 8 + 4, 0, 4⟩
def SPU_SQ_CAUSES : Fld := ⟨0x10000C * 8 + 8, 0, 5⟩
-- SPU_SQ_CFG — offset 0x0010 (spec/11_safety_processor.md)
def SPU_SQ_CFG_SQ_LIMIT : Fld := ⟨0x100010 * 8 + 0, 0, 13⟩
-- SPU_SQ_ELAPSED — offset 0x0014 (spec/11_safety_processor.md)
def SPU_SQ_ELAPSED_CYCLES : Fld := ⟨0x100014 * 8 + 0, 0, 32⟩
-- SPU_MM_INFO — offset 0x0018 (spec/11_safety_processor.md)
def SPU_MM_INFO_KIND : Fld := ⟨0x100018 * 8 + 0, 0, 3⟩
def SPU_MM_INFO_CORE : Fld := ⟨0x100018 * 8 + 4, 0, 2⟩
def SPU_MM_INFO_TXN : Fld := ⟨0x100018 * 8 + 8, 0, 3⟩
def SPU_MM_INFO_COUNT : Fld := ⟨0x100018 * 8 + 16, 0, 16⟩
-- SPU_MM_ADDR — offset 0x001C (spec/11_safety_processor.md)
def SPU_MM_ADDR_ADDR : Fld := ⟨0x10001C * 8 + 0, 0, 24⟩
-- SPU_MM_TS_L — offset 0x0020, SPU_MM_TS_H — offset 0x0024 (spec/11_safety_processor.md)
def SPU_MM_TS_L_TS : Fld := ⟨0x100020 * 8 + 0, 0, 32⟩
-- SPU_MM_TS_L — offset 0x0020, SPU_MM_TS_H — offset 0x0024 (spec/11_safety_processor.md)
def SPU_MM_TS_H_TS : Fld := ⟨0x100024 * 8 + 0, 0, 8⟩
-- SPU_COREk_CNT — offset 0x0030 + 4k (spec/11_safety_processor.md)
def SPU_COREk_CNT_WIN : Fld := ⟨0x100030 * 8 + 0, 32, 2⟩
def SPU_COREk_CNT_TRANS_TOTAL : Fld := ⟨0x100030 * 8 + 8, 32, 8⟩
def SPU_COREk_CNT_PT_PASS : Fld := ⟨0x100030 * 8 + 16, 32, 8⟩
def SPU_COREk_CNT_FAILED : Fld := ⟨0x100030 * 8 + 24, 32, 1⟩
-- SPU_PT — offset 0x0040 (spec/11_safety_processor.md)
def SPU_PT_NEXT : Fld := ⟨0x100040 * 8 + 0, 0, 2⟩
def SPU_PT_DEFER : Fld := ⟨0x100040 * 8 + 2, 0, 1⟩
def SPU_PT_SUSP : Fld := ⟨0x100040 * 8 + 3, 0, 1⟩
def SPU_PT_DUE : Fld := ⟨0x100040 * 8 + 12, 0, 20⟩
-- SPU_KA — offset 0x0044 (spec/11_safety_processor.md)
def SPU_KA_GRANT : Fld := ⟨0x100044 * 8 + 0, 0, 2⟩
def SPU_KA_TOKENS : Fld := ⟨0x100044 * 8 + 16, 0, 16⟩
-- SPU_FW — offset 0x0048 (spec/11_safety_processor.md)
def SPU_FW_ROM_REV : Fld := ⟨0x100048 * 8 + 0, 0, 16⟩
def SPU_FW_PATCH_LVL : Fld := ⟨0x100048 * 8 + 16, 0, 8⟩
def SPU_FW_PATCH_OK : Fld := ⟨0x100048 * 8 + 24, 0, 1⟩
-- SPU_DBG — offset 0x004C (spec/11_safety_processor.md)
def SPU_DBG_EN : Fld := ⟨0x10004C * 8 + 0, 0, 1⟩
def SPU_DBG_HALTED : Fld := ⟨0x10004C * 8 + 1, 0, 1⟩
def SPU_DBG_REPLAY_LVL : Fld := ⟨0x10004C * 8 + 2, 0, 7⟩
def SPU_DBG_BP_HITS : Fld := ⟨0x10004C * 8 + 16, 0, 8⟩
-- SIO_STATUS — offset 0x0000 (spec/12_safety_io_traction.md)
def SIO_STATUS_IN_FAULT_NEW : Fld := ⟨0xA0000 * 8 + 0, 0, 1⟩
def SIO_STATUS_DISC_NEW : Fld := ⟨0xA0000 * 8 + 1, 0, 1⟩
def SIO_STATUS_OUT_FAULT_NEW : Fld := ⟨0xA0000 * 8 + 2, 0, 1⟩
def SIO_STATUS_CLR_REJ : Fld := ⟨0xA0000 * 8 + 3, 0, 1⟩
-- SIO_IRQ_MASK — offset 0x0004 (spec/12_safety_io_traction.md)
def SIO_IRQ_MASK_MASK : Fld := ⟨0xA0004 * 8 + 0, 0, 4⟩
-- SIO_CMD — offset 0x0008 (spec/12_safety_io_traction.md)
def SIO_CMD_PAIRS : Fld := ⟨0xA0008 * 8 + 0, 0, 16⟩
def SIO_CMD_OUTS : Fld := ⟨0xA0008 * 8 + 16, 0, 12⟩
def SIO_CMD_OP : Fld := ⟨0xA0008 * 8 + 28, 0, 2⟩
-- SIO_PULSE_CFG — offset 0x000C (spec/12_safety_io_traction.md)
def SIO_PULSE_CFG_PERIOD : Fld := ⟨0xA000C * 8 + 0, 0, 6⟩
-- SIO_IN_VAL — offset 0x0010 (spec/12_safety_io_traction.md)
def SIO_IN_VAL_VALUE : Fld := ⟨0xA0010 * 8 + 0, 0, 16⟩
def SIO_IN_VAL_FAULT : Fld := ⟨0xA0010 * 8 + 16, 0, 16⟩
-- SIO_IN_RAW — offset 0x0014 (spec/12_safety_io_traction.md)
def SIO_IN_RAW_A : Fld := ⟨0xA0014 * 8 + 0, 0, 16⟩
def SIO_IN_RAW_B : Fld := ⟨0xA0014 * 8 + 16, 0, 16⟩
-- SIO_OUT_SUM — offset 0x0018 (spec/12_safety_io_traction.md)
def SIO_OUT_SUM_DRIVE : Fld := ⟨0xA0018 * 8 + 0, 0, 12⟩
def SIO_OUT_SUM_SENSE : Fld := ⟨0xA0018 * 8 + 16, 0, 12⟩
-- SIO_INj_CFG — offset 0x0100 + 4j (spec/12_safety_io_traction.md)
def SIO_INj_CFG_EN : Fld := ⟨0xA0100 * 8 + 0, 32, 1⟩
def SIO_INj_CFG_POL : Fld := ⟨0xA0100 * 8 + 1, 32, 1⟩
def SIO_INj_CFG_DISC : Fld := ⟨0xA0100 * 8 + 16, 32, 15⟩
-- SIO_INj_STAT — offset 0x0180 + 4j (spec/12_safety_io_traction.md)
def SIO_INj_STAT_VALUE : Fld := ⟨0xA0180 * 8 + 0, 32, 1⟩
def SIO_INj_STAT_FAULT : Fld := ⟨0xA0180 * 8 + 1, 32, 1⟩
def SIO_INj_STAT_DISAGREE : Fld := ⟨0xA0180 * 8 + 2, 32, 1⟩
def SIO_INj_STAT_RUN : Fld := ⟨0xA0180 * 8 + 16, 32, 15⟩
-- SIO_INj_CNT — offset 0x0200 + 4j (spec/12_safety_io_traction.md)
def SIO_INj_CNT_RETURN_CNT : Fld := ⟨0xA0200 * 8 + 0, 32, 16⟩
def SIO_INj_CNT_SWITCH_CNT : Fld := ⟨0xA0200 * 8 + 16, 32, 16⟩
-- SIO_OUTk_CFG — offset 0x0300 + 4k (spec/12_safety_io_traction.md)
def SIO_OUTk_CFG_EN : Fld := ⟨0xA0300 * 8 + 0, 32, 1⟩
def SIO_OUTk_CFG_FAULT_STOP : Fld := ⟨0xA0300 * 8 + 1, 32, 1⟩
def SIO_OUTk_CFG_PULSE_LEN : Fld := ⟨0xA0300 * 8 + 16, 32, 10⟩
-- SIO_OUTk_STAT — offset 0x0380 + 4k (spec/12_safety_io_traction.md)
def SIO_OUTk_STAT_DEMAND : Fld := ⟨0xA0380 * 8 + 0, 32, 1⟩
def SIO_OUTk_STAT_DRIVE : Fld := ⟨0xA0380 * 8 + 1, 32, 1⟩
def SIO_OUTk_STAT_SENSE_HI : Fld := ⟨0xA0380 * 8 + 2, 32, 1⟩
def SIO_OUTk_STAT_SENSE_LO : Fld := ⟨0xA0380 * 8 + 3, 32, 1⟩
def SIO_OUTk_STAT_STATE : Fld := ⟨0xA0380 * 8 + 4, 32, 2⟩
def SIO_OUTk_STAT_FAULT_KIND : Fld := ⟨0xA0380 * 8 + 6, 32, 3⟩
-- SIO_OUTk_CNT — offset 0x0400 + 4k (spec/12_safety_io_traction.md)
def SIO_OUTk_CNT_PASSED : Fld := ⟨0xA0400 * 8 + 0, 32, 16⟩
def SIO_OUTk_CNT_ABANDONED : Fld := ⟨0xA0400 * 8 + 16, 32, 8⟩
def SIO_OUTk_CNT_FAULTS : Fld := ⟨0xA0400 * 8 + 24, 32, 8⟩
-- TLNK_STATUS — offset 0x0000 (spec/12_safety_io_traction.md)
def TLNK_STATUS_RX_LAPSE : Fld := ⟨0xB0000 * 8 + 0, 0, 1⟩
def TLNK_STATUS_RX_CHECK : Fld := ⟨0xB0000 * 8 + 1, 0, 1⟩
def TLNK_STATUS_RX_SEQ : Fld := ⟨0xB0000 * 8 + 2, 0, 1⟩
def TLNK_STATUS_RX_TYPE : Fld := ⟨0xB0000 * 8 + 3, 0, 1⟩
def TLNK_STATUS_TLP_DRV : Fld := ⟨0xB0000 * 8 + 4, 0, 1⟩
def TLNK_STATUS_TLS_DRV : Fld := ⟨0xB0000 * 8 + 5, 0, 1⟩
def TLNK_STATUS_TL_FOREIGN : Fld := ⟨0xB0000 * 8 + 6, 0, 1⟩
-- TLNK_IRQ_MASK — offset 0x0004 (spec/12_safety_io_traction.md)
def TLNK_IRQ_MASK_MASK : Fld := ⟨0xB0004 * 8 + 0, 0, 7⟩
-- TLNK_CFG — offset 0x0008 (spec/12_safety_io_traction.md)
def TLNK_CFG_EN : Fld := ⟨0xB0008 * 8 + 0, 0, 1⟩
def TLNK_CFG_RX_STOP : Fld := ⟨0xB0008 * 8 + 1, 0, 1⟩
def TLNK_CFG_TEXP : Fld := ⟨0xB0008 * 8 + 16, 0, 11⟩
-- TLNK_CONN_ID — offset 0x000C (spec/12_safety_io_traction.md)
def TLNK_CONN_ID_CONN_ID : Fld := ⟨0xB000C * 8 + 0, 0, 32⟩
-- TLNK_AXSELk — offset 0x0010 + 4k (spec/12_safety_io_traction.md)
def TLNK_AXSELk_AXLE_ID : Fld := ⟨0xB0010 * 8 + 0, 32, 32⟩
-- TLNK_PIN — offset 0x0020 (spec/12_safety_io_traction.md)
def TLNK_PIN_PERMIT_RUN : Fld := ⟨0xB0020 * 8 + 0, 0, 1⟩
def TLNK_PIN_STOP_N : Fld := ⟨0xB0020 * 8 + 1, 0, 1⟩
def TLNK_PIN_STILL : Fld := ⟨0xB0020 * 8 + 2, 0, 1⟩
def TLNK_PIN_DRIVE_EN : Fld := ⟨0xB0020 * 8 + 3, 0, 1⟩
def TLNK_PIN_FSTOP : Fld := ⟨0xB0020 * 8 + 4, 0, 1⟩
def TLNK_PIN_RSTOP : Fld := ⟨0xB0020 * 8 + 5, 0, 1⟩
def TLNK_PIN_RBSTOP : Fld := ⟨0xB0020 * 8 + 6, 0, 1⟩
def TLNK_PIN_STOP_N_DRV : Fld := ⟨0xB0020 * 8 + 7, 0, 1⟩
def TLNK_PIN_STILL_DRV : Fld := ⟨0xB0020 * 8 + 8, 0, 1⟩
-- TLNK_SEQ — offset 0x0024 (spec/12_safety_io_traction.md)
def TLNK_SEQ_TX_SEQ : Fld := ⟨0xB0024 * 8 + 0, 0, 16⟩
def TLNK_SEQ_RX_SEQ : Fld := ⟨0xB0024 * 8 + 16, 0, 16⟩
-- TLNK_RX_CNT — offset 0x0028 (spec/12_safety_io_traction.md)
def TLNK_RX_CNT_ACCEPTED : Fld := ⟨0xB0028 * 8 + 0, 0, 16⟩
def TLNK_RX_CNT_REJECTED : Fld := ⟨0xB0028 * 8 + 16, 0, 8⟩
def TLNK_RX_CNT_LAPSES : Fld := ⟨0xB0028 * 8 + 24, 0, 8⟩
-- TLNK_CMD — offset 0x002C (spec/12_safety_io_traction.md)
def TLNK_CMD_OP : Fld := ⟨0xB002C * 8 + 0, 0, 2⟩
-- TLNK_RX_Wk — offset 0x0100 + 4k, TLNK_TX_Wk — offset 0x0140 + 4k (spec/12_safety_io_traction.md)
def TLNK_RX_Wk_DATA : Fld := ⟨0xB0100 * 8 + 0, 32, 32⟩
-- TLNK_RX_Wk — offset 0x0100 + 4k, TLNK_TX_Wk — offset 0x0140 + 4k (spec/12_safety_io_traction.md)
def TLNK_TX_Wk_DATA : Fld := ⟨0xB0140 * 8 + 0, 32, 32⟩
-- CANx_STATUS — offset 0x0000 (spec/13_can.md)
def CANx_STATUS_RX_NEW : Fld := ⟨0xC0000 * 8 + 0, 0, 1⟩
def CANx_STATUS_TX_DONE : Fld := ⟨0xC0000 * 8 + 1, 0, 1⟩
def CANx_STATUS_OVERRUN : Fld := ⟨0xC0000 * 8 + 2, 0, 1⟩
def CANx_STATUS_EPASS : Fld := ⟨0xC0000 * 8 + 3, 0, 1⟩
def CANx_STATUS_BUSOFF : Fld := ⟨0xC0000 * 8 + 4, 0, 1⟩
def CANx_STATUS_NOACK_NEW : Fld := ⟨0xC0000 * 8 + 5, 0, 1⟩
def CANx_STATUS_IDCLASH_NEW : Fld := ⟨0xC0000 * 8 + 6, 0, 1⟩
def CANx_STATUS_LOST : Fld := ⟨0xC0000 * 8 + 7, 0, 1⟩
def CANx_STATUS_PXE : Fld := ⟨0xC0000 * 8 + 8, 0, 1⟩
def CANx_STATUS_BUF_CE : Fld := ⟨0xC0000 * 8 + 9, 0, 1⟩
def CANx_STATUS_TIMING_ERR : Fld := ⟨0xC0000 * 8 + 10, 0, 1⟩
-- CANx_IRQ_MASK — offset 0x0004 (spec/13_can.md)
def CANx_IRQ_MASK_MASK : Fld := ⟨0xC0004 * 8 + 0, 0, 11⟩
-- CANx_CMD — offset 0x0008 (spec/13_can.md)
def CANx_CMD_OP : Fld := ⟨0xC0008 * 8 + 0, 0, 2⟩
-- CANx_CFG — offset 0x000C (spec/13_can.md)
def CANx_CFG_EN : Fld := ⟨0xC000C * 8 + 0, 0, 1⟩
def CANx_CFG_AUTO_REC : Fld := ⟨0xC000C * 8 + 1, 0, 1⟩
def CANx_CFG_NOACK_SSHOT : Fld := ⟨0xC000C * 8 + 2, 0, 1⟩
def CANx_CFG_LOST_BO : Fld := ⟨0xC000C * 8 + 3, 0, 1⟩
def CANx_CFG_TERM : Fld := ⟨0xC000C * 8 + 4, 0, 1⟩
def CANx_CFG_LOST_LIM : Fld := ⟨0xC000C * 8 + 16, 0, 16⟩
-- CANx_NBT — offset 0x0010 (spec/13_can.md)
def CANx_NBT_NBRP : Fld := ⟨0xC0010 * 8 + 0, 0, 9⟩
def CANx_NBT_NTSEG1 : Fld := ⟨0xC0010 * 8 + 9, 0, 8⟩
def CANx_NBT_NTSEG2 : Fld := ⟨0xC0010 * 8 + 17, 0, 7⟩
def CANx_NBT_NSJW : Fld := ⟨0xC0010 * 8 + 24, 0, 7⟩
-- CANx_DBT — offset 0x0014 (spec/13_can.md)
def CANx_DBT_DBRP : Fld := ⟨0xC0014 * 8 + 0, 0, 5⟩
def CANx_DBT_DTSEG1 : Fld := ⟨0xC0014 * 8 + 8, 0, 5⟩
def CANx_DBT_DTSEG2 : Fld := ⟨0xC0014 * 8 + 16, 0, 4⟩
def CANx_DBT_DSJW : Fld := ⟨0xC0014 * 8 + 24, 0, 4⟩
def CANx_DBT_TDC_EN : Fld := ⟨0xC0014 * 8 + 31, 0, 1⟩
-- CANx_TDC — offset 0x0018 (spec/13_can.md)
def CANx_TDC_TDCO : Fld := ⟨0xC0018 * 8 + 0, 0, 7⟩
def CANx_TDC_TDCV : Fld := ⟨0xC0018 * 8 + 8, 0, 7⟩
-- CANx_ERR — offset 0x001C (spec/13_can.md)
def CANx_ERR_TEC : Fld := ⟨0xC001C * 8 + 0, 0, 8⟩
def CANx_ERR_REC : Fld := ⟨0xC001C * 8 + 8, 0, 7⟩
def CANx_ERR_RP : Fld := ⟨0xC001C * 8 + 15, 0, 1⟩
def CANx_ERR_ESTATE : Fld := ⟨0xC001C * 8 + 16, 0, 2⟩
def CANx_ERR_LEC : Fld := ⟨0xC001C * 8 + 18, 0, 3⟩
def CANx_ERR_LEC_DATA : Fld := ⟨0xC001C * 8 + 21, 0, 1⟩
def CANx_ERR_NOACK : Fld := ⟨0xC001C * 8 + 22, 0, 1⟩
def CANx_ERR_LOST : Fld := ⟨0xC001C * 8 + 23, 0, 1⟩
def CANx_ERR_LOST_CAUSE : Fld := ⟨0xC001C * 8 + 24, 0, 2⟩
def CANx_ERR_MONITOR : Fld := ⟨0xC001C * 8 + 26, 0, 1⟩
-- CANx_IDCLASH — offset 0x0020 (spec/13_can.md)
def CANx_IDCLASH_ID : Fld := ⟨0xC0020 * 8 + 0, 0, 29⟩
def CANx_IDCLASH_IDE : Fld := ⟨0xC0020 * 8 + 29, 0, 1⟩
def CANx_IDCLASH_MULTI : Fld := ⟨0xC0020 * 8 + 30, 0, 1⟩
def CANx_IDCLASH_VALID : Fld := ⟨0xC0020 * 8 + 31, 0, 1⟩
-- CANx_CNT — offset 0x0024 (spec/13_can.md)
def CANx_CNT_RECOV_SEQ : Fld := ⟨0xC0024 * 8 + 0, 0, 8⟩
def CANx_CNT_BO_CNT : Fld := ⟨0xC0024 * 8 + 8, 0, 8⟩
def CANx_CNT_OVR_CNT : Fld := ⟨0xC0024 * 8 + 16, 0, 8⟩
def CANx_CNT_NOACK_RUN : Fld := ⟨0xC0024 * 8 + 24, 0, 8⟩
-- CANx_RXF0 — offset 0x0028, CANx_RXF1 — offset 0x002C, CANx_TXD0 — offset 0x0030, CANx_TXD1 — offset 0x0034 (spec/13_can.md)
def CANx_RXF0_FLAG : Fld := ⟨0xC0028 * 8 + 0, 0, 32⟩
-- CANx_RXF0 — offset 0x0028, CANx_RXF1 — offset 0x002C, CANx_TXD0 — offset 0x0030, CANx_TXD1 — offset 0x0034 (spec/13_can.md)
def CANx_RXF1_FLAG : Fld := ⟨0xC002C * 8 + 0, 0, 32⟩
-- CANx_RXF0 — offset 0x0028, CANx_RXF1 — offset 0x002C, CANx_TXD0 — offset 0x0030, CANx_TXD1 — offset 0x0034 (spec/13_can.md)
def CANx_TXD0_FLAG : Fld := ⟨0xC0030 * 8 + 0, 0, 32⟩
-- CANx_RXF0 — offset 0x0028, CANx_RXF1 — offset 0x002C, CANx_TXD0 — offset 0x0030, CANx_TXD1 — offset 0x0034 (spec/13_can.md)
def CANx_TXD1_FLAG : Fld := ⟨0xC0034 * 8 + 0, 0, 32⟩
-- CANx_CLASH_INFO — offset 0x0038 (spec/13_can.md)
def CANx_CLASH_INFO_BUF : Fld := ⟨0xC0038 * 8 + 0, 0, 6⟩
-- CANx_FLTf_ID — offset 0x0040 + 4f, CANx_FLTf_MASK — offset 0x00C0 + 4f (spec/13_can.md)
def CANx_FLTf_ID_ID : Fld := ⟨0xC0040 * 8 + 0, 32, 29⟩
def CANx_FLTf_ID_IDE : Fld := ⟨0xC0040 * 8 + 29, 32, 1⟩
-- CANx_FLTf_ID — offset 0x0040 + 4f, CANx_FLTf_MASK — offset 0x00C0 + 4f (spec/13_can.md)
def CANx_FLTf_MASK_MASK : Fld := ⟨0xC00C0 * 8 + 0, 32, 29⟩
-- CANx_FLTf_CFG — offset 0x0140 + 4f (spec/13_can.md)
def CANx_FLTf_CFG_TARGET : Fld := ⟨0xC0140 * 8 + 0, 32, 6⟩
def CANx_FLTf_CFG_GROUP_END : Fld := ⟨0xC0140 * 8 + 8, 32, 6⟩
def CANx_FLTf_CFG_TYPE : Fld := ⟨0xC0140 * 8 + 16, 32, 2⟩
def CANx_FLTf_CFG_VALID : Fld := ⟨0xC0140 * 8 + 31, 32, 1⟩
-- CANx_BUFCFGb — offset 0x0800 + 4b (spec/13_can.md)
def CANx_BUFCFGb_DIR : Fld := ⟨0xC0800 * 8 + 0, 32, 1⟩
def CANx_BUFCFGb_OWNER : Fld := ⟨0xC0800 * 8 + 1, 32, 2⟩
def CANx_BUFCFGb_OVWR : Fld := ⟨0xC0800 * 8 + 3, 32, 1⟩
def CANx_BUFCFGb_SSHOT : Fld := ⟨0xC0800 * 8 + 4, 32, 1⟩
-- CANx_BUFCTRLb — offset 0x0900 + 4b (spec/13_can.md)
def CANx_BUFCTRLb_TX_REQ : Fld := ⟨0xC0900 * 8 + 0, 32, 1⟩
def CANx_BUFCTRLb_ABORT : Fld := ⟨0xC0900 * 8 + 1, 32, 1⟩
def CANx_BUFCTRLb_LOCK_REL : Fld := ⟨0xC0900 * 8 + 2, 32, 1⟩
def CANx_BUFCTRLb_REENABLE : Fld := ⟨0xC0900 * 8 + 3, 32, 1⟩
def CANx_BUFCTRLb_FULL : Fld := ⟨0xC0900 * 8 + 8, 32, 1⟩
def CANx_BUFCTRLb_LOCKED : Fld := ⟨0xC0900 * 8 + 9, 32, 1⟩
def CANx_BUFCTRLb_LOCK_OWNER : Fld := ⟨0xC0900 * 8 + 10, 32, 2⟩
def CANx_BUFCTRLb_HELD : Fld := ⟨0xC0900 * 8 + 12, 32, 1⟩
def CANx_BUFCTRLb_SSHOT_ACT : Fld := ⟨0xC0900 * 8 + 13, 32, 1⟩
def CANx_BUFCTRLb_OVERRUN : Fld := ⟨0xC0900 * 8 + 14, 32, 1⟩
def CANx_BUFCTRLb_TX_FAIL : Fld := ⟨0xC0900 * 8 + 15, 32, 1⟩
-- CANx_BUFb_Wk — offset 0x1000 + 0x48b + 4k (spec/13_can.md)
def CANx_BUFb_W0_ID : Fld := ⟨0xC1000 * 8 + 0, 576, 29⟩
def CANx_BUFb_W0_IDE : Fld := ⟨0xC1000 * 8 + 29, 576, 1⟩
def CANx_BUFb_W0_RTR : Fld := ⟨0xC1000 * 8 + 30, 576, 1⟩
def CANx_BUFb_W0_FDF : Fld := ⟨0xC1000 * 8 + 31, 576, 1⟩
-- CANx_BUFb_Wk — offset 0x1000 + 0x48b + 4k (spec/13_can.md)
def CANx_BUFb_W1_DLC : Fld := ⟨0xC1004 * 8 + 0, 576, 4⟩
def CANx_BUFb_W1_BRS : Fld := ⟨0xC1004 * 8 + 4, 576, 1⟩
def CANx_BUFb_W1_ESI : Fld := ⟨0xC1004 * 8 + 5, 576, 1⟩
def CANx_BUFb_W1_FULL : Fld := ⟨0xC1004 * 8 + 6, 576, 1⟩
def CANx_BUFb_W1_OVERRUN : Fld := ⟨0xC1004 * 8 + 7, 576, 1⟩
def CANx_BUFb_W1_LOCKED : Fld := ⟨0xC1004 * 8 + 8, 576, 1⟩
def CANx_BUFb_W1_FILTER : Fld := ⟨0xC1004 * 8 + 9, 576, 5⟩
-- CANx_BUFb_Wk — offset 0x1000 + 0x48b + 4k (spec/13_can.md)
def CANx_BUFb_Wk_DATA : Fld := ⟨0xC1008 * 8 + 0, 32, 32⟩
-- CANx_BUFb_TS_L — offset 0x2400 + 8b, CANx_BUFb_TS_H — offset 0x2404 + 8b (spec/13_can.md)
def CANx_BUFb_TS_L_TS : Fld := ⟨0xC2400 * 8 + 0, 64, 32⟩
-- CANx_BUFb_TS_L — offset 0x2400 + 8b, CANx_BUFb_TS_H — offset 0x2404 + 8b (spec/13_can.md)
def CANx_BUFb_TS_H_TS : Fld := ⟨0xC2404 * 8 + 0, 64, 8⟩
-- CVU_STATUS — offset 0x0000 (spec/14_safety_telegrams.md)
def CVU_STATUS_MISMATCH : Fld := ⟨0xD0000 * 8 + 0, 0, 16⟩
def CVU_STATUS_DONE : Fld := ⟨0xD0000 * 8 + 16, 0, 16⟩
-- CVU_IRQ_MASK — offset 0x0004 (spec/14_safety_telegrams.md)
def CVU_IRQ_MASK_MASK : Fld := ⟨0xD0004 * 8 + 0, 0, 32⟩
-- CVU_ENG — offset 0x0008 (spec/14_safety_telegrams.md)
def CVU_ENG_BUSY : Fld := ⟨0xD0008 * 8 + 0, 0, 4⟩
-- CVU_CHn_CFG — offset 0x0100 + 0x40n (spec/14_safety_telegrams.md)
def CVU_CHn_CFG_WIDTH : Fld := ⟨0xD0100 * 8 + 0, 512, 6⟩
def CVU_CHn_CFG_REFIN : Fld := ⟨0xD0100 * 8 + 6, 512, 1⟩
def CVU_CHn_CFG_REFOUT : Fld := ⟨0xD0100 * 8 + 7, 512, 1⟩
def CVU_CHn_CFG_INV : Fld := ⟨0xD0100 * 8 + 8, 512, 1⟩
def CVU_CHn_CFG_GUARD : Fld := ⟨0xD0100 * 8 + 9, 512, 2⟩
def CVU_CHn_CFG_ALIVE_ADV : Fld := ⟨0xD0100 * 8 + 11, 512, 1⟩
def CVU_CHn_CFG_CMP_EN : Fld := ⟨0xD0100 * 8 + 12, 512, 1⟩
def CVU_CHn_CFG_OWNER : Fld := ⟨0xD0100 * 8 + 13, 512, 2⟩
-- CVU_CHn_POLY, _INIT, _FOLD, _EXPECT — offsets 0x0104, 0x0108, 0x010C, 0x0114 + 0x40n (spec/14_safety_telegrams.md)
def CVU_CHn_POLY_VALUE : Fld := ⟨0xD0104 * 8 + 0, 512, 32⟩
-- CVU_CHn_POLY, _INIT, _FOLD, _EXPECT — offsets 0x0104, 0x0108, 0x010C, 0x0114 + 0x40n (spec/14_safety_telegrams.md)
def CVU_CHn_INIT_VALUE : Fld := ⟨0xD0108 * 8 + 0, 512, 32⟩
-- CVU_CHn_POLY, _INIT, _FOLD, _EXPECT — offsets 0x0104, 0x0108, 0x010C, 0x0114 + 0x40n (spec/14_safety_telegrams.md)
def CVU_CHn_FOLD_VALUE : Fld := ⟨0xD010C * 8 + 0, 512, 32⟩
-- CVU_CHn_POLY, _INIT, _FOLD, _EXPECT — offsets 0x0104, 0x0108, 0x010C, 0x0114 + 0x40n (spec/14_safety_telegrams.md)
def CVU_CHn_EXPECT_VALUE : Fld := ⟨0xD0114 * 8 + 0, 512, 32⟩
-- CVU_CHn_ALIVE — offset 0x0110 + 0x40n (spec/14_safety_telegrams.md)
def CVU_CHn_ALIVE_ALIVE_CNT : Fld := ⟨0xD0110 * 8 + 0, 512, 16⟩
-- CVU_CHn_CTRL — offset 0x0118 + 0x40n (spec/14_safety_telegrams.md)
def CVU_CHn_CTRL_OP : Fld := ⟨0xD0118 * 8 + 0, 512, 2⟩
-- CVU_CHn_STAT — offset 0x011C + 0x40n (spec/14_safety_telegrams.md)
def CVU_CHn_STAT_ACTIVE : Fld := ⟨0xD011C * 8 + 0, 512, 1⟩
def CVU_CHn_STAT_BUSY : Fld := ⟨0xD011C * 8 + 1, 512, 1⟩
def CVU_CHn_STAT_MATCH : Fld := ⟨0xD011C * 8 + 2, 512, 1⟩
def CVU_CHn_STAT_MISMATCH : Fld := ⟨0xD011C * 8 + 3, 512, 1⟩
def CVU_CHn_STAT_CLAIM : Fld := ⟨0xD011C * 8 + 4, 512, 2⟩
def CVU_CHn_STAT_ERR : Fld := ⟨0xD011C * 8 + 6, 512, 1⟩
def CVU_CHn_STAT_BYTES : Fld := ⟨0xD011C * 8 + 16, 512, 16⟩
-- CVU_CHn_CTX — offset 0x0120 + 0x40n, CVU_CHn_RESULT — offset 0x0124 + 0x40n (spec/14_safety_telegrams.md)
def CVU_CHn_CTX_CTX : Fld := ⟨0xD0120 * 8 + 0, 512, 32⟩
-- CVU_CHn_CTX — offset 0x0120 + 0x40n, CVU_CHn_RESULT — offset 0x0124 + 0x40n (spec/14_safety_telegrams.md)
def CVU_CHn_RESULT_RESULT : Fld := ⟨0xD0124 * 8 + 0, 512, 32⟩
-- CVU_CHn_DATA32, _DATA16, _DATA8 — offsets 0x0128, 0x012C, 0x0130 + 0x40n (spec/14_safety_telegrams.md)
def CVU_CHn_DATA32_DATA : Fld := ⟨0xD0128 * 8 + 0, 512, 32⟩
-- CVU_CHn_DATA32, _DATA16, _DATA8 — offsets 0x0128, 0x012C, 0x0130 + 0x40n (spec/14_safety_telegrams.md)
def CVU_CHn_DATA16_DATA : Fld := ⟨0xD012C * 8 + 0, 512, 32⟩
-- CVU_CHn_DATA32, _DATA16, _DATA8 — offsets 0x0128, 0x012C, 0x0130 + 0x40n (spec/14_safety_telegrams.md)
def CVU_CHn_DATA8_DATA : Fld := ⟨0xD0130 * 8 + 0, 512, 32⟩
-- CVU_CHn_DATA32, _DATA16, _DATA8 — offsets 0x0128, 0x012C, 0x0130 + 0x40n (spec/14_safety_telegrams.md)
-- STE_STATUS — offset 0x0000 (spec/14_safety_telegrams.md)
def STE_STATUS_LAPSE_NEW : Fld := ⟨0xE0000 * 8 + 0, 0, 1⟩
def STE_STATUS_REJ_NEW : Fld := ⟨0xE0000 * 8 + 1, 0, 1⟩
def STE_STATUS_ANN_NEW : Fld := ⟨0xE0000 * 8 + 2, 0, 1⟩
def STE_STATUS_ANN_OVF : Fld := ⟨0xE0000 * 8 + 3, 0, 1⟩
def STE_STATUS_ADMIT_DONE : Fld := ⟨0xE0000 * 8 + 4, 0, 1⟩
def STE_STATUS_RELEASED : Fld := ⟨0xE0000 * 8 + 5, 0, 1⟩
def STE_STATUS_STALE_TX : Fld := ⟨0xE0000 * 8 + 6, 0, 1⟩
def STE_STATUS_RX_OVF : Fld := ⟨0xE0000 * 8 + 7, 0, 1⟩
-- STE_IRQ_MASK — offset 0x0004 (spec/14_safety_telegrams.md)
def STE_IRQ_MASK_MASK : Fld := ⟨0xE0004 * 8 + 0, 0, 8⟩
-- STE_CFG — offset 0x0008 (spec/14_safety_telegrams.md)
def STE_CFG_ANN_EN : Fld := ⟨0xE0008 * 8 + 0, 0, 1⟩
def STE_CFG_ANN_DUP : Fld := ⟨0xE0008 * 8 + 1, 0, 2⟩
def STE_CFG_DYN_HOLD : Fld := ⟨0xE0008 * 8 + 16, 0, 16⟩
-- STE_ANN_CID — offset 0x000C, STE_ANN_RXID — offset 0x0010, STE_ANN_TXID — offset 0x0014 (spec/14_safety_telegrams.md)
def STE_ANN_CID_CID : Fld := ⟨0xE000C * 8 + 0, 0, 32⟩
-- STE_ANN_CID — offset 0x000C, STE_ANN_RXID — offset 0x0010, STE_ANN_TXID — offset 0x0014 (spec/14_safety_telegrams.md)
def STE_ANN_RXID_ID : Fld := ⟨0xE0010 * 8 + 0, 0, 29⟩
def STE_ANN_RXID_IDE : Fld := ⟨0xE0010 * 8 + 29, 0, 1⟩
-- STE_ANN_CID — offset 0x000C, STE_ANN_RXID — offset 0x0010, STE_ANN_TXID — offset 0x0014 (spec/14_safety_telegrams.md)
def STE_ANN_TXID_ID : Fld := ⟨0xE0014 * 8 + 0, 0, 29⟩
def STE_ANN_TXID_IDE : Fld := ⟨0xE0014 * 8 + 29, 0, 1⟩
-- STE_ANN_PENDk — offset 0x0020 + 4k, STE_ANN_PIDk — offset 0x0030 + 4k (spec/14_safety_telegrams.md)
def STE_ANN_PENDk_WL : Fld := ⟨0xE0020 * 8 + 0, 32, 5⟩
def STE_ANN_PENDk_VALID : Fld := ⟨0xE0020 * 8 + 7, 32, 1⟩
def STE_ANN_PENDk_AGE : Fld := ⟨0xE0020 * 8 + 16, 32, 16⟩
-- STE_ANN_PENDk — offset 0x0020 + 4k, STE_ANN_PIDk — offset 0x0030 + 4k (spec/14_safety_telegrams.md)
def STE_ANN_PIDk_PID : Fld := ⟨0xE0030 * 8 + 0, 32, 32⟩
-- STE_ADMIT — offset 0x0040 (spec/14_safety_telegrams.md)
def STE_ADMIT_WL : Fld := ⟨0xE0040 * 8 + 0, 0, 5⟩
def STE_ADMIT_OP : Fld := ⟨0xE0040 * 8 + 8, 0, 2⟩
def STE_ADMIT_CONN : Fld := ⟨0xE0040 * 8 + 16, 0, 6⟩
-- STE_ADMIT_RES — offset 0x0044 (spec/14_safety_telegrams.md)
def STE_ADMIT_RES_RESULT : Fld := ⟨0xE0044 * 8 + 0, 0, 2⟩
def STE_ADMIT_RES_REASON : Fld := ⟨0xE0044 * 8 + 8, 0, 4⟩
def STE_ADMIT_RES_CONN : Fld := ⟨0xE0044 * 8 + 16, 0, 6⟩
-- STE_AXSEL0 — offset 0x0048, STE_AXSEL1 — offset 0x004C (spec/14_safety_telegrams.md)
def STE_AXSEL0_AXLE_ID : Fld := ⟨0xE0048 * 8 + 0, 0, 32⟩
-- STE_AXSEL0 — offset 0x0048, STE_AXSEL1 — offset 0x004C (spec/14_safety_telegrams.md)
def STE_AXSEL1_AXLE_ID : Fld := ⟨0xE004C * 8 + 0, 0, 32⟩
-- STE_RXBIT0 — offset 0x0050, STE_RXBIT1 — offset 0x0054 (spec/14_safety_telegrams.md)
def STE_RXBIT0_RX : Fld := ⟨0xE0050 * 8 + 0, 0, 32⟩
-- STE_RXBIT0 — offset 0x0050, STE_RXBIT1 — offset 0x0054 (spec/14_safety_telegrams.md)
def STE_RXBIT1_RX : Fld := ⟨0xE0054 * 8 + 0, 0, 32⟩
-- STE_VALID0 — offset 0x0058, STE_VALID1 — offset 0x005C (spec/14_safety_telegrams.md)
def STE_VALID0_VALID : Fld := ⟨0xE0058 * 8 + 0, 0, 32⟩
-- STE_VALID0 — offset 0x0058, STE_VALID1 — offset 0x005C (spec/14_safety_telegrams.md)
def STE_VALID1_VALID : Fld := ⟨0xE005C * 8 + 0, 0, 32⟩
-- STE_CONNc_CFG — offset 0x0100 + 0x20c (spec/14_safety_telegrams.md)
def STE_CONNc_CFG_CLASS : Fld := ⟨0xE0100 * 8 + 0, 256, 2⟩
def STE_CONNc_CFG_FMT : Fld := ⟨0xE0100 * 8 + 2, 256, 1⟩
def STE_CONNc_CFG_DUP : Fld := ⟨0xE0100 * 8 + 3, 256, 2⟩
def STE_CONNc_CFG_WIN : Fld := ⟨0xE0100 * 8 + 8, 256, 4⟩
def STE_CONNc_CFG_TEXP : Fld := ⟨0xE0100 * 8 + 16, 256, 11⟩
-- STE_CONNc_CID — offset 0x0104 + 0x20c, STE_CONNc_TXID — offset 0x0108 + 0x20c, STE_CONNc_RXID — offset 0x010C + 0x20c (spec/14_safety_telegrams.md)
def STE_CONNc_CID_CID : Fld := ⟨0xE0104 * 8 + 0, 256, 32⟩
-- STE_CONNc_CID — offset 0x0104 + 0x20c, STE_CONNc_TXID — offset 0x0108 + 0x20c, STE_CONNc_RXID — offset 0x010C + 0x20c (spec/14_safety_telegrams.md)
def STE_CONNc_TXID_ID : Fld := ⟨0xE0108 * 8 + 0, 256, 29⟩
def STE_CONNc_TXID_IDE : Fld := ⟨0xE0108 * 8 + 29, 256, 1⟩
-- STE_CONNc_CID — offset 0x0104 + 0x20c, STE_CONNc_TXID — offset 0x0108 + 0x20c, STE_CONNc_RXID — offset 0x010C + 0x20c (spec/14_safety_telegrams.md)
def STE_CONNc_RXID_ID : Fld := ⟨0xE010C * 8 + 0, 256, 29⟩
def STE_CONNc_RXID_IDE : Fld := ⟨0xE010C * 8 + 29, 256, 1⟩
-- STE_CONNc_MAP — offset 0x0110 + 0x20c (spec/14_safety_telegrams.md)
def STE_CONNc_MAP_RX_FIRST : Fld := ⟨0xE0110 * 8 + 0, 256, 6⟩
def STE_CONNc_MAP_RX_COUNT : Fld := ⟨0xE0110 * 8 + 8, 256, 7⟩
def STE_CONNc_MAP_TX_PERIOD : Fld := ⟨0xE0110 * 8 + 16, 256, 10⟩
-- STE_CONNc_TXMASK_L — offset 0x0114 + 0x20c, STE_CONNc_TXMASK_H — offset 0x0118 + 0x20c (spec/14_safety_telegrams.md)
def STE_CONNc_TXMASK_L_MASK : Fld := ⟨0xE0114 * 8 + 0, 256, 32⟩
-- STE_CONNc_TXMASK_L — offset 0x0114 + 0x20c, STE_CONNc_TXMASK_H — offset 0x0118 + 0x20c (spec/14_safety_telegrams.md)
def STE_CONNc_TXMASK_H_MASK : Fld := ⟨0xE0118 * 8 + 0, 256, 32⟩
-- STE_CONNc_STAT — offset 0x011C + 0x20c (spec/14_safety_telegrams.md)
def STE_CONNc_STAT_STATE : Fld := ⟨0xE011C * 8 + 0, 256, 3⟩
def STE_CONNc_STAT_SAFE_RX : Fld := ⟨0xE011C * 8 + 3, 256, 1⟩
def STE_CONNc_STAT_WL : Fld := ⟨0xE011C * 8 + 4, 256, 5⟩
def STE_CONNc_STAT_BOUND : Fld := ⟨0xE011C * 8 + 9, 256, 1⟩
def STE_CONNc_STAT_AGE : Fld := ⟨0xE011C * 8 + 16, 256, 16⟩
-- STE_CONNc_SEQ — offset 0x0900 + 8c, STE_CONNc_ERR — offset 0x0904 + 8c (spec/14_safety_telegrams.md)
def STE_CONNc_SEQ_TX_SEQ : Fld := ⟨0xE0900 * 8 + 0, 64, 16⟩
def STE_CONNc_SEQ_RX_SEQ : Fld := ⟨0xE0900 * 8 + 16, 64, 16⟩
-- STE_CONNc_SEQ — offset 0x0900 + 8c, STE_CONNc_ERR — offset 0x0904 + 8c (spec/14_safety_telegrams.md)
def STE_CONNc_ERR_CHECK : Fld := ⟨0xE0904 * 8 + 0, 64, 8⟩
def STE_CONNc_ERR_SEQ : Fld := ⟨0xE0904 * 8 + 8, 64, 8⟩
def STE_CONNc_ERR_OTHER : Fld := ⟨0xE0904 * 8 + 16, 64, 8⟩
def STE_CONNc_ERR_STALE : Fld := ⟨0xE0904 * 8 + 24, 64, 8⟩
-- STE_WLw_PID — offset 0x0C00 + 0x20w, STE_WLw_CID — offset 0x0C04 + 0x20w (spec/14_safety_telegrams.md)
def STE_WLw_PID_PID : Fld := ⟨0xE0C00 * 8 + 0, 256, 32⟩
-- STE_WLw_PID — offset 0x0C00 + 0x20w, STE_WLw_CID — offset 0x0C04 + 0x20w (spec/14_safety_telegrams.md)
def STE_WLw_CID_CID : Fld := ⟨0xE0C04 * 8 + 0, 256, 32⟩
-- STE_WLw_TXID — offset 0x0C08 + 0x20w, STE_WLw_RXID — offset 0x0C0C + 0x20w (spec/14_safety_telegrams.md)
def STE_WLw_TXID_ID : Fld := ⟨0xE0C08 * 8 + 0, 256, 29⟩
def STE_WLw_TXID_IDE : Fld := ⟨0xE0C08 * 8 + 29, 256, 1⟩
-- STE_WLw_TXID — offset 0x0C08 + 0x20w, STE_WLw_RXID — offset 0x0C0C + 0x20w (spec/14_safety_telegrams.md)
def STE_WLw_RXID_ID : Fld := ⟨0xE0C0C * 8 + 0, 256, 29⟩
def STE_WLw_RXID_IDE : Fld := ⟨0xE0C0C * 8 + 29, 256, 1⟩
-- STE_WLw_CFG — offset 0x0C10 + 0x20w (spec/14_safety_telegrams.md)
def STE_WLw_CFG_DUP : Fld := ⟨0xE0C10 * 8 + 3, 256, 2⟩
def STE_WLw_CFG_WIN : Fld := ⟨0xE0C10 * 8 + 8, 256, 4⟩
def STE_WLw_CFG_TEXP : Fld := ⟨0xE0C10 * 8 + 16, 256, 11⟩
def STE_WLw_CFG_VALID : Fld := ⟨0xE0C10 * 8 + 31, 256, 1⟩
-- STE_WLw_MAP — offset 0x0C14 + 0x20w, STE_WLw_TXMASK_L — offset 0x0C18 + 0x20w, STE_WLw_TXMASK_H — offset 0x0C1C + 0x20w (spec/14_safety_telegrams.md)
def STE_WLw_MAP_RX_FIRST : Fld := ⟨0xE0C14 * 8 + 0, 256, 6⟩
def STE_WLw_MAP_RX_COUNT : Fld := ⟨0xE0C14 * 8 + 8, 256, 7⟩
def STE_WLw_MAP_TX_PERIOD : Fld := ⟨0xE0C14 * 8 + 16, 256, 10⟩
-- STE_WLw_MAP — offset 0x0C14 + 0x20w, STE_WLw_TXMASK_L — offset 0x0C18 + 0x20w, STE_WLw_TXMASK_H — offset 0x0C1C + 0x20w (spec/14_safety_telegrams.md)
def STE_WLw_TXMASK_L_MASK : Fld := ⟨0xE0C18 * 8 + 0, 256, 32⟩
-- STE_WLw_MAP — offset 0x0C14 + 0x20w, STE_WLw_TXMASK_L — offset 0x0C18 + 0x20w, STE_WLw_TXMASK_H — offset 0x0C1C + 0x20w (spec/14_safety_telegrams.md)
def STE_WLw_TXMASK_H_MASK : Fld := ⟨0xE0C1C * 8 + 0, 256, 32⟩
-- URED_STATUS — offset 0x0000 (spec/15_unit_pairing.md)
def URED_STATUS_TAKEOVER : Fld := ⟨0xF0000 * 8 + 0, 0, 1⟩
def URED_STATUS_YIELDED : Fld := ⟨0xF0000 * 8 + 1, 0, 1⟩
def URED_STATUS_DIVERGE : Fld := ⟨0xF0000 * 8 + 2, 0, 1⟩
def URED_STATUS_RESYNC_START : Fld := ⟨0xF0000 * 8 + 3, 0, 1⟩
def URED_STATUS_RESYNC_DONE : Fld := ⟨0xF0000 * 8 + 4, 0, 1⟩
def URED_STATUS_HB_LOST : Fld := ⟨0xF0000 * 8 + 5, 0, 1⟩
def URED_STATUS_PARTNER_LOST : Fld := ⟨0xF0000 * 8 + 6, 0, 1⟩
def URED_STATUS_TO_BLOCKED : Fld := ⟨0xF0000 * 8 + 7, 0, 1⟩
def URED_STATUS_TB_ABORT : Fld := ⟨0xF0000 * 8 + 8, 0, 1⟩
def URED_STATUS_FIRST_ERR : Fld := ⟨0xF0000 * 8 + 9, 0, 1⟩
def URED_STATUS_LINK_DOWN : Fld := ⟨0xF0000 * 8 + 10, 0, 1⟩
def URED_STATUS_SYNC_LOST : Fld := ⟨0xF0000 * 8 + 11, 0, 1⟩
def URED_STATUS_INTLK_ERR : Fld := ⟨0xF0000 * 8 + 12, 0, 1⟩
def URED_STATUS_PREF_CLASH : Fld := ⟨0xF0000 * 8 + 13, 0, 1⟩
def URED_STATUS_CFG_MISMATCH : Fld := ⟨0xF0000 * 8 + 14, 0, 1⟩
def URED_STATUS_FORCE_STOP : Fld := ⟨0xF0000 * 8 + 15, 0, 1⟩
-- URED_IRQ_MASK — offset 0x0004 (spec/15_unit_pairing.md)
def URED_IRQ_MASK_MASK : Fld := ⟨0xF0004 * 8 + 0, 0, 10⟩
-- URED_CFG — offset 0x0008 (spec/15_unit_pairing.md)
def URED_CFG_PAIR_EN : Fld := ⟨0xF0008 * 8 + 0, 0, 1⟩
def URED_CFG_TB_PARK : Fld := ⟨0xF0008 * 8 + 1, 0, 1⟩
-- URED_CMD — offset 0x000C (spec/15_unit_pairing.md)
def URED_CMD_OP : Fld := ⟨0xF000C * 8 + 0, 0, 2⟩
-- URED_STATE — offset 0x0010 (spec/15_unit_pairing.md)
def URED_STATE_ROLE : Fld := ⟨0xF0010 * 8 + 0, 0, 2⟩
def URED_STATE_READY : Fld := ⟨0xF0010 * 8 + 2, 0, 1⟩
def URED_STATE_NR_REASON : Fld := ⟨0xF0010 * 8 + 3, 0, 4⟩
def URED_STATE_PREF : Fld := ⟨0xF0010 * 8 + 7, 0, 1⟩
def URED_STATE_INTLK_IN : Fld := ⟨0xF0010 * 8 + 8, 0, 1⟩
def URED_STATE_INTLK_OUT : Fld := ⟨0xF0010 * 8 + 9, 0, 1⟩
def URED_STATE_CLAIM : Fld := ⟨0xF0010 * 8 + 10, 0, 1⟩
def URED_STATE_PARTNER_ROLE : Fld := ⟨0xF0010 * 8 + 11, 0, 2⟩
def URED_STATE_PARTNER_STATE : Fld := ⟨0xF0010 * 8 + 13, 0, 3⟩
def URED_STATE_PARTNER_READY : Fld := ⟨0xF0010 * 8 + 16, 0, 1⟩
def URED_STATE_LINK_UP : Fld := ⟨0xF0010 * 8 + 17, 0, 1⟩
-- URED_RUN — offset 0x0014 (spec/15_unit_pairing.md)
def URED_RUN_MISMATCH_RUN : Fld := ⟨0xF0014 * 8 + 0, 0, 8⟩
def URED_RUN_VERDICT_ST : Fld := ⟨0xF0014 * 8 + 8, 0, 2⟩
def URED_RUN_OWN_FAULT : Fld := ⟨0xF0014 * 8 + 10, 0, 1⟩
def URED_RUN_PART_FAULT : Fld := ⟨0xF0014 * 8 + 11, 0, 1⟩
def URED_RUN_EQ_RUN : Fld := ⟨0xF0014 * 8 + 16, 0, 10⟩
-- URED_SYNC — offset 0x0018 (spec/15_unit_pairing.md)
def URED_SYNC_SLICES : Fld := ⟨0xF0018 * 8 + 0, 0, 7⟩
def URED_SYNC_BACKLOG : Fld := ⟨0xF0018 * 8 + 7, 0, 1⟩
def URED_SYNC_OFFSET : Fld := ⟨0xF0018 * 8 + 8, 0, 8⟩
def URED_SYNC_IMG_MISS : Fld := ⟨0xF0018 * 8 + 16, 0, 16⟩
-- URED_CRC_LOCAL — offset 0x001C, URED_CRC_PARTNER — offset 0x0020 (spec/15_unit_pairing.md)
def URED_CRC_LOCAL_CRC : Fld := ⟨0xF001C * 8 + 0, 0, 32⟩
-- URED_CRC_LOCAL — offset 0x001C, URED_CRC_PARTNER — offset 0x0020 (spec/15_unit_pairing.md)
def URED_CRC_PARTNER_CRC : Fld := ⟨0xF0020 * 8 + 0, 0, 32⟩
-- URED_MM — offset 0x0024 (spec/15_unit_pairing.md)
def URED_MM_ITEM : Fld := ⟨0xF0024 * 8 + 0, 0, 2⟩
def URED_MM_INDEX : Fld := ⟨0xF0024 * 8 + 2, 0, 6⟩
def URED_MM_CYCLE : Fld := ⟨0xF0024 * 8 + 16, 0, 16⟩
-- URED_CNT — offset 0x0028 (spec/15_unit_pairing.md)
def URED_CNT_TAKEOVERS : Fld := ⟨0xF0028 * 8 + 0, 0, 8⟩
def URED_CNT_HANDOVERS : Fld := ⟨0xF0028 * 8 + 8, 0, 8⟩
def URED_CNT_DIVERGENCES : Fld := ⟨0xF0028 * 8 + 16, 0, 8⟩
def URED_CNT_RESYNCS : Fld := ⟨0xF0028 * 8 + 24, 0, 8⟩
-- URED_LINK — offset 0x002C (spec/15_unit_pairing.md)
def URED_LINK_FRAMES : Fld := ⟨0xF002C * 8 + 0, 0, 16⟩
def URED_LINK_CRC_ERR : Fld := ⟨0xF002C * 8 + 16, 0, 8⟩
def URED_LINK_RESENT : Fld := ⟨0xF002C * 8 + 24, 0, 8⟩
-- URED_FIRST — offset 0x0030 (spec/15_unit_pairing.md)
def URED_FIRST_SRC : Fld := ⟨0xF0030 * 8 + 0, 0, 1⟩
def URED_FIRST_XBAR : Fld := ⟨0xF0030 * 8 + 1, 0, 1⟩
def URED_FIRST_SOUT : Fld := ⟨0xF0030 * 8 + 2, 0, 1⟩
def URED_FIRST_TLP_DRV : Fld := ⟨0xF0030 * 8 + 3, 0, 1⟩
def URED_FIRST_TLS_DRV : Fld := ⟨0xF0030 * 8 + 4, 0, 1⟩
def URED_FIRST_TONE : Fld := ⟨0xF0030 * 8 + 5, 0, 1⟩
def URED_FIRST_INTLK : Fld := ⟨0xF0030 * 8 + 6, 0, 1⟩
-- URED_TO_TS_L — offset 0x0034, URED_TO_TS_H — offset 0x0038 (spec/15_unit_pairing.md)
def URED_TO_TS_L_TS : Fld := ⟨0xF0034 * 8 + 0, 0, 32⟩
-- URED_TO_TS_L — offset 0x0034, URED_TO_TS_H — offset 0x0038 (spec/15_unit_pairing.md)
def URED_TO_TS_H_TS : Fld := ⟨0xF0038 * 8 + 0, 0, 8⟩
-- DEV_ID — offset 0x0000 (spec/16_host_ports.md)
def DEV_ID_PART : Fld := ⟨0x0 * 8 + 0, 0, 16⟩
def DEV_ID_VENDOR : Fld := ⟨0x0 * 8 + 16, 0, 16⟩
-- DEV_REV — offset 0x0004 (spec/16_host_ports.md)
def DEV_REV_REV : Fld := ⟨0x4 * 8 + 0, 0, 16⟩
-- DEV_STATE — offset 0x0008 (spec/16_host_ports.md)
def DEV_STATE_STATE : Fld := ⟨0x8 * 8 + 0, 0, 3⟩
def DEV_STATE_ROLE : Fld := ⟨0x8 * 8 + 3, 0, 2⟩
def DEV_STATE_SAFE_CAUSE : Fld := ⟨0x8 * 8 + 8, 0, 4⟩
def DEV_STATE_BOOT_WAIT : Fld := ⟨0x8 * 8 + 16, 0, 1⟩
-- DEV_CMD — offset 0x000C (spec/16_host_ports.md)
def DEV_CMD_OP : Fld := ⟨0xC * 8 + 0, 0, 4⟩
def DEV_CMD_KEY : Fld := ⟨0xC * 8 + 16, 0, 16⟩
-- DEV_CMD_STAT — offset 0x0010 (spec/16_host_ports.md)
def DEV_CMD_STAT_ENTER_A : Fld := ⟨0x10 * 8 + 0, 0, 1⟩
def DEV_CMD_STAT_ENTER_B : Fld := ⟨0x10 * 8 + 1, 0, 1⟩
def DEV_CMD_STAT_RESET_A : Fld := ⟨0x10 * 8 + 2, 0, 1⟩
def DEV_CMD_STAT_RESET_B : Fld := ⟨0x10 * 8 + 3, 0, 1⟩
def DEV_CMD_STAT_RESET_AGE : Fld := ⟨0x10 * 8 + 16, 0, 16⟩
-- DEV_STATUS — offset 0x0014 (spec/16_host_ports.md)
def DEV_STATUS_STATE_CHG : Fld := ⟨0x14 * 8 + 0, 0, 1⟩
def DEV_STATUS_ROLE_CHG : Fld := ⟨0x14 * 8 + 1, 0, 1⟩
def DEV_STATUS_CMD_REJ : Fld := ⟨0x14 * 8 + 2, 0, 1⟩
def DEV_STATUS_CMD_EXPIRED : Fld := ⟨0x14 * 8 + 3, 0, 1⟩
-- DEV_IRQ_MASK — offset 0x0018 (spec/16_host_ports.md)
def DEV_IRQ_MASK_MASK : Fld := ⟨0x18 * 8 + 0, 0, 4⟩
-- HPS_ID — offset 0x0000 (spec/16_host_ports.md)
def HPS_ID_PORT_ID : Fld := ⟨0x110000 * 8 + 0, 0, 2⟩
-- HPS_STATUS — offset 0x0004 (spec/16_host_ports.md)
def HPS_STATUS_ACC_ERR : Fld := ⟨0x110004 * 8 + 0, 0, 1⟩
def HPS_STATUS_CRC_ERR : Fld := ⟨0x110004 * 8 + 1, 0, 1⟩
def HPS_STATUS_LEN_ERR : Fld := ⟨0x110004 * 8 + 2, 0, 1⟩
-- HPS_ERR — offset 0x0008 (spec/16_host_ports.md)
def HPS_ERR_ADDR : Fld := ⟨0x110008 * 8 + 0, 0, 24⟩
def HPS_ERR_KIND : Fld := ⟨0x110008 * 8 + 24, 0, 4⟩
def HPS_ERR_WRITE : Fld := ⟨0x110008 * 8 + 28, 0, 1⟩
def HPS_ERR_VALID : Fld := ⟨0x110008 * 8 + 31, 0, 1⟩
-- HPS_CNT — offset 0x000C (spec/16_host_ports.md)
def HPS_CNT_ACC_CNT : Fld := ⟨0x11000C * 8 + 0, 0, 16⟩
def HPS_CNT_CRC_CNT : Fld := ⟨0x11000C * 8 + 16, 0, 8⟩
def HPS_CNT_REPEAT_CNT : Fld := ⟨0x11000C * 8 + 24, 0, 8⟩
-- HPS_IRQ_PEND — offset 0x0010 (spec/16_host_ports.md)
def HPS_IRQ_PEND_PEND : Fld := ⟨0x110010 * 8 + 0, 0, 32⟩
-- HPS_IRQ_ROUTEA — offset 0x0014, HPS_IRQ_ROUTEB — offset 0x0018 (spec/16_host_ports.md)
def HPS_IRQ_ROUTEA_ROUTE : Fld := ⟨0x110014 * 8 + 0, 0, 32⟩
-- HPS_IRQ_ROUTEA — offset 0x0014, HPS_IRQ_ROUTEB — offset 0x0018 (spec/16_host_ports.md)
def HPS_IRQ_ROUTEB_ROUTE : Fld := ⟨0x110018 * 8 + 0, 0, 32⟩
-- HPS_CMD — offset 0x001C (spec/16_host_ports.md)
def HPS_CMD_OP : Fld := ⟨0x11001C * 8 + 0, 0, 2⟩
-- HPS_SEM_A — offset 0x0020, HPS_SEM_B — offset 0x0024 (spec/16_host_ports.md)
def HPS_SEM_A_HELD : Fld := ⟨0x110020 * 8 + 0, 0, 32⟩
-- HPS_SEM_A — offset 0x0020, HPS_SEM_B — offset 0x0024 (spec/16_host_ports.md)
def HPS_SEM_B_HELD : Fld := ⟨0x110024 * 8 + 0, 0, 32⟩
-- HPS_SEMk — offset 0x0100 + 4k (spec/16_host_ports.md)
def HPS_SEMk_OWNER : Fld := ⟨0x110100 * 8 + 0, 32, 2⟩
-- JRN_STATUS — offset 0x0000 (spec/16_host_ports.md)
def JRN_STATUS_GQ_LEVEL : Fld := ⟨0x140000 * 8 + 0, 0, 1⟩
def JRN_STATUS_GQ_GAP : Fld := ⟨0x140000 * 8 + 1, 0, 1⟩
def JRN_STATUS_GAP_KEPT : Fld := ⟨0x140000 * 8 + 2, 0, 1⟩
def JRN_STATUS_JRN_NEW : Fld := ⟨0x140000 * 8 + 3, 0, 1⟩
-- JRN_IRQ_MASK — offset 0x0004 (spec/16_host_ports.md)
def JRN_IRQ_MASK_MASK : Fld := ⟨0x140004 * 8 + 0, 0, 4⟩
-- JRN_GQ_STAT — offset 0x0008 (spec/16_host_ports.md)
def JRN_GQ_STAT_WR : Fld := ⟨0x140008 * 8 + 0, 0, 12⟩
def JRN_GQ_STAT_RD : Fld := ⟨0x140008 * 8 + 16, 0, 12⟩
def JRN_GQ_STAT_GAP_OPEN : Fld := ⟨0x140008 * 8 + 28, 0, 1⟩
-- JRN_GQ_FREE — offset 0x000C (spec/16_host_ports.md)
def JRN_GQ_FREE_N : Fld := ⟨0x14000C * 8 + 0, 0, 12⟩
-- JRN_GQ_LEVEL — offset 0x0010 (spec/16_host_ports.md)
def JRN_GQ_LEVEL_COUNT : Fld := ⟨0x140010 * 8 + 0, 0, 12⟩
def JRN_GQ_LEVEL_GQ_THRESH : Fld := ⟨0x140010 * 8 + 16, 0, 12⟩
-- JRN_DROP_CNT — offset 0x0014 (spec/16_host_ports.md)
def JRN_DROP_CNT_DROPS : Fld := ⟨0x140014 * 8 + 0, 0, 32⟩
-- JRN_CFG — offset 0x0018 (spec/16_host_ports.md)
def JRN_CFG_GQ_OWNER : Fld := ⟨0x140018 * 8 + 0, 0, 1⟩
-- JRN_FILTER — offset 0x001C (spec/16_host_ports.md)
def JRN_FILTER_CLASSES : Fld := ⟨0x14001C * 8 + 1, 0, 4⟩
def JRN_FILTER_GQ_KINDS : Fld := ⟨0x14001C * 8 + 16, 0, 4⟩
-- JRN_HEAD — offset 0x0020 (spec/16_host_ports.md)
def JRN_HEAD_HEAD : Fld := ⟨0x140020 * 8 + 0, 0, 32⟩
-- BCW_CNTn — offset 0x0000 + 4n (spec/17_bamdon_window.md)
def BCW_CNTn_COUNT : Fld := ⟨0x1E0000 * 8 + 0, 32, 8⟩
-- BCW_DIR0 — offset 0x0020, BCW_DIR1 — offset 0x0024 (spec/17_bamdon_window.md)
def BCW_DIR_DIR : Fld := ⟨0x1E0020 * 8 + 0, 8, 8⟩
-- BCW_DIR0 — offset 0x0020, BCW_DIR1 — offset 0x0024 (spec/17_bamdon_window.md)
-- BCW_STAT — offset 0x0028 (spec/17_bamdon_window.md)
def BCW_STAT_USABLE : Fld := ⟨0x1E0028 * 8 + 0, 0, 8⟩
def BCW_STAT_MAPPED : Fld := ⟨0x1E0028 * 8 + 8, 0, 8⟩
def BCW_STAT_FROZEN : Fld := ⟨0x1E0028 * 8 + 16, 0, 1⟩
def BCW_STAT_CLR_DONE : Fld := ⟨0x1E0028 * 8 + 17, 0, 1⟩
def BCW_STAT_CLR_TO : Fld := ⟨0x1E0028 * 8 + 18, 0, 1⟩
-- BCW_CLR — offset 0x002C (spec/17_bamdon_window.md)
def BCW_CLR_KEY : Fld := ⟨0x1E002C * 8 + 0, 0, 8⟩
-- BCW_CFG — offset 0x0030 (spec/17_bamdon_window.md)
def BCW_CFG_EN : Fld := ⟨0x1E0030 * 8 + 0, 0, 1⟩
-- CRU_STATUS — offset 0x0000 (spec/18_power_clock_startup.md)
def CRU_STATUS_MONA_FAIL : Fld := ⟨0x130000 * 8 + 0, 0, 1⟩
def CRU_STATUS_MONB_FAIL : Fld := ⟨0x130000 * 8 + 1, 0, 1⟩
def CRU_STATUS_CAL_MISS : Fld := ⟨0x130000 * 8 + 2, 0, 1⟩
def CRU_STATUS_SWEEP_LATE : Fld := ⟨0x130000 * 8 + 3, 0, 1⟩
def CRU_STATUS_VIN_LOW : Fld := ⟨0x130000 * 8 + 4, 0, 1⟩
-- CRU_RST_CAUSE — offset 0x0004 (spec/18_power_clock_startup.md)
def CRU_RST_CAUSE_CAUSE : Fld := ⟨0x130004 * 8 + 0, 0, 3⟩
def CRU_RST_CAUSE_RESETS : Fld := ⟨0x130004 * 8 + 8, 0, 8⟩
-- CRU_CLK — offset 0x0008 (spec/18_power_clock_startup.md)
def CRU_CLK_PLL_LOCK : Fld := ⟨0x130008 * 8 + 0, 0, 1⟩
def CRU_CLK_MONA_ST : Fld := ⟨0x130008 * 8 + 2, 0, 2⟩
def CRU_CLK_MONB_ST : Fld := ⟨0x130008 * 8 + 4, 0, 2⟩
def CRU_CLK_CLK_SQ : Fld := ⟨0x130008 * 8 + 8, 0, 1⟩
-- CRU_MONA — offset 0x000C, CRU_MONB — offset 0x0010 (spec/18_power_clock_startup.md)
def CRU_MONA_COUNT : Fld := ⟨0x13000C * 8 + 0, 0, 16⟩
def CRU_MONA_WINDOWS : Fld := ⟨0x13000C * 8 + 16, 0, 16⟩
-- CRU_MONA — offset 0x000C, CRU_MONB — offset 0x0010 (spec/18_power_clock_startup.md)
def CRU_MONB_COUNT : Fld := ⟨0x130010 * 8 + 0, 0, 16⟩
def CRU_MONB_WINDOWS : Fld := ⟨0x130010 * 8 + 16, 0, 16⟩
-- CRU_TIME_L — offset 0x0014, CRU_TIME_H — offset 0x0018 (spec/18_power_clock_startup.md)
def CRU_TIME_L_TIME : Fld := ⟨0x130014 * 8 + 0, 0, 32⟩
-- CRU_TIME_L — offset 0x0014, CRU_TIME_H — offset 0x0018 (spec/18_power_clock_startup.md)
def CRU_TIME_H_TIME : Fld := ⟨0x130018 * 8 + 0, 0, 8⟩
-- CRU_EPOCH — offset 0x001C (spec/18_power_clock_startup.md)
def CRU_EPOCH_EPOCH : Fld := ⟨0x13001C * 8 + 0, 0, 32⟩
-- CRU_CYCLE — offset 0x0020 (spec/18_power_clock_startup.md)
def CRU_CYCLE_CYCLE : Fld := ⟨0x130020 * 8 + 0, 0, 32⟩
-- CRU_START — offset 0x0024 (spec/18_power_clock_startup.md)
def CRU_START_PHASE : Fld := ⟨0x130024 * 8 + 0, 0, 3⟩
def CRU_START_SKIPPED_CAL : Fld := ⟨0x130024 * 8 + 3, 0, 1⟩
def CRU_START_PAIRS_DONE : Fld := ⟨0x130024 * 8 + 4, 0, 4⟩
def CRU_START_ROTATIONS : Fld := ⟨0x130024 * 8 + 8, 0, 3⟩
-- CRU_OPER_TS_L — offset 0x0028, CRU_OPER_TS_H — offset 0x002C (spec/18_power_clock_startup.md)
def CRU_OPER_TS_L_TS : Fld := ⟨0x130028 * 8 + 0, 0, 32⟩
-- CRU_OPER_TS_L — offset 0x0028, CRU_OPER_TS_H — offset 0x002C (spec/18_power_clock_startup.md)
def CRU_OPER_TS_H_TS : Fld := ⟨0x13002C * 8 + 0, 0, 8⟩
-- CRU_VIN — offset 0x0030 (spec/18_power_clock_startup.md)
def CRU_VIN_VIN : Fld := ⟨0x130030 * 8 + 0, 0, 16⟩
def CRU_VIN_VIN_MIN : Fld := ⟨0x130030 * 8 + 16, 0, 16⟩

end F

/-- Registers of block EXC. -/
def regsEXC : List RegDesc := [
  ⟨0x10000, [], false,
    [(F.EXC_MODE_AUTO_SPARE, .shadow), (F.EXC_MODE_CAL_PAIRS, .static), (F.EXC_MODE_DRIVE_EN, .ro), (F.EXC_MODE_INTLK_IN, .ro)]⟩,
  ⟨0x10004, [], false,
    [(F.EXC_MON_FREE_SPARES, .ro), (F.EXC_MON_SRC_FAIL, .w1c), (F.EXC_MON_NO_SPARE, .w1c), (F.EXC_MON_XBAR_ERR, .w1c), (F.EXC_MON_PEND_DROP, .w1c), (F.EXC_MON_SUBST_CNT, .ro)]⟩,
  ⟨0x10008, [], false,
    [(F.EXC_CMD_POINTS, .wo), (F.EXC_CMD_OP, .wo)]⟩,
  ⟨0x1000C, [], false,
    [(F.EXC_PEND_PEND, .ro)]⟩,
  ⟨0x10010, [(0x4, 3)], false,
    [(F.EXC_CLAMPk_CLAMP, .w1c)]⟩,
  ⟨0x10020, [(0x4, 56)], false,
    [(F.EXC_SRCn_STATUS, .ro), (F.EXC_SRCn_PIN, .ro), (F.EXC_SRCn_RETIRE, .shadow)]⟩,
  ⟨0x10100, [(0x4, 96)], false,
    [(F.EXC_ROUTEp_SRC, .shadow), (F.EXC_ROUTEp_FUNC, .shadow), (F.EXC_ROUTEp_CLAMP_CNT, .ro)]⟩,
  ⟨0x10300, [(0x4, 24)], false,
    [(F.EXC_CARRIER_SPn_CARRIER, .shadow), (F.EXC_CARRIER_SPn_AMP, .shadow), (F.EXC_CARRIER_SPn_MODE, .shadow), (F.EXC_CARRIER_SPn_ALT_PHASE, .ro)]⟩]

/-- Registers of block MEAS. -/
def regsMEAS : List RegDesc := [
  ⟨0x20000, [], false,
    [(F.MEAS_STATUS_SNAP_DONE, .ro), (F.MEAS_STATUS_SNAP_BUSY, .ro), (F.MEAS_STATUS_SNAP_REFUSED, .w1c), (F.MEAS_STATUS_SNAP_PORT, .ro), (F.MEAS_STATUS_REF_BUSY, .ro), (F.MEAS_STATUS_REF_ERR, .w1c), (F.MEAS_STATUS_OFFS_ERR, .w1c), (F.MEAS_STATUS_DRIFT, .w1c)]⟩,
  ⟨0x20004, [], false,
    [(F.MEAS_SNAP_REQ_GO, .live), (F.MEAS_SNAP_REQ_SRC, .live)]⟩,
  ⟨0x20008, [], false,
    [(F.MEAS_SNAP_MASK0_MASK, .live)]⟩,
  ⟨0x2000C, [], false,
    [(F.MEAS_SNAP_MASK1_MASK, .live)]⟩,
  ⟨0x20010, [], false,
    [(F.MEAS_SNAP_TS_L_TS, .ro)]⟩,
  ⟨0x20014, [], false,
    [(F.MEAS_SNAP_TS_H_TS, .ro)]⟩,
  ⟨0x20020, [(0x4, 6)], false,
    [(F.MEAS_SNAP_TAGk_TAG, .ro), (F.MEAS_SNAP_TAGk_TAG.offB 4, .ro), (F.MEAS_SNAP_TAGk_TAG.offB 8, .ro), (F.MEAS_SNAP_TAGk_TAG.offB 12, .ro), (F.MEAS_SNAP_TAGk_TAG.offB 16, .ro), (F.MEAS_SNAP_TAGk_TAG.offB 20, .ro), (F.MEAS_SNAP_TAGk_TAG.offB 24, .ro), (F.MEAS_SNAP_TAGk_TAG.offB 28, .ro)]⟩,
  ⟨0x20040, [], false,
    [(F.MEAS_REF_CMD_CH, .wo), (F.MEAS_REF_CMD_ALL, .wo)]⟩,
  ⟨0x20080, [(0x4, 4)], false,
    [(F.MEAS_UCURVEu_CFG_D_MIN, .static), (F.MEAS_UCURVEu_CFG_D_MAX, .static), (F.MEAS_UCURVEu_CFG_INPUT, .static)]⟩,
  ⟨0x20100, [(0x4, 48)], false,
    [(F.MEAS_CHn_CFG_CURVE, .shadow), (F.MEAS_CHn_CFG_CURVE_PEND, .ro), (F.MEAS_CHn_CFG_OFFS_VALID, .ro), (F.MEAS_CHn_CFG_B_VALID, .ro), (F.MEAS_CHn_CFG_DRIFT, .ro), (F.MEAS_CHn_CFG_CAL_BAD, .ro)]⟩,
  ⟨0x20200, [(0x4, 48)], false,
    [(F.MEAS_CHn_REF_REF_AMP, .static), (F.MEAS_CHn_REF_REF_PHASE, .static)]⟩,
  ⟨0x20300, [(0x8, 48)], false,
    [(F.MEAS_CHn_OFFS_I_OFFS, .ro)]⟩,
  ⟨0x20304, [(0x8, 48)], false,
    [(F.MEAS_CHn_OFFS_Q_OFFS, .ro)]⟩,
  ⟨0x20500, [(0x4, 48)], false,
    [(F.MEAS_CHn_NOISE_SIGMA, .ro)]⟩,
  ⟨0x20600, [(0x4, 48)], false,
    [(F.MEAS_CHn_B1_B1, .ro)]⟩,
  ⟨0x20700, [(0x4, 48)], false,
    [(F.MEAS_CHn_BPASS_B, .ro), (F.MEAS_CHn_BPASS_VALID, .ro)]⟩,
  ⟨0x21000, [(0x8, 48)], false,
    [(F.MEAS_SNAP_CHn_L_VALUE, .ro)]⟩,
  ⟨0x21004, [(0x8, 48)], false,
    [(F.MEAS_SNAP_CHn_H_VALUE, .ro)]⟩,
  ⟨0x22000, [(0x100, 4), (0x4, 33)], false,
    [(F.MEAS_UCURVEu_KNOTj_KNOT, .static)]⟩]

/-- Registers of block SUP. -/
def regsSUP : List RegDesc := [
  ⟨0x30000, [], false,
    [(F.SUP_TONE_CFG_DEV_LIM, .shadow), (F.SUP_TONE_CFG_PH_LIM, .shadow), (F.SUP_TONE_CFG_XT_LIM, .shadow), (F.SUP_TONE_CFG_AGE_LIM, .shadow)]⟩,
  ⟨0x30004, [], false,
    [(F.SUP_STATUS_SLOT, .ro), (F.SUP_STATUS_TONE_ERR, .w1c), (F.SUP_STATUS_FAULT_NEW, .w1c), (F.SUP_STATUS_ZREF_BUSY, .ro), (F.SUP_STATUS_ZREF_ERR, .w1c), (F.SUP_STATUS_CLEAR_LAPSE, .w1c), (F.SUP_STATUS_STALE_ANY, .w1c)]⟩,
  ⟨0x30008, [], false,
    [(F.SUP_CMD_CH, .wo), (F.SUP_CMD_ALL, .wo), (F.SUP_CMD_OP, .wo)]⟩,
  ⟨0x30010, [], false,
    [(F.SUP_FAULTY0_FAULTY, .ro)]⟩,
  ⟨0x30014, [], false,
    [(F.SUP_FAULTY1_FAULTY, .ro)]⟩,
  ⟨0x30018, [], false,
    [(F.SUP_SELF_MAG, .ro), (F.SUP_SELF_PASS48, .ro), (F.SUP_SELF_PASS49, .ro)]⟩,
  ⟨0x30100, [(0x4, 48)], false,
    [(F.SUP_CHn_ZREF_MAG, .static), (F.SUP_CHn_ZREF_PHASE, .static)]⟩,
  ⟨0x30200, [(0x4, 48)], false,
    [(F.SUP_CHn_IMP_MAG, .ro), (F.SUP_CHn_IMP_PHASE, .ro)]⟩,
  ⟨0x30300, [(0x4, 48)], false,
    [(F.SUP_CHn_FAULT_REASON, .ro), (F.SUP_CHn_FAULT_CLR_ARMED, .ro), (F.SUP_CHn_FAULT_PASS_CNT, .ro), (F.SUP_CHn_FAULT_FLAG_CNT, .ro), (F.SUP_CHn_FAULT_GLITCH_CNT, .ro)]⟩,
  ⟨0x30400, [(0x4, 48)], false,
    [(F.SUP_CHn_VISIT_RESULT, .ro), (F.SUP_CHn_VISIT_STALE, .ro), (F.SUP_CHn_VISIT_AGE, .ro)]⟩]

/-- Registers of block WEV. -/
def regsWEV : List RegDesc := [
  ⟨0x40000, [], false,
    [(F.WEV_STATUS_SEQ_FAULT, .w1c), (F.WEV_STATUS_HYST_LOW, .w1c), (F.WEV_STATUS_PARK_NEW, .w1c), (F.WEV_STATUS_SERIAL, .ro)]⟩,
  ⟨0x40004, [], false,
    [(F.WEV_GQ_FILTER_KINDS, .live)]⟩,
  ⟨0x40100, [(0x4, 48)], false,
    [(F.WEV_CHn_THR_ON_THR, .shadow), (F.WEV_CHn_THR_OFF_THR, .shadow)]⟩,
  ⟨0x40200, [(0x4, 24)], false,
    [(F.WEV_SPn_GEOM_SPACING, .shadow), (F.WEV_SPn_GEOM_FIELD, .static), (F.WEV_SPn_GEOM_ORIENT, .static)]⟩,
  ⟨0x40300, [(0x4, 24)], false,
    [(F.WEV_SPn_CFG_HOLD, .shadow), (F.WEV_SPn_CFG_PARK_TIME, .shadow), (F.WEV_SPn_CFG_PARK_BAND, .shadow)]⟩,
  ⟨0x40400, [(0x4, 24)], false,
    [(F.WEV_SPn_STATE_SEQ, .ro), (F.WEV_SPn_STATE_ENTRY, .ro), (F.WEV_SPn_STATE_DIR_LAST, .ro), (F.WEV_SPn_STATE_THR_PEND, .ro), (F.WEV_SPn_STATE_STATE_A, .ro), (F.WEV_SPn_STATE_STATE_B, .ro), (F.WEV_SPn_STATE_HYST_LOW_A, .ro), (F.WEV_SPn_STATE_HYST_LOW_B, .ro)]⟩,
  ⟨0x40500, [(0x4, 24)], false,
    [(F.WEV_SPn_PCNT_POS, .ro), (F.WEV_SPn_PCNT_NEG, .ro)]⟩,
  ⟨0x40600, [(0x4, 24)], false,
    [(F.WEV_SPn_XCNT_EDDY, .ro), (F.WEV_SPn_XCNT_HOLD_CANCEL, .ro), (F.WEV_SPn_XCNT_SEQ_FAULT, .ro), (F.WEV_SPn_XCNT_UNRESOLVED, .ro)]⟩,
  ⟨0x40700, [(0x4, 24)], false,
    [(F.WEV_CPc_MAP_SP, .static), (F.WEV_CPc_MAP_VALID, .static)]⟩]

/-- Registers of block LEDG. -/
def regsLEDG : List RegDesc := [
  ⟨0x50000, [], false,
    [(F.LEDG_CFG_W, .shadow), (F.LEDG_CFG_LOOKAHEAD, .shadow), (F.LEDG_CFG_D_ACC, .shadow), (F.LEDG_CFG_D_CAP, .shadow)]⟩,
  ⟨0x50004, [], false,
    [(F.LEDG_COST_INS_COST, .shadow), (F.LEDG_COST_SKIP_COST, .shadow), (F.LEDG_COST_QUIET, .shadow)]⟩,
  ⟨0x50008, [], false,
    [(F.LEDG_TOL0_PEAK_TOL, .shadow), (F.LEDG_TOL0_FLEN_TOL, .shadow)]⟩,
  ⟨0x5000C, [], false,
    [(F.LEDG_TOL1_ABR_TOL, .shadow), (F.LEDG_TOL1_ASYM_TOL, .shadow)]⟩,
  ⟨0x50010, [], false,
    [(F.LEDG_TOL2_DIAM_TOL, .shadow), (F.LEDG_TOL2_GAP_TOL, .shadow)]⟩,
  ⟨0x50014, [], false,
    [(F.LEDG_SLIP_CFG_SLIP_LIM, .shadow), (F.LEDG_SLIP_CFG_MIN_DIST, .shadow)]⟩,
  ⟨0x50020, [], false,
    [(F.LEDG_STATUS_IN_FLIGHT, .ro), (F.LEDG_STATUS_LEDGER_FULL, .w1c), (F.LEDG_STATUS_LAPSE_NEW, .w1c), (F.LEDG_STATUS_LOC_NEW, .w1c), (F.LEDG_STATUS_SLIP_NEW, .w1c), (F.LEDG_STATUS_QUEUE_FULL, .w1c), (F.LEDG_STATUS_ENG0_BUSY, .ro), (F.LEDG_STATUS_ENG1_BUSY, .ro)]⟩,
  ⟨0x50024, [], false,
    [(F.LEDG_QUEUE_QDEPTH, .ro), (F.LEDG_QUEUE_QMAX, .ro)]⟩,
  ⟨0x50028, [], false,
    [(F.LEDG_QAGE_OLDEST_AGE, .ro)]⟩,
  ⟨0x5002C, [], false,
    [(F.LEDG_CNT_LAPSED_CNT, .ro), (F.LEDG_CNT_CREATE_FAIL, .ro)]⟩,
  ⟨0x50030, [], false,
    [(F.LEDG_JOBS_JOBS, .ro)]⟩,
  ⟨0x50040, [], false,
    [(F.LEDG_LOC_STAT_LOC_COUNT, .ro), (F.LEDG_LOC_STAT_LOC_OVF, .w1c)]⟩,
  ⟨0x50044, [], false,
    [(F.LEDG_LOC_INFO_KIND, .ro), (F.LEDG_LOC_INFO_CP, .ro), (F.LEDG_LOC_INFO_EVID_UP, .ro), (F.LEDG_LOC_INFO_EVID_DN, .ro)]⟩,
  ⟨0x50048, [], false,
    [(F.LEDG_LOC_AXLE_AXLE_ID, .ro)]⟩,
  ⟨0x5004C, [], false,
    [(F.LEDG_LOC_TS_L_TS, .ro)]⟩,
  ⟨0x50050, [], false,
    [(F.LEDG_LOC_TS_H_TS, .ro)]⟩,
  ⟨0x50054, [], false,
    [(F.LEDG_LOC_POP_POP, .wo)]⟩,
  ⟨0x50060, [(0x4, 4)], false,
    [(F.LEDG_SLIP_PORTk_SLIP, .ro)]⟩,
  ⟨0x50080, [], true,
    [(F.LEDG_REC_REQ_SLOT, .live), (F.LEDG_REC_REQ_GO, .live)]⟩,
  ⟨0x50084, [], true,
    [(F.LEDG_REC_STAT_DONE, .ro), (F.LEDG_REC_STAT_SLOT, .ro)]⟩,
  ⟨0x50100, [(0x4, 24)], true,
    [(F.LEDG_REC_Wk_DATA, .ro)]⟩,
  ⟨0x50200, [(0x4, 24)], false,
    [(F.LEDG_SPn_CFG_STATION, .static), (F.LEDG_SPn_CFG_HOST_SEC, .static), (F.LEDG_SPn_CFG_SLIP_PORT, .static), (F.LEDG_SPn_CFG_SLIP_EN, .static)]⟩,
  ⟨0x50280, [(0x4, 24)], false,
    [(F.LEDG_SPn_REF_ABR_REF, .ro), (F.LEDG_SPn_REF_DIAM_REF, .ro)]⟩,
  ⟨0x50300, [(0x4, 48)], false,
    [(F.LEDG_SECn_LCOUNT, .ro), (F.LEDG_SECn_DIFF, .ro), (F.LEDG_SECn_EVID, .ro), (F.LEDG_SECn_ID_OK, .ro), (F.LEDG_SECn_BAD_DIST, .ro), (F.LEDG_SECn_BAD_LAPSED, .ro), (F.LEDG_SECn_BAD_VIRT, .ro), (F.LEDG_SECn_BAD_ALIGN, .ro), (F.LEDG_SECn_COVER_LOST, .ro), (F.LEDG_SECn_PENDING, .ro)]⟩]

/-- Registers of block SECT, part 1. -/
def regsSECT_0 : List RegDesc := [
  ⟨0x60000, [], false,
    [(F.SECT_STATUS_DIST_NEW, .w1c), (F.SECT_STATUS_RESTORED, .w1c), (F.SECT_STATUS_REJECT, .w1c), (F.SECT_STATUS_ALIGN_ERR, .w1c), (F.SECT_STATUS_LIMIT, .w1c), (F.SECT_STATUS_N_DIST, .ro)]⟩,
  ⟨0x60004, [], false,
    [(F.SECT_RESTORE_CMD_SEC, .wo), (F.SECT_RESTORE_CMD_OP, .wo), (F.SECT_RESTORE_CMD_TOKEN, .wo)]⟩,
  ⟨0x60008, [], true,
    [(F.SECT_RESTORE_RES_SEC, .ro), (F.SECT_RESTORE_RES_OP, .ro), (F.SECT_RESTORE_RES_RESULT, .ro), (F.SECT_RESTORE_RES_REASON, .ro)]⟩,
  ⟨0x60010, [], false,
    [(F.SECT_DIRECT_A_SEC, .ro), (F.SECT_DIRECT_A_VALID, .ro), (F.SECT_DIRECT_A_AGE, .ro)]⟩,
  ⟨0x60014, [], false,
    [(F.SECT_DIRECT_B_SEC, .ro), (F.SECT_DIRECT_B_VALID, .ro), (F.SECT_DIRECT_B_AGE, .ro)]⟩,
  ⟨0x60020, [], false,
    [(F.SECT_OCC0_OCC, .ro)]⟩,
  ⟨0x60024, [], false,
    [(F.SECT_OCC1_OCC, .ro)]⟩,
  ⟨0x60100, [(0x4, 48)], false,
    [(F.SECT_n_STATE_STATE, .ro), (F.SECT_n_STATE_EARLY, .ro), (F.SECT_n_STATE_OCC, .ro), (F.SECT_n_STATE_LULL, .ro), (F.SECT_n_STATE_MOVING, .ro), (F.SECT_n_STATE_SINGLE, .ro), (F.SECT_n_STATE_MULTI, .ro), (F.SECT_n_STATE_CAUSE, .ro), (F.SECT_n_STATE_CAUSE_CP, .ro), (F.SECT_n_STATE_ID_READY, .ro), (F.SECT_n_STATE_STBY_AGREE, .ro), (F.SECT_n_STATE_USED, .ro)]⟩,
  ⟨0x60200, [(0x4, 48)], false,
    [(F.SECT_n_CNT_COUNT, .ro), (F.SECT_n_CNT_SWEEP_AXLES, .ro), (F.SECT_n_CNT_LIMIT_CNT, .ro)]⟩,
  ⟨0x60300, [(0x4, 48)], false,
    [(F.SECT_n_CFG_EARLY_EN, .static), (F.SECT_n_CFG_DIRECT_EN, .static), (F.SECT_n_CFG_ID_EN, .static), (F.SECT_n_CFG_MOVING, .static), (F.SECT_n_CFG_PORT, .static), (F.SECT_n_CFG_SWEEP_MIN, .static), (F.SECT_n_CFG_NBND, .static)]⟩,
  ⟨0x60400, [(0x8, 48)], false,
    [(F.SECT_n_BND_CP, .static), (F.SECT_n_BND_SENSE, .static), (F.SECT_n_BND_ALIGNED, .static), (F.SECT_n_BND_VALID, .static), (F.SECT_n_BND_CP.offB 8, .static), (F.SECT_n_BND_SENSE.offB 8, .static), (F.SECT_n_BND_ALIGNED.offB 8, .static), (F.SECT_n_BND_VALID.offB 8, .static), (F.SECT_n_BND_CP.offB 16, .static), (F.SECT_n_BND_SENSE.offB 16, .static), (F.SECT_n_BND_ALIGNED.offB 16, .static), (F.SECT_n_BND_VALID.offB 16, .static), (F.SECT_n_BND_CP.offB 24, .static), (F.SECT_n_BND_SENSE.offB 24, .static), (F.SECT_n_BND_ALIGNED.offB 24, .static), (F.SECT_n_BND_VALID.offB 24, .static)]⟩,
  ⟨0x60404, [(0x8, 48)], false,
    [(F.SECT_n_BND_CP.offB 32, .static), (F.SECT_n_BND_SENSE.offB 32, .static), (F.SECT_n_BND_ALIGNED.offB 32, .static), (F.SECT_n_BND_VALID.offB 32, .static), (F.SECT_n_BND_CP.offB 40, .static), (F.SECT_n_BND_SENSE.offB 40, .static), (F.SECT_n_BND_ALIGNED.offB 40, .static), (F.SECT_n_BND_VALID.offB 40, .static), (F.SECT_n_BND_CP.offB 48, .static), (F.SECT_n_BND_SENSE.offB 48, .static), (F.SECT_n_BND_ALIGNED.offB 48, .static), (F.SECT_n_BND_VALID.offB 48, .static), (F.SECT_n_BND_CP.offB 56, .static), (F.SECT_n_BND_SENSE.offB 56, .static), (F.SECT_n_BND_ALIGNED.offB 56, .static), (F.SECT_n_BND_VALID.offB 56, .static)]⟩,
  ⟨0x60800, [(0x20, 8)], false,
    [(F.SECT_VCPk_CFG_PORT, .static), (F.SECT_VCPk_CFG_MSEC, .static), (F.SECT_VCPk_CFG_VALID, .static)]⟩,
  ⟨0x60804, [(0x20, 8)], false,
    [(F.SECT_VCPk_POS_L_POS, .static)]⟩,
  ⟨0x60808, [(0x20, 8)], false,
    [(F.SECT_VCPk_POS_H_POS, .static)]⟩,
  ⟨0x6080C, [(0x20, 8)], false,
    [(F.SECT_VCPk_RMIN_L_RMIN, .static)]⟩,
  ⟨0x60810, [(0x20, 8)], false,
    [(F.SECT_VCPk_RMIN_H_RMIN, .static)]⟩,
  ⟨0x60814, [(0x20, 8)], false,
    [(F.SECT_VCPk_RMAX_L_RMAX, .static)]⟩,
  ⟨0x60818, [(0x20, 8)], false,
    [(F.SECT_VCPk_RMAX_H_RMAX, .static)]⟩,
  ⟨0x6081C, [(0x20, 8)], false,
    [(F.SECT_VCPk_STAT_STATE, .ro), (F.SECT_VCPk_STAT_LATE, .ro), (F.SECT_VCPk_STAT_OUT_OF_RANGE, .ro), (F.SECT_VCPk_STAT_PORT_FAULT, .ro)]⟩,
  ⟨0x60A00, [(0x20, 32)], false,
    [(F.SECT_ALNj_CFG_CP, .static), (F.SECT_ALNj_CFG_MSEC, .static), (F.SECT_ALNj_CFG_FSEC, .static), (F.SECT_ALNj_CFG_VALID, .static)]⟩,
  ⟨0x60A04, [(0x20, 32)], false,
    [(F.SECT_ALNj_MIN_L_MIN, .static)]⟩,
  ⟨0x60A08, [(0x20, 32)], false,
    [(F.SECT_ALNj_MIN_H_MIN, .static)]⟩,
  ⟨0x60A0C, [(0x20, 32)], false,
    [(F.SECT_ALNj_MAX_L_MAX, .static)]⟩]

/-- Registers of block SECT, part 2. -/
def regsSECT_1 : List RegDesc := [
  ⟨0x60A10, [(0x20, 32)], false,
    [(F.SECT_ALNj_MAX_H_MAX, .static)]⟩,
  ⟨0x60A14, [(0x20, 32), (0x4, 3)], false,
    []⟩]

/-- Registers of block SECT. -/
def regsSECT : List RegDesc := regsSECT_0 ++ regsSECT_1

/-- Registers of block SPOS. -/
def regsSPOS : List RegDesc := [
  ⟨0x70000, [], false,
    [(F.SPOS_STATUS_DIRCHG, .w1c), (F.SPOS_STATUS_LULL_ON, .w1c), (F.SPOS_STATUS_LULL_OFF, .w1c), (F.SPOS_STATUS_STALE, .w1c), (F.SPOS_STATUS_FIX_ERR, .w1c)]⟩,
  ⟨0x70004, [], false,
    [(F.SPOS_IRQ_MASK_MASK, .live)]⟩,
  ⟨0x70008, [], false,
    [(F.SPOS_CFG_LULL_TIME, .shadow), (F.SPOS_CFG_FIX_LIM, .shadow)]⟩,
  ⟨0x70010, [], false,
    [(F.SPOS_LULL0_LULL, .ro)]⟩,
  ⟨0x70014, [], false,
    [(F.SPOS_LULL1_LULL, .ro)]⟩,
  ⟨0x70020, [], true,
    [(F.SPOS_AXQ_ID_AXLE_ID, .live)]⟩,
  ⟨0x70024, [], true,
    [(F.SPOS_AXQ_REQ_GO, .live)]⟩,
  ⟨0x70028, [], true,
    [(F.SPOS_AXQ_STAT_DONE, .ro), (F.SPOS_AXQ_STAT_POS_ST, .ro), (F.SPOS_AXQ_STAT_FRAME, .ro)]⟩,
  ⟨0x7002C, [], true,
    [(F.SPOS_AXQ_POS_L_POS, .ro)]⟩,
  ⟨0x70030, [], true,
    [(F.SPOS_AXQ_POS_H_POS, .ro)]⟩,
  ⟨0x70034, [], true,
    [(F.SPOS_AXQ_TS_L_TS, .ro)]⟩,
  ⟨0x70038, [], true,
    [(F.SPOS_AXQ_TS_H_TS, .ro)]⟩,
  ⟨0x70100, [(0x4, 24)], false,
    [(F.SPOS_SPn_CFG_SPD_SCALE, .shadow), (F.SPOS_SPn_CFG_SPD_PORT, .static), (F.SPOS_SPn_CFG_SPD_EN, .static), (F.SPOS_SPn_CFG_FRAME, .static), (F.SPOS_SPn_CFG_GAP_NOM, .shadow)]⟩,
  ⟨0x70180, [(0x4, 24)], false,
    [(F.SPOS_SPn_SST_SPD_ST, .ro), (F.SPOS_SPn_SST_DIR, .ro), (F.SPOS_SPn_SST_DIR_VALID, .ro), (F.SPOS_SPn_SST_LULL, .ro), (F.SPOS_SPn_SST_AGE, .ro)]⟩,
  ⟨0x70200, [(0x8, 24)], false,
    [(F.SPOS_SPn_TPOS_L_TPOS, .static)]⟩,
  ⟨0x70204, [(0x8, 24)], false,
    [(F.SPOS_SPn_TPOS_H_TPOS, .static)]⟩,
  ⟨0x70300, [(0x8, 24)], false,
    [(F.SPOS_SPn_SPEED_L_SPEED, .ro)]⟩,
  ⟨0x70304, [(0x8, 24)], false,
    [(F.SPOS_SPn_SPEED_H_SPEED, .ro)]⟩,
  ⟨0x70400, [(0x4, 48)], false,
    [(F.SPOS_SECn_CFG_DRIVE_PORT, .static), (F.SPOS_SECn_CFG_DRIVE_EN, .static)]⟩]

/-- Registers of block DENC, part 1. -/
def regsDENC_0 : List RegDesc := [
  ⟨0x80000, [], false,
    [(F.DENC_STATUS_FAULT_NEW, .w1c), (F.DENC_STATUS_LATE_NEW, .w1c), (F.DENC_STATUS_DIRCHG, .w1c), (F.DENC_STATUS_LULL_CHG, .w1c), (F.DENC_STATUS_DRIFT_FAIL, .w1c), (F.DENC_STATUS_CMP_FIRED, .w1c), (F.DENC_STATUS_CMP_LOST, .w1c)]⟩,
  ⟨0x80004, [], false,
    [(F.DENC_IRQ_MASK_MASK, .live)]⟩,
  ⟨0x80008, [], false,
    [(F.DENC_CMD_PORTS, .wo), (F.DENC_CMD_CMPS, .wo), (F.DENC_CMD_OP, .wo)]⟩,
  ⟨0x8000C, [], false,
    [(F.DENC_CMP_STATUS_FIRED, .w1c), (F.DENC_CMP_STATUS_LOST, .w1c)]⟩,
  ⟨0x80100, [(0x40, 4)], false,
    [(F.DENC_PORTn_CFG_ATTACH, .static), (F.DENC_PORTn_CFG_PARITY, .static), (F.DENC_PORTn_CFG_TRACK_SIGN, .static), (F.DENC_PORTn_CFG_CLK_DIV, .static), (F.DENC_PORTn_CFG_POLL, .static), (F.DENC_PORTn_CFG_MONO, .static)]⟩,
  ⟨0x80104, [(0x40, 4)], false,
    [(F.DENC_PORTn_FRAME_FRAME_LEN, .static), (F.DENC_PORTn_FRAME_POS_START, .static), (F.DENC_PORTn_FRAME_POS_WIDTH, .static), (F.DENC_PORTn_FRAME_CODE, .static), (F.DENC_PORTn_FRAME_ERR_EN, .static), (F.DENC_PORTn_FRAME_ERR_IDX, .static), (F.DENC_PORTn_FRAME_ERR_POL, .static)]⟩,
  ⟨0x80108, [(0x40, 4)], false,
    [(F.DENC_PORTn_TIMING_DATA_DLY, .static), (F.DENC_PORTn_TIMING_LAT_COMP, .static), (F.DENC_PORTn_TIMING_SPEED_WIN, .static)]⟩,
  ⟨0x8010C, [(0x40, 4)], false,
    [(F.DENC_PORTn_SCALE_SCALE, .shadow)]⟩,
  ⟨0x80110, [(0x40, 4)], false,
    [(F.DENC_PORTn_OFFS_L_OFFS, .shadow)]⟩,
  ⟨0x80114, [(0x40, 4)], false,
    [(F.DENC_PORTn_OFFS_H_OFFS, .shadow)]⟩,
  ⟨0x80118, [(0x40, 4)], false,
    [(F.DENC_PORTn_LIM_MAX_STEP, .shadow), (F.DENC_PORTn_LIM_DIR_HYST, .shadow), (F.DENC_PORTn_LIM_LATE_LIM, .shadow)]⟩,
  ⟨0x8011C, [(0x40, 4)], false,
    [(F.DENC_PORTn_LULL_LULL_BAND, .shadow), (F.DENC_PORTn_LULL_LULL_TIME, .shadow)]⟩,
  ⟨0x80120, [(0x40, 4)], false,
    [(F.DENC_PORTn_POS_L_POS, .ro)]⟩,
  ⟨0x80124, [(0x40, 4)], false,
    [(F.DENC_PORTn_POS_H_POS, .ro)]⟩,
  ⟨0x80128, [(0x40, 4)], false,
    [(F.DENC_PORTn_TS_L_TS, .ro)]⟩,
  ⟨0x8012C, [(0x40, 4)], false,
    [(F.DENC_PORTn_TS_H_TS, .ro)]⟩,
  ⟨0x80130, [(0x40, 4)], false,
    [(F.DENC_PORTn_SPEED_L_SPEED, .ro)]⟩,
  ⟨0x80134, [(0x40, 4)], false,
    [(F.DENC_PORTn_SPEED_H_SPEED, .ro)]⟩,
  ⟨0x80138, [(0x40, 4)], false,
    [(F.DENC_PORTn_STAT_STATE, .ro), (F.DENC_PORTn_STAT_DIR, .ro), (F.DENC_PORTn_STAT_DIR_VALID, .ro), (F.DENC_PORTn_STAT_LULL, .ro), (F.DENC_PORTn_STAT_DRIFT_FAIL, .ro), (F.DENC_PORTn_STAT_CLR_ARMED, .ro), (F.DENC_PORTn_STAT_LAST_ERR, .ro), (F.DENC_PORTn_STAT_ERR_CNT, .ro)]⟩,
  ⟨0x8013C, [(0x40, 4)], false,
    [(F.DENC_PORTn_DRIFT_DRIFT, .ro)]⟩,
  ⟨0x80200, [(0x20, 8)], false,
    [(F.DENC_REFm_CFG_SP, .static), (F.DENC_REFm_CFG_PORT, .static), (F.DENC_REFm_CFG_DRIFT_LIM, .static), (F.DENC_REFm_CFG_VALID, .static)]⟩,
  ⟨0x80204, [(0x20, 8)], false,
    [(F.DENC_REFm_POSP_L_POSP, .static)]⟩,
  ⟨0x80208, [(0x20, 8)], false,
    [(F.DENC_REFm_POSP_H_POSP, .static)]⟩,
  ⟨0x8020C, [(0x20, 8)], false,
    [(F.DENC_REFm_POSN_L_POSN, .static)]⟩]

/-- Registers of block DENC, part 2. -/
def regsDENC_1 : List RegDesc := [
  ⟨0x80210, [(0x20, 8)], false,
    [(F.DENC_REFm_POSN_H_POSN, .static)]⟩,
  ⟨0x80214, [(0x20, 8), (0x4, 3)], false,
    []⟩,
  ⟨0x80400, [(0x20, 16)], false,
    [(F.DENC_CMPk_CFG_EN, .shadow), (F.DENC_CMPk_CFG_SRC, .shadow), (F.DENC_CMPk_CFG_PORT, .shadow), (F.DENC_CMPk_CFG_FDIR, .shadow), (F.DENC_CMPk_CFG_FIRE_IF_PASSED, .shadow)]⟩,
  ⟨0x80404, [(0x20, 16)], false,
    [(F.DENC_CMPk_AXLE_AXLE_ID, .shadow)]⟩,
  ⟨0x80408, [(0x20, 16)], false,
    [(F.DENC_CMPk_POS_L_POS, .shadow)]⟩,
  ⟨0x8040C, [(0x20, 16)], false,
    [(F.DENC_CMPk_POS_H_POS, .shadow)]⟩,
  ⟨0x80410, [(0x20, 16)], false,
    [(F.DENC_CMPk_STAT_ARMED, .ro), (F.DENC_CMPk_STAT_BEHIND, .ro), (F.DENC_CMPk_STAT_FIRED, .ro), (F.DENC_CMPk_STAT_LATE, .ro), (F.DENC_CMPk_STAT_LOST, .ro), (F.DENC_CMPk_STAT_FIRE_CNT, .ro)]⟩,
  ⟨0x80414, [(0x20, 16)], false,
    [(F.DENC_CMPk_FTS_L_FTS, .ro)]⟩,
  ⟨0x80418, [(0x20, 16)], false,
    [(F.DENC_CMPk_FTS_H_FTS, .ro)]⟩,
  ⟨0x8041C, [(0x20, 16)], false,
    []⟩]

/-- Registers of block DENC. -/
def regsDENC : List RegDesc := regsDENC_0 ++ regsDENC_1

/-- Registers of block FAB. -/
def regsFAB : List RegDesc := [
  ⟨0x90000, [], false,
    [(F.FAB_STATUS_CE_NEW, .w1c), (F.FAB_STATUS_STUCK, .w1c), (F.FAB_STATUS_CE_SQ, .w1c), (F.FAB_STATUS_UE, .w1c), (F.FAB_STATUS_DIRTY, .ro)]⟩,
  ⟨0x90004, [], false,
    [(F.FAB_INFO_TILES_USED, .ro), (F.FAB_INFO_CPS_USED, .ro), (F.FAB_INFO_SMALL, .ro), (F.FAB_INFO_QUADS, .ro)]⟩,
  ⟨0x90008, [], false,
    [(F.FAB_DEPTH_DEPTH, .ro), (F.FAB_DEPTH_RING_STEPS, .ro)]⟩,
  ⟨0x9000C, [], false,
    [(F.FAB_SCRUB_WORD, .ro), (F.FAB_SCRUB_PASSES, .ro)]⟩,
  ⟨0x90010, [], false,
    [(F.FAB_CE_CFG_CE_LIM, .static)]⟩,
  ⟨0x90014, [], false,
    [(F.FAB_CE_CNT_CE_TOTAL, .ro), (F.FAB_CE_CNT_CE_WIN, .ro), (F.FAB_CE_CNT_STUCK_CNT, .ro)]⟩,
  ⟨0x90018, [], false,
    [(F.FAB_CE_LAST_WORD, .ro), (F.FAB_CE_LAST_BIT, .ro)]⟩,
  ⟨0x9001C, [], false,
    [(F.FAB_UE_ADDR_WORD, .ro), (F.FAB_UE_ADDR_VALID, .ro)]⟩,
  ⟨0x90020, [], false,
    [(F.FAB_OUTDEM_SOUT, .ro), (F.FAB_OUTDEM_TLP, .ro), (F.FAB_OUTDEM_TLS, .ro), (F.FAB_OUTDEM_SOUT_SNAP, .ro), (F.FAB_OUTDEM_TLP_SNAP, .ro), (F.FAB_OUTDEM_TLS_SNAP, .ro)]⟩,
  ⟨0x90024, [], false,
    [(F.FAB_TXBIT0_TX, .ro)]⟩,
  ⟨0x90028, [], false,
    [(F.FAB_TXBIT1_TX, .ro)]⟩,
  ⟨0x9002C, [], false,
    [(F.FAB_HDEM_HDEM, .shadow)]⟩,
  ⟨0x90030, [], false,
    [(F.FAB_HSTAT_HST, .ro)]⟩,
  ⟨0x90080, [], false,
    [(F.FAB_WATCH_VAL0_VAL, .ro)]⟩,
  ⟨0x90084, [], false,
    [(F.FAB_WATCH_VAL1_VAL, .ro)]⟩,
  ⟨0x90100, [(0x4, 32)], false,
    [(F.FAB_WATCH_SELk_NET_LO, .live), (F.FAB_WATCH_SELk_NET_HI, .live)]⟩,
  ⟨0x90200, [(0x4, 48)], false,
    [(F.FAB_SECn_TILE_TILE, .static), (F.FAB_SECn_TILE_VALID, .static)]⟩,
  ⟨0x90400, [(0x4, 7)], false,
    [(F.FAB_OUTSELk_NET_LO, .static), (F.FAB_OUTSELk_NET_HI, .static)]⟩,
  ⟨0x90420, [(0x4, 32)], false,
    [(F.FAB_TXSELk_NET_LO, .static), (F.FAB_TXSELk_NET_HI, .static)]⟩,
  ⟨0x904A0, [(0x4, 16)], false,
    [(F.FAB_HSTSELk_NET_LO, .static), (F.FAB_HSTSELk_NET_HI, .static)]⟩,
  ⟨0x90500, [(0x40, 4), (0x4, 16)], false,
    [(F.FAB_PPq_k_CP, .static), (F.FAB_PPq_k_VALID, .static)]⟩]

/-- Registers of block CFG. -/
def regsCFG : List RegDesc := [
  ⟨0x120000, [], false,
    [(F.CFG_STATUS_LOADED, .ro), (F.CFG_STATUS_SOURCE, .ro), (F.CFG_STATUS_CFG_COMMIT_ERR, .w1c), (F.CFG_STATUS_SEAL_CHG, .w1c), (F.CFG_STATUS_DEPTH_LOW, .ro), (F.CFG_STATUS_UP_DONE, .w1c), (F.CFG_STATUS_UP_ERR, .w1c)]⟩,
  ⟨0x120004, [], false,
    [(F.CFG_LOAD_ERR_CODE, .ro), (F.CFG_LOAD_ERR_FRAME, .ro)]⟩,
  ⟨0x120008, [], false,
    [(F.CFG_SEAL_READ_SEAL, .ro), (F.CFG_SEAL_READ_UNSETTLED, .ro)]⟩,
  ⟨0x12000C, [], false,
    [(F.CFG_SEAL_EXPECT_CODE, .ro), (F.CFG_SEAL_EXPECT_STARTUP, .ro)]⟩,
  ⟨0x120010, [], false,
    [(F.CFG_SLOT_BOOT_SLOT, .static), (F.CFG_SLOT_A_VALID, .ro), (F.CFG_SLOT_B_VALID, .ro)]⟩,
  ⟨0x120014, [], false,
    [(F.CFG_SLOT_SEAL_A_SEAL, .ro), (F.CFG_SLOT_SEAL_B_SEAL, .ro)]⟩,
  ⟨0x120018, [], false,
    [(F.CFG_COMMIT_OP, .wo)]⟩,
  ⟨0x12001C, [], true,
    [(F.CFG_COMMIT_STAT_STATE, .ro), (F.CFG_COMMIT_STAT_REASON, .ro), (F.CFG_COMMIT_STAT_PENDING, .ro)]⟩,
  ⟨0x120020, [], true,
    [(F.CFG_COMMIT_ADDR_ADDR, .ro)]⟩,
  ⟨0x120024, [], false,
    [(F.CFG_HDR_FMT_MINOR, .ro), (F.CFG_HDR_FMT_MAJOR, .ro), (F.CFG_HDR_TILE_COUNT, .ro)]⟩,
  ⟨0x120028, [], false,
    [(F.CFG_HDR_REV_REV_MIN, .ro), (F.CFG_HDR_REV_REV_MAX, .ro)]⟩,
  ⟨0x12002C, [], false,
    [(F.CFG_PROJECT_VALUE, .ro)]⟩,
  ⟨0x120030, [], false,
    [(F.CFG_PROJREV_VALUE, .ro)]⟩,
  ⟨0x120034, [], false,
    [(F.CFG_DEPTH_DECL_DEPTH_DECL, .ro), (F.CFG_DEPTH_DECL_SMALL_DECL, .ro)]⟩,
  ⟨0x120040, [(0x4, 8)], false,
    [(F.CFG_DIGESTk_DIGEST, .ro)]⟩,
  ⟨0x120080, [], false,
    [(F.CFG_UP_CTRL_OP, .wo), (F.CFG_UP_CTRL_TARGET, .wo)]⟩,
  ⟨0x120084, [], false,
    [(F.CFG_UP_DATA_DATA, .wo)]⟩,
  ⟨0x120088, [], false,
    [(F.CFG_UP_STAT_STATE, .ro), (F.CFG_UP_STAT_ACCEPT, .ro), (F.CFG_UP_STAT_UP_PORT, .ro), (F.CFG_UP_STAT_CODE, .ro)]⟩,
  ⟨0x12008C, [], false,
    [(F.CFG_UP_WORDS_WORDS, .ro)]⟩]

/-- Registers of block SPU. -/
def regsSPU : List RegDesc := [
  ⟨0x100000, [], false,
    [(F.SPU_STATUS_MM_NEW, .w1c), (F.SPU_STATUS_TRANS_NEW, .w1c), (F.SPU_STATUS_FENCE_NEW, .w1c), (F.SPU_STATUS_SQ_ENTER, .w1c), (F.SPU_STATUS_KA_ERR, .w1c), (F.SPU_STATUS_PT_FAIL, .w1c), (F.SPU_STATUS_HALTED, .ro), (F.SPU_STATUS_PATCH_ERR, .ro)]⟩,
  ⟨0x100004, [], false,
    [(F.SPU_IRQ_MASK_MASK, .live)]⟩,
  ⟨0x100008, [], false,
    [(F.SPU_CORE_CORE0_ST, .ro), (F.SPU_CORE_CORE1_ST, .ro), (F.SPU_CORE_CORE2_ST, .ro), (F.SPU_CORE_DONOR, .ro), (F.SPU_CORE_MODE, .ro)]⟩,
  ⟨0x10000C, [], false,
    [(F.SPU_SQ_FIRST, .ro), (F.SPU_SQ_SECOND, .ro), (F.SPU_SQ_CAUSES, .ro)]⟩,
  ⟨0x100010, [], false,
    [(F.SPU_SQ_CFG_SQ_LIMIT, .static)]⟩,
  ⟨0x100014, [], false,
    [(F.SPU_SQ_ELAPSED_CYCLES, .ro)]⟩,
  ⟨0x100018, [], false,
    [(F.SPU_MM_INFO_KIND, .ro), (F.SPU_MM_INFO_CORE, .ro), (F.SPU_MM_INFO_TXN, .ro), (F.SPU_MM_INFO_COUNT, .ro)]⟩,
  ⟨0x10001C, [], false,
    [(F.SPU_MM_ADDR_ADDR, .ro)]⟩,
  ⟨0x100020, [], false,
    [(F.SPU_MM_TS_L_TS, .ro)]⟩,
  ⟨0x100024, [], false,
    [(F.SPU_MM_TS_H_TS, .ro)]⟩,
  ⟨0x100030, [(0x4, 3)], false,
    [(F.SPU_COREk_CNT_WIN, .ro), (F.SPU_COREk_CNT_TRANS_TOTAL, .ro), (F.SPU_COREk_CNT_PT_PASS, .ro), (F.SPU_COREk_CNT_FAILED, .ro)]⟩,
  ⟨0x100040, [], false,
    [(F.SPU_PT_NEXT, .ro), (F.SPU_PT_DEFER, .ro), (F.SPU_PT_SUSP, .ro), (F.SPU_PT_DUE, .ro)]⟩,
  ⟨0x100044, [], false,
    [(F.SPU_KA_GRANT, .ro), (F.SPU_KA_TOKENS, .ro)]⟩,
  ⟨0x100048, [], false,
    [(F.SPU_FW_ROM_REV, .ro), (F.SPU_FW_PATCH_LVL, .ro), (F.SPU_FW_PATCH_OK, .ro)]⟩,
  ⟨0x10004C, [], false,
    [(F.SPU_DBG_EN, .ro), (F.SPU_DBG_HALTED, .ro), (F.SPU_DBG_REPLAY_LVL, .ro), (F.SPU_DBG_BP_HITS, .ro)]⟩]

/-- Registers of block SIO. -/
def regsSIO : List RegDesc := [
  ⟨0xA0000, [], false,
    [(F.SIO_STATUS_IN_FAULT_NEW, .w1c), (F.SIO_STATUS_DISC_NEW, .w1c), (F.SIO_STATUS_OUT_FAULT_NEW, .w1c), (F.SIO_STATUS_CLR_REJ, .w1c)]⟩,
  ⟨0xA0004, [], false,
    [(F.SIO_IRQ_MASK_MASK, .live)]⟩,
  ⟨0xA0008, [], false,
    [(F.SIO_CMD_PAIRS, .wo), (F.SIO_CMD_OUTS, .wo), (F.SIO_CMD_OP, .wo)]⟩,
  ⟨0xA000C, [], false,
    [(F.SIO_PULSE_CFG_PERIOD, .shadow)]⟩,
  ⟨0xA0010, [], false,
    [(F.SIO_IN_VAL_VALUE, .ro), (F.SIO_IN_VAL_FAULT, .ro)]⟩,
  ⟨0xA0014, [], false,
    [(F.SIO_IN_RAW_A, .ro), (F.SIO_IN_RAW_B, .ro)]⟩,
  ⟨0xA0018, [], false,
    [(F.SIO_OUT_SUM_DRIVE, .ro), (F.SIO_OUT_SUM_SENSE, .ro)]⟩,
  ⟨0xA0100, [(0x4, 16)], false,
    [(F.SIO_INj_CFG_EN, .static), (F.SIO_INj_CFG_POL, .static), (F.SIO_INj_CFG_DISC, .shadow)]⟩,
  ⟨0xA0180, [(0x4, 16)], false,
    [(F.SIO_INj_STAT_VALUE, .ro), (F.SIO_INj_STAT_FAULT, .ro), (F.SIO_INj_STAT_DISAGREE, .ro), (F.SIO_INj_STAT_RUN, .ro)]⟩,
  ⟨0xA0200, [(0x4, 16)], false,
    [(F.SIO_INj_CNT_RETURN_CNT, .ro), (F.SIO_INj_CNT_SWITCH_CNT, .ro)]⟩,
  ⟨0xA0300, [(0x4, 12)], false,
    [(F.SIO_OUTk_CFG_EN, .static), (F.SIO_OUTk_CFG_FAULT_STOP, .static), (F.SIO_OUTk_CFG_PULSE_LEN, .shadow)]⟩,
  ⟨0xA0380, [(0x4, 12)], false,
    [(F.SIO_OUTk_STAT_DEMAND, .ro), (F.SIO_OUTk_STAT_DRIVE, .ro), (F.SIO_OUTk_STAT_SENSE_HI, .ro), (F.SIO_OUTk_STAT_SENSE_LO, .ro), (F.SIO_OUTk_STAT_STATE, .ro), (F.SIO_OUTk_STAT_FAULT_KIND, .ro)]⟩,
  ⟨0xA0400, [(0x4, 12)], false,
    [(F.SIO_OUTk_CNT_PASSED, .ro), (F.SIO_OUTk_CNT_ABANDONED, .ro), (F.SIO_OUTk_CNT_FAULTS, .ro)]⟩]

/-- Registers of block TLNK. -/
def regsTLNK : List RegDesc := [
  ⟨0xB0000, [], false,
    [(F.TLNK_STATUS_RX_LAPSE, .w1c), (F.TLNK_STATUS_RX_CHECK, .w1c), (F.TLNK_STATUS_RX_SEQ, .w1c), (F.TLNK_STATUS_RX_TYPE, .w1c), (F.TLNK_STATUS_TLP_DRV, .w1c), (F.TLNK_STATUS_TLS_DRV, .w1c), (F.TLNK_STATUS_TL_FOREIGN, .w1c)]⟩,
  ⟨0xB0004, [], false,
    [(F.TLNK_IRQ_MASK_MASK, .live)]⟩,
  ⟨0xB0008, [], false,
    [(F.TLNK_CFG_EN, .static), (F.TLNK_CFG_RX_STOP, .static), (F.TLNK_CFG_TEXP, .shadow)]⟩,
  ⟨0xB000C, [], false,
    [(F.TLNK_CONN_ID_CONN_ID, .static)]⟩,
  ⟨0xB0010, [(0x4, 3)], false,
    [(F.TLNK_AXSELk_AXLE_ID, .shadow)]⟩,
  ⟨0xB0020, [], false,
    [(F.TLNK_PIN_PERMIT_RUN, .ro), (F.TLNK_PIN_STOP_N, .ro), (F.TLNK_PIN_STILL, .ro), (F.TLNK_PIN_DRIVE_EN, .ro), (F.TLNK_PIN_FSTOP, .ro), (F.TLNK_PIN_RSTOP, .ro), (F.TLNK_PIN_RBSTOP, .ro), (F.TLNK_PIN_STOP_N_DRV, .ro), (F.TLNK_PIN_STILL_DRV, .ro)]⟩,
  ⟨0xB0024, [], false,
    [(F.TLNK_SEQ_TX_SEQ, .ro), (F.TLNK_SEQ_RX_SEQ, .ro)]⟩,
  ⟨0xB0028, [], false,
    [(F.TLNK_RX_CNT_ACCEPTED, .ro), (F.TLNK_RX_CNT_REJECTED, .ro), (F.TLNK_RX_CNT_LAPSES, .ro)]⟩,
  ⟨0xB002C, [], false,
    [(F.TLNK_CMD_OP, .wo)]⟩,
  ⟨0xB0100, [(0x4, 16)], false,
    [(F.TLNK_RX_Wk_DATA, .ro)]⟩,
  ⟨0xB0140, [(0x4, 16)], false,
    [(F.TLNK_TX_Wk_DATA, .ro)]⟩]

/-- Registers of block CAN, part 1. -/
def regsCAN_0 : List RegDesc := [
  ⟨0xC0000, [], false,
    [(F.CANx_STATUS_RX_NEW, .w1c), (F.CANx_STATUS_TX_DONE, .w1c), (F.CANx_STATUS_OVERRUN, .w1c), (F.CANx_STATUS_EPASS, .w1c), (F.CANx_STATUS_BUSOFF, .w1c), (F.CANx_STATUS_NOACK_NEW, .w1c), (F.CANx_STATUS_IDCLASH_NEW, .w1c), (F.CANx_STATUS_LOST, .w1c), (F.CANx_STATUS_PXE, .w1c), (F.CANx_STATUS_BUF_CE, .w1c), (F.CANx_STATUS_TIMING_ERR, .w1c)]⟩,
  ⟨0xC0004, [], false,
    [(F.CANx_IRQ_MASK_MASK, .live)]⟩,
  ⟨0xC0008, [], false,
    [(F.CANx_CMD_OP, .wo)]⟩,
  ⟨0xC000C, [], false,
    [(F.CANx_CFG_EN, .static), (F.CANx_CFG_AUTO_REC, .static), (F.CANx_CFG_NOACK_SSHOT, .static), (F.CANx_CFG_LOST_BO, .static), (F.CANx_CFG_TERM, .static), (F.CANx_CFG_LOST_LIM, .static)]⟩,
  ⟨0xC0010, [], false,
    [(F.CANx_NBT_NBRP, .static), (F.CANx_NBT_NTSEG1, .static), (F.CANx_NBT_NTSEG2, .static), (F.CANx_NBT_NSJW, .static)]⟩,
  ⟨0xC0014, [], false,
    [(F.CANx_DBT_DBRP, .static), (F.CANx_DBT_DTSEG1, .static), (F.CANx_DBT_DTSEG2, .static), (F.CANx_DBT_DSJW, .static), (F.CANx_DBT_TDC_EN, .static)]⟩,
  ⟨0xC0018, [], false,
    [(F.CANx_TDC_TDCO, .static), (F.CANx_TDC_TDCV, .ro)]⟩,
  ⟨0xC001C, [], false,
    [(F.CANx_ERR_TEC, .ro), (F.CANx_ERR_REC, .ro), (F.CANx_ERR_RP, .ro), (F.CANx_ERR_ESTATE, .ro), (F.CANx_ERR_LEC, .ro), (F.CANx_ERR_LEC_DATA, .ro), (F.CANx_ERR_NOACK, .ro), (F.CANx_ERR_LOST, .ro), (F.CANx_ERR_LOST_CAUSE, .ro), (F.CANx_ERR_MONITOR, .ro)]⟩,
  ⟨0xC0020, [], false,
    [(F.CANx_IDCLASH_ID, .ro), (F.CANx_IDCLASH_IDE, .ro), (F.CANx_IDCLASH_MULTI, .ro), (F.CANx_IDCLASH_VALID, .w1c)]⟩,
  ⟨0xC0024, [], false,
    [(F.CANx_CNT_RECOV_SEQ, .ro), (F.CANx_CNT_BO_CNT, .ro), (F.CANx_CNT_OVR_CNT, .ro), (F.CANx_CNT_NOACK_RUN, .ro)]⟩,
  ⟨0xC0028, [], false,
    [(F.CANx_RXF0_FLAG, .w1c)]⟩,
  ⟨0xC002C, [], false,
    [(F.CANx_RXF1_FLAG, .w1c)]⟩,
  ⟨0xC0030, [], false,
    [(F.CANx_TXD0_FLAG, .w1c)]⟩,
  ⟨0xC0034, [], false,
    [(F.CANx_TXD1_FLAG, .w1c)]⟩,
  ⟨0xC0038, [], false,
    [(F.CANx_CLASH_INFO_BUF, .ro)]⟩,
  ⟨0xC0040, [(0x4, 32)], false,
    [(F.CANx_FLTf_ID_ID, .static), (F.CANx_FLTf_ID_IDE, .static)]⟩,
  ⟨0xC00C0, [(0x4, 32)], false,
    [(F.CANx_FLTf_MASK_MASK, .static)]⟩,
  ⟨0xC0140, [(0x4, 32)], false,
    [(F.CANx_FLTf_CFG_TARGET, .static), (F.CANx_FLTf_CFG_GROUP_END, .static), (F.CANx_FLTf_CFG_TYPE, .static), (F.CANx_FLTf_CFG_VALID, .static)]⟩,
  ⟨0xC0800, [(0x4, 64)], false,
    [(F.CANx_BUFCFGb_DIR, .static), (F.CANx_BUFCFGb_OWNER, .static), (F.CANx_BUFCFGb_OVWR, .static), (F.CANx_BUFCFGb_SSHOT, .static)]⟩,
  ⟨0xC0900, [(0x4, 64)], false,
    [(F.CANx_BUFCTRLb_TX_REQ, .live), (F.CANx_BUFCTRLb_ABORT, .wo), (F.CANx_BUFCTRLb_LOCK_REL, .wo), (F.CANx_BUFCTRLb_REENABLE, .wo), (F.CANx_BUFCTRLb_FULL, .ro), (F.CANx_BUFCTRLb_LOCKED, .ro), (F.CANx_BUFCTRLb_LOCK_OWNER, .ro), (F.CANx_BUFCTRLb_HELD, .ro), (F.CANx_BUFCTRLb_SSHOT_ACT, .ro), (F.CANx_BUFCTRLb_OVERRUN, .ro), (F.CANx_BUFCTRLb_TX_FAIL, .ro)]⟩,
  ⟨0xC1000, [(0x48, 64)], false,
    [(F.CANx_BUFb_W0_ID, .live), (F.CANx_BUFb_W0_IDE, .live), (F.CANx_BUFb_W0_RTR, .live), (F.CANx_BUFb_W0_FDF, .live)]⟩,
  ⟨0xC1004, [(0x48, 64)], false,
    [(F.CANx_BUFb_W1_DLC, .live), (F.CANx_BUFb_W1_BRS, .live), (F.CANx_BUFb_W1_ESI, .live), (F.CANx_BUFb_W1_FULL, .ro), (F.CANx_BUFb_W1_OVERRUN, .ro), (F.CANx_BUFb_W1_LOCKED, .ro), (F.CANx_BUFb_W1_FILTER, .ro)]⟩,
  ⟨0xC1008, [(0x48, 64), (0x4, 16)], false,
    [(F.CANx_BUFb_Wk_DATA, .live)]⟩,
  ⟨0xC2400, [(0x8, 64)], false,
    [(F.CANx_BUFb_TS_L_TS, .ro)]⟩]

/-- Registers of block CAN, part 2. -/
def regsCAN_1 : List RegDesc := [
  ⟨0xC2404, [(0x8, 64)], false,
    [(F.CANx_BUFb_TS_H_TS, .ro)]⟩]

/-- Registers of block CAN. -/
def regsCAN : List RegDesc := regsCAN_0 ++ regsCAN_1

/-- Registers of block CVU. -/
def regsCVU : List RegDesc := [
  ⟨0xD0000, [], false,
    [(F.CVU_STATUS_MISMATCH, .w1c), (F.CVU_STATUS_DONE, .w1c)]⟩,
  ⟨0xD0004, [], false,
    [(F.CVU_IRQ_MASK_MASK, .live)]⟩,
  ⟨0xD0008, [], false,
    [(F.CVU_ENG_BUSY, .ro)]⟩,
  ⟨0xD0100, [(0x40, 16)], false,
    [(F.CVU_CHn_CFG_WIDTH, .live), (F.CVU_CHn_CFG_REFIN, .live), (F.CVU_CHn_CFG_REFOUT, .live), (F.CVU_CHn_CFG_INV, .live), (F.CVU_CHn_CFG_GUARD, .live), (F.CVU_CHn_CFG_ALIVE_ADV, .live), (F.CVU_CHn_CFG_CMP_EN, .live), (F.CVU_CHn_CFG_OWNER, .static)]⟩,
  ⟨0xD0104, [(0x40, 16)], false,
    [(F.CVU_CHn_POLY_VALUE, .live)]⟩,
  ⟨0xD0108, [(0x40, 16)], false,
    [(F.CVU_CHn_INIT_VALUE, .live)]⟩,
  ⟨0xD010C, [(0x40, 16)], false,
    [(F.CVU_CHn_FOLD_VALUE, .live)]⟩,
  ⟨0xD0114, [(0x40, 16)], false,
    [(F.CVU_CHn_EXPECT_VALUE, .live)]⟩,
  ⟨0xD0110, [(0x40, 16)], false,
    [(F.CVU_CHn_ALIVE_ALIVE_CNT, .live)]⟩,
  ⟨0xD0118, [(0x40, 16)], false,
    [(F.CVU_CHn_CTRL_OP, .wo)]⟩,
  ⟨0xD011C, [(0x40, 16)], false,
    [(F.CVU_CHn_STAT_ACTIVE, .ro), (F.CVU_CHn_STAT_BUSY, .ro), (F.CVU_CHn_STAT_MATCH, .ro), (F.CVU_CHn_STAT_MISMATCH, .ro), (F.CVU_CHn_STAT_CLAIM, .ro), (F.CVU_CHn_STAT_ERR, .ro), (F.CVU_CHn_STAT_BYTES, .ro)]⟩,
  ⟨0xD0120, [(0x40, 16)], false,
    [(F.CVU_CHn_CTX_CTX, .live)]⟩,
  ⟨0xD0124, [(0x40, 16)], false,
    [(F.CVU_CHn_RESULT_RESULT, .ro)]⟩,
  ⟨0xD0128, [(0x40, 16)], false,
    [(F.CVU_CHn_DATA32_DATA, .wo)]⟩,
  ⟨0xD012C, [(0x40, 16)], false,
    [(F.CVU_CHn_DATA16_DATA, .wo)]⟩,
  ⟨0xD0130, [(0x40, 16)], false,
    [(F.CVU_CHn_DATA8_DATA, .wo)]⟩,
  ⟨0xD0134, [(0x40, 16), (0x4, 3)], false,
    []⟩]

/-- Registers of block STE, part 1. -/
def regsSTE_0 : List RegDesc := [
  ⟨0xE0000, [], false,
    [(F.STE_STATUS_LAPSE_NEW, .w1c), (F.STE_STATUS_REJ_NEW, .w1c), (F.STE_STATUS_ANN_NEW, .w1c), (F.STE_STATUS_ANN_OVF, .w1c), (F.STE_STATUS_ADMIT_DONE, .w1c), (F.STE_STATUS_RELEASED, .w1c), (F.STE_STATUS_STALE_TX, .w1c), (F.STE_STATUS_RX_OVF, .w1c)]⟩,
  ⟨0xE0004, [], false,
    [(F.STE_IRQ_MASK_MASK, .live)]⟩,
  ⟨0xE0008, [], false,
    [(F.STE_CFG_ANN_EN, .static), (F.STE_CFG_ANN_DUP, .static), (F.STE_CFG_DYN_HOLD, .static)]⟩,
  ⟨0xE000C, [], false,
    [(F.STE_ANN_CID_CID, .static)]⟩,
  ⟨0xE0010, [], false,
    [(F.STE_ANN_RXID_ID, .static), (F.STE_ANN_RXID_IDE, .static)]⟩,
  ⟨0xE0014, [], false,
    [(F.STE_ANN_TXID_ID, .static), (F.STE_ANN_TXID_IDE, .static)]⟩,
  ⟨0xE0020, [(0x4, 4)], false,
    [(F.STE_ANN_PENDk_WL, .ro), (F.STE_ANN_PENDk_VALID, .ro), (F.STE_ANN_PENDk_AGE, .ro)]⟩,
  ⟨0xE0030, [(0x4, 4)], false,
    [(F.STE_ANN_PIDk_PID, .ro)]⟩,
  ⟨0xE0040, [], false,
    [(F.STE_ADMIT_WL, .wo), (F.STE_ADMIT_OP, .wo), (F.STE_ADMIT_CONN, .wo)]⟩,
  ⟨0xE0044, [], true,
    [(F.STE_ADMIT_RES_RESULT, .ro), (F.STE_ADMIT_RES_REASON, .ro), (F.STE_ADMIT_RES_CONN, .ro)]⟩,
  ⟨0xE0048, [], false,
    [(F.STE_AXSEL0_AXLE_ID, .shadow)]⟩,
  ⟨0xE004C, [], false,
    [(F.STE_AXSEL1_AXLE_ID, .shadow)]⟩,
  ⟨0xE0050, [], false,
    [(F.STE_RXBIT0_RX, .ro)]⟩,
  ⟨0xE0054, [], false,
    [(F.STE_RXBIT1_RX, .ro)]⟩,
  ⟨0xE0058, [], false,
    [(F.STE_VALID0_VALID, .ro)]⟩,
  ⟨0xE005C, [], false,
    [(F.STE_VALID1_VALID, .ro)]⟩,
  ⟨0xE0100, [(0x20, 64)], false,
    [(F.STE_CONNc_CFG_CLASS, .static), (F.STE_CONNc_CFG_FMT, .static), (F.STE_CONNc_CFG_DUP, .static), (F.STE_CONNc_CFG_WIN, .static), (F.STE_CONNc_CFG_TEXP, .static)]⟩,
  ⟨0xE0104, [(0x20, 64)], false,
    [(F.STE_CONNc_CID_CID, .static)]⟩,
  ⟨0xE0108, [(0x20, 64)], false,
    [(F.STE_CONNc_TXID_ID, .static), (F.STE_CONNc_TXID_IDE, .static)]⟩,
  ⟨0xE010C, [(0x20, 64)], false,
    [(F.STE_CONNc_RXID_ID, .static), (F.STE_CONNc_RXID_IDE, .static)]⟩,
  ⟨0xE0110, [(0x20, 64)], false,
    [(F.STE_CONNc_MAP_RX_FIRST, .static), (F.STE_CONNc_MAP_RX_COUNT, .static), (F.STE_CONNc_MAP_TX_PERIOD, .static)]⟩,
  ⟨0xE0114, [(0x20, 64)], false,
    [(F.STE_CONNc_TXMASK_L_MASK, .static)]⟩,
  ⟨0xE0118, [(0x20, 64)], false,
    [(F.STE_CONNc_TXMASK_H_MASK, .static)]⟩,
  ⟨0xE011C, [(0x20, 64)], false,
    [(F.STE_CONNc_STAT_STATE, .ro), (F.STE_CONNc_STAT_SAFE_RX, .ro), (F.STE_CONNc_STAT_WL, .ro), (F.STE_CONNc_STAT_BOUND, .ro), (F.STE_CONNc_STAT_AGE, .ro)]⟩]

/-- Registers of block STE, part 2. -/
def regsSTE_1 : List RegDesc := [
  ⟨0xE0900, [(0x8, 64)], false,
    [(F.STE_CONNc_SEQ_TX_SEQ, .ro), (F.STE_CONNc_SEQ_RX_SEQ, .ro)]⟩,
  ⟨0xE0904, [(0x8, 64)], false,
    [(F.STE_CONNc_ERR_CHECK, .ro), (F.STE_CONNc_ERR_SEQ, .ro), (F.STE_CONNc_ERR_OTHER, .ro), (F.STE_CONNc_ERR_STALE, .ro)]⟩,
  ⟨0xE0C00, [(0x20, 32)], false,
    [(F.STE_WLw_PID_PID, .static)]⟩,
  ⟨0xE0C04, [(0x20, 32)], false,
    [(F.STE_WLw_CID_CID, .static)]⟩,
  ⟨0xE0C08, [(0x20, 32)], false,
    [(F.STE_WLw_TXID_ID, .static), (F.STE_WLw_TXID_IDE, .static)]⟩,
  ⟨0xE0C0C, [(0x20, 32)], false,
    [(F.STE_WLw_RXID_ID, .static), (F.STE_WLw_RXID_IDE, .static)]⟩,
  ⟨0xE0C10, [(0x20, 32)], false,
    [(F.STE_WLw_CFG_DUP, .static), (F.STE_WLw_CFG_WIN, .static), (F.STE_WLw_CFG_TEXP, .static), (F.STE_WLw_CFG_VALID, .static)]⟩,
  ⟨0xE0C14, [(0x20, 32)], false,
    [(F.STE_WLw_MAP_RX_FIRST, .static), (F.STE_WLw_MAP_RX_COUNT, .static), (F.STE_WLw_MAP_TX_PERIOD, .static)]⟩,
  ⟨0xE0C18, [(0x20, 32)], false,
    [(F.STE_WLw_TXMASK_L_MASK, .static)]⟩,
  ⟨0xE0C1C, [(0x20, 32)], false,
    [(F.STE_WLw_TXMASK_H_MASK, .static)]⟩]

/-- Registers of block STE. -/
def regsSTE : List RegDesc := regsSTE_0 ++ regsSTE_1

/-- Registers of block URED. -/
def regsURED : List RegDesc := [
  ⟨0xF0000, [], false,
    [(F.URED_STATUS_TAKEOVER, .w1c), (F.URED_STATUS_YIELDED, .w1c), (F.URED_STATUS_DIVERGE, .w1c), (F.URED_STATUS_RESYNC_START, .w1c), (F.URED_STATUS_RESYNC_DONE, .w1c), (F.URED_STATUS_HB_LOST, .w1c), (F.URED_STATUS_PARTNER_LOST, .w1c), (F.URED_STATUS_TO_BLOCKED, .w1c), (F.URED_STATUS_TB_ABORT, .w1c), (F.URED_STATUS_FIRST_ERR, .w1c), (F.URED_STATUS_LINK_DOWN, .ro), (F.URED_STATUS_SYNC_LOST, .ro), (F.URED_STATUS_INTLK_ERR, .ro), (F.URED_STATUS_PREF_CLASH, .ro), (F.URED_STATUS_CFG_MISMATCH, .ro), (F.URED_STATUS_FORCE_STOP, .ro)]⟩,
  ⟨0xF0004, [], false,
    [(F.URED_IRQ_MASK_MASK, .live)]⟩,
  ⟨0xF0008, [], false,
    [(F.URED_CFG_PAIR_EN, .static), (F.URED_CFG_TB_PARK, .static)]⟩,
  ⟨0xF000C, [], false,
    [(F.URED_CMD_OP, .wo)]⟩,
  ⟨0xF0010, [], false,
    [(F.URED_STATE_ROLE, .ro), (F.URED_STATE_READY, .ro), (F.URED_STATE_NR_REASON, .ro), (F.URED_STATE_PREF, .ro), (F.URED_STATE_INTLK_IN, .ro), (F.URED_STATE_INTLK_OUT, .ro), (F.URED_STATE_CLAIM, .ro), (F.URED_STATE_PARTNER_ROLE, .ro), (F.URED_STATE_PARTNER_STATE, .ro), (F.URED_STATE_PARTNER_READY, .ro), (F.URED_STATE_LINK_UP, .ro)]⟩,
  ⟨0xF0014, [], false,
    [(F.URED_RUN_MISMATCH_RUN, .ro), (F.URED_RUN_VERDICT_ST, .ro), (F.URED_RUN_OWN_FAULT, .ro), (F.URED_RUN_PART_FAULT, .ro), (F.URED_RUN_EQ_RUN, .ro)]⟩,
  ⟨0xF0018, [], false,
    [(F.URED_SYNC_SLICES, .ro), (F.URED_SYNC_BACKLOG, .ro), (F.URED_SYNC_OFFSET, .ro), (F.URED_SYNC_IMG_MISS, .ro)]⟩,
  ⟨0xF001C, [], false,
    [(F.URED_CRC_LOCAL_CRC, .ro)]⟩,
  ⟨0xF0020, [], false,
    [(F.URED_CRC_PARTNER_CRC, .ro)]⟩,
  ⟨0xF0024, [], false,
    [(F.URED_MM_ITEM, .ro), (F.URED_MM_INDEX, .ro), (F.URED_MM_CYCLE, .ro)]⟩,
  ⟨0xF0028, [], false,
    [(F.URED_CNT_TAKEOVERS, .ro), (F.URED_CNT_HANDOVERS, .ro), (F.URED_CNT_DIVERGENCES, .ro), (F.URED_CNT_RESYNCS, .ro)]⟩,
  ⟨0xF002C, [], false,
    [(F.URED_LINK_FRAMES, .ro), (F.URED_LINK_CRC_ERR, .ro), (F.URED_LINK_RESENT, .ro)]⟩,
  ⟨0xF0030, [], false,
    [(F.URED_FIRST_SRC, .ro), (F.URED_FIRST_XBAR, .ro), (F.URED_FIRST_SOUT, .ro), (F.URED_FIRST_TLP_DRV, .ro), (F.URED_FIRST_TLS_DRV, .ro), (F.URED_FIRST_TONE, .ro), (F.URED_FIRST_INTLK, .ro)]⟩,
  ⟨0xF0034, [], false,
    [(F.URED_TO_TS_L_TS, .ro)]⟩,
  ⟨0xF0038, [], false,
    [(F.URED_TO_TS_H_TS, .ro)]⟩]

/-- Registers of block DEV. -/
def regsDEV : List RegDesc := [
  ⟨0x0, [], false,
    [(F.DEV_ID_PART, .ro), (F.DEV_ID_VENDOR, .ro)]⟩,
  ⟨0x4, [], false,
    [(F.DEV_REV_REV, .ro)]⟩,
  ⟨0x8, [], false,
    [(F.DEV_STATE_STATE, .ro), (F.DEV_STATE_ROLE, .ro), (F.DEV_STATE_SAFE_CAUSE, .ro), (F.DEV_STATE_BOOT_WAIT, .ro)]⟩,
  ⟨0xC, [], false,
    [(F.DEV_CMD_OP, .wo), (F.DEV_CMD_KEY, .wo)]⟩,
  ⟨0x10, [], false,
    [(F.DEV_CMD_STAT_ENTER_A, .ro), (F.DEV_CMD_STAT_ENTER_B, .ro), (F.DEV_CMD_STAT_RESET_A, .ro), (F.DEV_CMD_STAT_RESET_B, .ro), (F.DEV_CMD_STAT_RESET_AGE, .ro)]⟩,
  ⟨0x14, [], false,
    [(F.DEV_STATUS_STATE_CHG, .w1c), (F.DEV_STATUS_ROLE_CHG, .w1c), (F.DEV_STATUS_CMD_REJ, .w1c), (F.DEV_STATUS_CMD_EXPIRED, .w1c)]⟩,
  ⟨0x18, [], false,
    [(F.DEV_IRQ_MASK_MASK, .live)]⟩]

/-- Registers of block HPS. -/
def regsHPS : List RegDesc := [
  ⟨0x110000, [], true,
    [(F.HPS_ID_PORT_ID, .ro)]⟩,
  ⟨0x110004, [], true,
    [(F.HPS_STATUS_ACC_ERR, .w1c), (F.HPS_STATUS_CRC_ERR, .w1c), (F.HPS_STATUS_LEN_ERR, .w1c)]⟩,
  ⟨0x110008, [], true,
    [(F.HPS_ERR_ADDR, .ro), (F.HPS_ERR_KIND, .ro), (F.HPS_ERR_WRITE, .ro), (F.HPS_ERR_VALID, .w1c)]⟩,
  ⟨0x11000C, [], true,
    [(F.HPS_CNT_ACC_CNT, .ro), (F.HPS_CNT_CRC_CNT, .ro), (F.HPS_CNT_REPEAT_CNT, .ro)]⟩,
  ⟨0x110010, [], false,
    [(F.HPS_IRQ_PEND_PEND, .ro)]⟩,
  ⟨0x110014, [], false,
    [(F.HPS_IRQ_ROUTEA_ROUTE, .live)]⟩,
  ⟨0x110018, [], false,
    [(F.HPS_IRQ_ROUTEB_ROUTE, .live)]⟩,
  ⟨0x11001C, [], false,
    [(F.HPS_CMD_OP, .wo)]⟩,
  ⟨0x110020, [], false,
    [(F.HPS_SEM_A_HELD, .ro)]⟩,
  ⟨0x110024, [], false,
    [(F.HPS_SEM_B_HELD, .ro)]⟩,
  ⟨0x110100, [(0x4, 32)], false,
    [(F.HPS_SEMk_OWNER, .live)]⟩]

/-- Registers of block JRN. -/
def regsJRN : List RegDesc := [
  ⟨0x140000, [], false,
    [(F.JRN_STATUS_GQ_LEVEL, .w1c), (F.JRN_STATUS_GQ_GAP, .w1c), (F.JRN_STATUS_GAP_KEPT, .w1c), (F.JRN_STATUS_JRN_NEW, .w1c)]⟩,
  ⟨0x140004, [], false,
    [(F.JRN_IRQ_MASK_MASK, .live)]⟩,
  ⟨0x140008, [], false,
    [(F.JRN_GQ_STAT_WR, .ro), (F.JRN_GQ_STAT_RD, .ro), (F.JRN_GQ_STAT_GAP_OPEN, .ro)]⟩,
  ⟨0x14000C, [], false,
    [(F.JRN_GQ_FREE_N, .wo)]⟩,
  ⟨0x140010, [], false,
    [(F.JRN_GQ_LEVEL_COUNT, .ro), (F.JRN_GQ_LEVEL_GQ_THRESH, .live)]⟩,
  ⟨0x140014, [], false,
    [(F.JRN_DROP_CNT_DROPS, .ro)]⟩,
  ⟨0x140018, [], false,
    [(F.JRN_CFG_GQ_OWNER, .static)]⟩,
  ⟨0x14001C, [], false,
    [(F.JRN_FILTER_CLASSES, .live), (F.JRN_FILTER_GQ_KINDS, .live)]⟩,
  ⟨0x140020, [], false,
    [(F.JRN_HEAD_HEAD, .ro)]⟩]

/-- Registers of block BCW. -/
def regsBCW : List RegDesc := [
  ⟨0x1E0000, [(0x4, 8)], false,
    [(F.BCW_CNTn_COUNT, .ro)]⟩,
  ⟨0x1E0020, [], false,
    [(F.BCW_DIR_DIR, .ro), (F.BCW_DIR_DIR.offB 8, .ro), (F.BCW_DIR_DIR.offB 16, .ro), (F.BCW_DIR_DIR.offB 24, .ro)]⟩,
  ⟨0x1E0024, [], false,
    [(F.BCW_DIR_DIR.offB 32, .ro), (F.BCW_DIR_DIR.offB 40, .ro), (F.BCW_DIR_DIR.offB 48, .ro), (F.BCW_DIR_DIR.offB 56, .ro)]⟩,
  ⟨0x1E0028, [], false,
    [(F.BCW_STAT_USABLE, .ro), (F.BCW_STAT_MAPPED, .ro), (F.BCW_STAT_FROZEN, .ro), (F.BCW_STAT_CLR_DONE, .ro), (F.BCW_STAT_CLR_TO, .ro)]⟩,
  ⟨0x1E002C, [], false,
    [(F.BCW_CLR_KEY, .wo)]⟩,
  ⟨0x1E0030, [], false,
    [(F.BCW_CFG_EN, .static)]⟩]

/-- Registers of block CRU. -/
def regsCRU : List RegDesc := [
  ⟨0x130000, [], false,
    [(F.CRU_STATUS_MONA_FAIL, .w1c), (F.CRU_STATUS_MONB_FAIL, .w1c), (F.CRU_STATUS_CAL_MISS, .w1c), (F.CRU_STATUS_SWEEP_LATE, .w1c), (F.CRU_STATUS_VIN_LOW, .w1c)]⟩,
  ⟨0x130004, [], false,
    [(F.CRU_RST_CAUSE_CAUSE, .ro), (F.CRU_RST_CAUSE_RESETS, .ro)]⟩,
  ⟨0x130008, [], false,
    [(F.CRU_CLK_PLL_LOCK, .ro), (F.CRU_CLK_MONA_ST, .ro), (F.CRU_CLK_MONB_ST, .ro), (F.CRU_CLK_CLK_SQ, .ro)]⟩,
  ⟨0x13000C, [], false,
    [(F.CRU_MONA_COUNT, .ro), (F.CRU_MONA_WINDOWS, .ro)]⟩,
  ⟨0x130010, [], false,
    [(F.CRU_MONB_COUNT, .ro), (F.CRU_MONB_WINDOWS, .ro)]⟩,
  ⟨0x130014, [], false,
    [(F.CRU_TIME_L_TIME, .ro)]⟩,
  ⟨0x130018, [], false,
    [(F.CRU_TIME_H_TIME, .ro)]⟩,
  ⟨0x13001C, [], false,
    [(F.CRU_EPOCH_EPOCH, .ro)]⟩,
  ⟨0x130020, [], false,
    [(F.CRU_CYCLE_CYCLE, .ro)]⟩,
  ⟨0x130024, [], false,
    [(F.CRU_START_PHASE, .ro), (F.CRU_START_SKIPPED_CAL, .ro), (F.CRU_START_PAIRS_DONE, .ro), (F.CRU_START_ROTATIONS, .ro)]⟩,
  ⟨0x130028, [], false,
    [(F.CRU_OPER_TS_L_TS, .ro)]⟩,
  ⟨0x13002C, [], false,
    [(F.CRU_OPER_TS_H_TS, .ro)]⟩,
  ⟨0x130030, [], false,
    [(F.CRU_VIN_VIN, .ro), (F.CRU_VIN_VIN_MIN, .ro)]⟩]

/-- The register list of the block whose base is `b` (R389, address map), CAN1 sharing CAN0's list. -/
def regsOfBlock (b : Nat) : List RegDesc :=
  match b with
  | 0x1 => regsEXC
  | 0x2 => regsMEAS
  | 0x3 => regsSUP
  | 0x4 => regsWEV
  | 0x5 => regsLEDG
  | 0x6 => regsSECT
  | 0x7 => regsSPOS
  | 0x8 => regsDENC
  | 0x9 => regsFAB
  | 0x12 => regsCFG
  | 0x10 => regsSPU
  | 0xA => regsSIO
  | 0xB => regsTLNK
  | 0xC => regsCAN
  | 0xD => regsCVU
  | 0xE => regsSTE
  | 0xF => regsURED
  | 0x0 => regsDEV
  | 0x11 => regsHPS
  | 0x14 => regsJRN
  | 0x1E => regsBCW
  | 0x13 => regsCRU
  | _ => []

/-- The fields whose Reset column is a value other than 0 (the notation of 00_scope.md: BS and FL fields read 0 until
loaded), with the number of indices and the value. Fields that are another view of state held elsewhere (SECT_OCC)
are left to that state. -/
def resetTable : List (Fld × Nat × Nat) := [
  (F.WEV_GQ_FILTER_KINDS, 1, 0x1FC),
  (F.LEDG_SPn_REF_ABR_REF, 24, 0x1000),
  (F.LEDG_SPn_REF_DIAM_REF, 24, 0x1000),
  (F.LEDG_SECn_COVER_LOST, 48, 0x1),
  (F.SECT_n_STATE_STATE, 48, 0x2),
  (F.SECT_n_STATE_CAUSE_CP, 48, 0x3F),
  (F.SECT_VCPk_STAT_STATE, 8, 0x7),
  (F.SPOS_SPn_SST_SPD_ST, 24, 0x6),
  (F.FAB_WATCH_SELk_NET_LO, 32, 0xFFFE),
  (F.FAB_WATCH_SELk_NET_HI, 32, 0xFFFE),
  (F.CFG_STATUS_SOURCE, 1, 0x3),
  (F.SPU_MM_INFO_CORE, 1, 0x3),
  (F.SPU_FW_ROM_REV, 1, 0x100),
  (F.CANx_BUFCTRLb_LOCK_OWNER, 64, 0x3),
  (F.CANx_BUFCTRLb_LOCK_OWNER.can 1, 64, 0x3),
  (F.CVU_CHn_CFG_WIDTH, 16, 0x20),
  (F.CVU_CHn_STAT_CLAIM, 16, 0x3),
  (F.DEV_ID_PART, 1, 0x48),
  (F.DEV_ID_VENDOR, 1, 0x4558),
  (F.DEV_REV_REV, 1, 0x100),
  (F.DEV_STATE_STATE, 1, 0x1),
  (F.JRN_GQ_LEVEL_GQ_THRESH, 1, 0x400),
  (F.JRN_FILTER_CLASSES, 1, 0xF),
  (F.JRN_FILTER_GQ_KINDS, 1, 0xF),
  (F.CRU_RST_CAUSE_CAUSE, 1, 0x1),
  (F.CRU_VIN_VIN_MIN, 1, 0xFFFF),
  (F.HPS_ID_PORT_ID.port 0, 1, 1),
  (F.HPS_ID_PORT_ID.port 1, 1, 2)]

end Sys2Proof.Machine
end

