-- ==== Sys2Proof/Machine/Bits.lean ====
section
/-!
DEFINITION. Bit-field, sign and list helpers that the meanings share. Registers are kept as natural numbers below
two to the width of the field (Regs.lean), so signed quantities are converted here and nowhere else.
-/

namespace Sys2Proof.Machine

/-- Bit `i` of a number. -/
def bitAt (v i : Nat) : Bool := v.testBit i

/-- One or zero. -/
def b2n (b : Bool) : Nat := if b then 1 else 0

/-- The number with bit `i` set to `b`. -/
def putBit (v i : Nat) (b : Bool) : Nat :=
  if v.testBit i then (if b then v else v - 2 ^ i) else (if b then v + 2 ^ i else v)

/-- The `w` bits of `v` from bit `lo` up. -/
def bitsOf (v lo w : Nat) : Nat := v / 2 ^ lo % 2 ^ w

/-- The mask of the indices below `n` that satisfy a test. -/
def maskOf (n : Nat) (p : Nat → Bool) : Nat :=
  (List.range n).foldl (fun acc i => if p i then acc + 2 ^ i else acc) 0

/-- The indices below `n` whose bit is set, in ascending order. -/
def bitsSet (v n : Nat) : List Nat := (List.range n).filter (fun i => v.testBit i)

/-- A two's complement field of `w` bits read as an integer. -/
def toSigned (w v : Nat) : Int := if v % 2 ^ w < 2 ^ (w - 1) then (v % 2 ^ w : Nat) else (v % 2 ^ w : Nat) - (2 ^ w : Nat)

/-- An integer written as a two's complement field of `w` bits. -/
def ofSigned (w : Nat) (x : Int) : Nat := (x % (2 ^ w : Nat)).toNat

/-- The integer clamped to the signed range of `w` bits (saturation). -/
def satSigned (w : Nat) (x : Int) : Int :=
  if x > (2 ^ (w - 1) : Nat) - 1 then (2 ^ (w - 1) : Nat) - 1
  else if x < -((2 ^ (w - 1) : Nat) : Int) then -((2 ^ (w - 1) : Nat) : Int) else x

/-- A counter step that saturates at the greatest value of `w` bits. -/
def satInc (w v : Nat) : Nat := if v + 1 < 2 ^ w then v + 1 else 2 ^ w - 1

/-- Sum that saturates at the greatest value of `w` bits. -/
def satAdd (w v d : Nat) : Nat := if v + d < 2 ^ w then v + d else 2 ^ w - 1

/-- The greatest integer whose square does not exceed `n`, found bit by bit from bit `k` down. -/
def isqrtFrom : Nat → Nat → Nat → Nat
  | 0, _, acc => acc
  | k + 1, n, acc => isqrtFrom k n (if (acc + 2 ^ k) * (acc + 2 ^ k) ≤ n then acc + 2 ^ k else acc)

/-- The integer square root, exact for every `n` below two to the 160. -/
def isqrt (n : Nat) : Nat := isqrtFrom 80 n 0

/-- The element at an index, or the default where the list is shorter. -/
def nth {α : Type} [Inhabited α] (l : List α) (i : Nat) : α := l.getD i default

/-- The element at an index replaced by its image. -/
def upd {α : Type} (l : List α) (i : Nat) (f : α → α) : List α := l.modify i f

/-- The elements of a list with their indices, from `k` up. -/
def indexed {α : Type} : Nat → List α → List (Nat × α)
  | _, [] => []
  | k, x :: xs => (k, x) :: indexed (k + 1) xs

/-- The bytes of a number, least significant first (R7). -/
def leBytes : Nat → Nat → List Byte
  | 0, _ => []
  | n + 1, v => BitVec.ofNat 8 v :: leBytes n (v / 256)

/-- The number spelt by bytes, least significant first. -/
def ofLeBytes : List Byte → Nat
  | [] => 0
  | b :: bs => b.toNat + 256 * ofLeBytes bs

/-- The number spelt by bytes, most significant first. -/
def ofBeBytes (bs : List Byte) : Nat := ofLeBytes bs.reverse

/-- The bytes of a number, most significant first. -/
def beBytes (n v : Nat) : List Byte := (leBytes n v).reverse

/-- A bit string, most significant bit first. -/
def bitsMsb : Nat → Nat → List Bool
  | 0, _ => []
  | n + 1, v => v.testBit n :: bitsMsb n v

/-- A bit string, least significant bit first. -/
def bitsLsb (n v : Nat) : List Bool := (bitsMsb n v).reverse

/-- One bit of a cyclic redundancy check of width `w`, most significant bit first: the register is shifted left and the
polynomial (without its leading term) is added when the bit shifted out differs from the incoming bit. -/
def crcBit (w poly reg : Nat) (b : Bool) : Nat :=
  let top := reg.testBit (w - 1)
  let sh := reg * 2 % 2 ^ w
  if top != b then sh ^^^ poly else sh

/-- A cyclic redundancy check over bits. -/
def crcBits (w poly init : Nat) (bs : List Bool) : Nat := bs.foldl (crcBit w poly) init

/-- A cyclic redundancy check over bytes, each most significant bit first. -/
def crcMsb (w poly init : Nat) (bs : List Byte) : Nat :=
  crcBits w poly init (bs.flatMap (fun b => bitsMsb 8 b.toNat))

/-- The `w` low bits of a number in reverse order. -/
def reflect (w v : Nat) : Nat := maskOf w (fun i => v.testBit (w - 1 - i))

/-- Distance of two time stamps of `w` bits that wrap, taken from the second to the first. -/
def wrapDiff (w a b : Nat) : Nat := (a + 2 ^ w - b % 2 ^ w) % 2 ^ w

end Sys2Proof.Machine
end

