-- ==== Sys2Proof/Machine/Store.lean ====
section
/-!
DEFINITION. A sparse store: a list of key and value pairs in one canonical form (keys strictly rising, no value equal
to what an unlisted key reads as), used for the register fields and for the addressed memories of the block.
-/

namespace Sys2Proof.Machine

/-- The value at a key; an unlisted key reads as `d`. -/
def storeGet {α : Type} (d : α) : List (Nat × α) → Nat → α
  | [], _ => d
  | (k', v) :: rest, k => if k = k' then v else storeGet d rest k

/-- The store without a key. -/
def storeErase {α : Type} : List (Nat × α) → Nat → List (Nat × α)
  | [], _ => []
  | (k', v) :: rest, k => if k = k' then storeErase rest k else (k', v) :: storeErase rest k

/-- The store with a key set to a value that is not the default. -/
def storeInsert {α : Type} : List (Nat × α) → Nat → α → List (Nat × α)
  | [], k, v => [(k, v)]
  | (k', v') :: rest, k, v =>
    if k = k' then (k, v) :: rest
    else if k < k' then (k, v) :: (k', v') :: rest
    else (k', v') :: storeInsert rest k v

/-- The store with a key set; setting the default removes the entry. -/
def storePut {α : Type} [DecidableEq α] (d : α) (l : List (Nat × α)) (k : Nat) (v : α) : List (Nat × α) :=
  if v = d then storeErase l k else storeInsert l k v

/-- Every key of the list lies above a bound and the keys rise, and no value is the default. -/
def storeWfFrom {α : Type} [DecidableEq α] (d : α) : Nat → List (Nat × α) → Bool
  | _, [] => true
  | b, (k, v) :: rest => decide (b ≤ k) && decide (v ≠ d) && storeWfFrom d (k + 1) rest

/-- The canonical form. -/
def storeWf {α : Type} [DecidableEq α] (d : α) (l : List (Nat × α)) : Bool := storeWfFrom d 0 l

/-- Bytes written at consecutive keys. -/
def storePutBytes (l : List (Nat × Byte)) (a : Nat) : List Byte → List (Nat × Byte)
  | [] => l
  | b :: bs => storePutBytes (storePut 0 l a b) (a + 1) bs

/-- `n` bytes read from consecutive keys. -/
def storeGetBytes (l : List (Nat × Byte)) (a : Nat) : Nat → List Byte
  | 0 => []
  | n + 1 => storeGet 0 l a :: storeGetBytes l (a + 1) n

end Sys2Proof.Machine
end

