-- ==== Sys2Proof/Machine/State.lean ====
section
/-!
DEFINITION. The machine's state: plain data. Every register field the spec's tables give lives in `regs`, a sparse store
keyed by the field's bit address (Regs.lean); the addressed memories live in `mem`; what the spec's rules keep beside
the registers (windows, queues, pending commands, images) has a field of its own below, by chapter.
-/

namespace Sys2Proof.Machine

/-- Why a command stops the machine. The spec gives every command of the table an effect on every state, so no meaning
raises a fault. -/
inductive Fault where
  deriving DecidableEq, Repr

/-- Why a command has no meaning. -/
inductive Refusal where
  /-- A command of the table that the model gives no meaning, raised by an arm of `exec` only; safe: the machine stops. -/
  | notModelled (mnemonic : String)
  deriving DecidableEq, Repr

/-- The nine places of a flange that a sensor-point sequencer knows, with IDLE (R125, SEQ field). -/
inductive Seq where
  | idle | aIn | bIn | ab | bOut | aOut | holdP | holdN | aLeft | bLeft
  deriving DecidableEq, Repr, Inhabited

/-- The system on which the flange entered (ENTRY field). -/
inductive Entry where
  | none | a | b | unknown
  deriving DecidableEq, Repr, Inhabited

/-- A completed damping sample waiting for the point's other channel (R124): index, tag bits (R76), linearised value,
damping, and the demodulated I and Q. -/
structure Sample where
  k    : Nat
  tag  : Nat
  l    : Int
  di   : Int
  i    : Int
  q    : Int
  deriving DecidableEq, Repr, Inhabited

/-- The running sums of one calibration frame: samples without a tag, sums of I and Q and of their squares (R78). -/
structure CalFrame where
  n  : Nat
  si : Int
  sq : Int
  sii : Int
  sqq : Int
  deriving DecidableEq, Repr, Inhabited

/-- State of one sensor channel that no register holds. -/
structure Chan where
  /-- On under R116: from the crossing to ON_THR until the crossing below OFF_THR. -/
  on : Bool
  /-- The channel's mean has met the parking condition (R131). -/
  met : Bool
  /-- The last sample of the window in which it met the condition (R135). -/
  metAt : Nat
  /-- A PARKED record has been produced for the condition now met. -/
  parkRec : Bool
  /-- Supervision has found the channel unusable (R111). -/
  faulty : Bool
  /-- Samples whose tag has been fixed INVALID or CLAMP, newest first, as far back as eight samples (R68, R95); for each of them the
  causes of its tag (R112): 0 a clamp, 1 an overrange, 2 more than its first tick for a monitor episode; the samples in which the
  modulator leaves its stable range (R76), as far as the device has been told; and the index of the next sample whose tag is to be
  fixed. -/
  bad : List Nat
  causes : List (Nat × Nat)
  ovr : List Nat
  tagK : Nat
  /-- Index of the next sample this channel completes. -/
  kNext : Nat
  /-- Last untagged sample: middle tick and value; none after a change of scale (R120, R428). -/
  last : Option (Nat × Int)
  /-- Tag and value of the last completed sample (R30, R113). -/
  lastTag : Nat
  lastL : Int
  /-- Completed samples waiting for the other channel, oldest first. -/
  queue : List Sample
  /-- Tick of the last on-crossing (R116). -/
  onTick : Nat
  /-- The point left BLIND under the exception of R30 and this channel has had no valid sample since. -/
  firstDue : Bool
  /-- Highest L since the last on-crossing (R134 PEAK). -/
  peak : Int
  /-- A tagged sample fell in the present passage (R6, R93). -/
  tagSeen : Bool
  /-- Untagged values of the current passage, newest first (the waveform window of R145), with those before its first onset that
  `pre` held; `pre` holds the untagged values since the channel was last below a quarter of its on-threshold, and so of any
  passage's peak, newest first. -/
  wave : List (Nat × Int)
  pre : List (Nat × Int)
  /-- Last untagged values for the moving mean of R131, newest first, at most 240. -/
  mean : List Int
  /-- Reference mean of the parking window as sum and count, none before the first mean. -/
  parkRef : Option (Int × Nat)
  /-- Untagged samples since the parking window started. -/
  parkCnt : Nat
  /-- Intervals flagged by the monitor that have ended: first tick, last tick, reason; newest first. -/
  inval : List (Nat × Nat × Nat)
  /-- The running monitor episode: first tick and the reason it leads to (R96). -/
  mon : Option (Nat × Nat)
  /-- The running episode has made the channel FAULTY. -/
  monFaulted : Bool
  /-- Values of D_I for R82, newest first, at most 24,000. -/
  drift : List Int
  /-- Last values of L for the moving mean of R92, newest first, at most 2,400. -/
  lwin : List Int
  /-- Squares of 2,400 times the residual about that mean, newest first, at most 24,000 (R92). -/
  rwin : List Nat
  /-- I and Q of valid READY samples of a listening unit, without offset and without inversion, for the received phase of R74,
  newest first, at most 24,000. -/
  iq : List (Int × Int)
  /-- Received phase of a listening unit (R74), none before the first estimate. -/
  lphase : Option Nat
  /-- Normal and inverted calibration frames (R78): the running frame is the second while the pair is complete in the first. -/
  calP : Option CalFrame
  calN : Option CalFrame
  /-- The one state the channel has held on the samples of the pair outside the BLIND windows, none before the first. -/
  calState : Option Nat
  /-- The state changed during the pair. -/
  calMixed : Bool
  /-- OFFS_I of calibration, kept while the channel's point is in DC_SUPPLY mode (R73, R79). -/
  dcOffs : Option Nat
  /-- Sums of the accepted pair offsets and their number since ALTERNATING was entered (R79). -/
  calSum : Int × Int × Nat
  /-- Reference capture (R80): sample index of the command, then consecutive samples and their sums; none when idle. -/
  refCap : Option (Nat × Nat × Int × Int)
  /-- Reference impedance capture (R115): rotation of the command, qualifying visits, sum of Z (real and imaginary part, in
  units of 2^−62 of a magnitude code). -/
  zCap : Option (Nat × Nat × Int × Int)
  /-- In the current tone window: a tagged sample, an on or parked tick (R105). -/
  winBad : Bool
  winOn : Bool
  deriving DecidableEq, Repr, Inhabited

/-- Pending values of a point (R58, R59, R87, R118): its carrier word fields, the routes of its four pins, and the curve
and thresholds of its two channels, with marks of which parts a pending commit changes. -/
structure PendVals where
  carrier : Nat
  amp : Nat
  mode : Nat
  src : List Nat
  func : List Nat
  curve : List Nat
  onThr : List Nat
  offThr : List Nat
  deriving DecidableEq, Repr, Inhabited

/-- State of one sensor point that no register holds. -/
structure Point where
  seq : Seq
  entry : Entry
  /-- Both channels BLIND (R55, R429). -/
  blind : Bool
  /-- Ticks at which the point last entered and last left BLIND (R105). -/
  blindSince : Nat
  blindEnd : Nat
  /-- Tick of the last phase inversion (R51). -/
  altSince : Nat
  /-- The point runs the start-up calibration in ALTERNATING mode instead of MATCHED (R411). -/
  calAlt : Bool
  /-- Sample windows tagged SETTLING: first and last index (R55). -/
  settle : List (Nat × Nat)
  /-- No carrier reaches the point since this tick (R429). -/
  noCarrier : Option Nat
  /-- BLIND was entered under the exception of R30. -/
  blindExc : Bool
  /-- The disturbances of the present BLIND carry cause TAKEOVER (R359, R429). -/
  blindTo : Bool
  /-- Tick at which the running hold began (the off-crossing) and at which it expires (R126). -/
  holdFrom : Nat
  holdEnd : Nat
  /-- End of the link window (R127). -/
  linkEnd : Nat
  /-- Sections whose early-occupancy flag this point's flange raised (R130). -/
  early : List Nat
  /-- Any early flag was raised for this flange (EARLY of R134). -/
  earlyRaised : Bool
  /-- A channel of the point was parked during the present passage. -/
  parkedIn : Bool
  /-- First onset of the present passage and the second onset, with the speed scale and SPACING in force at that tick (R123). -/
  on1 : Nat
  on2 : Nat
  spacingAt : Nat
  spacing2 : Nat
  /-- The boundary at which the speed scale and SPACING last changed, and their values before it (R123). -/
  geomAt : Nat
  geomWas : Nat × Nat
  /-- Positions latched at the off-crossing of the running hold (R136). -/
  latOff : List (Nat × Int)
  pend : Option PendVals
  /-- The boundary at which the pending values were accepted (R58). -/
  pendAt : Nat
  /-- FORCE has been given for the pending values (R60). -/
  force : Bool
  /-- Lull (R186): the point is in Lull, and the tick since which it has been quiet. -/
  lull : Bool
  quietSince : Nat
  /-- Tick of the crossing that set the held speed (R185). -/
  spdTick : Nat
  /-- Off-crossing of the entry system of the present passage (R181). -/
  off1 : Nat
  /-- Off-crossing of the leaving system and the dwell the hold was computed from. -/
  off2 : Nat
  /-- The flange's sense before a possible reversal: travelling in the point's negative direction. -/
  goingNeg : Bool
  /-- Raw ABR and DIAM of the last 63 valid passages, newest first (R147). -/
  abrRaw : List Nat
  diamRaw : List Nat
  deriving DecidableEq, Repr, Inhabited

/-- State of one pin's clamp: first tick and, once it has ended, last tick of the present conduction (R67). -/
structure Pin where
  from_ : Option Nat
  last : Nat
  ivs : List (Nat × Nat)
  deriving DecidableEq, Repr, Inhabited

/-- State of one section that no register holds. -/
structure Sec where
  /-- A passage or a disturbance reached the count tile since the last snapshot (R170). -/
  touched : Bool
  /-- The local conditions of R176 at their last evaluation, and one more than the cycle whose boundary it was. -/
  idPrev : Bool
  idAt : Nat
  /-- Counting point whose channels R175 still watches for SINGLE, and the channel Y. -/
  watch : Option (Nat × Nat)
  /-- The section left Lull since the last snapshot (R361). -/
  lullExit : Bool
  /-- STATE, MULTI, SINGLE and the count as the last boundary's snapshot has them (R42, R171); none before the first. -/
  snap : List Nat
  deriving DecidableEq, Repr, Inhabited
/-- A restore or disturb command waiting for the boundary (R169): operation, section, tick of the write. -/
structure RestoreCmd where
  op : Nat
  sec : Nat
  tick : Nat
  deriving DecidableEq, Repr, Inhabited

/-- A pending DIRECT entry (R174). -/
structure DirectEntry where
  sec : Nat
  token : Nat
  tick : Nat
  deriving DecidableEq, Repr, Inhabited

/-- The restore machinery's own state: per port the waiting command, the DIRECT entry, and a DISTURB that a standby unit
has carried to the active unit (R180). -/
structure Restores where
  cmd : List (Option RestoreCmd)
  direct : List (Option DirectEntry)
  carried : List (Option RestoreCmd)
  deriving DecidableEq, Repr, Inhabited

/-- The valid frames of one safety cycle as the Lull window sees them (R196): the first position, the lowest and the highest. -/
structure LullCell where
  cycle : Nat
  first : Int
  lo : Int
  hi : Int
  deriving DecidableEq, Repr, Inhabited

/-- State of one drive encoder port that no register holds (R189 to R197). -/
structure EncPort where
  /-- A valid frame has loaded the count; the last raw position; the extended count (R191). -/
  loaded : Bool
  raw : Nat
  count : Int
  /-- Sample ticks and positions of the last decoded valid frames, newest first: 16 of them, and more while a latch may still ask for
  them (R193). -/
  frames : List (Nat × Int)
  /-- Whether each of the last polls brought a faulty frame, newest first, at most 256, and the tick of the last poll told of. -/
  polls : List Bool
  lastPoll : Option Nat
  /-- The boundary at which SCALE or OFFS last changed, and their values before it; the boundary at which MAX_STEP, DIR_HYST,
  LULL_BAND or LATE_LIM last changed, and their values before it, in this order (R206). -/
  scaleAt : Nat
  scaleWas : Nat × Int
  limAt : Nat
  limWas : List Nat
  /-- Consecutive polls without a valid frame, and consecutive valid frames. -/
  missed : Nat
  goodRun : Nat
  /-- Extreme reached since the last toggle of DIR (R195). -/
  extreme : Int
  /-- Position at entry to Lull (R196). -/
  lullPos : Int
  /-- What the valid frames of each safety cycle gave the Lull window, newest first, as far back as the longest LULL_TIME (R196); and
  the tick since which the port has been VALID. -/
  hist : List LullCell
  validSince : Nat
  /-- No frame has been judged for Lull since this tick: the window of R196 starts anew (R206). -/
  winFrom : Nat
  deriving DecidableEq, Repr, Inhabited

/-- State of one compare unit (R202 to R204): armed at the next boundary by REARM, and the last position judged. -/
structure CmpUnit where
  rearm : Bool
  prev : Option (Nat × Int)
  deriving DecidableEq, Repr, Inhabited

/-- An entry of a boundary unit (R200): the axle, the serial of its creating passage, position at the last fix in the
port's frame, the port's position latched with it, and the side of the boundary at entry to BLIND (R179). -/
structure UnitEntry where
  axle : Nat
  serial : Nat
  x : Int
  p : Int
  side : Bool
  deriving DecidableEq, Repr, Inhabited

/-- A boundary unit: its ordered list, the last judged position change base, and whether an axle found no entry. -/
structure BoundaryUnit where
  entries : List UnitEntry
  last : Option (Nat × Int)
  full : Bool
  /-- BLIND was entered under the exception of R30. -/
  exc : Bool
  deriving DecidableEq, Repr, Inhabited

/-- The estimator's fix of one axle (R198, R199): frame (0 to 3 port, 7 track), position, speed, twice the expected distance
between axles in µm (R185), tick, the four latched ports, and the position it held when it ceased to be bound with its speed too
old to extrapolate. -/
structure AxleEst where
  id : Nat
  frame : Nat
  x : Int
  v : Int
  gap : Nat
  ts : Nat
  lat : List (Nat × Int)
  held : Option Int
  deriving DecidableEq, Repr, Inhabited

/-- The twelve bytes of a signature (R144). -/
structure Sig where
  peak : Nat
  flen : Nat
  abr : Nat
  asym : Int
  diam : Nat
  vmask : Nat
  nsamp : Nat
  deriving DecidableEq, Repr, Inhabited

/-- A passage at a matching station as the ledger keeps it (R141, R150): what the passage was, and the assignment made. -/
structure Obs where
  sp : Nat
  /-- Direction, negative in the track's sense. -/
  neg : Bool
  serial : Nat
  ts : Nat
  sig : Sig
  /-- SIG_PARTIAL applies. -/
  sigPartial : Bool
  speed : Int
  lat : List (Nat × Int)
  /-- State and position of each port as the passage was produced (R153). -/
  ports : List (Nat × Int)
  dep : List Nat
  arr : List Nat
  fix : Int
  /-- Slot and identity of the assigned record, whether the assignment inserted it, and slot and identity of the record that an
  alignment has made for this passage, in use or not (R152). -/
  slot : Option Nat
  id : Nat
  inserted : Bool
  made : Option (Nat × Nat)
  final : Bool
  dist : Nat
  inTol : Bool
  /-- Bytes of the record and the axle's estimate before the assignment, for a later job that revises it (R152). -/
  saved : List Byte
  est : Option AxleEst
  /-- The record of the axle ahead whose NEXT the assignment wrote: its slot and identity, and the NEXT of before (R144). -/
  linked : Option (Nat × Nat × Nat)
  /-- Axles skipped just before this observation in its alignment, with the interpolated tick at P. -/
  skips : List (Nat × Nat)
  deriving DecidableEq, Repr, Inhabited

/-- The values of the ledger's commit group that a match job runs under (R157). -/
structure LedgVals where
  w : Nat
  look : Nat
  dAcc : Nat
  dCap : Nat
  ins : Nat
  skip : Nat
  tol : List Nat
  gapTol : Nat
  minDist : Nat
  slipLim : Nat
  deriving DecidableEq, Repr, Inhabited

/-- A virtual passage (R142), kept while its axle has no identity: creating serial, virtual point, sets, tick, direction, the point's
port with its latch, state and position of each port as the passage was produced (R153), the speed. -/
structure VMove where
  serial : Nat
  k : Nat
  dep : List Nat
  arr : List Nat
  ts : Nat
  neg : Bool
  port : Nat
  lat : Nat × Int
  ports : List (Nat × Int)
  speed : Int
  deriving DecidableEq, Repr, Inhabited

/-- How far a turn in the ledger has come (R153, R155): a match job queued, running on an engine, or done and waiting for the ones
before it; or what waits in the same order: the creation of a record, the finality of a quiet station (R152), the virtual passage of an
axle (R142), a section cleared from the records (R159), which after a sweep stands only once its fabric clock is over (R173). -/
inductive Stage where
  | queued | running (k : Nat) | done | creates | quiet
  | virtual (id : Nat) (m : VMove)
  | clears (sec : Nat) (sweep : Bool)
  deriving DecidableEq, Repr, Inhabited

/-- A turn in the ledger: the serial and station of its passage, its sets, the tick it was queued with state and position of each port
then (R153), late (R155, R156), its stage, and the values in force when it started (R157). -/
structure Job where
  serial : Nat
  sp : Nat
  neg : Bool
  secs : List Nat
  dep : List Nat
  queued : Nat
  ports : List (Nat × Int)
  late : Bool
  stage : Stage
  vals : LedgVals
  deriving DecidableEq, Repr, Inhabited

/-- A shadow or inserted axle followed for localisation (R160): axle, station, direction, tick at the station, whether it
was inserted, the departure set there, the stations that had skipped a shadow before or to which an inserted axle has been assigned
since, and how many final passages each station that bounds the arrival sections has seen since. -/
structure Loose where
  id : Nat
  sp : Nat
  neg : Bool
  tick : Nat
  inserted : Bool
  dep : List Nat
  skipped : List Nat
  passes : List (Nat × Nat)
  deriving DecidableEq, Repr, Inhabited

/-- A localisation verdict (R160). -/
structure Verdict where
  kind : Nat
  cp : Nat
  up : Nat
  dn : Nat
  axle : Nat
  ts : Nat
  deriving DecidableEq, Repr, Inhabited

/-- The ledger's state beside its records, which lie in working memory (R143): the identity counter, the passages kept
for alignment (newest first), the turns outstanding in the order of their passages (oldest first), loose axles, verdicts,
slip values, virtual passages to come, and the status that each WAITING record had before. -/
structure Ledger where
  nextId : Nat
  obs : List Obs
  jobs : List Job
  loose : List Loose
  verdicts : List Verdict
  slips : List (List Int)
  vpend : List VMove
  rests : List (Nat × Nat)
  deriving DecidableEq, Repr, Inhabited

/-- Requests of the two ports that the next boundary answers: a ledger copy (LEDG_REC_REQ) and an axle query
(SPOS_AXQ_REQ), with the CLEAR commands waiting for the boundary. -/
structure Requests where
  recReq : List Bool
  axqReq : List Bool
  supClear : List Nat
  clearIn : Nat
  clearOut : Nat
  clearDrv : Bool
  goSafe : Bool
  ackDiv : Bool
  deriving DecidableEq, Repr, Inhabited

/-- The measurement chain's snapshot (R88): sample index latched, source, selected channels, and the samples latched so
far (channel, value, tag). -/
structure Snap where
  k : Nat
  src : Nat
  mask : Nat
  vals : List (Nat × Int × Nat)
  deriving DecidableEq, Repr, Inhabited

/-- Tone supervision and the crossbar beside the registers: whether the previous rotation (1) and the present one failed a self-check
(R109), one more than the cycle of the last visit evaluated, and the pins whose crossbar switches disagreed at the last boundary
(R50). -/
structure Tone where
  visited : Nat
  fails : Nat
  fail48 : Bool
  xbar : List Nat
  deriving DecidableEq, Repr, Inhabited

/-- The Bamdon window beside its registers: the frozen image of its eleven words (R394), the tick of a pending 0x5A, and the passages
of the last fabric clock in which any reached the window, as counting point and direction code (R395). -/
structure Bcw where
  image : Option (List Nat)
  armed : Option Nat
  clockAt : Nat
  clock : List (Nat × Nat)
  deriving DecidableEq, Repr, Inhabited

/-- A source failure that sought a spare (R63): the tick of its detection, the source, its pin, its onset, the spare given. -/
structure SrcFail where
  at_ : Nat
  src : Nat
  pin : Nat
  onset : Nat
  spare : Option Nat
  deriving DecidableEq, Repr, Inhabited

/-- A disturbance as it reaches a count tile (R211): its cause's code, the counting point it names, the watch of R175. -/
structure Dist where
  cause : Nat
  cp : Nat
  watch : Option (Nat × Nat)
  deriving DecidableEq, Repr, Inhabited

/-- A journal entry: class, block (bits 23:16 of its base), flag, object, tick, object status word, twelve detail bytes. -/
structure JEntry where
  cls : Nat
  blk : Nat
  flag : Nat
  obj : Nat
  at_ : Nat
  objStat : Nat
  detail : List Byte
  deriving DecidableEq, Repr, Inhabited

/-- A journal entry written in the running fabric clock: by a count tile or by anything else, and the bytes that stood in its slot. -/
structure ClockEntry where
  tile : Bool
  entry : JEntry
  was : List Byte
  deriving DecidableEq, Repr, Inhabited

/-- What has reached a section's count tile in the present fabric clock (R164, R211): the passages (counting point, inward) and the
disturbances, the section's fields and watch as they stood before it, and whether the passages complete a sweep (R173). -/
structure TickSec where
  sec : Nat
  moves : List (Nat × Bool)
  dists : List Dist
  saved : List Nat
  watch : Option (Nat × Nat)
  swept : Bool
  deriving DecidableEq, Repr, Inhabited

/-- The section fabric beside its registers and its configuration words (which lie in `mem`): output pins per tile in use,
previous filter inputs per tile, running filter timers (4 × tile + channel, tick of expiry), received telegram bits, a
double-bit error found (R226), and the scrubber's record: corrected words of this pass and of the previous one, corrected
words of the last passes (newest first, at most 30), words marked STUCK. -/
structure Fabric where
  /-- The counting points' states as the last boundary's snapshot froze them (R42). -/
  cpSnap : List Nat
  /-- The number of the last fabric clock in which something reached a count tile and the sections that it reached (R164); the summary
  flags before that clock; the journal entries written in it, newest first; an entry now written is a tile's. -/
  clockAt : Nat
  clock : List TickSec
  clockPre : List Nat
  clockLog : List ClockEntry
  clockTile : Bool
  pins : List (Nat × Nat)
  prev : List (Nat × Nat)
  timers : List (Nat × Nat)
  rxBits : Nat
  ue : Bool
  /-- A load or an upload to RAM has been refused, and no configuration has been loaded since: every demand is 0 (R238, R240). -/
  refused : Bool
  fixed : List Nat
  fixedPrev : List Nat
  passes : List Nat
  stuck : List Nat
  deriving DecidableEq, Repr, Inhabited

/-- What the block drives onto its lines: switches of SOUT0 to SOUT11 commanded closed, TL_PERMIT edges emitted, TL_STOP_N
and TL_STILL driven high, traction-link pins driven (R296), sensor sources driving (R53), encoder clocks driven (R190), the
termination of the ENC_DAT receivers switched in (R421), INTLK_OUT asserted (R344). -/
structure Lines where
  sout : Nat
  tlp : Bool
  stopN : Bool
  still : Bool
  tlDrive : Bool
  src : Bool
  encClk : Bool
  encTerm : Bool
  intlkOut : Bool
  deriving DecidableEq, Repr, Inhabited

/-- Levels that the outside world holds on input pins: both channels of the sixteen pairs, INTLK_IN with the tick since
which it has been low and the tick at which it last rose, the strap ROLE_PREF (true: connected to GND), supply present. -/
structure Ext where
  sinA : Nat
  sinB : Nat
  intlkIn : Bool
  lowSince : Nat
  roseIn : Option Nat
  prefGnd : Bool
  powered : Bool
  deriving DecidableEq, Repr, Inhabited

/-- One safety output: end of the running pulse (R287), ticks of the last opening and closing, and the
cycle after the one of the last pulse. -/
structure OutPort where
  pulse : Option Nat
  openAt : Nat
  closeAt : Nat
  pulsed : Nat
  deriving DecidableEq, Repr, Inhabited

/-- Safety inputs and outputs beside their registers: index of the next input sample (R277), last antivalent value of each
pair (R281), the outputs. -/
structure Sio where
  nextSample : Nat
  lastAnti : Nat
  outs : List OutPort
  deriving DecidableEq, Repr, Inhabited

/-- A transaction as the voter issued it (R253): type, address, content and check bits, each the bitwise majority of the compared
lanes. -/
structure Issued where
  kind : Nat
  addr : Nat
  data : Nat
  check : Nat
  deriving DecidableEq, Repr, Inhabited

/-- The architectural state of one core (R259): registers and private memory by number and address, 0 where unlisted, and the
pipeline position. -/
structure CoreArch where
  regs : List (Nat × Nat)
  mem : List (Nat × Nat)
  pos : Nat
  deriving DecidableEq, Repr, Inhabited

/-- The safety processor beside its registers: for each core's transients the cycles at
which they leave the window of R260, what each core's self-test
follows (0 none, 1 a mismatch, 2 the periodic test), end of the keep-alive grant and whether this cycle's token has been
accepted (R265), cycle at which the periodic test falls due (R263), entry to SQUALL, Squall causes raised and not yet
judged (R268), correction count at entry (CFG_CE), clock fault forcing the demands to 0 (R404), verification of the
patches failed (R276), cores whose boot self-test failed (R264), the last transaction issued (R253), each core's architectural
state (R259), the replay buffer with the write that a full one holds back, breakpoints and watchpoints (R274), instruction of the
test port (R273: 0 BYPASS, 1 IDCODE, 2 SAMPLE_PRELOAD, 3 EXTEST, 4 vendor), the values preloaded into the boundary-scan cells
(bit 0 TL_STOP_N, bit 1 the drive of the traction link's pins, bit 2 the encoder clocks), what the cells last sampled. -/
structure Spu where
  trans : List (List Nat)
  tests : List Nat
  grantEnd : Nat
  tokenOk : Bool
  ptDue : Option Nat
  sqEntry : Nat
  raised : List Nat
  cePasses : Nat
  clkForce : Bool
  patchBad : Bool
  bootFail : Nat
  ranAll : Bool
  issued : Option Issued
  cores : List CoreArch
  replay : List DebugWrite
  stalled : Option DebugWrite
  breaks : List (Option Nat)
  watches : List (Option Nat)
  jtag : Nat
  preload : Nat
  scanLines : Lines
  scanExt : Ext
  deriving DecidableEq, Repr, Inhabited

/-- Boot and start-up: stage (0 in RESET, 1 resonator qualified and memories filled, 2 PLL locked, 3 load accepted and
STARTUP due, 4 load accepted and waiting for commissioning, 5 left), the start-up boundaries k0, kc and ks (R411,
R413) with the sweep's first rotation, the start-up reading of the seal switches (none: unsettled) and the last settled
reading (R240 to R243). -/
structure Boot where
  stage : Nat
  entry : Nat
  k0 : Nat
  kc : Nat
  ks : Nat
  sweepOk48 : Bool
  sweepOk49 : Bool
  swept : List Nat
  sealStart : Option Nat
  sealLast : Nat
  deriving DecidableEq, Repr, Inhabited

/-- One CAN controller beside its registers (R317, R319): per buffer the consecutive clash attempts and the identifier they
were made on, the tick of entry to bus-off, and the buffer whose frame is known to be on the bus (R314). -/
structure CanCtl where
  clash : List Nat
  clashId : List Nat
  boSince : Option Nat
  onBus : Option Nat
  deriving DecidableEq, Repr, Inhabited

/-- A frame copied into the telegram engine's frame store (R334). -/
structure SteFrame where
  ts : Nat
  x : Nat
  id : Nat
  ide : Bool
  fdf : Bool
  data : List Byte
  deriving DecidableEq, Repr, Inhabited

/-- A telegram that the engine has built: its connection (64 for an ADMIT), its controller, its frame (R333, R339). -/
structure SteTx where
  conn : Nat
  x : Nat
  id : Nat
  ide : Bool
  fdf : Bool
  data : List Byte
  deriving DecidableEq, Repr, Inhabited

/-- What a telegram takes from the boundary snapshot (R299, R331): occupied sections, device state and role, the demands of TL_PERMIT
and TL_STILL, the axle slots in use, the slots' bytes, the cycle. -/
structure TelView where
  occ : Nat
  state : Nat
  demand : Nat
  nax : Nat
  slots : List Byte
  cycle : Nat
  deriving DecidableEq, Repr, Inhabited

/-- A connection beside its registers (R335, R336, R340): timestamp of the last accepted frame, the reference frame of
SYNCING (sequence number and timestamp), the cycle of the lapse, one more than the cycle of the last telegram built, the duplicates
discarded, for which the spec has no register. -/
structure ConnX where
  last : Nat
  ref : Option (Nat × Nat)
  lapsed : Nat
  built : Nat
  dups : Nat
  deriving DecidableEq, Repr, Inhabited

/-- An STE_ADMIT write waiting for the boundary: operation, whitelist entry, connection. -/
structure AdmitCmd where
  op : Nat
  wl : Nat
  conn : Nat
  deriving DecidableEq, Repr, Inhabited

/-- The telegram engine beside its registers: the frame store, telegrams waiting for a buffer, the buffers that hold
requested telegrams (controller, buffer, connection), the connections, the nonces of the pending announcements, the
ports' admission commands, and what the boundary snapshot gives the telegrams (R331): the occupied sections and the two
axle slots. -/
structure Ste where
  frames : List SteFrame
  waiting : List SteTx
  held : List (Nat × Nat × Nat)
  conns : List ConnX
  nonces : List Nat
  admits : List (Option AdmitCmd)
  snap : Option TelView
  deriving DecidableEq, Repr, Inhabited

/-- The traction link's telegram channel beside its registers (R298 to R301): what this cycle's telegram takes from the boundary
snapshot, one more than the cycle of the last exchange, cycles since the last accepted frame, any SEQ is accepted, a lapse holds,
a frame has been accepted in the running cycle. -/
structure TlLink where
  view : Option TelView
  sent : Nat
  idle : Nat
  anySeq : Bool
  lapsed : Bool
  okSince : Bool
  deriving DecidableEq, Repr, Inhabited

/-- One host port beside its registers: its shadow set (R244), address and value of each register written; the NAME_H
halves staged (R11) and the halves captured by reads of NAME_L (R10, R405), by address; the words and the check value of
its last response; the last accepted read (opcode, address, words) that REPEAT returns (R372); the tick of its pending
RESET (R381). -/
structure PortState where
  shadow : List (Nat × Nat)
  staged : List (Nat × Nat)
  snaps : List (Nat × Nat)
  resp : List Nat
  respCrc : Nat
  last : Option (Nat × Nat × List Nat)
  resetAt : Option Nat
  deriving DecidableEq, Repr, Inhabited

/-- The in-package flash (R236, R237, R276): per slot the stream it holds (none: the factory stream) and whether it is VALID,
BOOT_SLOT, and the firmware patches. -/
structure Flash where
  slots : List (Option (List Byte))
  valid : List Bool
  boot : Nat
  patches : List Patch
  deriving DecidableEq, Repr, Inhabited

/-- An upload that is being received (R240): its port and target, the bytes of the part being received (newest first), the
parts received whole (newest first). -/
structure Upload where
  port : Nat
  target : Nat
  cur : List Byte
  parts : List (List Byte)
  deriving DecidableEq, Repr, Inhabited

/-- The Luarin link and the pairing beside their registers (15_unit_pairing.md). Both lanes trained; what the partner sent at link-up
(strap, DEV_REV, digest) and what this unit sent; the partner's last boundary marker and the step by which the unit's count has followed it
at the last boundary (R348). Receiving: bytes by FRAME_NO and content of the cycle image being received, its cycle, the frame numbers of
the set so far and what its END frame holds (frame count, CRC), frames discarded in this cycle; the copy of the partner's state image
(cycle image, ledger slots), with 1 while it differs and 2 while it is being rebuilt, and the number of the last refresh slice; the complete image
and the STATUS frame that arrived since the last boundary, the last complete image, the last cycle received complete,
consecutive boundaries without either. Sending: the ledger's cells at the last boundary, the slots owed to the partner with
one more than the cycle of their first sending (0 not sent), the unit's own image as the snapshot
gives it and as the last boundary left it, the last STATUS sent, slots sent and the frames that carried them, commits, restores and
sections of DISTURB commands of this cycle. Verdicts: the boundary of the request, the first mismatching boundary, own and partner's verdict, and the own verdict with the boundary of its request as images
B + 1 and B + 2 report it (R355). Take-back: the boundary of the request, TB_ACK to be sent, the
cycle in which the handover claim falls. Claims: t0, its kind (0 takeover, 1 handover, 2 at start-up), a takeover decided and
not yet claimed, the partner lost for good (R358). Then the boundary of entry to STARTUP, consecutive boundaries within the
limit of R348, the tick at which INTLK_OUT last rose, and since the last takeover the ticks of each output's first closing, of the first
edge on TL_PERMIT (12) and of the first high level on TL_STOP_N (13) and on TL_STILL (14), from which R362 measures; the tick of the
last claim; the first image that showed the partner ACTIVE in STARTUP; one more than the boundary at which the last verdict exchange had
its outcome (R355). -/
structure Link where
  lanes : Bool
  partner : Option (Bool × Nat × Nat)
  sentHello : Option (Bool × Nat × Nat)
  marker : Option (Nat × Int)
  step : Int
  img : List (Nat × List Byte)
  content : Option CycleImage
  setCycle : Nat
  got : List Nat
  setEnd : Option (Nat × Nat)
  discards : Nat
  copyImg : List Byte
  copyMem : List Host.Cell
  resync : Nat
  lastSlice : Nat
  image : Option CycleImage
  lastImage : Option CycleImage
  ack : Nat
  missed : Nat
  status : Option PartnerStatus
  statusMissed : Nat
  prevLedg : List Host.Cell
  owed : List (Nat × Nat)
  snapImage : Option CycleImage
  sentImage : Option CycleImage
  sentStatus : Option PartnerStatus
  sentSlots : List Nat
  sentFrames : List LinkFrame
  commits : List (Nat × Nat)
  restores : List RestoreImage
  disturbs : List Nat
  reqAt : Option Nat
  mmFirst : Nat
  own : Option Bool
  part : Option Bool
  said : Option (Nat × Bool)
  tbAt : Option Nat
  tbAck : Bool
  handAt : Option Nat
  claimAt : Option Nat
  decided : Bool
  claimKind : Nat
  lost : Bool
  enteredAt : Nat
  inLimit : Nat
  rose : Nat
  firsts : List (Option Nat)
  t0 : Option Nat
  startSeen : Option Nat
  ended : Nat
  deriving DecidableEq, Repr, Inhabited

/-- The whole state of the block. -/
structure State where
  regs : List (Nat × Nat)
  mem : List Host.Cell
  now : Nat
  cycle : Nat
  pending : List Instr
  freeCtr : Nat
  chans : List Chan
  points : List Point
  pins : List Pin
  secs : List Sec
  encs : List EncPort
  units : List BoundaryUnit
  cmps : List CmpUnit
  ests : List AxleEst
  ledger : Ledger
  reqs : Requests
  restores : Restores
  snap : Option Snap
  tone : Tone
  bcw : Bcw
  fab : Fabric
  toSafe : List Nat
  lines : Lines
  ext : Ext
  sio : Sio
  spu : Spu
  boot : Boot
  can : List CanCtl
  ste : Ste
  tl : TlLink
  hosts : List PortState
  flash : Flash
  up : Option Upload
  link : Link
  /-- Levels of the shared lines as the last boundary read them (R293, R296): SOUT balls high and low, traction link. -/
  balls : Nat × Nat × Nat
  /-- One more than the cycle of the last verdict indicator (R354). -/
  indicAt : Nat
  /-- Tick at which the unit began to drive after its last takeover (R362). -/
  tookOver : Option Nat
  /-- The source failures of the last tick in which one sought a spare, by index of the source (R63). -/
  srcFails : List SrcFail
  deriving DecidableEq, Repr

/-- The registers right after reset, in the canonical order of the store: the Reset column where it is not 0. A register whose
column reads BS, given by the bit-stream, is 0 until a load (DESIGN CHOICE, log entry 8). -/
def resetRegs : List (Nat × Nat) :=
  [(F.DEV_ID_PART.key 0, 0x48)]
  ++ [(F.DEV_ID_VENDOR.key 0, 0x4558)]
  ++ [(F.DEV_REV_REV.key 0, 0x100)]
  ++ [(F.DEV_STATE_STATE.key 0, 0x1)]
  ++ [(F.WEV_GQ_FILTER_KINDS.key 0, 0x1FC)]
  ++ (List.range 24).flatMap (fun i => [(F.LEDG_SPn_REF_ABR_REF.key i, 0x1000), (F.LEDG_SPn_REF_DIAM_REF.key i, 0x1000)])
  ++ (List.range 48).flatMap (fun i => [(F.LEDG_SECn_COVER_LOST.key i, 0x1)])
  ++ (List.range 48).flatMap (fun i => [(F.SECT_n_STATE_STATE.key i, 0x2), (F.SECT_n_STATE_CAUSE_CP.key i, 0x3F)])
  ++ (List.range 8).flatMap (fun i => [(F.SECT_VCPk_STAT_STATE.key i, 0x7)])
  ++ (List.range 24).flatMap (fun i => [(F.SPOS_SPn_SST_SPD_ST.key i, 0x6)])
  ++ (List.range 32).flatMap (fun i => [(F.FAB_WATCH_SELk_NET_LO.key i, 0xFFFE), (F.FAB_WATCH_SELk_NET_HI.key i, 0xFFFE)])
  ++ (List.range 64).flatMap (fun i => [(F.CANx_BUFCTRLb_LOCK_OWNER.key i, 0x3)])
  ++ (List.range 64).flatMap (fun i => [((F.CANx_BUFCTRLb_LOCK_OWNER.can 1).key i, 0x3)])
  ++ (List.range 16).flatMap (fun i => [(F.CVU_CHn_CFG_WIDTH.key i, 0x20), (F.CVU_CHn_STAT_CLAIM.key i, 0x3)])
  ++ [(F.SPU_MM_INFO_CORE.key 0, 0x3)]
  ++ [(F.SPU_FW_ROM_REV.key 0, 0x100)]
  ++ [((F.HPS_ID_PORT_ID.port 0).key 0, 1)]
  ++ [(F.CFG_STATUS_SOURCE.key 0, 0x3)]
  ++ [(F.CRU_RST_CAUSE_CAUSE.key 0, 0x1)]
  ++ [(F.CRU_VIN_VIN_MIN.key 0, 0xFFFF)]
  ++ [(F.JRN_GQ_LEVEL_GQ_THRESH.key 0, 0x400)]
  ++ [(F.JRN_FILTER_CLASSES.key 0, 0xF)]
  ++ [(F.JRN_FILTER_GQ_KINDS.key 0, 0xF)]
  ++ [((F.HPS_ID_PORT_ID.port 1).key 0, 2)]


/-- The machine right after a power-on reset: every register at its Reset column, memories empty, every sequencer, queue and
window empty, the supply present, nothing driven, the factory stream in both flash slots (R237). The contents of flash and the
levels that the outside holds are the model's (DESIGN CHOICE, log entries 9 and 10). -/
def State.reset : State :=
  { regs := resetRegs
    mem := []
    now := 0
    cycle := 0
    pending := []
    freeCtr := 0
    chans := List.replicate 48 default
    points := List.replicate 24 default
    pins := List.replicate 96 default
    secs := List.replicate 48 default
    encs := List.replicate 4 default
    units := List.replicate 8 default
    cmps := List.replicate 16 default
    ests := []
    ledger := { nextId := 1, obs := [], jobs := [], loose := [], verdicts := []
                slips := List.replicate 24 [], vpend := [], rests := [] }
    reqs := { recReq := [false, false], axqReq := [false, false], supClear := [], clearIn := 0, clearOut := 0
              clearDrv := false, goSafe := false, ackDiv := false }
    restores := { cmd := [none, none], direct := [none, none], carried := [none, none] }
    snap := none
    tone := default
    bcw := default
    fab := default
    toSafe := []
    lines := default
    ext := { sinA := 0, sinB := 0, intlkIn := false, lowSince := 0, roseIn := none, prefGnd := false, powered := true }
    sio := { nextSample := 0, lastAnti := 0, outs := List.replicate 12 default }
    spu := { trans := [[], [], []], tests := [0, 0, 0], grantEnd := 0, tokenOk := false, ptDue := none, sqEntry := 0
             raised := [], cePasses := 0, clkForce := false, patchBad := false, bootFail := 0, ranAll := true, issued := none
             cores := List.replicate 3 default, replay := [], stalled := none, breaks := List.replicate 8 none
             watches := List.replicate 4 none, jtag := 1, preload := 0, scanLines := default, scanExt := default }
    boot := default
    can := List.replicate 2 { clash := List.replicate 64 0, clashId := List.replicate 64 0, boSince := none, onBus := none }
    ste := { frames := [], waiting := [], held := [], conns := List.replicate 64 default, nonces := [0, 0, 0, 0]
             admits := [none, none], snap := none }
    tl := default
    hosts := List.replicate 2 default
    flash := { slots := [none, none], valid := [true, true], boot := 0, patches := [] }
    up := none
    link := default
    balls := (0, 0, 0)
    indicAt := 0
    tookOver := none
    srcFails := [] }

end Sys2Proof.Machine
end

