-- ==== Sys2Proof/Machine/Ops.lean ====
section
/-!
DEFINITION. The named operations that every meaning shares: reading and writing register fields and 40-bit pairs, the
working memory, time, the device state and role, the journal (R386, R387) and the Gust queue (R137 to R139, R383 to
R385). Where a value is not stated by the spec it is a free value of Config.
-/

namespace Sys2Proof.Machine

/-! ### One field of the state replaced -/

def State.putSpu (s : State) (x : Spu) : State := { s with spu := x }
def State.putLedger (s : State) (x : Ledger) : State := { s with ledger := x }
def State.putSte (s : State) (x : Ste) : State := { s with ste := x }
def State.putBoot (s : State) (x : Boot) : State := { s with boot := x }
def State.putReqs (s : State) (x : Requests) : State := { s with reqs := x }
def State.putBcw (s : State) (x : Bcw) : State := { s with bcw := x }
def State.putTl (s : State) (x : TlLink) : State := { s with tl := x }
def State.putFab (s : State) (x : Fabric) : State := { s with fab := x }
def State.putRestores (s : State) (x : Restores) : State := { s with restores := x }
def State.putLink (s : State) (x : Link) : State := { s with link := x }
def State.putExt (s : State) (x : Ext) : State := { s with ext := x }
def State.putUp (s : State) (x : Option Upload) : State := { s with up := x }
def State.putSio (s : State) (x : Sio) : State := { s with sio := x }
def State.putSnap (s : State) (x : Option Snap) : State := { s with snap := x }
def State.putTone (s : State) (x : Tone) : State := { s with tone := x }
def State.putEsts (s : State) (x : List AxleEst) : State := { s with ests := x }
def State.putToSafe (s : State) (x : List Nat) : State := { s with toSafe := x }
def State.putFlash (s : State) (x : Flash) : State := { s with flash := x }
def State.putBalls (s : State) (x : Nat × Nat × Nat) : State := { s with balls := x }
def State.putIndicAt (s : State) (x : Nat) : State := { s with indicAt := x }
def State.putSrcFails (s : State) (x : List SrcFail) : State := { s with srcFails := x }
def State.putTookOver (s : State) (x : Option Nat) : State := { s with tookOver := x }
def State.putPending (s : State) (x : List Instr) : State := { s with pending := x }
def State.putCycle (s : State) (x : Nat) : State := { s with cycle := x }
def State.putNow (s : State) (x : Nat) : State := { s with now := x }
def State.putCan (s : State) (x : List CanCtl) : State := { s with can := x }
def State.putLines (s : State) (x : Lines) : State := { s with lines := x }
def State.putMem (s : State) (x : List Host.Cell) : State := { s with mem := x }

/-! ### Register fields -/

/-- The value of a register field at an index. -/
def State.get (s : State) (f : Fld) (i : Nat := 0) : Nat := storeGet 0 s.regs (f.key i)

/-- A register field written, reduced to its width. -/
def State.set (s : State) (f : Fld) (i : Nat) (v : Nat) : State :=
  { s with regs := storePut 0 s.regs (f.key i) (v % 2 ^ f.width) }

/-- A field of index 0 written. -/
def State.set0 (s : State) (f : Fld) (v : Nat) : State := s.set f 0 v

/-- A one-bit field read as a truth value. -/
def State.flag (s : State) (f : Fld) (i : Nat := 0) : Bool := s.get f i != 0

/-- A one-bit field set. -/
def State.raise (s : State) (f : Fld) (i : Nat := 0) : State := s.set f i 1

/-- A one-bit field cleared. -/
def State.lower (s : State) (f : Fld) (i : Nat := 0) : State := s.set f i 0

/-- A one-bit field written from a truth value. -/
def State.setFlag (s : State) (f : Fld) (i : Nat) (b : Bool) : State := s.set f i (b2n b)

/-- A saturating counter field stepped. -/
def State.bump (s : State) (f : Fld) (i : Nat := 0) : State := s.set f i (satInc f.width (s.get f i))

/-- A wrapping counter field stepped. -/
def State.bumpWrap (s : State) (f : Fld) (i : Nat := 0) : State := s.set f i (s.get f i + 1)

/-- A 40-bit pair: the field of NAME_L, with NAME_H in the next register, four bytes on (R9). -/
def State.get40 (s : State) (f : Fld) (i : Nat := 0) : Nat :=
  s.get f i + 2 ^ 32 * s.get { f with bit := f.bit + 32, width := 8 } i

/-- A 40-bit pair written whole. -/
def State.set40 (s : State) (f : Fld) (i : Nat) (v : Nat) : State :=
  (s.set f i (v % 2 ^ 32)).set { f with bit := f.bit + 32, width := 8 } i (v / 2 ^ 32)

/-- A signed 40-bit pair. -/
def State.getS40 (s : State) (f : Fld) (i : Nat := 0) : Int := toSigned 40 (s.get40 f i)

/-- A signed 40-bit pair written. -/
def State.setS40 (s : State) (f : Fld) (i : Nat) (v : Int) : State := s.set40 f i (ofSigned 40 v)

/-- The fields of a register gathered into its 32-bit word: each field stands at its bit within the register. -/
def gatherWord (s : State) (addr i : Nat) (d : RegDesc) : Nat :=
  d.fields.foldl (fun acc fc => acc + s.get { fc.1 with stride := 0, bit := fc.1.bit + 8 * i } 0
    * 2 ^ (fc.1.bit - 8 * addr)) 0

/-! ### Time -/

/-- The 40-bit timestamp of an extended tick (R8, R40). -/
def ts40 (t : Nat) : Nat := t % 2 ^ 40

/-- The epoch of an extended tick. -/
def epochOf (t : Nat) : Nat := t / 2 ^ 40

/-- Ticks in a safety cycle (R42). -/
def cycleTicks : Nat := 60000

/-- The number of the fabric clock of a tick. R219 has fabric clocks begin on even ticks: what happens at an even tick and at the odd
one after it reaches the tiles in one clock (DEDUCED, log entry 39). -/
def clockOf (t : Nat) : Nat := t / 2

/-- The first tick of the running cycle. -/
def State.cycleStart (s : State) : Nat := s.cycle * cycleTicks

/-- The first tick of the next cycle. -/
def State.nextBoundary (s : State) : Nat := (s.cycle + 1) * cycleTicks

/-- The instant moved on to a tick of the running cycle: never back, and never onto the next boundary. -/
def State.advanceTo (s : State) (t : Nat) : State :=
  s.putNow (max s.now (min t (s.nextBoundary - 1)))

/-- A deadline that falls inside the running cycle or before it, so that its event can occur now. -/
def State.due (s : State) (deadline : Nat) : Bool := decide (deadline < s.nextBoundary)

/-- A fresh value from outside the spec: the free-value counter steps. -/
def State.fresh (s : State) : State := { s with freeCtr := s.freeCtr + 1 }

/-- A level of a ball that a command leaves open: a free value. -/
def State.setOpen (s : State) (f : Fld) (i : Nat) : State := (s.setFlag f i (Config.ballReads s.freeCtr)).fresh

/-! ### Device state and role (R33, R35) -/

/-- The device states of R33, in the order of their codes. -/
inductive Dev where
  | reset | boot | comm | startup | oper | squall | safe
  deriving DecidableEq, Repr, Inhabited

/-- The code of a device state. -/
def Dev.code : Dev → Nat
  | .reset => 0 | .boot => 1 | .comm => 2 | .startup => 3 | .oper => 4 | .squall => 5 | .safe => 6

/-- The device state of a code; the reserved code 7 is never written. -/
def Dev.ofCode (n : Nat) : Dev :=
  if n = 0 then .reset else if n = 1 then .boot else if n = 2 then .comm else if n = 3 then .startup
  else if n = 4 then .oper else if n = 5 then .squall else .safe

/-- The unit roles of R35. -/
inductive Role where
  | detached | active | standby
  deriving DecidableEq, Repr, Inhabited

/-- The code of a role. -/
def Role.code : Role → Nat
  | .detached => 0 | .active => 1 | .standby => 2

/-- The role of a code; the reserved code 3 is never written. -/
def Role.ofCode (n : Nat) : Role := if n = 1 then .active else if n = 2 then .standby else .detached

/-- The device state: RESET while the reset holds, else as DEV_STATE holds it (R33, R406). -/
def State.dev (s : State) : Dev := if s.boot.stage = 0 then .reset else Dev.ofCode (s.get F.DEV_STATE_STATE)

/-- The unit role, as DEV_STATE holds it. -/
def State.role (s : State) : Role := Role.ofCode (s.get F.DEV_STATE_ROLE)

/-- Counting runs (R33). -/
def State.counting (s : State) : Bool :=
  match s.dev with
  | .reset => false
  | .boot => false
  | _ => true

/-- The host ports answer (R376): the root PLL has locked. -/
def State.portsUp (s : State) : Bool := s.flag F.CRU_CLK_PLL_LOCK

/-! ### Working memory -/

/-- A byte of the addressed memories. -/
def State.byte (s : State) (a : Nat) : Byte := storeGet 0 s.mem a

/-- An aligned word of the addressed memories, little-endian (R7). -/
def State.memWord (s : State) (a : Nat) : Nat := ofLeBytes (storeGetBytes s.mem a 4)

/-- Bytes written to the addressed memories. -/
def State.putBytes (s : State) (a : Nat) (bs : List Byte) : State := s.putMem (storePutBytes s.mem a bs)

/-- `n` bytes of the addressed memories. -/
def State.getBytes (s : State) (a n : Nat) : List Byte := storeGetBytes s.mem a n

/-! ### The journal (R386, R387) -/

/-- First address of the journal ring. -/
def jrnBase : Nat := 0x680000

/-- Whether an entry of a class is written: CLASS 0 always, the others by their bit of JRN_FILTER. -/
def jrnWanted (s : State) (cls : Nat) : Bool :=
  cls == 0 || bitAt (s.get F.JRN_FILTER_CLASSES) (cls - 1)

/-- The 32 bytes of an entry with serial `n`. -/
def JEntry.bytes (e : JEntry) (n : Nat) : List Byte :=
  leBytes 1 e.cls ++ leBytes 1 e.blk ++ leBytes 1 e.flag ++ leBytes 1 e.obj ++ leBytes 5 (ts40 e.at_)
    ++ leBytes 1 (epochOf e.at_) ++ leBytes 2 0 ++ leBytes 4 n ++ leBytes 4 e.objStat
    ++ (e.detail ++ List.replicate 12 0).take 12

/-- First address of the ring slot of a serial. -/
def jrnSlot (n : Nat) : Nat := jrnBase + 32 * (n % 8192)

/-- What the count tiles have received so far in the running fabric clock. -/
def clockNow (s : State) : List TickSec := if s.fab.clockAt = clockOf s.now then s.fab.clock else []

/-- An entry remembered while a fabric clock runs in which something has reached a count tile. -/
def clockKeep (s : State) (e : JEntry) : State :=
  if (clockNow s).isEmpty then s
  else s.putFab { s.fab with clockLog := ⟨s.fab.clockTile, e, s.getBytes (jrnSlot (s.get F.JRN_HEAD_HEAD)) 32⟩ :: s.fab.clockLog }

/-- The device writes an entry whole at its slot, then advances JRN_HEAD; a CLASS 0 entry sets JRN_NEW. -/
def State.journalPut (s : State) (e : JEntry) : State :=
  let n := s.get F.JRN_HEAD_HEAD
  let s := (clockKeep s e).putBytes (jrnSlot n) (e.bytes n)
  let s := s.bumpWrap F.JRN_HEAD_HEAD
  if e.cls = 0 then s.raise F.JRN_STATUS_JRN_NEW else s

/-- An entry of a class that JRN_FILTER lets through. -/
def State.journal (s : State) (e : JEntry) : State := if jrnWanted s e.cls then s.journalPut e else s

/-- The word that fields of one register make (R387). -/
def regWord (s : State) (fs : List Fld) (i : Nat) : Nat := fs.foldl (fun a f => a + s.get f i * 2 ^ (f.bit % 32)) 0

/-- An entry at the present tick with no detail. -/
def State.note (s : State) (cls blk flag obj objStat : Nat) : State :=
  s.journal ⟨cls, blk, flag, obj, s.now, objStat, []⟩

/-- An entry of CLASS 3, an episode that only increments a counter, with the count in its detail bytes (R387). -/
def State.countNote (s : State) (blk flag obj objStat count : Nat) : State :=
  s.journal ⟨3, blk, flag, obj, s.now, objStat, leBytes 4 count⟩

/-! ### The Gust queue (R137 to R139, R383 to R385) -/

/-- First address of the Gust queue. -/
def gustBase : Nat := 0x660000

/-- Address of the slot of an index. -/
def gustSlot (i : Nat) : Nat := gustBase + 32 * (i % 2048)

/-- Entries held: (WR - RD) mod 4,096. -/
def State.gustCount (s : State) : Nat :=
  (s.get F.JRN_GQ_STAT_WR + 4096 - s.get F.JRN_GQ_STAT_RD) % 4096

/-- JRN_GQ_LEVEL follows the count, and GQ_LEVEL is set while the count is at or above a threshold other than 0 (R15). -/
def State.gustLevel (s : State) : State :=
  let c := s.gustCount
  let s := s.set F.JRN_GQ_LEVEL_COUNT 0 c
  let th := s.get F.JRN_GQ_LEVEL_GQ_THRESH
  if th ≠ 0 ∧ th ≤ c then s.raise F.JRN_STATUS_GQ_LEVEL else s

/-- The write index advances after the entry's bytes stand in its slot. -/
def State.gustAppend (s : State) (bs : List Byte) : State :=
  let wr := s.get F.JRN_GQ_STAT_WR
  let s := s.putBytes (gustSlot wr) ((bs ++ List.replicate 32 0).take 32)
  (s.set F.JRN_GQ_STAT_WR 0 (wr + 1)).gustLevel

/-- A dropped entry counted in the open GAP entry and in JRN_DROP_CNT (R139). -/
def State.gustDrop (s : State) (ts : Nat) : State :=
  let a := gustSlot (s.get F.JRN_GQ_STAT_WR + 4095)
  let cnt := ofLeBytes (s.getBytes (a + 4) 4)
  let s := s.putBytes (a + 4) (leBytes 4 (satInc 32 cnt))
  let s := s.putBytes (a + 13) (leBytes 5 (ts40 ts))
  s.bump F.JRN_DROP_CNT_DROPS

/-- The GAP entry opened by the first drop. -/
def gapBytes (ts : Nat) : List Byte :=
  leBytes 1 1 ++ leBytes 3 0 ++ leBytes 4 1 ++ leBytes 5 (ts40 ts) ++ leBytes 5 (ts40 ts) ++ leBytes 14 0

/-- An entry offered to the queue: written while at least two slots are free, or while no more than 2,046 are held;
with 2,047 held a GAP entry takes the last slot and the entry is dropped; with none free it is dropped (R139). -/
def State.gust (s : State) (ts : Nat) (bs : List Byte) : State :=
  if s.gustCount < 2047 then s.gustAppend bs
  else if s.gustCount = 2047 then
    let s := (s.gustAppend (gapBytes ts)).raise F.JRN_STATUS_GQ_GAP
    (s.raise F.JRN_GQ_STAT_GAP_OPEN).bump F.JRN_DROP_CNT_DROPS
  else s.gustDrop ts

/-- An entry of TYPE 0x20 + k, which GQ_KINDS selects (R385). -/
def State.gustKind (s : State) (k obj ts : Nat) (rest : List Byte) : State :=
  if bitAt (s.get F.JRN_FILTER_GQ_KINDS) k then
    s.gust ts (leBytes 1 (0x20 + k) ++ leBytes 1 obj ++ leBytes 2 0 ++ leBytes 5 (ts40 ts) ++ rest)
  else s

/-! ### Access errors (R374) -/

/-- The kinds of access error, in the order of their codes from 1. -/
inductive AccKind where
  | static_ | state_ | unaligned | unmapped | owner | busy | port_ | protected_ | half
  deriving DecidableEq, Repr, Inhabited

/-- The code of a kind. -/
def AccKind.code : AccKind → Nat
  | .static_ => 1 | .state_ => 2 | .unaligned => 3 | .unmapped => 4 | .owner => 5 | .busy => 6 | .port_ => 7
  | .protected_ => 8 | .half => 9

/-- An access error of a port: ACC_ERR and ACC_CNT, and the first record while HPS_ERR is not VALID (R374). -/
def State.accErr (s : State) (p : HPort) (addr : Nat) (write : Bool) (k : AccKind) : State :=
  let s := s.raise (F.HPS_STATUS_ACC_ERR.port p.toNat)
  let s := s.bump (F.HPS_CNT_ACC_CNT.port p.toNat)
  if s.flag (F.HPS_ERR_VALID.port p.toNat) then s
  else
    let s := s.set (F.HPS_ERR_ADDR.port p.toNat) 0 addr
    let s := s.set (F.HPS_ERR_KIND.port p.toNat) 0 k.code
    let s := s.setFlag (F.HPS_ERR_WRITE.port p.toNat) 0 write
    s.raise (F.HPS_ERR_VALID.port p.toNat)

/-! ### Marks for the pair (R354, R362) -/

/-- A verdict indicator of R354 raised in this cycle. -/
def State.indicate (s : State) : State := s.putIndicAt (s.cycle + 1)

/-- A check of R362 failed within its latency after the last takeover, from t_d or a later tick on. -/
def State.firstErrFrom (s : State) (f : Fld) (latency from_ : Nat) : State :=
  match s.tookOver with
  | some t => if s.now ≤ max t from_ + latency then (s.raise f).raise F.URED_STATUS_FIRST_ERR else s
  | none => s

/-- A check of R362 whose latency runs from t_d. -/
def State.firstErr (s : State) (f : Fld) (latency : Nat) : State := s.firstErrFrom f latency 0

/-- The tick since the last takeover at which an output first closed, or a line of the traction link was first driven (R362). -/
def State.firstTick (s : State) (i : Nat) : Nat := (s.link.firsts.getD i none).getD 0

/-! ### Channels, points, sections by index -/

def State.chan (s : State) (n : Nat) : Chan := nth s.chans n
def State.point (s : State) (n : Nat) : Point := nth s.points n
def State.sec (s : State) (n : Nat) : Sec := nth s.secs n
def State.pin (s : State) (n : Nat) : Pin := nth s.pins n

def State.updChan (s : State) (n : Nat) (f : Chan → Chan) : State := { s with chans := upd s.chans n f }
def State.updPoint (s : State) (n : Nat) (f : Point → Point) : State := { s with points := upd s.points n f }
def State.updSec (s : State) (n : Nat) (f : Sec → Sec) : State := { s with secs := upd s.secs n f }
def State.updPin (s : State) (n : Nat) (f : Pin → Pin) : State := { s with pins := upd s.pins n f }

/-- A state change repeated for each element of a list, in order. -/
def forEach {α : Type} (l : List α) (s : State) (f : State → α → State) : State := l.foldl f s

/-- A state change repeated for each index below `n`, in order. -/
def forN (n : Nat) (s : State) (f : State → Nat → State) : State := (List.range n).foldl f s

/-! ### Rounding (Config): a quotient whose rounding the spec does not state is the floor plus a free 0 or 1 -/

/-- A rounded quotient: exact where the division is exact, else the floor plus the implementation's free choice. -/
def qdiv (num den : Int) : Int :=
  if den = 0 then Config.divZero num
  else if num % den = 0 then num / den
  else num / den + b2n (Config.roundUp num den)

/-- A quotient rounded to the nearest integer; an exact half goes where the implementation puts it. -/
def nearest (num den : Int) : Int :=
  if den = 0 then Config.divZero num
  else
    let q := num / den
    let r := 2 * (num % den)
    if r < den then q else if den < r then q + 1 else q + b2n (Config.tieUp num den)

/-- A signed value written in a field of `w` bits; a value outside the format is the implementation's. -/
def fitS (w : Nat) (x : Int) : Nat :=
  if -((2 ^ (w - 1) : Nat) : Int) ≤ x ∧ x < ((2 ^ (w - 1) : Nat) : Int) then ofSigned w x else Config.outOfRange w x % 2 ^ w

/-- An unsigned value written in a field of `w` bits; a value outside the format is the implementation's. -/
def fitU (w : Nat) (x : Int) : Nat :=
  if 0 ≤ x ∧ x < ((2 ^ w : Nat) : Int) then x.toNat else Config.outOfRange w x % 2 ^ w

/-- A square root rounded to a whole number: exact for a square, else the floor plus the implementation's choice. -/
def rootOf (n : Nat) : Nat :=
  let r := isqrt n
  if r * r = n then r else r + b2n (Config.sqrtUp n)

/-- The root of a rational number: exact for the square of a whole number, else the floor plus the implementation's choice. -/
def ratRoot (r : Rat) : Nat :=
  let n := r.floor.toNat
  let q := isqrt n
  if ((q * q : Nat) : Rat) = r then q else q + b2n (Config.sqrtUp n)

/-- Cosine and sine of a phase (LSB 2π ÷ 65,536), exact at the quarter turns, in units of 2^−62. -/
def cosQ (ph : Nat) : Int :=
  if ph = 0 then 2 ^ 62 else if ph = 16384 then 0 else if ph = 32768 then -(2 ^ 62) else if ph = 49152 then 0 else Config.cosOf ph
def sinQ (ph : Nat) : Int :=
  if ph = 0 then 0 else if ph = 16384 then 2 ^ 62 else if ph = 32768 then 0 else if ph = 49152 then -(2 ^ 62) else Config.sinOf ph

end Sys2Proof.Machine
end

