-- ==== Sys2Proof/Machine/Records.lean ====
section
/-!
DEFINITION. The axle records as they lie in working memory (R143, R144): their fields, their flags, the slots in use.
-/

namespace Sys2Proof.Machine

/-! ### Records (R144) -/

def ledgBase : Nat := 0x600000
def slots : Nat := 4096

def recAddr (i : Nat) : Nat := ledgBase + 96 * i
def recGet (s : State) (i off n : Nat) : Nat := ofLeBytes (s.getBytes (recAddr i + off) n)
def recPut (s : State) (i off n v : Nat) : State := s.putBytes (recAddr i + off) (leBytes n v)
def recBytes (s : State) (i : Nat) : List Byte := s.getBytes (recAddr i) 96

def axleId (s : State) (i : Nat) : Nat := recGet s i 0 4
def recMembers (s : State) (i : Nat) : Nat := recGet s i 6 6
def recFlag (s : State) (i b : Nat) : Bool := bitAt (recGet s i 5 1) b
def recSetFlag (s : State) (i b : Nat) (v : Bool) : State := recPut s i 5 1 (putBit (recGet s i 5 1) b v)

/-- Bits of FLAGS. -/
def fLapsed : Nat := 0
def fPartial : Nat := 1
def fSlip : Nat := 2
def fInserted : Nat := 3
def fShadow : Nat := 4
def fProv : Nat := 5
def fVirt : Nat := 6

/-- The slots that hold a record. -/
def liveSlots (s : State) : List Nat := (List.range slots).filter (fun i => axleId s i != 0)

/-- The slot of an axle. -/
def slotOf (s : State) (id : Nat) : Option Nat :=
  if id = 0 then none else (List.range slots).find? (fun i => axleId s i == id)

/-- Membership as a mask of sections. -/
def secMask (l : List Nat) : Nat := maskOf 48 (fun n => l.contains n)

end Sys2Proof.Machine
end

