-- ==== Sys2Proof/Machine/Sections.lean ====
section
/-!
DEFINITION. Counting points, sections and restores: the derived channel and counting-point states (R28, R29), occupancy
(R27), counts (R162 to R164), disturbances (R166 to R168, R175), Lull of sections (R187), transfers of moving sections
(R177, R178), and the ledger evidence that a section's transitions start and end (R158).
-/

namespace Sys2Proof.Machine

/-! ### Derived states -/

/-- The channel state of R28. -/
def chState (s : State) (c : Nat) : Nat :=
  let ch := s.chan c
  let ot := s.chan (if c % 2 = 0 then c + 1 else c - 1)
  if ch.faulty then 6
  else if (s.point (c / 2)).blind then 5
  else if !ch.on then 0
  else if ot.on then (if ch.met && ot.met then 4 else 1)
  else if ch.met then (if c % 2 = 0 then 2 else 3)
  else 1

/-- The sensor point of a physical counting point in use (R20). -/
def cpPoint (s : State) (c : Nat) : Option Nat :=
  if c < 24 ∧ s.flag F.WEV_CPc_MAP_VALID c then some (s.get F.WEV_CPc_MAP_SP c) else none

/-- The counting point a sensor point is mapped to. -/
def pointCp (s : State) (n : Nat) : Option Nat :=
  (List.range 24).find? (fun c => s.flag F.WEV_CPc_MAP_VALID c && s.get F.WEV_CPc_MAP_SP c == n)

/-- The code of ENTRY. -/
def Entry.code : Entry → Nat
  | .none => 0 | .a => 1 | .b => 2 | .unknown => 3

/-- The code of SEQ. -/
def Seq.code : Seq → Nat
  | .idle => 0 | .aIn => 1 | .bIn => 2 | .ab => 3 | .bOut => 4 | .aOut => 5 | .holdP => 6 | .holdN => 7
  | .aLeft => 8 | .bLeft => 9

/-- The state with WEV_SPn_STATE of a point as a port reads it: the sequencer, the channels' states, a threshold pending. -/
def pointShown (s : State) (p : Nat) : State :=
  let q := s.point p
  let s := (s.set F.WEV_SPn_STATE_SEQ p q.seq.code).set F.WEV_SPn_STATE_ENTRY p q.entry.code
  let s := (s.set F.WEV_SPn_STATE_STATE_A p (chState s (2 * p))).set F.WEV_SPn_STATE_STATE_B p (chState s (2 * p + 1))
  s.setFlag F.WEV_SPn_STATE_THR_PEND p (match q.pend with
    | some v => (List.range 2).any (fun j => nth v.onThr j != s.get F.WEV_CHn_THR_ON_THR (2 * p + j)
        || nth v.offThr j != s.get F.WEV_CHn_THR_OFF_THR (2 * p + j))
    | none => false)

/-- WEV_SPn_STATE as one word. -/
def pointWord (s : State) (p : Nat) : Nat :=
  regWord (pointShown s p) [F.WEV_SPn_STATE_SEQ, F.WEV_SPn_STATE_ENTRY, F.WEV_SPn_STATE_STATE_A, F.WEV_SPn_STATE_STATE_B,
    F.WEV_SPn_STATE_THR_PEND, F.WEV_SPn_STATE_DIR_LAST, F.WEV_SPn_STATE_HYST_LOW_A, F.WEV_SPn_STATE_HYST_LOW_B] p

/-- SECT_VCPk_STAT as one word. -/
def vcpWord (s : State) (k : Nat) : Nat :=
  regWord s [F.SECT_VCPk_STAT_STATE, F.SECT_VCPk_STAT_LATE, F.SECT_VCPk_STAT_OUT_OF_RANGE, F.SECT_VCPk_STAT_PORT_FAULT] k

/-- The status word of a counting point: of its sensor point, or of the virtual point. -/
def cpWord (s : State) (c : Nat) : Nat :=
  if c < 24 then (match cpPoint s c with | some p => pointWord s p | none => 0) else vcpWord s (c - 24)

/-- The state of a counting point (R29): the first row that applies, a virtual point as its boundary unit reports it. -/
def cpState (s : State) (c : Nat) : Nat :=
  if c < 24 then
    match cpPoint s c with
    | none => 7
    | some n =>
      let a := chState s (2 * n)
      let b := chState s (2 * n + 1)
      if a = 6 ∨ b = 6 then 4
      else if a = 5 ∨ b = 5 then 3
      else if a = 1 ∨ b = 1 then 1
      else if (2 ≤ a ∧ a ≤ 4) ∨ (2 ≤ b ∧ b ≤ 4) then 2
      else 0
  else s.get F.SECT_VCPk_STAT_STATE (c - 24)

/-- Boundary `k` of section `n`: in use, counting point, entry sense, aligned (SECT_n_BND0 and _BND1). -/
structure Boundary where
  valid : Bool
  cp : Nat
  sense : Bool
  aligned : Bool
  deriving DecidableEq, Repr, Inhabited

/-- The fields of a boundary; boundary k lies in byte k of the two registers. -/
def bnd (s : State) (n k : Nat) : Boundary :=
  { valid := s.flag (F.SECT_n_BND_VALID.offB (8 * k)) n
    cp := s.get (F.SECT_n_BND_CP.offB (8 * k)) n
    sense := s.flag (F.SECT_n_BND_SENSE.offB (8 * k)) n
    aligned := s.flag (F.SECT_n_BND_ALIGNED.offB (8 * k)) n }

/-- The boundaries of a section in use. -/
def bnds (s : State) (n : Nat) : List Boundary := ((List.range 8).map (bnd s n)).filter (fun b => b.valid)

/-- The boundary at which a section names a counting point. -/
def bndAt (s : State) (n c : Nat) : Option Boundary := (bnds s n).find? (fun b => b.cp == c)

/-- The sections a counting point bounds, in order of their index. -/
def secsOf (s : State) (c : Nat) : List Nat := (List.range 48).filter (fun n => (bndAt s n c).isSome)

/-- A section with boundaries (USED). -/
def secUsed (s : State) (n : Nat) : Bool := s.get F.SECT_n_CFG_NBND n != 0

/-- Occupied for every output (R27). -/
def secOcc (s : State) (n : Nat) : Bool := s.get F.SECT_n_STATE_STATE n != 0 || s.flag F.SECT_n_STATE_EARLY n

/-- Section in Lull. -/
def secLull (s : State) (n : Nat) : Bool := s.flag F.SECT_n_STATE_LULL n

/-- Every section a counting point bounds is in Lull. -/
def cpLull (s : State) (c : Nat) : Bool := (secsOf s c).all (secLull s)

/-- The register word SECT_n_STATE with OCC as R27 derives it, which journal entries of a section carry. -/
def secWord (s : State) (n : Nat) : Nat :=
  s.get F.SECT_n_STATE_STATE n + 4 * s.get F.SECT_n_STATE_EARLY n + 8 * b2n (secOcc s n)
    + 16 * s.get F.SECT_n_STATE_LULL n + 32 * s.get F.SECT_n_STATE_MOVING n + 64 * s.get F.SECT_n_STATE_SINGLE n
    + 128 * s.get F.SECT_n_STATE_MULTI n + 256 * s.get F.SECT_n_STATE_CAUSE n
    + 4096 * s.get F.SECT_n_STATE_CAUSE_CP n + 2 ^ 18 * s.get F.SECT_n_STATE_ID_READY n
    + 2 ^ 19 * s.get F.SECT_n_STATE_STBY_AGREE n + 2 ^ 20 * s.get F.SECT_n_STATE_USED n

/-- A CLASS 0 journal entry of a section with its count in the detail bytes (R387). -/
def secNote (s : State) (n flag : Nat) : State :=
  s.journal ⟨0, 0x06, flag, n, s.now, secWord s n, leBytes 4 (s.get F.SECT_n_CNT_COUNT n)⟩

/-! ### Causes of a disturbance (R167) -/

inductive Cause where
  | startup | cpFaulty | cpBlind | seqFault | underflow | overflow | align | takeover | divergence | host
  deriving DecidableEq, Repr, Inhabited

def Cause.code : Cause → Nat
  | .startup => 1 | .cpFaulty => 2 | .cpBlind => 3 | .seqFault => 4 | .underflow => 5 | .overflow => 6
  | .align => 7 | .takeover => 8 | .divergence => 9 | .host => 10

/-- No counting point. -/
def noCp : Nat := 63

/-- The ledger holds a member of a section whose identity has lapsed (R156, R158). -/
def lapsedIn (s : State) (n : Nat) : Bool :=
  s.get F.LEDG_STATUS_IN_FLIGHT != 0 && (liveSlots s).any (fun i => recFlag s i fLapsed && bitAt (recMembers s i) n)

/-- A disturbance applied to a section (R166 to R168). In a running episode the cause sets MULTI, ends a SINGLE that is still watched
(R175) and is journaled; otherwise an episode begins with this cause, and the ledger's evidence window with it (R158). `watch` names
the point and the channel Y of R175 when SINGLE holds. -/
def distApply (s : State) (n : Nat) (d : Dist) : State :=
  let s := s.updSec n (fun x => { x with touched := true })
  if s.get F.SECT_n_STATE_STATE n = 2 then
    let s := s.raise F.SECT_n_STATE_MULTI n
    let s := if (s.sec n).watch.isSome then s.lower F.SECT_n_STATE_SINGLE n else s
    let s := s.updSec n (fun x => { x with watch := none })
    secNote s n 0xFF
  else
    let s := s.set F.SECT_n_STATE_STATE n 2
    let s := s.set F.SECT_n_STATE_CAUSE n d.cause
    let s := s.set F.SECT_n_STATE_CAUSE_CP n d.cp
    let s := s.lower F.SECT_n_STATE_MULTI n
    let s := s.setFlag F.SECT_n_STATE_SINGLE n d.watch.isSome
    let s := s.updSec n (fun x => { x with watch := d.watch })
    let s := s.raise F.LEDG_SECn_EVID n
    let s := if lapsedIn s n then s.raise F.LEDG_SECn_BAD_LAPSED n else s
    let s := s.raise F.SECT_STATUS_DIST_NEW
    secNote s n 0

/-- Some passage port of the fabric carries a counting point (R216): without one, none of its events reaches a tile. -/
def portCarries (s : State) (c : Nat) : Bool :=
  (List.range 4).any (fun q => (List.range 16).any (fun k =>
    s.flag (F.FAB_PPq_k_VALID.offB (0x40 * 8 * q)) k && s.get (F.FAB_PPq_k_CP.offB (0x40 * 8 * q)) k == c))

/-- The evidence window of a section ends (R158): EVID and every BAD bit clear. -/
def evidEnd (s : State) (n : Nat) : State :=
  let s := s.lower F.LEDG_SECn_EVID n
  let s := s.lower F.LEDG_SECn_BAD_DIST n
  let s := s.lower F.LEDG_SECn_BAD_LAPSED n
  let s := s.lower F.LEDG_SECn_BAD_VIRT n
  s.lower F.LEDG_SECn_BAD_ALIGN n

/-- A section becomes CLEAR out of an episode (R168): the fields of the episode clear, and the ledger's cover is whole again
(R158: COVER_LOST clears only when the section is CLEAR). -/
def clearEpisode (s : State) (n : Nat) : State :=
  let s := s.set F.SECT_n_STATE_STATE n 0
  let s := s.set F.SECT_n_STATE_CAUSE n 0
  let s := s.set F.SECT_n_STATE_CAUSE_CP n noCp
  let s := s.lower F.SECT_n_STATE_SINGLE n
  let s := s.lower F.SECT_n_STATE_MULTI n
  let s := s.updSec n (fun x => { x with watch := none })
  evidEnd (s.lower F.LEDG_SECn_COVER_LOST n) n

/-! ### Counts (R162 to R164, R166, R173) -/

/-- The lowest counting point of a list of passages in one sense. -/
def lowestCp (moves : List (Nat × Bool)) (inward : Bool) : Nat :=
  ((moves.filter (fun m => m.2 == inward)).map (·.1)).foldl min noCp

/-- The inward passages since the count was last 0 (R173), with those of this fabric clock. -/
def sweepAxles (s : State) (n c0 ins : Nat) : Nat := satAdd 8 (if c0 = 0 then 0 else s.get F.SECT_n_CNT_SWEEP_AXLES n) ins

/-- SECT_n_STATE and the sweep after a count that stayed within its limits: `c0` before, `c1` after, `ins` inward
passages in this fabric clock. A count that starts and ends the clock at 0 has not left it. Restoring by a sweep is reported by the
second component. -/
def stepSec (s : State) (n c0 c1 ins : Nat) : State × Bool :=
  let ax := sweepAxles s n c0 ins
  let t := if c0 = 0 ∧ c1 = 0 then s else s.set F.SECT_n_CNT_SWEEP_AXLES n (if c1 = 0 then 0 else ax)
  match s.get F.SECT_n_STATE_STATE n with
  | 2 => (t, false)
  | 3 =>
    if c0 ≠ 0 ∧ c1 = 0 ∧ s.get F.SECT_n_CFG_SWEEP_MIN n ≤ ax then
      let s := clearEpisode (s.set F.SECT_n_CNT_SWEEP_AXLES n ax) n
      (secNote (s.raise F.SECT_STATUS_RESTORED) n 1, true)
    else (t, false)
  | st =>
    let s := t
    let st' := if c1 = 0 then 0 else 1
    if st' = st then (s, false)
    else
      let s := s.set F.SECT_n_STATE_STATE n st'
      (secNote (if c1 = 0 then s.lower F.LEDG_SECn_COVER_LOST n else s) n 0xFF, false)

/-- All passages that reach a section's count tile in one fabric clock, applied as one signed sum: each names its
counting point and whether it counts inward. -/
def moveSec (s : State) (n : Nat) (moves : List (Nat × Bool)) : State × Bool :=
  let ins := (moves.filter (fun m => m.2)).length
  let outs := moves.length - ins
  let c0 := s.get F.SECT_n_CNT_COUNT n
  let s := s.updSec n (fun x => { x with touched := true })
  if c0 + ins < outs then
    let s := ((s.set F.SECT_n_CNT_COUNT n 0).set F.SECT_n_CNT_SWEEP_AXLES n 0).bump F.SECT_n_CNT_LIMIT_CNT n
    (distApply (s.raise F.SECT_STATUS_LIMIT) n ⟨Cause.underflow.code, lowestCp moves false, none⟩, false)
  else if 4095 < c0 + ins - outs then
    let s := (s.set F.SECT_n_CNT_COUNT n 4095).set F.SECT_n_CNT_SWEEP_AXLES n (sweepAxles s n c0 ins)
    let s := s.bump F.SECT_n_CNT_LIMIT_CNT n
    (distApply (s.raise F.SECT_STATUS_LIMIT) n ⟨Cause.overflow.code, lowestCp moves true, none⟩, false)
  else
    let c1 := c0 + ins - outs
    stepSec (s.set F.SECT_n_CNT_COUNT n c1) n c0 c1 ins

/-! ### Passages at a counting point (R24, R177, R178) -/

/-- The alignment entries in use at a counting point. -/
def alnOf (s : State) (c : Nat) : List Nat :=
  (List.range 32).filter (fun j => s.flag F.SECT_ALNj_CFG_VALID j && s.get F.SECT_ALNj_CFG_CP j == c)

/-- The position in an entry's frame lies in its window: the bound port of its moving section, latched with the passage. -/
def alnHit (s : State) (lat : List (Nat × Int)) (j : Nat) : Bool :=
  let p := nth lat (s.get F.SECT_n_CFG_PORT (s.get F.SECT_ALNj_CFG_MSEC j))
  p.1 != 3 && decide (s.getS40 F.SECT_ALNj_MIN_L_MIN j ≤ p.2) && decide (p.2 ≤ s.getS40 F.SECT_ALNj_MAX_L_MAX j)

/-- The sections a passage counts in or out of: its boundaries that are not aligned, and the fixed section of the one
entry whose window contains the position. `pos` is a passage in the track's positive sense. -/
def countMoves (s : State) (c : Nat) (pos : Bool) (lat : List (Nat × Int)) : List (Nat × Bool) :=
  let hits := (alnOf s c).filter (alnHit s lat)
  if !portCarries s c then []
  else (List.range 48).filterMap (fun n =>
    match bndAt s n c with
    | none => none
    | some b =>
      if !b.aligned || hits.any (fun j => s.get F.SECT_ALNj_CFG_FSEC j == n) then some (n, pos != b.sense) else none)

/-- The sections that a passage outside every window disturbs (R178): the moving and the fixed sections of the point's
entries; none where the point has no entry or a window contains the position, or where no passage port carries the point. -/
def alignMiss (s : State) (c : Nat) (lat : List (Nat × Int)) : List Nat :=
  let es := alnOf s c
  if es.isEmpty || es.any (alnHit s lat) || !portCarries s c then []
  else (List.range 48).filter (fun n => es.any (fun j => s.get F.SECT_ALNj_CFG_MSEC j == n || s.get F.SECT_ALNj_CFG_FSEC j == n))

/-- The departure and arrival sets of a passage (R141). -/
def depArr (moves : List (Nat × Bool)) : List Nat × List Nat :=
  ((moves.filter (fun m => !m.2)).map (·.1), (moves.filter (fun m => m.2)).map (·.1))

/-! ### One fabric clock (R164, R173, R211, R219) -/

/-- The register fields that a fabric clock can change for a section, as field and index: the section's own, the evidence that other
steps may add to, and the summary flags with JRN_NEW. -/
def clockOwn (n : Nat) : List (Fld × Nat) :=
  [F.SECT_n_CNT_COUNT, F.SECT_n_CNT_LIMIT_CNT, F.SECT_n_CNT_SWEEP_AXLES, F.SECT_n_STATE_STATE, F.SECT_n_STATE_CAUSE,
    F.SECT_n_STATE_CAUSE_CP, F.SECT_n_STATE_MULTI, F.SECT_n_STATE_SINGLE, F.LEDG_SECn_EVID].map (fun f => (f, n))
def clockSticky (n : Nat) : List (Fld × Nat) :=
  [F.LEDG_SECn_BAD_DIST, F.LEDG_SECn_BAD_LAPSED, F.LEDG_SECn_BAD_VIRT, F.LEDG_SECn_BAD_ALIGN, F.LEDG_SECn_COVER_LOST].map (fun f => (f, n))
def clockShared : List (Fld × Nat) :=
  [(F.SECT_STATUS_LIMIT, 0), (F.SECT_STATUS_DIST_NEW, 0), (F.SECT_STATUS_RESTORED, 0), (F.JRN_STATUS_JRN_NEW, 0)]

/-- Fields read, and written, in order. -/
def readAll (s : State) (l : List (Fld × Nat)) : List Nat := l.map (fun f => s.get f.1 f.2)
def writeAll (s : State) (l : List (Fld × Nat)) (v : List Nat) : State := forEach (l.zip v) s (fun s x => s.set x.1.1 x.1.2 x.2)

/-- A section's part in the running clock: what it has received, or nothing yet and its fields as they stand. -/
def tickSec (s : State) (l : List TickSec) (n : Nat) : TickSec :=
  (l.find? (fun e => e.sec == n)).getD ⟨n, [], [], readAll s (clockOwn n ++ clockSticky n), (s.sec n).watch, false⟩

/-- A section as it stood before the present fabric clock; evidence that has been set since stays set. -/
def clockBack (s : State) (e : TickSec) : State :=
  let s := writeAll s (clockOwn e.sec) e.saved
  let s := forEach ((clockSticky e.sec).zip (e.saved.drop 9)) s (fun s x => s.set x.1.1 x.1.2 (max x.2 (s.get x.1.1 x.1.2)))
  s.updSec e.sec (fun x => { x with watch := e.watch })

/-- What a section has received in the clock applied: the passages as one signed sum, then the disturbances (R31, R164). -/
def clockRun (s : State) (e : TickSec) : State × TickSec :=
  let r := if e.moves.isEmpty then (s, false) else moveSec s e.sec e.moves
  (forEach e.dists r.1 (fun s d => distApply s e.sec d), { e with swept := r.2 })

/-- The entry that stands last in the journal taken back. -/
def jrnBack (s : State) (e : ClockEntry) : State :=
  let n := s.get F.JRN_HEAD_HEAD + 2 ^ 32 - 1
  (s.set F.JRN_HEAD_HEAD 0 n).putBytes (jrnSlot (n % 2 ^ 32)) e.was

/-- The journal without the entries of the running clock's tiles: the ring goes back to where it stood before the clock, and what
anything else has written since is written again. JRN_NEW stays where one of those entries, or the time before the clock, set it. -/
def clockJournal (s : State) : State :=
  let log := s.fab.clockLog
  let kept := (log.filter (fun e => !e.tile)).reverse
  let new := s.flag F.JRN_STATUS_JRN_NEW && (nth s.fab.clockPre 3 != 0 || kept.any (fun e => e.entry.cls == 0))
  let t := forEach log s jrnBack
  let t := forEach kept (t.putFab { t.fab with clockLog := [] }) (fun t e => t.journalPut e.entry)
  t.setFlag F.JRN_STATUS_JRN_NEW 0 new

/-- The summary flags without what the running clock's tiles have raised. -/
def clockFlags (s : State) : State :=
  forEach (clockShared.take 3 |>.zip s.fab.clockPre) s (fun s x => s.set x.1.1 x.1.2 (min x.2 (s.get x.1.1 x.1.2)))

/-- The sections run through a clock, in order; the entries they write are the tiles'. -/
def clockRuns (s : State) (es : List TickSec) : State :=
  let r := es.foldl (fun (acc : State × List TickSec) e => let r := clockRun acc.1 e; (r.1, acc.2 ++ [r.2]))
    (s.putFab { s.fab with clock := es, clockTile := true }, [])
  r.1.putFab { r.1.fab with clock := r.2, clockTile := false }

/-- A running clock begins with the first thing that reaches a tile in it. -/
def clockOpen (s : State) : State :=
  if (clockNow s).isEmpty then
    s.putFab { s.fab with clockAt := clockOf s.now, clock := [], clockPre := readAll s clockShared, clockLog := [] }
  else s

/-- What reaches count tiles joined to what has reached them in the running clock. -/
def clockJoin (s : State) (old add : List TickSec) : List TickSec :=
  add.foldl (fun l a =>
    let e := tickSec s l a.sec
    let e := { e with moves := e.moves ++ a.moves, dists := e.dists ++ a.dists }
    if l.any (fun x => x.sec == a.sec) then l.map (fun x => if x.sec = a.sec then e else x) else l ++ [e]) old

/-- A passage or disturbances that reach count tiles. With what has reached tiles in the same fabric clock they are applied as if all
had come at once (R164, R211): the sections, the summary flags and the tiles' journal entries go back to where they stood before the
clock, and the clock is run again. -/
def clockTake (s : State) (add : List TickSec) : State :=
  let s := clockOpen s
  let es := clockJoin s (clockNow s) add
  clockRuns (clockFlags (clockJournal (forEach (clockNow s) s clockBack))) es

/-- What the cores write to a section stands apart from what has reached its tile before (R212): it, its journal entries and the flags
that it raised are final. -/
def clockForget (s : State) (n : Nat) : State :=
  s.putFab { s.fab with
    clock := s.fab.clock.filter (fun e => e.sec != n)
    clockLog := s.fab.clockLog.map (fun e => { e with tile := e.tile && e.entry.obj != n })
    clockPre := (s.fab.clockPre.zip (readAll s clockShared)).map (fun x => max x.1 x.2) }

/-- A flag of SECT_STATUS raised by the cores: no clock of the tiles takes it back. -/
def raiseShared (s : State) (f : Fld) (i : Nat) : State :=
  (s.raise f).putFab { s.fab with clockPre := upd s.fab.clockPre i (fun _ => 1) }

/-- What a section that is not in use reads (R165), once a change in COMMISSIONING has left it without boundaries: CLEAR, a count of 0. -/
def secUnused (s : State) (n : Nat) : State :=
  if secUsed s n || !s.counting || s.get F.SECT_n_STATE_STATE n = 0 then s
  else
    let s := clockForget s n
    let s := ((s.set F.SECT_n_STATE_STATE n 0).set F.SECT_n_CNT_COUNT n 0).set F.SECT_n_CNT_SWEEP_AXLES n 0
    let s := (s.set F.SECT_n_STATE_CAUSE n 0).set F.SECT_n_STATE_CAUSE_CP n noCp
    let s := ((s.lower F.SECT_n_STATE_SINGLE n).lower F.SECT_n_STATE_MULTI n).lower F.SECT_n_STATE_LULL n
    evidEnd (s.updSec n (fun x => { x with watch := none })) n

/-- Sections made DISTURBED (R166 to R168), in order. An unused section stays CLEAR (R165). -/
def distSecs (s : State) (l : List Nat) (c : Cause) (cp : Nat) (watch : Option (Nat × Nat) := none) : State :=
  let l := l.filter (secUsed s)
  if l.isEmpty then s else clockTake s (l.map (fun n => ⟨n, [], [⟨c.code, cp, watch⟩], [], none, false⟩))

/-- A section made DISTURBED. -/
def distSec (s : State) (n : Nat) (c : Cause) (cp : Nat) (watch : Option (Nat × Nat) := none) : State := distSecs s [n] c cp watch

/-- Every section a counting point bounds made DISTURBED, in the order of their index. -/
def distCp (s : State) (cp : Nat) (c : Cause) (watch : Option (Nat × Nat) := none) : State :=
  distSecs s (if portCarries s cp then secsOf s cp else []) c cp watch

/-- Every section made DISTURBED. -/
def distAll (s : State) (c : Cause) : State := distSecs s (List.range 48) c noCp

/-- A passage counted at a counting point (R164), and what a passage outside every alignment window disturbs (R178). -/
def countPassage (s : State) (c : Nat) (pos : Bool) (lat : List (Nat × Int)) : State :=
  let moves := countMoves s c pos lat
  let s := if moves.isEmpty then s else clockTake s (moves.map (fun m => ⟨m.1, [(c, m.2)], [], [], none, false⟩))
  let miss := alignMiss s c lat
  if miss.isEmpty then s else distSecs (s.raise F.SECT_STATUS_ALIGN_ERR) miss .align c

/-! ### SINGLE (R175) -/

/-- A part of the running clock whose watch has ended: SINGLE does not come back when the clock is run again. -/
def TickSec.endWatch (f : Nat × Nat → Option Bool) (e : TickSec) : TickSec :=
  let ends := fun (w : Option (Nat × Nat)) => w.bind f
  { e with
    saved := if ends e.watch = some true then upd e.saved 7 (fun _ => 0) else e.saved
    watch := if (ends e.watch).isSome then none else e.watch
    dists := e.dists.map (fun d => { d with watch := if ends d.watch = some true then none else d.watch }) }

/-- The watches of R175 that end, and whether SINGLE ends with them: `f` tells it of a counting point and a channel Y. -/
def endWatches (s : State) (f : Nat × Nat → Option Bool) : State :=
  let s := forN 48 s (fun s n =>
    match (s.sec n).watch.bind f with
    | some single => (if single then s.lower F.SECT_n_STATE_SINGLE n else s).updSec n (fun x => { x with watch := none })
    | none => s)
  if (clockNow s).isEmpty then s else s.putFab { s.fab with clock := s.fab.clock.map (TickSec.endWatch f) }

/-- SINGLE is ended for every section that watches a channel Y (an onset of Y, Y becoming FAULTY). -/
def endSingleOf (s : State) (y : Nat) : State := endWatches s (fun w => if w.2 = y then some true else none)

/-- Watches whose Y is BLIND while a section of its point is not in Lull end SINGLE; watches whose point's channels are
both READY end with SINGLE kept. -/
def reviewSingle (s : State) : State :=
  endWatches s (fun w =>
    match cpPoint s w.1 with
    | none => none
    | some p =>
      if chState s w.2 = 5 ∧ !cpLull s w.1 then some true
      else if chState s (2 * p) = 0 ∧ chState s (2 * p + 1) = 0 then some false
      else none)

/-! ### Lull of sections (R187) -/

/-- A section leaves Lull in hardware. -/
def secLeaveLull (s : State) (n : Nat) : State :=
  if secLull s n then
    let s := (s.lower F.SECT_n_STATE_LULL n).raise F.SPOS_STATUS_LULL_OFF
    reviewSingle (s.updSec n (fun x => { x with lullExit := true }))
  else s

/-- The sections whose Lull rests on a sensor point: those it bounds, and the host section of an unmapped station. -/
def secsOnPoint (s : State) (p : Nat) : List Nat :=
  (List.range 48).filter (fun n =>
    (bnds s n).any (fun b => cpPoint s b.cp == some p)
      || (s.flag F.LEDG_SPn_CFG_STATION p && (pointCp s p).isNone && s.get F.LEDG_SPn_CFG_HOST_SEC p == n))

/-- The encoder ports a section's Lull rests on: the port bound to it as a moving section, its DRIVE_PORT, and the port
of each virtual boundary with the port of that virtual point's moving section. A section without a DRIVE_PORT, and with no virtual
boundary, rests on none: it declares Lull from its boundaries alone (R188). -/
def portsOfSec (s : State) (n : Nat) : List Nat :=
  (if s.flag F.SECT_n_CFG_MOVING n then [s.get F.SECT_n_CFG_PORT n] else [])
    ++ (if s.flag F.SPOS_SECn_CFG_DRIVE_EN n then [s.get F.SPOS_SECn_CFG_DRIVE_PORT n] else [])
    ++ (bnds s n).flatMap (fun b =>
        if b.cp < 24 then []
        else
          let k := b.cp - 24
          let m := s.get F.SECT_VCPk_CFG_MSEC k
          s.get F.SECT_VCPk_CFG_PORT k :: (if m < 48 then [s.get F.SECT_n_CFG_PORT m] else []))

/-- The conditions of R187 for a section to enter Lull; without a DRIVE_PORT its boundaries alone decide (R188). -/
def secMayLull (s : State) (n : Nat) : Bool :=
  secUsed s n
    && (List.range 24).all (fun p => !(secsOnPoint s p).contains n || (s.point p).lull)
    && (portsOfSec s n).all (fun q => s.flag F.DENC_PORTn_STAT_LULL q)
    && (bnds s n).all (fun b => cpState s b.cp != 4)

/-- A section enters Lull at a boundary. -/
def secEnterLull (s : State) (n : Nat) : State :=
  if !secLull s n && secMayLull s n && !(s.sec n).lullExit then (s.raise F.SECT_n_STATE_LULL n).raise F.SPOS_STATUS_LULL_ON else s

/-- A sensor point leaves Lull, and with it every section whose Lull rests on it (R186, R187). -/
def pointLeaveLull (s : State) (p : Nat) : State :=
  let s := s.updPoint p (fun x => { x with quietSince := s.now })
  if (s.point p).lull then
    let s := s.updPoint p (fun x => { x with lull := false })
    let s := s.lower F.SPOS_SPn_SST_LULL p
    forEach (secsOnPoint s p) s secLeaveLull
  else s

/-! ### Early occupancy (R26, R130) -/

/-- EARLY of every section follows the flanges whose flags are raised. -/
def syncEarly (s : State) : State :=
  forN 48 s (fun s n => s.setFlag F.SECT_n_STATE_EARLY n (s.points.any (fun p => p.early.contains n)))

/-- The flag raised for the sections into which a passage in the point's sense would count. -/
def raiseEarly (s : State) (p : Nat) (neg : Bool) (lat : List (Nat × Int)) : State :=
  match pointCp s p with
  | none => s
  | some c =>
    let pos := neg == s.flag F.WEV_SPn_GEOM_ORIENT p
    let secs := ((countMoves s c pos lat).filter (fun m => m.2 && s.flag F.SECT_n_CFG_EARLY_EN m.1)).map (·.1)
    syncEarly (s.updPoint p (fun x => { x with early := secs, earlyRaised := !secs.isEmpty }))

/-- The flag of a point's flange cleared. -/
def dropEarly (s : State) (p : Nat) : State :=
  syncEarly (s.updPoint p (fun x => { x with early := [], earlyRaised := false }))

end Sys2Proof.Machine
end

