-- ==== Sys2Proof/Machine/Fabric.lean ====
section
/-!
DEFINITION. The section fabric (09_section_fabric.md): nets (R208), tiles (R210 to R215), output ports (R217), snapshots
(R219, R228), configuration memory, scrubber and double-bit errors (R223 to R227).
-/

namespace Sys2Proof.Machine

/-! ### Configuration words -/

/-- First address of the configuration memory window (R227). -/
def cfgBase : Nat := 0x200000

/-- Word `w` of tile `t` (R227). -/
def cfgWord (s : State) (t w : Nat) : Nat := ofLeBytes (s.getBytes (cfgBase + 0x800 * t + 8 * w) 8)

/-- The TYPE of a tile's header. -/
def tileType (s : State) (t : Nat) : Nat := cfgWord s t 0 % 8

/-- The tiles that are not UNUSED: a header's TYPE lies in its lowest byte, which is listed when it is not 0. -/
def usedTiles (s : State) : List Nat :=
  s.mem.filterMap (fun c =>
    if cfgBase ≤ c.1 ∧ c.1 < cfgBase + 0x400000 ∧ (c.1 - cfgBase) % 0x800 = 0 ∧ c.2.toNat % 8 ≠ 0
    then some ((c.1 - cfgBase) / 0x800) else none)

/-- The net named by selector `k` of a tile (R207). -/
def tileSel (s : State) (t k : Nat) : Nat := bitsOf (cfgWord s t (1 + k / 4)) (16 * (k % 4)) 16

/-- The highest output pin of a tile type (R207). -/
def pinsOfType (ty : Nat) : Nat := match ty with | 1 => 6 | 2 => 16 | 3 => 8 | 4 => 16 | _ => 0

/-! ### Nets (R208) -/

/-- The value of a net; a reserved identifier and a net of an unused tile read 0. -/
def netVal (s : State) (n : Nat) : Bool :=
  if n < 0x8000 then bitAt (storeGet 0 s.fab.pins (n / 16)) (n % 16)
  else if n < 0x8020 then cpState s (n - 0x8000) == 0 || cpState s (n - 0x8000) == 2
  else if n < 0x8030 then
    s.flag F.SIO_INj_STAT_VALUE (n - 0x8020) && !s.flag F.SIO_INj_STAT_FAULT (n - 0x8020) && s.flag F.SIO_INj_CFG_EN (n - 0x8020)
  else if n < 0x8040 then s.flag F.DENC_CMPk_STAT_FIRED (n - 0x8030)
  else if n < 0x8044 then s.flag F.DENC_PORTn_STAT_LULL (n - 0x8040)
  else if n < 0x8048 then s.get F.DENC_PORTn_STAT_STATE (n - 0x8044) == 1
  else if n < 0x8080 then false
  else if n < 0x80C0 then bitAt s.fab.rxBits (n - 0x8080)
  else if n < 0x80E0 then bitAt (s.get F.FAB_HDEM_HDEM) (n - 0x80C0)
  else n == 0xFFFF

/-- A reserved identifier (R208, R209). -/
def netReserved (n : Nat) : Bool :=
  !(decide (n < 0x8048) || (decide (0x8080 ≤ n) && decide (n < 0x80E0)) || n == 0xFFFE || n == 0xFFFF)

/-! ### Tiles -/

/-- The output pins of the count tile of a section (R211); that of a section without boundaries drives none (R165). -/
def countPins (s : State) (n : Nat) : Nat :=
  if !secUsed s n then 0 else
  let st := s.get F.SECT_n_STATE_STATE n
  b2n (!secOcc s n) + 2 * b2n (st == 2 || st == 3)
    + 4 * s.get F.SECT_n_STATE_EARLY n + 8 * b2n (secLull s n) + 16 * b2n (s.get F.SECT_n_CNT_COUNT n != 0)
    + 32 * b2n (st == 3)

/-- The output pins of a LOGIC tile (R213): element k looks its six inputs up in its truth table. -/
def logicPins (s : State) (t : Nat) : Nat :=
  maskOf 16 (fun k =>
    let sel := cfgWord s t (10 + 2 * k)
    let i := maskOf 6 (fun j => netVal s (tileSel s t (bitsOf sel (5 * j) 5)))
    bitAt (cfgWord s t (9 + 2 * k)) i)

/-- What a RING_IN channel receives: the selector of the RING_OUT channel that names it back (R215, R233). -/
def ringIn (s : State) (t k : Nat) : Bool :=
  let w := cfgWord s t (9 + k)
  let pt := bitsOf w 16 11
  let pc := bitsOf w 27 4
  let pw := cfgWord s pt (9 + pc)
  tileType s pt == 4 && bitsOf pw 0 2 == 1 && bitsOf pw 16 11 == t && bitsOf pw 27 4 == k && netVal s (tileSel s pt pc)

/-- The output pins of a ROUTE tile (R215). -/
def routePins (s : State) (t : Nat) : Nat :=
  maskOf 16 (fun k =>
    match bitsOf (cfgWord s t (9 + k)) 0 2 with
    | 0 => netVal s (tileSel s t k)
    | 2 => ringIn s t k
    | _ => false)

/-- One filter channel: output and timer from input, previous input, output and timer (R214). `now` decides whether the
running timer has elapsed, `len` is T in ticks. -/
def filterNext (fn len now : Nat) (x prev out : Bool) (timer : Option Nat) : Bool × Option Nat :=
  let done := match timer with | some d => decide (d ≤ now) | none => false
  match fn with
  | 0 => (x, none)
  | 1 => if !x then (false, none) else if out then (true, none) else if done then (true, none)
         else (false, some (timer.getD (now + len)))
  | 2 => if prev && !x then (false, some (now + len))
         else if done then (x, none)
         else if timer.isSome then (false, timer)
         else (x, none)
  | 3 => if x then (true, none) else if !out then (false, none) else if done then (false, none)
         else (true, some (timer.getD (now + len)))
  | 4 => if !x then (false, none) else if !prev then (true, some (now + len))
         else if done then (false, none) else (out, timer)
  | _ => (false, none)

/-- The timer of a filter channel. -/
def filterTimer (s : State) (t k : Nat) : Option Nat :=
  (s.fab.timers.find? (fun x => x.1 == 4 * t + k)).map (·.2)

/-- A FILTER tile after a fabric clock: pins, inputs seen, running timers. -/
def filterClock (s : State) (t : Nat) : Nat × Nat × List (Nat × Nat) :=
  let pins := storeGet 0 s.fab.pins t
  let prev := storeGet 0 s.fab.prev t
  let ch := (List.range 4).map (fun k =>
    let w := cfgWord s t (9 + k)
    let x := netVal s (tileSel s t (bitsOf w 0 5))
    (x, filterNext (bitsOf w 8 3) (600 * bitsOf w 16 24) s.now x (bitAt prev k) (bitAt pins k) (filterTimer s t k)))
  (maskOf 4 (fun k => (nth ch k).2.1) + 16 * maskOf 4 (fun k => (nth ch k).2.2.isSome),
   maskOf 4 (fun k => (nth ch k).1),
   (indexed 0 ch).filterMap (fun x => x.2.2.2.map (fun d => (4 * t + x.1, d))))

/-- The fabric after one fabric clock: every tile in use takes its next pins from the present nets (R219). -/
def fabClock (s : State) : State :=
  let ts := usedTiles s
  let next := ts.map (fun t =>
    match tileType s t with
    | 1 => (t, countPins s (bitsOf (cfgWord s t 9) 32 6), 0, [])
    | 2 => (t, logicPins s t, 0, [])
    | 3 => (t, filterClock s t)
    | 4 => (t, routePins s t, 0, [])
    | _ => (t, 0, 0, []))
  s.putFab ({ s.fab with
      pins := next.foldl (fun l x => storePut 0 l x.1 x.2.1) []
      prev := next.foldl (fun l x => storePut 0 l x.1 x.2.2.1) []
      timers := next.flatMap (fun x => x.2.2.2) })

/-- Fabric clocks until no tile changes, at most `fuel` of them. -/
def fabRun : Nat → State → State
  | 0, s => s
  | fuel + 1, s =>
    let t := fabClock s
    if t.fab = s.fab then s else fabRun fuel t

/-! ### Output ports (R217) -/

/-- A net named by a pair of selectors in one register. -/
def selNet (s : State) (lo hi : Fld) (i : Nat) : Nat := s.get (if i % 2 = 0 then lo else hi) (i / 2)

/-- Every demand is forced to 0: a double-bit error (R226), a refused load (R238), a HALT (R256), FORCE_STOP (R356), a second failed
clock monitor (R404). -/
def demandsForced (s : State) : Bool :=
  s.fab.ue || s.fab.refused || s.flag F.SPU_STATUS_HALTED || s.flag F.URED_STATUS_FORCE_STOP || s.spu.clkForce

/-- The demand at port `k`: SOUT0 to SOUT11, then TL_PERMIT and TL_STILL. -/
def demandAt (s : State) (k : Nat) : Bool :=
  !demandsForced s && netVal s (selNet s F.FAB_OUTSELk_NET_LO F.FAB_OUTSELk_NET_HI k)

/-- The live demands written: the output drivers sample them at the end of every fabric clock (R217). -/
def putDemands (s : State) : State :=
  let s := s.set F.FAB_OUTDEM_SOUT 0 (maskOf 12 (demandAt s))
  (s.setFlag F.FAB_OUTDEM_TLP 0 (demandAt s 12)).setFlag F.FAB_OUTDEM_TLS 0 (demandAt s 13)

/-- The fabric settled on its present inputs. What reaches a count tile reaches its pins in the second fabric clock (R211): while a clock
runs in which something has, nets and demands stand, but for a demand that is forced to 0. -/
def fabSettle (s : State) : State :=
  if (clockNow s).isEmpty then putDemands (fabRun 4096 s)
  else if demandsForced s then putDemands s
  else s

/-- The running clock is over: nets and demands follow what its tiles took. -/
def fabOver (s : State) : State := fabSettle (s.putFab { s.fab with clock := [] })

/-- The fabric after the one clock that begins at a boundary's tick, whose end the boundary's snapshot holds (R219). `p` is the state before
that tick: what changes at it stands in the input registers at the end of the clock, while the tiles and the output ports have
taken the nets of before. -/
def fabTick (p s : State) : State :=
  let n := (fabClock (p.putNow s.now)).fab
  let s := s.putFab { s.fab with pins := n.pins, prev := n.prev, timers := n.timers }
  let d := fun (k : Nat) => !demandsForced s && demandAt p k
  let s := s.set F.FAB_OUTDEM_SOUT 0 (maskOf 12 d)
  (s.setFlag F.FAB_OUTDEM_TLP 0 (d 12)).setFlag F.FAB_OUTDEM_TLS 0 (d 13)

/-- A section's fields as the boundary's snapshot has them (R42, R171): STATE, MULTI, SINGLE, the count. -/
def snapSec (s : State) (n : Nat) : List Nat :=
  [s.get F.SECT_n_STATE_STATE n, s.get F.SECT_n_STATE_MULTI n, s.get F.SECT_n_STATE_SINGLE n, s.get F.SECT_n_CNT_COUNT n]

/-- What the boundary snapshot copies out of the fabric (R217, R228), with the marks of R170 and R361 cleared (R212). The telegram bits
and the host status bits come from their output ports, which have taken the nets of `p`, before the boundary's clock (R219). -/
def fabSnapshot (p s : State) : State :=
  let s := s.set F.FAB_OUTDEM_SOUT_SNAP 0 (s.get F.FAB_OUTDEM_SOUT)
  let s := s.set F.FAB_OUTDEM_TLP_SNAP 0 (s.get F.FAB_OUTDEM_TLP)
  let s := s.set F.FAB_OUTDEM_TLS_SNAP 0 (s.get F.FAB_OUTDEM_TLS)
  let tx := maskOf 64 (fun j => netVal p (selNet s F.FAB_TXSELk_NET_LO F.FAB_TXSELk_NET_HI j))
  let s := (s.set F.FAB_TXBIT0_TX 0 (tx % 2 ^ 32)).set F.FAB_TXBIT1_TX 0 (tx / 2 ^ 32)
  let s := s.set F.FAB_HSTAT_HST 0 (maskOf 32 (fun j => netVal p (selNet s F.FAB_HSTSELk_NET_LO F.FAB_HSTSELk_NET_HI j)))
  let wv := maskOf 64 (fun j => netVal s (selNet s F.FAB_WATCH_SELk_NET_LO F.FAB_WATCH_SELk_NET_HI j))
  let s := (s.set F.FAB_WATCH_VAL0_VAL 0 (wv % 2 ^ 32)).set F.FAB_WATCH_VAL1_VAL 0 (wv / 2 ^ 32)
  let s := s.putFab { s.fab with cpSnap := (List.range 32).map (cpState s) }
  { s with secs := (indexed 0 s.secs).map (fun (x : Nat × Sec) => { x.2 with touched := false, lullExit := false, snap := snapSec s x.1 }) }

/-- What the clock that begins at the boundary's tick brings to count tiles comes after its snapshot: two fabric clocks later (R211,
R219). The sections as they stood before it. -/
def clockView (s : State) : State := forEach (clockNow s) s clockBack

/-- The sections of the running clock in `t` as they stand in `s`: what has reached them belongs to the time after the snapshot. -/
def clockAgain (s t : State) : State :=
  forEach (clockNow s) t (fun t e =>
    let fs := clockOwn e.sec ++ clockSticky e.sec
    (writeAll t fs (readAll s fs)).updSec e.sec (fun x => { x with watch := (s.sec e.sec).watch, touched := true }))

/-- A filter channel's time elapses in the running cycle (R214): the instant moves on to it and the fabric follows. -/
def filterExpire (s : State) (t k : Nat) : State :=
  match filterTimer s t k with
  | some d => if s.due d then fabSettle (s.advanceTo d) else s
  | none => s

/-! ### Configuration memory (R223 to R227) -/

/-- Words of the configuration memory. -/
def cfgWords : Nat := 524288

/-- A double-bit error (R226): UE, the first word recorded, demands at 0, SAFE at the next boundary but in
COMMISSIONING. -/
def doubleBit (s : State) (word : Nat) : State :=
  let s := s.indicate.raise F.FAB_STATUS_UE
  let s := if s.flag F.FAB_UE_ADDR_VALID then s
    else (s.set F.FAB_UE_ADDR_WORD 0 word).raise F.FAB_UE_ADDR_VALID
  let s := s.putFab { s.fab with ue := true }
  if s.dev = .comm then s else s.putToSafe (s.toSafe ++ [3])

/-- A corrected single-bit error (R224). -/
def corrected (s : State) (word bit : Nat) : State :=
  let s := (s.indicate.bump F.FAB_CE_CNT_CE_TOTAL).raise F.FAB_STATUS_CE_NEW
  let s := (s.set F.FAB_CE_LAST_WORD 0 word).set F.FAB_CE_LAST_BIT 0 bit
  let s := s.putFab { s.fab with fixed := if s.fab.fixed.contains word then s.fab.fixed else word :: s.fab.fixed }
  s.countNote 0x09 0 0xFF 0 (s.get F.FAB_CE_CNT_CE_TOTAL)

/-- The words that the pass now ending marks STUCK (R225): corrected in it and in the one before. -/
def newStuck (s : State) : List Nat :=
  (s.fab.fixed.filter (fun w => s.fab.fixedPrev.contains w)).filter (fun w => !s.fab.stuck.contains w)

/-- The pass now ending raises the Squall cause (R225, R268): a word newly STUCK, or corrections that reach CE_LIM in the
last 30 passes; in a SQUALL that CFG_CE itself began, in those since entry. -/
def passCause (s : State) : Bool :=
  let n := if s.dev = .squall ∧ s.get F.SPU_SQ_FIRST = 3 then min 29 s.spu.cePasses else 29
  let win := (s.fab.fixed.length :: s.fab.passes.take n).foldl (· + ·) 0
  !(newStuck s).isEmpty || (decide (s.get F.FAB_CE_CFG_CE_LIM ≤ win) && s.get F.FAB_CE_CFG_CE_LIM != 0)

/-- The end of a scrub pass (R225): STUCK words, the window of 30 passes. -/
def passEnd (s : State) : State :=
  let f := s.fab
  let fresh := newStuck s
  let cause := passCause s
  let ps := (f.fixed.length :: f.passes).take 30
  let win := ps.foldl (· + ·) 0
  let s := (s.putFab { f with fixed := [], fixedPrev := f.fixed, passes := ps, stuck := fresh ++ f.stuck }).putSpu
    { s.spu with cePasses := s.spu.cePasses + 1 }
  let s := s.bumpWrap F.FAB_SCRUB_PASSES
  let s := s.set F.FAB_CE_CNT_CE_WIN 0 (min win 255)
  let s := s.set F.FAB_CE_CNT_STUCK_CNT 0 (min (fresh ++ f.stuck).length 255)
  let s := if fresh.isEmpty then s else s.raise F.FAB_STATUS_STUCK
  if cause then s.raise F.FAB_STATUS_CE_SQ else s

/-- The scrubber has read the last word of a pass. -/
def lastWord (s : State) : Bool := s.get F.FAB_SCRUB_WORD + 1 == cfgWords

/-- What the scrubber finds in its next word (R224). -/
def scrubFound (s : State) (f : ScrubFinding) : State :=
  let w := s.get F.FAB_SCRUB_WORD
  match f with
  | .clean => s
  | .single bit => corrected s w bit.val
  | .double => doubleBit s w

/-- SECT_n_CFG of section `n` as the view of word 9 of its count tile (R210, R233). -/
def putSectCfg (s : State) (n v : Nat) : State :=
  let s := s.set F.SECT_n_CFG_EARLY_EN n (bitsOf v 0 1)
  let s := s.set F.SECT_n_CFG_DIRECT_EN n (bitsOf v 1 1)
  let s := s.set F.SECT_n_CFG_ID_EN n (bitsOf v 2 1)
  let s := s.set F.SECT_n_CFG_MOVING n (bitsOf v 3 1)
  let s := s.set F.SECT_n_CFG_PORT n (bitsOf v 4 2)
  let s := s.set F.SECT_n_CFG_SWEEP_MIN n (bitsOf v 8 4)
  s.set F.SECT_n_CFG_NBND n (bitsOf v 12 4)

/-- SECT_n_BND0 or SECT_n_BND1 of section `n` as the view of half `h` of word 10 of its count tile. -/
def putSectBnd (s : State) (n h v : Nat) : State :=
  forN 4 s (fun s j =>
    let b := bitsOf v (8 * j) 8
    let o := 8 * (4 * h + j)
    let s := s.set (F.SECT_n_BND_CP.offB o) n (b % 32)
    let s := s.set (F.SECT_n_BND_SENSE.offB o) n (bitsOf b 5 1)
    let s := s.set (F.SECT_n_BND_ALIGNED.offB o) n (bitsOf b 6 1)
    s.set (F.SECT_n_BND_VALID.offB o) n (bitsOf b 7 1))

/-- Both registers of a section from the words of a tile. -/
def putSect (s : State) (n w9 w10 : Nat) : State :=
  putSectBnd (putSectBnd (putSectCfg s n (w9 % 2 ^ 32)) n 0 (w10 % 2 ^ 32)) n 1 (w10 / 2 ^ 32)

/-- The count tile of a section: the COUNT tile that FAB_SECn_TILE names (R210). -/
def countTile (s : State) (n : Nat) : Option Nat :=
  let t := s.get F.FAB_SECn_TILE_TILE n
  if s.flag F.FAB_SECn_TILE_VALID n && tileType s t == 1 then some t else none

/-- SECT_n_CFG and SECT_n_BND0/1 of a section as the views of its count tile's words; of a section without one they read 0
(DESIGN CHOICE, log entry 95). A section that is newly in use stays CLEAR with a count of 0, since R33 disturbs sections at entry only
(DESIGN CHOICE, log entry 111). -/
def secView (s : State) (n : Nat) : State :=
  secUnused (match countTile s n with
    | some t => putSect s n (cfgWord s t 9) (cfgWord s t 10)
    | none => putSect s n 0 0) n

/-- The views of the sections whose FAB_SECn_TILE names a tile. -/
def tileViews (s : State) (t : Nat) : State :=
  forN 48 s (fun s n => if s.flag F.FAB_SECn_TILE_VALID n && s.get F.FAB_SECn_TILE_TILE n == t then secView s n else s)

/-- A host write to the configuration memory window in COMMISSIONING (R227): the sections whose views the word holds follow it. -/
def cfgMemPut (s : State) (a v : Nat) : State :=
  let s := (s.putBytes a (leBytes 4 v)).raise F.FAB_STATUS_DIRTY
  let w := (a - cfgBase) % 0x800 / 8
  if w = 0 ∨ w = 9 ∨ w = 10 then tileViews s ((a - cfgBase) / 0x800) else s

end Sys2Proof.Machine
end

