-- ==== Sys2Proof/Machine/SafetyIo.lean ====
section
/-!
DEFINITION. Safety inputs and outputs and the lines of the traction link (12_safety_io_traction.md): input pairs (R277 to
R283), output switches, pulses and faults (R284 to R293), TL_PERMIT, TL_STOP_N and TL_STILL with their readback (R294 to
R297).
-/

namespace Sys2Proof.Machine

/-! ### Input pairs -/

/-- SIO_INj_STAT as one word. -/
def pairWord (s : State) (j : Nat) : Nat :=
  s.get F.SIO_INj_STAT_VALUE j + 2 * s.get F.SIO_INj_STAT_FAULT j + 4 * s.get F.SIO_INj_STAT_DISAGREE j
    + 2 ^ 16 * s.get F.SIO_INj_STAT_RUN j

/-- A discrepancy fault latched (R279). -/
def pairFault (s : State) (j : Nat) : State :=
  let s := (s.indicate.raise F.SIO_INj_STAT_FAULT j).lower F.SIO_INj_STAT_VALUE j
  let s := s.raise F.SIO_STATUS_IN_FAULT_NEW
  s.note 0 0x0A 0 j (pairWord s j)

/-- An antivalent sample of a pair that shows permit or safe (R278, R281, R283). -/
def pairAgree (s : State) (j : Nat) (permit : Bool) : State :=
  let run := s.get F.SIO_INj_STAT_RUN j
  let fault := s.flag F.SIO_INj_STAT_FAULT j
  let same := bitAt s.sio.lastAnti j == permit
  let s := (s.lower F.SIO_INj_STAT_DISAGREE j).set F.SIO_INj_STAT_RUN j 0
  let s := s.putSio { s.sio with lastAnti := putBit s.sio.lastAnti j permit }
  if fault then s
  else if run ≠ 0 ∧ s.get F.SIO_INj_CFG_DISC j ≤ run then pairFault s j
  else
    let s := s.setFlag F.SIO_INj_STAT_VALUE j permit
    if run = 0 then s
    else
      let s := s.bump (if same then F.SIO_INj_CNT_RETURN_CNT else F.SIO_INj_CNT_SWITCH_CNT) j
      let s := s.raise F.SIO_STATUS_DISC_NEW
      s.journal ⟨3, 0x0A, 1, j, s.now, pairWord s j, leBytes 4 run⟩

/-- `m` consecutive samples of an enabled pair at its present levels (R277 to R281). -/
def pairSamples (s : State) (j m : Nat) : State :=
  let a := bitAt s.ext.sinA j
  let b := bitAt s.ext.sinB j
  if m = 0 ∨ !s.flag F.SIO_INj_CFG_EN j then s
  else if a != b then pairAgree s j (a != s.flag F.SIO_INj_CFG_POL j)
  else
    let run := min (s.get F.SIO_INj_STAT_RUN j + m) 20000
    let s := (s.raise F.SIO_INj_STAT_DISAGREE j).set F.SIO_INj_STAT_RUN j run
    if !s.flag F.SIO_INj_STAT_FAULT j ∧ s.get F.SIO_INj_CFG_DISC j ≤ run then pairFault s j else s

/-- Every input sample whose tick has come (R277). -/
def sampleInputs (s : State) : State :=
  if !s.portsUp then s
  else
    let m := s.now / 6000 + 1 - s.sio.nextSample
    if m = 0 then s
    else
      let s := (s.set F.SIO_IN_RAW_A 0 s.ext.sinA).set F.SIO_IN_RAW_B 0 s.ext.sinB
      let s := forN 16 s (fun s j => pairSamples s j m)
      s.putSio { s.sio with nextSample := s.now / 6000 + 1 }

/-- A pair's levels change (R278): samples due before the change see the old levels, the next sample sees the new. -/
def pairChange (s : State) (j : Nat) (a b : Bool) : State :=
  let s := sampleInputs s
  let s := s.putExt { s.ext with sinA := putBit s.ext.sinA j a, sinB := putBit s.ext.sinB j b }
  if !s.portsUp then s else sampleInputs (s.advanceTo ((s.now / 6000 + 1) * 6000))

/-- CLEAR_IN evaluated at a boundary (R282), after the boundary's own sample. -/
def clearIn (s : State) (mask : Nat) : State :=
  forEach (bitsSet mask 16) s (fun s j =>
    if !s.flag F.SIO_INj_STAT_FAULT j then s
    else
      let a := bitAt s.ext.sinA j
      let b := bitAt s.ext.sinB j
      if a != b ∧ a == s.flag F.SIO_INj_CFG_POL j then
        let s := s.lower F.SIO_INj_STAT_FAULT j
        s.note 0 0x0A 0xFF j (pairWord s j)
      else s.raise F.SIO_STATUS_CLR_REJ)

/-! ### Conditions that the hardware gates share (R53, R284, R294, R344) -/

/-- INTLK_IN as qualified: active until it has been low for 600 consecutive ticks (R344). -/
def intlkActive (s : State) : Bool := s.ext.intlkIn || decide (s.now < s.ext.lowSince + 600)

/-- The output train of R285: the grant of R265 runs and the cores are not halted. -/
def trainRuns (s : State) : Bool := decide (s.now < s.spu.grantEnd) && !s.flag F.SPU_STATUS_HALTED

/-- The device state lets outputs follow sections (R33). -/
def follows (s : State) : Bool :=
  match s.dev with
  | .startup => true
  | .oper => true
  | .squall => true
  | _ => false

/-- Role, device state and interlock allow the outputs and the traction link to be driven (R284, R296). -/
def mayDrive (s : State) : Bool := follows s && s.role == .active && !intlkActive s

/-- The conditions of R284 for one output but its pulse. -/
def outBase (s : State) (k : Nat) : Bool :=
  mayDrive s && trainRuns s && bitAt (s.get F.FAB_OUTDEM_SOUT) k && s.flag F.SIO_OUTk_CFG_EN k
    && s.get F.SIO_OUTk_STAT_FAULT_KIND k == 0

/-- The unit drives its sources (R53). -/
def srcMay (s : State) : Bool :=
  !intlkActive s && (s.role == .active || s.dev == .comm
    || (s.dev == .safe && trainRuns s && !s.flag F.URED_STATE_LINK_UP))

/-- No fault and no lapse holds the traction link at stop (R294, R295). -/
def tlClear (s : State) : Bool :=
  !s.flag F.TLNK_PIN_FSTOP && !s.flag F.TLNK_PIN_RSTOP && !s.flag F.TLNK_PIN_RBSTOP

def State.outPort (s : State) (k : Nat) : OutPort := nth s.sio.outs k
def State.updOut (s : State) (k : Nat) (f : OutPort → OutPort) : State :=
  s.putSio { s.sio with outs := upd s.sio.outs k f }

/-- The lines as the state's conditions command them (the termination of an ENCn_DAT receiver while the unit drives its clock under R190): R284 for the switches, R294 and R295 for the traction link, R296,
R53, R190 with R421, R344; in COMMISSIONING the preloaded cells of EXTEST drive the pins whose cells are not observe-only (R273). -/
def computeLines (s : State) : Lines :=
  let tl := mayDrive s && trainRuns s && tlClear s
  let scan := fun (i : Nat) (b : Bool) => if s.spu.jtag == 3 && s.dev == .comm then bitAt s.spu.preload i else b
  { sout := maskOf 12 (fun k => outBase s k && (s.outPort k).pulse.isNone)
    tlp := tl && s.flag F.FAB_OUTDEM_TLP
    stopN := scan 0 tl
    still := tl && s.flag F.FAB_OUTDEM_TLS
    tlDrive := scan 1 (mayDrive s)
    src := srcMay s
    encClk := scan 2 (srcMay s)
    encTerm := srcMay s && scan 2 true
    intlkOut := (trainRuns s && (s.role == .active || s.flag F.URED_STATE_CLAIM)) || (srcMay s && s.role == .detached) }

/-! ### Output switches -/

/-- The state of an output (SIO_OUTk_STAT.STATE): FAULT, PULSE, ON or OFF. -/
def outState (s : State) (k : Nat) : Nat :=
  if s.get F.SIO_OUTk_STAT_FAULT_KIND k ≠ 0 then 3
  else if (s.outPort k).pulse.isSome then 2
  else if bitAt s.lines.sout k then 1 else 0

/-- SIO_OUTk_STAT as one word. -/
def outWord (s : State) (k : Nat) : Nat :=
  b2n (bitAt (s.get F.FAB_OUTDEM_SOUT) k) + 2 * b2n (bitAt s.lines.sout k) + 4 * s.get F.SIO_OUTk_STAT_SENSE_HI k
    + 8 * s.get F.SIO_OUTk_STAT_SENSE_LO k + 16 * outState s k + 64 * s.get F.SIO_OUTk_STAT_FAULT_KIND k

/-- A pulse abandoned (R289): the output is commanded open for another reason. -/
def pulseAbandon (s : State) (k : Nat) : State :=
  if (s.outPort k).pulse.isNone then s
  else
    let s := s.updOut k (fun o => { o with pulse := none, openAt := s.now })
    let s := s.bump F.SIO_OUTk_CNT_ABANDONED k
    s.countNote 0x0A 0xFF k (outWord s k) (s.get F.SIO_OUTk_CNT_ABANDONED k)

/-- An opening for any other reason during a pulse abandons it (R289); ticks of opening and closing are kept. -/
def outStep (s : State) : State :=
  forN 12 s (fun s k =>
    let base := outBase s k
    let was := bitAt s.lines.sout k
    let pulsing := (s.outPort k).pulse.isSome
    if pulsing ∧ !base then pulseAbandon s k
    else if was ∧ !base then s.updOut k (fun o => { o with openAt := s.now })
    else if !was ∧ !pulsing ∧ base then s.updOut k (fun o => { o with closeAt := s.now })
    else s)

/-- An output fault (R292): latched while none is held, the switch held open, a pulse in progress abandoned (R289), TL_PERMIT withdrawn
under FAULT_STOP. A unit whose outputs are not driven declares none (R293). -/
def outFault (s : State) (k kind : Nat) : State :=
  if !mayDrive s ∨ !s.flag F.SIO_OUTk_CFG_EN k ∨ s.get F.SIO_OUTk_STAT_FAULT_KIND k ≠ 0 then s
  else
    let s := (s.indicate.set F.SIO_OUTk_STAT_FAULT_KIND k kind).bump F.SIO_OUTk_CNT_FAULTS k
    let s := (pulseAbandon s k).updOut k (fun o => { o with openAt := s.now })
    let s := s.raise F.SIO_STATUS_OUT_FAULT_NEW
    let s := if s.flag F.SIO_OUTk_CFG_FAULT_STOP k then s.raise F.TLNK_PIN_FSTOP else s
    s.note 0 0x0A 2 k (outWord s k)

/-- PULSE_LEN of an output in ticks (R287). -/
def pulseTicks (s : State) (k : Nat) : Nat := 60 * s.get F.SIO_OUTk_CFG_PULSE_LEN k

/-- A test pulse due at the running cycle's boundary (R287): the output is closed, its cycle index meets the schedule. -/
def pulseDue (s : State) (k : Nat) : Bool :=
  let per := s.get F.SIO_PULSE_CFG_PERIOD * 1000
  per != 0 && s.cycle % per == 80 * k && mayDrive s && bitAt s.lines.sout k

/-- The pulse of output `k`, once in its cycle: its switch, closed at the boundary, opens for PULSE_LEN from there. -/
def pulseStart (s : State) (k : Nat) : State :=
  let o := s.outPort k
  if pulseDue s k ∧ o.pulse.isNone ∧ o.closeAt ≤ s.cycleStart ∧ o.pulsed ≠ s.cycle + 1 then
    s.updOut k (fun o => { o with pulse := some (s.cycleStart + pulseTicks s k), openAt := s.cycleStart, pulsed := s.cycle + 1 })
  else s

/-- What the reads of a switch's ball show (R286), every 60 ticks: a level that the device has just judged by 60 consecutive reads, and
of the other level what the command leaves open. -/
def ballNotHigh (s : State) (k : Nat) : State := (s.lower F.SIO_OUTk_STAT_SENSE_HI k).setOpen F.SIO_OUTk_STAT_SENSE_LO k
def ballNotLow (s : State) (k : Nat) : State := (s.lower F.SIO_OUTk_STAT_SENSE_LO k).setOpen F.SIO_OUTk_STAT_SENSE_HI k

/-- The end of a pulse in the running cycle (R287, R288): the switch closes again; a ball that did not read low gives
STUCK_ON. -/
def pulseEnd (s : State) (k : Nat) (low : Bool) : State :=
  match (s.outPort k).pulse with
  | none => s
  | some t =>
    if !s.due t then s
    else
      let s := s.advanceTo t
      if low then
        let s := (s.lower F.SIO_OUTk_STAT_SENSE_HI k).raise F.SIO_OUTk_STAT_SENSE_LO k
        (s.updOut k (fun o => { o with pulse := none, closeAt := s.now })).bumpWrap F.SIO_OUTk_CNT_PASSED k
      else outFault (ballNotLow (s.updOut k (fun o => { o with pulse := none })) k) k 1

/-- A closed switch's ball may be found not to read high: 12,000 ticks after it closed, or sooner where it has read high since, which takes
60 reads, as the failure then takes 60 more (R286): no earlier than 7,200 ticks after it closed (DEDUCED, log entry 124). -/
def closedLong (s : State) (k : Nat) : Bool := bitAt s.lines.sout k && decide ((s.outPort k).closeAt + 7200 ≤ s.now)

/-- STUCK_OFF, or OVERLOAD with the limit engaged, on a closed switch whose ball does not read high (R286). -/
def stuckOff (s : State) (k : Nat) (limit : Bool) : State :=
  if closedLong s k then
    let s := if s.get F.SIO_OUTk_STAT_FAULT_KIND k = 0 then s.firstErrFrom F.URED_FIRST_SOUT 12000 (s.firstTick k) else s
    outFault (ballNotHigh s k) k (if limit then 3 else 2)
  else s

/-- STUCK_ON on an open output whose ball does not read low (R290). -/
def stuckOn (s : State) (k : Nat) : State :=
  if !bitAt s.lines.sout k ∧ (s.outPort k).pulse.isNone then outFault (ballNotLow s k) k 1 else s

/-- OVERLOAD after 30,000 ticks of current limit, OVERTEMP on thermal shutdown, whether the switch is closed, in a pulse or open (R291). -/
def overload (s : State) (k : Nat) : State := outFault s k 3
def overtemp (s : State) (k : Nat) : State := outFault s k 4

/-- TLNK_PIN.FSTOP: an output fault with FAULT_STOP holds. -/
def syncFstop (s : State) : State :=
  s.setFlag F.TLNK_PIN_FSTOP 0 ((List.range 12).any (fun k =>
    s.get F.SIO_OUTk_STAT_FAULT_KIND k != 0 && s.flag F.SIO_OUTk_CFG_FAULT_STOP k))

/-- CLEAR_OUT evaluated at a boundary (R292). -/
def clearOut (s : State) (mask : Nat) : State :=
  let s := forEach (bitsSet mask 12) s (fun s k =>
    if s.get F.SIO_OUTk_STAT_FAULT_KIND k = 0 then s
    else if bitAt (s.get F.FAB_OUTDEM_SOUT) k then s.raise F.SIO_STATUS_CLR_REJ
    else
      let s := (s.set F.SIO_OUTk_STAT_FAULT_KIND k 0).updOut k (fun o => { o with openAt := s.now })
      s.note 0 0x0A 0xFF k (outWord s k))
  syncFstop s

/-- The first closings and drives since the last takeover, from which R362 measures, under the lines `l`. -/
def firstsOf (s : State) (l : Lines) : List (Option Nat) :=
  if s.tookOver.isNone then s.link.firsts
  else (List.range 15).map (fun i =>
    let on := if i < 12 then bitAt l.sout i else if i = 12 then l.tlp else if i = 13 then l.stopN else l.still
    (s.link.firsts.getD i none).or (if on then some s.now else none))

/-- The lines as the conditions command them, with the ticks at which INTLK_OUT rises (R345) and lines are first driven (R362). -/
def putLines (s : State) : State :=
  let l := computeLines s
  let rose := if l.intlkOut && !s.lines.intlkOut then s.now else s.link.rose
  (s.putLines l).putLink { s.link with rose := rose, firsts := firstsOf s l }

/-- Before time passes on to a tick, what the tiles took in a fabric clock that is over by then reaches nets, demands, switches and lines
(R211, R219). -/
def clockDone (s : State) (t : Nat) : State :=
  if (clockNow s).isEmpty ∨ clockOf t = s.fab.clockAt then s else putLines (outStep (fabOver s))

/-! ### Readback of the traction link (R297) -/

/-- A readback fault latched, with its bit of TLNK_STATUS. -/
def tlFault (s : State) (f : Fld) (bit : Nat) : State :=
  let s := (s.indicate.raise f).raise F.TLNK_PIN_RBSTOP
  s.note 0 0x0B bit 0xFF 0

/-- TLP_DRV: edges are emitted and the ball shows none. -/
def tlpDrv (s : State) : State := if s.lines.tlDrive && s.lines.tlp then tlFault (s.firstErrFrom F.URED_FIRST_TLP_DRV 6000 (s.firstTick 12)) F.TLNK_STATUS_TLP_DRV 4 else s

/-- Of TL_STOP_N and TL_STILL, those that a fault of lines driven at one level concerns: `a` and `b` tell which are driven so. Of two, the
command does not say which (DESIGN CHOICE, log entry 113). -/
def linesAt (s : State) (a b : Bool) : Bool × Bool :=
  if a && b then (Config.lineOf s.freeCtr != 1, Config.lineOf s.freeCtr != 0) else (a, b)

/-- The levels of the two lines as the reads that declare a fault show them (R297), every 60 ticks. -/
def linesRead (s : State) (x : Bool × Bool) (high : Bool) : State :=
  let s := if x.1 then s.setFlag F.TLNK_PIN_STOP_N 0 high else s
  (if x.2 then s.setFlag F.TLNK_PIN_STILL 0 high else s).fresh

/-- TLS_DRV: TL_STOP_N or TL_STILL is driven high and reads low. -/
def tlsDrv (s : State) : State :=
  if s.lines.tlDrive && (s.lines.stopN || s.lines.still) then
    let x := linesAt s s.lines.stopN s.lines.still
    let since := max (if x.1 then s.firstTick 13 else 0) (if x.2 then s.firstTick 14 else 0)
    tlFault (linesRead (s.firstErrFrom F.URED_FIRST_TLS_DRV 600 since) x false) F.TLNK_STATUS_TLS_DRV 5
  else s

/-- TL_FOREIGN: a line shows permit while the unit drives stop. Where no edges are emitted either, the fault may lie at TL_PERMIT, whose ball
has no level to report. -/
def tlForeign (s : State) : State :=
  if s.lines.tlDrive && !(s.lines.tlp && s.lines.stopN && s.lines.still) then
    let s := if s.lines.tlp || Config.ballReads s.freeCtr then linesRead s (linesAt s (!s.lines.stopN) (!s.lines.still)) true else s.fresh
    tlFault s F.TLNK_STATUS_TL_FOREIGN 6
  else s

/-- CLEAR_DRV evaluated at a boundary: accepted only while the TL_PERMIT demand is 0. -/
def clearDrv (s : State) : State :=
  if s.flag F.TLNK_PIN_RBSTOP ∧ !s.flag F.FAB_OUTDEM_TLP then
    (s.lower F.TLNK_PIN_RBSTOP).note 0 0x0B 0xFF 0xFF 0
  else s

end Sys2Proof.Machine
end

