-- ==== Sys2Proof/Machine/CanBus.lean ====
section
/-!
DEFINITION. CAN controllers, part one (13_can.md): bit timing (R309, R310), operating modes (R307), error states (R316),
single-shot operation (R314, R318), and what follows a change of mode at once.
-/

namespace Sys2Proof.Machine

/-- The nominal bit time of a controller in base clocks (R309). -/
def nomBit (s : State) (x : Nat) : Nat :=
  (s.get (F.CANx_NBT_NBRP.can x) + 1) * (s.get (F.CANx_NBT_NTSEG1.can x) + s.get (F.CANx_NBT_NTSEG2.can x) + 3)

/-- The data bit time of a controller in base clocks. -/
def dataBit (s : State) (x : Nat) : Nat :=
  (s.get (F.CANx_DBT_DBRP.can x) + 1) * (s.get (F.CANx_DBT_DTSEG1.can x) + s.get (F.CANx_DBT_DTSEG2.can x) + 3)

/-- The limits of R309 on a controller's bit timing; every field holds its value less 1. -/
def timingOk (s : State) (x : Nat) : Bool :=
  let nb := s.get (F.CANx_NBT_NBRP.can x) + 1
  let n1 := s.get (F.CANx_NBT_NTSEG1.can x) + 1
  let n2 := s.get (F.CANx_NBT_NTSEG2.can x) + 1
  let nj := s.get (F.CANx_NBT_NSJW.can x) + 1
  let db := s.get (F.CANx_DBT_DBRP.can x) + 1
  let d1 := s.get (F.CANx_DBT_DTSEG1.can x) + 1
  let d2 := s.get (F.CANx_DBT_DTSEG2.can x) + 1
  let dj := s.get (F.CANx_DBT_DSJW.can x) + 1
  decide (nb ≤ 512 ∧ n1 ≤ 256 ∧ n2 ≤ 128 ∧ nj ≤ n2 ∧ 8 ≤ 1 + n1 + n2 ∧ 1 + n1 + n2 ≤ 385
      ∧ 80 ≤ nomBit s x ∧ nomBit s x ≤ 4000)
    && decide (db ≤ 32 ∧ db ≤ nb ∧ d1 ≤ 32 ∧ d2 ≤ 16 ∧ dj ≤ d2 ∧ 5 ≤ 1 + d1 + d2 ∧ 1 + d1 + d2 ≤ 49
      ∧ 16 ≤ dataBit s x ∧ dataBit s x ≤ nomBit s x)

/-- The limits of R310 on the compensation of the loop delay, which bind a bit-stream. -/
def tdcOk (s : State) (x : Nat) : Bool :=
  (s.flag (F.CANx_DBT_TDC_EN.can x) || decide (80 ≤ dataBit s x)) && decide (s.get (F.CANx_TDC_TDCO.can x) < dataBit s x)

/-- The controller takes part in the bus: in use, outside RESET and BOOT, not lost, its bit timing within the limits. -/
def canUp (s : State) (x : Nat) : Bool :=
  s.flag (F.CANx_CFG_EN.can x) && s.counting && !s.flag (F.CANx_ERR_LOST.can x) && timingOk s x

/-- The unit drives the machine, as R307 has it. -/
def canDrives (s : State) : Bool :=
  s.role == .active || (s.role == .detached && (s.dev == .comm || s.dev == .safe) && !intlkActive s)

/-- Normal mode (R307); else bus monitoring. -/
def canNormal (s : State) (x : Nat) : Bool := canUp s x && canDrives s

/-- Error states of CANx_ERR. -/
def esActive : Nat := 0
def esPassive : Nat := 1
def esBusOff : Nat := 2
def esRecovering : Nat := 3

def canState (s : State) (x : Nat) : Nat := s.get (F.CANx_ERR_ESTATE.can x)

/-- The controller is on the bus for frames: up and not in bus-off. -/
def canLive (s : State) (x : Nat) : Bool := canUp s x && decide (canState s x < 2)

def State.canCtl (s : State) (x : Nat) : CanCtl := nth s.can x
def State.updCan (s : State) (x : Nat) (f : CanCtl → CanCtl) : State := s.putCan (upd s.can x f)

/-- Source byte of a controller's journal entries (R387). -/
def canBlk (x : Nat) : Nat := if x = 0 then 0x0C else 0x1F

/-- CANx_ERR as one word. -/
def canErrWord (s : State) (x : Nat) : Nat :=
  s.get (F.CANx_ERR_TEC.can x) + 2 ^ 8 * s.get (F.CANx_ERR_REC.can x) + 2 ^ 15 * s.get (F.CANx_ERR_RP.can x)
    + 2 ^ 16 * s.get (F.CANx_ERR_ESTATE.can x) + 2 ^ 18 * s.get (F.CANx_ERR_LEC.can x)
    + 2 ^ 21 * s.get (F.CANx_ERR_LEC_DATA.can x) + 2 ^ 22 * s.get (F.CANx_ERR_NOACK.can x)
    + 2 ^ 23 * s.get (F.CANx_ERR_LOST.can x) + 2 ^ 24 * s.get (F.CANx_ERR_LOST_CAUSE.can x)
    + 2 ^ 26 * s.get (F.CANx_ERR_MONITOR.can x)

/-- Owner codes of CANx_BUFCFGb. -/
def ownEither : Nat := 2
def ownSte : Nat := 3

def bufOwner (s : State) (x b : Nat) : Nat := s.get (F.CANx_BUFCFGb_OWNER.can x) b
def bufTx (s : State) (x b : Nat) : Bool := s.flag (F.CANx_BUFCFGb_DIR.can x) b
def bufPending (s : State) (x b : Nat) : Bool := s.flag (F.CANx_BUFCTRLb_TX_REQ.can x) b

/-- Single-shot in force for a buffer (SSHOT_ACT): from SSHOT, or R318 for an STE-owned one. -/
def sshotAct (s : State) (x b : Nat) : Bool :=
  s.flag (F.CANx_BUFCFGb_SSHOT.can x) b
    || (bufOwner s x b == ownSte && s.flag (F.CANx_CFG_NOACK_SSHOT.can x) && s.flag (F.CANx_ERR_NOACK.can x))

/-- A buffer's lock or claim ends. -/
def bufUnlock (s : State) (x b : Nat) : State :=
  (s.lower (F.CANx_BUFCTRLb_LOCKED.can x) b).set (F.CANx_BUFCTRLb_LOCK_OWNER.can x) b 3

/-- A transmit request ends, and with it the claim of an EITHER buffer (R311). -/
def reqEnd (s : State) (x b : Nat) : State :=
  let s := s.lower (F.CANx_BUFCTRLb_TX_REQ.can x) b
  let s := s.putSte { s.ste with held := s.ste.held.filter (fun (h : Nat × Nat × Nat) => !(h.1 == x && h.2.1 == b)) }
  if bufOwner s x b = ownEither then bufUnlock s x b else s

/-- A buffer that may enter arbitration. -/
def mayArb (s : State) (x b : Nat) : Bool := bufTx s x b && bufPending s x b && !s.flag (F.CANx_BUFCTRLb_HELD.can x) b

/-- The identifier of a buffer as the bus compares it, the lowest wins: base identifier, IDE, identifier extension. The RTR bit is no part of
it: between equal identifiers the lowest index goes first (R314). -/
def arbKey (s : State) (x b : Nat) : Nat :=
  let id := s.get (F.CANx_BUFb_W0_ID.can x) b
  if s.flag (F.CANx_BUFb_W0_IDE.can x) b then id / 2 ^ 18 * 2 ^ 19 + 2 ^ 18 + id % 2 ^ 18 else id / 2 ^ 18 * 2 ^ 19

/-- Of the buffers that may enter arbitration, the one with the lowest key, then the lowest index. -/
def arbFirst (s : State) (x : Nat) : Option Nat :=
  (List.range 64).foldl (fun (best : Option Nat) b =>
    if !mayArb s x b then best
    else match best with
      | none => some b
      | some c => if arbKey s x b < arbKey s x c then some b else some c) none

/-- An attempt ends without a clash. -/
def clashReset (s : State) (x b : Nat) : State :=
  s.updCan x (fun c => { c with clash := upd c.clash b (fun _ => 0) })

/-- The buffer whose attempt is cut short where a controller leaves the bus: the one known to be on it, else the one whose turn it is, where
its frame had started (DESIGN CHOICE, log entry 99). -/
def cutBuf (s : State) (x : Nat) : Option Nat :=
  match (s.canCtl x).onBus with
  | some b => some b
  | none => if 2 ≤ canState s x ∨ !Config.frameCut x s.now then none else arbFirst s x

/-- A controller leaves the bus: its attempt ends, without a clash (R319). -/
def attemptCut (s : State) (x : Nat) : State :=
  let t := match cutBuf s x with | some b => clashReset s x b | none => s
  t.updCan x (fun c => { c with onBus := none })

/-- What follows the mode at once (R307): in bus monitoring mode the error counters stay at 0, no request stays pending, and
MONITOR shows the mode. -/
def canSyncOne (s : State) (x : Nat) : State :=
  let mon := canUp s x && !canDrives s
  let was := s.flag (F.CANx_ERR_MONITOR.can x)
  let s := s.setFlag (F.CANx_ERR_MONITOR.can x) 0 mon
  if mon ∧ !was then
    let s := ((attemptCut s x).set (F.CANx_ERR_TEC.can x) 0 0).set (F.CANx_ERR_REC.can x) 0 0
    let s := (s.lower (F.CANx_ERR_RP.can x)).set (F.CANx_ERR_ESTATE.can x) 0 esActive
    let s := s.updCan x (fun c => { c with boSince := none })
    forN 64 s (fun s b => if bufPending s x b then reqEnd s x b else s)
  else s

/-- Both controllers. -/
def canSync (s : State) : State := canSyncOne (canSyncOne s 0) 1

end Sys2Proof.Machine
end

