-- ==== Sys2Proof/Machine/Encoders.lean ====
section
/-!
DEFINITION. Drive encoder ports (R189 to R197, R206): decoding and checking a frame, the extended position, speed,
direction, Lull and the states of a port; latching at a tick (R193); the state of a virtual counting point (R29, R179); the speed
status of a sensor point whose speed rests on a port (R183, R184).
-/

namespace Sys2Proof.Machine

def State.encPort (s : State) (q : Nat) : EncPort := nth s.encs q
def State.updEnc (s : State) (q : Nat) (f : EncPort → EncPort) : State := { s with encs := upd s.encs q f }

/-- The states of a port (DENC_PORTn_STAT). -/
def encDetached : Nat := 0
def encValid : Nat := 1
def encLate : Nat := 2
def encFault : Nat := 3

def encState (s : State) (q : Nat) : Nat := s.get F.DENC_PORTn_STAT_STATE q

/-! ### The first rows of the speed table (R183, R184) -/

/-- Speed statuses (SPOS_SPn_SST). -/
def sstLull : Nat := 0
def sstUnresolved : Nat := 1
def sstOnset : Nat := 2
def sstFull : Nat := 3
def sstEncoder : Nat := 4
def sstStale : Nat := 5
def sstInvalid : Nat := 6

def spdSt (s : State) (p : Nat) : Nat := s.get F.SPOS_SPn_SST_SPD_ST p

/-- A speed in the track's sense from its magnitude and the point's sense (R19). -/
def trackNeg (s : State) (p : Nat) (neg : Bool) : Bool := neg != s.flag F.WEV_SPn_GEOM_ORIENT p

/-- A point used by nothing reports INVALID: it is mapped to no counting point and is no station. -/
def pointUsed (s : State) (p : Nat) : Bool :=
  (pointCp s p).isSome || s.flag F.LEDG_SPn_CFG_STATION p
    || (List.range 8).any (fun m => s.flag F.DENC_REFm_CFG_VALID m && s.get F.DENC_REFm_CFG_SP m == p)

/-- Status, speed and AGE of a point written together. -/
def setSpd (s : State) (p st : Nat) (v : Int) : State :=
  ((s.set F.SPOS_SPn_SST_SPD_ST p st).set40 F.SPOS_SPn_SPEED_L_SPEED p (fitS 40 v)).set F.SPOS_SPn_SST_AGE p 0

/-- DIR and DIR_VALID; DIRCHG is raised when DIR changes while it was and stays valid, and always on `force`. -/
def setDir (s : State) (p : Nat) (neg valid force : Bool) : State :=
  let was := s.flag F.SPOS_SPn_SST_DIR_VALID p
  let chg := (was && valid && (s.flag F.SPOS_SPn_SST_DIR p != neg)) || force
  let s := if valid then s.setFlag F.SPOS_SPn_SST_DIR p neg else s
  let s := s.setFlag F.SPOS_SPn_SST_DIR_VALID p valid
  if chg then s.raise F.SPOS_STATUS_DIRCHG else s

/-- The ENCODER row applies: SPD_EN, and the named port VALID and not in Lull (R184). -/
def encRow (s : State) (p : Nat) : Bool :=
  let q := s.get F.SPOS_SPn_CFG_SPD_PORT p
  s.flag F.SPOS_SPn_CFG_SPD_EN p && encState s q == encValid && !s.flag F.DENC_PORTn_STAT_LULL q

/-- The port's speed in the track's sense. -/
def portTrackSpeed (s : State) (q : Nat) : Int :=
  let v := s.getS40 F.DENC_PORTn_SPEED_L_SPEED q
  if s.flag F.DENC_PORTn_CFG_TRACK_SIGN q then -v else v

/-- The first two rows of R183: INVALID while a channel is BLIND or FAULTY or the point is used by nothing, else ENCODER
where it applies. The second component tells whether a row applied. -/
def spdHard (s : State) (p : Nat) : State × Bool :=
  let a := chState s (2 * p)
  let b := chState s (2 * p + 1)
  if a = 5 ∨ a = 6 ∨ b = 5 ∨ b = 6 ∨ !pointUsed s p then (setDir (setSpd s p sstInvalid 0) p false false false, true)
  else if encRow s p then
    let q := s.get F.SPOS_SPn_CFG_SPD_PORT p
    let v := portTrackSpeed s q
    ((setDir (setSpd s p sstEncoder v) p (decide (v < 0)) (s.flag F.DENC_PORTn_STAT_DIR_VALID q) false).setFlag F.SPOS_SPn_SST_DIR p
      (decide (v < 0)), true)
  else (s, false)

/-- The first two rows evaluated; a point that has left the ENCODER row follows its own rows again (R184). -/
def spdRows (s : State) (p : Nat) : State :=
  let (s, hard) := spdHard s p
  if hard then s
  else if spdSt s p = sstEncoder then
    if (s.point p).lull then setDir (setSpd s p sstLull 0) p false false false
    else setDir (setSpd s p sstUnresolved 0) p false false false
  else s

/-- The ENCODER row evaluated on a frame or a change of state of its port. -/
def spdPort (s : State) (q : Nat) : State :=
  forN 24 s (fun s p => if s.flag F.SPOS_SPn_CFG_SPD_EN p ∧ s.get F.SPOS_SPn_CFG_SPD_PORT p = q then spdRows s p else s)

/-- The first two rows evaluated where something other than a frame may have changed which of them applies: the end of BLIND or
FAULTY, a write in COMMISSIONING (R183, R184). A status and speed that stay are not set anew. -/
def spdReview (s : State) (p : Nat) : State :=
  let t := spdRows s p
  if spdSt t p = spdSt s p ∧ t.get40 F.SPOS_SPn_SPEED_L_SPEED p = s.get40 F.SPOS_SPn_SPEED_L_SPEED p then s else t

/-! ### Frames -/

/-- Ticks of a poll period. -/
def pollTicks (s : State) (q : Nat) : Nat := s.get F.DENC_PORTn_CFG_POLL q * 60

/-- The position of a count in µm under a scale and an offset (R191), rounded to the nearest. -/
def posUnder (g : Nat × Int) (count : Int) : Int := g.2 + nearest (count * g.1) 65536

/-- A port's scale and offset in force. -/
def encScale (s : State) (q : Nat) : Nat × Int := (s.get F.DENC_PORTn_SCALE_SCALE q, s.getS40 F.DENC_PORTn_OFFS_L_OFFS q)

/-- The position of a count in the port's frame, in µm (R191). -/
def encPos (s : State) (q : Nat) (count : Int) : Int := posUnder (encScale s q) count

/-- A position carried from one scale and offset to another (R206). -/
def carryPos (o n : Nat × Int) (x : Int) : Int := n.2 + qdiv ((x - o.2) * n.1) o.1

/-- The scale and offset under which a frame of a sample tick completes: those of before where the last change came after it
(R206). -/
def scaleAtTick (s : State) (q t : Nat) : Nat × Int :=
  let e := s.encPort q
  if t < e.scaleAt then e.scaleWas else encScale s q

/-- The position of a frame: completed under the values of its sample tick, then, as every position of the port, carried to those
in force. -/
def framePos (s : State) (q t : Nat) (count : Int) : Int :=
  let g := scaleAtTick s q t
  if t < (s.encPort q).scaleAt then carryPos g (encScale s q) (posUnder g count) else posUnder g count

/-- MAX_STEP, DIR_HYST, LULL_BAND and LATE_LIM of a port in force. -/
def portLims (s : State) (q : Nat) : List Nat :=
  [s.get F.DENC_PORTn_LIM_MAX_STEP q, s.get F.DENC_PORTn_LIM_DIR_HYST q, s.get F.DENC_PORTn_LULL_LULL_BAND q,
    s.get F.DENC_PORTn_LIM_LATE_LIM q]

/-- The limits under which a frame of a sample tick completes: those of before where the last change came after it (R206). -/
def limsAtTick (s : State) (q t : Nat) : List Nat :=
  let e := s.encPort q
  if t < e.limAt then e.limWas else portLims s q
def maxStepAt (s : State) (q t : Nat) : Nat := nth (limsAtTick s q t) 0
def dirHystAt (s : State) (q t : Nat) : Nat := nth (limsAtTick s q t) 1
def lullBandAt (s : State) (q t : Nat) : Nat := nth (limsAtTick s q t) 2
def lateLimAt (s : State) (q t : Nat) : Nat := nth (limsAtTick s q t) 3

/-- Bits from index `i`, most significant first, as a number. -/
def bitsNum (bits : List Bool) (i w : Nat) : Nat := ((bits.drop i).take w).foldl (fun a b => 2 * a + b2n b) 0

/-- A Gray code read most significant bit first: each bit is the exclusive or of the bits so far. -/
def grayNum (bits : List Bool) (i w : Nat) : Nat :=
  (((bits.drop i).take w).foldl (fun (acc : Nat × Bool) b => (2 * acc.1 + b2n (acc.2 != b), acc.2 != b)) (0, false)).1

/-- The raw position of a frame. -/
def rawOf (s : State) (q : Nat) (bits : List Bool) : Nat :=
  let i := s.get F.DENC_PORTn_FRAME_POS_START q
  let w := s.get F.DENC_PORTn_FRAME_POS_WIDTH q
  if s.flag F.DENC_PORTn_FRAME_CODE q then grayNum bits i w else bitsNum bits i w

/-- The error bit of a frame is active. -/
def errBit (s : State) (q : Nat) (bits : List Bool) : Bool :=
  s.flag F.DENC_PORTn_FRAME_ERR_EN q
    && (bits.getD (s.get F.DENC_PORTn_FRAME_ERR_IDX q) false == s.flag F.DENC_PORTn_FRAME_ERR_POL q)

/-- The parity bit, the last of the frame, fails over all earlier bits: even parity makes the count of ones even. -/
def parityBad (s : State) (q : Nat) (bits : List Bool) : Bool :=
  let ones := (bits.filter id).length
  match s.get F.DENC_PORTn_CFG_PARITY q with
  | 1 => ones % 2 != 0
  | 2 => ones % 2 != 1
  | _ => false

/-- A count as the 40-bit signed value that the device keeps (R191). -/
def count40 (x : Int) : Int := toSigned 40 (ofSigned 40 x)

/-- The count extended by the difference of two raw positions, taken into half the raw range either way (R191). -/
def extend (w : Nat) (count : Int) (old new : Nat) : Int :=
  count40 (count + toSigned w ((new + 2 ^ w - old % 2 ^ w) % 2 ^ w))

/-- The interpolated or extrapolated position at a tick through two frames. -/
def lineAt (a b : Nat × Int) (t : Nat) : Int :=
  a.2 + qdiv ((b.2 - a.2) * ((t : Int) - a.1)) ((b.1 : Int) - a.1)

/-- The first two consecutive frames, newest first, that enclose a tick and lie no more than `gap` apart. -/
def bracket (gap t : Nat) : List (Nat × Int) → Option Int
  | b :: a :: rest =>
    if a.1 ≤ t ∧ t ≤ b.1 ∧ b.1 - a.1 ≤ gap then some (lineAt a b t) else bracket gap t (a :: rest)
  | _ => none

/-- The latch of a port's decoded frames at a tick (R193, R197): status 1 between frames, 2 extrapolated, 3 otherwise. -/
def latchDecoded (s : State) (q t : Nat) : Nat × Int :=
  let fr := (s.encPort q).frames
  match bracket (2 * pollTicks s q) t fr with
  | some p => (1, p)
  | none =>
    match fr with
    | b :: a :: _ => if b.1 < t ∧ t - b.1 ≤ 3 * pollTicks s q then (2, lineAt a b t) else (3, 0)
    | _ => (3, 0)

/-- The latch of a port at a wheel event (R193): 0 not attached, 3 while the port is not VALID. -/
def latchPort (s : State) (q t : Nat) : Nat × Int :=
  if !s.flag F.DENC_PORTn_CFG_ATTACH q then (0, 0)
  else if encState s q != encValid then (3, 0)
  else latchDecoded s q t

/-- All four ports latched at one tick (R136). -/
def latchAll (s : State) (t : Nat) : List (Nat × Int) := (List.range 4).map (fun q => latchPort s q t)

/-- A hold runs at the point. -/
def inHold (s : State) (p : Nat) : Bool := (s.point p).seq == .holdP || (s.point p).seq == .holdN

/-- The earliest tick at which a wheel event still to come can be dated: the off-crossing of a running hold, the end of the window of
a PARKED record that is still to be produced (R131), the last untagged sample of a channel, from which the next crossing is interpolated
(R120), the last frame shown to a boundary unit, between which and the next a virtual
passage is dated (R200), and what the measurement chain holds back (R69). -/
def latchHorizon (s : State) : Nat :=
  let holds := ((List.range 24).filter (inHold s)).map (fun p => (s.point p).holdFrom)
  let parks := ((List.range 48).filter (fun c => (s.chan c).met && !(s.chan c).parkRec)).map (fun c => 1250 * ((s.chan c).metAt + 1) - 1)
  let units := ((List.range 8).filter (fun k => s.flag F.SECT_VCPk_CFG_VALID k)).filterMap (fun k => (nth s.units k).last.map (·.1))
  let lasts := (List.range 48).filterMap (fun c => (s.chan c).last.map (·.1))
  (holds ++ parks ++ units ++ lasts).foldl min (s.now - 12000)

/-- The frames of a list, newest first, from the one at or before a tick on. -/
def framesFrom (h : Nat) : List (Nat × Int) → List (Nat × Int)
  | [] => []
  | x :: xs => if x.1 ≤ h then [x] else x :: framesFrom h xs

/-- The frames of a port that are kept: the last 16, and those that a latch may still ask for (R193). -/
def keepFrames (h : Nat) (l : List (Nat × Int)) : List (Nat × Int) :=
  l.take 16 ++ (if (nth l 15).1 ≤ h then [] else framesFrom h (l.drop 16))

/-- The decoded frames of a port latched at the off-crossing of a point's hold: the frames that enclose it stay known until the
hold ends, however long it lasts (R193). -/
def holdDecoded (s : State) (p q : Nat) : Nat × Int :=
  let l := nth (s.point p).latOff q
  if l.1 = 1 then l else latchDecoded s q (s.point p).holdFrom

/-- All four ports latched for the passage that ends a point's hold (R136, R193). -/
def holdLatched (s : State) (p : Nat) : List (Nat × Int) :=
  (List.range 4).map (fun q =>
    if !s.flag F.DENC_PORTn_CFG_ATTACH q then (0, 0)
    else if encState s q != encValid then (3, 0)
    else holdDecoded s p q)

/-- A port's new frame shown to the holds that run. -/
def holdsLatch (s : State) (q : Nat) : State :=
  forN 24 s (fun s p =>
    if inHold s p then
      let l := holdDecoded s p q
      s.updPoint p (fun x => { x with latOff := upd x.latOff q (fun _ => l) })
    else s)

/-! ### Virtual counting points (R29, R179) -/

def State.unit (s : State) (k : Nat) : BoundaryUnit := nth s.units k
def State.updUnit (s : State) (k : Nat) (f : BoundaryUnit → BoundaryUnit) : State := { s with units := upd s.units k f }

/-- The port bound to a virtual point's moving section, the point's own port where it has none. -/
def vcpBound (s : State) (k : Nat) : Nat :=
  let m := s.get F.SECT_VCPk_CFG_MSEC k
  if m < 48 then s.get F.SECT_n_CFG_PORT m else s.get F.SECT_VCPk_CFG_PORT k

/-- An entry's position now in the point's frame: its fix moved by the port's change since the fix (R200). -/
def entryPos (s : State) (k : Nat) (e : UnitEntry) : Int :=
  e.x + (s.getS40 F.DENC_PORTn_POS_L_POS (s.get F.SECT_VCPk_CFG_PORT k) - e.p)

/-- What R29 and R179 make of a virtual point in use, with its flags written. A port that is still DETACHED counts as late (DESIGN CHOICE,
log entry 77). -/
def vcpJudge (s : State) (k : Nat) : State × Nat :=
  let q := s.get F.SECT_VCPk_CFG_PORT k
  let b := vcpBound s k
  let isLate := fun p => encState s p == encLate || encState s p == encDetached
  let late := isLate q || isLate b
  let m := s.get F.SECT_VCPk_CFG_MSEC k
  let bp := s.getS40 F.DENC_PORTn_POS_L_POS b
  let oor := decide (m < 48) &&
    (decide (bp < s.getS40 F.SECT_VCPk_RMIN_L_RMIN k) || decide (s.getS40 F.SECT_VCPk_RMAX_L_RMAX k < bp))
  let fault := encState s q == encFault || encState s b == encFault
  let s := s.setFlag F.SECT_VCPk_STAT_LATE k late
  let s := s.setFlag F.SECT_VCPk_STAT_OUT_OF_RANGE k oor
  let s := s.setFlag F.SECT_VCPk_STAT_PORT_FAULT k fault
  let new := if fault || (s.unit k).full then 4 else if late || oor then 3 else 0
  (s.set F.SECT_VCPk_STAT_STATE k new, new)

/-- The side on which an entry stands; one exactly at the boundary position lies on the far side (DESIGN CHOICE, log entry 77). -/
def vcpFar (s : State) (k : Nat) (e : UnitEntry) : Bool := decide (s.getS40 F.SECT_VCPk_POS_L_POS k ≤ entryPos s k e)

/-- The sides of the entries at entry to BLIND remembered, and whether it was under the exception of R30. -/
def vcpSides (s : State) (k : Nat) (exc : Bool) : State :=
  s.updUnit k (fun u => { u with exc := exc, entries := u.entries.map (fun e => { e with side := vcpFar s k e }) })

/-- The first state of a virtual point, as counting starts or before: no disturbance (R410). -/
def vcpStart (s : State) (k : Nat) : State :=
  if !s.flag F.SECT_VCPk_CFG_VALID k then s.set F.SECT_VCPk_STAT_STATE k 7 else vcpSides (vcpJudge s k).1 k false

/-- The state of a virtual point evaluated (R29, R179), with the disturbances of entry to FAULTY or BLIND, from UNUSED too, and of exit
from BLIND (R30). -/
def vcpEval (s : State) (k : Nat) : State :=
  if !s.flag F.SECT_VCPk_CFG_VALID k then s.set F.SECT_VCPk_STAT_STATE k 7
  else
    let old := s.get F.SECT_VCPk_STAT_STATE k
    let (s, new) := vcpJudge s k
    if new = old then s
    else if new = 4 then distCp (s.note 0 0x06 0xFF (24 + k) (vcpWord s k)) (24 + k) .cpFaulty
    else if new = 3 then
      let exc := old == 0 && cpLull s (24 + k)
      let s := (vcpSides s k exc).note 0 0x06 0xFF (24 + k) (vcpWord s k)
      if exc then s else distCp s (24 + k) .cpBlind
    else
      let s := s.note 0 0x06 0xFF (24 + k) (vcpWord s k)
      if old == 3 && (s.unit k).exc && (s.unit k).entries.any (fun e => e.side != vcpFar s k e) then
        distCp s (24 + k) .cpBlind
      else s

/-- Every virtual point that a port concerns, evaluated. -/
def vcpEvalPort (s : State) (q : Nat) : State :=
  forN 8 s (fun s k => if s.get F.SECT_VCPk_CFG_PORT k = q ∨ vcpBound s k = q then vcpEval s k else s)

/-- The virtual points of a port that a frame lets leave BLIND: the positions are judged before the frame's passages take entries off
the list (R179), while an entry to BLIND or FAULTY is judged after them, since a passage of the same clock counts first (R31). -/
def vcpExits (s : State) (q : Nat) : State :=
  forN 8 s (fun s k =>
    if (s.get F.SECT_VCPk_CFG_PORT k = q ∨ vcpBound s k = q) ∧ s.get F.SECT_VCPk_STAT_STATE k = 3
        ∧ (vcpEval s k).get F.SECT_VCPk_STAT_STATE k = 0 then vcpEval s k else s)

/-! ### Lull and states of a port -/

/-- A bit of a four-bit flag group of DENC_STATUS set for a port. -/
def denc1 (s : State) (f : Fld) (q : Nat) : State := s.set f 0 (putBit (s.get f) q true)

/-- DENC_PORTn_STAT as one word. -/
def portWord (s : State) (q : Nat) : Nat :=
  regWord s [F.DENC_PORTn_STAT_STATE, F.DENC_PORTn_STAT_LULL, F.DENC_PORTn_STAT_DIR, F.DENC_PORTn_STAT_DIR_VALID,
    F.DENC_PORTn_STAT_DRIFT_FAIL, F.DENC_PORTn_STAT_CLR_ARMED, F.DENC_PORTn_STAT_LAST_ERR, F.DENC_PORTn_STAT_ERR_CNT] q

/-- A port leaves Lull, and with it every section that rests on it (R187, R196). -/
def portLeaveLull (s : State) (q : Nat) : State :=
  if s.flag F.DENC_PORTn_STAT_LULL q then
    let s := s.lower F.DENC_PORTn_STAT_LULL q
    let s := denc1 s F.DENC_STATUS_LULL_CHG q
    forN 48 s (fun s n => if (portsOfSec s n).contains q then secLeaveLull s n else s)
  else s

/-- A port that a write in COMMISSIONING takes out of use: DETACHED, out of Lull, its count and frames forgotten, its virtual points and
the points of its speed evaluated (R29, R184). -/
def portDetach (s : State) (q : Nat) : State :=
  let s := portLeaveLull (s.set F.DENC_PORTn_STAT_STATE q encDetached) q
  let s := ((s.lower F.DENC_PORTn_STAT_DIR_VALID q).lower F.DENC_PORTn_STAT_CLR_ARMED q).lower F.DENC_PORTn_STAT_DRIFT_FAIL q
  let s := s.updEnc q (fun e => { e with loaded := false, frames := [], hist := [], polls := [], lastPoll := none, missed := 0, goodRun := 0 })
  let s := s.note 0 0x08 0xFF q (portWord s q)
  spdPort (vcpEvalPort s q) q

/-- The ports that have ceased to be attached since an earlier state `o`. -/
def portsDetach (o s : State) : State :=
  forN 4 s (fun s q =>
    if o.flag F.DENC_PORTn_CFG_ATTACH q && !s.flag F.DENC_PORTn_CFG_ATTACH q && encState s q != encDetached then portDetach s q else s)

/-- A port goes to FAULT (R192): latched, journaled, out of Lull, its virtual points and the points of its speed evaluated. -/
def portFault (s : State) (q : Nat) : State :=
  if encState s q = encFault then s
  else
    let s := denc1 (s.set F.DENC_PORTn_STAT_STATE q encFault) F.DENC_STATUS_FAULT_NEW q
    let s := portLeaveLull (s.lower F.DENC_PORTn_STAT_CLR_ARMED q) q
    spdPort (vcpEvalPort (s.note 0 0x08 q q (portWord s q)) q) q

/-- A port goes to LATE (R192). The exception of R30 is judged on the Lull of the moment before. A frame, on the other hand, ends the
port's Lull first where it lies outside the band, and a virtual point that it takes out of its range is judged after that: R30 says only
"at that moment" (DESIGN CHOICE, log entry 77). -/
def portLate (s : State) (q : Nat) : State :=
  let s := denc1 (s.set F.DENC_PORTn_STAT_STATE q encLate) F.DENC_STATUS_LATE_NEW q
  let s := portLeaveLull (vcpEvalPort s q) q
  spdPort (s.note 0 0x08 (4 + q) q (portWord s q)) q

/-- A port becomes VALID now. -/
def portValid (s : State) (q : Nat) : State :=
  let s := s.set F.DENC_PORTn_STAT_STATE q encValid
  let s := s.updEnc q (fun e => { e with validSince := s.now, winFrom := s.now, hist := [] })
  s.note 0 0x08 0xFF q (portWord s q)

/-- A poll without a valid frame counted, its frame sampled at `t` (R192): LATE after LATE_LIM of them. -/
def pollMissed (s : State) (q t : Nat) : State :=
  let s := s.updEnc q (fun e => { e with missed := e.missed + 1, goodRun := 0 })
  if lateLimAt s q t ≤ (s.encPort q).missed
      ∧ (encState s q = encValid ∨ encState s q = encDetached) then portLate s q
  else s

/-- Polls that have passed since the last one told of, up to a tick, and brought no frame. -/
def silentPolls (s : State) (q t : Nat) : Nat :=
  match (s.encPort q).lastPoll with
  | some t0 => if pollTicks s q = 0 then 0 else (t - t0 + pollTicks s q / 2) / pollTicks s q - 1
  | none => 0

/-- The last 256 polls with those that brought no frame by a tick. -/
def pollsBy (s : State) (q t : Nat) : List Bool :=
  (List.replicate (min 256 (silentPolls s q t)) false ++ (s.encPort q).polls).take 256

/-- The silent polls before a frame of a tick recorded (R192): they are polls without a valid frame, and as many as LATE_LIM of
them make the port LATE. -/
def pollsRecord (s : State) (q t : Nat) : State :=
  let n := silentPolls s q t
  let l := pollsBy s q t
  let s := s.updEnc q (fun e => { e with polls := l, missed := e.missed + n, lastPoll := some t })
  if n ≠ 0 ∧ lateLimAt s q t ≤ (s.encPort q).missed ∧ encState s q = encValid then portLate s q else s

/-- A faulty frame of a sample tick (R192): discarded and counted; FAULT on a jump or on 16 faulty frames in 256 polls. -/
def frameFaulty (s : State) (q t err : Nat) : State :=
  let s := s.updEnc q (fun e => { e with polls := (true :: e.polls).take 256 })
  let s := (s.indicate.bump F.DENC_PORTn_STAT_ERR_CNT q).set F.DENC_PORTn_STAT_LAST_ERR q err
  let s := if err = 4 ∨ 16 ≤ ((s.encPort q).polls.filter id).length then portFault s q else s
  pollMissed s q t

/-- The newest cell of a Lull window takes a valid frame in; cells older than the longest LULL_TIME, 60,000 cycles, are dropped. -/
def lullTake (c : Nat) (pos : Int) : List LullCell → List LullCell
  | [] => [⟨c, pos, pos, pos⟩]
  | x :: xs =>
    if x.cycle = c then { x with lo := min x.lo pos, hi := max x.hi pos } :: xs
    else ⟨c, pos, pos, pos⟩ :: (x :: xs).takeWhile (fun y => decide (c ≤ y.cycle + 60000))

/-- Direction by hysteresis (R195): the first movement from the Lull position sets it, later ones toggle it. -/
def portDir (s : State) (q t : Nat) (pos : Int) : State :=
  let h : Int := dirHystAt s q t * 10
  let e := s.encPort q
  if s.flag F.DENC_PORTn_STAT_DIR_VALID q then
    if s.flag F.DENC_PORTn_STAT_DIR q then
      if e.extreme + h < pos then
        denc1 ((s.lower F.DENC_PORTn_STAT_DIR q).updEnc q (fun e => { e with extreme := pos })) F.DENC_STATUS_DIRCHG q
      else s.updEnc q (fun e => { e with extreme := min e.extreme pos })
    else
      if pos < e.extreme - h then
        denc1 ((s.raise F.DENC_PORTn_STAT_DIR q).updEnc q (fun e => { e with extreme := pos })) F.DENC_STATUS_DIRCHG q
      else s.updEnc q (fun e => { e with extreme := max e.extreme pos })
  else if s.flag F.DENC_PORTn_STAT_LULL q then s
  else if e.lullPos + h < pos ∨ pos < e.lullPos - h then
    let s := (s.setFlag F.DENC_PORTn_STAT_DIR q (decide (pos < e.lullPos))).raise F.DENC_PORTn_STAT_DIR_VALID q
    s.updEnc q (fun e => { e with extreme := pos })
  else s

/-- The speed over the last SPEED_WIN frames (R195), rounded as the implementation rounds; 0 before the window is full. -/
def portSpeed (s : State) (q : Nat) : Int :=
  let fr := (s.encPort q).frames
  let w := s.get F.DENC_PORTn_TIMING_SPEED_WIN q
  match fr.head?, fr[w]? with
  | some b, some a => if w = 0 then 0 else qdiv ((b.2 - a.2) * 60000000) ((b.1 : Int) - a.1)
  | _, _ => 0

/-- A valid frame taken into the port: count, frame list, and, unless the port is in FAULT, its registers, state,
direction and exit from Lull. Lull ends before a virtual point that this frame takes out of its range is judged under R30, which says
only "at that moment": such a point disturbs its sections (DESIGN CHOICE, log entry 77). -/
def frameValid (s : State) (q t raw : Nat) (count : Int) : State :=
  let pos := framePos s q t count
  let first := !(s.encPort q).loaded
  let s := s.updEnc q (fun e =>
    { e with loaded := true, raw := raw, count := count, frames := keepFrames (latchHorizon s) ((t, pos) :: e.frames),
             polls := (false :: e.polls).take 256, missed := 0, goodRun := e.goodRun + 1,
             lullPos := if first then pos else e.lullPos, extreme := if first then pos else e.extreme })
  let s := holdsLatch s q
  if encState s q = encFault then s
  else
    let s := (s.setS40 F.DENC_PORTn_POS_L_POS q pos).set40 F.DENC_PORTn_TS_L_TS q (ts40 t)
    let s := if encState s q = encValid then s else portValid s q
    let s := s.updEnc q (fun e => { e with hist := lullTake (t / cycleTicks) pos e.hist })
    let s := s.setS40 F.DENC_PORTn_SPEED_L_SPEED q (portSpeed s q)
    let band : Int := lullBandAt s q t
    let lp := (s.encPort q).lullPos
    let s := if lp + band < pos ∨ pos < lp - band then portLeaveLull s q else s
    vcpExits (portDir s q t pos) q

/-- An encoder frame judged (R189 to R192); the second component is true when it was valid. -/
def takeFrame (s : State) (q edge : Nat) (idleHigh : Bool) (bits : List Bool) : State × Bool :=
  let t := edge + s.get F.DENC_PORTn_TIMING_LAT_COMP q
  let s := pollsRecord s q edge
  let e := s.encPort q
  if !idleHigh then (frameFaulty s q t 1, false)
  else if errBit s q bits then (frameFaulty s q t 2, false)
  else if parityBad s q bits then (frameFaulty s q t 3, false)
  else
    let raw := rawOf s q bits
    let w := s.get F.DENC_PORTn_FRAME_POS_WIDTH q
    let count := if e.loaded then extend w e.count e.raw raw else count40 raw
    let lim : Int := maxStepAt s q t * 4
    let step := posUnder (scaleAtTick s q t) count - posUnder (scaleAtTick s q t) e.count
    if e.loaded ∧ (lim < step ∨ step < -lim) then
      -- the frame is discarded; a port in FAULT goes on decoding, and the next frame is judged against this one (R197)
      (frameFaulty (s.updEnc q (fun e => { e with raw := raw, count := count })) q t 4, false)
    else (frameValid s q t raw count, true)

/-- Entry to Lull at a boundary (R196): VALID throughout the window, and every valid frame of it within the band of the
first. The window is that of the LULL_TIME in force (R206). -/
def portEnterLull (s : State) (q : Nat) : State :=
  let lt := s.get F.DENC_PORTn_LULL_LULL_TIME q
  let e := s.encPort q
  let win := e.hist.takeWhile (fun c => decide (s.cycle ≤ c.cycle + lt))
  let band : Int := s.get F.DENC_PORTn_LULL_LULL_BAND q
  match win.getLast? with
  | none => s
  | some c0 =>
    if encState s q = encValid ∧ !s.flag F.DENC_PORTn_STAT_LULL q ∧ e.validSince + lt * cycleTicks ≤ s.now
        ∧ e.winFrom + lt * cycleTicks ≤ s.now
        ∧ win.all (fun c => decide (c0.first - band ≤ c.lo) && decide (c.hi ≤ c0.first + band)) then
      let s := (s.raise F.DENC_PORTn_STAT_LULL q).lower F.DENC_PORTn_STAT_DIR_VALID q
      let s := s.updEnc q (fun e => { e with lullPos := s.getS40 F.DENC_PORTn_POS_L_POS q })
      spdPort (denc1 s F.DENC_STATUS_LULL_CHG q) q
    else s

/-- Marks naming a port. -/
def portMarked (s : State) (q : Nat) : Bool :=
  (List.range 8).any (fun m => s.flag F.DENC_REFm_CFG_VALID m && s.get F.DENC_REFm_CFG_PORT m == q)

/-- The last decoded frame published: what a port in FAULT withheld from every user (R197). -/
def portPublish (s : State) (q : Nat) : State :=
  match (s.encPort q).frames.head? with
  | none => s
  | some f =>
    let s := (s.setS40 F.DENC_PORTn_POS_L_POS q f.2).set40 F.DENC_PORTn_TS_L_TS q (ts40 f.1)
    s.setS40 F.DENC_PORTn_SPEED_L_SPEED q (portSpeed s q)

/-- A port leaves FAULT (R197): VALID with the position of its last decoded frame, or LATE where its last LATE_LIM polls brought no
valid frame (R192). -/
def portRelease (s : State) (q : Nat) : State :=
  let s := (s.lower F.DENC_PORTn_STAT_CLR_ARMED q).lower F.DENC_PORTn_STAT_DRIFT_FAIL q
  if s.get F.DENC_PORTn_LIM_LATE_LIM q ≤ (s.encPort q).missed then portLate s q
  else spdPort (vcpEvalPort (portPublish (portValid s q) q) q) q

/-- An armed port without a reference mark leaves FAULT when its last 256 polls hold no faulty frame (R197). -/
def portFaultBoundary (s : State) (q : Nat) : State :=
  if encState s q = encFault ∧ s.flag F.DENC_PORTn_STAT_CLR_ARMED q ∧ !portMarked s q
      ∧ !(pollsBy s q s.now).any id then portRelease s q
  else s

/-- The drift check of one mark at a passage of its point (R197). -/
def driftCheck (s : State) (m p : Nat) (neg : Bool) : State :=
  let q := s.get F.DENC_REFm_CFG_PORT m
  let l := if encState s q = encLate ∨ !s.flag F.DENC_PORTn_CFG_ATTACH q then (3, 0) else holdDecoded s p q
  if l.1 = 1 ∨ l.1 = 2 then
    let d := l.2 - (if neg then s.getS40 F.DENC_REFm_POSN_L_POSN m else s.getS40 F.DENC_REFm_POSP_L_POSP m)
    let s := s.set F.DENC_PORTn_DRIFT_DRIFT q (fitS 32 d)
    let lim : Int := s.get F.DENC_REFm_CFG_DRIFT_LIM m
    if lim < d ∨ d < -lim then
      let s := denc1 (s.raise F.DENC_PORTn_STAT_DRIFT_FAIL q) F.DENC_STATUS_DRIFT_FAIL q
      portFault s q
    else if encState s q = encFault ∧ s.flag F.DENC_PORTn_STAT_CLR_ARMED q
        ∧ s.get F.DENC_PORTn_LIM_LATE_LIM q ≤ (s.encPort q).goodRun then portRelease s q
    else s
  else s

/-- Every valid mark at a sensor point checked. -/
def driftAt (s : State) (p : Nat) (neg : Bool) : State :=
  forN 8 s (fun s m => if s.flag F.DENC_REFm_CFG_VALID m ∧ s.get F.DENC_REFm_CFG_SP m = p then driftCheck s m p neg else s)

end Sys2Proof.Machine
end

