-- ==== Sys2Proof/Machine/Speed.lean ====
section
/-!
DEFINITION. Speed and standstill of sensor points (R181 to R187): the events of the speed status table of R183, the held
speed going STALE, and entry to Lull.
-/

namespace Sys2Proof.Machine

/-- What the sequencer tells the speed table. -/
inductive SpdEvent where
  | onset
  | pair (v : Int) (neg : Bool) (t : Nat)
  | full (v : Int) (neg : Bool) (t : Nat)
  | reversed (neg : Bool)
  | lull
  deriving DecidableEq, Repr

/-- The speed status table (R183). `neg` is a sense in the point's frame; speeds are signed in the track's sense. -/
def spdEvent (s : State) (p : Nat) (e : SpdEvent) : State :=
  let (s, hard) := spdHard s p
  if hard then s
  else
    match e with
    | .lull => setDir (setSpd s p sstLull 0) p false false false
    | .onset =>
      let st := spdSt s p
      if st = sstLull ∨ st = sstStale ∨ st = sstInvalid ∨ st = sstEncoder then
        setDir (setSpd s p sstUnresolved 0) p false false false
      else s
    | .pair v neg t =>
      let tn := trackNeg s p neg
      let s := (setSpd s p sstOnset (if tn then -v else v)).updPoint p (fun x => { x with spdTick := t })
      setDir s p tn true false
    | .full v neg t =>
      let tn := trackNeg s p neg
      let s := (setSpd s p sstFull (if tn then -v else v)).updPoint p (fun x => { x with spdTick := t })
      setDir s p tn true false
    | .reversed neg => setDir (setSpd s p sstUnresolved 0) p (trackNeg s p neg) true true

/-- The row of an onset comes before the rows of what that onset also is (R183: of several rows the first): it applies while SPD_ST is
LULL, STALE or INVALID. -/
def spdOnset (s : State) (p : Nat) (e : SpdEvent) : State :=
  let st := spdSt s p
  spdEvent s p (if st = sstLull ∨ st = sstStale ∨ st = sstInvalid then .onset else e)

/-- Twice the distance between axles that GAP_NOM expects, in µm (R185). -/
def gapDist (s : State) (p : Nat) : Nat := 2 * (s.get F.SPOS_SPn_CFG_GAP_NOM p * 100000)

/-- A speed is at least 2 × E ticks old, E = GAP_NOM ÷ |v| (R185), given the distance 2 × GAP_NOM: at that speed the distance
has been covered. A speed of 0 covers none. -/
def gapAged (dist : Nat) (v : Int) (ticks : Nat) : Bool := decide (dist * 60000000 ≤ ticks * v.natAbs) && v != 0

/-- A held pair speed goes STALE at the first boundary at or after t_set + 2 × E (R185). -/
def speedStale (s : State) (p : Nat) : State :=
  if (spdSt s p = sstOnset ∨ spdSt s p = sstFull)
      ∧ gapAged (gapDist s p) (s.getS40 F.SPOS_SPn_SPEED_L_SPEED p) (s.now - (s.point p).spdTick) then
    (s.set F.SPOS_SPn_SST_SPD_ST p sstStale).raise F.SPOS_STATUS_STALE
  else s

/-- The conditions under which a point may not count as quiet (R186). -/
def pointUnquiet (s : State) (p : Nat) : Bool :=
  let bad := fun c => c == 1 || c == 5 || c == 6
  bad (chState s (2 * p)) || bad (chState s (2 * p + 1))

/-- A point enters Lull at a boundary when it has been quiet for LULL_TIME safety cycles (R186). -/
def pointEnterLull (s : State) (p : Nat) : State :=
  if pointUnquiet s p then s.updPoint p (fun x => { x with quietSince := s.now })
  else if !(s.point p).lull ∧ (s.point p).quietSince + s.get F.SPOS_CFG_LULL_TIME * cycleTicks ≤ s.now then
    let s := s.updPoint p (fun x => { x with lull := true })
    spdEvent (s.raise F.SPOS_SPn_SST_LULL p) p .lull
  else s

end Sys2Proof.Machine
end

