-- ==== Sys2Proof/Machine/Events.lean ====
section
/-!
DEFINITION. Wheel-event records (R134 to R138): the record's bytes, its copy in the Gust queue, its serial, its
counters, and the exit from Lull that it causes.
-/

namespace Sys2Proof.Machine

/-- The kinds of wheel event, in the order of their TYPE codes from 0x10. -/
inductive EvKind where
  | onset | offset | passage | eddy | parked | resume | holdCancel | seqFault | unresolved
  deriving DecidableEq, Repr, Inhabited

/-- TYPE less 0x10 (R135). -/
def EvKind.idx : EvKind → Nat
  | .onset => 0 | .offset => 1 | .passage => 2 | .eddy => 3 | .parked => 4 | .resume => 5 | .holdCancel => 6
  | .seqFault => 7 | .unresolved => 8

/-- PEAK of a record (R134): the higher peak of the two systems, LSB 2^−8, saturating. -/
def peakByte (s : State) (p : Nat) : Nat :=
  let m := max (s.chan (2 * p)).peak (s.chan (2 * p + 1)).peak
  if m ≤ 0 then 0 else min 255 (qdiv m (2 ^ 31 : Nat)).toNat

/-- What a record says beside its point, its time and the latches. -/
structure EvInfo where
  kind : EvKind
  sys : Bool := false
  entry : Entry
  dirNeg : Bool := false
  reason : Nat := 0
  peak : Nat := 0
  deriving DecidableEq, Repr

/-- The 32 bytes of a record (R134). -/
def evBytes (s : State) (p : Nat) (i : EvInfo) (ts serial : Nat) (lat : List (Nat × Int)) : List Byte :=
  let mapped := (pointCp s p).isSome
  let isPass := i.kind == .passage
  let b1 := p + 32 * b2n i.sys + 64 * i.entry.code
  let b2 := b2n (isPass && i.dirNeg) + 2 * b2n (isPass && mapped && trackNeg s p i.dirNeg)
    + 4 * b2n (s.point p).earlyRaised + 8 * b2n mapped + 16 * i.reason
  let b3 := (List.range 4).foldl (fun a k => a + (nth lat k).1 * 4 ^ k) 0
  leBytes 1 (0x10 + i.kind.idx) ++ leBytes 1 b1 ++ leBytes 1 b2 ++ leBytes 1 b3 ++ leBytes 5 (ts40 ts)
    ++ (List.range 4).flatMap (fun k => leBytes 5 (ofSigned 40 (nth lat k).2))
    ++ leBytes 2 serial ++ leBytes 1 i.peak

/-- A wheel event produced (R134 to R138, R186): SERIAL steps, the record goes to the Gust queue where its kind is
selected, a SEQ_FAULT to the journal, the outcome counters step, and the point leaves Lull unless the kind is PARKED. -/
def emit (s : State) (p : Nat) (i : EvInfo) (ts : Nat) (lat : List (Nat × Int)) : State :=
  let s := s.bumpWrap F.WEV_STATUS_SERIAL
  let bytes := evBytes s p i ts (s.get F.WEV_STATUS_SERIAL) lat
  let s := if bitAt (s.get F.WEV_GQ_FILTER_KINDS) i.kind.idx then s.gust ts bytes else s
  let s :=
    match i.kind with
    | .seqFault =>
      let s := (s.raise F.WEV_STATUS_SEQ_FAULT).bump F.WEV_SPn_XCNT_SEQ_FAULT p
      s.journal ⟨0, 0x04, 0, p, ts, pointWord s p, bytes.take 4 ++ (bytes.drop 20).take 8⟩
    | .eddy => s.bump F.WEV_SPn_XCNT_EDDY p
    | .holdCancel => s.bump F.WEV_SPn_XCNT_HOLD_CANCEL p
    | .unresolved => s.bump F.WEV_SPn_XCNT_UNRESOLVED p
    | .passage => if i.dirNeg then s.bumpWrap F.WEV_SPn_PCNT_NEG p else s.bumpWrap F.WEV_SPn_PCNT_POS p
    | .parked => s.raise F.WEV_STATUS_PARK_NEW
    | _ => s
  match i.kind with
  | .parked => s.updPoint p (fun x => { x with quietSince := s.now })
  | _ => pointLeaveLull s p

end Sys2Proof.Machine
end

