-- ==== Sys2Proof/Machine/Compare.lean ====
section
/-!
DEFINITION. The compare units (R202 to R204): firing, the loss of the named axle, and a position shown to an armed unit.
-/

namespace Sys2Proof.Machine

def State.cmp (s : State) (k : Nat) : CmpUnit := nth s.cmps k
def State.updCmp (s : State) (k : Nat) (f : CmpUnit → CmpUnit) : State := { s with cmps := upd s.cmps k f }

/-- A compare fires (R202): once per arming. -/
def cmpFire (s : State) (k t : Nat) (late : Bool) : State :=
  let s := s.set40 F.DENC_CMPk_FTS_L_FTS k (ts40 t)
  let s := (s.raise F.DENC_CMPk_STAT_FIRED k).bump F.DENC_CMPk_STAT_FIRE_CNT k
  let s := (s.setFlag F.DENC_CMPk_STAT_LATE k late).lower F.DENC_CMPk_STAT_ARMED k
  let s := s.lower F.DENC_CMPk_STAT_BEHIND k
  let s := s.raise F.DENC_STATUS_CMP_FIRED
  let s := s.set F.DENC_CMP_STATUS_FIRED 0 (putBit (s.get F.DENC_CMP_STATUS_FIRED) k true)
  let st := s.get F.DENC_CMPk_STAT_ARMED k + 2 * s.get F.DENC_CMPk_STAT_BEHIND k + 4 * s.get F.DENC_CMPk_STAT_FIRED k
    + 8 * s.get F.DENC_CMPk_STAT_LATE k + 16 * s.get F.DENC_CMPk_STAT_LOST k
  let ax := if s.flag F.DENC_CMPk_CFG_SRC k then s.get F.DENC_CMPk_AXLE_AXLE_ID k else 0
  s.gustKind 2 k t (leBytes 1 st ++ leBytes 4 ax ++ leBytes 5 (s.get40 F.DENC_CMPk_POS_L_POS k))

/-- An axle compare whose axle is not in the ledger: LOST, disarmed (R204). -/
def cmpLost (s : State) (k : Nat) : State :=
  let s := (s.raise F.DENC_CMPk_STAT_LOST k).lower F.DENC_CMPk_STAT_ARMED k
  let s := s.raise F.DENC_STATUS_CMP_LOST
  s.set F.DENC_CMP_STATUS_LOST 0 (putBit (s.get F.DENC_CMP_STATUS_LOST) k true)

/-- The position at or beyond POS in the fire direction. -/
def cmpPassed (s : State) (k : Nat) (x : Int) : Bool :=
  let p := s.getS40 F.DENC_CMPk_POS_L_POS k
  match s.get F.DENC_CMPk_CFG_FDIR k with
  | 1 => decide (p ≤ x)
  | 2 => decide (x ≤ p)
  | _ => false

/-- A move from one position to another crosses POS in the fire direction (R202). -/
def cmpCrosses (s : State) (k : Nat) (a b : Int) : Bool :=
  let p := s.getS40 F.DENC_CMPk_POS_L_POS k
  let up := decide (a < p) && decide (p ≤ b)
  let dn := decide (p < a) && decide (b ≤ p)
  match s.get F.DENC_CMPk_CFG_FDIR k with
  | 0 => up || dn
  | 1 => up
  | 2 => dn
  | _ => false

/-- An armed compare shown a position at a tick. -/
def cmpStep (s : State) (k t : Nat) (x : Int) (exactTick : Bool) : State :=
  if !s.flag F.DENC_CMPk_STAT_ARMED k then s
  else
    match (s.cmp k).prev with
    | none => s.updCmp k (fun c => { c with prev := some (t, x) })
    | some (t0, x0) =>
      let p := s.getS40 F.DENC_CMPk_POS_L_POS k
      let s := s.updCmp k (fun c => { c with prev := some (t, x) })
      let behind := s.flag F.DENC_CMPk_STAT_BEHIND k
      if cmpCrosses s k x0 x ∧ !behind then
        let tick := if exactTick then t else ((t0 : Int) + qdiv ((p - x0) * ((t : Int) - t0)) (x - x0)).toNat
        cmpFire s k tick false
      else if behind ∧ !cmpPassed s k x then s.lower F.DENC_CMPk_STAT_BEHIND k
      else s

/-- The armed axle compares that name an axle. -/
def cmpsOf (s : State) (id : Nat) : List Nat :=
  (List.range 16).filter (fun k =>
    s.flag F.DENC_CMPk_STAT_ARMED k && s.flag F.DENC_CMPk_CFG_SRC k && s.get F.DENC_CMPk_AXLE_AXLE_ID k == id)

end Sys2Proof.Machine
end

