-- ==== Sys2Proof/Machine/Ledger.lean ====
section
/-!
DEFINITION. The axle ledger (R140 to R161): records in working memory, signatures (R145 to R149), the alignment of a
match job (R150, R151), provisional and final assignments (R152), deferral (R154 to R156), section evidence (R158,
R159), localisation verdicts (R160), slip (R161), and the estimates the alignment orders its candidates by (R199).
Costs are exact rational numbers, since the spec gives them no format.
-/

namespace Sys2Proof.Machine

/-! ### Membership (R141, R143) -/

/-- Membership written, with LCOUNT of every section that it changes; a member whose identity has lapsed has been in the sections of
before and is in those of now (R158). -/
def setMembers (s : State) (i new : Nat) : State :=
  let old := recMembers s i
  let s := if recFlag s i fLapsed then
      forN 48 s (fun s n =>
        if (bitAt old n || bitAt new n) && s.flag F.LEDG_SECn_EVID n then s.raise F.LEDG_SECn_BAD_LAPSED n else s)
    else s
  let s := recPut s i 6 6 new
  forN 48 s (fun s n =>
    if bitAt old n = bitAt new n then s
    else if bitAt new n then s.set F.LEDG_SECn_LCOUNT n (s.get F.LEDG_SECn_LCOUNT n + 1)
    else s.set F.LEDG_SECn_LCOUNT n (s.get F.LEDG_SECn_LCOUNT n - 1))

/-- Departure sections replaced by arrival sections (R141). -/
def moveMembers (s : State) (i : Nat) (dep arr : List Nat) : State :=
  let m := recMembers s i
  setMembers s i (maskOf 48 (fun n => (bitAt m n && !dep.contains n) || arr.contains n))

/-- A slot freed and zero-filled (R143); compares on its axle are LOST (R204). -/
def freeSlot (s : State) (i : Nat) : State :=
  if axleId s i = 0 then s
  else
    let s := forEach (cmpsOf s (axleId s i)) s cmpLost
    let s := setMembers s i 0
    let s := s.putBytes (recAddr i) (List.replicate 96 0)
    s.set F.LEDG_STATUS_IN_FLIGHT 0 (s.get F.LEDG_STATUS_IN_FLIGHT - 1)

/-- The twelve bytes of a signature. -/
def Sig.bytes (g : Sig) : List Byte :=
  leBytes 2 g.peak ++ leBytes 2 g.flen ++ leBytes 2 g.abr ++ leBytes 2 (ofSigned 16 g.asym) ++ leBytes 2 g.diam
    ++ leBytes 1 g.vmask ++ leBytes 1 g.nsamp

/-- A signature read from twelve bytes. -/
def Sig.ofBytes (b : List Byte) : Sig :=
  { peak := ofLeBytes (b.take 2), flen := ofLeBytes ((b.drop 2).take 2), abr := ofLeBytes ((b.drop 4).take 2),
    asym := toSigned 16 (ofLeBytes ((b.drop 6).take 2)), diam := ofLeBytes ((b.drop 8).take 2),
    vmask := ofLeBytes ((b.drop 10).take 1), nsamp := ofLeBytes ((b.drop 11).take 1) }

def sigLast (s : State) (i : Nat) : Sig := Sig.ofBytes (s.getBytes (recAddr i + 44) 12)
def sigRef (s : State) (i : Nat) : Sig := Sig.ofBytes (s.getBytes (recAddr i + 56) 12)

/-! ### Signatures (R145 to R147) -/

/-- The first tick at which a waveform (oldest first) rises to a level, interpolated. -/
def riseAt (lvl : Int) : List (Nat × Int) → Option Int
  | a :: b :: rest =>
    if lvl ≤ a.2 then some a.1
    else if lvl ≤ b.2 then some (a.1 + nearest ((lvl - a.2) * ((b.1 : Int) - a.1)) (b.2 - a.2))
    else riseAt lvl (b :: rest)
  | [a] => if lvl ≤ a.2 then some a.1 else none
  | [] => none

/-- The last tick at which a waveform falls below a level: the rise of the waveform seen backwards. -/
def fallAt (lvl : Int) (w : List (Nat × Int)) : Option Int := riseAt lvl w.reverse

/-- Peak of a waveform, 0 when empty. -/
def wavePeak (w : List (Nat × Int)) : Int := (w.map (·.2)).foldl max 0

/-- Width at a percentage of the waveform's own peak, in ticks. -/
def widthAt (w : List (Nat × Int)) (pct : Nat) : Int :=
  let lvl := wavePeak w * pct / 100
  match riseAt lvl w, fallAt lvl w with
  | some a, some b => b - a
  | _, _ => 0

/-- Rise and fall times between 25 % and 75 % of the peak. -/
def riseFall (w : List (Nat × Int)) : Int × Int :=
  let q := wavePeak w / 4
  match riseAt q w, riseAt (3 * q) w, fallAt (3 * q) w, fallAt q w with
  | some a, some b, some c, some d => (b - a, d - c)
  | _, _, _, _ => (0, 0)

/-- Untagged samples at or above half the peak. -/
def aboveHalf (w : List (Nat × Int)) : Nat := (w.filter (fun x => decide (wavePeak w ≤ 2 * x.2))).length

/-- Ratio of a quotient to an LSB of 2^−12, saturated to sixteen bits where the format ends. -/
def q12 (num den : Int) : Nat := fitU 16 (qdiv (num * 4096) den)

/-- What a passage gave the signature extractor: the two waveforms, the onset and offset intervals, which system was met
first, whether a PARKED or RESUME record fell in it, spacing and field in 0.1 mm. -/
structure SigIn where
  wa : List (Nat × Int)
  wb : List (Nat × Int)
  don : Int
  doff : Int
  aFirst : Bool
  parked : Bool
  spacing : Nat
  field : Nat
  abrRef : Nat
  diamRef : Nat
  deriving DecidableEq, Repr

/-- The raw ABR of a passage, LSB 2^−12. -/
def rawAbr (x : SigIn) : Nat :=
  let pa := wavePeak x.wa
  let pb := wavePeak x.wb
  if x.aFirst then q12 pa pb else q12 pb pa

/-- The raw DIAM of a passage: the mean of W_75 ÷ W_25, LSB 2^−12. -/
def rawDiam (x : SigIn) : Nat :=
  let f := fun w => (widthAt w 75, widthAt w 25)
  let a := f x.wa
  let b := f x.wb
  fitU 16 (qdiv ((a.1 * b.2 + b.1 * a.2) * 4096) (2 * a.2 * b.2))

/-- The signature of a passage (R145, R146), and whether SIG_PARTIAL applies. -/
def signature (x : SigIn) : Sig × Bool :=
  let na := aboveHalf x.wa
  let nb := aboveHalf x.wb
  let part := decide (na < 8) || decide (nb < 8)
  let steady := decide (4 * (x.don - x.doff).natAbs ≤ (max x.don x.doff).natAbs) && !x.parked
  let v := if part then 0 else if steady then 0b11111 else 0b00101
  let mean2 : Int := x.don + x.doff
  let ra := riseFall x.wa
  let rb := riseFall x.wb
  let asymOf := fun (r : Int × Int) => qdiv ((r.1 - r.2) * 32768) (r.1 + r.2)
  let g : Sig :=
    { peak := fitU 16 (qdiv (wavePeak x.wa + wavePeak x.wb) (2 ^ 24 : Nat))
      flen := fitU 16 (qdiv ((widthAt x.wa 50 + widthAt x.wb 50) * x.spacing * 65536) (mean2 * x.field))
      abr := fitU 16 (qdiv ((rawAbr x : Int) * 4096) x.abrRef)
      asym := toSigned 16 (fitS 16 (qdiv (asymOf ra + asymOf rb) 2))
      diam := fitU 16 (qdiv ((rawDiam x : Int) * 4096) x.diamRef)
      vmask := v
      nsamp := min 255 (min na nb) }
  (g, part)

/-- Insertion into an ascending list. -/
def insertAsc (x : Nat) : List Nat → List Nat
  | [] => [x]
  | y :: ys => if x ≤ y then x :: y :: ys else y :: insertAsc x ys

/-- The median of an odd number of values. -/
def median (l : List Nat) : Nat := (l.foldr insertAsc []).getD (l.length / 2) 0

/-- References of a point at a boundary (R147): medians of the last 63 values, 1.0 until there are 63. -/
def refBoundary (s : State) (p : Nat) : State :=
  let x := s.point p
  let s := s.set F.LEDG_SPn_REF_ABR_REF p (if x.abrRaw.length < 63 then 0x1000 else median x.abrRaw)
  s.set F.LEDG_SPn_REF_DIAM_REF p (if x.diamRaw.length < 63 then 0x1000 else median x.diamRaw)

/-- Raw values of a passage kept for the medians. -/
def keepRaw (s : State) (p : Nat) (x : SigIn) (g : Sig) : State :=
  s.updPoint p (fun pt =>
    { pt with abrRaw := if bitAt g.vmask 2 then (rawAbr x :: pt.abrRaw).take 63 else pt.abrRaw,
              diamRaw := if bitAt g.vmask 4 then (rawDiam x :: pt.diamRaw).take 63 else pt.diamRaw })

/-! ### Distance (R148) -/

/-- The values of the ledger's commit group in force (R157); the tolerances of the five features have an LSB of 2^−16 in the
feature's unit. -/
def ledgVals (s : State) : LedgVals :=
  { w := s.get F.LEDG_CFG_W, look := s.get F.LEDG_CFG_LOOKAHEAD, dAcc := s.get F.LEDG_CFG_D_ACC, dCap := s.get F.LEDG_CFG_D_CAP
    ins := s.get F.LEDG_COST_INS_COST, skip := s.get F.LEDG_COST_SKIP_COST
    tol := [s.get F.LEDG_TOL0_PEAK_TOL, s.get F.LEDG_TOL0_FLEN_TOL, s.get F.LEDG_TOL1_ABR_TOL, s.get F.LEDG_TOL1_ASYM_TOL,
      s.get F.LEDG_TOL2_DIAM_TOL]
    gapTol := s.get F.LEDG_TOL2_GAP_TOL, minDist := s.get F.LEDG_SLIP_CFG_MIN_DIST, slipLim := s.get F.LEDG_SLIP_CFG_SLIP_LIM }

/-- A feature brought to an LSB of 2^−16. -/
def featOf (g : Sig) (f : Nat) : Int :=
  match f with
  | 0 => g.peak | 1 => g.flen | 2 => g.abr * 16 | 3 => g.asym * 2 | _ => g.diam * 16

/-- The square of the distance d of R148, exact; none when fewer than two features are valid in both. Where the smaller NSAMP is 0 the
quotient 96 ÷ 0 is the implementation's (DESIGN CHOICE, log entry 12). -/
def dist2 (v : LedgVals) (y x : Sig) (nx : Nat) : Option Rat :=
  let fs := (List.range 5).filter (fun f => bitAt y.vmask f && bitAt x.vmask f)
  if fs.length < 2 then none
  else
    let m := min y.nsamp nx
    let widen : Rat := if m = 0 then max 1 ((Config.divZero 96 : Int) : Rat) else if 96 ≤ m then 1 else (96 : Rat) / m
    let sum := fs.foldl (fun (a : Rat) f =>
      let df : Rat := featOf y f - featOf x f
      let t : Rat := nth v.tol f
      a + df * df / (t * t * widen)) 0
    some (sum / fs.length)

/-- d² with the value 63.98² where no distance can be formed. -/
def dist2Or (d : Option Rat) : Rat := d.getD ((6398 : Rat) / 100 * ((6398 : Rat) / 100))

/-- MATCH_DIST: d with an LSB of 2^−6, to the nearest as the worked example has it (0.40 reads 26), saturating at 255; 255 where
no distance can be formed. -/
def distByte (d : Option Rat) : Nat :=
  match d with
  | none => 255
  | some r =>
    let x := r * 4096
    let n := isqrt x.floor.toNat
    let half : Rat := ((2 * n + 1) * (2 * n + 1) : Nat)
    min 255 (if 4 * x < half then n else if half < 4 * x then n + 1 else n + b2n (Config.tieUp (2 * n + 1 : Nat) 2))

/-- MATCH_MARGIN: a difference of costs with an LSB of 2^−4, to the nearest as the worked example has it (1.84 reads 29). -/
def marginByte (x : Rat) : Nat := min 255 (nearest (x * 16).num (x * 16).den).toNat

/-- d ≤ D_ACC. -/
def inTolerance (v : LedgVals) (d : Option Rat) : Bool :=
  let a : Rat := v.dAcc
  decide (dist2Or d * 4096 ≤ a * a)

/-! ### Estimates (R198, R199) -/

/-- Position statuses of SPOS_AXQ_STAT. -/
def posNone : Nat := 0
def posBound : Nat := 1
def posExtrap : Nat := 2
def posHeld : Nat := 3
def posInvalid : Nat := 4

def estOf (s : State) (id : Nat) : Option AxleEst := s.ests.find? (fun e => e.id == id)

/-- State and position of each port, as a passage keeps them for its turn in the ledger (R153). -/
def portsNow (s : State) : List (Nat × Int) := (List.range 4).map (fun q => (encState s q, s.getS40 F.DENC_PORTn_POS_L_POS q))

/-- The port that moves an axle, by what the ports were: the DRIVE_PORT of the first of its sections that has one; a port that is DETACHED
moves none. -/
def boundIn (s : State) (ps : List (Nat × Int)) (id : Nat) : Option Nat :=
  match slotOf s id with
  | none => none
  | some i =>
    let m := recMembers s i
    ((List.range 48).find? (fun n => bitAt m n && s.flag F.SPOS_SECn_CFG_DRIVE_EN n
      && (nth ps (s.get F.SPOS_SECn_CFG_DRIVE_PORT n)).1 != encDetached)).map
      (fun n => s.get F.SPOS_SECn_CFG_DRIVE_PORT n)

/-- The port that moves an axle at present. -/
def boundPort (s : State) (id : Nat) : Option Nat := boundIn s (portsNow s) id

/-- A latch that holds a position (R193). -/
def latched (l : Nat × Int) : Bool := l.1 == 1 || l.1 == 2

/-- The change of a port's position since a fix, in the frame of the axle (R199). -/
def portShift (s : State) (e : AxleEst) (q : Nat) (pos : Int) : Int :=
  let d := pos - (nth e.lat q).2
  if e.frame = 7 ∧ s.flag F.DENC_PORTn_CFG_TRACK_SIGN q then -d else d

/-- An axle that no port moves at a tick (R199): EXTRAP, and HELD once its speed is 2 × E old, at the end of the distance it was
extrapolated over or, where it was bound until later, where it was then. -/
def estFree (e : AxleEst) (t : Nat) : Nat × Int :=
  if gapAged e.gap e.v (t - e.ts) then (posHeld, e.held.getD (e.x + (if e.v < 0 then -(e.gap : Int) else e.gap)))
  else (posExtrap, e.x + qdiv (e.v * ((t : Int) - e.ts)) 60000000)

/-- Status and position of an axle at a tick, its port at a position if that is known (R199). A port that is LATE or FAULT leaves the
position that it last gave. An axle whose port was not latched at its fix is not bound: the change since is not known (DESIGN
CHOICE, log entry 86). -/
def estWith (s : State) (e : AxleEst) (t : Nat) (ps : List (Nat × Int)) (known : Nat → Option Int) : Nat × Int :=
  match boundIn s ps e.id with
  | none => estFree e t
  | some q =>
    let at_ := fun (x : Int) => if latched (nth e.lat q) then e.x + portShift s e q x else (estFree e t).2
    match known q with
    | some x => if latched (nth e.lat q) then (posBound, at_ x) else estFree e t
    | none =>
      if (nth ps q).1 = encLate ∨ (nth ps q).1 = encFault then (posInvalid, at_ (nth ps q).2) else estFree e t

/-- Status and position of an axle at a tick, by what the ports were then. -/
def estIn (s : State) (ps : List (Nat × Int)) (e : AxleEst) (t : Nat) : Nat × Int :=
  estWith s e t ps (fun q => if (nth ps q).1 = encValid then some (nth ps q).2 else none)

/-- Status and position of an axle at the present tick. -/
def estAt (s : State) (e : AxleEst) (t : Nat) : Nat × Int := estIn s (portsNow s) e t

/-- Status and position of an axle at the tick of a passage, through the positions latched with it. -/
def estLatched (s : State) (e : AxleEst) (o : Obs) : Nat × Int :=
  estWith s e o.ts o.ports (fun q => if latched (nth o.lat q) then some (nth o.lat q).2 else none)

/-- An axle's estimate at the tick of a new fix, with its frame (R201): to be taken before the passage moves its membership. -/
def estBefore (s : State) (id : Nat) (o : Obs) : Option (Nat × Int) :=
  (estOf s id).map (fun e => (e.frame, (estLatched s e o).2))

/-- A fix given to an axle (R198, R201): the residual judged against the estimate of before, then the estimate replaced; a compare
across whose position the fix carries the axle fires at its tick (R204). -/
def giveFix (s : State) (id : Nat) (e : AxleEst) (old : Option (Nat × Int)) : State :=
  let lim : Int := s.get F.SPOS_CFG_FIX_LIM * 1000
  let s :=
    match old with
    | some (fr, x) =>
      if fr = e.frame ∧ (lim < x - e.x ∨ x - e.x < -lim) then (s.raise F.SPOS_STATUS_FIX_ERR).note 0 0x07 4 0xFF 0 else s
    | none => s
  let s := s.putEsts (({ e with id := id } :: s.ests.filter (fun x => x.id != id)).take 8192)
  forEach (cmpsOf s id) s (fun s k => cmpStep s k e.ts (estAt s { e with id := id } s.now).2 true)

/-- An axle that has ceased to be bound, of which `o` is the state before, holds where it was at tick `t` where its speed is too old to
extrapolate (R199); `po` and `ps` are what the ports were before and are after. -/
def heldFrom (o s : State) (id t : Nat) (po ps : List (Nat × Int)) : State :=
  if (boundIn o po id).isSome ∧ (boundIn s ps id).isNone then
    s.putEsts (s.ests.map (fun e =>
      if e.id = id then
        let r := estIn o po e t
        { e with held := if (r.1 == posBound || r.1 == posInvalid) && gapAged e.gap e.v (t - e.ts) then some r.2 else e.held }
      else e))
  else s

/-! ### Section evidence (R158) -/

/-- PENDING of a section: a queued, running or provisional assignment concerns it. -/
def ledgPending (s : State) (n : Nat) : Bool :=
  s.ledger.jobs.any (fun j => j.secs.contains n)
    || s.ledger.obs.any (fun o => !o.final && o.slot.isSome && (o.dep.contains n || o.arr.contains n))

/-- ID_OK (R158): the evidence window runs, nothing bad was seen, cover holds, nothing is pending, the ledger holds no axle. -/
def idOk (s : State) (n : Nat) : Bool :=
  s.flag F.LEDG_SECn_EVID n && !s.flag F.LEDG_SECn_BAD_DIST n && !s.flag F.LEDG_SECn_BAD_LAPSED n
    && !s.flag F.LEDG_SECn_BAD_VIRT n && !s.flag F.LEDG_SECn_BAD_ALIGN n && !s.flag F.LEDG_SECn_COVER_LOST n
    && !s.flag F.LEDG_SECn_PENDING n && s.get F.LEDG_SECn_LCOUNT n == 0

/-- PENDING, BAD_LAPSED and ID_OK of every section follow the ledger. -/
def syncLedger (s : State) : State :=
  let lapsed := if s.get F.LEDG_STATUS_IN_FLIGHT = 0 then []
    else ((liveSlots s).filter (fun i => recFlag s i fLapsed)).map (recMembers s)
  forN 48 s (fun s n =>
    let s := s.setFlag F.LEDG_SECn_PENDING n (ledgPending s n)
    let s := if s.flag F.LEDG_SECn_EVID n ∧ lapsed.any (fun m => bitAt m n) then s.raise F.LEDG_SECn_BAD_LAPSED n else s
    s.setFlag F.LEDG_SECn_ID_OK n (idOk s n))

/-- A BAD bit set for the sections of a list whose evidence window runs. -/
def setBad (s : State) (f : Fld) (l : List Nat) : State :=
  forEach l s (fun s n => if s.flag F.LEDG_SECn_EVID n then s.raise f n else s)

def coverLost (s : State) (l : List Nat) : State := forEach l s (fun s n => s.raise F.LEDG_SECn_COVER_LOST n)

/-- A record marked IDENTITY_LAPSED (R156). -/
def lapse (s : State) (i : Nat) : State :=
  if recFlag s i fLapsed then s
  else
    let s := (recSetFlag s i fLapsed true).raise F.LEDG_STATUS_LAPSE_NEW
    s.bump F.LEDG_CNT_LAPSED_CNT

/-- Every record whose membership includes a section of a list marked. -/
def lapseSecs (s : State) (l : List Nat) : State :=
  let mask := secMask l
  forEach (liveSlots s) s (fun s i => if recMembers s i &&& mask ≠ 0 then lapse s i else s)

/-- A section cleared from every record by a restore at tick `t` (R159): records left empty are freed, each with a journal entry. What a
revised assignment would bring back does not bring the section back. -/
def ledgerClearSec (s : State) (n t : Nat) (ps : List (Nat × Int)) : State :=
  let s := s.putLedger { s.ledger with obs := s.ledger.obs.map (fun (o : Obs) =>
    if o.saved.isEmpty then o
    else { o with saved := o.saved.take 6 ++ leBytes 6 (putBit (ofLeBytes ((o.saved.drop 6).take 6)) n false) ++ o.saved.drop 12 }) }
  forEach (liveSlots s) s (fun s i =>
    if bitAt (recMembers s i) n then
      let u := setMembers s i (putBit (recMembers s i) n false)
      if recMembers u i = 0 then (freeSlot u i).note 1 0x05 0xFF 0xFF 0 else heldFrom s u (axleId s i) t ps ps
    else s)

/-! ### Localisation verdicts (R160) -/

/-- A verdict issued to the LEDG_LOC queue, the Gust queue and the journal; the sections of the named point lose cover. -/
def issue (s : State) (v : Verdict) : State :=
  let s := s.raise F.LEDG_STATUS_LOC_NEW
  let s := if s.ledger.verdicts.length < 16 then
      s.putLedger { s.ledger with verdicts := s.ledger.verdicts ++ [v] }
    else s.raise F.LEDG_LOC_STAT_LOC_OVF
  let s := s.gustKind 0 v.cp v.ts (leBytes 1 v.kind ++ leBytes 1 v.up ++ leBytes 1 v.dn ++ leBytes 4 v.axle)
  let s := s.journal ⟨0, 0x05, 18, v.cp, v.ts, cpWord s v.cp, []⟩
  coverLost s (secsOf s v.cp)

/-- The sections a passage at a point in a track direction enters. -/
def arrOf (s : State) (p : Nat) (neg : Bool) : List Nat :=
  match pointCp s p with
  | none => []
  | some c => (secsOf s c).filter (fun n => match bndAt s n c with | some b => (!neg) != b.sense | none => false)

/-- The sections a passage at a point in a track direction leaves. -/
def depOf (s : State) (p : Nat) (neg : Bool) : List Nat :=
  match pointCp s p with
  | none => []
  | some c => (secsOf s c).filter (fun n => match bndAt s n c with | some b => (!neg) == b.sense | none => false)

/-- The stations that bound a section. -/
def stationsOf (s : State) (n : Nat) : List Nat := (bnds s n).filterMap (fun b => cpPoint s b.cp)

def cpOr63 (s : State) (p : Nat) : Nat := (pointCp s p).getD 63

/-- The record that an observation is assigned to, while it is still that axle's. -/
def obsSlot (s : State) (o : Obs) : Option Nat :=
  match o.slot with
  | some i => if axleId s i = o.id ∧ o.id ≠ 0 then some i else none
  | none => none

/-- The previous passage at the same station in the same direction whose record is known. -/
def prevObs (s : State) (o : Obs) : Option Obs :=
  s.ledger.obs.find? (fun x => x.sp == o.sp && x.neg == o.neg && x.serial != o.serial && x.ts ≤ o.ts && x.slot.isSome)

/-- The counting points other than a station's own that bound the sections of a departure set. Where the set holds several sections the
verdicts of R160 are judged over all their boundaries, and the lowest section stands for them (DESIGN CHOICE, log entry 87). -/
def otherBounds (s : State) (p : Nat) (dep : List Nat) : List Nat :=
  ((dep.flatMap (bnds s)).map (fun b => b.cp)).dedup.filter (fun c => pointCp s p != some c)

def lowestSec (l : List Nat) : Nat := l.foldl min 63

/-- Every loose entry of an axle that is a shadow, or every one that is an insertion, dropped. -/
def dropLoose (s : State) (id : Nat) (inserted : Bool) : State :=
  s.putLedger { s.ledger with loose := s.ledger.loose.filter (fun l => !(l.id == id && l.inserted == inserted)) }

/-- The sections that an axle can reach from those of a list in one direction of travel, over at most `fuel` stations. -/
def beyond (s : State) (neg : Bool) : Nat → List Nat → List Nat
  | 0, l => l
  | fuel + 1, l =>
    let out := ((l.flatMap (stationsOf s)).dedup).filter (fun q => (depOf s q neg).any (fun n => l.contains n))
    let more := (out.flatMap (fun q => arrOf s q neg)).filter (fun n => !l.contains n)
    if more.isEmpty then l else beyond s neg fuel (l ++ more).dedup

/-- A passage was at a station downstream of another one: one that passages of this direction leave a section beyond it by, or one inside
such a section (R160). -/
def downstream (s : State) (p : Nat) (neg : Bool) (o : Obs) : Bool :=
  o.sp != p && (if (pointCp s o.sp).isSome then depOf s o.sp neg else o.dep).any (fun n => (beyond s neg 48 (arrOf s p neg)).contains n)

/-- The assignments of inserted axles to other stations, noted with them: one that another station has not skipped but taken is not one too
many there (R160, row 3). -/
def noteTaken (s : State) (o : Obs) (id : Nat) : State :=
  s.putLedger { s.ledger with loose := s.ledger.loose.map (fun (l : Loose) =>
    if l.id == id && l.inserted && l.sp != o.sp then { l with skipped := o.sp :: l.skipped } else l) }

/-- An assignment within D_ACC shows where a loose axle was missed (R160, rows 1 and 2). A shadow may reappear at the station that
skipped it, which bounds the sections beyond too, going the other way; in the same direction it has not been beyond it (R150). -/
def localise (s : State) (o : Obs) (id : Nat) : State :=
  let here := fun (l : Loose) => if l.inserted then downstream s l.sp l.neg o else l.sp != o.sp || l.neg != o.neg
  let s := forEach (s.ledger.loose.filter (fun l => l.id == id && o.inTol && here l)) (noteTaken s o id) (fun s l =>
    if l.inserted then
      (match otherBounds s l.sp l.dep with
        | [c] => dropLoose (issue s ⟨1, c, 63, l.sp, id, l.tick⟩) id true
        | _ => dropLoose s id true)
    else if (arrOf s l.sp l.neg).any (fun n => (stationsOf s n).contains o.sp) then
      issue s ⟨1, cpOr63 s l.sp, ofLeBytes ((o.saved.drop 12).take 1) % 64, o.sp, id, l.tick⟩
    else s)
  if (pointCp s o.sp).isSome then dropLoose s id false else s

/-- A final passage at a station passes over the shadows that wait there; one passed over by LOOKAHEAD + 1 of them at every station
that bounds its arrival sections cannot be placed (R160, row 4). -/
def passedOver (s : State) (look : Nat) (o : Obs) : State :=
  let s := s.putLedger ({ s.ledger with loose := s.ledger.loose.map (fun (l : Loose) =>
      if l.inserted || l.id == o.id then l
      else { l with passes := l.passes.map (fun q => if q.1 = o.sp then (q.1, q.2 + 1) else q) }) })
  forEach s.ledger.loose s (fun s l =>
    if !l.inserted && !l.passes.isEmpty && l.passes.all (fun q => decide (look + 1 ≤ q.2)) then
      let up := match slotOf s l.id with | some i => recGet s i 12 1 % 64 | none => 63
      issue (dropLoose s l.id false) ⟨3, cpOr63 s l.sp, up, lowestSec (arrOf s l.sp l.neg), l.id, l.tick⟩
    else s)

/-- An insertion made final (R160): with several other boundaries it cannot be placed; its axle is followed on, since the next station
may still show a count too many (row 3). R160 gives the timestamp of the first pattern's verdict only: those of the others are the tick of
the passage at P, or a shadow's tick there (DESIGN CHOICE, log entry 120). -/
def insertFinal (s : State) (o : Obs) : State :=
  let s := match otherBounds s o.sp o.dep with
    | _ :: _ :: _ => issue s ⟨3, cpOr63 s o.sp, o.sp, lowestSec o.dep, o.id, o.ts⟩
    | _ => s
  s.putLedger { s.ledger with loose := ⟨o.id, o.sp, o.neg, o.ts, true, o.dep, [], []⟩ :: s.ledger.loose }

/-- A skip made final: the record becomes a shadow of the station (R150); an inserted record that the next station of its way skips between
two axles that match within D_ACC shows a count too many (R160, row 3). -/
def finalSkip (s : State) (o : Obs) (sk : Nat × Nat) : State :=
  match slotOf s sk.1 with
  | none => s
  | some i =>
    let s :=
      match s.ledger.loose.find? (fun l => l.id == sk.1 && l.inserted && l.sp != o.sp && l.neg == o.neg && l.skipped.isEmpty
          && o.dep.any (fun n => (arrOf s l.sp l.neg).contains n)) with
      | some l =>
        let before := match prevObs s o with | some x => x.inTol && !x.inserted | none => false
        if before && o.inTol then issue (dropLoose s sk.1 true) ⟨2, cpOr63 s l.sp, l.sp, 63, sk.1, l.tick⟩ else s
      | none => s
    let s := recPut (recSetFlag s i fShadow true) i 77 1 o.sp
    let st := ((arrOf s o.sp o.neg).flatMap (stationsOf s)).dedup
    let was := match s.ledger.loose.find? (fun l => l.id == sk.1 && !l.inserted) with | some l => l.sp :: l.skipped | none => []
    let s := dropLoose s sk.1 false
    s.putLedger { s.ledger with
      loose := ⟨sk.1, o.sp, o.neg, sk.2, false, o.dep, was, st.map (fun p => (p, 0))⟩ :: s.ledger.loose }

/-! ### Slip (R161) -/

/-- The slip of a final assignment between two stations that share a SLIP_PORT; the ratio to the nearest, as the worked example has it
(1310.72 reads 1311). LEDG_SLIP_PORTk holds the mean of the values there are until there are 16 (DESIGN CHOICE, log entry 88). -/
def slip (s : State) (v : LedgVals) (o : Obs) (i : Nat) : State :=
  let p0 := ofLeBytes ((o.saved.drop 12).take 1) % 64
  let enc0 := ofLeBytes ((o.saved.drop 29).take 1)
  let q := s.get F.LEDG_SPn_CFG_SLIP_PORT o.sp
  let l1 := nth o.lat q
  let st0 := enc0 / 4 % 4
  if p0 < 24 ∧ s.flag F.LEDG_SPn_CFG_SLIP_EN p0 ∧ s.flag F.LEDG_SPn_CFG_SLIP_EN o.sp
      ∧ s.get F.LEDG_SPn_CFG_SLIP_PORT p0 = q ∧ (st0 = 1 ∨ st0 = 2) ∧ (l1.1 = 1 ∨ l1.1 = 2) then
    let sgn : Int := if o.neg then -1 else 1
    let dx := sgn * (s.getS40 F.SPOS_SPn_TPOS_L_TPOS o.sp - s.getS40 F.SPOS_SPn_TPOS_L_TPOS p0)
    let e0 := toSigned 40 (ofLeBytes ((o.saved.drop 30).take 5))
    let de := sgn * (if s.flag F.DENC_PORTn_CFG_TRACK_SIGN q then e0 - l1.2 else l1.2 - e0)
    if v.minDist * 100000 ≤ dx.natAbs then
      let r := toSigned 32 (fitS 32 (if 0 < dx then nearest ((de - dx) * 65536) dx else nearest ((dx - de) * 65536) (-dx)))
      let s := recPut s i 73 4 (ofSigned 32 r)
      let vs := (r :: nth s.ledger.slips q).take 16
      let s := s.putLedger { s.ledger with slips := upd s.ledger.slips q (fun _ => vs) }
      let s := s.set F.LEDG_SLIP_PORTk_SLIP q (ofSigned 32 (qdiv (vs.foldl (· + ·) 0) vs.length))
      if v.slipLim < r.natAbs then
        let s := (recSetFlag s i fSlip true).raise F.LEDG_STATUS_SLIP_NEW
        let s := s.gustKind 1 o.sp o.ts (leBytes 4 (axleId s i) ++ leBytes 4 (ofSigned 32 r) ++ leBytes 1 p0)
        s.journal ⟨0, 0x05, 19, o.sp, o.ts, pointWord s o.sp, []⟩
      else s
    else s
  else s

/-! ### Creating, assigning, finalising -/

/-- Distance along the travel between two passages at one station (R150): where the port is not latched at both, the interval times the
mean of the two passages' speeds, which the rule calls the mean passage speed (DESIGN CHOICE, log entry 89). -/
def obsDist (s : State) (a b : Obs) : Int :=
  let q := s.get F.LEDG_SPn_CFG_SLIP_PORT a.sp
  let la := nth a.lat q
  let lb := nth b.lat q
  if latched la ∧ latched lb then
    let d := lb.2 - la.2
    let d := if s.flag F.DENC_PORTn_CFG_TRACK_SIGN q then -d else d
    if a.neg then -d else d
  else qdiv ((a.speed.natAbs + b.speed.natAbs : Int) * ((b.ts : Int) - a.ts)) 120000000

/-- A record joined to the one of the axle ahead at its station: PREV and GAP of the one, NEXT of the other, whose old NEXT the passage
keeps for a later alignment. An axle ahead whose record is in use no more leaves PREV at none and GAP at 0 (DESIGN CHOICE, log entry
109). -/
def linkAhead (s : State) (i : Nat) (o : Obs) : State :=
  let keep := fun (s : State) (l : Option (Nat × Nat × Nat)) => s.putLedger { s.ledger with
    obs := s.ledger.obs.map (fun (x : Obs) => if x.serial = o.serial ∧ x.ts = o.ts then { x with linked := l } else x) }
  match (prevObs s o).bind (fun x => (obsSlot s x).map (fun j => (x, j))) with
  | some (x, j) =>
    let t := keep s (some (j, axleId s j, recGet s j 16 2))
    recPut (recPut (recPut t i 14 2 j) i 35 5 (fitS 40 (obsDist t x o))) j 16 2 i
  | none => recPut (recPut (keep s none) i 14 2 0x1FFF) i 35 5 0

/-- The NEXT that a passage wrote into the record of the axle ahead taken back, where it still is that axle's and stands. -/
def unlink (s : State) (o : Obs) : State :=
  match o.linked with
  | some (j, id, was) => if axleId s j = id ∧ some (recGet s j 16 2) = o.slot then recPut s j 16 2 was else s
  | none => s

/-- The fields of a record that a physical passage writes. -/
def writePassage (s : State) (i : Nat) (o : Obs) : State :=
  let q := s.get F.LEDG_SPn_CFG_SLIP_PORT o.sp
  let l := nth o.lat q
  let s := recPut s i 12 1 (o.sp + 64 * b2n o.neg)
  let s := recPut s i 13 1 (satInc 8 (recGet s i 13 1))
  let s := recPut s i 18 5 (ts40 o.ts)
  let s := recPut s i 29 1 (q + 4 * l.1)
  let s := recPut s i 30 5 (ofSigned 40 l.2)
  let s := recPut s i 40 2 o.serial
  let s := s.putBytes (recAddr i + 44) o.sig.bytes
  let s := recPut s i 68 5 (fitS 40 o.speed)
  linkAhead (recSetFlag s i fPartial o.sigPartial) i o

/-- A new record for a passage (R141, R143): the lowest free slot, the next identity; none when all slots are in use. -/
def createRec (s : State) (o : Obs) (inserted : Bool) : State × Option Nat :=
  match (List.range slots).find? (fun i => axleId s i == 0) with
  | none =>
    let s := (s.raise F.LEDG_STATUS_LEDGER_FULL).bump F.LEDG_CNT_CREATE_FAIL
    (coverLost s o.arr, none)
  | some i =>
    let id := s.ledger.nextId
    let s := s.putLedger { s.ledger with nextId := if id = 0xFFFFFFFF then 1 else id + 1 }
    let s := s.set F.LEDG_STATUS_IN_FLIGHT 0 (s.get F.LEDG_STATUS_IN_FLIGHT + 1)
    let s := recPut (s.putBytes (recAddr i) (List.replicate 96 0)) i 0 4 id
    let s := recPut s i 4 1 (if inserted then 5 else 1)
    let s := recSetFlag s i fInserted inserted
    let s := setMembers s i (secMask o.arr)
    let s := recPut s i 16 2 0x1FFF
    let s := recPut s i 23 5 (ts40 o.ts)
    let s := recPut s i 28 1 o.sp
    let s := writePassage s i o
    let s := s.putBytes (recAddr i + 56) ({ o.sig with nsamp := 1 } : Sig).bytes
    (recPut s i 77 1 63, some i)

/-- The estimator's fix of an observation, given to an axle whose estimate before it is given. -/
def fixObs (s : State) (o : Obs) (id : Nat) (old : Option (Nat × Int)) : State :=
  giveFix s id ⟨id, s.get F.SPOS_SPn_CFG_FRAME o.sp, o.fix, o.speed, gapDist s o.sp, o.ts, o.lat, none⟩ old

/-- Boundary-unit entries created by a passage, and its axle's virtual passages that wait for their turn, take the identity of the
record that the passage is assigned to, once that is final (R142, R200). -/
def nameEntries (s : State) (serial id : Nat) : State :=
  let s := { s with units := s.units.map (fun (u : BoundaryUnit) =>
      { u with entries := u.entries.map (fun (e : UnitEntry) => if e.serial = serial then { e with axle := id } else e) }) }
  s.putLedger { s.ledger with jobs := s.ledger.jobs.map (fun (j : Job) =>
    match j.stage with
    | .virtual n m => if n = 0 ∧ m.serial = serial then ({ j with stage := .virtual id m } : Job) else j
    | _ => j) }

/-- An observation kept, replacing the one with its serial. -/
def putObs (s : State) (o : Obs) : State :=
  s.putLedger { s.ledger with obs := s.ledger.obs.map (fun x => if x.serial = o.serial ∧ x.ts = o.ts then o else x) }

/-- An observation as the ledger now holds it. -/
def obsNow (s : State) (o : Obs) : Obs := (s.ledger.obs.find? (fun x => x.serial == o.serial && x.ts == o.ts)).getD o

/-- A virtual passage moves an axle's record (R142, R144); the axle holds where it was if it is bound no longer (R199). A
record that has left every section is freed once its last assignment is final (R152). -/
def virtualMove (s : State) (i : Nat) (m : VMove) : State :=
  let t := setBad s F.LEDG_SECn_BAD_VIRT (m.dep.filter (fun n => bitAt (recMembers s i) n))
  let s := heldFrom s (moveMembers t i m.dep m.arr) (axleId s i) m.ts m.ports m.ports
  let s := recPut s i 4 1 6
  let s := recSetFlag s i fVirt true
  let s := recPut s i 12 1 (24 + m.k + 64 * b2n m.neg)
  let s := recPut s i 18 5 (ts40 m.ts)
  let s := recPut (recPut s i 29 1 (m.port + 4 * m.lat.1)) i 30 5 (ofSigned 40 m.lat.2)
  let s := recPut s i 68 5 (fitS 40 m.speed)
  if recMembers s i = 0 ∧ !recFlag s i fProv then freeSlot s i else s

/-- A reference signature with one more passage (R149). The spec has one N_ACC and no count per feature: every feature's mean carries the
weight N_ACC, also where the feature was not valid in earlier passages and after N_ACC saturates (DESIGN CHOICE, log entry 90). -/
def Sig.mix (r y : Sig) : Sig :=
  let n := r.nsamp
  let f := fun (b : Nat) (old new : Int) =>
    if bitAt y.vmask b then (if bitAt r.vmask b then qdiv (old * n + new) (n + 1) else new) else old
  { peak := (f 0 r.peak y.peak).toNat, flen := (f 1 r.flen y.flen).toNat, abr := (f 2 r.abr y.abr).toNat,
    asym := f 3 r.asym y.asym, diam := (f 4 r.diam y.diam).toNat, vmask := r.vmask ||| y.vmask, nsamp := satInc 8 n }

/-- The virtual passages that waited for the assignment of their axle's creating passage move its record (R142). -/
def virtualWaiting (s : State) (o : Obs) : State :=
  let vs := s.ledger.vpend.filter (fun v => v.serial == o.serial)
  let s := s.putLedger { s.ledger with vpend := s.ledger.vpend.filter (fun v => v.serial != o.serial) }
  forEach vs s (fun s v => match obsSlot s o with | some i => virtualMove s i v | none => s)

/-- A record made for a passage that has in the end been assigned to another one is freed (R152). -/
def freeMade (s : State) (o : Obs) : State :=
  match o.made with
  | some (i, id) => if o.slot ≠ some i ∧ axleId s i = id then freeSlot s i else s
  | none => s

/-- PROV of a record follows the assignments to it: set while one of them is not final (R152). -/
def syncProv (s : State) (i : Nat) : State :=
  recSetFlag s i fProv (s.ledger.obs.any (fun o => !o.final && obsSlot s o == some i))

/-- An assignment made final (R152, R149): evidence, reference signature, slip, verdicts, the skips before it, the identity of what the
passage has created, the virtual moves that waited for it, and the freeing of an axle that has left: one whose passage had an empty
arrival set (R141), or whom a virtual passage has taken out of its last section. A record that is the axle's no more takes nothing. -/
def finalise (s : State) (v : LedgVals) (o : Obs) : State :=
  let o := { o with final := true }
  let s := freeMade (putObs s o) o
  let s := if o.inTol || o.slot.isNone then s else setBad s F.LEDG_SECn_BAD_DIST o.dep
  let s :=
    match obsSlot s o with
    | some i =>
      let s := syncProv s i
      let s := if o.inTol && !o.inserted then s.putBytes (recAddr i + 56) ((sigRef s i).mix o.sig).bytes else s
      if o.saved.isEmpty then s else slip s v o i
    | none => s
  let s := passedOver s v.look o
  let s := forEach o.skips s (fun s sk => finalSkip s o sk)
  let s := if o.slot.isNone then s else if o.inserted then insertFinal s o else localise s o o.id
  let s := virtualWaiting (if o.slot.isNone then s else nameEntries s o.serial o.id) o
  match obsSlot s o with
  | some i => if o.arr.isEmpty ∨ (recMembers s i = 0 ∧ !recFlag s i fProv) then freeSlot s i else s
  | none => s

/-- The bytes of a record with the status that it has while no job concerns it. -/
def restBytes (s : State) (i : Nat) : List Byte :=
  let b := recBytes s i
  if recGet s i 4 1 = 4 then
    match s.ledger.rests.find? (fun x => x.1 == i) with
    | some x => b.take 4 ++ leBytes 1 x.2 ++ b.drop 5
    | none => b
  else b

/-- The sections that a shadow skipped on its way leaves when it is matched at a later station: those that passages of this direction leave
at the stations that skipped it (R141, R150). -/
def skippedSecs (s : State) (i : Nat) (neg : Bool) : List Nat :=
  if recFlag s i fShadow then
    let more := match s.ledger.loose.find? (fun l => l.id == axleId s i && !l.inserted) with | some l => l.skipped | none => []
    (recGet s i 77 1 :: more).flatMap (fun p => depOf s p neg)
  else []

/-- An observation assigned to a record, provisionally (R150 to R152). At an unmapped station the membership does not change, and a shadow
stays one (R141). -/
def assign (s : State) (o : Obs) (i dist margin : Nat) (tol late : Bool) : State :=
  let id := axleId s i
  let saved := restBytes s i
  let old := estBefore s id o
  let shadow := recFlag s i fShadow
  let mapped := (pointCp s o.sp).isSome
  let s := if mapped then moveMembers s i (o.dep ++ (skippedSecs s i o.neg).filter (fun n => !o.arr.contains n)) o.arr else s
  let s := recPut s i 4 1 (if tol then 2 else 3)
  let s := recSetFlag s i fProv true
  let s := if mapped then recPut (recSetFlag s i fShadow false) i 77 1 63 else s
  let s := recPut s i 42 1 dist
  let s := recPut s i 43 1 margin
  let s := match o.made with | some (k, kid) => if k ≠ i ∧ axleId s k = kid then setMembers s k 0 else s | none => s
  let o := { o with slot := some i, id := id, inserted := false, dist := dist, inTol := tol, saved := saved, est := estOf s id }
  let s := writePassage (putObs s o) i o
  let s := if late then lapse s i else s
  let s := if shadow then setBad s F.LEDG_SECn_BAD_ALIGN (o.dep ++ o.arr) else s
  fixObs s o id old

/-- A record that stands for an observation named to it. -/
def putMade (s : State) (o : Obs) (i : Nat) (late : Bool) : State :=
  let id := axleId s i
  let s := recSetFlag s i fProv true
  let s := putObs s { obsNow s o with slot := some i, id := id, inserted := true, made := some (i, id), inTol := true, saved := [] }
  let s := if late then lapse s i else s
  fixObs s o id none

/-- An observation aligned to no candidate: a record is created for it (R150), unless an earlier alignment has made one, which is then
joined to the axle ahead of now. Without a free slot it stays without a record, and later alignments take it up again (R143, R150). -/
def insertObs (s : State) (o : Obs) (late : Bool) : State :=
  let s := setBad s F.LEDG_SECn_BAD_ALIGN (o.dep ++ o.arr)
  let again := match o.made with | some (i, id) => if axleId s i = id then some i else none | none => none
  match again with
  | some i => putMade (linkAhead (recPut (setMembers s i (secMask o.arr)) i 4 1 5) i o) o i late
  | none =>
    match createRec s o true with
    | (s, none) => s
    | (s, some i) => putMade s o i late

/-- A provisional assignment can be revised no more once its record has made another passage, physical or virtual (R152; DESIGN
CHOICE, log entry 91). -/
def pinned (s : State) (o : Obs) : Bool :=
  match o.slot with
  | none => false
  | some i => axleId s i != o.id || recGet s i 40 2 != o.serial || decide (24 ≤ recGet s i 12 1 % 64)

/-- The fields of a record that an assignment writes, as offset and length: STATUS, LAST_ST to PREV, LAST_TS, ENC_ST to GAP,
LAST_SERIAL to SIG_LAST, SPEED. -/
def assignFields : List (Nat × Nat) := [(4, 1), (12, 4), (18, 5), (29, 11), (40, 16), (68, 5)]

/-- What an assignment has written to a record taken back to the bytes of before; what other assignments have made final since stays, as
do a SHADOW set since and a lapse. -/
def takeBack (s : State) (i : Nat) (saved : List Byte) : State :=
  let was := ofLeBytes ((saved.drop 5).take 1)
  let s := setMembers s i (ofLeBytes ((saved.drop 6).take 6))
  let s := forEach assignFields s (fun s f => s.putBytes (recAddr i + f.1) ((saved.drop f.1).take f.2))
  let s := recSetFlag s i fPartial (bitAt was fPartial)
  let s := recSetFlag s i fVirt (bitAt was fVirt)
  if bitAt was fShadow && !recFlag s i fShadow then (recSetFlag s i fShadow true).putBytes (recAddr i + 77) ((saved.drop 77).take 1) else s

/-- A provisional assignment taken back before its station's next alignment, that of the passage `own`, with the fix that it gave and the
NEXT of the axle ahead; the record that an insertion made stays until the assignment is final (R152). -/
def undo (s : State) (own o : Obs) : State :=
  match o.slot with
  | none => s
  | some i =>
    let s := unlink s o
    let o' := { o with slot := none, inserted := false, skips := [], linked := none }
    if o.inserted then putObs s o'
    else
      let t := takeBack s i o.saved
      let t := t.putEsts (o.est.toList ++ t.ests.filter (fun e => e.id != o.id))
      let t := heldFrom s t o.id own.ts own.ports own.ports
      syncProv (putObs t o') i

/-! ### Alignment (R150, R151) -/

/-- One step of an alignment. -/
inductive AStep where
  | hit (i j : Nat)
  | skip (j : Nat)
  | ins (i : Nat)
  deriving DecidableEq, Repr

/-- Cost and steps so far, newest step first. -/
abbrev ACell := Rat × List AStep

/-- A candidate: its slot, its distance from c[0], and what skipping it costs. -/
structure Cand where
  slot : Nat
  dist : Int
  skip : Rat
  deriving Repr

/-- What a match costs: min(d² + g, D_CAP), in whole units. -/
def matchCost (s : State) (v : LedgVals) (y : Obs) (dObs : Int) (c : Cand) : Rat :=
  let d := dist2 v y.sig (sigRef s c.slot) (sigLast s c.slot).nsamp
  let gt : Rat := (v.gapTol : Rat) / 65536
  let den : Rat := gt * (max c.dist.natAbs 1000000 : Nat)
  let x : Rat := (dObs - c.dist : Int)
  let g := x * x / (den * den)
  min (dist2Or d + g) ((v.dCap : Rat) / 16)

/-- The cheaper of three cells, in favour of a match, then a skip, then an insertion. -/
def pick3 (m sk i : ACell) : ACell := if m.1 ≤ sk.1 ∧ m.1 ≤ i.1 then m else if sk.1 ≤ i.1 then sk else i

/-- One row of the cost table: `prev` is the row above from column 0, `i` the observation; a forbidden match is out. -/
def alignRow (s : State) (v : LedgVals) (o : Obs) (dObs : Int) (i : Nat) (forbid : Option Nat) :
    Nat → ACell → ACell → List ACell → List Cand → List ACell
  | j, left, diag, up :: ups, c :: cs =>
    let viaIns : ACell := (up.1 + (v.ins : Rat) / 16, .ins i :: up.2)
    let viaSkip : ACell := (left.1 + c.skip, .skip j :: left.2)
    let viaHit : ACell := (diag.1 + matchCost s v o dObs c, .hit i j :: diag.2)
    let cell := if forbid = some j then (if viaSkip.1 ≤ viaIns.1 then viaSkip else viaIns) else pick3 viaHit viaSkip viaIns
    cell :: alignRow s v o dObs i forbid (j + 1) cell up ups cs
  | _, _, _, _, _ => []

/-- The rows of the table, each observation with its distance from o[0]; `forbid` excludes one pair. -/
def alignRows (s : State) (v : LedgVals) (cs : List Cand) (forbid : Option (Nat × Nat)) :
    Nat → List ACell → List (Obs × Int) → List ACell
  | _, row, [] => row
  | i, row, (o, d) :: rest =>
    match row with
    | [] => []
    | r0 :: rs =>
      let first : ACell := (r0.1 + (v.ins : Rat) / 16, .ins i :: r0.2)
      let f := match forbid with | some (fi, fj) => if fi = i then some fj else none | none => none
      alignRows s v cs forbid (i + 1) (first :: alignRow s v o d i f 0 first r0 rs cs) rest

/-- Row 0: skipping candidates before any observation. -/
def alignZero : Nat → ACell → List Cand → List ACell
  | _, _, [] => []
  | j, left, c :: cs =>
    let cell : ACell := (left.1 + c.skip, .skip j :: left.2)
    cell :: alignZero (j + 1) cell cs

/-- The best alignment: the cheapest cell of the last row, the leftmost of equals. Steps oldest first. -/
def alignBest (s : State) (v : LedgVals) (os : List (Obs × Int)) (cs : List Cand) (forbid : Option (Nat × Nat)) : Rat × List AStep :=
  let z : ACell := (0, [])
  match alignRows s v cs forbid 0 (z :: alignZero 0 z cs) os with
  | [] => (0, [])
  | c :: rest =>
    let b := rest.foldl (fun (a x : ACell) => if x.1 < a.1 then x else a) c
    (b.1, b.2.reverse)

/-- A section that can be left in a direction through more than one boundary makes a skip free. -/
def manyExits (s : State) (dep : List Nat) (neg : Bool) : Bool :=
  dep.any (fun n => decide (1 < ((bnds s n).filter (fun b => (!neg) == b.sense)).length))

/-- Insertion of a candidate in order of its distance from the station; of equally near ones, which R150 does not order, the one in the
higher slot comes first (DESIGN CHOICE, log entry 110). -/
def insertNear (k : Nat) (i : Nat) : List (Nat × Nat) → List (Nat × Nat)
  | [] => [(k, i)]
  | y :: ys => if k < y.1 then (k, i) :: y :: ys else y :: insertNear k i ys

/-- The candidates of a job for a passage (R150), nearest first, at most W + 4: records in every departure section, and shadows of
stations that bound one of them, as they stood at the passage (R153): their estimates are those of its tick. The anchor's record is c[0], and a candidate as well once another passage has brought it back; a record that an
alignment made for a passage which is not assigned to it stands for no axle. Distances are from the anchor's record, or from the first candidate without one; where the anchor's record has been freed
it counts as having gone on from its own passage by the observed distance (DESIGN CHOICE, log entry 92). -/
def candidates (s : State) (v : LedgVals) (j : Job) (anchor : Option Obs) (own : Obs) : List Cand :=
  let tpos := s.getS40 F.SPOS_SPn_TPOS_L_TPOS j.sp
  let mask := secMask j.dep
  let pos := fun i => match estOf s (axleId s i) with | some e => (estLatched s e own).2 | none => tpos
  let first := match anchor with | some a => if pinned s a then none else obsSlot s a | none => none
  let live := (liveSlots s).filter (fun i =>
    first != some i && !s.ledger.obs.any (fun o => o.made == some (i, axleId s i) && o.slot != some i)
    && ((recMembers s i &&& mask) == mask
        || (recFlag s i fShadow && j.dep.any (fun n => (stationsOf s n).contains (recGet s i 77 1)))))
  let sorted := (live.foldr (fun i acc => insertNear (pos i - tpos).natAbs i acc) []).take (v.w + 4)
  let base :=
    match anchor with
    | some a =>
      (match (obsSlot s a).bind (fun i => estOf s (axleId s i)) with
        | some e => (estLatched s e own).2
        | none => if j.neg then a.fix - obsDist s a own else a.fix + obsDist s a own)
    | none => (match sorted with | x :: _ => pos x.2 | [] => 0)
  let free := manyExits s j.dep j.neg
  let sk : Rat := (v.skip : Rat) / 16
  sorted.map (fun x =>
    let d := base - pos x.2
    { slot := x.2, dist := if j.neg then -d else d, skip := if free || recFlag s x.2 fShadow then 0 else sk })

/-- The observations a job aligns: those of its station and direction after the anchor, up to its own passage, the last W of them in all.
The anchor is the last passage whose assignment is final or can be revised no more. -/
def observed (s : State) (v : LedgVals) (j : Job) : Option Obs × List Obs :=
  let here := s.ledger.obs.filter (fun o => o.sp == j.sp && o.neg == j.neg)
  let upto := here.dropWhile (fun o => o.serial != j.serial)
  let fixed := fun (o : Obs) => o.slot.isSome && (o.final || pinned s o)
  let anchor := upto.find? fixed
  let later := (upto.takeWhile (fun o => !fixed o)).filter (fun o => !o.final)
  (anchor, (later.take (v.w - b2n anchor.isSome)).reverse)

/-- The tick at which an axle skipped at a station crossed it, interpolated in distance between its neighbours (R160). -/
def skipTick (a b : Nat × Int) (x : Int) : Nat :=
  if b.2 = a.2 then a.1 else ((a.1 : Int) + qdiv (((b.1 : Int) - a.1) * (x - a.2)) (b.2 - a.2)).toNat

/-- The steps of an alignment applied in order. `prev` is the tick and distance of the last match; `pend` the candidates
skipped since. -/
def applySteps (v : LedgVals) (late : Bool) (os : List (Obs × Int)) (cs : List Cand) (best : Rat) (s0 : State) :
    List AStep → State → Nat × Int → List Cand → State
  | [], s, _, _ => s
  | .skip j :: rest, s, prev, pend =>
    match cs[j]? with
    | some c =>
      let s := if c.skip = 0 then s else setBad s F.LEDG_SECn_BAD_ALIGN (os.flatMap (fun o => o.1.dep ++ o.1.arr)).dedup
      applySteps v late os cs best s0 rest s prev (pend ++ [c])
    | none => applySteps v late os cs best s0 rest s prev pend
  | .ins i :: rest, s, prev, pend =>
    match os[i]? with
    | some (o, d) => applySteps v late os cs best s0 rest (insertObs s o late) prev (if d < 0 then [] else pend)
    | none => applySteps v late os cs best s0 rest s prev pend
  | .hit i j :: rest, s, prev, pend =>
    match os[i]?, cs[j]? with
    | some (o, _), some c =>
      let d := dist2 v o.sig (sigRef s0 c.slot) (sigLast s0 c.slot).nsamp
      let alt := (alignBest s0 v os cs (some (i, j))).1
      let skips := pend.map (fun x => (axleId s x.slot, skipTick prev (o.ts, c.dist) x.dist))
      let s := assign s { o with skips := skips } c.slot (distByte d) (marginByte (alt - best)) (inTolerance v d) late
      applySteps v late os cs best s0 rest s (o.ts, c.dist) []
    | _, _ => applySteps v late os cs best s0 rest s prev pend

/-- STATUS WAITING follows the jobs that are queued or running (R144); the status of before is kept, and comes back. -/
def syncWaiting (s : State) : State :=
  let deps := (s.ledger.jobs.filter (fun j => !j.dep.isEmpty)).map (fun j => secMask j.dep)
  if deps.isEmpty && s.ledger.rests.isEmpty then s
  else
    forEach (liveSlots s) s (fun s i =>
      let m := recMembers s i
      let st := recGet s i 4 1
      let others := s.ledger.rests.filter (fun x => x.1 != i)
      if deps.any (fun d => (m &&& d) == d) then
        (if st = 4 then s else (recPut s i 4 1 4).putLedger { s.ledger with rests := (i, st) :: others })
      else if st = 4 then
        let st := match s.ledger.rests.find? (fun x => x.1 == i) with | some x => x.2 | none => 1
        (recPut s i 4 1 st).putLedger { s.ledger with rests := others }
      else s)

/-- Assignments that an alignment makes final (R152): those with LOOKAHEAD later passages aligned, or all of them when
the candidate sequence is exhausted. -/
def finaliseJob (s : State) (v : LedgVals) (j : Job) (exhausted : Bool) : State :=
  let open_ := ((s.ledger.obs.filter (fun o => o.sp == j.sp && o.neg == j.neg && !o.final && o.slot.isSome)).reverse)
  forEach (open_.take (if exhausted then open_.length else open_.length - v.look)) s (fun s o => finalise s v o)

/-- A match job's alignment applied, under the values in force when it started (R150 to R153, R157). -/
def runJob (s : State) (j : Job) : State :=
  let v := j.vals
  let (anchor, later) := observed s v j
  match later.getLast? with
  | none => s
  | some own =>
    let s := forEach later.reverse s (fun s o => undo s own o)
    let later := later.map (obsNow s)
    let cs := candidates s v j anchor own
    let base := match anchor with | some a => a | none => later.head?.getD own
    let os := later.map (fun o => (o, obsDist s base o))
    let (best, steps) := alignBest s v os cs none
    let s := applySteps v j.late os cs best s steps s (base.ts, 0) []
    let lastHit := steps.foldl (fun a x => match x with | .hit _ k => k + 1 | .skip k => k + 1 | .ins _ => a) 0
    finaliseJob s v j (lastHit == cs.length)

/-- The match job that runs on an engine. -/
def engineJob (s : State) (k : Nat) : Option Job := s.ledger.jobs.find? (fun j => j.stage == .running k)

/-- The match jobs that wait in the queue. -/
def queuedJobs (s : State) : List Job := s.ledger.jobs.filter (fun j => j.stage == .queued)

/-- Queue depth registers. -/
def syncQueue (s : State) : State :=
  let d := (queuedJobs s).length
  let s := s.set F.LEDG_QUEUE_QDEPTH 0 d
  let s := if s.get F.LEDG_QUEUE_QMAX < d then s.set F.LEDG_QUEUE_QMAX 0 d else s
  let s := s.setFlag F.LEDG_STATUS_ENG0_BUSY 0 (engineJob s 0).isSome
  s.setFlag F.LEDG_STATUS_ENG1_BUSY 0 (engineJob s 1).isSome

/-- A passage with an empty departure set creates a record; its assignment is final at once (R141). -/
def createFor (s : State) (look : Nat) (o : Obs) : State :=
  match createRec s o false with
  | (s, none) => putObs s { o with final := true }
  | (s, some i) =>
    let id := axleId s i
    let o := { obsNow s o with slot := some i, id := id, final := true, inTol := true }
    let s := nameEntries (fixObs (putObs s o) o id none) o.serial id
    virtualWaiting (passedOver s look o) o

/-- Every provisional assignment of a station and direction made final (R152). -/
def quietTurn (s : State) (j : Job) : State :=
  let open_ := s.ledger.obs.filter (fun o => o.sp == j.sp && o.neg == j.neg && !o.final && o.slot.isSome)
  forEach open_.reverse s (fun s o => finalise s j.vals o)

/-- A virtual passage moves its axle's record, or waits for the assignment that gives the axle its identity (R142). -/
def virtualTurn (s : State) (id : Nat) (m : VMove) : State :=
  if id = 0 then s.putLedger { s.ledger with vpend := s.ledger.vpend ++ [m] }
  else match slotOf s id with
    | some i => virtualMove s i m
    | none => s

/-- The oldest turns taken as far as they can be (R153): a job that is done is applied, and everything else that changes the records
follows in its place; a clearing by a sweep waits until the fabric clock in which its count returned to 0 is over (R173). -/
def applyTurns : Nat → State → State
  | 0, s => s
  | fuel + 1, s =>
    match s.ledger.jobs with
    | [] => s
    | j :: rest =>
      let t := s.putLedger { s.ledger with jobs := rest }
      match j.stage with
      | .done => applyTurns fuel (runJob t j)
      | .creates => applyTurns fuel (match t.ledger.obs.find? (fun o => o.serial == j.serial && !o.final) with
          | some o => createFor t j.vals.look o
          | none => t)
      | .quiet => applyTurns fuel (quietTurn t j)
      | .virtual id m => applyTurns fuel (virtualTurn t id m)
      | .clears n sweep => if sweep && clockOf j.queued == clockOf s.now then s
        else applyTurns fuel (ledgerClearSec t n j.queued j.ports)
      | _ => s

/-- The ledger's registers follow its turns. -/
def syncTurns (s : State) : State :=
  let s := applyTurns s.ledger.jobs.length s
  syncLedger (syncWaiting (syncQueue s))

/-- A turn taken in its place: at once where none is outstanding. -/
def addTurn (s : State) (j : Job) : State := syncTurns (s.putLedger { s.ledger with jobs := s.ledger.jobs ++ [j] })

/-- A turn without a passage of its own. -/
def turnOf (s : State) (x : Stage) : Job := ⟨0, 0, false, [], [], s.now, portsNow s, false, x, ledgVals s⟩

/-- A restore clears a section from the records (R159). -/
def ledgerClear (s : State) (n : Nat) : State := addTurn s (turnOf s (.clears n false))

/-- The sections that sweeps have made CLEAR in the running fabric clock, to be cleared from the records when it is over; one that a
later passage of the clock takes back is taken back here (R159, R173). -/
def ledgerSweeps (s : State) : State :=
  let mine := fun (j : Job) => match j.stage with | .clears _ true => clockOf j.queued == clockOf s.now | _ => false
  let swept := ((clockNow s).filter (fun e => e.swept)).map (fun e => turnOf s (.clears e.sec true))
  let keep := s.ledger.jobs.filter (fun j => !mine j)
  if swept.isEmpty ∧ keep.length = s.ledger.jobs.length then s else s.putLedger { s.ledger with jobs := keep ++ swept }

/-- Turns that wait for the end of a fabric clock. -/
def turnsWait (s : State) : Bool := match s.ledger.jobs with | j :: _ => (match j.stage with | .clears _ _ => true | _ => false) | [] => false

/-- The turns taken that the passing of time lets be taken. -/
def turnsDue (s : State) : State := if turnsWait s then syncTurns s else s

/-- A virtual passage told to the ledger, under the identity that its boundary unit's entry has (R142). -/
def ledgerVirtual (s : State) (id : Nat) (m : VMove) : State := addTurn s (turnOf s (.virtual id m))

/-- The passages that later alignments can need: those assigned and not final, those after the last final one of their station and
direction, and there the last two that have a record. -/
def keepObs : List Obs → List Obs → List Obs
  | _, [] => []
  | newer, o :: older =>
    if (!o.final && o.slot.isSome) || (newer.filter (fun x => x.sp == o.sp && x.neg == o.neg && x.final && x.slot.isSome)).length < 2
    then o :: keepObs (o :: newer) older
    else keepObs newer older

/-- The ledger's action on a passage at a station (R141, R156). One that finds the queue full gets no job, and is in the observed sequences
of later ones (R150). A match job waits in the queue; the creation of a record waits while turns
before it are outstanding, so that slots and identities follow the order of the passages whatever the engines do (R153; DESIGN
CHOICE, log entry 93). -/
def ledgerPassage (s : State) (o : Obs) : State :=
  let s := s.putLedger { s.ledger with obs := keepObs [] (o :: s.ledger.obs) }
  let turn := fun (x : Stage) => s.putLedger { s.ledger with
    jobs := s.ledger.jobs ++ [⟨o.serial, o.sp, o.neg, o.dep ++ o.arr, o.dep, s.now, o.ports, false, x, ledgVals s⟩] }
  syncTurns
    (if o.dep.isEmpty && o.arr.isEmpty then putObs s { o with final := true }
    else if o.dep.isEmpty then turn .creates
    else if 1024 ≤ (queuedJobs s).length then
      coverLost (lapseSecs (s.raise F.LEDG_STATUS_QUEUE_FULL) o.dep) o.arr
    else turn .queued)

/-- One turn's stage changed: the first with a given stage. -/
def turnTo (l : List Job) (a : Stage) (f : Job → Job) : List Job :=
  match l with
  | [] => []
  | j :: rest => if j.stage = a then f j :: rest else j :: turnTo rest a f

/-- A free engine starts the oldest queued job when no running job shares a section with it (R155); it takes the values in force
(R157). Where both are free, engine 0 takes it (DESIGN CHOICE, log entry 119). -/
def startJob (s : State) : State :=
  match queuedJobs s, [0, 1].find? (fun k => (engineJob s k).isNone) with
  | j :: _, some k =>
    if ([0, 1].filterMap (engineJob s)).any (fun r => r.secs.any (fun n => j.secs.contains n)) then s
    else
      syncLedger (syncQueue (s.putLedger { s.ledger with
        jobs := turnTo s.ledger.jobs .queued (fun j => { j with stage := .running k, vals := ledgVals s }) }))
  | _, _ => s

/-- An engine finishes its job: it is free, and the results are applied when every turn before the job has been (R150 to R153). -/
def completeJob (s : State) (k : Nat) : State :=
  if (engineJob s k).isNone then s
  else
    let s := s.putLedger { s.ledger with jobs := turnTo s.ledger.jobs (.running k) (fun j => { j with stage := .done }) }
    syncTurns (s.bumpWrap F.LEDG_JOBS_JOBS)

/-- QUIET finality of a station and direction, found at a boundary (R152), after the turns of the passages before it (R153). -/
def quietFinal (s : State) (p : Nat) (neg : Bool) : State :=
  let here := s.ledger.obs.filter (fun o => o.sp == p && o.neg == neg)
  match here.head? with
  | none => s
  | some o0 =>
    if o0.ts + s.get F.LEDG_COST_QUIET * cycleTicks ≤ s.now
        ∧ here.any (fun o => !o.final && (o.slot.isSome || s.ledger.jobs.any (fun j => j.serial == o.serial && j.sp == p)))
        ∧ !s.ledger.jobs.any (fun j => j.stage == .quiet && j.sp == p && j.neg == neg) then
      addTurn s { turnOf s .quiet with sp := p, neg := neg }
    else s

/-- A queued job that has waited for more than 500 ms (R156). -/
def overdue (s : State) (j : Job) : Bool := j.stage == .queued && decide (j.queued + 30000000 < s.now)

/-- Jobs queued for more than 500 ms become late at a boundary (R156). -/
def jobsLate (s : State) : State :=
  let lates := s.ledger.jobs.filter (fun j => !j.late && overdue s j)
  let s := s.putLedger { s.ledger with jobs := s.ledger.jobs.map (fun j => if overdue s j then { j with late := true } else j) }
  let s := forEach lates s (fun s j => lapseSecs s j.dep)
  let age := match (queuedJobs s).head? with | some j => (s.now - j.queued) / cycleTicks | none => 0
  let s := s.set F.LEDG_QAGE_OLDEST_AGE 0 (min age 65535)
  if lates.isEmpty then s else syncLedger s

/-- DIFF of every section at a boundary while nothing is pending (R158). -/
def ledgerDiff (s : State) : State :=
  forN 48 s (fun s n =>
    if s.flag F.LEDG_SECn_PENDING n then s
    else s.setFlag F.LEDG_SECn_DIFF n (s.get F.LEDG_SECn_LCOUNT n != s.get F.SECT_n_CNT_COUNT n))

/-- A copy of a slot for a port (LEDG_REC_REQ), made at a boundary. -/
def recCopy (s : State) (p : Nat) : State :=
  if nth s.reqs.recReq p then
    let i := s.get (F.LEDG_REC_REQ_SLOT.port p)
    let s := forN 24 s (fun s k => s.set (F.LEDG_REC_Wk_DATA.port p) k (recGet s i (4 * k) 4))
    let s := (s.set (F.LEDG_REC_STAT_SLOT.port p) 0 i).raise (F.LEDG_REC_STAT_DONE.port p)
    s.putReqs { s.reqs with recReq := upd s.reqs.recReq p (fun _ => false) }
  else s

end Sys2Proof.Machine
end

