-- ==== Sys2Proof/Machine/Estimator.lean ====
section
/-!
DEFINITION. The axle position estimator's boundary units (R200), virtual passages (R21, R142), the evaluation of
the compare units (R202 to R204) and the axle query of the ports (SPOS_AXQ).
-/

namespace Sys2Proof.Machine

/-! ### Boundary units (R200) -/

/-- The virtual points in use of a moving section. -/
def unitsOf (s : State) (m : Nat) : List Nat :=
  (List.range 8).filter (fun k => s.flag F.SECT_VCPk_CFG_VALID k && s.get F.SECT_VCPk_CFG_MSEC k == m)

/-- A fix of a point expressed in a port's frame. -/
def fixInPort (s : State) (p q : Nat) (fix : Int) : Int :=
  if s.get F.SPOS_SPn_CFG_FRAME p = q then fix else Config.toPortFrame q fix

/-- An entry put in order of position. -/
def insertEntry (s : State) (k : Nat) (e : UnitEntry) : List UnitEntry → List UnitEntry
  | [] => [e]
  | y :: ys => if entryPos s k e < entryPos s k y then e :: y :: ys else y :: insertEntry s k e ys

/-- The index of the entry nearest a position. -/
def nearestEntry (s : State) (k : Nat) (x : Int) : Option Nat :=
  let l := indexed 0 ((s.unit k).entries.map (fun e => (entryPos s k e - x).natAbs))
  match l with
  | [] => none
  | a :: rest => some (rest.foldl (fun (b y : Nat × Nat) => if y.2 < b.2 then y else b) a).1

/-- A port's position latched with a fix; where it was not latched, the one it last gave (DESIGN CHOICE, log entry 86). -/
def latOrNow (s : State) (q : Nat) (lat : List (Nat × Int)) : Int :=
  if latched (nth lat q) then (nth lat q).2 else s.getS40 F.DENC_PORTn_POS_L_POS q

/-- An axle that counts into the moving section at a physical boundary takes an entry; a full list makes the point
FAULTY until an entry is removed. -/
def unitInsert (s : State) (k : Nat) (serial p : Nat) (fix : Int) (lat : List (Nat × Int)) : State :=
  if 64 ≤ (s.unit k).entries.length then vcpEval (s.updUnit k (fun u => { u with full := true })) k
  else
    let q := s.get F.SECT_VCPk_CFG_PORT k
    let e : UnitEntry := ⟨0, serial, fixInPort s p q fix, latOrNow s q lat, false⟩
    let e := { e with side := decide (s.getS40 F.SECT_VCPk_POS_L_POS k ≤ entryPos s k e) }
    s.updUnit k (fun u => { u with entries := insertEntry s k e u.entries })

/-- The entry nearest a physical boundary removed when a passage counts out there. -/
def unitRemove (s : State) (k p : Nat) : State :=
  let q := s.get F.SECT_VCPk_CFG_PORT k
  match nearestEntry s k (fixInPort s p q (s.getS40 F.SPOS_SPn_TPOS_L_TPOS p)) with
  | none => s
  | some i => vcpEval (s.updUnit k (fun u => { u with entries := u.entries.eraseIdx i, full := false })) k

/-- The fix of the nearest entry replaced by a station inside the moving section. -/
def unitRefix (s : State) (k p : Nat) (fix : Int) (lat : List (Nat × Int)) : State :=
  let q := s.get F.SECT_VCPk_CFG_PORT k
  let x := fixInPort s p q fix
  match nearestEntry s k x with
  | none => s
  | some i => s.updUnit k (fun u => { u with entries := u.entries.modify i (fun e => { e with x := x, p := latOrNow s q lat }) })

/-- The boundary units' part in a passage at a sensor point. -/
def unitsPassage (s : State) (p serial : Nat) (fix : Int) (lat : List (Nat × Int)) (moves : List (Nat × Bool)) : State :=
  let s := forEach moves s (fun s m =>
    forEach (unitsOf s m.1) s (fun s k => if m.2 then unitInsert s k serial p fix lat else unitRemove s k p))
  if s.flag F.LEDG_SPn_CFG_STATION p ∧ (pointCp s p).isNone then
    forEach (unitsOf s (s.get F.LEDG_SPn_CFG_HOST_SEC p)) s (fun s k => unitRefix s k p fix lat)
  else s

/-- A virtual passage: counted at once, then told to the ledger under the identity its entry has (R142, R200). -/
def virtualPassage (s : State) (k : Nat) (e : UnitEntry) (neg : Bool) (t : Nat) : State :=
  let c := 24 + k
  let lat := latchAll s t
  let da := depArr (countMoves s c (!neg) lat)
  let s := ledgerSweeps (countPassage s c (!neg) lat)
  let q := s.get F.SECT_VCPk_CFG_PORT k
  let m : VMove := ⟨e.serial, k, da.1, da.2, t, neg, q, nth lat q, portsNow s, portTrackSpeed s q⟩
  ledgerVirtual s e.axle m

/-- The entries of a unit that a frame carries to or across the boundary, nearest first, each with its direction and its
interpolated crossing tick. -/
def unitCrossings (s : State) (k t0 : Nat) (p0 : Int) (t1 : Nat) (p1 : Int) : List (UnitEntry × Bool × Nat) :=
  let b := s.getS40 F.SECT_VCPk_POS_L_POS k
  let hits := (s.unit k).entries.filter (fun e =>
    let a := e.x + (p0 - e.p)
    let z := e.x + (p1 - e.p)
    (decide (a < b) && decide (b ≤ z)) || (decide (b < a) && decide (z ≤ b)))
  let keyed := hits.map (fun e => (((b - (e.x + (p0 - e.p))).natAbs), e))
  let sorted := keyed.foldr (fun x acc => (acc.takeWhile (fun y => decide (y.1 < x.1))) ++ [x] ++ (acc.dropWhile (fun y => decide (y.1 < x.1)))) []
  sorted.map (fun x =>
    let a := x.2.x + (p0 - x.2.p)
    (x.2, decide (p1 < p0), ((t0 : Int) + qdiv ((b - a) * ((t1 : Int) - t0)) (p1 - p0)).toNat))

/-- A frame of a port shown to the boundary units of that port. An axle that has left the moving section gives up its
entries, in this unit and in every other one of the section; what that makes of the points' states is judged when every crossing of the
frame has been counted (R31). -/
def unitsFrame (s : State) (q t : Nat) : State :=
  let pos := s.getS40 F.DENC_PORTn_POS_L_POS q
  forN 8 s (fun s k =>
    if s.flag F.SECT_VCPk_CFG_VALID k ∧ s.get F.SECT_VCPk_CFG_PORT k = q then
      let s' :=
        match (s.unit k).last with
        | none => s
        | some (t0, p0) =>
          forEach (unitCrossings s k t0 p0 t pos) s (fun s x =>
            let neg := x.2.1 != s.flag F.DENC_PORTn_CFG_TRACK_SIGN q
            let out := ((countMoves s (24 + k) (!neg) (latchAll s x.2.2)).filter (fun (m : Nat × Bool) => !m.2)).any
              (fun (m : Nat × Bool) => m.1 == s.get F.SECT_VCPk_CFG_MSEC k)
            let s := virtualPassage s k x.1 neg x.2.2
            if out then
              forEach (unitsOf s (s.get F.SECT_VCPk_CFG_MSEC k)) s (fun s i =>
                if (s.unit i).entries.any (fun e => e.serial == x.1.serial) then
                  s.updUnit i (fun u => { u with entries := u.entries.filter (fun e => e.serial != x.1.serial), full := false })
                else s)
            else s)
      s'.updUnit k (fun u => { u with last := some (t, pos) })
    else s)

/-! ### Evaluation of the compare units (R202 to R204) -/

/-- An armed axle compare shown its axle's estimate at a tick; LOST where the ledger holds no such axle (R204). -/
def cmpAxle (s : State) (k t st : Nat) : State :=
  let id := s.get F.DENC_CMPk_AXLE_AXLE_ID k
  match slotOf s id, estOf s id with
  | none, _ => cmpLost s k
  | some _, none => s
  | some _, some e =>
    let r := estAt s e t
    if r.1 = st then cmpStep s k t r.2 false else s

/-- The armed axle compares evaluated at a boundary, while their axles are EXTRAP (R202). -/
def cmpAxles (s : State) : State :=
  forN 16 s (fun s k => if s.flag F.DENC_CMPk_STAT_ARMED k ∧ s.flag F.DENC_CMPk_CFG_SRC k then cmpAxle s k s.now posExtrap else s)

/-- Every armed compare that a valid frame of a port concerns: the compares on the port, and those on an axle bound to it. -/
def cmpFrame (s : State) (q t : Nat) : State :=
  let pos := s.getS40 F.DENC_PORTn_POS_L_POS q
  forN 16 s (fun s k =>
    if !s.flag F.DENC_CMPk_STAT_ARMED k then s
    else if s.flag F.DENC_CMPk_CFG_SRC k then
      if boundPort s (s.get F.DENC_CMPk_AXLE_AXLE_ID k) = some q then cmpAxle s k t posBound else s
    else if s.get F.DENC_CMPk_CFG_PORT k = q then cmpStep s k t pos false
    else s)

/-- The tick of the last frame of a port. -/
def frameTick (s : State) (q : Nat) : Nat :=
  match (s.encPort q).frames.head? with
  | some f => f.1
  | none => s.now

/-- The position a compare is armed at, with its tick and whether the compare may fire from it (R203, R204). -/
def armPos (s : State) (k : Nat) : Option (Nat × Int) × Bool :=
  if s.flag F.DENC_CMPk_CFG_SRC k then
    match estOf s (s.get F.DENC_CMPk_AXLE_AXLE_ID k) with
    | some e =>
      let r := estAt s e s.now
      let t := if r.1 = posBound then (match boundPort s e.id with | some q => frameTick s q | none => s.now) else s.now
      (some (t, r.2), r.1 == posBound || r.1 == posExtrap)
    | none => (none, false)
  else
    let q := s.get F.DENC_CMPk_CFG_PORT k
    (some (frameTick s q, s.getS40 F.DENC_PORTn_POS_L_POS q), true)

/-- A compare armed at a boundary (R203); an axle compare whose axle the ledger does not hold is LOST (R204). -/
def cmpArm (s : State) (k : Nat) : State :=
  let s := s.updCmp k (fun c => { c with rearm := false })
  let s := (s.lower F.DENC_CMPk_STAT_FIRED k).lower F.DENC_CMPk_STAT_LATE k
  let s := (s.lower F.DENC_CMPk_STAT_LOST k).lower F.DENC_CMPk_STAT_BEHIND k
  if !s.flag F.DENC_CMPk_CFG_EN k then s.lower F.DENC_CMPk_STAT_ARMED k
  else if s.flag F.DENC_CMPk_CFG_SRC k ∧ (slotOf s (s.get F.DENC_CMPk_AXLE_AXLE_ID k)).isNone then cmpLost s k
  else
    let (x, live) := armPos s k
    let s := (s.raise F.DENC_CMPk_STAT_ARMED k).updCmp k (fun c => { c with prev := x })
    match x with
    | none => s
    | some x =>
      if cmpPassed s k x.2 then
        if s.flag F.DENC_CMPk_CFG_FIRE_IF_PASSED k ∧ live then cmpFire s k s.now true else s.raise F.DENC_CMPk_STAT_BEHIND k
      else s

/-- The compares that REARM or a commit has marked, armed at the boundary. -/
def cmpBoundary (s : State) : State := forN 16 s (fun s k => if (s.cmp k).rearm then cmpArm s k else s)

/-- The answer to a port's axle query at a boundary (SPOS_AXQ). -/
def axqAnswer (s : State) (p : Nat) : State :=
  if nth s.reqs.axqReq p then
    let id := s.get (F.SPOS_AXQ_ID_AXLE_ID.port p)
    let (st, fr, x) : Nat × Nat × Int :=
      match slotOf s id, estOf s id with
      | some _, some e => let r := estAt s e s.now; (r.1, e.frame, r.2)
      | _, _ => (posNone, 0, 0)
    let s := s.set (F.SPOS_AXQ_STAT_POS_ST.port p) 0 st
    let s := s.set (F.SPOS_AXQ_STAT_FRAME.port p) 0 fr
    let s := s.setS40 (F.SPOS_AXQ_POS_L_POS.port p) 0 x
    let s := (s.set40 (F.SPOS_AXQ_TS_L_TS.port p) 0 (ts40 s.now)).raise (F.SPOS_AXQ_STAT_DONE.port p)
    s.putReqs { s.reqs with axqReq := upd s.reqs.axqReq p (fun _ => false) }
  else s

end Sys2Proof.Machine
end

