-- ==== Sys2Proof/Machine/Window.lean ====
section
/-!
DEFINITION. The Bamdon compatibility window (17_bamdon_window.md, R390 to R396): passage counts in BCD, direction codes,
the freeze taken by a port-B read of a count, and the two-write clear.
-/

namespace Sys2Proof.Machine

/-- First address of the window. -/
def bcwBase : Nat := 0x1E0000

/-- The successor of a two-digit BCD count, 0x99 wrapping to 0x00 (R393). -/
def bcdSucc (v : Nat) : Nat :=
  if v % 16 < 9 then v + 1 else if v / 16 < 9 then (v / 16 + 1) * 16 else 0

/-- A passage counted and its direction code set. -/
def bcwStep (s : State) (c code : Nat) : State :=
  (s.set F.BCW_CNTn_COUNT c (bcdSucc (s.get F.BCW_CNTn_COUNT c))).set F.BCW_DIR_DIR c code

/-- The passages that have reached the window in the running fabric clock, oldest first. -/
def bcwNow (s : State) : List (Nat × Nat) := if s.bcw.clockAt = clockOf s.now then s.bcw.clock else []

/-- A PASSAGE at a physical counting point reaches the window (R392, R393), in the fabric clock in which the count tiles receive it. -/
def bcwCount (s : State) (c : Nat) (neg : Bool) : State :=
  if c < 8 ∧ s.flag F.BCW_CFG_EN ∧ s.counting then
    let code := if neg then 2 else 1
    (bcwStep s c code).putBcw { s.bcw with clockAt := clockOf s.now, clock := bcwNow s ++ [(c, code)] }
  else s

/-- The window's counts of points that are not in use stay 0 (R392), and so do every count and direction code while the window is off
(BCW_CFG). -/
def bcwUnused (s : State) : State :=
  if s.flag F.BCW_CFG_EN then forN 8 s (fun s c => if s.flag F.WEV_CPc_MAP_VALID c then s else s.set F.BCW_CNTn_COUNT c 0)
  else forN 8 s (fun s c => (s.set F.BCW_CNTn_COUNT c 0).set F.BCW_DIR_DIR c 0)

/-- BCW_STAT as it stands, with the bit FROZEN given. -/
def bcwStat (s : State) (frozen : Bool) : Nat :=
  maskOf 8 (fun n => decide (cpState s n ≤ 2)) + 256 * maskOf 8 (fun n => s.flag F.WEV_CPc_MAP_VALID n)
    + 2 ^ 16 * b2n frozen + 2 ^ 17 * s.get F.BCW_STAT_CLR_DONE + 2 ^ 18 * s.get F.BCW_STAT_CLR_TO

/-- The eleven words from BCW_CNT0 to BCW_STAT. -/
def bcwWords (s : State) (frozen : Bool) : List Nat :=
  (List.range 8).map (fun n => s.get F.BCW_CNTn_COUNT n)
    ++ [0, 1].map (fun k => ofLeBytes ((List.range 4).map (fun j => BitVec.ofNat 8 (s.get F.BCW_DIR_DIR (4 * k + j)))))
    ++ [bcwStat s frozen]

/-- The freeze: the frozen image of one instant (R394). -/
def bcwFreeze (s : State) : State := s.putBcw { s.bcw with image := some (bcwWords s true) }

/-- A port-B read of word `i` of the window (R394): a count read freezes, a read of BCW_STAT returns the frozen image,
clears the flags that it has shown, and ends the freeze. While the window is not frozen it has no other effect, as R394 says against
the register table's "cleared by this read" (DESIGN CHOICE, log entry 31). -/
def bcwRead (s : State) (i : Nat) : State × Nat :=
  let s := if i < 8 ∧ s.bcw.image.isNone then bcwFreeze s else s
  let w := (s.bcw.image.getD (bcwWords s false)).getD i 0
  if i = 10 ∧ s.bcw.image.isSome then
    let s := if bitAt w 17 then s.lower F.BCW_STAT_CLR_DONE else s
    let s := if bitAt w 18 then s.lower F.BCW_STAT_CLR_TO else s
    ((s.putBcw { s.bcw with image := none }), w)
  else if i = 12 then (s, s.get F.BCW_CFG_EN)
  else (s, w)

/-- The clear of every live count and direction code; the passages of its own fabric clock are applied after it (R395). -/
def bcwClearAll (s : State) : State :=
  let s := forN 8 s (fun s n => (s.set F.BCW_CNTn_COUNT n 0).set F.BCW_DIR_DIR n 0)
  let s := forEach (bcwNow s) s (fun s x => bcwStep s x.1 x.2)
  (s.raise F.BCW_STAT_CLR_DONE).putBcw { s.bcw with armed := none }

/-- A port-B write of BCW_CLR (R395). -/
def bcwClr (s : State) (v : Nat) : State :=
  if v % 256 = 0x5A then s.putBcw { s.bcw with armed := some s.now }
  else if v % 256 = 0xA5 then
    match s.bcw.armed with
    | none => s
    | some t =>
      if s.now ≤ t + 600000 then bcwClearAll s
      else (s.raise F.BCW_STAT_CLR_TO).putBcw { s.bcw with armed := none }
  else s.putBcw { s.bcw with armed := none }

/-- The 10 ms window of a pending 0x5A runs out in the running cycle: the instant is past it. -/
def bcwExpire (s : State) : State :=
  match s.bcw.armed with
  | some t => if s.due (t + 600001) then s.advanceTo (t + 600001) else s
  | none => s

end Sys2Proof.Machine
end

