-- ==== Sys2Proof/Machine/WheelEvents.lean ====
section
/-!
DEFINITION. The wheel-event engine: the sensor-point sequencer (R124 to R130), passages and what they feed (R129, R137),
the BLIND and FAULTY states of a point (R30, R31, R55, R128, R175, R429), and the bound of a passage (R91, R93).
-/

namespace Sys2Proof.Machine

/-! ### Passages -/

/-- π times 10 to the 50, to the nearest whole number below. -/
def piScaled : Nat := 314159265358979323846264338327950288419716939937510

/-- The square of a noise value's reference bound in nm² (R91, R93): 10¹⁴ · S² · FIELD ÷ (2⁷² · 1,650 · π²). -/
def b1Sq (sigma field : Nat) : Rat :=
  (10 ^ 14 * sigma * sigma * field * 10 ^ 100 : Nat) / ((2 ^ 72 * 1650 * piScaled * piScaled : Nat) : Rat)

/-- The profile template of R91, twice its value over the peak, in units of 2^−62: a raised cosine of width FIELD along the rail,
0 outside it, `dt` ticks from the centre at the passage speed `v`. -/
def template (field : Nat) (v dt : Int) : Int :=
  let w : Int := field * 6000000000
  if 2 * (v * dt).natAbs ≤ w then 2 ^ 62 + cosQ (nearest (v * dt * 65536) w % 65536).toNat else 0

/-- The sum of the squares of what the template leaves of a system's untagged samples, centred at a tick. -/
def fitCost (field : Nat) (v peak : Int) (wave : List (Nat × Int)) (tc : Nat) : Int :=
  wave.foldl (fun acc x =>
    let d := x.2 * 2 ^ 63 - peak * template field v ((x.1 : Int) - tc)
    acc + d * d) 0

/-- The tick of least cost among `n` ticks from `t` up, the earliest of equals. -/
def leastFrom (cost : Nat → Int) : Nat → Nat → Nat → Nat
  | 0, _, best => best
  | n + 1, t, best => leastFrom cost n (t + 1) (if cost t < cost best then t else best)

/-- The centre tick of a system in a passage: the least-squares fit of the template, at the passage's peak and speed, to the
untagged samples (R91), over whole ticks from the first of them to the last (DESIGN CHOICE, log entry 11). -/
def fitCentre (field : Nat) (v peak : Int) (wave : List (Nat × Int)) : Nat :=
  match wave with
  | [] => Config.noFit field
  | x :: xs =>
    let a := xs.foldl (fun m y => min m y.1) x.1
    let b := xs.foldl (fun m y => max m y.1) x.1
    leastFrom (fitCost field v peak wave) (b + 1 - a) a a

/-- MEAS_CHn_BPASS of a channel at a passage (R91, R93). -/
def boundOfPassage (s : State) (c : Nat) (v : Int) : State :=
  let ch := s.chan c
  let field := s.get F.WEV_SPn_GEOM_FIELD (c / 2)
  let sg := s.get F.MEAS_CHn_NOISE_SIGMA c
  let vm := max v.natAbs (field * 2000)
  let b := if ch.peak ≤ 0 then Config.divZero sg
    else ratRoot (b1Sq sg field * ((2 ^ 76 * vm : Nat) / ((ch.peak.toNat * ch.peak.toNat * 1000000 : Nat) : Rat)))
  let s := s.set F.MEAS_CHn_BPASS_B c (fitU 31 b)
  let other := s.chan (if c % 2 = 0 then c + 1 else c - 1)
  s.setFlag F.MEAS_CHn_BPASS_VALID c (s.flag F.MEAS_CHn_CFG_B_VALID c && !ch.tagSeen && !other.tagSeen)

/-- The passage speed's magnitude (R181): the mean of the onset and the offset speeds, to the nearest unit. -/
def passSpeed (scale : Nat) (d1 d2 : Int) : Int := nearest ((scale : Int) * 60000000 * (d1 + d2)) (2 * d1 * d2)

/-- The onset speed (R181). -/
def onsetSpeed (scale : Nat) (d1 : Int) : Int := nearest ((scale : Int) * 60000000) d1

/-- A PASSAGE produced at a point (R129, R137): record, count in every section the point bounds with the early flag
cleared in the same clock, drift check, fix, boundary units, ledger. `neg` is the point's negative direction. The record carries the
ENTRY held up to the event (DEDUCED, log entry 23). -/
def passage (s : State) (p : Nat) (neg : Bool) : State :=
  let pt := s.point p
  let ts := pt.holdFrom
  let lat := holdLatched s p
  let s := emit s p { kind := .passage, entry := pt.entry, dirNeg := neg, peak := peakByte s p } ts lat
  let serial := s.get F.WEV_STATUS_SERIAL
  let s := s.setFlag F.WEV_SPn_STATE_DIR_LAST p neg
  let tn := trackNeg s p neg
  let d1 : Int := (pt.on2 : Int) - pt.on1
  let d2 : Int := (pt.off2 : Int) - pt.off1
  let v := passSpeed pt.spacingAt d1 d2
  let vt := if tn then -v else v
  let ca := s.chan (2 * p)
  let cb := s.chan (2 * p + 1)
  let sin : SigIn :=
    ⟨ca.wave.reverse, cb.wave.reverse, d1, d2, !neg, pt.parkedIn, pt.spacing2,
      s.get F.WEV_SPn_GEOM_FIELD p, s.get F.LEDG_SPn_REF_ABR_REF p, s.get F.LEDG_SPn_REF_DIAM_REF p⟩
  let (g, part) := signature sin
  let centre := fun (c : Chan) => (fitCentre (s.get F.WEV_SPn_GEOM_FIELD p) v c.peak c.wave : Int)
  let tc : Int := qdiv (centre ca + centre cb) 2
  let fix := s.getS40 F.SPOS_SPn_TPOS_L_TPOS p + qdiv (vt * ((ts : Int) - tc)) 60000000
  let moves := match pointCp s p with | some c => countMoves s c (!tn) lat | none => []
  let s :=
    match pointCp s p with
    | some c =>
      bcwCount (ledgerSweeps (dropEarly (countPassage s c (!tn) lat) p)) c tn
    | none => dropEarly s p
  let s := driftAt s p neg
  let s := boundOfPassage (boundOfPassage s (2 * p) v) (2 * p + 1) v
  let s := unitsPassage s p serial fix lat moves
  let host := s.get F.LEDG_SPn_CFG_HOST_SEC p
  let station := (pointCp s p).isSome || s.flag F.LEDG_SPn_CFG_STATION p
  let da := if (pointCp s p).isSome then depArr moves else ([host], [host])
  let s :=
    if station then
      ledgerPassage s
        { sp := p, neg := tn, serial := serial, ts := ts, sig := g, sigPartial := part, speed := vt, lat := lat, ports := portsNow s,
          dep := da.1, arr := da.2, fix := fix, slot := none, id := 0, inserted := false, made := none, final := false, dist := 0,
          inTol := false, saved := [], est := none, linked := none, skips := [] }
    else s
  keepRaw s p sin g

/-! ### The sequencer (R124 to R127) -/

/-- Sequencer state and entry written. -/
def setSeq (s : State) (p : Nat) (q : Seq) (e : Entry) : State := s.updPoint p (fun x => { x with seq := q, entry := e })

def disturbPoint (s : State) (p : Nat) (c : Cause) : State :=
  match pointCp s p with
  | some cp => distCp s cp c
  | none => s

/-- A record without effects of its own; its ENTRY is the one that stands as it is produced (DEDUCED, log entry 23). -/
def rec0 (s : State) (p : Nat) (k : EvKind) (sys : Bool) (ts : Nat) : State :=
  emit s p { kind := k, sys := sys, entry := (s.point p).entry } ts (latchAll s ts)

/-- SEQ_FAULT with the ENTRY held up to it: the record, the end of the flange's early flag, and every section of the point DISTURBED. -/
def seqFaultOf (s : State) (p reason ts : Nat) (entry : Entry) : State :=
  let s := emit s p { kind := .seqFault, entry := entry, reason := reason } ts (latchAll s ts)
  disturbPoint (dropEarly s p) p .seqFault

/-- SEQ_FAULT of a sequencer whose ENTRY stands. -/
def seqFault (s : State) (p reason ts : Nat) : State := seqFaultOf s p reason ts (s.point p).entry

/-- A new flange's first onset: the passage's own marks start afresh, its waveforms with the samples before the onset, from which
the crossings of R145 are interpolated. -/
def firstOnset (s : State) (p t : Nat) : State :=
  let s := s.updPoint p (fun x => { x with on1 := t, parkedIn := false, earlyRaised := false })
  let fresh := fun (c : Chan) => { c with tagSeen := false, wave := c.pre, peak := 0 }
  (s.updChan (2 * p) fresh).updChan (2 * p + 1) fresh

/-- Entry on one system with the point empty (IDLE, or after a completed hold, or on the same system after an Eddy). -/
def enterOn (s : State) (p : Nat) (sysB : Bool) (t : Nat) : State :=
  let s := firstOnset s p t
  let s := setSeq s p (if sysB then .bIn else .aIn) (if sysB then .b else .a)
  let s := raiseEarly s p sysB (latchAll s t)
  let s := s.updPoint p (fun x => { x with goingNeg := sysB })
  spdEvent (rec0 s p .onset sysB t) p .onset

/-- Both systems on at one tick with the point empty (R125). -/
def enterBoth (s : State) (p t : Nat) : State :=
  let s := setSeq (firstOnset s p t) p .ab .unknown
  let s := rec0 (rec0 s p .onset false t) p .onset true t
  spdEvent (seqFault s p 1 t) p .onset

/-- An onset on the far side within the link window of an Eddy (R127). -/
def noOverlap (s : State) (p : Nat) (sysB : Bool) (t : Nat) : State :=
  let s := setSeq (firstOnset s p t) p (if sysB then .bIn else .aIn) .unknown
  spdEvent (seqFault (rec0 s p .onset sysB t) p 3 t) p .onset

/-- The speed scale and SPACING in force at a tick (R123): those of before where the last change came after it. -/
def geomAtTick (s : State) (p t : Nat) : Nat × Nat :=
  let pt := s.point p
  if t < pt.geomAt then pt.geomWas else (s.get F.SPOS_SPn_CFG_SPD_SCALE p, s.get F.WEV_SPn_GEOM_SPACING p)

/-- The second onset (R181, R183): the onset speed, with the scale in force at the onset's tick (R123). -/
def secondOnset (s : State) (p : Nat) (sysB : Bool) (t : Nat) : State :=
  let e := (s.point p).entry
  let g := geomAtTick s p t
  let s := s.updPoint p (fun x => { x with seq := .ab, on2 := t, spacingAt := g.1, spacing2 := g.2 })
  let s := rec0 s p .onset sysB t
  if e = .a ∨ e = .b then
    spdOnset s p (.pair (onsetSpeed g.1 ((t : Int) - (s.point p).on1)) (e == .b) t)
  else spdEvent s p .onset

/-- An onset that takes the flange back into the overlap: a reversal (R183). -/
def backToAb (s : State) (p : Nat) (sysB : Bool) (t : Nat) : State :=
  let g := (s.point p).goingNeg
  let s := s.updPoint p (fun x => { x with seq := .ab, goingNeg := !g })
  spdOnset (rec0 s p .onset sysB t) p (.reversed (!g))

/-- A hold starts at an off-crossing (R126): max(HOLD ÷ 8 × dwell, 2,500 ticks). -/
def startHold (s : State) (p : Nat) (neg : Bool) (t : Nat) : State :=
  let ch := s.chan (if neg then 2 * p else 2 * p + 1)
  let dwell := t - ch.onTick
  let len := max (qdiv (s.get F.WEV_SPn_CFG_HOLD p * dwell : Nat) 8).toNat 2500
  let s := rec0 s p .offset (!neg) t
  let s := s.updPoint p (fun x =>
    { x with seq := if neg then .holdN else .holdP, holdFrom := t, holdEnd := t + len, off2 := t, latOff := (List.range 4).map (fun q => latchDecoded s q t) })
  let pt := s.point p
  spdEvent s p (.full (passSpeed pt.spacingAt ((pt.on2 : Int) - pt.on1) ((pt.off2 : Int) - pt.off1)) neg t)

/-- An Eddy (R125, R127): the record, the end of the early flag, the link window max(4 × dwell, 2,500 ticks). -/
def eddy (s : State) (p : Nat) (sysB : Bool) (t : Nat) : State :=
  let ch := s.chan (if sysB then 2 * p + 1 else 2 * p)
  let s := rec0 s p .offset sysB t
  let s := emit s p { kind := .eddy, entry := (s.point p).entry, peak := peakByte s p } t (latchAll s t)
  let s := (dropEarly s p).updPoint p (fun x =>
    { x with seq := if sysB then .bLeft else .aLeft, linkEnd := t + max (4 * (t - ch.onTick)) 2500 })
  spdEvent s p (.reversed (!sysB))

/-- A passage whose entry is not known ends without a count (R128). Its records carry the ENTRY held up to the event (DEDUCED, log
entry 23). -/
def unresolved (s : State) (p : Nat) (sysB : Bool) (t : Nat) : State :=
  let s := rec0 s p .offset sysB t
  let s := emit s p { kind := .unresolved, entry := (s.point p).entry, peak := peakByte s p } t (latchAll s t)
  setSeq (dropEarly s p) p .idle .none

/-- A hold cancelled by the flange's return (R125). -/
def holdCancel (s : State) (p : Nat) (sysB : Bool) (t : Nat) : State :=
  let s := setSeq s p (if sysB then .bOut else .aOut) (if sysB then .a else .b)
  let s := rec0 (rec0 s p .onset sysB t) p .holdCancel sysB t
  let s := s.updPoint p (fun x => { x with goingNeg := sysB })
  spdOnset s p (.reversed sysB)

/-- A hold completed: the passage, then IDLE. -/
def endHold (s : State) (p : Nat) : State :=
  let neg := (s.point p).seq == .holdN
  setSeq (passage s p neg) p .idle .none

/-- A link window that has run out by a tick (R127). -/
def expireBy (s : State) (p t : Nat) : State :=
  let pt := s.point p
  match pt.seq with
  | .aLeft => if pt.linkEnd ≤ t then setSeq s p .idle .none else s
  | .bLeft => if pt.linkEnd ≤ t then setSeq s p .idle .none else s
  | _ => s

/-- A hold that ends before the interval of sample `k` does has run out before that sample is evaluated: every sample whose
interval ends at or before the hold's end has been (R126). -/
def expireHold (s : State) (p k : Nat) : State :=
  let pt := s.point p
  if (pt.seq == .holdP || pt.seq == .holdN) && decide (pt.holdEnd < 1250 * (k + 1) - 1) then endHold s p else s

/-- Every sample of the point whose interval ends at or before a tick has been evaluated: delivered, and not waiting for the
other channel. -/
def evaluatedTo (s : State) (p t : Nat) : Bool :=
  let ok := fun (c : Chan) => decide ((t + 1) / 1250 ≤ c.kNext) && c.queue.all (fun x => decide ((t + 1) / 1250 ≤ x.k))
  ok (s.chan (2 * p)) && ok (s.chan (2 * p + 1))

/-- The hold of a point that expires in the running cycle with no onset (R126): declared once every sample whose interval ends
by then has been evaluated. -/
def holdExpire (s : State) (p : Nat) : State :=
  let pt := s.point p
  if (pt.seq == .holdP || pt.seq == .holdN) && s.due pt.holdEnd && evaluatedTo s p pt.holdEnd then
    endHold (s.advanceTo pt.holdEnd) p
  else s

/-- No sample still to come can show an onset before a tick: a crossing lies between the last untagged sample's middle tick and the
next one's (R120), or without an earlier sample at the next one's. -/
def onsetsSeen (s : State) (p t : Nat) : Bool :=
  let ok := fun (c : Chan) =>
    match c.last with
    | some l => decide (t ≤ l.1)
    | none => decide (t ≤ 1250 * (match c.queue with | x :: _ => x.k | [] => c.kNext) + 625)
  ok (s.chan (2 * p)) && ok (s.chan (2 * p + 1))

/-- The link window of a point that expires in the running cycle (R127): an onset inside it, in a sample not evaluated yet, comes
first. -/
def linkExpire (s : State) (p : Nat) : State :=
  let pt := s.point p
  if (pt.seq == .aLeft || pt.seq == .bLeft) && s.due pt.linkEnd && evaluatedTo s p pt.linkEnd && onsetsSeen s p pt.linkEnd then setSeq (s.advanceTo pt.linkEnd) p .idle .none else s

/-- An onset of one system (R125). -/
def seqOn (s : State) (p : Nat) (sysB : Bool) (t : Nat) : State :=
  let s := expireBy s p t
  match (s.point p).seq, sysB with
  | .idle, _ => enterOn s p sysB t
  | .aIn, true => secondOnset s p true t
  | .bIn, false => secondOnset s p false t
  | .bOut, false => backToAb s p false t
  | .aOut, true => backToAb s p true t
  | .holdP, true => holdCancel s p true t
  | .holdP, false => enterOn (endHold s p) p false t
  | .holdN, false => holdCancel s p false t
  | .holdN, true => enterOn (endHold s p) p true t
  | .aLeft, false => enterOn s p false t
  | .aLeft, true => noOverlap s p true t
  | .bLeft, true => enterOn s p true t
  | .bLeft, false => noOverlap s p false t
  | _, _ => s

/-- An offset of one system (R125). -/
def seqOff (s : State) (p : Nat) (sysB : Bool) (t : Nat) : State :=
  let pt := s.point p
  match pt.seq, sysB with
  | .aIn, false => if pt.entry = .a then eddy s p false t else unresolved s p false t
  | .bIn, true => if pt.entry = .b then eddy s p true t else unresolved s p true t
  | .ab, false =>
    (rec0 s p .offset false t).updPoint p (fun x => { x with seq := .bOut, off1 := t, goingNeg := false })
  | .ab, true =>
    (rec0 s p .offset true t).updPoint p (fun x => { x with seq := .aOut, off1 := t, goingNeg := true })
  | .bOut, true =>
    if pt.entry = .a then startHold s p false t
    else if pt.entry = .b then eddy s p true t
    else unresolved s p true t
  | .aOut, false =>
    if pt.entry = .b then startHold s p true t
    else if pt.entry = .a then eddy s p false t
    else unresolved s p false t
  | _, _ => s

/-- Two onsets at one tick with both systems off (R124, R125). -/
def seqBothOn (s : State) (p t : Nat) : State :=
  let s := expireBy s p t
  match (s.point p).seq with
  | .holdP => enterBoth (endHold s p) p t
  | .holdN => enterBoth (endHold s p) p t
  | _ => enterBoth s p t

/-- Two offsets at one tick in AB (R125). Their records carry the ENTRY held up to the event (DEDUCED, log entry 23); the journal shows
the sequencer after it (R387). -/
def seqBothOff (s : State) (p t : Nat) : State :=
  let s := rec0 (rec0 s p .offset false t) p .offset true t
  seqFaultOf (setSeq s p .idle .none) p 2 t (s.point p).entry

/-! ### BLIND and FAULTY (R30, R31, R55, R57, R128, R175) -/

/-- The sequencer abandoned when a channel becomes BLIND or FAULTY (R128): a hold completes at once as a PASSAGE, every
other state ends without a record. -/
def abandon (s : State) (p : Nat) : State :=
  let s := match (s.point p).seq with
    | .holdP => passage s p false
    | .holdN => passage s p true
    | _ => s
  setSeq (dropEarly s p) p .idle .none

/-- Both channels usable: neither BLIND nor FAULTY. -/
def usable (s : State) (p : Nat) : Bool :=
  !(s.point p).blind && !(s.chan (2 * p)).faulty && !(s.chan (2 * p + 1)).faulty

/-- The sequencer takes the state that the channels' on or off states imply (R128); the passage that it may begin has its own
peaks and marks. -/
def adopt (s : State) (p : Nat) : State :=
  let a := (s.chan (2 * p)).on
  let b := (s.chan (2 * p + 1)).on
  let q : Seq := if a && b then .ab else if a then .aIn else if b then .bIn else .idle
  let own := fun (c : Chan) =>
    { c with tagSeen := false, wave := [], pre := [], peak := if c.on && c.lastTag == 0 then c.lastL else 0 }
  let s := (s.updChan (2 * p) own).updChan (2 * p + 1) own
  let s := s.updPoint p (fun x => { x with parkedIn := false, earlyRaised := false })
  setSeq s p q (if a || b then .unknown else .none)

/-- The sequencer states in which R175 lets SINGLE be set. -/
def singleSeq (pt : Point) : Bool :=
  match pt.seq, pt.entry with
  | .idle, _ => true
  | .aIn, .a => true
  | .bIn, .b => true
  | _, _ => false

/-- SINGLE for a disturbance caused by channel X: Y is READY and the sequencer allows it (R175). -/
def singleWatch (s : State) (p x : Nat) : Option (Nat × Nat) :=
  let y := if x % 2 = 0 then x + 1 else x - 1
  match pointCp s p with
  | some c => if singleSeq (s.point p) && chState s y == 0 then some (c, y) else none
  | none => none

/-- SUP_CHn_FAULT as one word, the object status of a channel's journal entries. -/
def supFaultWord (s : State) (c : Nat) : Nat :=
  s.get F.SUP_CHn_FAULT_REASON c + 256 * s.get F.SUP_CHn_FAULT_CLR_ARMED c + 512 * s.get F.SUP_CHn_FAULT_PASS_CNT c
    + 2 ^ 16 * s.get F.SUP_CHn_FAULT_FLAG_CNT c + 2 ^ 24 * s.get F.SUP_CHn_FAULT_GLITCH_CNT c

/-- A channel becomes FAULTY (R111, R112): the reason of its first cause, the hold completed before the sections are
disturbed (R31), the counting point FAULTY. A later cause is journaled only. -/
def makeFaulty (s : State) (c reason : Nat) : State :=
  let p := c / 2
  if (s.chan c).faulty then
    let s := if s.get F.SUP_CHn_FAULT_REASON c = 0 then s.set F.SUP_CHn_FAULT_REASON c reason else s
    s.note 0 0x03 0xFF c (supFaultWord s c)
  else
    let watch := singleWatch s p c
    let wasFaulty := (s.chan (2 * p)).faulty || (s.chan (2 * p + 1)).faulty
    let s := if usable s p then abandon s p else s
    let s := endSingleOf s c
    let s := s.updChan c (fun x => { x with faulty := true, firstDue := false })
    let s := s.updChan (c + 1 - 2 * (c % 2)) (fun x => { x with firstDue := false })
    let s := (s.indicate.set F.SUP_CHn_FAULT_REASON c reason).raise F.SUP_STATUS_FAULT_NEW
    let s := s.note 0 0x03 9 c (supFaultWord s c)
    let s := s.updPoint p (fun q => { q with blindExc := false })
    let s := (spdHard (pointLeaveLull s p) p).1
    if wasFaulty then s
    else
      match pointCp s p with
      | some cp => distCp s cp .cpFaulty watch
      | none => s

/-- A point enters BLIND (R30, R55, R56): the exception is judged on the state before, the hold completed, the channels'
counts of INVALID samples cleared, and the sections disturbed unless the exception holds. A counting point with a FAULTY channel
stays FAULTY (R29) and does not enter BLIND. -/
def enterBlind (s : State) (p : Nat) (cause : Cause) : State :=
  if (s.point p).blind then s
  else
    let cp := pointCp s p
    let ready := chState s (2 * p) = 0 ∧ chState s (2 * p + 1) = 0
    let lull := match cp with | some c => cpLull s c | none => true
    let exc := decide ready && lull
    let faulty := (s.chan (2 * p)).faulty || (s.chan (2 * p + 1)).faulty
    let x := if (s.chan (2 * p)).on then 2 * p else 2 * p + 1
    let anyOn := (s.chan (2 * p)).on != (s.chan (2 * p + 1)).on
    let watch := if cause == .cpBlind && lull && anyOn then singleWatch s p x else none
    let s := if usable s p then abandon s p else s
    let s := s.updPoint p (fun q =>
      { q with blind := true, blindSince := s.now, blindExc := exc, blindTo := cause == .takeover })
    let s := s.updChan (2 * p) (fun c => { c with bad := [], causes := [], tagK := s.now / 1250, firstDue := false })
    let s := s.updChan (2 * p + 1) (fun c => { c with bad := [], causes := [], tagK := s.now / 1250, firstDue := false })
    let s := (spdHard s p).1
    let s := s.note 0 0x04 0xFF p (pointWord s p)
    let s := reviewSingle s
    if exc || faulty then s
    else
      match cp with
      | some c => distCp s c cause watch
      | none => s

/-- A settling window from a tick (R55): the sample containing it and every sample up to the 96th that begins at or
after it. -/
def settleFrom (t : Nat) : Nat × Nat := (t / 1250, (t + 1249) / 1250 + 95)

/-- The settling windows of a point whose samples may still be in the chain at a tick. -/
def settleLeft (q : Point) (t : Nat) : List (Nat × Nat) := q.settle.filter (fun w => decide (t ≤ 1250 * (w.2 + 8)))

/-- An excitation change on a point at a tick (R54 to R57). -/
def excChange (s : State) (p t : Nat) (cause : Cause) : State :=
  let s := enterBlind s p cause
  s.updPoint p (fun q => { q with settle := settleFrom t :: settleLeft q t })

/-- Whether a sample of a point is tagged SETTLING: in a settling window, or ending after the tick of a lost carrier. -/
def settling (pt : Point) (k : Nat) : Bool :=
  pt.settle.any (fun w => decide (w.1 ≤ k) && decide (k ≤ w.2))
    || (match pt.noCarrier with | some t => decide (t < 1250 * (k + 1)) | none => false)

/-- A sample value, where there is one, lies at or above the channel's on-threshold. -/
def aboveOn (s : State) (c : Nat) (l : Option Int) : Bool :=
  match l with
  | some x => decide ((s.get F.WEV_CHn_THR_ON_THR c : Int) * 2 ^ 23 ≤ x)
  | none => false

/-- A point leaves BLIND at the next sample of its channels (R30, R55), given the values of those that are valid: the channels'
states follow their samples, the sections are disturbed where the exception was used and a sample lies at or above its
on-threshold. A channel whose sample is tagged is judged at its first valid one, and while the other channel has had none, SINGLE is not
set: R175 sets it at the start of the episode only (DEDUCED, log entry 122). -/
def leaveBlind (s : State) (p : Nat) (la lb : Option Int) (cause : Cause) : State :=
  let ha := aboveOn s (2 * p) la
  let hb := aboveOn s (2 * p + 1) lb
  let exc := (s.point p).blindExc
  let s := s.updPoint p (fun q =>
    { q with blind := false, blindEnd := s.now, blindExc := false, quietSince := s.now })
  let s := s.updChan (2 * p) (fun c => { c with firstDue := exc && la.isNone })
  let s := s.updChan (2 * p + 1) (fun c => { c with firstDue := exc && lb.isNone })
  let s := s.note 0 0x04 0xFF p (pointWord s p)
  let s := spdReview (reviewSingle (if usable s p then adopt s p else s)) p
  if exc && (ha || hb) then
    match pointCp s p with
    | some c =>
      let watch := if cause == .cpBlind && cpLull s c && la.isSome && lb.isSome && (ha != hb) then some (c, if ha then 2 * p + 1 else 2 * p) else none
      distCp s c cause watch
    | none => s
  else s

end Sys2Proof.Machine
end

