-- ==== Sys2Proof/Machine/Measurement.lean ====
section
/-!
DEFINITION. The damping measurement chain (R69 to R93) and the flange detector (R116 to R120, R131, R132, R428): tags,
damping, curves, snapshots, calibration, references, noise, crossings, parking, and the completion of a sample.
-/

namespace Sys2Proof.Machine

/-! ### From I and Q to L (R72 to R75, R83, R85) -/

/-- Full scale of a damping sample: 2^39 is 1.0. -/
def fullScale : Int := 2 ^ 39

/-- The excitation mode of a point in force. -/
def excMode (s : State) (p : Nat) : Nat :=
  if s.get F.EXC_CARRIER_SPn_MODE p = 0 ∧ (s.point p).calAlt then 1 else s.get F.EXC_CARRIER_SPn_MODE p
def mMatched : Nat := 0
def mAlternating : Nat := 1
def mDc : Nat := 2
def mOff : Nat := 3

/-- Whether a sample lies in an inverted frame: the present phase from the last inversion on, the other one before it. -/
def invertedAt (s : State) (p k : Nat) : Bool :=
  excMode s p == mAlternating
    && (s.flag F.EXC_CARRIER_SPn_ALT_PHASE p != decide (1250 * k < (s.point p).altSince))

/-- The phase a channel rotates by (R72, R74). -/
def rotPhase (s : State) (c : Nat) : Nat :=
  if s.flag F.EXC_MODE_DRIVE_EN then s.get F.MEAS_CHn_REF_REF_PHASE c
  else ((s.chan c).lphase).getD (s.get F.MEAS_CHn_REF_REF_PHASE c)

/-- D_I (or D_C in DC_SUPPLY mode) and D_Q of a demodulated pair in units of 2^−31 of full scale (R72, R73, R75). -/
def damping (s : State) (c k : Nat) (i q : Int) : Int × Int :=
  let p := c / 2
  let oi := toSigned 32 (s.get F.MEAS_CHn_OFFS_I_OFFS c)
  let oq := toSigned 32 (s.get F.MEAS_CHn_OFFS_Q_OFFS c)
  if excMode s p = mDc then (satSigned 40 ((i - oi) * 256), satSigned 40 (Config.dqInDc q))
  else
    let neg := invertedAt s p k
    let i := if neg then -(i - oi) else i - oi
    let q := if neg then -(q - oq) else q - oq
    let ph := rotPhase s c
    let ir := i * cosQ ph + q * sinQ ph
    let qr := q * cosQ ph - i * sinQ ph
    let ref : Int := s.get F.MEAS_CHn_REF_REF_AMP c * 2 ^ 77
    (satSigned 40 (qdiv ((ref - ir) * fullScale) ref), satSigned 40 (qdiv (-qr * fullScale) ref))

/-- Inputs of the standard curves 1 to 11 at L = 0 and at L = 0.500, in units of 10^−5 (R83). -/
def curvePoints (n : Nat) : Int × Int :=
  match n with
  | 1 => (0, 18000) | 2 => (0, 22000) | 3 => (0, 15000) | 4 => (0, 12000) | 5 => (0, 9000) | 6 => (0, 11000)
  | 7 => (0, 14000) | 8 => (0, 30000) | 9 => (21875, 43750) | 10 => (12500, 62500) | _ => (37500, 18750)

/-- A standard curve: the straight line clamped to its span, to the nearest LSB. -/
def standardCurve (n : Nat) (x : Int) : Int :=
  let (x0, x50) := curvePoints n
  let num := x * 100000 - x0 * fullScale
  let den := 2 * (x50 - x0)
  let l := if 0 < den then nearest num den else nearest (-num) (-den)
  satSigned 40 (max 0 (min fullScale l))

/-- A user curve (R85). Of a span that is not positive, which a STATIC write in COMMISSIONING can leave in force, the rule gives no value: a
free one (DESIGN CHOICE, log entry 116). -/
def userCurve (s : State) (u : Nat) (x : Int) : Int :=
  let dmin := toSigned 14 (s.get F.MEAS_UCURVEu_CFG_D_MIN u) * 2 ^ 26
  let dmax := toSigned 14 (s.get F.MEAS_UCURVEu_CFG_D_MAX u) * 2 ^ 26
  let knot := fun j => toSigned 32 (s.get (F.MEAS_UCURVEu_KNOTj_KNOT.offB (0x100 * 8 * u)) j) * 256
  let span := dmax - dmin
  if span ≤ 0 then satSigned 40 (Config.divZero x)
  else
    let x := max dmin (min dmax x)
    let j := ((x - dmin) * 32 / span).toNat
    if 32 ≤ j then satSigned 40 (knot 32)
    else
      let fr := (x - dmin) * 32 - j * span
      satSigned 40 (nearest (knot j * span + fr * (knot (j + 1) - knot j)) span)

/-- The curve a channel selects applied to its inputs. The reserved INPUT = 3, which a STATIC write in COMMISSIONING can leave in force, takes
D_I (DESIGN CHOICE, log entry 116). -/
def linearise (s : State) (c : Nat) (di dq : Int) : Int :=
  let n := s.get F.MEAS_CHn_CFG_CURVE c
  if n = 0 then di
  else if n < 12 then standardCurve n (if n = 8 then dq else di)
  else
    let u := n - 12
    userCurve s u (if s.get F.MEAS_UCURVEu_CFG_INPUT u = 1 then dq else di)

/-! ### Tags (R76, R77) -/

/-- Two closed intervals of ticks overlap. -/
def overlaps (a b c d : Nat) : Bool := decide (a ≤ d) && decide (c ≤ b)

/-- The monitor's reason for a flagged interval that overlaps a sample. -/
def invalidReason (ch : Chan) (k : Nat) : Option Nat :=
  let a := 1250 * k
  let b := 1250 * k + 1249
  match ch.mon with
  | some (t, r) => if t ≤ b then some r else ((ch.inval.find? (fun v => overlaps v.1 v.2.1 a b)).map (·.2.2))
  | none => (ch.inval.find? (fun v => overlaps v.1 v.2.1 a b)).map (·.2.2)

/-- A clamp of either pin of a channel conducts in a sample's interval. -/
def clampedAt (s : State) (c k : Nat) : Bool :=
  let one := fun (x : Pin) =>
    (match x.from_ with | some t => overlaps t x.last (1250 * k) (1250 * k + 1249) | none => false)
      || x.ivs.any (fun v => overlaps v.1 v.2 (1250 * k) (1250 * k + 1249))
  one (s.pin (2 * c)) || one (s.pin (2 * c + 1))

/-- OVERRANGE, the reason of an INVALID sample that no monitor episode explains (R96). -/
def rOverrange : Nat := 3
def rClamp : Nat := 4
def rXbar : Nat := 12

/-- The tag of a sample, and the reason it carries towards FAULTY. -/
def tagOf (s : State) (c k : Nat) : Nat × Nat :=
  if settling (s.point (c / 2)) k then (1, 0)
  else
    let inv := match invalidReason (s.chan c) k with | some r => some r | none => if (s.chan c).ovr.contains k then some rOverrange else none
    let cl := clampedAt s c k
    match inv with
    | some r => (2 + 4 * b2n cl, r)
    | none => if cl then (4, rClamp) else (0, 0)

/-! ### Clearing of faults (R113), and the tags as they are fixed (R95) -/

/-- An armed CLEAR lapses. -/
def clearLapse (s : State) (c : Nat) : State :=
  if s.flag F.SUP_CHn_FAULT_CLR_ARMED c then
    (s.lower F.SUP_CHn_FAULT_CLR_ARMED c).raise F.SUP_STATUS_CLEAR_LAPSE
  else s

/-- The number of a list's indexes that follow one another upwards from the one after `k`, at most three, and downwards. -/
def runUp (l : List Nat) (k : Nat) : Nat :=
  if !l.contains (k + 1) then 0 else if !l.contains (k + 2) then 1 else if !l.contains (k + 3) then 2 else 3
def runDown (l : List Nat) (k : Nat) : Nat :=
  if k < 1 ∨ !l.contains (k - 1) then 0 else if k < 2 ∨ !l.contains (k - 2) then 1 else if k < 3 ∨ !l.contains (k - 3) then 2 else 3

/-- One more index makes a run of three in a list of indexes. -/
def makesThree (l : List Nat) (k : Nat) : Bool :=
  let a := runDown l k
  let b := runUp l k
  decide (2 ≤ a + b) && decide (a < 3) && decide (b < 3)

/-- The causes of a sample's INVALID or CLAMP tag with the reason each leads to (R112): the monitor episodes that it overlaps, an
overrange, a clamp. -/
def causesAt (s : State) (c k : Nat) : List (Nat × Nat) :=
  let ch := s.chan c
  let eps := (match ch.mon with | some m => [(m.1, 1250 * (k + 1), m.2)] | none => []) ++ ch.inval
  ((eps.filter (fun v => overlaps v.1 v.2.1 (1250 * k) (1250 * k + 1249))).map (fun v => (v.1 + 2, v.2.2)))
    ++ (if ch.ovr.contains k then [(1, rOverrange)] else []) ++ (if clampedAt s c k then [(0, rClamp)] else [])

/-- A cause of a sample's tag taken into account (R96, R112): its third sample in a row makes it a cause of FAULTY, which is the later
one, and journaled, where the channel is FAULTY. -/
def causeBad (s : State) (c k : Nat) (x : Nat × Nat) : State :=
  let ch := s.chan c
  let l := (ch.causes.filter (fun v => v.2 == x.1)).map (·.1)
  if l.contains k then s
  else
    let own := match ch.mon with | some m => m.1 + 2 == x.1 | none => false
    let s := s.updChan c (fun ch => { ch with causes := (k, x.1) :: ch.causes.filter (fun v => decide (k < v.1 + 8)) })
    if !makesThree l k then s
    else
      let known := own && ch.monFaulted
      let s := s.updChan c (fun ch => { ch with monFaulted := ch.monFaulted || own })
      if known then s else makeFaulty s c x.2

/-- The tag of a sample is fixed as INVALID or CLAMP (R68, R95, R113): an armed CLEAR lapses on CLAMP, and the sample that makes
three in a row makes the channel FAULTY; then each of its causes is judged by itself. A cause that has made the channel FAULTY with
this sample is not told again. -/
def tagBad (s : State) (c k reason : Nat) : State :=
  let l := (s.chan c).bad
  let now := !l.contains k && makesThree l k
  let s := if l.contains k then s
    else
      let s := s.updChan c (fun x => { x with bad := k :: x.bad.filter (fun j => decide (k < j + 8)) })
      let s := if clampedAt s c k then clearLapse s c else s
      if now then makeFaulty (s.updChan c (fun x => { x with monFaulted := x.mon.isSome })) c reason else s
  forEach (causesAt s c k) s (fun s x =>
    if now ∧ x.2 = reason then s.updChan c (fun ch => { ch with causes := (k, x.1) :: ch.causes }) else causeBad s c k x)

/-- Whether the monitor, a clamp or an overrange has touched the channel, so that a sample's tag may be INVALID or CLAMP. -/
def touchy (s : State) (c : Nat) : Bool :=
  let pin := fun (x : Pin) => x.from_.isSome || !x.ivs.isEmpty
  (s.chan c).mon.isSome || !(s.chan c).inval.isEmpty || !(s.chan c).ovr.isEmpty || pin (s.pin (2 * c)) || pin (s.pin (2 * c + 1))

/-- No channel has anything that tags a sample INVALID or CLAMP. -/
def untouched (s : State) : Bool := (List.range 48).all (fun c => !touchy s c)

/-- Nothing waits for time to pass by itself: no channel has anything that tags a sample INVALID or CLAMP, no turn of the ledger
waits for the end of a fabric clock, and nothing has reached a count tile in the running one. -/
def calm (s : State) : Bool := untouched s && !turnsWait s && (clockNow s).isEmpty

/-- The tags of a channel's samples below index `n` that are not fixed yet, fixed in order, each at the end of its sample but no
later than a tick. The spec gives no tick: a tag is fixed when its sample ends at the pins, or when the flag, the clamp, the overrange
or the end of an episode is told, if that is later (DESIGN CHOICE, log entry 78). -/
def tagsTo (s : State) (c n lim : Nat) : State :=
  if !s.counting || !touchy s c then s
  else
    let a := max (s.chan c).tagK (n - 60)
    let s := forEach ((List.range 60).map (a + ·)) s (fun s j =>
      if n ≤ j then s
      else
        match tagOf s c j with
        | (0, _) => s
        | (1, _) => s
        | (_, r) =>
          let e := min (1250 * (j + 1)) lim
          tagBad ((clockDone s e).advanceTo e) c j r)
    s.updChan c (fun x => { x with tagK := max x.tagK n })

/-- The tags of a channel's samples that end by a tick (R95). -/
def tagsBy (s : State) (c t : Nat) : State := tagsTo s c (t / 1250) t

/-- The instant passes on to a tick of the running cycle: the tags of every channel's samples that end by then are fixed in the order of
those ends (R95). A fabric clock that is over by then is over first. -/
def tagsPass (s : State) (t : Nat) : State :=
  let s := if calm s then s else clockDone s (min t (s.nextBoundary - 1))
  if untouched s then s
  else
    let t := min t (s.nextBoundary - 1)
    let a := s.now / 1250
    forEach ((List.range (min 60 (t / 1250 + 1 - a))).map (a + ·)) s (fun s j => forN 48 s (fun s c => tagsTo s c j (1250 * j)))

/-- What acts at a later tick of the cycle than the present one acts after the tags that are fixed before that tick, and before those
that are fixed in it; the ledger's turns that waited for a fabric clock to end are taken when it has. -/
def timed (f : State → State) (s : State) : State :=
  let u := f s
  if u.now = s.now ∨ calm s then u
  else
    let v := f (clockDone (tagsPass s (u.now - 1)) u.now)
    turnsDue (tagsPass v v.now)

/-- The tags of a channel's samples from the one holding a tick on are to be fixed again: something that touches them has only now been
told. Samples before the point's last BLIND stay out of the count that its entry cleared (R56). -/
def tagsAgain (s : State) (c onset : Nat) : State :=
  if !s.counting then s else
  let s := s.updChan c (fun x => { x with tagK := max (min x.tagK (onset / 1250)) ((s.point (c / 2)).blindSince / 1250) })
  tagsBy s c s.now

/-! ### Crossings (R116, R119, R120, R428) -/

/-- Middle tick of a sample at the pins. -/
def midTick (k : Nat) : Nat := 1250 * k + 625

def onThr (s : State) (c : Nat) : Int := s.get F.WEV_CHn_THR_ON_THR c * 2 ^ 23
def offThr (s : State) (c : Nat) : Int := s.get F.WEV_CHn_THR_OFF_THR c * 2 ^ 23

/-- The crossing that an untagged sample shows after a given last one and from a given on state: whether it is an onset, and its tick.
Without an earlier sample on the same scale the crossing stands at the sample's own middle tick. -/
def crossingFrom (s : State) (c : Nat) (on : Bool) (last : Option (Nat × Int)) (k : Nat) (l : Int) : Option (Bool × Nat) :=
  let t := midTick k
  let at_ := fun (thr : Int) =>
    match last with
    | some (t0, l0) => if l = l0 then t else ((t0 : Int) + nearest ((if l0 < l then thr - l0 else l0 - thr) * ((t : Int) - t0)) (if l0 < l then l - l0 else l0 - l)).toNat
    | none => t
  if !on ∧ onThr s c ≤ l then some (true, at_ (onThr s c))
  else if on ∧ l < offThr s c then some (false, at_ (offThr s c))
  else none

/-- The crossing an untagged sample shows. -/
def crossing (s : State) (c k : Nat) (l : Int) : Option (Bool × Nat) :=
  crossingFrom s c (s.chan c).on (s.chan c).last k l

/-- A channel's on state changed by a crossing. -/
def setOn (s : State) (c : Nat) (on : Bool) (t : Nat) : State :=
  if on then
    endSingleOf (s.updChan c (fun x => { x with on := true, onTick := t, mean := [], met := false, parkRec := false, parkRef := none, parkCnt := 0 })) c
  else s.updChan c (fun x => { x with on := false, met := false, parkRec := false, pre := [] })

/-- The crossings of a point's two channels put through the sequencer in the order of their ticks (R124). A crossing interpolated
back over tagged samples can lie before one of the other channel that has been processed: it is processed when it is found (DESIGN
CHOICE, log entry 79). -/
def crossings (s : State) (p : Nat) (ca cb : Option (Bool × Nat)) : State :=
  let one := fun (s : State) (sysB : Bool) (x : Bool × Nat) =>
    let s := setOn s (2 * p + b2n sysB) x.1 x.2
    if usable s p then (if x.1 then seqOn s p sysB x.2 else seqOff s p sysB x.2) else s
  match ca, cb with
  | none, none => s
  | some a, none => one s false a
  | none, some b => one s true b
  | some a, some b =>
    if a.2 < b.2 then one (one s false a) true b
    else if b.2 < a.2 then one (one s true b) false a
    else if a.1 && !b.1 then one (one s false a) true b
    else if b.1 && !a.1 then one (one s true b) false a
    else
      let s := setOn (setOn s (2 * p) a.1 a.2) (2 * p + 1) b.1 b.2
      if usable s p then (if a.1 then seqBothOn s p a.2 else seqBothOff s p a.2) else s

/-! ### Parking (R131, R132, R428) -/

/-- A mean of one window lies within the band of another: |a/na − b/nb| ≤ BAND × 2^27. -/
def inBand (band : Nat) (a : Int) (na : Nat) (b : Int) (nb : Nat) : Bool :=
  decide ((a * nb - b * na).natAbs ≤ band * 2 ^ 27 * (na * nb))

/-- The PARKED record of a channel that has newly met the condition and now reads parked, stamped with the last tick of the window in
which it met it (R131, R135). -/
def parkRecord (s : State) (c : Nat) : State :=
  let ch := s.chan c
  let st := chState s c
  if ch.met ∧ !ch.parkRec ∧ 2 ≤ st ∧ st ≤ 4 then
    let s := s.updChan c (fun x => { x with parkRec := true })
    let s := s.updPoint (c / 2) (fun x => { x with parkedIn := true })
    rec0 s (c / 2) .parked (c % 2 == 1) (1250 * (ch.metAt + 1) - 1)
  else s

/-- PARKED records of a point's two channels. -/
def parkRecords (s : State) (p : Nat) : State := parkRecord (parkRecord s (2 * p)) (2 * p + 1)

/-- An untagged sample of a channel that is on taken into its moving mean and its parking window. A FAULTY channel goes on in them, so
that one which was parked produces its RESUME record when its mean leaves the band (DESIGN CHOICE, log entry 106). -/
def parkSample (s : State) (c k : Nat) (l : Int) : State :=
  let p := c / 2
  let ch := s.chan c
  let m := (l :: ch.mean).take 240
  let sum := m.foldl (· + ·) 0
  let n := m.length
  let band := s.get F.WEV_SPn_CFG_PARK_BAND p
  let need := s.get F.WEV_SPn_CFG_PARK_TIME p * 4800
  let step := fun (s : State) =>
    let cnt := ch.parkCnt + 1
    let newly := !ch.met && decide (need ≤ cnt)
    s.updChan c (fun x => { x with mean := m, parkCnt := cnt, met := x.met || newly, metAt := if newly then k else x.metAt, parkRef := if newly || x.parkRef.isNone then some (sum, n) else x.parkRef })
  match ch.parkRef with
  | none => step s
  | some (r, nr) =>
    if inBand band sum n r nr then step s
    else
      let was := ch.parkRec
      -- the window starts anew here whether or not the channel had parked: R131 says so of a RESUME only (DESIGN CHOICE, log entry 118)
      let s := s.updChan c (fun x => { x with mean := m, parkRef := some (sum, n), parkCnt := 1, met := false, parkRec := false })
      if was then
        let s := s.updPoint p (fun x => { x with parkedIn := true })
        rec0 s p .resume (c % 2 == 1) (1250 * (k + 1) - 1)
      else s

/-! ### Windows of READY samples (R74, R82, R92) -/

/-- The noise windows of a channel with one more value of L (R92). The moving mean is taken over the last 2,400 untagged READY samples
up to the one judged, and the first 2,400 after reset are judged about their common mean, so that the window is filled by its
24,000th sample; the rule says neither (DESIGN CHOICE, log entry 80). -/
def noiseSample (ch : Chan) (l : Int) : Chan :=
  let lw := (l :: ch.lwin).take 2400
  let sum := lw.foldl (· + ·) 0
  let sq := fun (v : Int) => (2400 * v - sum).natAbs * (2400 * v - sum).natAbs
  { ch with lwin := lw
            rwin := if lw.length < 2400 then ch.rwin else if ch.lwin.length < 2400 then lw.map sq else (sq l :: ch.rwin).take 24000 }

/-- I and Q of a sample without their offsets and without the inversion of an ALTERNATING frame (R72). -/
def upright (s : State) (c k : Nat) (i q : Int) : Int × Int :=
  let i := i - toSigned 32 (s.get F.MEAS_CHn_OFFS_I_OFFS c)
  let q := q - toSigned 32 (s.get F.MEAS_CHn_OFFS_Q_OFFS c)
  if invertedAt s (c / 2) k then (-i, -q) else (i, q)

/-- An untagged sample of a READY channel taken into the windows for drift (of D_I alone, R82), noise (R92), whose first filling sets
B_VALID, and, in a listening unit, received phase (R74). -/
def readySample (s : State) (c : Nat) (x : Sample) : State :=
  let dc := excMode s (c / 2) == mDc
  let drives := s.flag F.EXC_MODE_DRIVE_EN
  let iq := upright s c x.k x.i x.q
  let s := s.updChan c (fun ch =>
    let ch := noiseSample ch x.l
    { ch with drift := if dc then ch.drift else (x.di :: ch.drift).take 24000
              iq := if drives then [] else (iq :: ch.iq).take 24000
              lphase := if drives then none else ch.lphase })
  let s := if (s.chan c).rwin.length = 24000 then s.raise F.MEAS_CHn_CFG_B_VALID c else s
  let d := (s.chan c).drift
  if dc ∨ d.length < 24000 then s
  else
    let sum := (d.foldl (· + ·) 0).natAbs
    let out := decide (24000 * (2 ^ 39 : Nat) < 10 * sum)
    let inside := decide (100 * sum < 24000 * 8 * (2 ^ 39 : Nat))
    if out ∧ !s.flag F.MEAS_CHn_CFG_DRIFT c then
      let s := (s.raise F.MEAS_CHn_CFG_DRIFT c).raise F.MEAS_STATUS_DRIFT
      s.note 0 0x02 11 c 0
    else if inside then s.lower F.MEAS_CHn_CFG_DRIFT c
    else s

/-- σ_n and B1 of a channel at a boundary (R92, R93), and the received phase of a listening unit: the phase of the summed vector of its
samples, which the rule calls their mean phase (R74; DESIGN CHOICE, log entry 81). -/
def noiseBoundary (s : State) (c : Nat) : State :=
  let ch := s.chan c
  let s :=
    if ch.rwin.length = 24000 ∧ chState s c = 0 then
      let sum : Nat := ch.rwin.foldl (· + ·) 0
      let sg := fitU 32 (min (ratRoot ((sum : Rat) / ((24000 * 2400 * 2400 * 64 : Nat) : Rat))) (2 ^ 32 - 1) : Nat)
      let s := s.set F.MEAS_CHn_NOISE_SIGMA c sg
      s.set F.MEAS_CHn_B1_B1 c (fitU 32 (ratRoot (b1Sq sg (s.get F.WEV_SPn_GEOM_FIELD (c / 2))) : Nat))
    else s
  let s :=
    if ch.iq.length = 24000 ∧ !s.flag F.EXC_MODE_DRIVE_EN then
      let i := (ch.iq.map (·.1)).foldl (· + ·) 0
      let q := (ch.iq.map (·.2)).foldl (· + ·) 0
      s.updChan c (fun x => { x with lphase := some (Config.phaseOf i q % 65536) })
    else s
  let low := decide ((onThr s c - offThr s c) < 8 * (s.get F.MEAS_CHn_NOISE_SIGMA c * 8 : Nat))
  let f := if c % 2 = 0 then F.WEV_SPn_STATE_HYST_LOW_A else F.WEV_SPn_STATE_HYST_LOW_B
  let s := s.setFlag f (c / 2) low
  if low then s.raise F.WEV_STATUS_HYST_LOW else s

/-! ### Calibration and references (R78 to R80) -/

/-- A frame with one more sample. -/
def CalFrame.add (f : CalFrame) (i q : Int) : CalFrame :=
  ⟨f.n + 1, f.si + i, f.sq + q, f.sii + i * i, f.sqq + q * q⟩

/-- A sample of a channel in ALTERNATING mode taken into its calibration frame (R78). In the BLIND window of the frame's own inversion
nothing is judged; a sample that is SETTLING for another reason shows the state BLIND. Samples of a normal frame that leave the chain
after the inversion that ends it are still taken; those of an inverted frame, whose pair has been judged at the boundary,
are not. The averages are of I and Q as they leave the demodulator, no offset subtracted and none negated (DESIGN CHOICE, log
entry 82). -/
def calSample (s : State) (c : Nat) (x : Sample) : State :=
  let p := c / 2
  let inv := s.flag F.EXC_CARRIER_SPn_ALT_PHASE p
  if excMode s p ≠ mAlternating then s
  else if 1250 * x.k < (s.point p).altSince then
    (if inv ∧ x.tag = 0 then s.updChan c (fun ch => { ch with calP := ch.calP.map (·.add x.i x.q) }) else s)
  else if x.k ≤ (settleFrom (s.point p).altSince).2 then s
  else
    let st := if x.tag = 1 then 5 else chState s c
    s.updChan c (fun ch =>
      let mixed := ch.calMixed || (match ch.calState with | some q => q != st | none => false)
      let ch := { ch with calMixed := mixed, calState := some (ch.calState.getD st) }
      if x.tag ≠ 0 then ch
      else if inv then { ch with calN := ch.calN.map (·.add x.i x.q) }
      else { ch with calP := ch.calP.map (·.add x.i x.q) })

/-- The rms spread of a frame about its mean exceeds 2^−6 of full scale, in I or in Q. -/
def CalFrame.noisy (f : CalFrame) : Bool :=
  let lim : Int := 2 ^ 50 * f.n * f.n
  decide (lim < f.n * f.sii - f.si * f.si) || decide (lim < f.n * f.sqq - f.sq * f.sq)

/-- The pair that a channel has just ended, accepted into its offsets or discarded (R78, R79). -/
def calPairEnd (s : State) (c : Nat) : State :=
  let ch := s.chan c
  match ch.calP, ch.calN with
  | some a, some b =>
    let st := ch.calState.getD 7
    let good := !ch.calMixed && (st == 0 || st == 2 || st == 3 || st == 4) && a.n != 0 && b.n != 0 && !a.noisy && !b.noisy
    let s := s.updChan c (fun x => { x with calP := none, calN := none, calState := none, calMixed := false })
    if good then
      let oi := qdiv (a.si * b.n + b.si * a.n) (2 * a.n * b.n)
      let oq := qdiv (a.sq * b.n + b.sq * a.n) (2 * a.n * b.n)
      let (si, sq, n) := ch.calSum
      let sum := (si + oi, sq + oq, n + 1)
      let s := s.updChan c (fun x => { x with calSum := sum })
      let s := s.set F.MEAS_CHn_OFFS_I_OFFS c (fitS 32 (qdiv sum.1 sum.2.2))
      let s := s.set F.MEAS_CHn_OFFS_Q_OFFS c (fitS 32 (qdiv sum.2.1 sum.2.2))
      (s.raise F.MEAS_CHn_CFG_OFFS_VALID c).lower F.MEAS_CHn_CFG_CAL_BAD c
    else (s.raise F.MEAS_CHn_CFG_CAL_BAD c).raise F.MEAS_STATUS_OFFS_ERR
  | _, _ => s

/-- REF_BUSY follows the captures that run. -/
def syncRefBusy (s : State) : State := s.setFlag F.MEAS_STATUS_REF_BUSY 0 (s.chans.any (fun c => c.refCap.isSome))

/-- A capture that has run out of samples fails: the channel's values stay (R80). -/
def refFail (s : State) (c : Nat) : State :=
  (syncRefBusy (s.updChan c (fun x => { x with refCap := none }))).raise F.MEAS_STATUS_REF_ERR

/-- A sample of a channel taken into its running reference capture (R80): I and Q as they leave the demodulator (DESIGN CHOICE, log
entry 105). The capture has the 48,000 samples from the command on. -/
def refSample (s : State) (c : Nat) (x : Sample) : State :=
  match (s.chan c).refCap with
  | none => s
  | some (k0, n, i, q) =>
    if n = 4800 then s
    else if k0 + 48000 ≤ x.k then refFail s c
    else if x.tag = 0 ∧ chState s c = 0 then s.updChan c (fun ch => { ch with refCap := some (k0, n + 1, i + x.i, q + x.q) })
    else s.updChan c (fun ch => { ch with refCap := some (k0, 0, 0, 0) })

/-- A channel's capture completes (R80). -/
def refDone (s : State) (c : Nat) : State :=
  match (s.chan c).refCap with
  | some (_, 4800, i, q) =>
    let s := s.updChan c (fun x => { x with refCap := none })
    let s := s.set F.MEAS_CHn_REF_REF_AMP c (fitU 16 (ratRoot (((i * i + q * q : Int) : Rat) / ((4800 * 4800 * 2 ^ 30 : Nat) : Rat)) : Nat))
    syncRefBusy (s.set F.MEAS_CHn_REF_REF_PHASE c (Config.phaseOf i q))
  | _ => s

/-- A channel's capture has not completed within 48,000 samples of the command (R80). -/
def refLate (s : State) (c : Nat) : State :=
  match (s.chan c).refCap with
  | some (k0, n, _, _) =>
    if n ≠ 4800 ∧ k0 + 48000 ≤ (s.chan c).kNext then refFail s c else s
  | none => s

/-! ### Snapshots (R88 to R90) -/

/-- A sample latched for the running snapshot. -/
def snapSample (s : State) (c k : Nat) (tag : Nat) (l di dq : Int) : State :=
  match s.snap with
  | none => s
  | some sn =>
    if sn.k = k ∧ bitAt sn.mask c ∧ sn.vals.all (fun v => v.1 != c) then
      let v := match sn.src with | 0 => l | 1 => di | _ => dq
      s.putSnap (some { sn with vals := (c, v, tag) :: sn.vals })
    else s

/-- The latched samples written out when every selected channel has been latched (R88, R90). -/
def snapDone (s : State) : State :=
  match s.snap with
  | none => s
  | some sn =>
    if (bitsSet sn.mask 48).all (fun c => sn.vals.any (fun v => v.1 == c)) then
      let s := forN 48 s (fun s c =>
        match sn.vals.find? (fun v => v.1 == c) with
        | some v => (s.setS40 F.MEAS_SNAP_CHn_L_VALUE c v.2.1).set F.MEAS_SNAP_TAGk_TAG c v.2.2
        | none => (s.set40 F.MEAS_SNAP_CHn_L_VALUE c 0).set F.MEAS_SNAP_TAGk_TAG c 8)
      let s := s.set40 F.MEAS_SNAP_TS_L_TS 0 (ts40 (1250 * sn.k))
      let s := (s.raise F.MEAS_STATUS_SNAP_DONE).lower F.MEAS_STATUS_SNAP_BUSY
      s.putSnap none
    else s

/-- A request for a snapshot (R88, R89), its value selected by SRC. -/
def snapGo (s : State) (p : HPort) (src : Nat) : State :=
  if s.snap.isSome ∨ src = 3 then s.raise F.MEAS_STATUS_SNAP_REFUSED
  else
    let mask := s.get F.MEAS_SNAP_MASK0_MASK + 2 ^ 32 * s.get F.MEAS_SNAP_MASK1_MASK
    let s := (s.lower F.MEAS_STATUS_SNAP_DONE).raise F.MEAS_STATUS_SNAP_BUSY
    let s := s.set F.MEAS_STATUS_SNAP_PORT 0 p.toNat
    s.putSnap (some ⟨(s.now + 1249) / 1250, src, mask, []⟩)

/-! ### Completion of a sample -/

/-- The first valid sample of a channel whose point left BLIND under the exception of R30 before the channel had one: at or above its
on-threshold it disturbs the sections. -/
def firstValid (s : State) (c : Nat) (l : Int) : State :=
  if !(s.chan c).firstDue then s
  else
    let p := c / 2
    let y := c + 1 - 2 * (c % 2)
    let s := s.updChan c (fun ch => { ch with firstDue := false })
    match pointCp s p with
    | some cp =>
      if aboveOn s c (some l) then
        let cause : Cause := if (s.point p).blindTo then .takeover else .cpBlind
        let watch := if cause == .cpBlind && cpLull s cp && chState s y == 0 && !(s.chan y).firstDue then some (cp, y) else none
        distCp s cp cause watch
      else s
    | none => s

/-- An untagged sample kept as the channel's last, and in the parking window of a channel that is on. -/
def keepSample (s : State) (c k : Nat) (l : Int) : State :=
  let s := s.updChan c (fun ch => { ch with last := some (midTick k, l) })
  if (s.chan c).on then parkSample s c k l else s

/-- A sample of a point in service, its crossings processed: calibration, capture, passage, parking, noise. -/
def sampleDone (s : State) (c : Nat) (x : Sample) : State :=
  let s := calSample (refSample s c x) c x
  if x.tag ≠ 0 then s.updChan c (fun ch => { ch with tagSeen := true })
  else
    let idle := (s.point (c / 2)).seq == .idle
    let low := decide (4 * x.l < onThr s c)
    let s := s.updChan c (fun ch =>
      let ch := { ch with pre := (midTick x.k, x.l) :: (if low then [] else ch.pre) }
      if idle then ch else { ch with wave := (midTick x.k, x.l) :: ch.wave, peak := max ch.peak x.l })
    let s := firstValid (keepSample s c x.k x.l) c x.l
    if chState s c = 0 then readySample s c x else s

/-- The crossing that a sample of a channel shows, where it is untagged. -/
def crossingOf (s : State) (c : Nat) (x : Option Sample) : Option (Bool × Nat) :=
  match x with
  | some x => if x.tag = 0 then crossing s c x.k x.l else none
  | none => none

/-- The crossing that the next sample of a channel shows at the middle tick of the present one: sample `x` is the present one, `y` the
next, `on` the channel's state after it. -/
def crossingNext (s : State) (c : Nat) (x y : Option Sample) (on : Bool) : Option (Bool × Nat) :=
  match x, y with
  | some x, some y =>
    let last := if x.tag = 0 then some (midTick x.k, x.l) else (s.chan c).last
    if y.tag ≠ 0 then none else (crossingFrom s c on last y.k y.l).filter (fun v => v.2 == midTick x.k)
  | _, _ => none

/-- The channel of a point whose next sample may still show a crossing at the tick of the last one that the present samples show, with
its on state after them (R124): the one crossing stands at the very middle tick of its sample, where the other channel's next
sample begins. -/
def mateOf (s : State) (p k : Nat) (ca cb : Option (Bool × Nat)) : Option (Nat × Bool) :=
  let late := fun (x : Option (Bool × Nat)) => match x with | some v => v.2 == midTick k | none => false
  let on := fun (c : Nat) (x : Option (Bool × Nat)) => match x with | some v => v.1 | none => (s.chan c).on
  if late ca && !late cb then some (2 * p + 1, on (2 * p + 1) cb)
  else if late cb && !late ca then some (2 * p, on (2 * p) ca)
  else none

/-- The crossings of the samples of one index put through the sequencer, with a crossing of the same tick that the mate's next sample
shows. -/
def pairCrossings (s : State) (p : Nat) (xa xb ya yb : Option Sample) (k : Nat) : State :=
  let ca := crossingOf s (2 * p) xa
  let cb := crossingOf s (2 * p + 1) xb
  match mateOf s p k ca cb with
  | none => crossings s p ca cb
  | some (c, on) =>
    if c = 2 * p then
      match crossingNext s c xa ya on with
      | none => crossings s p ca cb
      | some z => crossings (crossings s p ca none) p (some z) cb
    else
      match crossingNext s c xb yb on with
      | none => crossings s p ca cb
      | some z => crossings (crossings s p none cb) p ca (some z)

/-- The samples of one index of a point's two channels evaluated together (R119, R124, R131), given the next samples in their
queues. -/
def evalPair (s : State) (p : Nat) (xa xb ya yb : Option Sample) : State :=
  let k := match xa, xb with | some x, _ => x.k | none, some x => x.k | none, none => 0
  if (s.point p).blind then s
  else
    let s := pairCrossings (expireHold s p k) p xa xb ya yb k
    let one := fun (s : State) (c : Nat) (x : Option Sample) => match x with | none => s | some x => sampleDone s c x
    reviewSingle (parkRecords (one (one s (2 * p) xa) (2 * p + 1) xb) p)

/-- Two samples of one index wait for the next of a channel that may show a crossing at the tick of theirs (R124). -/
def pairWaits (s : State) (p : Nat) (x y : Sample) (xs ys : List Sample) : Bool :=
  let s := expireHold s p x.k
  match mateOf s p x.k (crossingOf s (2 * p) (some x)) (crossingOf s (2 * p + 1) (some y)) with
  | some (c, _) => !(s.point p).blind && (if c = 2 * p then xs.isEmpty else ys.isEmpty)
  | none => false

/-- Samples of a point taken from the channels' queues while both hold one, the lower index alone where they differ. -/
def drainPair : Nat → State → Nat → State
  | 0, s, _ => s
  | fuel + 1, s, p =>
    match (s.chan (2 * p)).queue, (s.chan (2 * p + 1)).queue with
    | x :: xs, y :: ys =>
      let sa := fun (s : State) => s.updChan (2 * p) (fun c => { c with queue := xs })
      let sb := fun (s : State) => s.updChan (2 * p + 1) (fun c => { c with queue := ys })
      if x.k < y.k then drainPair fuel (evalPair (sa s) p (some x) none none none) p
      else if y.k < x.k then drainPair fuel (evalPair (sb s) p none (some y) none none) p
      else if pairWaits s p x y xs ys then s
      else drainPair fuel (evalPair (sb (sa s)) p (some x) (some y) xs.head? ys.head?) p
    | _, _ => s

/-- A sample overlaps the integration window of the running cycle's tone slot (R101). -/
def inTone (s : State) (k : Nat) : Bool :=
  overlaps (1250 * k) (1250 * k + 1249) (s.cycleStart + 6000) (s.cycleStart + 53999)

/-- The state that a channel held until it completes a sample fell into the integration window (R105). -/
def heldInTone (s : State) (k : Nat) : Bool :=
  overlaps (1250 * k + 3600) (1250 * k + 4849) (s.cycleStart + 6000) (s.cycleStart + 53999)

/-- The channel's samples of a point in BLIND have passed its settling windows (R55). -/
def pastSettling (pt : Point) (k : Nat) : Bool :=
  pt.noCarrier.isNone && !settling pt k && pt.settle.all (fun w => decide (w.2 < k))

/-- The first sample after the settling windows that a channel has completed: the head of its queue, or where that is empty
the last one completed. -/
def nextSample (ch : Chan) : Sample :=
  match ch.queue with
  | x :: _ => x
  | [] => ⟨ch.kNext - 1, ch.lastTag, ch.lastL, 0, 0, 0⟩

/-- The samples of a point evaluated as far as both channels have completed them. -/
def drain (s : State) (p : Nat) : State :=
  drainPair ((s.chan (2 * p)).queue.length + (s.chan (2 * p + 1)).queue.length) s p

/-- Two samples of one index that wait for the next one of a channel (R124) evaluated without it: the scale on which they were taken
ends with this tick (R428; DESIGN CHOICE, log entry 83). -/
def drainHeld (s : State) (p : Nat) : State :=
  match (s.chan (2 * p)).queue, (s.chan (2 * p + 1)).queue with
  | x :: xs, y :: ys =>
    if x.k = y.k ∧ pairWaits s p x y xs ys then
      let s := (s.updChan (2 * p) (fun c => { c with queue := xs })).updChan (2 * p + 1) (fun c => { c with queue := ys })
      drain (evalPair s p (some x) (some y) xs.head? ys.head?) p
    else s
  | _, _ => s

/-- A point leaves BLIND when the sample after its settling windows has completed on both its channels (R30, R55), whatever the tags
of these samples. The on or off state has held through the tagged samples, and a valid one is judged against it as any other
(R116, R119). -/
def settlingEnd (s : State) (p : Nat) : State :=
  let pt := s.point p
  let a := s.chan (2 * p)
  let b := s.chan (2 * p + 1)
  let past := fun (c : Chan) => decide (0 < c.kNext) && pastSettling pt (nextSample c).k
  if pt.blind ∧ past a ∧ past b then
    let put := fun (s : State) (c : Nat) (x : Sample) =>
      if x.tag ≠ 0 then s
      else match crossing s c x.k x.l with | some y => setOn s c y.1 y.2 | none => s
    let valid := fun (x : Sample) => if x.tag = 0 then some x.l else none
    let xa := nextSample a
    let xb := nextSample b
    let s := put (put s (2 * p) xa) (2 * p + 1) xb
    let s := leaveBlind s p (valid xa) (valid xb) (if pt.blindTo then .takeover else .cpBlind)
    let take := fun (s : State) (c : Nat) =>
      match (s.chan c).queue with
      | x :: xs => sampleDone (s.updChan c (fun ch => { ch with queue := xs })) c x
      | [] => let x := nextSample (s.chan c); if x.tag = 0 then keepSample s c x.k x.l else s
    drain (reviewSingle (parkRecords (take (take s (2 * p)) (2 * p + 1)) p)) p
  else s

/-- The device learns in which samples from index `k` on a channel's modulator leaves its stable range (R76): their tags are fixed as
those samples end, or now (DESIGN CHOICE, log entry 78). -/
def tellOver (s : State) (c k : Nat) (ovr : BitVec 5) : State :=
  let told := (bitsSet ovr.toNat 5).map (k + ·)
  let new := told.filter (fun j => !(s.chan c).ovr.contains j)
  let s := s.updChan c (fun x => { x with ovr := new ++ x.ovr.filter (fun j => decide (k ≤ j + 8)) })
  match new with
  | [] => s
  | j :: _ => tagsAgain s c (1250 * j)

/-- A sample latched for the host while counting has not begun (R88): no tag is counted and no flange detected. -/
def latchOnly (s : State) (c k : Nat) (i q : Int) (ovr : BitVec 5) : State :=
  let s := tellOver s c k ovr
  let tag := (tagOf s c k).1
  let d := damping s c k i q
  let l := linearise s c d.1 d.2
  let s := s.advanceTo (1250 * (k + 1) + 3600)
  snapSample (s.updChan c (fun x => { x with kNext := k + 1, lastTag := tag, lastL := l })) c k tag l d.1 d.2

/-- A channel's sample completed (R76, R95, R119): the tags of the samples at the pins are fixed up to this tick, and the command tells in
which samples from this one on the modulator leaves its range (log entry 78). The sample waits for the other channel's, and the flange
detector evaluates the pair; in BLIND it is ignored until the settling windows have passed, also an untagged one taken before the
change that made the point BLIND (DESIGN CHOICE, log entry 107). It is linearised, and judged, under the curve and the thresholds
in force when it completes: the first sample after a boundary (R428) is the first one that completes after it (DESIGN CHOICE,
log entry 83). -/
def takeSample (s : State) (c k : Nat) (i q : Int) (ovr : BitVec 5) : State :=
  let p := c / 2
  let t := 1250 * (k + 1) + 3600
  let s := tellOver (turnsDue ((tagsPass s t).advanceTo t)) c k ovr
  let tag := (tagOf s c k).1
  let (di, dq) := damping s c k i q
  let l := linearise s c di dq
  let bad := tag = 2 ∨ tag = 4 ∨ tag = 6
  let blind := (s.point p).blind
  let x : Sample := ⟨k, tag, l, di, i, q⟩
  let waits := !blind || pastSettling (s.point p) k
  let s := s.updChan c (fun ch => { ch with kNext := k + 1, lastTag := tag, lastL := l, queue := if waits then ch.queue ++ [x] else [], winBad := ch.winBad || (inTone s k && decide bad), winOn := ch.winOn || (heldInTone s k && ch.on) })
  let s := snapSample s c k tag l di dq
  let s := if tag = 4 ∨ tag = 6 then clearLapse s c else s
  if blind then settlingEnd (if waits then s else calSample (refSample s c x) c x) p else drain s p

end Sys2Proof.Machine
end

