-- ==== Sys2Proof/Machine/Device.lean ====
section
/-!
DEFINITION. Device states and roles (R33 to R36), entry to SAFE and SQUALL (R268 to R270, R382), sources that begin or
stop driving (R53, R429), and the settling of everything that follows the state at once: input samples, fabric, output
switches and lines. Every meaning ends with `answer`.
-/

namespace Sys2Proof.Machine

/-! ### Readiness of the pair (R357) -/

/-- Pairing runs: PAIR_EN, in a role that drives or follows. -/
def pairing (s : State) : Bool := s.flag F.URED_CFG_PAIR_EN && follows s

/-- The unit listens as STANDBY in a counting state of R33. -/
def listens (s : State) : Bool := pairing s && s.role == .standby

/-- The first failing condition of R357 for a STANDBY unit; R347 for any other. -/
def notReady (s : State) : Nat :=
  let pair := if s.flag F.URED_STATUS_PREF_CLASH then 6 else if s.flag F.URED_STATUS_CFG_MISMATCH then 7 else 0
  if s.role ≠ .standby then pair
  else if s.dev ≠ .oper then 1
  else if s.link.resync ≠ 0 then 2
  else if s.link.reqAt.isSome ∨ s.flag F.URED_STATUS_FORCE_STOP then 3
  else if s.flag F.URED_STATUS_LINK_DOWN then 4
  else if s.flag F.URED_STATUS_SYNC_LOST then 5
  else if pair ≠ 0 then pair
  else if s.flag F.URED_STATUS_INTLK_ERR then 8 else 0

/-- READY and NR_REASON written: at every boundary, and at once where the device state or a condition of the list changes. -/
def readyBoundary (s : State) : State :=
  let r := notReady s
  (s.setFlag F.URED_STATE_READY 0 (r == 0 && listens s)).set F.URED_STATE_NR_REASON 0 r

/-! ### State and role -/

/-- DEV_STATE as one word. -/
def devWord (s : State) : Nat :=
  s.get F.DEV_STATE_STATE + 8 * s.get F.DEV_STATE_ROLE + 256 * s.get F.DEV_STATE_SAFE_CAUSE
    + 2 ^ 16 * s.get F.DEV_STATE_BOOT_WAIT

/-- A device state entered: STATE_CHG and a journal entry (R387). -/
def setDev (s : State) (d : Dev) : State :=
  let s := (s.set F.DEV_STATE_STATE 0 d.code).raise F.DEV_STATUS_STATE_CHG
  s.note 0 0x00 0 0xFF (devWord s)

/-- A role taken: ROLE_CHG and a journal entry. -/
def setRole (s : State) (r : Role) : State :=
  if s.get F.DEV_STATE_ROLE = r.code then s
  else
    let s := ((s.set F.DEV_STATE_ROLE 0 r.code).set F.URED_STATE_ROLE 0 r.code).raise F.DEV_STATUS_ROLE_CHG
    s.note 0 0x00 1 0xFF (devWord s)

/-- Entry to SAFE with a cause (R33, R34, R36): the unit is DETACHED; counting runs on for diagnosis. COMMISSIONING and
SAFE are left only by reset. -/
def enterSafe (s : State) (cause : Nat) : State :=
  match s.dev with
  | .reset => s
  | .comm => s
  | .safe => s
  | _ =>
    let s := (s.set F.DEV_STATE_SAFE_CAUSE 0 cause).lower F.DEV_STATE_BOOT_WAIT
    let s := (s.set F.SPU_SQ_ELAPSED_CYCLES 0 0).lower F.URED_STATE_CLAIM
    readyBoundary (setRole (setDev s .safe) .detached)

/-- A cause of SAFE held for the next boundary. -/
def safeLater (s : State) (cause : Nat) : State := s.putToSafe (s.toSafe ++ [cause])

/-- The causes held for the boundary take effect: the lowest code names the entry (causes at one boundary coincide). -/
def safeBoundary (s : State) : State :=
  match s.toSafe with
  | [] => s
  | c :: cs => enterSafe (s.putToSafe []) (cs.foldl min c)

/-! ### Squall (R268 to R270) -/

/-- A Squall cause raised (codes 1 to 4): CAUSES at once, judged at the next boundary; in SQUALL the second fault, at
once. -/
def raiseSquall (s : State) (c : Nat) : State :=
  let s := s.set F.SPU_SQ_CAUSES 0 (putBit (s.get F.SPU_SQ_CAUSES) (c - 1) true)
  match s.dev with
  | .oper => s.putSpu { s.spu with raised := s.spu.raised ++ [c] }
  | .startup => s.putSpu { s.spu with raised := s.spu.raised ++ [c] }
  | .squall => enterSafe (s.set F.SPU_SQ_SECOND 0 c) 4
  | _ => s

/-- The Squall causes judged at a boundary (R268, R269), then the limit (R270). A cause raised twice in one cycle, as by the loss of both
controllers (R321), is two causes. -/
def squallBoundary (s : State) : State :=
  let causes := [1, 2, 3, 4].flatMap (fun c => s.spu.raised.filter (fun x => x == c))
  let s := s.putSpu { s.spu with raised := [] }
  match s.dev, causes with
  | .startup, c :: _ => enterSafe (s.set F.SPU_SQ_FIRST 0 c) 5
  | .oper, [c] =>
    let s := (s.set F.SPU_SQ_FIRST 0 c).raise F.SPU_STATUS_SQ_ENTER
    let s := s.putSpu { s.spu with sqEntry := s.cycle, cePasses := 0 }
    setDev s .squall
  | .oper, [c, d] => enterSafe ((s.set F.SPU_SQ_FIRST 0 c).set F.SPU_SQ_SECOND 0 d) 4
  | .oper, c :: _ :: _ :: _ => enterSafe ((s.set F.SPU_SQ_FIRST 0 c).set F.SPU_SQ_SECOND 0 8) 4
  | .squall, _ =>
    let e := s.cycle - s.spu.sqEntry
    let s := s.set F.SPU_SQ_ELAPSED_CYCLES 0 e
    if s.get F.SPU_SQ_CFG_SQ_LIMIT * 60000 ≤ e then enterSafe (s.set F.SPU_SQ_SECOND 0 7) 4 else s
  | _, _ => s

/-- The scrubber reads one word, once the load has started it (R238 step 9, R224, R225); the pass that ends may raise a Squall cause. -/
def scrubWord (s : State) (f : ScrubFinding) : State :=
  if s.boot.stage < 3 then s
  else
    let t := scrubFound s f
    if lastWord s then
      let u := passEnd (t.set F.FAB_SCRUB_WORD 0 0)
      if passCause t then raiseSquall u 3 else u
    else t.set F.FAB_SCRUB_WORD 0 (s.get F.FAB_SCRUB_WORD + 1)

/-! ### Sources that begin or stop driving (R53, R59, R429) -/

/-- The cause that a BLIND for want of a carrier gives (R429). -/
def carrierCause (s : State) : Cause := if s.role = .standby then .takeover else .cpBlind

/-- No carrier reaches a point from a tick on (R429): BLIND from that tick, its samples SETTLING. What R30 judges "immediately before the
entry" is the state when the loss is told, up to 2,400 ticks after that tick (DESIGN CHOICE, log entry 115). -/
def carrierGone (s : State) (p t : Nat) : State :=
  if excMode s p = mOff then s
  else
    let was := (s.point p).blind
    let s := enterBlind s p (carrierCause s)
    s.updPoint p (fun q => { q with noCarrier := some ((q.noCarrier).getD t), blindSince := if was then q.blindSince else t })

/-- A carrier reaches a point again from a tick on: the 96 samples of R55 are counted from it, and the samples since the loss
stay SETTLING, as do those of an earlier change that are still in the chain. -/
def carrierBack (s : State) (p t : Nat) : State :=
  if excMode s p = mOff ∧ (s.point p).noCarrier.isNone then s
  else
    let s := enterBlind s p (carrierCause s)
    s.updPoint p (fun q => { q with noCarrier := none, settle := ((q.noCarrier.getD t) / 1250, (settleFrom t).2) :: settleLeft q t })

/-- The drive of the sources follows the conditions of R53: on a start every point's carrier returns, on a stop it is
gone. -/
def syncDrive (s : State) : State :=
  let on := srcMay s
  let s := s.setFlag F.EXC_MODE_DRIVE_EN 0 on
  if on = s.lines.src ∨ !s.counting then s
  else if on then forN 24 s (fun s p => carrierBack s p s.now)
  else forN 24 s (fun s p => carrierGone s p s.now)

/-! ### Settling -/

/-- What follows the state at once: due input samples, the sources, the controllers' modes, the fabric and its demands, the output switches. -/
def settle (s : State) : State := outStep (fabSettle (canSync (syncDrive (sampleInputs s))))

/-- The state after a command whose own effect on `s` is `t`: settled, its lines as the conditions command them, the queue
as it was. -/
def settled (s t : State) : State := (putLines (settle t)).putPending s.pending

/-- The next state of a command whose own effect is `t`. -/
def answer (s t : State) : Host.Outcome State Fault Refusal := .next (settled s t)

end Sys2Proof.Machine
end

