-- ==== Sys2Proof/Machine/Can.lean ====
section
/-!
DEFINITION. CAN controllers, part two (13_can.md): filters and storing (R312), locks and claims (R311, R313), transmission
(R314, R315), errors and bus-off (R316 to R318), identifier clashes (R319), loss (R321).
-/

namespace Sys2Proof.Machine

/-- Data bytes of a length code (ISO 11898-1, CANx_BUFb_W1): a classical frame carries at most 8. -/
def dlcLen (fdf : Bool) (dlc : Nat) : Nat :=
  if dlc ≤ 8 then dlc
  else if !fdf then 8
  else if dlc = 9 then 12 else if dlc = 10 then 16 else if dlc = 11 then 20 else if dlc = 12 then 24
  else if dlc = 13 then 32 else if dlc = 14 then 48 else 64

/-- Bus address of a word of a buffer. -/
def bufAddr (x b k : Nat) : Nat := 0xC1000 + 0x4000 * x + 0x48 * b + 4 * k

/-- Bus address of CANx_BUFCTRLb. -/
def ctrlAddr (x b : Nat) : Nat := 0xC0900 + 0x4000 * x + 4 * b

/-- The field of data word `k` (0 to 15) of a buffer. -/
def bufDataFld (x b : Nat) : Fld := (F.CANx_BUFb_Wk_DATA.can x).offB (0x48 * 8 * b)

/-- A controller's flag register pair (RXF0/1, TXD0/1): the bit of a buffer set. -/
def setBufFlag (s : State) (lo hi : Fld) (x b : Nat) : State :=
  let f := if b < 32 then lo.can x else hi.can x
  s.set f 0 (putBit (s.get f) (b % 32) true)

/-- CANx_BUFCTRLb as one word. -/
def ctrlWord (s : State) (x b : Nat) : Nat :=
  s.get (F.CANx_BUFCTRLb_TX_REQ.can x) b + 2 ^ 8 * s.get (F.CANx_BUFCTRLb_FULL.can x) b
    + 2 ^ 9 * s.get (F.CANx_BUFCTRLb_LOCKED.can x) b + 2 ^ 10 * s.get (F.CANx_BUFCTRLb_LOCK_OWNER.can x) b
    + 2 ^ 12 * s.get (F.CANx_BUFCTRLb_HELD.can x) b + 2 ^ 13 * b2n (sshotAct s x b)
    + 2 ^ 14 * s.get (F.CANx_BUFCTRLb_OVERRUN.can x) b + 2 ^ 15 * s.get (F.CANx_BUFCTRLb_TX_FAIL.can x) b

/-! ### Error state (R316) -/

def tecOf (s : State) (x : Nat) : Nat := s.get (F.CANx_ERR_TEC.can x)

/-- The receive error counter: REC, with 128 or more shown by RP. -/
def recOf (s : State) (x : Nat) : Nat := if s.flag (F.CANx_ERR_RP.can x) then 128 else s.get (F.CANx_ERR_REC.can x)

/-- The receive error counter written; REC holds 127 while RP shows 128 or more. -/
def putRec (s : State) (x v : Nat) : State :=
  (s.set (F.CANx_ERR_REC.can x) 0 (min v 127)).setFlag (F.CANx_ERR_RP.can x) 0 (decide (128 ≤ v))

/-- Entry to bus-off (R316, R317): the recovery count starts at once under AUTO_REC. -/
def busOff (s : State) (x : Nat) : State :=
  let s := s.set (F.CANx_ERR_TEC.can x) 0 255
  let s := s.set (F.CANx_ERR_ESTATE.can x) 0 (if s.flag (F.CANx_CFG_AUTO_REC.can x) then esRecovering else esBusOff)
  let s := (s.set (F.CANx_CNT_RECOV_SEQ.can x) 0 0).bump (F.CANx_CNT_BO_CNT.can x)
  let s := (s.raise (F.CANx_STATUS_BUSOFF.can x)).updCan x (fun c => { c with boSince := some s.now, onBus := none })
  s.note 0 (canBlk x) 4 0xFF (canErrWord s x)

/-- The error state that counters `tec` and `rec` give, with its flags and journal entries. -/
def errState (s : State) (x tec rec : Nat) : State :=
  let s := putRec s x rec
  if 255 < tec then busOff s x
  else
    let s := s.set (F.CANx_ERR_TEC.can x) 0 tec
    if 128 ≤ tec ∨ 128 ≤ rec then
      if canState s x = esPassive then s
      else
        let s := (s.set (F.CANx_ERR_ESTATE.can x) 0 esPassive).raise (F.CANx_STATUS_EPASS.can x)
        s.note 0 (canBlk x) 3 0xFF (canErrWord s x)
    else s.set (F.CANx_ERR_ESTATE.can x) 0 esActive

/-! ### Receiving (R312) -/

/-- A filter matches a frame. -/
def fltMatch (s : State) (x f : Nat) (fr : CanFrame) : Bool :=
  let m := s.get (F.CANx_FLTf_MASK_MASK.can x) f
  let m := if fr.ide then m else m / 2 ^ 18 * 2 ^ 18
  let ty := s.get (F.CANx_FLTf_CFG_TYPE.can x) f
  s.flag (F.CANx_FLTf_CFG_VALID.can x) f && s.flag (F.CANx_FLTf_ID_IDE.can x) f == fr.ide
    && (s.get (F.CANx_FLTf_ID_ID.can x) f) &&& m == fr.id.toNat &&& m
    && (ty == 0 || (ty == 1 && !fr.fdf) || (ty == 2 && fr.fdf))

/-- The lowest filter that matches. -/
def firstFilter (s : State) (x : Nat) (fr : CanFrame) : Option Nat :=
  (List.range 32).find? (fun f => fltMatch s x f fr)

def bufFull (s : State) (x b : Nat) : Bool := s.flag (F.CANx_BUFCTRLb_FULL.can x) b
def bufLocked (s : State) (x b : Nat) : Bool := s.flag (F.CANx_BUFCTRLb_LOCKED.can x) b

/-- The buffer of a filter's group that takes a frame. -/
def groupPlace (s : State) (x f : Nat) : Option Nat :=
  let t := s.get (F.CANx_FLTf_CFG_TARGET.can x) f
  let e := s.get (F.CANx_FLTf_CFG_GROUP_END.can x) f
  if !bufLocked s x t && (!bufFull s x t || s.flag (F.CANx_BUFCFGb_OVWR.can x) t) then some t
  else ((List.range (e - t)).map (fun i => t + 1 + i)).find? (fun b => !bufLocked s x b && !bufFull s x b)

/-- A frame's bytes, padded with zeros to 64. -/
def pad64 (bs : List Byte) : List Byte := (bs ++ List.replicate 64 0).take 64

/-- The header and data words of a buffer written from a frame (R312): bytes beyond the length read 0. -/
def bufPut (s : State) (x b : Nat) (fr : CanFrame) (filter : Nat) : State :=
  let s := s.set (F.CANx_BUFb_W0_ID.can x) b fr.id.toNat
  let s := (s.setFlag (F.CANx_BUFb_W0_IDE.can x) b fr.ide).setFlag (F.CANx_BUFb_W0_RTR.can x) b fr.rtr
  let s := (s.setFlag (F.CANx_BUFb_W0_FDF.can x) b fr.fdf).set (F.CANx_BUFb_W1_DLC.can x) b fr.dlc.toNat
  let s := (s.setFlag (F.CANx_BUFb_W1_BRS.can x) b fr.brs).setFlag (F.CANx_BUFb_W1_ESI.can x) b fr.esi
  let s := s.set (F.CANx_BUFb_W1_FILTER.can x) b filter
  let n := if fr.rtr then 0 else dlcLen fr.fdf fr.dlc.toNat
  let d := pad64 (fr.data.take n)
  forN 16 s (fun s k => s.set (bufDataFld x b) k (ofLeBytes ((d.drop (4 * k)).take 4)))

/-- The data bytes a buffer holds, by its length code. -/
def bufBytes (s : State) (x b : Nat) : List Byte :=
  let n := dlcLen (s.flag (F.CANx_BUFb_W0_FDF.can x) b) (s.get (F.CANx_BUFb_W1_DLC.can x) b)
  (((List.range 16).flatMap (fun k => leBytes 4 (s.get (bufDataFld x b) k))).take n)

/-- The telegram engine copies a stored frame into its frame store and releases the buffer (R334). -/
def steCopy (s : State) (x b : Nat) : State :=
  let s := (s.lower (F.CANx_BUFCTRLb_FULL.can x) b).lower (F.CANx_BUFCTRLb_OVERRUN.can x) b
  if 256 ≤ s.ste.frames.length then s.raise F.STE_STATUS_RX_OVF
  else
    let fr : SteFrame := ⟨s.now, x, s.get (F.CANx_BUFb_W0_ID.can x) b, s.flag (F.CANx_BUFb_W0_IDE.can x) b,
      s.flag (F.CANx_BUFb_W0_FDF.can x) b, bufBytes s x b⟩
    s.putSte { s.ste with frames := s.ste.frames ++ [fr] }

/-- A frame received without error is stored or dropped (R312, R315). -/
def canStore (s : State) (x : Nat) (fr : CanFrame) : State :=
  match firstFilter s x fr with
  | none => s
  | some f =>
    match groupPlace s x f with
    | none =>
      let t := s.get (F.CANx_FLTf_CFG_TARGET.can x) f
      ((s.raise (F.CANx_BUFCTRLb_OVERRUN.can x) t).raise (F.CANx_STATUS_OVERRUN.can x)).bump (F.CANx_CNT_OVR_CNT.can x)
    | some b =>
      let s := bufPut s x b fr f
      let s := (s.set40 (F.CANx_BUFb_TS_L_TS.can x) b (ts40 s.now)).raise (F.CANx_BUFCTRLb_FULL.can x) b
      let s := (setBufFlag s F.CANx_RXF0_FLAG F.CANx_RXF1_FLAG x b).raise (F.CANx_STATUS_RX_NEW.can x)
      if bufOwner s x b = ownSte then steCopy s x b else s

/-- The counters after a frame received without error (R316): a counter above 127 falls to a value of the controller's own
between 119 and 127. -/
def rxGood (s : State) (x : Nat) : State :=
  if !canNormal s x then s
  else
    let r := recOf s x
    let r' := if 128 ≤ r then 119 + Config.recAfterPassive s.freeCtr % 9 else r - 1
    (errState s x (tecOf s x) r').fresh

/-- A frame on the bus becomes valid for the controller. -/
def canReceive (s : State) (x : Nat) (fr : CanFrame) : State :=
  if canLive s x then rxGood (canStore s x fr) x else s

/-! ### Locks and claims (R311, R313) -/

/-- The port owns the buffer as far as its owner field and a claim on an EITHER TX buffer say. -/
def portOwns (s : State) (p : HPort) (x b : Nat) : Bool :=
  let o := bufOwner s x b
  if o = ownEither then
    !(bufTx s x b && bufLocked s x b && s.get (F.CANx_BUFCTRLb_LOCK_OWNER.can x) b != p.toNat)
  else o == p.toNat

/-- The port holds the lock or the claim. -/
def portHolds (s : State) (p : HPort) (x b : Nat) : Bool :=
  bufLocked s x b && s.get (F.CANx_BUFCTRLb_LOCK_OWNER.can x) b == p.toNat

/-- The lock or the claim taken. -/
def bufLock (s : State) (p : HPort) (x b : Nat) : State :=
  (s.raise (F.CANx_BUFCTRLb_LOCKED.can x) b).set (F.CANx_BUFCTRLb_LOCK_OWNER.can x) b p.toNat

/-- A port's read of word 0: its owner takes the lock of an unlocked RX buffer. -/
def bufRead0 (s : State) (p : HPort) (x b : Nat) : State :=
  if !bufTx s x b && portOwns s p x b && !bufLocked s x b then bufLock s p x b else s

/-- A port's read of word 17: the lock holder releases the buffer, FULL and OVERRUN cleared. -/
def bufRead17 (s : State) (p : HPort) (x b : Nat) : State :=
  if !bufTx s x b && portHolds s p x b then
    ((bufUnlock s x b).lower (F.CANx_BUFCTRLb_FULL.can x) b).lower (F.CANx_BUFCTRLb_OVERRUN.can x) b
  else s

/-- The claim of an EITHER TX buffer taken by its first writer. -/
def claimBuf (s : State) (p : HPort) (x b : Nat) : State :=
  if bufOwner s x b = ownEither ∧ bufTx s x b ∧ !bufLocked s x b then bufLock s p x b else s

/-- The fields of a TX buffer's word written; the RO fields of word 1 are not. -/
def bufWord (s : State) (x b k v : Nat) : State :=
  if k = 0 then
    let s := (s.set (F.CANx_BUFb_W0_ID.can x) b v).set (F.CANx_BUFb_W0_IDE.can x) b (v / 2 ^ 29)
    (s.set (F.CANx_BUFb_W0_RTR.can x) b (v / 2 ^ 30)).set (F.CANx_BUFb_W0_FDF.can x) b (v / 2 ^ 31)
  else if k = 1 then
    let s := (s.set (F.CANx_BUFb_W1_DLC.can x) b v).set (F.CANx_BUFb_W1_BRS.can x) b (v / 2 ^ 4)
    s.set (F.CANx_BUFb_W1_ESI.can x) b (v / 2 ^ 5)
  else s.set (bufDataFld x b) (k - 2) v

/-- A host write of word `k` of a buffer (R311, R314). The words of an RX buffer are read-only. -/
def bufWrite (s : State) (p : HPort) (x b k v : Nat) : State :=
  if !portOwns s p x b then s.accErr p (bufAddr x b k) true .owner
  else if !bufTx s x b then s
  else if bufPending s x b then s.accErr p (bufAddr x b k) true .busy
  else bufWord (claimBuf s p x b) x b k v

/-- The tick of a frame's last bit stands in the buffer. -/
def bufStamp (s : State) (x b : Nat) : State := s.set40 (F.CANx_BUFb_TS_L_TS.can x) b (ts40 s.now)

/-! ### Transmission (R314) -/



/-- LOCK_REL written by a port: the holder's lock or claim ends, FULL unchanged. -/
def lockRel (s : State) (p : HPort) (x b : Nat) : State :=
  if !portOwns s p x b then s.accErr p (ctrlAddr x b) true .owner
  else if portHolds s p x b then bufUnlock s x b else s

/-- REENABLE written by a port: HELD ends; either port may write it for an STE-owned buffer. -/
def reenable (s : State) (p : HPort) (x b : Nat) : State :=
  if !portOwns s p x b && bufOwner s x b != ownSte then s.accErr p (ctrlAddr x b) true .owner
  else
    let s := s.lower (F.CANx_BUFCTRLb_HELD.can x) b
    s.updCan x (fun c => { c with clash := upd c.clash b (fun _ => 0) })

/-- The buffer that enters arbitration: the lowest key, then the lowest index. -/
def arbPick (s : State) (x : Nat) : Option Nat :=
  if !(canNormal s x && decide (canState s x < 2)) then none else arbFirst s x

/-- Whether the frame that would enter arbitration is already on the bus. The commands show a frame at its end only, so a request or
an ABORT that comes while one waits finds it started or not by a free value, which stands until that frame ends (R314; log entry 99). -/
def startSeen (s : State) (x : Nat) : State :=
  match (s.canCtl x).onBus, arbPick s x with
  | none, some b => let t := s.fresh; if Config.frameStarted s.freeCtr then t.updCan x (fun c => { c with onBus := some b }) else t
  | _, _ => s

/-- The buffer whose frame ends on the bus: the one that started, else the one that arbitration would choose. -/
def busPick (s : State) (x : Nat) : Option Nat :=
  if !(canNormal s x && decide (canState s x < 2)) then none
  else match (s.canCtl x).onBus with | some b => some b | none => arbPick s x

/-- An attempt is over: the controller chooses again before the next start of frame (R314). -/
def busFree (s : State) (x : Nat) : State := s.updCan x (fun c => { c with onBus := none })

/-- A request: what is on the bus by then stays there (R314). The engine's own requests pass no claim and no owner check (R322). -/
def reqStart (s : State) (x b : Nat) : State :=
  if s.flag (F.CANx_BUFCTRLb_HELD.can x) b then s else (startSeen s x).raise (F.CANx_BUFCTRLb_TX_REQ.can x) b

/-- A request withdrawn unless its frame has started; a frame already on the bus finishes (R314). -/
def reqAbort (s : State) (x b : Nat) : State :=
  let s := startSeen s x
  if (s.canCtl x).onBus = some b then s else reqEnd s x b

/-- TX_REQ written by a port. -/
def txReq (s : State) (p : HPort) (x b : Nat) : State :=
  if !portOwns s p x b then s.accErr p (ctrlAddr x b) true .owner
  else if !bufTx s x b then s
  else if !canNormal s x then s.accErr p (ctrlAddr x b) true .state_
  else reqStart (claimBuf s p x b) x b

/-- ABORT written by a port: a request not yet started is withdrawn. -/
def bufAbort (s : State) (p : HPort) (x b : Nat) : State :=
  if !portOwns s p x b then s.accErr p (ctrlAddr x b) true .owner
  else if bufTx s x b && bufPending s x b then reqAbort s x b else s

/-- ABORT written to CANx_CMD: every host-owned request not yet started. -/
def abortAll (s : State) (x : Nat) : State :=
  forN 64 (startSeen s x) (fun s b =>
    if bufTx s x b && bufPending s x b && bufOwner s x b != ownSte && (s.canCtl x).onBus != some b then reqEnd s x b else s)

/-- A single-shot request that has failed ends (R314). -/
def sshotFail (s : State) (x b : Nat) : State :=
  if sshotAct s x b then (reqEnd s x b).raise (F.CANx_BUFCTRLb_TX_FAIL.can x) b else s

/-- The frame of a buffer is an FD frame with bit-rate switching, on which the loop delay is measured (R310). -/
def bufBrs (s : State) (x b : Nat) : Bool := s.flag (F.CANx_BUFb_W0_FDF.can x) b && s.flag (F.CANx_BUFb_W1_BRS.can x) b

/-- The loop delay measured on a frame of buffer `b` that has been sent as far as its res bit (R310). -/
def loopDelay (s : State) (x b : Nat) (v : Option Nat) : State :=
  match v with
  | some d => if bufBrs s x b then s.set (F.CANx_TDC_TDCV.can x) 0 d else s
  | none => s

/-- A request of the telegram engine ends with its attempt once the cores are held in reset: after a HALT the device sends no telegram
again (R256, R331). -/
def haltEnd (s : State) (x b : Nat) : State :=
  if s.flag F.SPU_STATUS_HALTED ∧ bufOwner s x b = ownSte ∧ bufPending s x b then reqEnd s x b else s

/-- A frame transmitted and acknowledged (R314, R315, R316, R318); an FD frame with bit-rate switching gives a new measurement
of the loop delay (R310). -/
def canSent (s : State) (x tdcv : Nat) : State :=
  match busPick s x with
  | none => s
  | some b =>
    let s := busFree s x
    let s := s.setFlag (F.CANx_BUFb_W1_ESI.can x) b (canState s x == esPassive)
    let s := loopDelay s x b (some tdcv)
    let s := (s.lower (F.CANx_ERR_NOACK.can x)).set (F.CANx_CNT_NOACK_RUN.can x) 0 0
    let s := errState s x (tecOf s x - 1) (recOf s x)
    let s := clashReset (bufStamp s x b) x b
    let s := (reqEnd s x b).lower (F.CANx_BUFCTRLb_TX_FAIL.can x) b
    (setBufFlag s F.CANx_TXD0_FLAG F.CANx_TXD1_FLAG x b).raise (F.CANx_STATUS_TX_DONE.can x)

/-- Arbitration lost: an attempt that ends without a clash; a single-shot request fails. -/
def lostArb (s : State) (x : Nat) : State :=
  match busPick s x with
  | none => s
  | some b => haltEnd (sshotFail (clashReset (busFree s x) x b) x b) x b

/-! ### Errors -/

/-- The code of CANx_ERR.LEC. -/
def lecCode : CanErrCode → Nat
  | .stuff => 1 | .form => 2 | .ack => 3 | .bit1 => 4 | .bit0 => 5 | .crc => 6

/-- An unacknowledged attempt (R318). -/
def noAck (s : State) (x : Nat) : State :=
  let s := s.bump (F.CANx_CNT_NOACK_RUN.can x)
  if s.get (F.CANx_CNT_NOACK_RUN.can x) = 32 ∧ !s.flag (F.CANx_ERR_NOACK.can x) then
    let s := (s.raise (F.CANx_ERR_NOACK.can x)).raise (F.CANx_STATUS_NOACK_NEW.can x)
    s.note 0 (canBlk x) 5 0xFF (canErrWord s x)
  else s

/-- The identifier a clash count belongs to: identifier and IDE. -/
def bufIdent (s : State) (x b : Nat) : Nat :=
  s.get (F.CANx_BUFb_W0_ID.can x) b + 2 ^ 29 * s.get (F.CANx_BUFb_W0_IDE.can x) b

/-- The buffer held after its third consecutive clash (R319). -/
def holdBuf (s : State) (x b : Nat) : State :=
  let s := (s.raise (F.CANx_BUFCTRLb_HELD.can x) b).raise (F.CANx_STATUS_IDCLASH_NEW.can x)
  let s := s.note 0 (canBlk x) 6 b (ctrlWord s x b)
  if s.flag (F.CANx_IDCLASH_VALID.can x) then s.raise (F.CANx_IDCLASH_MULTI.can x)
  else
    let s := s.set (F.CANx_IDCLASH_ID.can x) 0 (s.get (F.CANx_BUFb_W0_ID.can x) b)
    let s := s.set (F.CANx_IDCLASH_IDE.can x) 0 (s.get (F.CANx_BUFb_W0_IDE.can x) b)
    (s.raise (F.CANx_IDCLASH_VALID.can x)).set (F.CANx_CLASH_INFO_BUF.can x) 0 b

/-- A clash attempt counted. -/
def clashAttempt (s : State) (x b : Nat) : State :=
  let c := s.canCtl x
  let id := bufIdent s x b
  let n := if nth c.clash b ≠ 0 ∧ nth c.clashId b = id then nth c.clash b + 1 else 1
  let s := s.updCan x (fun c => { c with clash := upd c.clash b (fun _ => n), clashId := upd c.clashId b (fun _ => id) })
  if n = 3 then holdBuf s x b else s

/-- A transmitter's attempt of buffer `b` ends with an error, which names the loop delay where the attempt had come as far as its
res bit (R310). -/
def txFailed (s : State) (x b : Nat) (e : CanError) : State :=
  let s := loopDelay (busFree s x) x b (e.tdcv.map (·.toNat))
  let s := if (e.code = .bit1 ∨ e.code = .bit0) ∧ e.dataField then clashAttempt s x b else clashReset s x b
  haltEnd (sshotFail s x b) x b

/-- A bus error (R316): the counters and the state under ISO 11898-1, the last error code, and for a transmitter the end of
its attempt; in bus monitoring mode the last error code alone (R307). -/
def canError (s : State) (x : Nat) (e : CanError) : State :=
  let lec := fun (s : State) => (s.set (F.CANx_ERR_LEC.can x) 0 (lecCode e.code)).setFlag (F.CANx_ERR_LEC_DATA.can x) 0 e.dataPhase
  if !canLive s x then s
  else if !canNormal s x then (match e.kind with | .rxError => lec s | .rxFlag => lec s | _ => s)
  else
    let tec := tecOf s x
    let rec_ := recOf s x
    match e.kind, busPick s x with
    | .rxError, _ => errState (lec s) x tec (rec_ + 1)
    | .rxFlag, _ => errState (lec s) x tec (rec_ + 8)
    | .txFlag, _ => errState (lec s) x (tec + 8) rec_
    | .txUncounted, some b => txFailed (lec s) x b e
    | .txError, some b => errState (txFailed (lec s) x b e) x (tec + 8) rec_
    | .txAck dom, some b =>
      let s := noAck (txFailed (lec s) x b e) x
      if canState s x = esPassive ∧ !dom then s else errState s x (tec + 8) rec_
    | _, none => s

/-- The recovery count is complete: 128 occurrences of 11 recessive bits (R317). -/
def canRecover (s : State) (x : Nat) : State :=
  if canState s x ≠ esRecovering ∨ !canUp s x then s
  else
    let s := putRec (s.set (F.CANx_ERR_TEC.can x) 0 0) x 0
    let s := (s.set (F.CANx_ERR_ESTATE.can x) 0 esActive).set (F.CANx_CNT_RECOV_SEQ.can x) 0 128
    s.updCan x (fun c => { c with boSince := none })

/-- RELEASE: the recovery count starts; ignored outside bus-off. -/
def canRelease (s : State) (x : Nat) : State :=
  if canState s x = esBusOff then
    (s.set (F.CANx_ERR_ESTATE.can x) 0 esRecovering).set (F.CANx_CNT_RECOV_SEQ.can x) 0 0
  else s

/-- Two RX ranges of first net and count overlap; an empty one overlaps none (R332, R339). -/
def rxMeet (a b : Nat × Nat) : Bool :=
  decide (0 < a.2) && decide (0 < b.2) && decide (a.1 < b.1 + b.2) && decide (b.1 < a.1 + a.2)

/-- The parameters that a DYNAMIC_SLOT takes from the whitelist, and which read zero while it is FREE (STE_CONNc_CFG). -/
def slotFields : List Fld := [F.STE_CONNc_CFG_FMT, F.STE_CONNc_CFG_DUP, F.STE_CONNc_CFG_WIN, F.STE_CONNc_CFG_TEXP, F.STE_CONNc_CID_CID,
  F.STE_CONNc_TXID_ID, F.STE_CONNc_TXID_IDE, F.STE_CONNc_RXID_ID, F.STE_CONNc_RXID_IDE, F.STE_CONNc_MAP_RX_FIRST,
  F.STE_CONNc_MAP_RX_COUNT, F.STE_CONNc_MAP_TX_PERIOD, F.STE_CONNc_TXMASK_L_MASK, F.STE_CONNc_TXMASK_H_MASK]

/-- A DYNAMIC_SLOT's parameters as an earlier state `o` has them while the slot is bound, else zero (R332, R339): they come at admission
and from nowhere else. -/
def slotKeep (o s : State) (c : Nat) : State :=
  if s.get F.STE_CONNc_CFG_CLASS c ≠ 2 then s
  else
    let bound := o.flag F.STE_CONNc_STAT_BOUND c
    slotFields.foldl (fun s f => s.set f c (if bound then o.get f c else 0)) s

/-- At least one safety connection is duplicated over both controllers (R321). -/
def dupConn (s : State) : Bool :=
  (List.range 64).any (fun c => s.get F.STE_CONNc_CFG_CLASS c != 0 && s.get F.STE_CONNc_CFG_DUP c == 2)

/-- The code of CANx_ERR.LOST_CAUSE. -/
def lostCode : CanLostCause → Nat
  | .ram => 0 | .domTo => 1 | .overTemp => 2 | .busOff => 3

/-- The cause of a loss holds now: bus-off counts under LOST_BO after LOST_LIM cycles. -/
def lostNow (s : State) (x : Nat) : CanLostCause → Option State
  | .busOff =>
    match s.flag (F.CANx_CFG_LOST_BO.can x), (s.canCtl x).boSince with
    | true, some t =>
      let d := t + s.get (F.CANx_CFG_LOST_LIM.can x) * cycleTicks
      if s.due d then some (s.advanceTo d) else none
    | _, _ => none
  | _ => some s

/-- A controller is lost (R321). -/
def canLost (s : State) (x : Nat) (c : CanLostCause) : State :=
  if !s.flag (F.CANx_CFG_EN.can x) ∨ !s.counting ∨ s.flag (F.CANx_ERR_LOST.can x) then s
  else
    match lostNow s x c with
    | none => s
    | some s =>
      let s := (s.raise (F.CANx_ERR_LOST.can x)).set (F.CANx_ERR_LOST_CAUSE.can x) 0 (lostCode c)
      let s := (attemptCut s x).raise (F.CANx_STATUS_LOST.can x)
      let s := s.note 0 (canBlk x) 7 0xFF (canErrWord s x)
      if dupConn s then raiseSquall s 2 else s

/-- A recessive res bit (R305): PXE, and the controller integrates onto the bus again. -/
def protoException (s : State) (x : Nat) : State :=
  if canLive s x then s.raise (F.CANx_STATUS_PXE.can x) else s

/-- A single-bit error of buffer memory corrected (R321). -/
def bufCorrected (s : State) (x : Nat) : State :=
  if s.flag (F.CANx_CFG_EN.can x) && s.counting then s.raise (F.CANx_STATUS_BUF_CE.can x) else s

/-- A commissioning write has changed a controller's bit timing (R309): off the bus with TIMING_ERR while the limits break. -/
def timingWritten (s : State) (x : Nat) : State :=
  let s := attemptCut s x
  if timingOk s x then s else s.raise (F.CANx_STATUS_TIMING_ERR.can x)

/-- A write of CANx_BUFCTRLb, bit by bit. -/
def ctrlWrite (s : State) (p : HPort) (x b v : Nat) : State :=
  if !portOwns s p x b && !(bufOwner s x b == ownSte && v % 16 == 8) then s.accErr p (ctrlAddr x b) true .owner
  else
    let s := if bitAt v 3 then reenable s p x b else s
    let s := if bitAt v 1 then bufAbort s p x b else s
    let s := if bitAt v 2 then lockRel s p x b else s
    if bitAt v 0 then txReq s p x b else s

/-- A write of CANx_CMD. -/
def canCmd (s : State) (x v : Nat) : State :=
  match v % 4 with
  | 1 => canRelease s x
  | 2 => abortAll s x
  | _ => s

end Sys2Proof.Machine
end

