-- ==== Sys2Proof/Machine/CheckUnit.lean ====
section
/-!
DEFINITION. The check-value unit (14_safety_telegrams.md, R322 to R327): channels with their parameters, the running
register, results and guards. CRC-32C is R229's.
-/

namespace Sys2Proof.Machine

/-- Operation codes of CVU_CHn_CTRL. -/
def cvuOpStart : Nat := 1
def cvuOpFinish : Nat := 2
def cvuOpRelease : Nat := 3

/-- One byte absorbed by a register of width `w` (R323). -/
def cvuByte (w poly : Nat) (refin : Bool) (reg : Nat) (b : Byte) : Nat :=
  crcBits w poly reg (if refin then bitsLsb 8 b.toNat else bitsMsb 8 b.toNat)

/-- The result formed from the register: REFOUT, then INV. -/
def cvuOut (w : Nat) (refout inv : Bool) (reg : Nat) : Nat :=
  let r := if refout then reflect w reg else reg
  if inv then 2 ^ w - 1 - r % 2 ^ w else r

/-- CRC-32C over bytes (R229). -/
def crc32c (bs : List Byte) : Nat :=
  cvuOut 32 true true (bs.foldl (cvuByte 32 0x1EDC6F41 true) 0xFFFFFFFF)

/-- The 24-bit check of classical telegrams (R330). -/
def crc24 (bs : List Byte) : Nat :=
  cvuOut 24 false true (bs.foldl (cvuByte 24 0x5D6DCB false) 0xFFFFFF)

def cvuActive (s : State) (n : Nat) : Bool := s.flag F.CVU_CHn_STAT_ACTIVE n

/-- The channel's parameters absorb bytes into its running register. -/
def cvuAbsorb (s : State) (n : Nat) (bs : List Byte) : State :=
  let w := s.get F.CVU_CHn_CFG_WIDTH n
  let poly := s.get F.CVU_CHn_POLY_VALUE n
  s.set F.CVU_CHn_CTX_CTX n (bs.foldl (cvuByte w poly (s.flag F.CVU_CHn_CFG_REFIN n)) (s.get F.CVU_CHn_CTX_CTX n))

/-- The parameters that a START refuses (R327). -/
def cvuBad (s : State) (n : Nat) : Bool :=
  let w := s.get F.CVU_CHn_CFG_WIDTH n
  w == 0 || decide (32 < w) || decide (2 ^ w ≤ s.get F.CVU_CHn_POLY_VALUE n) || decide (2 ^ w ≤ s.get F.CVU_CHn_INIT_VALUE n)

/-- START (R324): INIT, then the guard bytes. -/
def cvuBegin (s : State) (n : Nat) : State :=
  let g := s.get F.CVU_CHn_CFG_GUARD n
  let s := (s.set F.CVU_CHn_CTX_CTX n (s.get F.CVU_CHn_INIT_VALUE n)).raise F.CVU_CHn_STAT_ACTIVE n
  let s := (s.lower F.CVU_CHn_STAT_MATCH n).lower F.CVU_CHn_STAT_MISMATCH n
  let s := (s.lower F.CVU_CHn_STAT_ERR n).set F.CVU_CHn_STAT_BYTES n 0
  let s := if g = 2 ∨ g = 3 then cvuAbsorb s n (leBytes 4 (s.get F.CVU_CHn_FOLD_VALUE n)) else s
  if g = 1 ∨ g = 3 then cvuAbsorb s n (leBytes 2 (s.get F.CVU_CHn_ALIVE_ALIVE_CNT n)) else s

/-- Data bytes of an active channel. -/
def cvuFeed (s : State) (n : Nat) (bs : List Byte) : State :=
  (cvuAbsorb s n bs).set F.CVU_CHn_STAT_BYTES n (satAdd 16 (s.get F.CVU_CHn_STAT_BYTES n) bs.length)

/-- FINISH (R324): RESULT, the comparison, DONE, and the alive counter. -/
def cvuEnd (s : State) (n : Nat) : State :=
  let r := cvuOut (s.get F.CVU_CHn_CFG_WIDTH n) (s.flag F.CVU_CHn_CFG_REFOUT n) (s.flag F.CVU_CHn_CFG_INV n)
    (s.get F.CVU_CHn_CTX_CTX n)
  let cmp := s.flag F.CVU_CHn_CFG_CMP_EN n
  let ok := r == s.get F.CVU_CHn_EXPECT_VALUE n
  let g := s.get F.CVU_CHn_CFG_GUARD n
  let s := (s.set F.CVU_CHn_RESULT_RESULT n r).lower F.CVU_CHn_STAT_ACTIVE n
  let s := (s.setFlag F.CVU_CHn_STAT_MATCH n (cmp && ok)).setFlag F.CVU_CHn_STAT_MISMATCH n (cmp && !ok)
  let s := s.set F.CVU_STATUS_DONE 0 (putBit (s.get F.CVU_STATUS_DONE) n true)
  let s := if cmp && !ok then s.set F.CVU_STATUS_MISMATCH 0 (putBit (s.get F.CVU_STATUS_MISMATCH) n true) else s
  if (g = 1 ∨ g = 3) ∧ (!s.flag F.CVU_CHn_CFG_ALIVE_ADV n ∨ (cmp && ok)) then s.bumpWrap F.CVU_CHn_ALIVE_ALIVE_CNT n else s

/-! ### Host access (R322, R327) -/

/-- Bus address of a channel's register. -/
def cvuAddr (n off : Nat) : Nat := 0xD0000 + off + 0x40 * n

/-- The port may write the channel: its owner, and no claim of the other port on an EITHER channel. -/
def cvuOwns (s : State) (p : HPort) (n : Nat) : Bool :=
  let o := s.get F.CVU_CHn_CFG_OWNER n
  decide (n < 12) && (o == p.toNat
    || (o == 2 && (s.get F.CVU_CHn_STAT_CLAIM n == 3 || s.get F.CVU_CHn_STAT_CLAIM n == p.toNat)))

/-- START written by a port. -/
def cvuStart (s : State) (p : HPort) (n : Nat) : State :=
  if !cvuOwns s p n then s.accErr p (cvuAddr n 0x118) true .owner
  else if cvuActive s n then s.accErr p (cvuAddr n 0x118) true .busy
  else if cvuBad s n then s.raise F.CVU_CHn_STAT_ERR n
  else
    let s := if s.get F.CVU_CHn_CFG_OWNER n = 2 then s.set F.CVU_CHn_STAT_CLAIM n p.toNat else s
    cvuBegin s n

/-- A DATA register written with `k` bytes of a word. -/
def cvuData (s : State) (p : HPort) (n off k v : Nat) : State :=
  if !cvuOwns s p n then s.accErr p (cvuAddr n off) true .owner
  else if !cvuActive s n then s.accErr p (cvuAddr n off) true .busy
  else cvuFeed s n (leBytes k v)

/-- CTX written: the running register of an active channel is replaced (R325). -/
def cvuCtx (s : State) (p : HPort) (n v : Nat) : State :=
  if !cvuOwns s p n then s.accErr p (cvuAddr n 0x120) true .owner
  else s.set F.CVU_CHn_CTX_CTX n (v % 2 ^ s.get F.CVU_CHn_CFG_WIDTH n)

/-- FINISH written by a port; a channel without a computation has nothing to finish. -/
def cvuFinish (s : State) (p : HPort) (n : Nat) : State :=
  if !cvuOwns s p n then s.accErr p (cvuAddr n 0x118) true .owner
  else if cvuActive s n then cvuEnd s n else s

/-- RELEASE written by a port: no result, the claim ends. -/
def cvuRelease (s : State) (p : HPort) (n : Nat) : State :=
  if !cvuOwns s p n then s.accErr p (cvuAddr n 0x118) true .owner
  else (s.lower F.CVU_CHn_STAT_ACTIVE n).set F.CVU_CHn_STAT_CLAIM n 3

/-- A write of CVU_CHn_CTRL. -/
def cvuCtrl (s : State) (p : HPort) (n v : Nat) : State :=
  match v % 4 with
  | 1 => cvuStart s p n
  | 2 => cvuFinish s p n
  | 3 => cvuRelease s p n
  | _ => if cvuOwns s p n then s else s.accErr p (cvuAddr n 0x118) true .owner

/-! ### The telegram engine's channels (R330) -/

/-- The check value of a telegram, computed on one of the engine's channels with the identity folded in: the channel keeps
the parameters and the result. -/
def engineCheck (s : State) (ch : Nat) (fd : Bool) (cid : Nat) (bs : List Byte) : State × Nat :=
  let s := s.set F.CVU_CHn_CFG_WIDTH ch (if fd then 32 else 24)
  let s := (s.setFlag F.CVU_CHn_CFG_REFIN ch fd).setFlag F.CVU_CHn_CFG_REFOUT ch fd
  let s := (s.raise F.CVU_CHn_CFG_INV ch).set F.CVU_CHn_CFG_GUARD ch 2
  let s := (s.set F.CVU_CHn_CFG_OWNER ch 3).set F.CVU_CHn_POLY_VALUE ch (if fd then 0x1EDC6F41 else 0x5D6DCB)
  let s := (s.set F.CVU_CHn_INIT_VALUE ch (if fd then 0xFFFFFFFF else 0xFFFFFF)).set F.CVU_CHn_FOLD_VALUE ch cid
  let s := cvuEnd (cvuFeed (cvuBegin s ch) ch bs) ch
  (s, s.get F.CVU_CHn_RESULT_RESULT ch)

/-- An identity as received telegrams fold it: bit 31 inverted (R330). -/
def cidRx (cid : Nat) : Nat := putBit cid 31 (!bitAt cid 31)

end Sys2Proof.Machine
end

