-- ==== Sys2Proof/Machine/Excitation.lean ====
section
/-!
DEFINITION. Excitation (02_excitation.md): sources and routes (R49, R50), pending and forced changes (R54 to R61), phase
inversions (R51), source failures and spares (R62 to R65), pin clamps (R67), loss and return of the carrier (R429).
-/

namespace Sys2Proof.Machine

/-- Number of sources. -/
def nSources : Nat := 56

/-- The routes in force as EXC_SRCn reports them: a FAILED source stays FAILED, a source that a DRIVE pin names is
ASSIGNED to it, every other one FREE (R65, EXC_SRCn). -/
def syncSources (s : State) : State :=
  forN nSources s (fun s n =>
    if s.get F.EXC_SRCn_STATUS n = 2 then s.set F.EXC_SRCn_PIN n 127
    else
      match (List.range 96).find? (fun p => s.get F.EXC_ROUTEp_FUNC p == 1 && s.get F.EXC_ROUTEp_SRC p == n) with
      | some p => (s.set F.EXC_SRCn_STATUS n 1).set F.EXC_SRCn_PIN n p
      | none => (s.set F.EXC_SRCn_STATUS n 0).set F.EXC_SRCn_PIN n 127)

/-- A source is free for substitution: FREE and not withdrawn by the host (R63). -/
def srcFree (s : State) (n : Nat) : Bool := s.get F.EXC_SRCn_STATUS n == 0 && !s.flag F.EXC_SRCn_RETIRE n

/-- Sources that are FREE and do not have RETIRE set. -/
def freeSpares (s : State) : Nat := ((List.range nSources).filter (srcFree s)).length

/-! ### Pending values (R58 to R60) -/

/-- The values in force of the registers that a pending change of a point covers (R59). -/
def pointVals (s : State) (p : Nat) : PendVals :=
  { carrier := s.get F.EXC_CARRIER_SPn_CARRIER p
    amp := s.get F.EXC_CARRIER_SPn_AMP p
    mode := s.get F.EXC_CARRIER_SPn_MODE p
    src := (List.range 4).map (fun j => s.get F.EXC_ROUTEp_SRC (4 * p + j))
    func := (List.range 4).map (fun j => s.get F.EXC_ROUTEp_FUNC (4 * p + j))
    curve := (List.range 2).map (fun j => s.get F.MEAS_CHn_CFG_CURVE (2 * p + j))
    onThr := (List.range 2).map (fun j => s.get F.WEV_CHn_THR_ON_THR (2 * p + j))
    offThr := (List.range 2).map (fun j => s.get F.WEV_CHn_THR_OFF_THR (2 * p + j)) }

/-- The excitation part of two sets of values differs (R54). -/
def excDiffers (a b : PendVals) : Bool :=
  a.carrier != b.carrier || a.amp != b.amp || a.mode != b.mode || a.src != b.src || a.func != b.func

/-- The curve or the thresholds of channel `j` of the point differ. -/
def scaleDiffers (a b : PendVals) (j : Nat) : Bool :=
  nth a.curve j != nth b.curve j || nth a.onThr j != nth b.onThr j || nth a.offThr j != nth b.offThr j

/-- A set of values written into force. -/
def putVals (s : State) (p : Nat) (v : PendVals) : State :=
  let s := s.set F.EXC_CARRIER_SPn_CARRIER p v.carrier
  let s := s.set F.EXC_CARRIER_SPn_AMP p v.amp
  let s := s.set F.EXC_CARRIER_SPn_MODE p v.mode
  let s := forN 4 s (fun s j =>
    (s.set F.EXC_ROUTEp_SRC (4 * p + j) (nth v.src j)).set F.EXC_ROUTEp_FUNC (4 * p + j) (nth v.func j))
  forN 2 s (fun s j =>
    let s := s.set F.MEAS_CHn_CFG_CURVE (2 * p + j) (nth v.curve j)
    let s := s.set F.WEV_CHn_THR_ON_THR (2 * p + j) (nth v.onThr j)
    s.set F.WEV_CHn_THR_OFF_THR (2 * p + j) (nth v.offThr j))

/-- The calibration frame that begins for a channel's point in ALTERNATING mode: a normal one begins a pair (R78). -/
def calFrameBegin (s : State) (c : Nat) (inverted : Bool) : State :=
  s.updChan c (fun x =>
    if inverted then { x with calN := some ⟨0, 0, 0, 0, 0⟩ }
    else { x with calP := some ⟨0, 0, 0, 0, 0⟩, calN := none, calState := none, calMixed := false })

/-- A point begins or ends a run in ALTERNATING mode: the running mean of R79 starts afresh, no frame is open. -/
def calReset (s : State) (p : Nat) : State :=
  let f := fun (x : Chan) => { x with calP := none, calN := none, calState := none, calMixed := false, calSum := (0, 0, 0) }
  let s := (s.updChan (2 * p) f).updChan (2 * p + 1) f
  s.setFlag F.EXC_CARRIER_SPn_ALT_PHASE p (excMode s p == mAlternating && s.cycle / 500 % 2 == 1)

/-- OFFS_I of a point's two channels follows its mode (R73): in DC_SUPPLY mode the production-trimmed offset of the current path, which
the spec does not give, and otherwise what calibration left. -/
def dcTrim (s : State) (p : Nat) : State :=
  let dc := excMode s p == mDc
  forN 2 s (fun s j =>
    let c := 2 * p + j
    match dc, (s.chan c).dcOffs with
    | true, none =>
      (s.updChan c (fun x => { x with dcOffs := some (s.get F.MEAS_CHn_OFFS_I_OFFS c) })).set F.MEAS_CHn_OFFS_I_OFFS c (fitS 32 (Config.currentTrim c))
    | false, some v => (s.updChan c (fun x => { x with dcOffs := none })).set F.MEAS_CHn_OFFS_I_OFFS c v
    | _, _ => s)

/-- New values applied to a point (R58, R60, R87, R118, R428): an excitation change when an excitation value differs, a
new scale when a channel's curve or thresholds differ, before which the samples of the old one that still wait are evaluated. -/
def applyVals (s : State) (p : Nat) (v : PendVals) : State :=
  let old := pointVals s p
  let s := if scaleDiffers old v 0 || scaleDiffers old v 1 then drainHeld s p else s
  let s := putVals s p v
  let s := forN 2 s (fun s j =>
    if scaleDiffers old v j then
      s.updChan (2 * p + j) (fun x => { x with last := none, mean := [], parkRef := none })
    else s)
  if excDiffers old v then
    let s := if old.mode = v.mode then s else dcTrim (calReset s p) p
    excChange (syncSources s) p s.now .cpBlind
  else s

/-- The condition of R58: READY and every section in Lull; both channels READY for a point mapped to none. -/
def pendReady (s : State) (p : Nat) : Bool :=
  match pointCp s p with
  | some c => cpState s c == 0 && cpLull s c
  | none => chState s (2 * p) == 0 && chState s (2 * p + 1) == 0

/-- A point's pending values discarded, with its marks. -/
def pendDrop (s : State) (p : Nat) : State := s.updPoint p (fun x => { x with pend := none, force := false })

/-- The pending values of a point at a boundary after the one that accepted them (R58, R60). They are applied as they were accepted,
whatever has become of a source they name since, short of its failure (R65; DESIGN CHOICE, log entry 104). -/
def pendApply (s : State) (p : Nat) : State :=
  match (s.point p).pend with
  | none => s
  | some v =>
    if (s.point p).pendAt < s.now ∧ ((s.point p).force || pendReady s p) then applyVals (pendDrop s p) p v else s

/-- The instant is the first tick of the running cycle, where boundary actions take effect. -/
def atBoundary (s : State) : Bool := (s.now : Int) == (s.cycleStart : Int) + s.link.step

/-- FORCE for the selected points that hold pending values (R60). -/
def pendForce (s : State) (pts : Nat) : State :=
  forEach (bitsSet pts 24) s (fun s p =>
    if (s.point p).pend.isSome then s.updPoint p (fun x => { x with force := true }) else s)

/-- CANCEL for the selected points (R59). -/
def pendCancel (s : State) (pts : Nat) : State := forEach (bitsSet pts 24) s pendDrop

/-! ### Phase inversions (R51, R411) -/

/-- The inversion of one point at a boundary whose index is a multiple of 500: the phase of the frame that begins, an
undeferred excitation change, the pair that ends and the frame that begins for calibration. -/
def invertPoint (s : State) (p : Nat) : State :=
  if excMode s p ≠ mAlternating ∨ (s.point p).altSince = s.now then s
  else
    let inv := s.cycle / 500 % 2 == 1
    let s := if inv then s else calPairEnd (calPairEnd s (2 * p)) (2 * p + 1)
    let s := s.setFlag F.EXC_CARRIER_SPn_ALT_PHASE p inv
    let s := s.updPoint p (fun x => { x with altSince := s.now })
    let s := calFrameBegin (calFrameBegin s (2 * p) inv) (2 * p + 1) inv
    excChange s p s.now .cpBlind

/-- The inversions of the running boundary. -/
def altInvert (s : State) : State :=
  if s.cycle % 500 = 0 ∧ atBoundary s ∧ s.counting then forN 24 s invertPoint else s

/-! ### Source failures (R62 to R65) -/

/-- Pending values that name a failed source are discarded (R65). -/
def dropFailed (s : State) (n : Nat) : State :=
  forN 24 s (fun s p =>
    match (s.point p).pend with
    | some v =>
      if (List.range 4).any (fun j => nth v.func j == 1 && nth v.src j == n) then
        (pendDrop s p).raise F.EXC_MON_PEND_DROP
      else s
    | none => s)

/-- A monitor episode of a channel begins (R94 to R96): the samples from its onset on are INVALID, and their tags are fixed. -/
def monStart (s : State) (c onset reason : Nat) : State :=
  let s := s.indicate.updChan c (fun x => { x with mon := some (onset, reason), monFaulted := false })
  tagsAgain (clearLapse s c) c onset

/-- The new source written into each port's shadow copy of a pin's SRC field (R63): EXC_ROUTEp lies at 0x01_0100 + 4p. -/
def shadowSrc (s : State) (pin m : Nat) : State :=
  { s with hosts := s.hosts.map (fun h => { h with shadow := h.shadow.map (fun w =>
      if w.1 = 0x10100 + 4 * pin then (w.1, w.2 / 64 * 64 + m) else w) }) }

/-- A source put on a pin in another's place: in force, and in both ports' shadow copies (R63). -/
def routeSrc (s : State) (pin m : Nat) : State := shadowSrc (s.set F.EXC_ROUTEp_SRC pin m) pin m

/-- A failure put among the others of its tick, in the order of the failed sources (R63). -/
def failInsert (x : SrcFail) : List SrcFail → List SrcFail
  | [] => [x]
  | y :: ys => if x.src < y.src then x :: y :: ys else y :: failInsert x ys

/-- The free sources given to the failures of one tick, lowest to lowest. -/
def sparesGiven : List SrcFail → List Nat → List SrcFail
  | [], _ => []
  | x :: xs, [] => { x with spare := none } :: sparesGiven xs []
  | x :: xs, m :: ms => { x with spare := some m } :: sparesGiven xs ms

/-- The failures of one tick share out the free sources in the order of the failed sources' indices (R63), so a later command of the
same tick can move a spare that an earlier one was given. A failure that loses its spare so becomes an episode of its channel; its
point stays in the BLIND that it entered (DESIGN CHOICE, log entry 84). -/
def substitute (s : State) (x : SrcFail) : State :=
  let prior := s.srcFails.filter (fun y => y.at_ == s.now)
  let pool := (List.range nSources).filter (fun m => srcFree s m || prior.any (fun y => y.spare == some m))
  let all := sparesGiven (failInsert x prior) pool
  let s := forEach all (s.putSrcFails all) (fun s y =>
    match y.spare with
    | some m => ((routeSrc s y.pin m).set F.EXC_SRCn_STATUS m 1).set F.EXC_SRCn_PIN m y.pin
    | none => s.raise F.EXC_MON_NO_SPARE)
  let s := if all.length ≤ pool.length then s.bump F.EXC_MON_SUBST_CNT else s
  let lost := all.filter (fun y => y.spare.isNone && (y.src == x.src || prior.any (fun z => z.src == y.src && z.spare.isSome)))
  let s := forEach lost s (fun s y =>
    monStart (if y.src == x.src then s else routeSrc s y.pin y.src) (y.pin / 2) y.onset 2)
  if all.any (fun y => y.src == x.src && y.spare.isSome) then
    let s := s.updChan (x.pin / 2) (fun c => { c with inval := (x.onset, s.now, 2) :: c.inval })
    excChange s (x.pin / 4) s.now .cpBlind
  else s

/-- A source fails (R62): FAILED and SRC_FAIL; with AUTO_SPARE and a free source, the substitution of R63, a forced
change; otherwise a flagged episode of its channel with reason SRC_LOST (R96). -/
def sourceFail (s : State) (n onset : Nat) : State :=
  let pin := s.get F.EXC_SRCn_PIN n
  if s.get F.EXC_SRCn_STATUS n ≠ 1 ∨ !s.lines.src ∨ 96 ≤ pin then s
  else
    let s := (s.set F.EXC_SRCn_STATUS n 2).set F.EXC_SRCn_PIN n 127
    let s := ((s.indicate.raise F.EXC_MON_SRC_FAIL).firstErr F.URED_FIRST_SRC 2400).note 0 0x01 8 n (2 + 127 * 256)
    let s := dropFailed s n
    if s.flag F.EXC_MODE_AUTO_SPARE then substitute s { at_ := s.now, src := n, pin := pin, onset := onset, spare := none }
    else monStart s (pin / 2) onset 2

/-! ### Pin clamps (R67) -/

/-- An episode of a pin counted and journaled. -/
def clampCount (s : State) (pin : Nat) : State := 
  let s := s.bump F.EXC_ROUTEp_CLAMP_CNT pin
  s.countNote 0x01 0xFF pin 0 (s.get F.EXC_ROUTEp_CLAMP_CNT pin)

/-- A pin's clamp conducts at the present tick. -/
def clamping (s : State) (pin : Nat) : Bool := (s.pin pin).from_.isSome && decide (s.now ≤ (s.pin pin).last)

/-- A pin's flag in EXC_CLAMPk. -/
def clampFlag (s : State) (pin : Nat) : State :=
  s.set F.EXC_CLAMPk_CLAMP (pin / 32) (putBit (s.get F.EXC_CLAMPk_CLAMP (pin / 32)) (pin % 32) true)

/-- A clamp conducts from one tick to another: the pin's flag, the episode begun or carried on. An episode that had already
been over for 1,250 ticks at the onset is counted first. -/
def clampConduct (s : State) (pin onset last : Nat) : State :=
  let s := if (s.pin pin).from_.isSome ∧ (s.pin pin).last + 1250 < onset then clampCount s pin else s
  let s := clampFlag s pin
  let s := s.updPin pin (fun x =>
    { from_ := some onset, last := last,
      ivs := match x.from_ with | some t => (t, x.last) :: x.ivs | none => x.ivs })
  tagsAgain s (pin / 2) onset

/-- The episode of a pin ends 1,250 ticks after its last conduction. -/
def clampEnd (s : State) (pin : Nat) : State :=
  let x := s.pin pin
  match x.from_ with
  | none => s
  | some t =>
    if !s.due (x.last + 1250) then s
    else
      let s := s.advanceTo (x.last + 1250)
      clampCount (s.updPin pin (fun x => { x with from_ := none, ivs := (t, x.last) :: x.ivs })) pin

/-! ### The crossbar (R50) and the carrier (R429) -/

/-- A crossbar disagreement read back at a boundary makes the pin's channel FAULTY. -/
def xbarBad (s : State) (pin : Nat) : State :=
  let s := (s.indicate.raise F.EXC_MON_XBAR_ERR).firstErr F.URED_FIRST_XBAR 60632
  makeFaulty (clearLapse s (pin / 2)) (pin / 2) rXbar

/-- A listening unit finds the carrier absent on both channels of a point since a tick. -/
def carrierLoss (s : State) (p onset : Nat) : State :=
  if s.lines.src ∨ !s.counting then s else carrierGone s p onset

/-- A carrier reaches a point again. -/
def carrierReturn (s : State) (p : Nat) : State :=
  if (s.point p).noCarrier.isSome ∧ s.counting then carrierBack s p s.now else s

end Sys2Proof.Machine
end

