-- ==== Sys2Proof/Machine/Rules.lean ====
section
/-!
DEFINITION. The rules that register values must meet at a load and at a commit (R238 step 6, R245): ranges and encodings,
and the rules that bind several fields. Each instance of a rule names its registers, so that a refusal can be located.
-/

namespace Sys2Proof.Machine

/-- One instance of a rule: whether it is a tile rule, whether it asks for fields to be written together (MISSING) or is a
range (RANGE), the registers and tiles it names, whether it holds, and registers whose fields it binds without naming them:
a commit of one of those is judged by it. -/
structure Rule where
  tile : Bool
  missing : Bool
  range : Bool
  regs : List Nat
  tiles : List Nat
  ok : Bool
  binds : List Nat
  deriving DecidableEq, Repr, Inhabited

/-- The address of the register that holds a field. -/
def regOf (f : Fld) (i : Nat := 0) : Nat := f.key i / 32 * 4

/-- A rule over register values. -/
def regRule (regs : List Nat) (ok : Bool) : Rule := ⟨false, false, false, regs, [], ok, []⟩

/-- A rule over tiles. -/
def tileRule (tiles : List Nat) (ok : Bool) (regs : List Nat := []) : Rule := ⟨true, false, false, regs, tiles, ok, []⟩

/-! ### Ranges -/

/-- A field with the number of its indices and its lowest and highest values. -/
structure Rng where
  f : Fld
  n : Nat
  lo : Nat
  hi : Nat
  deriving DecidableEq, Repr

/-- Ranges of single fields of the excitation, measurement, supervision and detection blocks. -/
def rngsA : List Rng := [
  ⟨F.EXC_MODE_CAL_PAIRS, 1, 1, 15⟩, ⟨F.EXC_ROUTEp_FUNC, 96, 0, 2⟩, ⟨F.EXC_CARRIER_SPn_CARRIER, 24, 0, 240⟩,
  ⟨F.MEAS_UCURVEu_CFG_INPUT, 4, 0, 2⟩, ⟨F.SUP_TONE_CFG_DEV_LIM, 1, 5, 50⟩, ⟨F.SUP_TONE_CFG_PH_LIM, 1, 2, 30⟩,
  ⟨F.SUP_TONE_CFG_XT_LIM, 1, 2, 20⟩, ⟨F.WEV_SPn_GEOM_SPACING, 24, 400, 1500⟩, ⟨F.WEV_SPn_GEOM_FIELD, 24, 400, 2000⟩,
  ⟨F.WEV_SPn_CFG_HOLD, 24, 1, 10⟩, ⟨F.WEV_SPn_CFG_PARK_TIME, 24, 1, 255⟩, ⟨F.WEV_SPn_CFG_PARK_BAND, 24, 1, 255⟩,
  ⟨F.LEDG_CFG_W, 1, 4, 16⟩, ⟨F.LEDG_CFG_LOOKAHEAD, 1, 0, 14⟩, ⟨F.LEDG_CFG_D_ACC, 1, 32, 128⟩,
  ⟨F.LEDG_COST_INS_COST, 1, 1, 255⟩, ⟨F.LEDG_COST_SKIP_COST, 1, 1, 255⟩, ⟨F.LEDG_COST_QUIET, 1, 100, 60000⟩,
  ⟨F.LEDG_TOL0_PEAK_TOL, 1, 1, 65535⟩, ⟨F.LEDG_TOL0_FLEN_TOL, 1, 1, 65535⟩, ⟨F.LEDG_TOL1_ABR_TOL, 1, 1, 65535⟩,
  ⟨F.LEDG_TOL1_ASYM_TOL, 1, 1, 65535⟩, ⟨F.LEDG_TOL2_DIAM_TOL, 1, 1, 65535⟩, ⟨F.LEDG_TOL2_GAP_TOL, 1, 1, 65535⟩,
  ⟨F.LEDG_SLIP_CFG_SLIP_LIM, 1, 1, 65535⟩, ⟨F.LEDG_SLIP_CFG_MIN_DIST, 1, 10, 65535⟩]

/-- Ranges of single fields of the position, fabric, safety and communication blocks. -/
def rngsB : List Rng := [
  ⟨F.SPOS_CFG_LULL_TIME, 1, 50, 60000⟩, ⟨F.SPOS_CFG_FIX_LIM, 1, 1, 65535⟩, ⟨F.SPOS_SPn_CFG_SPD_SCALE, 24, 40000, 150000⟩,
  ⟨F.SPOS_SPn_CFG_GAP_NOM, 24, 5, 255⟩, ⟨F.DENC_PORTn_CFG_PARITY, 4, 0, 2⟩, ⟨F.DENC_PORTn_CFG_CLK_DIV, 4, 12, 255⟩,
  ⟨F.DENC_PORTn_CFG_POLL, 4, 16, 1000⟩, ⟨F.DENC_PORTn_CFG_MONO, 4, 1, 63⟩, ⟨F.DENC_PORTn_FRAME_FRAME_LEN, 4, 10, 40⟩,
  ⟨F.DENC_PORTn_FRAME_POS_WIDTH, 4, 8, 40⟩, ⟨F.DENC_PORTn_TIMING_SPEED_WIN, 4, 1, 15⟩,
  ⟨F.DENC_PORTn_SCALE_SCALE, 4, 1, 4294967295⟩, ⟨F.DENC_PORTn_LIM_MAX_STEP, 4, 1, 65535⟩,
  ⟨F.DENC_PORTn_LIM_DIR_HYST, 4, 1, 255⟩, ⟨F.DENC_PORTn_LIM_LATE_LIM, 4, 1, 15⟩, ⟨F.DENC_PORTn_LULL_LULL_BAND, 4, 1, 65535⟩,
  ⟨F.DENC_PORTn_LULL_LULL_TIME, 4, 50, 60000⟩, ⟨F.DENC_REFm_CFG_DRIFT_LIM, 8, 1, 32767⟩, ⟨F.DENC_CMPk_CFG_FDIR, 16, 0, 2⟩,
  ⟨F.FAB_CE_CFG_CE_LIM, 1, 1, 255⟩, ⟨F.SPU_SQ_CFG_SQ_LIMIT, 1, 1, 4320⟩, ⟨F.SIO_PULSE_CFG_PERIOD, 1, 1, 60⟩,
  ⟨F.SIO_INj_CFG_DISC, 16, 40, 20000⟩, ⟨F.SIO_OUTk_CFG_PULSE_LEN, 12, 100, 1000⟩, ⟨F.TLNK_CFG_TEXP, 1, 2, 2000⟩,
  ⟨F.CANx_CFG_LOST_LIM, 1, 1, 60000⟩, ⟨F.CANx_CFG_LOST_LIM.can 1, 1, 1, 60000⟩, ⟨F.CANx_FLTf_CFG_TYPE, 32, 0, 2⟩,
  ⟨F.CANx_FLTf_CFG_TYPE.can 1, 32, 0, 2⟩, ⟨F.CVU_CHn_CFG_OWNER, 12, 0, 2⟩, ⟨F.STE_CFG_ANN_DUP, 1, 0, 2⟩,
  ⟨F.STE_CFG_DYN_HOLD, 1, 10, 6000⟩, ⟨F.STE_CONNc_CFG_CLASS, 64, 0, 2⟩, ⟨F.STE_CONNc_CFG_DUP, 64, 0, 2⟩,
  ⟨F.STE_WLw_CFG_DUP, 32, 0, 2⟩, ⟨F.STE_WLw_CFG_WIN, 32, 1, 8⟩, ⟨F.STE_WLw_CFG_TEXP, 32, 2, 2000⟩,
  ⟨F.STE_WLw_MAP_TX_PERIOD, 32, 1, 1000⟩, ⟨F.STE_WLw_MAP_RX_COUNT, 32, 0, 64⟩, ⟨F.STE_CONNc_MAP_RX_COUNT, 64, 0, 64⟩,
  ⟨F.STE_CONNc_CFG_WIN, 64, 1, 8⟩, ⟨F.STE_CONNc_CFG_TEXP, 64, 2, 2000⟩, ⟨F.STE_CONNc_MAP_TX_PERIOD, 64, 1, 1000⟩,
  ⟨F.SECT_ALNj_CFG_MSEC, 32, 0, 47⟩, ⟨F.SECT_ALNj_CFG_FSEC, 32, 0, 47⟩]

/-- A range rule. -/
def rngRule (reg : Nat) (ok : Bool) : Rule := ⟨false, false, true, [reg], [], ok, []⟩

/-- The instances of a range at a state. -/
def rngRules (n : State) (r : Rng) : List Rule :=
  (List.range r.n).map (fun i => rngRule (regOf r.f i) (decide (r.lo ≤ n.get r.f i) && decide (n.get r.f i ≤ r.hi)))

/-- 48 sections, or 63 for none. -/
def secOrNone (v : Nat) : Bool := decide (v < 48) || v == 63

/-- Every range and encoding, of every field, whether or not it is in use (R237). -/
def rangeRules (n : State) : List Rule :=
  (rngsA ++ rngsB).flatMap (rngRules n)
    ++ (List.range 96).map (fun p => rngRule (regOf F.EXC_ROUTEp_SRC p)
        (decide (n.get F.EXC_ROUTEp_SRC p < 56) || n.get F.EXC_ROUTEp_SRC p == 63))
    ++ (List.range 24).map (fun p => rngRule (regOf F.SPOS_SPn_CFG_FRAME p)
        (decide (n.get F.SPOS_SPn_CFG_FRAME p < 4) || n.get F.SPOS_SPn_CFG_FRAME p == 7))
    ++ (List.range 24).map (fun p => rngRule (regOf F.LEDG_SPn_CFG_HOST_SEC p) (secOrNone (n.get F.LEDG_SPn_CFG_HOST_SEC p)))
    ++ (List.range 8).map (fun k => rngRule (regOf F.SECT_VCPk_CFG_MSEC k) (secOrNone (n.get F.SECT_VCPk_CFG_MSEC k)))
    ++ [rngRule (regOf F.LEDG_CFG_LOOKAHEAD) (decide (n.get F.LEDG_CFG_LOOKAHEAD + 2 ≤ n.get F.LEDG_CFG_W))]

/-! ### Rules of the commit groups -/

/-- The curve's input code for a user curve; none for the fixed curves. -/
def userInput (n : State) (c : Nat) : Option Nat := if 12 ≤ c then some (n.get F.MEAS_UCURVEu_CFG_INPUT (c - 12)) else none

/-- A user curve breaks R86. -/
def curveBad (n : State) (u : Nat) : Bool :=
  let knot := fun j => toSigned 32 (n.get (F.MEAS_UCURVEu_KNOTj_KNOT.offB (0x100 * 8 * u)) j)
  !decide (toSigned 14 (n.get F.MEAS_UCURVEu_CFG_D_MIN u) < toSigned 14 (n.get F.MEAS_UCURVEu_CFG_D_MAX u))
    || (List.range 32).any (fun j => decide (knot (j + 1) < knot j))

/-- The registers of a point's excitation fields. -/
def excRegs (p : Nat) : List Nat :=
  regOf F.EXC_CARRIER_SPn_MODE p :: (List.range 4).map (fun j => regOf F.EXC_ROUTEp_SRC (4 * p + j))

/-- Channel wiring and source naming of a point (R49). -/
def wiringOk (n : State) (p : Nat) : Bool :=
  let off := n.get F.EXC_CARRIER_SPn_MODE p == mOff
  let fn := fun q => n.get F.EXC_ROUTEp_FUNC q
  (List.range 2).all (fun j =>
    let a := fn (4 * p + 2 * j)
    let b := fn (4 * p + 2 * j + 1)
    if off then a == 0 && b == 0 else (a == 1 && b == 2) || (a == 2 && b == 1))
  && (List.range 4).all (fun j =>
    let q := 4 * p + j
    if fn q = 1 then decide (n.get F.EXC_ROUTEp_SRC q < 56) else n.get F.EXC_ROUTEp_SRC q == 63)

/-- The pins of a point that drive a source, with the source. -/
def drivePins (n : State) (p : Nat) : List (Nat × Nat) :=
  ((List.range 4).map (fun j => (4 * p + j, n.get F.EXC_ROUTEp_SRC (4 * p + j)))).filter
    (fun (x : Nat × Nat) => n.get F.EXC_ROUTEp_FUNC x.1 == 1)

/-- The excitation rules of a point (R49, R48, R84, R86); `load` leaves out the comparison with the values in force. The health of a
named source binds every excitation field of the point: a commit of any of them is judged by it. -/
def pointRules (o n : State) (load : Bool) (p : Nat) : List Rule :=
  let mode := n.get F.EXC_CARRIER_SPn_MODE p
  let matched := mode == mMatched || mode == mAlternating
  let ca := n.get F.MEAS_CHn_CFG_CURVE (2 * p)
  let cb := n.get F.MEAS_CHn_CFG_CURVE (2 * p + 1)
  let chRegs := [regOf F.MEAS_CHn_CFG_CURVE (2 * p), regOf F.MEAS_CHn_CFG_CURVE (2 * p + 1)]
  let dc := fun c => (decide (9 ≤ c) && decide (c ≤ 11)) || userInput n c == some 2
  [regRule (excRegs p) (wiringOk n p),
   regRule (regOf F.EXC_CARRIER_SPn_MODE p :: chRegs) (mode != mDc || (ca == 0 || dc ca)),
   regRule (regOf F.EXC_CARRIER_SPn_MODE p :: chRegs) (!matched || !dc ca),
   regRule chRegs (ca == cb),
   regRule chRegs (!decide (12 ≤ ca) || !curveBad n (ca - 12)),
   regRule [regOf F.EXC_CARRIER_SPn_MODE p]
     (!matched || (decide (4 ≤ n.get F.EXC_CARRIER_SPn_AMP p) && decide (n.get F.EXC_CARRIER_SPn_AMP p ≤ 32)))]
  ++ (drivePins n p).map (fun x => { regRule [regOf F.EXC_ROUTEp_SRC x.1, regOf F.EXC_SRCn_RETIRE x.2]
      (o.get F.EXC_SRCn_STATUS x.2 != 2 && !n.flag F.EXC_SRCn_RETIRE x.2) with binds := excRegs p })
  ++ (if load then [] else (drivePins n p).map (fun x => regRule [regOf F.EXC_ROUTEp_SRC x.1]
      (o.get F.EXC_ROUTEp_SRC x.1 == x.2 || o.get F.EXC_SRCn_STATUS x.2 != 1 || o.get F.EXC_SRCn_PIN x.2 / 4 == p)))

/-- No source is named by two pins (R49). -/
def uniqueRules (n : State) : List Rule :=
  let ds := (List.range 24).flatMap (drivePins n)
  ds.flatMap (fun x => (ds.filter (fun (y : Nat × Nat) => decide (x.1 < y.1) && x.2 == y.2)).map
    (fun y => regRule [regOf F.EXC_ROUTEp_SRC x.1, regOf F.EXC_ROUTEp_SRC y.1] false))

/-- A point mapped to a counting point is not in OFF mode (R49). -/
def countingRules (n : State) : List Rule :=
  (List.range 24).filterMap (fun c => (cpPoint n c).map (fun p =>
    regRule [regOf F.WEV_CPc_MAP_SP c, regOf F.EXC_CARRIER_SPn_MODE p] (n.get F.EXC_CARRIER_SPn_MODE p != mOff)))

/-- The thresholds of a channel (R116). -/
def thrRule (n : State) (c : Nat) : Rule :=
  let on := n.get F.WEV_CHn_THR_ON_THR c
  let off := n.get F.WEV_CHn_THR_OFF_THR c
  regRule [regOf F.WEV_CHn_THR_ON_THR c] (decide (0x400 ≤ off) && decide (on ≤ 0xC000) && decide (off + 0x200 ≤ on))

/-- A commit that changes SCALE or OFFS of a port (R205). -/
def rescaled (o n : State) (q : Nat) : Bool :=
  o.get F.DENC_PORTn_SCALE_SCALE q != n.get F.DENC_PORTn_SCALE_SCALE q
    || o.get40 F.DENC_PORTn_OFFS_L_OFFS q != n.get40 F.DENC_PORTn_OFFS_L_OFFS q

/-- STATIC positions in a port's frame forbid a change of its scale (R205). -/
def portPinned (n : State) (q : Nat) : Bool :=
  (List.range 8).any (fun k => n.flag F.SECT_VCPk_CFG_VALID k && n.get F.SECT_VCPk_CFG_PORT k == q)
    || (List.range 32).any (fun j => n.flag F.SECT_ALNj_CFG_VALID j && n.get F.SECT_n_CFG_PORT (n.get F.SECT_ALNj_CFG_MSEC j) == q)
    || (List.range 8).any (fun m => n.flag F.DENC_REFm_CFG_VALID m && n.get F.DENC_REFm_CFG_PORT m == q)

/-- The registers of a port's scale and offset. -/
def scaleRegs (q : Nat) : List Nat :=
  [regOf F.DENC_PORTn_SCALE_SCALE q, regOf F.DENC_PORTn_OFFS_L_OFFS q, regOf F.DENC_PORTn_OFFS_L_OFFS q + 4]

/-- The rules that bind SHADOW fields to one another and to the fields in force (R245, RULE). -/
def groupRules (o n : State) (load : Bool) : List Rule :=
  (List.range 24).flatMap (pointRules o n load) ++ uniqueRules n ++ countingRules n
    ++ (List.range 48).map (thrRule n)
    ++ (List.range 24).map (fun p => regRule [regOf F.WEV_SPn_GEOM_SPACING p]
        (decide (n.get F.WEV_SPn_GEOM_SPACING p < n.get F.WEV_SPn_GEOM_FIELD p)))
    ++ (List.range 24).map (fun p => regRule [regOf F.WEV_SPn_GEOM_SPACING p, regOf F.SPOS_SPn_CFG_SPD_SCALE p]
        (n.get F.SPOS_SPn_CFG_SPD_SCALE p == 100 * n.get F.WEV_SPn_GEOM_SPACING p))
    ++ [regRule [regOf F.LEDG_CFG_D_CAP, regOf F.LEDG_COST_INS_COST]
        (decide (n.get F.LEDG_COST_INS_COST + n.get F.LEDG_COST_SKIP_COST < n.get F.LEDG_CFG_D_CAP))]
    ++ (if load then [] else
      (List.range 56).map (fun m => regRule [regOf F.EXC_SRCn_RETIRE m]
          (!n.flag F.EXC_SRCn_RETIRE m || o.flag F.EXC_SRCn_RETIRE m || o.get F.EXC_SRCn_STATUS m != 1))
      ++ (List.range 4).map (fun q => regRule (scaleRegs q) (!rescaled o n q || !portPinned n q)))

/-- The rules that ask for fields to be written together (R118, R205, MISSING): `w` are the registers the set contains. -/
def missingRules (o n : State) (w : List Nat) : List Rule :=
  (List.range 24).map (fun p =>
    let thr := [regOf F.WEV_CHn_THR_ON_THR (2 * p), regOf F.WEV_CHn_THR_ON_THR (2 * p + 1)]
    let chg := (List.range 2).any (fun j => o.get F.MEAS_CHn_CFG_CURVE (2 * p + j) != n.get F.MEAS_CHn_CFG_CURVE (2 * p + j))
    ⟨false, true, false, regOf F.MEAS_CHn_CFG_CURVE (2 * p) :: regOf F.MEAS_CHn_CFG_CURVE (2 * p + 1) :: thr, [],
      !chg || thr.all (fun a => w.contains a), []⟩)
  ++ (List.range 4).map (fun q =>
    let cs := (List.range 16).filter (fun k => n.flag F.DENC_CMPk_CFG_EN k && !n.flag F.DENC_CMPk_CFG_SRC k
      && n.get F.DENC_CMPk_CFG_PORT k == q)
    let ps := cs.map (fun k => regOf F.DENC_CMPk_POS_L_POS k)
    ⟨false, true, false, scaleRegs q ++ ps, [], !rescaled o n q || ps.all (fun a => w.contains a), []⟩)

/-! ### Rules of the load over STATIC fields -/

/-- A counting point in use: a mapped physical one, or a valid virtual one. -/
def cpUsed (n : State) (c : Nat) : Bool :=
  if c < 24 then n.flag F.WEV_CPc_MAP_VALID c else n.flag F.SECT_VCPk_CFG_VALID (c - 24)

/-- Passage port `k` of quadrant `q`. -/
def ppValid (n : State) (q k : Nat) : Bool := n.flag (F.FAB_PPq_k_VALID.offB (0x40 * 8 * q)) k
def ppCp (n : State) (q k : Nat) : Nat := n.get (F.FAB_PPq_k_CP.offB (0x40 * 8 * q)) k
def ppReg (q k : Nat) : Nat := regOf (F.FAB_PPq_k_CP.offB (0x40 * 8 * q)) k

/-- Two windows of 40-bit positions overlap. -/
def winMeet (n : State) (i j : Nat) : Bool :=
  decide (n.getS40 F.SECT_ALNj_MIN_L_MIN i ≤ n.getS40 F.SECT_ALNj_MAX_L_MAX j)
    && decide (n.getS40 F.SECT_ALNj_MIN_L_MIN j ≤ n.getS40 F.SECT_ALNj_MAX_L_MAX i)

/-- The alignment rules (R177): what an entry states of itself alone holds of every entry (R237). An aligned boundary stands in its
section's count tile, which its rule names. -/
def alignRules (n : State) : List Rule :=
  let used := (List.range 32).filter (fun j => n.flag F.SECT_ALNj_CFG_VALID j)
  let cp := fun j => n.get F.SECT_ALNj_CFG_CP j
  let fs := fun j => n.get F.SECT_ALNj_CFG_FSEC j
  used.map (fun j => regRule [regOf F.SECT_ALNj_CFG_CP j]
      ((bnds n (fs j)).any (fun (b : Boundary) => b.cp == cp j && b.aligned)))
  ++ (List.range 32).map (fun j => regRule [regOf F.SECT_ALNj_MIN_L_MIN j, regOf F.SECT_ALNj_MAX_L_MAX j]
      (decide (n.getS40 F.SECT_ALNj_MIN_L_MIN j ≤ n.getS40 F.SECT_ALNj_MAX_L_MAX j)))
  ++ used.flatMap (fun i => (used.filter (fun j => decide (i < j) && cp i == cp j)).map (fun j =>
      regRule [regOf F.SECT_ALNj_CFG_CP i, regOf F.SECT_ALNj_CFG_CP j] (!winMeet n i j)))
  ++ (List.range 48).flatMap (fun m => ((bnds n m).filter (fun (b : Boundary) => b.aligned)).map (fun b =>
      { regRule [] (used.any (fun j => cp j == b.cp && fs j == m)) with
        tiles := if n.flag F.FAB_SECn_TILE_VALID m then [n.get F.FAB_SECn_TILE_TILE m] else [] }))

/-- The frame time of an encoder port in half ticks, with its recovery, fits the poll period (R189); the position lies inside the
frame. -/
def encRules (n : State) (q : Nat) : List Rule :=
  let len := n.get F.DENC_PORTn_FRAME_FRAME_LEN q
  [regRule [regOf F.DENC_PORTn_CFG_POLL q, regOf F.DENC_PORTn_FRAME_FRAME_LEN q]
     (decide ((len + 1) * n.get F.DENC_PORTn_CFG_CLK_DIV q + 120 * n.get F.DENC_PORTn_CFG_MONO q
       ≤ 120 * n.get F.DENC_PORTn_CFG_POLL q)),
   regRule [regOf F.DENC_PORTn_FRAME_FRAME_LEN q]
     (decide (n.get F.DENC_PORTn_FRAME_POS_START q + n.get F.DENC_PORTn_FRAME_POS_WIDTH q ≤ len))]

/-- The frame rules of points and the port rules of virtual points (R199, R200). -/
def frameRules (n : State) : List Rule :=
  (List.range 24).flatMap (fun c =>
    match cpPoint n c with
    | none => []
    | some p =>
      let fr := n.get F.SPOS_SPn_CFG_FRAME p
      if 4 ≤ fr then []
      else (secsOf n c).map (fun m => regRule [regOf F.SPOS_SPn_CFG_FRAME p, regOf F.SPOS_SECn_CFG_DRIVE_PORT m]
        (!n.flag F.SPOS_SECn_CFG_DRIVE_EN m || n.get F.SPOS_SECn_CFG_DRIVE_PORT m == fr)))
  ++ ((List.range 8).filter (fun k => n.flag F.SECT_VCPk_CFG_VALID k && n.get F.SECT_VCPk_CFG_MSEC k != 63)).map (fun k =>
      let m := n.get F.SECT_VCPk_CFG_MSEC k
      regRule [regOf F.SECT_VCPk_CFG_PORT k, regOf F.SPOS_SECn_CFG_DRIVE_PORT m]
        (n.flag F.SPOS_SECn_CFG_DRIVE_EN m && n.get F.SPOS_SECn_CFG_DRIVE_PORT m == n.get F.SECT_VCPk_CFG_PORT k))

/-- The counting-point map, stations and passage ports (R20, LEDG_SPn_CFG, R216). -/
def mapRules (n : State) : List Rule :=
  let used := (List.range 24).filter (cpUsed n)
  let sp := fun c => n.get F.WEV_CPc_MAP_SP c
  used.map (fun c => regRule [regOf F.WEV_CPc_MAP_SP c] (decide (sp c < 24)))
  ++ used.flatMap (fun c => (used.filter (fun d => decide (c < d) && sp c == sp d)).map (fun d =>
      regRule [regOf F.WEV_CPc_MAP_SP c, regOf F.WEV_CPc_MAP_SP d] false))
  ++ (List.range 24).map (fun p => regRule [regOf F.LEDG_SPn_CFG_STATION p]
      (!(n.flag F.LEDG_SPn_CFG_STATION p && n.get F.LEDG_SPn_CFG_HOST_SEC p == 63 && (pointCp n p).isNone)))
  ++ (List.range 4).flatMap (fun q => (List.range 16).flatMap (fun k =>
      if ppValid n q k then
        regRule [ppReg q k] (cpUsed n (ppCp n q k))
          :: ((List.range 16).filter (fun j => decide (k < j) && ppValid n q j && ppCp n q j == ppCp n q k)).map
            (fun j => regRule [ppReg q k, ppReg q j] false)
      else []))

/-- The filter groups of a controller (R312). -/
def groupOk (n : State) (x f : Nat) : Bool :=
  let t := n.get (F.CANx_FLTf_CFG_TARGET.can x) f
  let e := n.get (F.CANx_FLTf_CFG_GROUP_END.can x) f
  decide (t ≤ e) && (List.range (e + 1 - t)).all (fun i => !bufTx n x (t + i) && bufOwner n x (t + i) == bufOwner n x t)

/-- The CAN rules (R309, R310, R312), for every filter, whether or not it is in use (R237). -/
def canRules (n : State) (x : Nat) : List Rule :=
  regRule [regOf (F.CANx_NBT_NBRP.can x), regOf (F.CANx_DBT_DBRP.can x), regOf (F.CANx_TDC_TDCO.can x)] (timingOk n x && tdcOk n x)
    :: (List.range 32).map (fun f => regRule [regOf (F.CANx_FLTf_CFG_TARGET.can x) f] (groupOk n x f))

/-- A receive identifier as the connection table's rules see it: register, controllers, identifier, IDE, CAN FD format. -/
structure RxId where
  reg : Nat
  dup : Nat
  id : Nat
  ide : Bool
  fd : Bool
  deriving DecidableEq, Repr, Inhabited

/-- The receive identifiers: of STATIC connections, of valid whitelist entries, and the announce identifier, whether or not
announcements are enabled (R237). -/
def rxIds (n : State) : List RxId :=
  ((List.range 64).filter (fun c => n.get F.STE_CONNc_CFG_CLASS c == 1)).map (fun c =>
    ⟨regOf F.STE_CONNc_RXID_ID c, n.get F.STE_CONNc_CFG_DUP c, n.get F.STE_CONNc_RXID_ID c, n.flag F.STE_CONNc_RXID_IDE c,
      !n.flag F.STE_CONNc_CFG_FMT c⟩)
  ++ ((List.range 32).filter (fun w => n.flag F.STE_WLw_CFG_VALID w)).map (fun w =>
    ⟨regOf F.STE_WLw_RXID_ID w, n.get F.STE_WLw_CFG_DUP w, n.get F.STE_WLw_RXID_ID w, n.flag F.STE_WLw_RXID_IDE w, true⟩)
  ++ [⟨regOf F.STE_ANN_RXID_ID, n.get F.STE_CFG_ANN_DUP, n.get F.STE_ANN_RXID_ID, n.flag F.STE_ANN_RXID_IDE, true⟩]

/-- The controllers two DUP codes have in common. -/
def dupMeet (a b : Nat) : Bool := a == b || a == 2 || b == 2

/-- The first filter that matches an identifier, in the format of its frames, leads to an STE-owned group. -/
def leadsToSte (n : State) (x : Nat) (r : RxId) : Bool :=
  match firstFilter n x ⟨BitVec.ofNat 29 r.id, r.ide, false, r.fd, false, false, 15#4, []⟩ with
  | some f => bufOwner n x (n.get (F.CANx_FLTf_CFG_TARGET.can x) f) == ownSte
  | none => true

/-- The rules of the connection table (R332); what a field states of itself alone holds of every entry (R237). -/
def steRules (n : State) : List Rule :=
  let ids := indexed 0 (rxIds n)
  let st := (List.range 64).filter (fun c => n.get F.STE_CONNc_CFG_CLASS c == 1)
  let rng := fun (c : Nat) => ((n.get F.STE_CONNc_MAP_RX_FIRST c, n.get F.STE_CONNc_MAP_RX_COUNT c), regOf F.STE_CONNc_MAP_RX_FIRST c)
  let wrng := fun (w : Nat) => ((n.get F.STE_WLw_MAP_RX_FIRST w, n.get F.STE_WLw_MAP_RX_COUNT w), regOf F.STE_WLw_MAP_RX_FIRST w)
  let rs := st.map rng
  let ws := (List.range 32).map wrng
  let irs := indexed 0 rs
  ids.flatMap (fun a => (ids.filter (fun (b : Nat × RxId) => decide (a.1 < b.1) && dupMeet a.2.dup b.2.dup && a.2.id == b.2.id
      && a.2.ide == b.2.ide)).map (fun b => regRule [a.2.reg, b.2.reg] false))
  ++ irs.flatMap (fun a => (irs.filter (fun (b : Nat × (Nat × Nat) × Nat) => decide (a.1 < b.1) && rxMeet a.2.1 b.2.1)).map
      (fun b => regRule [a.2.2, b.2.2] false))
  ++ rs.flatMap (fun a => (ws.filter (fun (b : (Nat × Nat) × Nat) => rxMeet a.1 b.1)).map (fun b => regRule [a.2, b.2] false))
  ++ ((List.range 64).map rng ++ (List.range 32).map wrng).map (fun a => regRule [a.2] (decide (a.1.1 + a.1.2 ≤ 64)))
  ++ (List.range 64).map (fun c => regRule [regOf F.STE_CONNc_CFG_FMT c, regOf F.STE_CONNc_MAP_RX_COUNT c]
      (!n.flag F.STE_CONNc_CFG_FMT c || decide (n.get F.STE_CONNc_MAP_RX_COUNT c ≤ 32)))
  ++ (rxIds n).flatMap (fun r => (List.range 2).map (fun x => regRule [r.reg] (!dupMeet r.dup x || leadsToSte n x r)))

/-- Every rule of the load over registers, beside the ranges and the commit groups' rules. -/
def staticRules (n : State) : List Rule :=
  mapRules n ++ (List.range 4).map (fun u => regRule
      (regOf F.MEAS_UCURVEu_CFG_D_MIN u :: (List.range 33).map (fun j => regOf (F.MEAS_UCURVEu_KNOTj_KNOT.offB (0x100 * 8 * u)) j))
      (!curveBad n u))
    ++ alignRules n ++ (List.range 4).flatMap (encRules n) ++ frameRules n ++ canRules n 0 ++ canRules n 1 ++ steRules n

end Sys2Proof.Machine
end

