-- ==== Sys2Proof/Machine/Tiles.lean ====
section
/-!
DEFINITION. The rules of the section fabric that a bit-stream must meet (R165, R207, R209, R210, R213 to R217, R221, R233)
and the fabric depth (R220). All are judged on a state that holds the staged tiles and registers.
-/

namespace Sys2Proof.Machine

/-! ### Selectors in use -/

/-- A truth table depends on input `i`. -/
def ttDepends (tt i : Nat) : Bool :=
  (List.range 64).any (fun k => !bitAt k i && bitAt tt k != bitAt tt (k + 2 ^ i))

/-- The selectors that element `k` of a LOGIC tile depends on. -/
def leSels (s : State) (t k : Nat) : List Nat :=
  ((List.range 6).filter (ttDepends (cfgWord s t (9 + 2 * k)))).map (fun i => bitsOf (cfgWord s t (10 + 2 * k)) (5 * i) 5)

/-- The mode of a ROUTE channel: 0 LOCAL, 1 RING_OUT, 2 RING_IN (R233). -/
def routeMode (s : State) (t k : Nat) : Nat := bitsOf (cfgWord s t (9 + k)) 0 2
def routeDir (s : State) (t k : Nat) : Bool := bitAt (cfgWord s t (9 + k)) 2
def peerTile (s : State) (t k : Nat) : Nat := bitsOf (cfgWord s t (9 + k)) 16 11
def peerCh (s : State) (t k : Nat) : Nat := bitsOf (cfgWord s t (9 + k)) 27 4

/-- The selector indices in use in a tile. -/
def selsInUse (s : State) (t : Nat) : List Nat :=
  match tileType s t with
  | 2 => (List.range 16).flatMap (leSels s t)
  | 3 => (List.range 4).map (fun k => bitsOf (cfgWord s t (9 + k)) 0 5)
  | 4 => (List.range 16).filter (fun k => routeMode s t k < 2)
  | _ => []

/-- A selector names a net that exists (R209); a net of an UNUSED tile exists and reads 0 (R208). -/
def netOk (s : State) (n : Nat) : Bool :=
  if netReserved n then false
  else if n < 0x8000 then
    match tileType s (n / 16) with
    | 1 => decide (n % 16 < 6)
    | 3 => decide (n % 16 < 8)
    | _ => true
  else true

/-- A selector of a tile may name a net: its own cluster, or its own quadrant for a LOCAL channel of a ROUTE tile (R213). -/
def selReach (s : State) (t k n : Nat) : Bool :=
  if 0x8000 ≤ n then true
  else if tileType s t = 4 ∧ routeMode s t k = 0 then n / 16 / 512 == t / 512
  else n / 16 / 16 == t / 16

/-! ### Form of a tile (R207, R214, R233) -/

/-- The bits of function word `w` that the type of a tile defines (R233). -/
def wordMask (ty w : Nat) : Nat :=
  match ty with
  | 1 => if w = 9 then 0x3F0000FF3F else if w = 10 then 2 ^ 64 - 1 else 0
  | 2 => if 9 ≤ w ∧ w < 41 then (if w % 2 = 1 then 2 ^ 64 - 1 else 2 ^ 30 - 1) else 0
  | 3 => if 9 ≤ w ∧ w < 13 then 0xFFFFFF071F else 0
  | 4 => if 9 ≤ w ∧ w < 25 then 0x7FFF0007 else 0
  | _ => 0

/-- A tile has no reserved bit at 1 and its own index in its header; a wholly zero image is UNUSED (R232). -/
def tileForm (s : State) (t : Nat) : Bool :=
  let h := cfgWord s t 0
  let ws := (List.range 256).map (cfgWord s t)
  ws.all (fun w => w == 0)
    || (h &&& 0x7FF07 == h && decide (h % 8 < 5) && bitsOf h 8 11 == t
      && (List.range 247).all (fun i => nth ws (9 + i) &&& wordMask (h % 8) (9 + i) == nth ws (9 + i)))

/-- A FILTER channel has a function and a time (R214). -/
def filterOk (s : State) (t k : Nat) : Bool :=
  let w := cfgWord s t (9 + k)
  decide (bitsOf w 8 3 < 5) && bitsOf w 16 24 != 0

/-- A ring channel's peer: a ROUTE tile of another quadrant whose channel, of the other ring mode, names it back (R233). -/
def ringOk (s : State) (t k : Nat) : Bool :=
  let pt := peerTile s t k
  let pc := peerCh s t k
  match routeMode s t k with
  | 0 => true
  | 1 => tileType s pt == 4 && routeMode s pt pc == 2 && peerTile s pt pc == t && peerCh s pt pc == k && pt / 512 != t / 512
  | 2 => true
  | _ => false

/-! ### Paths (R214, R220) -/

/-- The nets that pin `p` of a tile follows, without the ring. -/
def pinReads (s : State) (t p : Nat) : List Nat :=
  match tileType s t with
  | 2 => (leSels s t p).map (tileSel s t)
  | 3 => if p < 8 then [tileSel s t (bitsOf (cfgWord s t (9 + p % 4)) 0 5)] else []
  | 4 => if routeMode s t p = 0 then [tileSel s t p] else []
  | _ => []

/-- The net that arrives at a RING_IN channel, with the ring steps in the direction of its RING_OUT. -/
def ringReads (s : State) (t p : Nat) : Option (Nat × Nat) :=
  let pt := peerTile s t p
  let pc := peerCh s t p
  if tileType s t = 4 ∧ routeMode s t p = 2 ∧ tileType s pt = 4 ∧ routeMode s pt pc = 1 ∧ peerTile s pt pc = t ∧ peerCh s pt pc = p then
    let a := pt / 512
    let b := t / 512
    some (tileSel s pt pc, if routeDir s pt pc then (a + 4 - b) % 4 else (b + 4 - a) % 4)
  else none

/-- The nets from which a net follows, through any path: a search with the nets still to visit and those seen. -/
def reachFrom : Nat → State → List Nat → List Nat → List Nat
  | 0, _, _, seen => seen
  | _ + 1, _, [], seen => seen
  | fuel + 1, s, n :: todo, seen =>
    if seen.contains n then reachFrom fuel s todo seen
    else if 0x8000 ≤ n then reachFrom fuel s todo (n :: seen)
    else
      let more := pinReads s (n / 16) (n % 16) ++ ((ringReads s (n / 16) (n % 16)).map (·.1)).toList
      reachFrom fuel s (more ++ todo) (n :: seen)

/-- The nets of the demands and of the telegram bits. -/
def outNets (s : State) : List Nat := (List.range 14).map (selNet s F.FAB_OUTSELk_NET_LO F.FAB_OUTSELk_NET_HI)
def txNets (s : State) : List Nat := (List.range 64).map (selNet s F.FAB_TXSELk_NET_LO F.FAB_TXSELk_NET_HI)
def hstNets (s : State) : List Nat := (List.range 32).map (selNet s F.FAB_HSTSELk_NET_LO F.FAB_HSTSELk_NET_HI)

/-- Outputs of FALL_DELAY channels that reach a demand or a telegram bit (R214): the tiles that hold them. -/
def fallDelayBad (s : State) : List Nat :=
  let seen := reachFrom 4000000 s (outNets s ++ txNets s) []
  (usedTiles s).filter (fun t => tileType s t == 3 && (List.range 4).any (fun k =>
    bitsOf (cfgWord s t (9 + k)) 8 3 == 3 && seen.contains (16 * t + k)))

/-- Ring steps between two quadrants, the shorter way. -/
def quadDist (a b : Nat) : Nat := min ((a + 4 - b) % 4) ((b + 4 - a) % 4)

/-- The quadrants that have a passage port for a counting point. -/
def portQuads (s : State) (c : Nat) : List Nat :=
  (List.range 4).filter (fun q => (List.range 16).any (fun k => ppValid s q k && ppCp s q k == c))

/-- Ring steps from the nearest passage port of a counting point to a quadrant (R216); none where no port carries it. -/
def portSteps (s : State) (c q : Nat) : Option Nat :=
  (portQuads s c).foldl (fun (acc : Option Nat) a => match acc with
    | none => some (quadDist a q)
    | some d => some (min d (quadDist a q))) none

/-- The cost of a tile by its type in fabric clocks (R220). -/
def stageCost (ty : Nat) : Nat := if ty = 1 then 2 else 1

/-- The larger of two path figures, taken apart for clocks and for ring steps. -/
def figMax (a b : Option (Nat × Nat)) : Option (Nat × Nat) :=
  match a, b with
  | none, y => y
  | x, none => x
  | some x, some y => some (max x.1 y.1, max x.2 y.2)

/-- Clocks and ring steps of the longest path that ends at a net: each pin at most once, each tile counted at most once;
none where no input reaches it. A ring channel's tiles cost only the ring's steps. -/
def pathTo : Nat → State → List Nat → List Nat → Nat → Option (Nat × Nat)
  | 0, _, _, _, _ => none
  | fuel + 1, s, pins, tiles, n =>
    if 0x8000 ≤ n then (if netReserved n || n == 0xFFFE || n == 0xFFFF then none else some (1, 0))
    else
      let t := n / 16
      let ty := tileType s t
      if ty = 0 ∨ pins.contains n then none
      else if ty = 1 then
        ((bnds s (bitsOf (cfgWord s t 9) 32 6)).map (fun b =>
          (portSteps s b.cp (t / 512)).map (fun d => (3 + 4 * d, d)))).foldl figMax none
      else
        match ringReads s t (n % 16) with
        | some (m, d) => (pathTo fuel s (n :: pins) tiles m).map (fun x => (x.1 + 4 * d, x.2 + d))
        | none =>
          let c := if tiles.contains t then 0 else stageCost ty
          (((pinReads s t (n % 16)).map (pathTo fuel s (n :: pins) (t :: tiles))).foldl figMax none).map
            (fun x => (x.1 + c, x.2))

/-- DEPTH and RING_STEPS: the largest over every output port (R217, R220). -/
def fabDepth (s : State) : Nat × Nat :=
  let outs := (outNets s ++ txNets s ++ hstNets s).eraseDups
  match (outs.map (pathTo 40000 s [] [])).foldl figMax none with
  | some x => (x.1 + 1, x.2)
  | none => (0, 0)

/-! ### The configuration's size (R221) -/

/-- The counting points in use. -/
def cpsUsed (s : State) : List Nat := (List.range 32).filter (cpUsed s)

/-- The quadrants that hold a used tile. -/
def quadsUsed (s : State) : List Nat := (List.range 4).filter (fun q => (usedTiles s).any (fun t => t / 512 == q))

/-- Small (R221). -/
def isSmall (s : State) : Bool := decide ((cpsUsed s).length ≤ 16) && decide ((usedTiles s).length ≤ 512)

/-! ### The rules -/

/-- The rules of one section's boundary list (R165) and of its sweep (SECT_n_CFG), which lie in its count tile. -/
def sectionOk (s : State) (n : Nat) : Bool :=
  let bs := bnds s n
  let nb := s.get F.SECT_n_CFG_NBND n
  bs.length == (bs.map (·.cp)).eraseDups.length
    && bs.all (fun b => cpUsed s b.cp)
    && decide (nb ≤ 8) && nb == bs.length && (List.range 8).all (fun k => !(bnd s n k).valid || decide (k < nb))
    && (nb == 0 || s.get F.SECT_n_CFG_SWEEP_MIN n != 0)

/-- The count tile of a section, where FAB_SECn_TILE names one. -/
def secTile (s : State) (n : Nat) : Option Nat :=
  if s.flag F.FAB_SECn_TILE_VALID n then some (s.get F.FAB_SECn_TILE_TILE n) else none

/-- The rules over tiles, in the order of the rules that state them; `fr` are the tiles that frames carry. -/
def tileRules (s : State) (fr : List Nat) : List Rule :=
  let ts := usedTiles s
  let cnt := ts.filter (fun t => tileType s t == 1)
  let secOf := fun t => bitsOf (cfgWord s t 9) 32 6
  fr.map (fun t => tileRule [t] (tileForm s t))
  ++ cnt.map (fun t => tileRule [t] (sectionOk s (secOf t)))
  ++ ((List.range 32).filter (fun c => decide (4 < (secsOf s c).length))).map (fun c =>
      tileRule ((secsOf s c).filterMap (secTile s)) false)
  ++ ts.flatMap (fun t => (selsInUse s t).map (fun k => tileRule [t] (netOk s (tileSel s t k))))
  ++ cnt.map (fun t => tileRule [t] (decide (secOf t < 48) && secTile s (secOf t) == some t))
  ++ ts.flatMap (fun t => (selsInUse s t).map (fun k => tileRule [t] (selReach s t k (tileSel s t k))))
  ++ (ts.filter (fun t => tileType s t == 3)).flatMap (fun t => (List.range 4).map (fun k => tileRule [t] (filterOk s t k)))
  ++ (fallDelayBad s).map (fun t => tileRule [t] false)
  ++ cnt.flatMap (fun t => (bnds s (secOf t)).map (fun b => tileRule [t] (portCarries s b.cp)))
  ++ (ts.filter (fun t => tileType s t == 4)).flatMap (fun t => (List.range 16).map (fun k =>
      tileRule (if routeMode s t k = 1 then [t, peerTile s t k] else [t]) (ringOk s t k)))
  ++ (if isSmall s then
      tileRule ts (decide ((quadsUsed s).length ≤ 1))
        :: (quadsUsed s).flatMap (fun q => (cpsUsed s).map (fun c => tileRule [] ((portQuads s c).contains q)
          [regOf (if c < 24 then F.WEV_CPc_MAP_VALID else F.SECT_VCPk_CFG_VALID) (if c < 24 then c else c - 24)]))
     else [])

/-- A selector register's rules: its nets exist (R209). -/
def selRules (s : State) (lo hi : Fld) (n : Nat) : List Rule :=
  (List.range n).map (fun k => regRule [regOf lo (k / 2)] (netOk s (selNet s lo hi k)))

/-- The rules over the fabric's registers (R209, R210, R217). -/
def fabRegRules (s : State) : List Rule :=
  selRules s F.FAB_OUTSELk_NET_LO F.FAB_OUTSELk_NET_HI 14 ++ selRules s F.FAB_TXSELk_NET_LO F.FAB_TXSELk_NET_HI 64
  ++ selRules s F.FAB_HSTSELk_NET_LO F.FAB_HSTSELk_NET_HI 32
  ++ (List.range 14).map (fun k => regRule [regOf F.FAB_OUTSELk_NET_LO (k / 2)]
      (selNet s F.FAB_OUTSELk_NET_LO F.FAB_OUTSELk_NET_HI k != 0xFFFF))
  ++ ((List.range 48).filter (fun n => secUsed s n || s.flag F.FAB_SECn_TILE_VALID n)).map (fun n =>
      regRule [regOf F.FAB_SECn_TILE_TILE n] (match secTile s n with
        | none => false
        | some t => tileType s t == 1 && bitsOf (cfgWord s t 9) 32 6 == n))

end Sys2Proof.Machine
end

