-- ==== Sys2Proof/Machine/RegMap.lean ====
section
/-!
DEFINITION. The register map by address (R389): which register an address names, its fields, and the word they make.
-/

namespace Sys2Proof.Machine

/-- A displacement is that of a register among its indices. -/
def inDims : Nat → List (Nat × Nat) → Bool
  | d, [] => d == 0
  | d, (st, n) :: rest => decide (d / st < n) && inDims (d % st) rest

/-- The block number of an address, with CAN1's addresses taken to CAN0's (R389). -/
def canFold (a : Nat) : Nat := if 0xC4000 ≤ a ∧ a < 0xC8000 then a - 0x4000 else a

/-- The register at an address: its fields displaced to that address; none where no register lies there. -/
def regAt (a : Nat) : Option RegDesc :=
  let b := canFold a
  let b := if 0xC8000 ≤ b ∧ b < 0xD0000 then 0xFFFFFF else b
  ((regsOfBlock (b / 0x10000)).find? (fun d => decide (d.addr ≤ b) && inDims (b - d.addr) d.dims)).map (fun d =>
    ⟨a, [], d.perPort, d.fields.map (fun x => ({ bit := x.1.bit + 8 * (a - d.addr), stride := 0, width := x.1.width }, x.2))⟩)

/-- A field as the port sees it: the port's own copy of a register held separately (R375). -/
def portFld (d : RegDesc) (p : Nat) (f : Fld) : Fld := if d.perPort then f.port p else f

/-- The word of a register's stored fields. -/
def storedWord (s : State) (p : Nat) (d : RegDesc) : Nat :=
  d.fields.foldl (fun acc x => acc + s.get (portFld d p x.1) * 2 ^ (x.1.bit - 8 * d.addr)) 0

/-- The bits of a word that belong to a field of a register. -/
def fldOf (d : RegDesc) (f : Fld) (v : Nat) : Nat := bitsOf v (f.bit - 8 * d.addr) f.width

/-- The bits of a register's fields that satisfy a test of their class. -/
def clsMask (d : RegDesc) (p : Cls → Bool) : Nat :=
  d.fields.foldl (fun acc x => if p x.2 then acc + (2 ^ x.1.width - 1) * 2 ^ (x.1.bit - 8 * d.addr) else acc) 0

/-- The fields of given classes written from a word. -/
def putFields (s : State) (p : Nat) (d : RegDesc) (sel : Cls → Bool) (v : Nat) : State :=
  d.fields.foldl (fun s x => if sel x.2 then s.set (portFld d p x.1) 0 (fldOf d x.1 v) else s) s

/-- A register holds a field of a class. -/
def hasCls (d : RegDesc) (c : Cls) : Bool := d.fields.any (fun x => x.2 == c)

/-- The fields of a class that a word changes. -/
def changes (s : State) (d : RegDesc) (c : Cls) (v : Nat) : Bool :=
  d.fields.any (fun x => x.2 == c && s.get x.1 != fldOf d x.1 v)

/-- Registers whose home is the count tile (R210, R234). -/
def tileHomed (a : Nat) : Bool :=
  (decide (0x60300 ≤ a) && decide (a < 0x60300 + 4 * 48)) || (decide (0x60400 ≤ a) && decide (a < 0x60400 + 8 * 48))

/-- The 40-bit pairs of R9: address and indices of each NAME_L, NAME_H lying four bytes on. -/
def pairTable : List (Nat × List (Nat × Nat)) := [
  (0x20010, []), (0x21000, [(8, 48)]), (0x5004C, []), (0x60804, [(0x20, 8)]), (0x6080C, [(0x20, 8)]),
  (0x60814, [(0x20, 8)]), (0x60A04, [(0x20, 32)]), (0x60A0C, [(0x20, 32)]), (0x7002C, []), (0x70034, []),
  (0x70200, [(8, 24)]), (0x70300, [(8, 24)]), (0x80110, [(0x40, 4)]), (0x80120, [(0x40, 4)]), (0x80128, [(0x40, 4)]),
  (0x80130, [(0x40, 4)]), (0x80204, [(0x20, 8)]), (0x8020C, [(0x20, 8)]), (0x80408, [(0x20, 16)]), (0x80414, [(0x20, 16)]),
  (0x100020, []), (0xC2400, [(8, 64)]), (0xC6400, [(8, 64)]), (0xF0034, []), (0x130014, []), (0x130028, [])]

/-- The address is that of a NAME_L. -/
def pairLow (a : Nat) : Bool := pairTable.any (fun x => decide (x.1 ≤ a) && inDims (a - x.1) x.2)

/-- The address is that of a NAME_H. -/
def pairHigh (a : Nat) : Bool := decide (4 ≤ a) && pairLow (a - 4)

end Sys2Proof.Machine
end

