-- ==== Sys2Proof/Machine/Supervision.lean ====
section
/-!
DEFINITION. Sensor supervision (04_sensor_supervision.md): monitor episodes (R94 to R98), the tone check and its verdicts
(R99 to R109), release from FAULTY (R113) and reference impedances (R115).
-/

namespace Sys2Proof.Machine

/-! ### Monitor -/

/-- The reason a class of episode leads to (R96). -/
def monReason : MonClass → Nat
  | .srcLost => 2 | .lineOpen => 1 | .loopOpen => 5 | .loopShort => 6 | .other => 3

/-- The monitor flags a channel whose deviation began at a tick (R94, R98). -/
def monitorFlag (s : State) (c onset : Nat) (k : MonClass) : State :=
  if (s.chan c).mon.isSome ∨ !s.counting ∨ excMode s (c / 2) = mOff then s else monStart s c onset (monReason k)

/-- A flagged episode ends at its last tick (R96): the tags of the samples that it overlaps are fixed, and unless it has made the channel
FAULTY it is counted and journaled. -/
def monitorEnd (s : State) (c last : Nat) : State :=
  let ch := s.chan c
  match ch.mon with
  | none => s
  | some (t, r) =>
    let s := tagsTo s c (last / 1250 + 1) s.now
    let faulted := (s.chan c).monFaulted
    let s := s.updChan c (fun x => { x with mon := none, inval := (t, last, r) :: x.inval })
    if faulted then s
    else let s := s.bump F.SUP_CHn_FAULT_FLAG_CNT c; s.countNote 0x03 0xFF c (supFaultWord s c) (s.get F.SUP_CHn_FAULT_FLAG_CNT c)

/-- A deviation of 120 to 599 ticks (R97). -/
def glitch (s : State) (c : Nat) : State := if s.counting then s.bump F.SUP_CHn_FAULT_GLITCH_CNT c else s

/-! ### Tone visits -/

/-- Results of a visit (SUP_CHn_VISIT). -/
def vPass : Nat := 1
def vRestricted : Nat := 2
def vSkipped : Nat := 3
def vDiscarded : Nat := 4
def vFail : Nat := 5

/-- The first row of R103 that applies to a measured impedance, as its reason code; none for PASS. `full` lets rows 4 and
5 apply. -/
def toneVerdict (s : State) (c mag ph : Nat) (limit : Bool) (cross : Option (Fin 48 × BitVec 16)) (full : Bool) : Option Nat :=
  let rm := s.get F.SUP_CHn_ZREF_MAG c
  let d := toSigned 16 (ph + 65536 - s.get F.SUP_CHn_ZREF_PHASE c)
  if limit || decide (3 * rm < mag) then some 7
  else if 10 * mag < 3 * rm then some 8
  else if (match cross with | some x => decide (5 * s.get F.SUP_TONE_CFG_XT_LIM < x.2.toNat) | none => false) then some 11
  else if !full then none
  else if s.get F.SUP_TONE_CFG_DEV_LIM * rm < 100 * ((mag : Int) - rm).natAbs
      ∨ s.get F.SUP_TONE_CFG_PH_LIM * 65536 < 360 * d.natAbs then
    (if mag < rm ∧ d < 0 then some 9 else some 10)
  else none

/-- AGE past AGE_LIM sets STALE (R106). -/
def staleCheck (s : State) (c : Nat) : State :=
  let lim := s.get F.SUP_TONE_CFG_AGE_LIM * 1200
  if lim ≠ 0 ∧ lim < s.get F.SUP_CHn_VISIT_AGE c ∧ !s.flag F.SUP_CHn_VISIT_STALE c then
    let s := (s.raise F.SUP_CHn_VISIT_STALE c).raise F.SUP_STATUS_STALE_ANY
    s.note 0 0x03 13 c (s.get F.SUP_CHn_VISIT_RESULT c + 8 + 256 * s.get F.SUP_CHn_VISIT_AGE c)
  else s

/-- ZREF_BUSY follows the captures that run. -/
def syncZrefBusy (s : State) : State := s.setFlag F.SUP_STATUS_ZREF_BUSY 0 (s.chans.any (fun c => c.zCap.isSome))

/-- A completed capture of a reference impedance (R115): the mean of the eight impedances as vectors. -/
def zrefDone (s : State) (c : Nat) : State :=
  match (s.chan c).zCap with
  | some (_, 8, re, im) =>
    let mag := ratRoot (((re * re + im * im : Int) : Rat) / ((8 * 2 ^ 62 * (8 * 2 ^ 62) : Nat) : Rat))
    let s := (s.set F.SUP_CHn_ZREF_MAG c (fitU 16 (mag : Nat))).set F.SUP_CHn_ZREF_PHASE c (Config.phaseOf re im % 65536)
    syncZrefBusy (s.updChan c (fun x => { x with zCap := none }))
  | _ => s

/-- A capture not completed within 16 rotations (R115). -/
def zrefLate (s : State) (c : Nat) : State :=
  match (s.chan c).zCap with
  | some (k0, n, _, _) =>
    if n ≠ 8 ∧ k0 + 800 ≤ s.cycle then
      (syncZrefBusy (s.updChan c (fun x => { x with zCap := none }))).raise F.SUP_STATUS_ZREF_ERR
    else s
  | none => s

/-- The result of a visit written with what follows from it: AGE, the count of passes, the sweep (R106, R113, R413). -/
def visitResult (s : State) (c res : Nat) : State :=
  let full := res = vPass ∨ res = vFail
  let s := s.set F.SUP_CHn_VISIT_RESULT c res
  let s := if full then (s.set F.SUP_CHn_VISIT_AGE c 0).lower F.SUP_CHn_VISIT_STALE c
    else staleCheck (s.bump F.SUP_CHn_VISIT_AGE c) c
  let s := if res = vPass then
      (if s.flag F.SUP_CHn_FAULT_CLR_ARMED c then s.set F.SUP_CHn_FAULT_PASS_CNT c (min 4 (s.get F.SUP_CHn_FAULT_PASS_CNT c + 1)) else s)
    else clearLapse s c
  if full ∨ res = vRestricted then (s.putBoot { s.boot with swept := c :: s.boot.swept }) else s

/-- A closed interval of ticks meets the samples of the running cycle's integration window (R101, R105): ticks 6,000 to 53,999 lie
in samples that cover ticks 5,000 to 54,999. -/
def meetsWindow (s : State) (a b : Nat) : Bool := overlaps a b (s.cycleStart + 5000) (s.cycleStart + 54999)

/-- Some sample of the window carries INVALID or CLAMP (R105, case 2). -/
def windowBad (s : State) (c : Nat) : Bool :=
  let ch := s.chan c
  let pin := fun (x : Pin) =>
    (match x.from_ with | some t => meetsWindow s t x.last | none => false) || x.ivs.any (fun v => meetsWindow s v.1 v.2)
  ch.winBad || ch.ovr.any (fun k => meetsWindow s (1250 * k) (1250 * k + 1249)) || (match ch.mon with | some m => decide (m.1 ≤ s.cycleStart + 54999) | none => false)
    || ch.inval.any (fun v => meetsWindow s v.1 v.2.1) || pin (s.pin (2 * c)) || pin (s.pin (2 * c + 1))

/-- The channel was BLIND at a tick of the window (R105, case 1); a FAULTY channel counts as BLIND where its samples are tagged
SETTLING. -/
def windowBlind (s : State) (c : Nat) : Bool :=
  let pt := s.point (c / 2)
  let a := s.cycleStart + 6000
  let b := s.cycleStart + 53999
  if (s.chan c).faulty then
    pt.settle.any (fun w => overlaps (1250 * w.1) (1250 * w.2 + 1249) a b)
      || (match pt.noCarrier with | some t => decide (t ≤ b) | none => false)
  else decide (a < pt.blindEnd) || (pt.blind && decide (pt.blindSince ≤ b))

/-- An interval that ended at a tick can still overlap a sample to come, or one of the running window. -/
def fresh (s : State) (last : Nat) : Bool := decide (s.now ≤ last + 2 * cycleTicks)

/-- A new cycle, a new window; flagged and clamped intervals that are past are let go. -/
def windowsFresh (s : State) : State :=
  let s := forN 48 s (fun s c => s.updChan c (fun x => { x with winBad := false, winOn := false, inval := x.inval.filter (fun v => fresh s v.2.1) }))
  forN 96 s (fun s p => s.updPin p (fun x => { x with ivs := x.ivs.filter (fun v => fresh s v.2) }))

/-- The visit of the running cycle's slot ends with a measured impedance (R100 to R105, R107). -/
def toneVisit (s : State) (c mag ph : Nat) (limit : Bool) (cross : Option (Fin 48 × BitVec 16)) : State :=
  let t := s.cycleStart + 54600
  if s.cycle % 50 ≠ c ∨ !s.counting ∨ s.tone.visited = s.cycle + 1 then s
  else
    let s := (tagsPass s t).advanceTo t
    let s := s.putTone { s.tone with visited := s.cycle + 1 }
    let ch := s.chan c
    let mode := excMode s (c / 2)
    if mode = mDc ∨ mode = mOff then visitResult s c vSkipped
    else if windowBlind s c then visitResult s c vSkipped
    else if windowBad s c then visitResult s c vDiscarded
    else
      let busy := ch.winOn || ch.on
      let s := (s.set F.SUP_CHn_IMP_MAG c mag).set F.SUP_CHn_IMP_PHASE c ph
      let v := toneVerdict s c mag ph limit cross (!busy && ch.zCap.isNone)
      let s := if !busy && (v.isNone || !ch.faulty) then
          s.updChan c (fun x => { x with zCap := x.zCap.map (fun z =>
            if z.2.1 < 8 then (z.1, z.2.1 + 1, z.2.2.1 + mag * cosQ ph, z.2.2.2 + mag * sinQ ph) else z) })
        else s
      let s := zrefDone s c
      match v with
      | none => visitResult s c (if busy then vRestricted else vPass)
      | some r =>
        let s := makeFaulty (visitResult s c vFail) c r
        match cross with
        | some x => if r = 11 ∧ x.1.val ≠ c then makeFaulty s x.1.val 11 else s
        | none => s

/-- The self-check of the tone path in slot 48 or 49 (R109): impedance and phase of the reference load in slot 48, residual
voltage in units of 0.01 % of the slot-48 voltage in slot 49. -/
def toneSelf (s : State) (mag ph residual : Nat) : State :=
  let slot := s.cycle % 50
  if slot < 48 ∨ !s.counting ∨ s.tone.visited = s.cycle + 1 then s
  else
    let s := (s.advanceTo (s.cycleStart + 54600)).putTone { s.tone with visited := s.cycle + 1 }
    let ok := if slot = 48 then decide (1960 ≤ mag) && decide (mag ≤ 2040) && decide (360 * (toSigned 16 ph).natAbs ≤ 65536)
      else decide (residual < 10)
    let s := if slot = 48 then (s.set F.SUP_SELF_MAG 0 mag).setFlag F.SUP_SELF_PASS48 0 ok else s.setFlag F.SUP_SELF_PASS49 0 ok
    let s := s.putBoot (if slot = 48 then { s.boot with sweepOk48 := ok } else { s.boot with sweepOk49 := ok })
    let s := if slot = 48 then (s.putTone { s.tone with fails := b2n s.tone.fail48, fail48 := false }) else s
    if ok then s
    else
      let s := ((s.raise F.SUP_STATUS_TONE_ERR).firstErr F.URED_FIRST_TONE 3000000).note 0 0x03 8 0xFF 0
      let s := s.putTone { s.tone with fail48 := true }
      if s.tone.fails != 0 && s.dev != .comm then safeLater s 7 else s

/-! ### Release from FAULTY, reference captures -/

/-- CLEAR of SUP_CMD for one channel, evaluated at a boundary (R113). -/
def supArm (s : State) (c : Nat) : State :=
  if (s.chan c).faulty ∧ s.dev ≠ .safe then
    (s.raise F.SUP_CHn_FAULT_CLR_ARMED c).set F.SUP_CHn_FAULT_PASS_CNT c 0
  else s

/-- A channel leaves FAULTY at a boundary (R113): after the fourth PASS its reason and counters clear, and it becomes
READY once its last sample lies below its off-threshold. A CLEAR given while it waited for that ends with it (DEDUCED, log entry 28); its
count of INVALID samples runs on, since R56 alone clears it. Where its point is BLIND the counting point thereby enters BLIND, from a
state that was not READY (R29, R30). -/
def faultyRelease (s : State) (c : Nat) : State :=
  if !(s.chan c).faulty then s
  else
    let s := if s.flag F.SUP_CHn_FAULT_CLR_ARMED c ∧ s.get F.SUP_CHn_FAULT_PASS_CNT c = 4 then
        ((s.set F.SUP_CHn_FAULT_REASON c 0).lower F.SUP_CHn_FAULT_CLR_ARMED c).set F.SUP_CHn_FAULT_PASS_CNT c 0
      else s
    let ch := s.chan c
    if s.get F.SUP_CHn_FAULT_REASON c = 0 ∧ ch.lastTag = 0 ∧ ch.lastL < offThr s c then
      let s := s.updChan c (fun x => { x with faulty := false, on := false })
      let s := (s.lower F.SUP_CHn_FAULT_CLR_ARMED c).set F.SUP_CHn_FAULT_PASS_CNT c 0
      let s := s.updPoint (c / 2) (fun x => { x with quietSince := s.now })
      let s := s.note 0 0x03 0xFF c (supFaultWord s c)
      let s := spdReview (reviewSingle (if usable s (c / 2) then adopt s (c / 2) else s)) (c / 2)
      match pointCp s (c / 2) with
      | some cp => if cpState s cp = 3 then distCp s cp (if (s.point (c / 2)).blindTo then .takeover else .cpBlind) else s
      | none => s
    else s

/-- CAPTURE of SUP_CMD for one channel (R115); one that still runs starts anew, with its limit of 16 rotations (DESIGN CHOICE, log entry
105). -/
def zrefStart (s : State) (c : Nat) : State :=
  syncZrefBusy (s.updChan c (fun x => { x with zCap := some (s.cycle, 0, 0, 0) }))

/-- The channels that a command word names: one, or all. -/
def chansOf (c : Nat) (all : Bool) : List Nat := if all then List.range 48 else if c < 48 then [c] else []

end Sys2Proof.Machine
end

