-- ==== Sys2Proof/Machine/Processor.lean ====
section
/-!
DEFINITION. The triple-core safety processor (11_safety_processor.md): the voter and HALT (R255, R256), the mismatch
procedure (R257 to R262), periodic tests (R263), keep-alive (R265), debug and test port (R273 to R275).
-/

namespace Sys2Proof.Machine

/-! ### Core states -/

/-- State of a core: 0 RUN, 1 MASKED, 2 TESTING, 3 WAIT_RESYNC, 4 FENCED. -/
def coreSt (s : State) (k : Nat) : Nat := s.get (F.SPU_CORE_CORE0_ST.offB (3 * k))

/-- Voting mode: 0 TRIPLE, 1 DUAL_TEST, 2 DUAL_FENCED, 3 HALTED. -/
def voteMode (s : State) : Nat :=
  if s.flag F.SPU_STATUS_HALTED then 3
  else if (List.range 3).any (fun k => coreSt s k == 4) then 2
  else if (List.range 3).any (fun k => coreSt s k != 0) then 1 else 0

/-- The lowest-indexed core in RUN, the donor of a resynchronisation (R259). -/
def donor (s : State) : Nat := ((List.range 3).find? (fun k => coreSt s k == 0)).getD 3

/-- A core's state written, with MODE and DONOR, journaled with the STATUS flag that the change sets. -/
def setCoreBy (s : State) (k st flag : Nat) : State :=
  let s := s.set (F.SPU_CORE_CORE0_ST.offB (3 * k)) 0 st
  let s := (s.set F.SPU_CORE_MODE 0 (voteMode s)).set F.SPU_CORE_DONOR 0 (donor s)
  s.note 0 0x10 flag k 0

/-- A core's state written where no flag goes with it. -/
def setCore (s : State) (k st : Nat) : State := setCoreBy s k st 0xFF

/-- The cores do their boundary work: neither halted by the voter nor by the debugger. -/
def coresRun (s : State) : Bool := !s.flag F.SPU_STATUS_HALTED && !s.flag F.SPU_DBG_HALTED && s.portsUp

/-! ### The voter (R255) and HALT (R256) -/

/-- The telegram engine stops (R256, R331): what waits is dropped, and of its requests only a frame already on the bus goes on. -/
def steStop (s : State) : State :=
  let s := s.putSte { s.ste with waiting := [] }
  forEach s.ste.held s (fun s h => reqAbort s h.1 h.2.1)

/-- HALT: the cores held in reset, the trains stopped, the demands at 0 (both follow HALTED), no further telegram, SAFE but in
COMMISSIONING; in SQUALL also the second fault. -/
def halt (s : State) (kind : Nat) : State :=
  let s := ((steStop s).raise F.SPU_STATUS_HALTED).set F.SPU_CORE_MODE 0 3
  let s := s.putSpu { s.spu with grantEnd := 0 }
  let s := if s.dev = .squall then s.set F.SPU_SQ_SECOND 0 (if kind = 3 then 5 else if kind = 4 then 6 else 9) else s
  enterSafe s 2

/-- The bits of one lane as they are voted: type, address, check bits and content (R253). -/
def laneBits (l : VoterLane) : BitVec 66 := l.kind ++ l.addr ++ l.check ++ l.data

/-- What core `k` puts on its lane. -/
def laneOf (t : VoterTxn) (k : Nat) : BitVec 66 :=
  match k with | 0 => laneBits t.lane0 | 1 => laneBits t.lane1 | _ => laneBits t.lane2

/-- The bitwise 2-of-3 majority. -/
def majority {w : Nat} (a b c : BitVec w) : BitVec w := (a &&& b) ||| (b &&& c) ||| (a &&& c)

/-- A transaction from the bits voted. -/
def txnOf (v : BitVec 66) : Issued :=
  ⟨(v.extractLsb' 64 2).toNat, (v.extractLsb' 40 24).toNat, (v.extractLsb' 0 32).toNat, (v.extractLsb' 32 8).toNat⟩

/-- The voter issues a transaction. -/
def voterIssue (s : State) (v : BitVec 66) : State := s.putSpu { s.spu with issued := some (txnOf v) }

/-- A lane differs from both others, which agree. -/
def oddLane (a b c : BitVec 66) : Option Nat :=
  if a = b then (if b = c then none else some 2) else if b = c then some 0 else if a = c then some 1 else none

/-- The lanes compared: those of the cores in RUN (R255). -/
def lanesRun (s : State) (t : VoterTxn) : List (BitVec 66) :=
  ((List.range 3).filter (fun k => coreSt s k == 0)).map (laneOf t)

/-- What is recorded as the transaction: the majority of three lanes, and of two the bits in which they agree; the others are free
(DESIGN CHOICE, log entry 98). -/
def voted (s : State) : List (BitVec 66) → BitVec 66
  | [a, b, c] => majority a b c
  | [a, b] => majority a b (Config.laneBits s.freeCtr)
  | _ => Config.laneBits s.freeCtr

/-- A result other than AGREE recorded (SPU_MM_INFO, SPU_MM_ADDR, SPU_MM_TS). -/
def mmRecord (s : State) (kind core : Nat) (v : BitVec 66) : State :=
  let t := txnOf v
  let s := (s.indicate.raise F.SPU_STATUS_MM_NEW).set F.SPU_MM_INFO_KIND 0 kind
  let s := (s.set F.SPU_MM_INFO_CORE 0 core).set F.SPU_MM_INFO_TXN 0 t.kind
  let s := (s.bump F.SPU_MM_INFO_COUNT).set F.SPU_MM_ADDR_ADDR 0 t.addr
  let s := s.set40 F.SPU_MM_TS_L_TS 0 (ts40 s.now)
  s.note 0 0x10 0 (if core = 3 then 0xFF else core) 0

/-- A transaction issued, which its target may reject by its check bits. The code of the check bits is not in the spec: that the target
rejects them is the command's own part (log entry 98). -/
def voterTarget (s : State) (t : VoterTxn) (v : BitVec 66) : State :=
  let s := voterIssue s v
  if t.rejected then halt (mmRecord s 5 3 v) 5 else s

/-- The voter's result for one transaction (R255). The device does not test the voter (R266), and no command does: a comparator stuck at
"agree" shows as transactions that agree, of which the bitwise majority is issued; one stuck at "disagree" on one lane masks its core
here, has it pass `selfTest`, which fences it at the third transient, and is then indicated on the fenced lane, which HALTs. -/
def vote (s : State) (t : VoterTxn) : State :=
  if s.flag F.SPU_STATUS_HALTED then s
  else
    let ls := lanesRun s t
    let ind := match t.fenced with | some k => if coreSt s k.val = 4 then some k.val else none | none => none
    match ind with
    | some k => halt (mmRecord s.fresh 4 k (voted s ls)) 4
    | none =>
      match ls with
      | [a, b, c] =>
        if a = b ∧ b = c then voterTarget s t a
        else
          match oddLane a b c with
          | some k => voterTarget (setCore (mmRecord s 1 k (majority a b c)) k 1) t (majority a b c)
          | none => halt (mmRecord s 2 3 (majority a b c)) 2
      | [a, b] => if a = b then voterTarget s t a else halt (mmRecord s.fresh 3 3 (voted s ls)) 3
      | _ => s

/-! ### Self-tests, fences, resynchronisation (R257 to R263) -/

/-- A core fenced (R261): CORE_FENCED is a Squall cause. -/
def fence (s : State) (k : Nat) : State :=
  raiseSquall (setCoreBy (s.raise F.SPU_STATUS_FENCE_NEW) k 4 2) 1

/-- The transients of a core within the last 3,600,000 cycles, each by the cycle at which it leaves them (R260). -/
def transWin (s : State) (k : Nat) : List Nat := (nth s.spu.trans k).filter (fun c => decide (s.cycle < c))

/-- What the core's running test follows. -/
def testOf (s : State) (k : Nat) : Nat := nth s.spu.tests k
def setTest (s : State) (k v : Nat) : State := s.putSpu { s.spu with tests := upd s.spu.tests k (fun _ => v) }

/-- A core's self-test verdict, written no later than 24,060 ticks after the boundary (R257, R258, R260, R263); after a HALT the cores are
held in reset and none comes. -/
def selfTest (s : State) (k : Nat) (pass : Bool) : State :=
  if coreSt s k ≠ 2 ∨ s.flag F.SPU_STATUS_HALTED then s
  else
    let s := s.advanceTo (max s.now (s.cycleStart + 24000))
    let kind := testOf s k
    let s := setTest s k 0
    if !pass then
      let s := s.raise F.SPU_COREk_CNT_FAILED k
      fence (if kind = 2 then s.raise F.SPU_STATUS_PT_FAIL else s) k
    else if kind = 2 then setCore (s.bump F.SPU_COREk_CNT_PT_PASS k) k 3
    else
      let win := (s.cycle + 3600000) :: transWin s k
      let s := s.putSpu { s.spu with trans := upd s.spu.trans k (fun _ => win) }
      let s := (s.raise F.SPU_STATUS_TRANS_NEW).bump F.SPU_COREk_CNT_TRANS_TOTAL k
      let s := s.set F.SPU_COREk_CNT_WIN k (min 3 win.length)
      if 3 ≤ win.length then fence s k else setCoreBy s k 3 1

/-- Periodic tests are suspended in SQUALL and in COMMISSIONING (R263). -/
def ptSusp (s : State) : Bool := s.dev == .squall || s.dev == .comm

/-- All three cores run. -/
def allRun (s : State) : Bool := (List.range 3).all (fun k => coreSt s k == 0)

/-- The periodic test at a boundary (R263): due, it starts on the next core of the rotation at the first boundary to which all three come
running; a core that the boundary only resynchronises is not in RUN at it. -/
def periodicTest (s : State) : State :=
  match s.spu.ptDue with
  | none => s
  | some d =>
    if ptSusp s ∨ s.cycle < d then s
    else if allRun s ∧ s.spu.ranAll = true then
      let k := s.get F.SPU_PT_NEXT
      let s := setTest (setCore s k 2) k 2
      let s := (s.set F.SPU_PT_NEXT 0 ((k + 1) % 3)).lower F.SPU_PT_DEFER
      s.putSpu { s.spu with ptDue := some (d + 600000) }
    else s.raise F.SPU_PT_DEFER

/-- A core's architectural state. -/
def coreArch (s : State) (k : Nat) : CoreArch := nth s.spu.cores k
def putArch (s : State) (k : Nat) (a : CoreArch) : State := s.putSpu { s.spu with cores := upd s.spu.cores k (fun _ => a) }

/-- A core resynchronised (R259): registers, private memory and pipeline position are those of the donor. -/
def resync (s : State) (k : Nat) : State := setCore (putArch s k (coreArch s (donor s))) k 0

/-- The boundary's work on the cores (R257, R259, R263). -/
def coresBoundary (s : State) : State :=
  let s := s.putSpu { s.spu with ranAll := allRun s }
  let s := forN 3 s (fun s k =>
    match coreSt s k with
    | 1 => setTest (setCore s k 2) k 1
    | 3 => resync s k
    | _ => s)
  let s := forN 3 s (fun s k => s.set F.SPU_COREk_CNT_WIN k (min 3 (transWin s k).length))
  periodicTest s

/-! ### Keep-alive (R265) -/

/-- A token refused. -/
def kaError (s : State) : State := (s.indicate.raise F.SPU_STATUS_KA_ERR).note 0 0x10 4 0xFF 0

/-- The cycle's token: the next value of the sequence grants the trains until the end of the following cycle; a wrong or
repeated one grants nothing. -/
def keepAlive (s : State) (v : BitVec 32) : State :=
  if !coresRun s then s
  else if !s.spu.tokenOk && v == Config.tokenOf s.cycle then
    let s := s.bumpWrap F.SPU_KA_TOKENS
    s.putSpu { s.spu with tokenOk := true, grantEnd := (s.cycle + 2) * cycleTicks }
  else kaError s

/-- At the boundary that ends a cycle, a token that has not been accepted counts as missing. -/
def keepAliveBoundary (s : State) : State :=
  let s := if !s.spu.tokenOk && s.counting && !s.flag F.SPU_STATUS_HALTED then kaError s else s
  s.putSpu { s.spu with tokenOk := false }

/-- A grant that has ended with no new token. -/
def grantExpire (s : State) : State :=
  if s.spu.grantEnd ≤ s.now then (s.putSpu { s.spu with grantEnd := 0 }) else s

/-- Cycles of grant remaining. -/
def grantLeft (s : State) : Nat := s.spu.grantEnd / cycleTicks - s.cycle

/-! ### Debug and test port (R273 to R275, R406) -/

/-- An instruction of the test port selected; leaving the vendor instruction closes the debug protocol. -/
def jtagSelect (s : State) (i : Nat) : State :=
  let s := s.setFlag F.SPU_DBG_EN 0 (i == 4)
  s.putSpu { s.spu with jtag := i }

/-- The boundary-scan cells sampled. -/
def jtagSample (s : State) : State :=
  (jtagSelect s 2).putSpu { (jtagSelect s 2).spu with scanLines := s.lines, scanExt := s.ext }

/-- SAMPLE/PRELOAD: the values that the tester shifts into the cells which EXTEST may drive are free (log entry 101). -/
def jtagPreload (s : State) : State :=
  (jtagSample s.fresh).putSpu { (jtagSample s.fresh).spu with preload := (Config.scanCells s.freeCtr).toNat }

/-- What TDO shifts out of the selected data register after its capture, where it is a constant: the identification code, or the 0 of
the bypass register. -/
def scanOut (s : State) : Option Nat :=
  if s.spu.jtag = 1 then some Config.idcode.toNat else if s.spu.jtag = 0 then some 0 else none

/-- EXTEST, which acts as SAMPLE/PRELOAD outside COMMISSIONING; in it the cells capture their pins, and the preloaded ones drive theirs
(`computeLines`). -/
def jtagExtest (s : State) : State := if s.dev = .comm then jtagSelect (jtagSample s) 3 else jtagPreload s

/-- The vendor instruction, which selects BYPASS outside COMMISSIONING. -/
def jtagVendor (s : State) : State := jtagSelect s (if s.dev = .comm then 4 else 0)

/-- The test logic reset by DBG_TRST_N: IDCODE is selected, as IEEE 1149.1 has it; nothing else changes. -/
def jtagReset (s : State) : State := jtagSelect s 1

/-- The debug protocol reaches the cores: it is open, in COMMISSIONING, and no HALT holds them in reset (R256). -/
def debugOpen (s : State) : Bool := s.flag F.SPU_DBG_EN && s.dev == .comm && !s.flag F.SPU_STATUS_HALTED

/-- A breakpoint or a watchpoint is set. -/
def breakSet (s : State) : Bool := (s.spu.breaks ++ s.spu.watches).any (·.isSome)

/-- The cores stop at one instruction (R275): at a breakpoint or a watchpoint that is set, which is counted, or by a request, which a
stalled protocol does not take. -/
def debugHalt (s : State) (hit : Bool) : State :=
  if !debugOpen s ∨ s.flag F.SPU_DBG_HALTED ∨ (if hit then !breakSet s else s.spu.stalled.isSome) then s
  else
    let s := s.raise F.SPU_DBG_HALTED
    if hit then s.bump F.SPU_DBG_BP_HITS else s

/-- A register of a core written. -/
def coreRegPut (s : State) (k n v : Nat) : State :=
  putArch s k { coreArch s k with regs := storePut 0 (coreArch s k).regs n v }

/-- A debugger's write as CORE0 takes it at once (R274); the breakpoints and watchpoints are the debug unit's. -/
def debugCore0 (s : State) (w : DebugWrite) : State :=
  let a := fun (set : Bool) => if set then some w.value.toNat else none
  match w.target with
  | .coreReg n => coreRegPut s 0 n.toNat w.value.toNat
  | .breakpoint k b => s.putSpu { s.spu with breaks := upd s.spu.breaks k.val (fun _ => a b) }
  | .watchpoint k b => s.putSpu { s.spu with watches := upd s.spu.watches k.val (fun _ => a b) }
  | .memory _ => s
  | .device _ => s

/-- The address that the next instruction reads on a core. -/
def coreReads (s : State) (k : Nat) : Option (BitVec 24) :=
  Config.coreReads (coreArch s k).regs (coreArch s k).mem (coreArch s k).pos

/-- The address of the read that the voter issues for the next instruction: the one of two cores that run, else of the only ones. -/
def votedRead (s : State) : Option (BitVec 24) :=
  match ((List.range 3).filter (fun k => coreSt s k == 0)).map (coreReads s) with
  | [a, b, c] => if b = c then b else a
  | a :: _ => a
  | [] => none

/-- One instruction of the firmware on every core that runs, all from the state that each holds and the word that the voter's read gives
them (R275, R276; log entry 100). -/
def coresStep (s : State) (word : Option Nat) : State :=
  forN 3 s (fun s k =>
    if coreSt s k ≠ 0 then s
    else
      let a := coreArch s k
      let r := Config.coreStep a.regs a.mem a.pos word
      putArch s k ⟨r.1, r.2.1, r.2.2⟩)

/-- Entries of the replay buffer. -/
def replayMax : Nat := 64

/-- A debugger's write put into the replay buffer and applied to CORE0; a full buffer stalls the protocol with the write held (R274). -/
def replayPut (s : State) (w : DebugWrite) : State :=
  if s.spu.replay.length < replayMax then
    let s := debugCore0 (s.putSpu { s.spu with replay := s.spu.replay ++ [w] }) w
    s.set F.SPU_DBG_REPLAY_LVL 0 s.spu.replay.length
  else s.putSpu { s.spu with stalled := some w }

end Sys2Proof.Machine
end

