-- ==== Sys2Proof/Machine/Restores.lean ====
section
/-!
DEFINITION. Restores (07_section_states.md, R169 to R176, R180): the commands of SECT_RESTORE_CMD as they are written, and
their evaluation at the boundary, port A before port B.
-/

namespace Sys2Proof.Machine

/-- Operations of SECT_RESTORE_CMD. -/
def opSupervised : Nat := 1
def opDirect : Nat := 2
def opDisturb : Nat := 3
def opWithdraw : Nat := 4
/-- An identity-proven restore, as the cycle image names it. -/
def opIdentity : Nat := 5

/-- Reasons of SECT_RESTORE_RES. -/
inductive RReason where
  | none | section_ | state_ | notEnabled | point | noLull | device | race | token | expired
  deriving DecidableEq, Repr, Inhabited

def RReason.code : RReason → Nat
  | .none => 0 | .section_ => 1 | .state_ => 2 | .notEnabled => 3 | .point => 4 | .noLull => 5 | .device => 6
  | .race => 7 | .token => 8 | .expired => 9

/-- SECT_RESTORE_RES of a port written: RESULT 1 DONE, 2 WAITING, 3 REJECTED. -/
def setRes (s : State) (p sec op result : Nat) (r : RReason) : State :=
  let s := s.set (F.SECT_RESTORE_RES_SEC.port p) 0 sec
  let s := s.set (F.SECT_RESTORE_RES_OP.port p) 0 op
  let s := s.set (F.SECT_RESTORE_RES_RESULT.port p) 0 result
  s.set (F.SECT_RESTORE_RES_REASON.port p) 0 r.code

/-- A rejected command: the result, REJECT and a journal entry. -/
def rejectRes (s : State) (p sec op : Nat) (r : RReason) : State :=
  let s := (setRes s p sec op 3 r).raise F.SECT_STATUS_REJECT
  s.journal ⟨0, 0x06, 2, sec, s.now, if sec < 48 then secWord s sec else 0, []⟩

/-- The device may carry out restores (R169). -/
def restoreDevice (s : State) : Bool :=
  match s.dev with
  | .startup => s.role == .active
  | .oper => s.role == .active
  | .squall => s.role == .active
  | .comm => s.role == .active || s.role == .detached
  | _ => false

/-- Every boundary point of a section satisfies a test of the state that the boundary's snapshot has of it (R42, R171). -/
def pointsAll (s : State) (n : Nat) (ok : Nat → Bool) : Bool :=
  (bnds s n).all (fun b => ok (s.fab.cpSnap[b.cp]?.getD (cpState s b.cp)))

/-- READY or PARKED. -/
def readyOrParked (st : Nat) : Bool := st == 0 || st == 2

/-- Field `k` of a section as the boundary's snapshot has it, as it stands where there has been no snapshot yet (R42, R171): 0 STATE,
1 MULTI, 2 SINGLE, 3 the count. -/
def snapAt (s : State) (n k : Nat) : Nat := (s.sec n).snap[k]?.getD (nth (snapSec s n) k)

/-- The snapshot of a section with what the cores have since written to it, for the commands after it at the same boundary (R42). -/
def snapWrite (s : State) (n : Nat) : State :=
  s.updSec n (fun x => { x with snap := if x.snap.isEmpty then [] else (snapSec s n).take 3 ++ [nth x.snap 3] })

/-- The reason of the first failing row of R171 for a commanded route, judged on the snapshot; none when every row holds. What has reached the tile since gives RACE (R170). The condition of R169 comes before
them, and for DISTURB after the row of the section: the spec gives no order (DESIGN CHOICE, log entry 94). -/
def restoreFails (s : State) (n : Nat) (direct : Bool) : RReason :=
  let st := snapAt s n 0
  if !restoreDevice s then .device
  else if 48 ≤ n ∨ !secUsed s n then .section_
  else if !(st == 2 || (direct && st == 3)) then .state_
  else if direct && !s.flag F.SECT_n_CFG_DIRECT_EN n then .notEnabled
  else if !pointsAll s n readyOrParked then .point
  else if direct && !secLull s n then .noLull
  else if (s.sec n).touched then .race
  else .none

/-- A supervised restore accepted (R171): SWEEP_PENDING with the count and SWEEP_AXLES at 0, the evidence window closed. -/
def supervise (s : State) (n : Nat) : State :=
  let s := ((clockForget s n).set F.SECT_n_STATE_STATE n 3).set F.SECT_n_CNT_COUNT n 0
  let s := evidEnd (s.set F.SECT_n_CNT_SWEEP_AXLES n 0) n
  secNote (snapWrite s n) n 0xFF

/-- A section made CLEAR by a direct or an identity-proven restore. -/
def restoreClear (s : State) (n : Nat) : State :=
  let s := raiseShared (clearEpisode ((clockForget s n).set F.SECT_n_CNT_COUNT n 0) n) F.SECT_STATUS_RESTORED 2
  secNote (snapWrite s n) n 1

/-! ### Writes of SECT_RESTORE_CMD -/

def State.restCmd (s : State) (p : Nat) : Option RestoreCmd := nth s.restores.cmd p
def State.restDirect (s : State) (p : Nat) : Option DirectEntry := nth s.restores.direct p
def State.restCarried (s : State) (p : Nat) : Option RestoreCmd := nth s.restores.carried p
def putCmd (s : State) (p : Nat) (c : Option RestoreCmd) : State :=
  s.putRestores { s.restores with cmd := upd s.restores.cmd p (fun _ => c) }
def putDirect (s : State) (p : Nat) (c : Option DirectEntry) : State :=
  s.putRestores { s.restores with direct := upd s.restores.direct p (fun _ => c) }
def putCarried (s : State) (p : Nat) (c : Option RestoreCmd) : State :=
  s.putRestores { s.restores with carried := upd s.restores.carried p (fun _ => c) }

/-- SUPERVISED or DISTURB written: waiting for the boundary, an earlier waiting command of the port replaced (R169). -/
def restoreWrite (s : State) (p op sec : Nat) : State :=
  setRes (putCmd s p (some ⟨op, sec, s.now⟩)) p sec op 2 .none

/-- Five seconds (R174). -/
def fiveSeconds : Nat := 300000000

/-- DIRECT written (R174): checked for section and token, then held; an entry of the other port older than 5 s is
discarded as EXPIRED. As every later write of the port, it replaces a command that waits for the boundary (R169). -/
def directWrite (s : State) (p sec tok : Nat) : State :=
  let s := putCmd s p none
  if 48 ≤ sec then rejectRes s p sec opDirect .section_
  else if tok = 0 then rejectRes s p sec opDirect .token
  else
    let q := 1 - p
    let s := match s.restDirect q with
      | some e => if e.tick + fiveSeconds < s.now then rejectRes (putDirect s q none) q e.sec opDirect .expired else s
      | none => s
    setRes (putDirect s p (some ⟨sec, tok, s.now⟩)) p sec opDirect 2 .none

/-- WITHDRAW written (R174); as every later write of the port, it replaces a command that waits for the boundary (R169). -/
def directWithdraw (s : State) (p : Nat) : State :=
  let s := putCmd s p none
  match s.restDirect p with
  | some e => setRes (putDirect s p none) p e.sec opWithdraw 1 .none
  | none => rejectRes s p 0 opWithdraw .state_

/-- A write of SECT_RESTORE_CMD. -/
def restoreCmd (s : State) (p v : Nat) : State :=
  let sec := v % 64
  match bitsOf v 8 3 with
  | 1 => restoreWrite s p 1 sec
  | 2 => directWrite s p sec (v / 65536)
  | 3 => restoreWrite s p 3 sec
  | 4 => directWithdraw s p
  | _ => s

/-! ### The boundary -/

/-- A restore or DISTURB applied at this boundary, which the cycle image carries to the partner (R169, R180). -/
def carry (s : State) (op sec : Nat) : State :=
  s.putLink { s.link with restores := s.link.restores ++ [⟨op, sec⟩] }

/-- A DISTURB applied by the unit that drives. -/
def disturbApply (s : State) (sec : Nat) : State := snapWrite (distSec s sec .host noCp) sec

/-- The waiting command of a port evaluated (R169 to R172, R180). -/
def restoreEval (s : State) (p : Nat) : State :=
  match s.restCmd p with
  | none => s
  | some c =>
    let s := putCmd s p none
    if c.op = opSupervised then
      match restoreFails s c.sec false with
      | .none => setRes (carry (supervise s c.sec) opSupervised c.sec) p c.sec c.op 1 .none
      | r => rejectRes s p c.sec c.op r
    else if 48 ≤ c.sec ∨ !secUsed s c.sec then rejectRes s p c.sec c.op .section_
    else if restoreDevice s then setRes (carry (disturbApply s c.sec) opDisturb c.sec) p c.sec c.op 1 .none
    else if s.role = .standby ∧ follows s then
      (putCarried s p (some c)).putLink { s.link with disturbs := s.link.disturbs ++ [c.sec] }
    else rejectRes s p c.sec c.op .device

/-- An entry still unmatched 5 s after its write is discarded as EXPIRED (R174). -/
def directExpire (s : State) (p : Nat) : State :=
  match s.restDirect p with
  | some e => if e.tick + fiveSeconds < s.now then rejectRes (putDirect s p none) p e.sec opDirect .expired else s
  | none => s

/-- The pair of DIRECT entries evaluated (R174), where both writes completed before the boundary. -/
def directPair (s : State) : State :=
  match s.restDirect 0, s.restDirect 1 with
  | some a, some b =>
      if a.sec ≠ b.sec ∨ s.cycleStart ≤ a.tick ∨ s.cycleStart ≤ b.tick then s
      else
        let drop := putDirect (putDirect s 0 none) 1 none
        if a.token ≠ b.token then rejectRes (rejectRes drop 0 a.sec opDirect .token) 1 a.sec opDirect .token
        else
          match restoreFails drop a.sec true with
          | .none =>
            let s := carry (ledgerClear (restoreClear drop a.sec) a.sec) opDirect a.sec
            setRes (setRes s 0 a.sec opDirect 1 .none) 1 a.sec opDirect 1 .none
          | r => rejectRes (rejectRes drop 0 a.sec opDirect r) 1 a.sec opDirect r
  | _, _ => s

/-- The pair of DIRECT entries evaluated, then entries older than 5 s discarded (R174). -/
def directEval (s : State) : State := forN 2 (directPair s) directExpire

/-- The local conditions of an identity-proven restore, judged on the snapshot (R171, R176). -/
def idLocal (s : State) (n : Nat) : Bool :=
  secUsed s n && snapAt s n 0 == 2 && s.flag F.SECT_n_CFG_ID_EN n && pointsAll s n (fun st => st == 0)
    && snapAt s n 3 == 0 && snapAt s n 2 == 1 && snapAt s n 1 == 0 && idOk s n

/-- The partner raises no objection: there is none, it is NOT_READY, or its report for the boundary before, which has arrived in the
cycle that ends, agrees (R176). -/
def partnerAgrees (s : State) (n : Nat) : Bool :=
  !s.flag F.URED_STATE_LINK_UP || !s.flag F.URED_STATE_PARTNER_READY
    || (s.link.status.isSome && s.flag F.SECT_n_STATE_STBY_AGREE n)

/-- The identity-proven restore of a section at a boundary (R176), evaluated once there: evidence at this boundary and at
the one before, the partner in agreement, no passage since the snapshot. -/
def identityEval (s : State) (n : Nat) : State :=
  let last := s.sec n
  if last.idAt = s.cycle + 1 then s
  else
    let now := idLocal s n
    let go := now && last.idPrev && last.idAt == s.cycle && partnerAgrees s n && restoreDevice s && !last.touched
    let s := (s.setFlag F.SECT_n_STATE_ID_READY n now).updSec n (fun x => { x with idPrev := now, idAt := s.cycle + 1 })
    if go then
      let s := carry (restoreClear s n) opIdentity n
      (s.lower F.SECT_n_STATE_ID_READY n).updSec n (fun x => { x with idPrev := false })
    else s

/-- A DISTURB carried by a standby unit that no image has carried back within 4 cycles of its write (R180); an image that has arrived
is applied at the next boundary. -/
def carriedLate (s : State) (p : Nat) : State :=
  match s.restCarried p with
  | some c =>
    let arrived := match s.link.image with | some i => i.restores.any (fun r => r.op == opDisturb && r.sec == c.sec) | none => false
    if c.tick + 4 * cycleTicks ≤ s.now ∧ !arrived then rejectRes (putCarried s p none) p c.sec c.op .device else s
  | none => s

/-- Item 4 of the boundary work of R42. R174 evaluates the ports' commands in the order A, B; that a complete pair comes after them and the
proofs of identity come last it does not say (DESIGN CHOICE, log entry 121). -/
def restoresBoundary (s : State) : State :=
  forN 48 (directEval (restoreEval (restoreEval s 0) 1)) identityEval

end Sys2Proof.Machine
end

