-- ==== Sys2Proof/Machine/Sha.lean ====
section
/-!
DEFINITION. The digest the trailer of a bit-stream carries over its header and frames (R235): SHA-256 as its standard
states it, its constants computed from what the standard says they are, the roots of the first primes.
-/

namespace Sys2Proof.Machine

/-- The largest `r` whose `k`-th power is at most `x`, found from bit `n - 1` down; `r` holds the bits found so far. -/
def rootFrom (k x : Nat) : Nat → Nat → Nat
  | 0, r => r
  | n + 1, r => rootFrom k x n (if (r + 2 ^ n) ^ k ≤ x then r + 2 ^ n else r)

/-- The first 32 bits of the fraction of the `k`-th root of `p`. -/
def rootFraction (k p : Nat) : BitVec 32 := BitVec.ofNat 32 (rootFrom k (p * 2 ^ (32 * k)) 38 0)

/-- The primes below `n`, in rising order. -/
def primesBelow (n : Nat) : List Nat :=
  (List.range n).filter (fun p => 2 ≤ p ∧ ∀ d ∈ List.range p, d < 2 ∨ p % d ≠ 0)

/-- The working variables of a digest in progress: the two halves a round shifts words into. -/
structure Digest where
  /-- the half whose first word a round forms from both temporaries -/
  lo : BitVec 32 × BitVec 32 × BitVec 32 × BitVec 32
  /-- the half whose first word a round forms from the last word of `lo` -/
  hi : BitVec 32 × BitVec 32 × BitVec 32 × BitVec 32
  deriving DecidableEq, Repr

/-- The words of a digest, first to last. -/
def Digest.words (d : Digest) : List (BitVec 32) :=
  [d.lo.1, d.lo.2.1, d.lo.2.2.1, d.lo.2.2.2, d.hi.1, d.hi.2.1, d.hi.2.2.1, d.hi.2.2.2]

/-- A digest from its words by index. -/
def Digest.build (f : Nat → BitVec 32) : Digest := ⟨(f 0, f 1, f 2, f 3), (f 4, f 5, f 6, f 7)⟩

/-- Word by word addition: a block's result is added to what stood before it. -/
def Digest.add (p q : Digest) : Digest := Digest.build (fun i => p.words.getD i 0 + q.words.getD i 0)

/-- The exclusive or of the rotations of `x` by each of `rs`, and of `x` shifted right by `sh` where one is given. -/
def mixRot (rs : List Nat) (sh : Option Nat) (x : BitVec 32) : BitVec 32 :=
  rs.foldl (fun acc r => acc ^^^ x.rotateRight r) (match sh with | some n => x >>> n | none => 0)

/-- Bit by bit: the bit of `y` where `x` is 1, of `z` where it is 0. -/
def pickBits (x y z : BitVec 32) : BitVec 32 := z ^^^ (x &&& (y ^^^ z))

/-- Bit by bit: the value at least two of the three hold. -/
def majBits (x y z : BitVec 32) : BitVec 32 := (x &&& y) ||| (z &&& (x ||| y))

/-- One round with the round's constant and schedule word. -/
def digestRound (v : Digest) (k w : BitVec 32) : Digest :=
  let (e, f, g, h) := v.hi
  let (a, b, c, d) := v.lo
  let t := [h, mixRot [6, 11, 25] none e, pickBits e f g, k, w].sum
  ⟨(t + (mixRot [2, 13, 22] none a + majBits a b c), a, b, c), (d + t, e, f, g)⟩

/-- The schedule word that follows sixteen others, oldest first. -/
def nextWord (w : List (BitVec 32)) : BitVec 32 :=
  w.getD 0 0 + mixRot [7, 18] (some 3) (w.getD 1 0) + w.getD 9 0 + mixRot [17, 19] (some 10) (w.getD 14 0)

/-- The rounds over the constants left: the window of sixteen schedule words moves on by one with each. -/
def digestRounds : List (BitVec 32) → List (BitVec 32) → Digest → Digest
  | [], _, v => v
  | k :: ks, win, v => digestRounds ks (win.tail ++ [nextWord win]) (digestRound v k (win.headD 0))

/-- A block of 64 bytes absorbed, under the round constants `ks`. -/
def digestBlock (ks : List (BitVec 32)) (v : Digest) (block : List Byte) : Digest :=
  let n := ofBeBytes block
  v.add (digestRounds ks ((List.range 16).map (fun i => BitVec.ofNat 32 (n / 2 ^ (32 * (15 - i))))) v)

/-- `n` blocks absorbed, first to last. -/
def digestBlocks (ks : List (BitVec 32)) : Nat → List Byte → Digest → Digest
  | 0, _, v => v
  | n + 1, bs, v => digestBlocks ks n (bs.drop 64) (digestBlock ks v (bs.take 64))

/-- The padded message: a 1 bit, zeros, and the length in bits as the last 64 bits of a whole number of blocks. -/
def digestPad (bs : List Byte) : List Byte :=
  let zeros := (64 - (bs.length + 9) % 64) % 64
  bs ++ (0x80#8 :: List.replicate zeros 0) ++ beBytes 8 (8 * bs.length)

/-- The 32 bytes of the SHA-256 of `bs` (R235): the constants are the fractions of the cube roots of the first 64 primes,
the start the fractions of the square roots of the first eight. -/
def sha256 (bs : List Byte) : List Byte :=
  let ps := primesBelow 312
  let p := digestPad bs
  let v := digestBlocks (ps.map (rootFraction 3)) (p.length / 64) p
    (Digest.build (fun i => rootFraction 2 (ps.getD i 0)))
  v.words.flatMap (fun x => beBytes 4 x.toNat)

end Sys2Proof.Machine
end

