-- ==== Sys2Proof/Machine/Stream.lean ====
section
/-!
DEFINITION. The bit-stream (10_bitstream_seal.md): header, frames, records and trailer (R229 to R235), the factory stream
(R237), the load's checks (R238), seal readings (R241 to R243).
-/

namespace Sys2Proof.Machine

/-! ### Refusal codes (CFG_LOAD_ERR) -/

/-- Why a load or an upload is refused, in the order of the codes. -/
inductive LoadErr where
  | read | magic | format | revision | hdrCrc | sealErr | frameCrc | frameOrder | length | digest | tileRule | regRule
  | depth | sealChg
  deriving DecidableEq, Repr, Inhabited

def LoadErr.code : LoadErr → Nat
  | .read => 1 | .magic => 2 | .format => 3 | .revision => 4 | .hdrCrc => 5 | .sealErr => 6 | .frameCrc => 7
  | .frameOrder => 8 | .length => 9 | .digest => 10 | .tileRule => 11 | .regRule => 12 | .depth => 13 | .sealChg => 14

/-- The frame recorded when the refusal concerns none. -/
def noFrame : Nat := 0x7FF

/-- A refusal: its cause and the frame at which it fell. -/
structure Refused where
  err : LoadErr
  frame : Nat
  deriving DecidableEq, Repr, Inhabited

/-! ### The header (R230) -/

/-- The fields of the header that the device uses. -/
structure Header where
  minor : Nat
  major : Nat
  sealCode : Nat
  revMin : Nat
  revMax : Nat
  tiles : Nat
  tileFrames : Nat
  regFrames : Nat
  len : Nat
  projId : Nat
  projRev : Nat
  depth : Nat
  small : Bool
  deriving DecidableEq, Repr, Inhabited

/-- A little-endian number in a list of bytes. -/
def leAt (bs : List Byte) (off n : Nat) : Nat := ofLeBytes ((bs.drop off).take n)

/-- A stream part's own CRC: its last four bytes over all before them. -/
def crcGood (bs : List Byte) : Bool := crc32c (bs.take (bs.length - 4)) == leAt bs (bs.length - 4) 4

/-- The fields of a header's 256 bytes. -/
def headerOf (bs : List Byte) : Header :=
  { minor := leAt bs 4 1, major := leAt bs 5 1, sealCode := leAt bs 6 2, revMin := leAt bs 8 2, revMax := leAt bs 10 2
    tiles := leAt bs 12 2, tileFrames := leAt bs 14 2, regFrames := leAt bs 16 2, len := leAt bs 18 4
    projId := leAt bs 22 4, projRev := leAt bs 26 4, depth := leAt bs 30 2, small := bitAt (leAt bs 32 1) 0 }

/-- The checks of a header in their order (R230); none when all pass. -/
def headerErr (s : State) (bs : List Byte) : Option LoadErr :=
  let h := headerOf bs
  let rev := s.get F.DEV_REV_REV
  if leAt bs 0 4 ≠ 0x53424650 then some .magic
  else if !crcGood bs then some .hdrCrc
  else if h.major ≠ 1 ∨ bitAt h.sealCode 15 then some .format
  else if rev < h.revMin ∨ h.revMax < rev then some .revision
  else if 2048 < h.tiles ∨ 1024 < h.tileFrames ∨ h.regFrames < 1 ∨ 64 < h.regFrames
      ∨ h.len ≠ 304 + 4108 * (h.tileFrames + h.regFrames) then some .length
  else none

/-! ### Frames (R231, R232, R234) -/

/-- What the frames read so far have left: the state with the tiles written, the tiles that frames carry and the staged
records, each with its frame, and the last pair index. -/
structure Loading where
  s : State
  tiles : List (Nat × Nat)
  recs : List (Nat × Nat × Nat)
  pair : Option Nat
  padded : Bool

/-- A tile's image written to the configuration memory; a wholly zero image is UNUSED and gets a header with its index. -/
def putTile (s : State) (t : Nat) (bs : List Byte) : State :=
  let img := if bs.all (fun b => b == 0) then leBytes 8 (256 * t) ++ bs.drop 8 else bs
  s.putBytes (cfgBase + 0x800 * t) img

/-- A register record that the device accepts (R234): an aligned address of a register with a STATIC or SHADOW field that is
not homed in a count tile, named once, with no bit of an RO or reserved field. -/
def recordOk (recs : List (Nat × Nat × Nat)) (a v : Nat) : Bool :=
  a % 4 == 0 && !tileHomed a && !(recs.any (fun r => r.1 == a)) &&
    match regAt a with
    | none => false
    | some d => (hasCls d .static || hasCls d .shadow) && v &&& clsMask d (fun c => c != .ro) == v

/-- The records of a register frame, in order: padding may be followed only by padding. A refusal falls at this frame, or, for
an address named before, at the frame that named it first (CFG_LOAD_ERR). -/
def stageRecs : Nat → Loading → Nat → List Byte → Except Refused Loading
  | 0, l, _, _ => .ok l
  | n + 1, l, j, bs =>
    let a := leAt bs 0 3
    let v := leAt bs 4 4
    if a = 0xFFFFFF ∧ v = 0 then stageRecs n { l with padded := true } j (bs.drop 8)
    else if l.padded ∨ !recordOk l.recs a v then
      .error ⟨.regRule, match l.recs.find? (fun r => r.1 == a) with | some r => r.2.2 | none => j⟩
    else stageRecs n { l with recs := l.recs ++ [(a, v, j)] } j (bs.drop 8)

/-- Frame `j` of the stream taken (R231): its CRC, its type and index, then its tiles or its records. -/
def takeStreamFrame (h : Header) (l : Loading) (j : Nat) (bs : List Byte) : Except Refused Loading :=
  let ty := leAt bs 0 1
  let idx := leAt bs 2 2
  let body := (bs.drop 8).take 4096
  if !crcGood bs then .error ⟨.frameCrc, j⟩
  else if j < h.tileFrames then
    if ty = 1 ∧ idx < 1024 ∧ (match l.pair with | some p => decide (p < idx) | none => true) = true then
      let s := putTile (putTile l.s (2 * idx) (body.take 2048)) (2 * idx + 1) (body.drop 2048)
      .ok { l with s := s, tiles := l.tiles ++ [(2 * idx, j), (2 * idx + 1, j)], pair := some idx }
    else .error ⟨.frameOrder, j⟩
  else if ty = 2 ∧ idx = j - h.tileFrames then
    stageRecs 512 l j body
  else .error ⟨.frameOrder, j⟩

/-- The lowest-indexed frame that carries one of the tiles or registers named. -/
def frameOf (l : Loading) (tiles regs : List Nat) : Nat :=
  ((l.tiles.filter (fun x => tiles.contains x.1)).map (·.2)
    ++ (l.recs.filter (fun x => regs.contains x.1)).map (·.2.2)).foldl min noFrame

/-- Every tile that no frame carries marked UNUSED, with its index, once the frames have been read; the number of tiles of
another type must be TILE_COUNT (R232). -/
def tilesDone (h : Header) (l : Loading) : Except Refused Loading :=
  let s := forN 2048 l.s (fun s t => if l.tiles.any (fun x => x.1 == t) then s else putTile s t (List.replicate 2048 0))
  let l := { l with s := s }
  if (usedTiles s).length = h.tiles then .ok l else .error ⟨.tileRule, frameOf l (usedTiles s) []⟩

/-! ### The trailer (R235) -/

/-- The trailer's check: its magic, its CRC and the digest of everything before it. -/
def trailerOk (bs : List Byte) (digest : List Byte) : Bool :=
  leAt bs 0 4 == 0x45424650 && crcGood bs && (bs.drop 4).take 32 == digest

/-! ### The rules and the depth (R238 steps 6 and 7) -/

/-- A register that holds configuration: its STATIC and SHADOW fields are the load's, but BOOT_SLOT, which is in flash. -/
def loadedKey (k : Nat) : Bool :=
  let a := k / 32 * 4
  if a = 0x120010 ∨ tileHomed a then false
  else match regAt a with
    | some d => d.fields.any (fun x => x.1.bit == k && (x.2 == .static || x.2 == .shadow))
    | none => false

/-- BOOT_SLOT written, in flash, as CFG_SLOT shows it; a slot that is not VALID is refused (R236). -/
def putBootSlot (s : State) (k : Nat) : State :=
  if nth s.flash.valid k then (s.putFlash { s.flash with boot := k }).set F.CFG_SLOT_BOOT_SLOT 0 k else s

/-- The staged values written (R234); a field that no record names is 0. A record of CFG_SLOT writes BOOT_SLOT where it lies, in flash
(DEDUCED, log entry 96). The load writes the shadow copies too: a register that a port's set holds and a record names takes the record's
value there; what else the sets hold stays (R244). -/
def applyRecords (s : State) (recs : List (Nat × Nat × Nat)) : State :=
  let s := { s with regs := s.regs.filter (fun x => !loadedKey x.1) }
  let copy := fun (w : Nat × Nat) => match recs.find? (fun r => r.1 == w.1) with | some r => (w.1, r.2.1) | none => w
  let s := { s with hosts := s.hosts.map (fun (h : PortState) => { h with shadow := h.shadow.map copy }) }
  forEach recs s (fun s r =>
    if r.1 = 0x120010 then putBootSlot s (r.2.1 % 2)
    else match regAt r.1 with
      | some d => putFields s 0 d (fun c => c == .static || c == .shadow || c == .live) r.2.1
      | none => s)

/-- The images of SECT_n_CFG and SECT_n_BND0, _BND1 taken from the count tiles (R210, R233). -/
def applyTiles (s : State) : State :=
  let s := { s with regs := s.regs.filter (fun x => !tileHomed (x.1 / 32 * 4)) }
  forEach ((usedTiles s).filter (fun t => tileType s t == 1)) s (fun s t =>
    let n := bitsOf (cfgWord s t 9) 32 6
    if n < 48 then putSect s n (cfgWord s t 9) (cfgWord s t 10) else s)

/-- The first rule that fails: tiles before registers. -/
def failing (s : State) (fr : List Nat) : Option Rule :=
  let bad := fun (rs : List Rule) => rs.find? (fun r => !r.ok)
  match bad (tileRules s fr) with
  | some r => some r
  | none => bad (fabRegRules s ++ rangeRules s ++ staticRules s ++ groupRules s s true)

/-- A DEPTH below DEPTH_DECL is journaled (R238 step 7). -/
def depthNote (s : State) : State := if s.flag F.CFG_STATUS_DEPTH_LOW then s.note 2 0x12 6 0xFF 0 else s

/-- Steps 6 and 7 of R238 on the staged values: the rules, then the depth, with DEPTH_LOW and the usage counts. What the stream gives a
DYNAMIC_SLOT's parameters meets the checks and goes no further: the slot takes them at admission, and holds those of one before the
state `o` that the load found (R332). -/
def checkAll (o : State) (h : Header) (l : Loading) : Except Refused State :=
  let s := applyTiles (applyRecords l.s l.recs)
  match failing s (l.tiles.map (·.1)) with
  | some r => .error ⟨if r.tile then .tileRule else .regRule, frameOf l r.tiles r.regs⟩
  | none =>
    let d := fabDepth s
    let small := isSmall s
    if (small && decide (64 < d.1)) || decide (h.depth < d.1) || (h.small && !small) then .error ⟨.depth, noFrame⟩
    else
      let s := s.setFlag F.CFG_STATUS_DEPTH_LOW 0 (decide (d.1 < h.depth))
      let s := (s.set F.FAB_DEPTH_DEPTH 0 d.1).set F.FAB_DEPTH_RING_STEPS 0 d.2
      let s := (s.set F.FAB_INFO_TILES_USED 0 (usedTiles s).length).set F.FAB_INFO_CPS_USED 0 (cpsUsed s).length
      let s := (s.setFlag F.FAB_INFO_SMALL 0 small).set F.FAB_INFO_QUADS 0 (maskOf 4 (fun q => (quadsUsed s).contains q))
      .ok (depthNote (forN 64 s (slotKeep o)))

/-- A stream accepted: the header's fields and the digest put into the CFG block, the demands free to follow the fabric. -/
def putHeader (s : State) (h : Header) (digest : Nat → Nat) : State :=
  let s := s.putFab { s.fab with refused := false }
  let s := (s.set F.CFG_SEAL_EXPECT_CODE 0 h.sealCode).set F.CFG_HDR_FMT_MINOR 0 h.minor
  let s := (s.set F.CFG_HDR_FMT_MAJOR 0 h.major).set F.CFG_HDR_TILE_COUNT 0 h.tiles
  let s := (s.set F.CFG_HDR_REV_REV_MIN 0 h.revMin).set F.CFG_HDR_REV_REV_MAX 0 h.revMax
  let s := (s.set F.CFG_PROJECT_VALUE 0 h.projId).set F.CFG_PROJREV_VALUE 0 h.projRev
  let s := (s.set F.CFG_DEPTH_DECL_DEPTH_DECL 0 h.depth).setFlag F.CFG_DEPTH_DECL_SMALL_DECL 0 h.small
  forN 8 s (fun s k => s.set F.CFG_DIGESTk_DIGEST k (digest k))

/-- Every tile UNUSED, the sections that lie in them without boundaries, every demand at 0. -/
def clearTiles (s : State) : State :=
  { s with mem := s.mem.filter (fun c => !(decide (cfgBase ≤ c.1) && decide (c.1 < cfgBase + 0x400000)))
           regs := s.regs.filter (fun x => !tileHomed (x.1 / 32 * 4))
           fab := { s.fab with pins := [], prev := [], timers := [], refused := true } }

/-- A refusal recorded: the code and the frame, every tile UNUSED, no configuration loaded, a journal entry. -/
def loadRefused (s : State) (r : Refused) : State :=
  let s := ((clearTiles s).lower F.CFG_STATUS_LOADED).set F.CFG_STATUS_SOURCE 0 3
  let s := (s.set F.CFG_LOAD_ERR_CODE 0 r.err.code).set F.CFG_LOAD_ERR_FRAME 0 r.frame
  s.note 0 0x12 0xFF 0xFF 0

/-! ### The factory stream (R237) -/

/-- Fields and values of the factory stream: the lowest value of every range, then the values of its table. -/
def factoryVals : List (Fld × Nat × Nat) :=
  (rngsA ++ rngsB).map (fun r => (r.f, r.n, r.lo)) ++ [
  (F.MEAS_CHn_CFG_CURVE, 48, 0), (F.DENC_CMPk_CFG_EN, 16, 0),
  (F.EXC_CARRIER_SPn_MODE, 24, 3), (F.EXC_CARRIER_SPn_AMP, 24, 4), (F.EXC_ROUTEp_SRC, 96, 63),
  (F.EXC_MODE_AUTO_SPARE, 1, 1), (F.EXC_MODE_CAL_PAIRS, 1, 1), (F.MEAS_UCURVEu_CFG_D_MAX, 4, 8191),
  (F.WEV_CHn_THR_ON_THR, 48, 0x600), (F.WEV_CHn_THR_OFF_THR, 48, 0x400), (F.WEV_SPn_GEOM_SPACING, 24, 400),
  (F.WEV_SPn_GEOM_FIELD, 24, 401), (F.SPOS_SPn_CFG_SPD_SCALE, 24, 40000), (F.LEDG_CFG_D_ACC, 1, 32),
  (F.FAB_OUTSELk_NET_LO, 7, 0xFFFE), (F.FAB_OUTSELk_NET_HI, 7, 0xFFFE), (F.FAB_TXSELk_NET_LO, 32, 0xFFFE),
  (F.FAB_TXSELk_NET_HI, 32, 0xFFFE), (F.FAB_HSTSELk_NET_LO, 16, 0xFFFE), (F.FAB_HSTSELk_NET_HI, 16, 0xFFFE),
  (F.LEDG_COST_INS_COST, 1, 1), (F.LEDG_COST_SKIP_COST, 1, 1), (F.LEDG_CFG_D_CAP, 1, 3), (F.SPU_SQ_CFG_SQ_LIMIT, 1, 480)]

/-- CANx_NBT, CANx_DBT and CANx_TDC of the factory stream. -/
def factoryCan (x : Nat) : List (Nat × Nat) :=
  let b := 0xC0000 + 0x4000 * x
  [(b + 0x10, 0x0F1E7C01), (b + 0x14, 0x84040D01), (b + 0x18, 0x1E)]

/-- The registers as the factory stream leaves them: its register frames hold the values of its fields, word by word, and apply as any
stream's records do. -/
def factoryRegs (s : State) : State :=
  let vals := forEach factoryVals { s with regs := [] } (fun s v => forN v.2.1 s (fun s i => s.set v.1 i v.2.2))
  let word := fun (a : Nat) => match regAt a with
    | some d => d.fields.foldl (fun w x => w + vals.get x.1 * 2 ^ (x.1.bit % 32)) 0
    | none => 0
  let addrs := factoryVals.flatMap (fun v => (List.range v.2.1).map (fun i => v.1.key i / 32 * 4))
  applyRecords s (addrs.map (fun a => (a, word a, 0)) ++ (factoryCan 0 ++ factoryCan 1).map (fun x => (x.1, x.2, 0)))

/-- The header of the factory stream; its project, revisions and digest are not in the spec. -/
def factoryHeader : Header :=
  let w := fun i => (Config.factoryWord i).toNat
  { minor := w 0 % 256, major := 1, sealCode := 0, revMin := w 1 % 65536, revMax := w 2 % 65536, tiles := 0, tileFrames := 0
    regFrames := 1, len := 4412, projId := w 3, projRev := w 4, depth := 0, small := w 5 % 2 == 1 }

/-! ### Seal readings (R241, R242) -/

/-- The balls on which all samples of a reading agree. -/
def sealSettledMask (r : List (BitVec 16)) : Nat :=
  maskOf 16 (fun i => r.all (fun x => x.getLsbD i) || r.all (fun x => !x.getLsbD i))

/-- A reading: the closed balls among the settled ones, and the unsettled ones. -/
def sealReading (r : List (BitVec 16)) : Nat × Nat :=
  let ok := sealSettledMask r
  (maskOf 16 (fun i => bitAt ok i && r.all (fun x => x.getLsbD i)), 65535 - ok)

/-- A reading put into CFG_SEAL_READ; a settled one is the latest settled reading. -/
def takeReading (s : State) (r : List (BitVec 16)) : State :=
  let v := sealReading r
  let s := (s.set F.CFG_SEAL_READ_SEAL 0 v.1).set F.CFG_SEAL_READ_UNSETTLED 0 v.2
  if v.2 = 0 then (s.putBoot { s.boot with sealLast := v.1 }) else s

/-- The last reading differs from the start-up reading or is unsettled (R243). -/
def sealDiffers (s : State) : Bool :=
  s.get F.CFG_SEAL_READ_UNSETTLED != 0 || s.boot.sealStart != some (s.get F.CFG_SEAL_READ_SEAL)

/-- A settled reading matches a stream's seal code (R242). -/
def sealMatch (code reading : Nat) : Bool := reading % 2 ^ 15 == code % 2 ^ 15

/-! ### The whole stream -/

/-- The frames of a stream taken in order from frame `j` on. -/
def takeFrames (h : Header) : Nat → Nat → Loading → List Byte → Except Refused Loading
  | 0, _, l, _ => .ok l
  | n + 1, j, l, bs =>
    match takeStreamFrame h l j (bs.take 4108) with
    | .error r => .error r
    | .ok l => takeFrames h n (j + 1) l (bs.drop 4108)

/-- Steps 2 to 7 of R238 on a stream of bytes, with the reading it is compared with. -/
def loadStream (s : State) (reading : Option Nat) (bs : List Byte) : Except Refused State :=
  let hb := bs.take 256
  let h := headerOf hb
  match headerErr s hb, reading with
  | some e, _ => .error ⟨e, noFrame⟩
  | none, none => .error ⟨.sealErr, noFrame⟩
  | none, some r =>
    if !sealMatch h.sealCode r then .error ⟨.sealErr, noFrame⟩
    else
      let n := h.tileFrames + h.regFrames
      match takeFrames h n 0 ⟨s, [], [], none, false⟩ (bs.drop 256) with
      | .error r => .error r
      | .ok l =>
        match tilesDone h l with
        | .error r => .error r
        | .ok l =>
          let main := bs.take (256 + 4108 * n)
          let digest := sha256 main
          if bs.length ≠ h.len then .error ⟨.length, noFrame⟩
          else if !trailerOk (bs.drop (256 + 4108 * n)) digest then .error ⟨.digest, noFrame⟩
          else
            match checkAll s h l with
            | .error r => .error r
            | .ok s => .ok (putHeader s h (fun k => leAt digest (4 * k) 4))

/-- The refusal of a load whose flash cannot be read at frame `f`, or outside the frames (R238): what the steps before it refuse comes
first. -/
def readRefused (s : State) (reading : Option Nat) (c : Option (List Byte)) (f : Nat) : Refused :=
  match c with
  | none => ⟨.read, f⟩
  | some bs =>
    let h := headerOf (bs.take 256)
    if h.tileFrames + h.regFrames ≤ f then ⟨.read, noFrame⟩
    else match headerErr s (bs.take 256), reading with
      | some e, _ => ⟨e, noFrame⟩
      | none, none => ⟨.sealErr, noFrame⟩
      | none, some r =>
        if !sealMatch h.sealCode r then ⟨.sealErr, noFrame⟩
        else match takeFrames h f 0 ⟨s, [], [], none, false⟩ (bs.drop 256) with
          | .error e => e
          | .ok _ => ⟨.read, f⟩

/-- Steps 2 to 7 on a slot's contents; the factory stream passes every check but the seal's. -/
def loadSlot (s : State) (reading : Option Nat) (c : Option (List Byte)) : Except Refused State :=
  match c with
  | some bs => loadStream s reading bs
  | none =>
    match reading with
    | some r =>
      if sealMatch 0 r then
        let l : Loading := ⟨forN 2048 (factoryRegs s) (fun s t => putTile s t (List.replicate 8 0)), [], [], none, false⟩
        let s := applyTiles l.s
        let s := s.raise F.FAB_INFO_SMALL
        .ok (putHeader s factoryHeader (fun k => (Config.factoryWord (8 + k)).toNat))
      else .error ⟨.sealErr, noFrame⟩
    | none => .error ⟨.sealErr, noFrame⟩

end Sys2Proof.Machine
end

