-- ==== Sys2Proof/Machine/Luarin.lean ====
section
/-!
DEFINITION. The pairing's rules that other parts rest on (15_unit_pairing.md): readiness (R357), what R347 exchanges, the link's coming
up and going down (R346, R349), and the unit that yields (R345, R361).
-/

namespace Sys2Proof.Machine

def State.updLink (s : State) (f : Link → Link) : State := s.putLink (f s.link)

/-- A journal entry of the pairing: its flag of URED_STATUS or 0xFF. -/
def ured (s : State) (flag : Nat) : State := s.note 0 0x0F flag 0xFF 0

/-- PREF_CLASH or CFG_MISMATCH holds: neither unit claims (R347). -/
def pairBad (s : State) : Bool := s.flag F.URED_STATUS_PREF_CLASH || s.flag F.URED_STATUS_CFG_MISMATCH

/-- CFG_DIGEST0 to CFG_DIGEST7 as one number, CFG_DIGEST0 lowest. -/
def digestNum (s : State) : Nat := (List.range 8).foldl (fun a k => a + s.get F.CFG_DIGESTk_DIGEST k * 2 ^ (32 * k)) 0

/-- DEV_REV as one word. -/
def devRev (s : State) : Nat := match regAt 0x4 with | some d => storedWord s 0 d | none => 0

/-- The exchange of R347 judged, once a configuration with PAIR_EN is loaded: strap, revision and digest against the partner's; the marks
stay until reset. A partner that sends the digest 0 has not loaded, and its digest is judged when it sends it again (DEDUCED, log
entry 123). -/
def pairCheck (s : State) : State :=
  match s.link.partner with
  | none => s
  | some (pref, rev, dig) =>
    if !s.flag F.URED_STATE_LINK_UP || !s.flag F.URED_CFG_PAIR_EN then s
    else
      let s := if pref == s.flag F.URED_STATE_PREF then s.raise F.URED_STATUS_PREF_CLASH else s
      if rev ≠ devRev s ∨ (dig ≠ 0 ∧ dig ≠ digestNum s) then s.raise F.URED_STATUS_CFG_MISMATCH else s

/-- What this unit sends at link-up and at every later load: ROLE_PREF, DEV_REV, CFG_DIGEST0 to CFG_DIGEST7 (R347). -/
def hello (s : State) : Bool × Nat × Nat := (s.flag F.URED_STATE_PREF, devRev s, digestNum s)

/-- LINK_UP follows the lanes, which train from the lock on (R409) and, once a configuration is loaded, under PAIR_EN; at link-up and at
every load the units exchange what R347 names. -/
def linkSync (s : State) : State :=
  let en := s.flag F.URED_CFG_PAIR_EN
  let up := s.link.lanes && (en || (s.dev == .boot && s.boot.stage == 2))
  let s := s.setFlag F.URED_STATE_LINK_UP 0 up
  if up then
    let s := s.updLink (fun l => { l with sentHello := some (hello s) })
    if en then readyBoundary (pairCheck (s.lower F.URED_STATUS_LINK_DOWN)) else s
  else s

/-- Both lanes have trained, and what R347 names arrives from the partner. -/
def linkUp (s : State) (pref : Bool) (rev digest : Nat) : State :=
  if !s.portsUp then s
  else linkSync (s.updLink (fun l => { l with lanes := true, partner := some (pref, rev, digest) }))

/-- A lane is lost, or sixteen frames of one cycle were discarded (R349): LINK_DOWN, a verdict indicator. -/
def linkDown (s : State) : State :=
  let up := s.flag F.URED_STATE_LINK_UP
  let s := s.updLink (fun l => { l with lanes := false })
  if !up then s
  else
    let s := (s.lower F.URED_STATE_LINK_UP).raise F.URED_STATUS_LINK_DOWN
    readyBoundary (ured (s.indicate.lower F.URED_STATE_PARTNER_READY) 10)

/-- The unit yields (R345, R361): STANDBY in a state that counts for it, its copy to be rebuilt. -/
def yieldRole (s : State) : State :=
  let s := ured (s.raise F.URED_STATUS_YIELDED) 1
  let s := (s.lower F.URED_STATE_CLAIM).updLink (fun l =>
    { l with claimAt := none, decided := false, resync := 1, lastImage := none, missed := 0, tbAck := false })
  if follows s then readyBoundary (setRole s .standby) else s

/-- The unit asserts INTLK_OUT no more than 600 ticks after the partner: the unit not marked by ROLE_PREF yields (R345). -/
def yieldLate (s : State) : State :=
  if (computeLines s).intlkOut && !s.lines.intlkOut && s.ext.intlkIn && s.ext.roseIn.any (fun t => decide (s.now ≤ t + 600))
      && !s.flag F.URED_STATE_PREF
  then yieldRole s else s

end Sys2Proof.Machine
end

