-- ==== Sys2Proof/Machine/Commit.lean ====
section
/-!
DEFINITION. Commits of shadow sets (R244 to R249), uploads (R240), seal readings in operation (R243), BOOT_SLOT (R236).
-/

namespace Sys2Proof.Machine

/-! ### Shadow sets -/

def State.host (s : State) (p : Nat) : PortState := nth s.hosts p
def State.updHost (s : State) (p : Nat) (f : PortState → PortState) : State := { s with hosts := upd s.hosts p f }

/-- States of CFG_COMMIT_STAT. -/
def cmIdle : Nat := 0
def cmWaiting : Nat := 1
def cmApplied : Nat := 2
def cmRejected : Nat := 3

def commitState (s : State) (p : Nat) : Nat := s.get (F.CFG_COMMIT_STAT_STATE.port p)

/-- PENDING follows the number of registers in the port's set. -/
def syncShadow (s : State) (p : Nat) : State :=
  s.set (F.CFG_COMMIT_STAT_PENDING.port p) 0 (min 4095 (s.host p).shadow.length)

/-- SHADOW registers written by a port join its set, a later value in place of an earlier one (R244). -/
def shadowPut (s : State) (p : Nat) (ws : List (Nat × Nat)) : State :=
  syncShadow (s.updHost p (fun h => { h with shadow := ws.foldl (fun l w => storeInsert l w.1 w.2) h.shadow })) p

/-- OP = COMMIT: the set waits for the boundary (R244). -/
def commitWait (s : State) (p : Nat) : State :=
  (s.set (F.CFG_COMMIT_STAT_STATE.port p) 0 cmWaiting).set (F.CFG_COMMIT_STAT_REASON.port p) 0 0

/-- OP = DISCARD empties the set; while it waits the write is refused as BUSY (R246). -/
def commitDiscard (s : State) (p : HPort) : State :=
  if commitState s p.toNat = cmWaiting then s.accErr p 0x120018 true .busy
  else
    let s := s.updHost p.toNat (fun h => { h with shadow := [] })
    syncShadow ((s.set (F.CFG_COMMIT_STAT_STATE.port p.toNat) 0 cmIdle).set (F.CFG_COMMIT_STAT_REASON.port p.toNat) 0 0) p.toNat

/-! ### Evaluation (R245) -/

/-- The values that a set would put into force. -/
def withSet (s : State) (set : List (Nat × Nat)) : State :=
  forEach set s (fun s w => match regAt w.1 with
    | some d => putFields s 0 d (fun c => c == .shadow) w.2
    | none => s)

/-- The first failing rule among those that name or bind a register of the set. -/
def firstBad (regs : List Nat) (rs : List Rule) : Option Rule :=
  rs.find? (fun r => !r.ok && (r.regs ++ r.binds).any (fun a => regs.contains a))

/-- The lowest register that a failing rule names and the set does not contain, else the lowest that it names. -/
def badAddr (regs : List Nat) (r : Rule) : Nat :=
  let low := fun (l : List Nat) => l.foldl min 0xFFFFFF
  let out := r.regs.filter (fun a => !regs.contains a)
  if out.isEmpty then low r.regs else low out

/-- Why a commit fails: the reason's code (1 RULE, 2 MISSING, 3 RANGE, 4 STATE, also after a HALT (R256), 5 ROLE) and the address
recorded. -/
def commitFails (s : State) (set : List (Nat × Nat)) : Option (Nat × Nat) :=
  let regs := set.map (·.1)
  let n := withSet s set
  match firstBad regs (rangeRules n) with
  | some r => some (3, badAddr regs r)
  | none =>
    match firstBad regs (missingRules s n regs) with
    | some r => some (2, badAddr regs r)
    | none =>
      match firstBad regs (groupRules s n false) with
      | some r => some (1, badAddr regs r)
      | none =>
        if s.dev = .reset ∨ s.dev = .boot ∨ s.dev = .safe ∨ s.flag F.SPU_STATUS_HALTED then some (4, 0)
        else if s.role = .standby then some (5, 0)
        else none

/-! ### Application (R245, R249) -/

/-- The registers whose values a point holds pending (R59). -/
def pendRegs (p : Nat) : List Nat :=
  regOf F.EXC_CARRIER_SPn_MODE p :: (List.range 4).map (fun j => regOf F.EXC_ROUTEp_SRC (4 * p + j))
    ++ (List.range 2).flatMap (fun j => [regOf F.MEAS_CHn_CFG_CURVE (2 * p + j), regOf F.WEV_CHn_THR_ON_THR (2 * p + j)])

/-- A position of a port carried from the old scale and offset to the new ones (R206). -/
def rescale (o n : State) (q : Nat) (x : Int) : Int := carryPos (encScale o q) (encScale n q) x

/-- An axle's estimate under a port's new scale and offset. -/
def estRescaled (q : Nat) (f : Int → Int) (e : AxleEst) : AxleEst :=
  { e with x := if e.frame = q then f e.x else e.x
           held := if e.frame = q then e.held.map f else e.held
           lat := upd e.lat q (fun (l : Nat × Int) => (l.1, f l.2)) }

/-- The ledger's positions in a port's frame carried with it: those latched with the passages that it may still assign, their fixes in
the port's frame, the virtual passages that wait, the ports' positions that turns keep, and the positions that the records hold of the
axles' last passages, from which R161 measures motion (R206; DEDUCED, log entry 23). -/
def ledgerRescaled (s : State) (q : Nat) (f : Int → Int) : State :=
  let ports := fun (l : List (Nat × Int)) => upd l q (fun (x : Nat × Int) => (x.1, f x.2))
  let move := fun (v : VMove) => { v with lat := if v.port = q then (v.lat.1, f v.lat.2) else v.lat, ports := ports v.ports }
  let s := s.putLedger { s.ledger with
    obs := s.ledger.obs.map (fun (o : Obs) =>
      { o with lat := ports o.lat
               ports := ports o.ports
               fix := if s.get F.SPOS_SPn_CFG_FRAME o.sp = q then f o.fix else o.fix
               est := o.est.map (fun (e : AxleEst) => estRescaled q f e) })
    jobs := s.ledger.jobs.map (fun (j : Job) =>
      { j with ports := ports j.ports, stage := match j.stage with | .virtual id m => .virtual id (move m) | x => x })
    vpend := s.ledger.vpend.map move }
  forEach (liveSlots s) s (fun s i =>
    let enc := recGet s i 29 1
    if enc % 4 = q ∧ (enc / 4 = 1 ∨ enc / 4 = 2) then recPut s i 30 5 (ofSigned 40 (f (toSigned 40 (recGet s i 30 5)))) else s)

/-- A port's positions under its new scale and offset (R206): frames, Lull position, DIR extreme, running latches, boundary units, BOUND axles and
the compares on them, the ledger's, its POS; a port in FAULT withholds the count that
runs on, and keeps the place that it last gave (R197). -/
def portRescaled (o s : State) (q : Nat) : State :=
  let f := rescale o s q
  let s := s.updEnc q (fun (e : EncPort) =>
    { e with scaleAt := s.now
             scaleWas := encScale o q
             frames := e.frames.map (fun (x : Nat × Int) => (x.1, f x.2))
             hist := e.hist.map (fun (c : LullCell) => { c with first := f c.first, lo := f c.lo, hi := f c.hi })
             extreme := f e.extreme
             lullPos := f e.lullPos })
  let s := s.putEsts (s.ests.map (estRescaled q f))
  let s := ledgerRescaled s q f
  let s := forN 24 s (fun s p => s.updPoint p (fun x =>
    { x with latOff := upd x.latOff q (fun (l : Nat × Int) => (l.1, f l.2)) }))
  let s := { s with units := (indexed 0 s.units).map (fun (u : Nat × BoundaryUnit) =>
    if s.get F.SECT_VCPk_CFG_PORT u.1 = q then
      { u.2 with entries := u.2.entries.map (fun (e : UnitEntry) => { e with x := f e.x, p := f e.p })
                 last := u.2.last.map (fun (x : Nat × Int) => (x.1, f x.2)) }
    else u.2) }
  let s := { s with cmps := (indexed 0 s.cmps).map (fun (c : Nat × CmpUnit) =>
    if !s.flag F.DENC_CMPk_CFG_SRC c.1 && s.get F.DENC_CMPk_CFG_PORT c.1 == q
    then { c.2 with prev := c.2.prev.map (fun (x : Nat × Int) => (x.1, f x.2)) } else c.2) }
  let s := if !(s.encPort q).loaded then s
    else s.setS40 F.DENC_PORTn_POS_L_POS q
      (if encState s q = encFault then f (s.getS40 F.DENC_PORTn_POS_L_POS q) else encPos s q (s.encPort q).count)
  forN 16 s (fun s k =>
    let id := s.get F.DENC_CMPk_AXLE_AXLE_ID k
    match s.flag F.DENC_CMPk_CFG_SRC k, estOf s id with
    | true, some e =>
      let tgt : Int → Int := if boundPort s id = some q then fun _ => (estAt s e s.now).2 else if e.frame = q then f else fun x => x
      s.updCmp k (fun c => { c with prev := c.prev.map (fun (x : Nat × Int) => (x.1, tgt x.2)) })
    | _, _ => s)

/-- Compare unit `k` differs in a register of its group. -/
def cmpDiffers (o n : State) (k : Nat) : Bool :=
  let w := fun (x : State) => ([F.DENC_CMPk_CFG_EN, F.DENC_CMPk_CFG_SRC, F.DENC_CMPk_CFG_PORT, F.DENC_CMPk_CFG_FDIR,
    F.DENC_CMPk_CFG_FIRE_IF_PASSED, F.DENC_CMPk_AXLE_AXLE_ID].map (fun f => x.get f k), x.get40 F.DENC_CMPk_POS_L_POS k)
  w o != w n

/-- The parking windows of a point restart; a channel that reads parked stays parked, judged against the new band (R132). One that had
parked and reads otherwise now is not parked: its window restarts (DESIGN CHOICE, log entry 118). -/
def parkRestart (s : State) (p : Nat) : State :=
  forN 2 s (fun s j =>
    let c := 2 * p + j
    let st := chState s c
    if 2 ≤ st ∧ st ≤ 4 then s
    else s.updChan c (fun x => { x with parkRef := none, parkCnt := 0, met := false, parkRec := false }))

/-- A point that the set names takes its new pending values; none remain when they equal those in force (R58, R59). -/
def pointPend (s n : State) (regs : List Nat) (p : Nat) : State :=
  if (pendRegs p).any (fun a => regs.contains a) then
    let v := pointVals n p
    s.updPoint p (fun x => { x with pend := if v = pointVals s p then none else some v, pendAt := s.now, force := false })
  else s

/-- An accepted set put into force: excitation, curves and thresholds pending per point, all else at once (R249). -/
def applySet (s : State) (set : List (Nat × Nat)) : State :=
  let regs := set.map (·.1)
  let n := withSet s set
  let o := s
  let held := (List.range 24).flatMap pendRegs
  let s := withSet s (set.filter (fun w => !held.contains w.1))
  let s := forN 24 s (fun s p => pointPend s n regs p)
  let s := forN 24 s (fun s p =>
    if o.get F.WEV_SPn_CFG_PARK_TIME p ≠ n.get F.WEV_SPn_CFG_PARK_TIME p ∨ o.get F.WEV_SPn_CFG_PARK_BAND p ≠ n.get F.WEV_SPn_CFG_PARK_BAND p
    then parkRestart s p else s)
  let geom := fun (x : State) (p : Nat) => (x.get F.SPOS_SPn_CFG_SPD_SCALE p, x.get F.WEV_SPn_GEOM_SPACING p)
  let s := forN 24 s (fun s p =>
    if geom o p = geom n p then s else s.updPoint p (fun x => { x with geomAt := s.now, geomWas := geom o p }))
  let s := forN 4 s (fun s q => if rescaled o n q then portRescaled o s q else s)
  let s := forN 4 s (fun s q =>
    if portLims o q = portLims n q then s else s.updEnc q (fun (e : EncPort) => { e with limAt := s.now, limWas := portLims o q }))
  let s := forN 16 s (fun s k => if cmpDiffers o n k then s.updCmp k (fun c => { c with rearm := true }) else s)
  s.putLink { s.link with commits := s.link.commits ++ set }

/-- A port's waiting set evaluated at the boundary: applied whole and emptied, or refused whole and kept (R245, R246). -/
def commitEval (s : State) (p : Nat) : State :=
  if commitState s p ≠ cmWaiting then s
  else
    let set := (s.host p).shadow
    let first := (set.head?.map (·.1)).getD 0
    match commitFails s set with
    | some (reason, addr) =>
      let s := (s.set (F.CFG_COMMIT_STAT_STATE.port p) 0 cmRejected).set (F.CFG_COMMIT_STAT_REASON.port p) 0 reason
      let s := (s.raise F.CFG_STATUS_CFG_COMMIT_ERR).set (F.CFG_COMMIT_ADDR_ADDR.port p) 0 addr
      s.journal ⟨0, 0x12, 4, 0xFF, s.now, 0, leBytes 4 first⟩
    | none =>
      let s := applySet s set
      let s := (s.set (F.CFG_COMMIT_STAT_STATE.port p) 0 cmApplied).set (F.CFG_COMMIT_STAT_REASON.port p) 0 0
      let s := syncShadow (s.updHost p (fun h => { h with shadow := [] })) p
      s.journal ⟨2, 0x12, 0xFF, 0xFF, s.now, 0, leBytes 4 first⟩

/-- Step 1 of R42: port A's set, then port B's against the result. -/
def commitsBoundary (s : State) : State := commitEval (commitEval s 0) 1

/-! ### Seal readings in operation (R243) -/

/-- A periodic reading, over 48,000 ticks after a boundary whose index is a multiple of 100, compared with the start-up
reading. -/
def sealPeriodic (s : State) (r : List (BitVec 16)) : State :=
  if s.cycle % 100 ≠ 0 ∨ !s.portsUp then s
  else
    let s := s.advanceTo (max s.now (s.cycleStart + 48000))
    let v := sealReading r
    let s := takeReading s r
    if v.2 = 0 ∧ s.boot.sealStart = some v.1 then s
    else
      let s := (s.raise F.CFG_STATUS_SEAL_CHG).note 0 0x12 5 0xFF 0
      match s.dev with
      | .boot => if s.boot.stage = 4 then enterSafe (loadRefused s ⟨.sealChg, noFrame⟩) 1 else s
      | .startup => safeLater s 6
      | .oper => safeLater s 6
      | .squall => safeLater s 6
      | _ => s

/-! ### Uploads (R240) -/

def upIdle : Nat := 0
def upReceiving : Nat := 1
def upChecking : Nat := 2
def upDoneSt : Nat := 3
def upFailed : Nat := 4

def upState (s : State) : Nat := s.get F.CFG_UP_STAT_STATE

/-- The flash as CFG_SLOT and CFG_SLOT_SEAL show it. -/
def syncSlots (s : State) : State :=
  let code := fun (k : Nat) => if nth s.flash.valid k then
    (match nth s.flash.slots k with | none => 0 | some bs => (headerOf bs).sealCode) else 0
  let s := (s.set F.CFG_SLOT_BOOT_SLOT 0 s.flash.boot).setFlag F.CFG_SLOT_A_VALID 0 (nth s.flash.valid 0)
  let s := s.setFlag F.CFG_SLOT_B_VALID 0 (nth s.flash.valid 1)
  (s.set F.CFG_SLOT_SEAL_A_SEAL 0 (code 0)).set F.CFG_SLOT_SEAL_B_SEAL 0 (code 1)

/-- A slot's contents and VALID bit written. -/
def putSlot (s : State) (k : Nat) (c : Option (List Byte)) (valid : Bool) : State :=
  syncSlots (s.putFlash { s.flash with slots := upd s.flash.slots k (fun _ => c), valid := upd s.flash.valid k (fun _ => valid) })

/-- The stream received so far. -/
def upBytes (u : Upload) : List Byte := (u.parts.reverse).flatten ++ u.cur.reverse

/-- An upload fails: FAILED with its code, CFG_LOAD_ERR, UP_ERR; a failure in RAM leaves every tile UNUSED. -/
def upFail (s : State) (u : Upload) (r : Refused) : State :=
  let s := if u.target = 0 then loadRefused s r
    else
      let s := putSlot s (u.target - 1) (some (upBytes u)) false
      (((s.set F.CFG_LOAD_ERR_CODE 0 r.err.code).set F.CFG_LOAD_ERR_FRAME 0 r.frame)).note 0 0x12 8 0xFF 0
  let s := (s.set F.CFG_UP_STAT_STATE 0 upFailed).lower F.CFG_UP_STAT_ACCEPT
  let s := (s.set F.CFG_UP_STAT_CODE 0 r.err.code).raise F.CFG_STATUS_UP_ERR
  s.putUp none

/-- START by a port (R240): ignored while an upload runs. -/
def upStart (s : State) (p : HPort) (target : Nat) : State :=
  if s.dev ≠ .comm then s.accErr p 0x120080 true .state_
  else if (upState s = upReceiving ∨ upState s = upChecking) ∧ s.get F.CFG_UP_STAT_UP_PORT ≠ p.toNat then
    s.accErr p 0x120080 true .owner
  else if upState s = upReceiving ∨ upState s = upChecking ∨ 3 ≤ target then s
  else
    let s := (s.set F.CFG_UP_STAT_STATE 0 upReceiving).raise F.CFG_UP_STAT_ACCEPT
    let s := ((s.set F.CFG_UP_STAT_UP_PORT 0 p.toNat).set F.CFG_UP_STAT_CODE 0 0).set F.CFG_UP_WORDS_WORDS 0 0
    let s := if target = 0 then s else putSlot s (target - 1) (some []) false
    s.putUp (some ⟨p.toNat, target, [], []⟩)

/-- ABORT by the owning port. -/
def upAbort (s : State) (p : HPort) : State :=
  if s.dev ≠ .comm then s.accErr p 0x120080 true .state_
  else match s.up with
  | none => s
  | some u => if u.port ≠ p.toNat then s.accErr p 0x120080 true .owner else upFail s u ⟨.length, noFrame⟩

/-- The header of the upload, once received. -/
def upHeader (u : Upload) : Option Header := (u.parts.getLast?).map headerOf

/-- The length of the part that an upload is receiving, and the check that the part received whole fails. -/
def partLen (u : Upload) : Nat :=
  match upHeader u with
  | none => 256
  | some h => if u.parts.length ≤ h.tileFrames + h.regFrames then 4108 else 48

/-- Frame `j` of an upload checked against the tile frame before it (R231). -/
def upFrameErr (h : Header) (u : Upload) (j : Nat) (bs : List Byte) : Option Refused :=
  let prev := match u.parts with | b :: _ :: _ => if j ≤ h.tileFrames then some (leAt b 2 2) else none | _ => none
  let ty := leAt bs 0 1
  let idx := leAt bs 2 2
  if !crcGood bs then some ⟨.frameCrc, j⟩
  else if j < h.tileFrames then
    if ty = 1 ∧ idx < 1024 ∧ (match prev with | some p => decide (p < idx) | none => true) = true then none
    else some ⟨.frameOrder, j⟩
  else if ty = 2 ∧ idx = j - h.tileFrames then none
  else some ⟨.frameOrder, j⟩

/-- The records staged by the register frames of an upload's parts, oldest first, for the checks of R234. -/
def upStaged (s : State) (h : Header) : Nat → List (List Byte) → Loading → Loading
  | _, [], l => l
  | j, bs :: rest, l =>
    upStaged s h (j + 1) rest (if j < h.tileFrames then l
      else match stageRecs 512 l j ((bs.drop 8).take 4096) with | .ok m => m | .error _ => l)

/-- The records of a register frame checked against those of the register frames before it (R234). -/
def upRecErr (s : State) (h : Header) (u : Upload) (j : Nat) (bs : List Byte) : Option Refused :=
  if j < h.tileFrames then none
  else
    match stageRecs 512 (upStaged s h 0 (u.parts.reverse.drop 1) ⟨s, [], [], none, false⟩) j ((bs.drop 8).take 4096) with
    | .ok _ => none
    | .error r => some r

/-- A part received whole: the check it fails, none when it passes (R229 to R235, R242); the digest waits for the end. -/
def partErr (s : State) (u : Upload) (bs : List Byte) : Option Refused :=
  match upHeader u with
  | none =>
    match headerErr s bs with
    | some e => some ⟨e, noFrame⟩
    | none => if u.target = 0 ∧ !sealMatch (headerOf bs).sealCode s.boot.sealLast then some ⟨.sealErr, noFrame⟩ else none
  | some h =>
    if partLen u ≠ 4108 then none
    else
      let j := u.parts.length - 1
      match upFrameErr h u j bs with
      | some r => some r
      | none => upRecErr s h u j bs

/-- A tile frame of an upload to RAM writes its tiles as it passes (R238 step 4). -/
def partEffect (s : State) (u : Upload) (bs : List Byte) : State :=
  if u.target = 0 ∧ (upHeader u).isSome ∧ leAt bs 0 1 = 1 ∧ partLen u = 4108 then
    let idx := leAt bs 2 2
    let body := (bs.drop 8).take 4096
    tileViews (tileViews (putTile (putTile s (2 * idx) (body.take 2048)) (2 * idx + 1) (body.drop 2048)) (2 * idx)) (2 * idx + 1)
  else s

/-- A slot programmed with what has arrived so far (R240). -/
def partProgram (s : State) (u : Upload) : State :=
  if u.target = 0 then s else putSlot s (u.target - 1) (some (upBytes u)) false

/-- A word of the stream (R240): taken while ACCEPT stands, each part checked as it is complete, a slot programmed as the words
arrive; after the trailer the upload is CHECKING. -/
def upData (s : State) (p : HPort) (v : Nat) : State :=
  match s.up with
  | none => if s.dev ≠ .comm then s.accErr p 0x120084 true .state_ else s
  | some u =>
    if s.dev ≠ .comm then s.accErr p 0x120084 true .state_
    else if u.port ≠ p.toNat then s.accErr p 0x120084 true .owner
    else if !s.flag F.CFG_UP_STAT_ACCEPT then upFail s u ⟨.length, noFrame⟩
    else
      let s := s.bump F.CFG_UP_WORDS_WORDS
      let len := partLen u
      let u := { u with cur := (leBytes 4 v).reverse ++ u.cur }
      let s := partProgram s u
      if u.cur.length < len then s.putUp (some u)
      else
        let bs := u.cur.reverse
        match partErr s u bs with
        | some r => upFail s u r
        | none =>
          let s := partEffect s u bs
          let u := { u with cur := [], parts := bs :: u.parts }
          let s := s.putUp (some u)
          if len = 48 then (s.set F.CFG_UP_STAT_STATE 0 upChecking).lower F.CFG_UP_STAT_ACCEPT else s

/-- The end of an upload to a slot: VALID when the digest passes. -/
def upSlot (s : State) (u : Upload) : Except Refused State :=
  let bs := upBytes u
  let main := bs.take (bs.length - 48)
  if trailerOk (bs.drop (bs.length - 48)) (sha256 main) then .ok (putSlot s (u.target - 1) (some bs) true)
  else .error ⟨.digest, noFrame⟩

/-! ### What follows a change of STATIC values (R30, R248) -/

/-- A counting point that a change of STATIC values has made FAULTY or BLIND, as a WEV_CPc_MAP that names a head that is so: it enters that
state, from which R30 follows. `o` is the state before the change. -/
def cpEnters (o s : State) (c : Nat) : State :=
  let was := cpState o c
  match cpState s c, cpPoint s c with
  | 4, _ => if was = 4 then s else distCp s c .cpFaulty
  | 3, some p =>
    if was = 3 then s
    else if was = 0 ∧ cpLull s c then s.updPoint p (fun q => { q with blindExc := true })
    else distCp s c (if (s.point p).blindTo then .takeover else .cpBlind)
  | _, _ => s

/-- What follows a change of STATIC values in COMMISSIONING, of which `o` is the state before: ports that are no longer in use, sections
without boundaries (R165), virtual points (R29), axles that have ceased to be bound (R199), the speeds that rest on a port (R184),
the window's counts (R392). -/
def staticFollow (o s : State) : State :=
  let s := forEach s.ests (portsDetach o s) (fun s e => heldFrom o s e.id s.now (portsNow o) (portsNow s))
  bcwUnused (forN 24 (forN 8 (forN 48 s secUnused) vcpEval) spdReview)

/-- The end of an upload to RAM: the configuration takes the place of the one in force, and points whose excitation it
changes settle anew (R240, R248). The seal was compared when the header arrived. What rests on STATIC values follows as after a write in
COMMISSIONING; a section that the configuration newly puts in use stays CLEAR with a count of 0 (DESIGN CHOICE, log entry 111), one
that it leaves without boundaries reads so (R165). -/
def upRam (s : State) (u : Upload) : Except Refused State :=
  match loadStream s (some (headerOf (upBytes u)).sealCode) (upBytes u) with
  | .error r => .error r
  | .ok n =>
    let n := if s.counting then forN 24 n (cpEnters s) else n
    let vals := (List.range 24).map (pointVals n)
    let n := forN 24 n (fun n p => applyVals (pendDrop (putVals n p (pointVals s p)) p) p (nth vals p))
    let n := (n.raise F.CFG_STATUS_LOADED).set F.CFG_STATUS_SOURCE 0 2
    .ok (linkSync (syncSources ((staticFollow s n).lower F.FAB_STATUS_DIRTY)))

/-- An upload that is CHECKING completes (R240). -/
def upDone (s : State) : State :=
  match s.up with
  | none => s
  | some u =>
    if upState s ≠ upChecking then s
    else
      match if u.target = 0 then upRam s u else upSlot s u with
      | .error r => upFail s u r
      | .ok s =>
        let s := (s.set F.CFG_UP_STAT_STATE 0 upDoneSt).raise F.CFG_STATUS_UP_DONE
        (s.note 2 0x12 7 0xFF 0).putUp none

/-! ### BOOT_SLOT (R236) -/

/-- A write of CFG_SLOT in COMMISSIONING: BOOT_SLOT in flash, with DIRTY (R248); one that names a slot that is not VALID is discarded. -/
def bootSlotWrite (s : State) (p : HPort) (v : Nat) : State :=
  if nth s.flash.valid (v % 2) then putBootSlot (s.raise F.FAB_STATUS_DIRTY) (v % 2)
  else s.accErr p 0x120010 true .state_

end Sys2Proof.Machine
end

