-- ==== Sys2Proof/Machine/Ecdsa.lean ====
section
/-!
DEFINITION. The verification of a patch's signature (R276): ECDSA over the curve P-256 with a digest of SHA-256, as FIPS 186-4 states
it. Only the public key is open (`Config.romKey`).
-/

namespace Sys2Proof.Machine

/-- The prime of the field. -/
def p256 : Nat := 2 ^ 256 - 2 ^ 224 + 2 ^ 192 + 2 ^ 96 - 1

/-- The order of the base point. -/
def n256 : Nat := 0xFFFFFFFF00000000FFFFFFFFFFFFFFFFBCE6FAADA7179E84F3B9CAC2FC632551

/-- The base point. -/
def g256 : Nat × Nat :=
  (0x6B17D1F2E12C4247F8BCE6E563A440F277037D812DEB33A0F4A13945D898C296,
   0x4FE342E2FE1A7F9B8EE7EB4A7C0F9E162BCE33576B315ECECBB6406837BF51F5)

/-- `b` to the power of the low `k` bits of `e`, modulo `m`. -/
def powMod (m b e : Nat) : Nat → Nat
  | 0 => 1 % m
  | k + 1 =>
    let q := powMod m b (e / 2) k
    if e % 2 = 1 then q * q % m * b % m else q * q % m

/-- The inverse modulo a prime below 2^256; 0 of 0. -/
def invMod (m a : Nat) : Nat := powMod m a (m - 2) 256

/-- The sum of two points of the curve; none is the point at infinity. -/
def ecAdd : Option (Nat × Nat) → Option (Nat × Nat) → Option (Nat × Nat)
  | none, q => q
  | p, none => p
  | some (x1, y1), some (x2, y2) =>
    if x1 = x2 ∧ (y1 + y2) % p256 = 0 then none
    else
      let l :=
        if x1 = x2 then (3 * x1 * x1 + (p256 - 3)) * invMod p256 (2 * y1 % p256) % p256
        else (y2 + (p256 - y1)) * invMod p256 ((x2 + (p256 - x1)) % p256) % p256
      let x := (l * l + (p256 - x1) + (p256 - x2)) % p256
      some (x, (l * (x1 + (p256 - x)) + (p256 - y1)) % p256)

/-- The multiple of a point by the low `k` bits of `e`. -/
def ecMul (p : Option (Nat × Nat)) (e : Nat) : Nat → Option (Nat × Nat)
  | 0 => none
  | k + 1 =>
    let q := ecMul p (e / 2) k
    if e % 2 = 1 then ecAdd (ecAdd q q) p else ecAdd q q

/-- The verification of FIPS 186-4 of a signature over a digest under a key Q: r and s from 1 to n − 1, and r the x of u1 G + u2 Q
modulo n. Of the signature's bits r is the upper half (DESIGN CHOICE, log entry 102). -/
def ecdsaVerify (key : Nat × Nat) (digest : List Byte) (sig : BitVec 512) : Bool :=
  let r := (sig.extractLsb' 256 256).toNat
  let s := (sig.extractLsb' 0 256).toNat
  if r = 0 ∨ n256 ≤ r ∨ s = 0 ∨ n256 ≤ s then false
  else
    let w := invMod n256 s
    match ecAdd (ecMul (some g256) (ofBeBytes digest * w % n256) 256) (ecMul (some key) (r * w % n256) 256) with
    | none => false
    | some (x, _) => x % n256 == r

/-- The same under the public key in ROM. -/
def ecdsaP256 (digest : List Byte) (sig : BitVec 512) : Bool := ecdsaVerify (Config.romKey.1.toNat, Config.romKey.2.toNat) digest sig

end Sys2Proof.Machine
end

