-- ==== Sys2Proof/Machine/Telegrams.lean ====
section
/-!
DEFINITION. Safety telegrams (14_safety_telegrams.md, R328 to R341) and the traction link's telegram channel
(12_safety_io_traction.md, R298 to R302).
-/

namespace Sys2Proof.Machine

/-! ### Payload (R299, R331) -/

/-- The 15 bytes of an axle slot (R299): identity, position, speed, POS_ST and FRAME; zero for an unused slot. -/
def axleSlot (s : State) (id : Nat) : List Byte :=
  if id = 0 then List.replicate 15 0
  else
    match slotOf s id, estOf s id with
    | some _, some e =>
      let r := estAt s e s.now
      let v : Int := if r.1 = posBound then (match boundPort s id with | some q => portTrackSpeed s q | none => 0)
        else if r.1 = posExtrap then e.v else 0
      leBytes 4 id ++ leBytes 5 (ofSigned 40 r.2) ++ leBytes 5 (ofSigned 40 v) ++ leBytes 1 (r.1 + 8 * e.frame)
    | _, _ => leBytes 4 id ++ leBytes 11 0

/-- Bit n = SECn occupied (R27). -/
def occBits (s : State) : Nat := maskOf 48 (fun n => secUsed s n && secOcc s n)

/-- The device sends safe values: in SAFE and COMMISSIONING (R302, R331). -/
def sendsSafe (s : State) : Bool := s.dev == .safe || s.dev == .comm

/-- FLAGS: SAFE_VAL, TEST, SQUALL. -/
def telFlags (s : State) : Nat := b2n (sendsSafe s) + 2 * b2n (s.dev == .comm) + 4 * b2n (s.dev == .squall)

/-- Device state and role in one byte. -/
def telState (s : State) : Nat := s.dev.code + 8 * s.role.code

/-- The unit sends telegrams: it drives the machine and its cores run (R256, R307). -/
def sendsTel (s : State) : Bool := s.counting && canDrives s && coresRun s

/-- The unit drives the traction link's telegram (R284, R296, R298, R302): INTLK_IN is inactive for it. -/
def sendsLink (s : State) : Bool := sendsTel s && !intlkActive s

/-! ### Sending (R333) -/

def State.conn (s : State) (c : Nat) : ConnX := nth s.ste.conns c
def State.updConn (s : State) (c : Nat) (f : ConnX → ConnX) : State :=
  s.putSte { s.ste with conns := upd s.ste.conns c f }

/-- Connection states (R332). -/
def cnFree : Nat := 0
def cnSyncing : Nat := 1
def cnValid : Nat := 2
def cnLapsed : Nat := 3
def connState (s : State) (c : Nat) : Nat := s.get F.STE_CONNc_STAT_STATE c

/-- STE_CONNc_STAT as one word. -/
def connWord (s : State) (c : Nat) : Nat :=
  connState s c + 8 * s.get F.STE_CONNc_STAT_SAFE_RX c + 16 * s.get F.STE_CONNc_STAT_WL c
    + 2 ^ 9 * s.get F.STE_CONNc_STAT_BOUND c + 2 ^ 16 * s.get F.STE_CONNc_STAT_AGE c

/-- A free STE-owned TX buffer of a controller, lowest index first. -/
def freeSteBuf (s : State) (x : Nat) : Option Nat :=
  if !canNormal s x then none
  else (List.range 64).find? (fun b => bufTx s x b && bufOwner s x b == ownSte && !bufPending s x b
    && !s.flag (F.CANx_BUFCTRLb_HELD.can x) b)

/-- The length code of a telegram's frame: 64 bytes on FD, 8 on classical. -/
def telFrame (t : SteTx) : CanFrame :=
  ⟨BitVec.ofNat 29 t.id, t.ide, false, t.fdf, t.fdf, false, if t.fdf then 15#4 else 8#4, t.data⟩

/-- A telegram requested from a buffer. -/
def steRequest (s : State) (t : SteTx) (b : Nat) : State :=
  let fl := s.get (F.CANx_BUFb_W1_FILTER.can t.x) b
  let s := reqStart (bufPut s t.x b (telFrame t) fl) t.x b
  s.putSte { s.ste with held := (t.x, b, t.conn) :: s.ste.held }

/-- A telegram put before those of higher connections. -/
def waitInsert (t : SteTx) : List SteTx → List SteTx
  | [] => [t]
  | u :: us => if t.conn < u.conn then t :: u :: us else u :: waitInsert t us

/-- The waiting telegrams served in connection order while a buffer is free; the engine is the cores' work (R256). -/
def steServe (s : State) : State :=
  let ws := s.ste.waiting
  if !coresRun s then s
  else forEach ws (s.putSte { s.ste with waiting := [] }) (fun s t =>
    match freeSteBuf s t.x with
    | some b => steRequest s t b
    | none => if canDrives s then (s.putSte { s.ste with waiting := s.ste.waiting ++ [t] }) else s)

/-- A request of the engine has ended: its buffer takes the next waiting telegram. -/
def steFreed (s t : State) : State := if t.ste.held.length < s.ste.held.length then steServe t else t

/-- A telegram offered to the engine's queue. -/
def steOffer (s : State) (t : SteTx) : State :=
  s.putSte { s.ste with waiting := waitInsert t s.ste.waiting }

/-- The controllers that a DUP field names. -/
def dupList (dup : Nat) : List Nat := if dup = 0 then [0] else if dup = 1 then [1] else if dup = 2 then [0, 1] else []

/-- A telegram of the connection still waiting, or still pending without having started, is aborted: STALE_TX (R333). -/
def steStale (s : State) (c : Nat) : State :=
  let s := startSeen (startSeen s 0) 1
  let waits := s.ste.waiting.any (fun (t : SteTx) => t.conn == c)
  let bufs := s.ste.held.filter (fun (h : Nat × Nat × Nat) => h.2.2 == c && bufPending s h.1 h.2.1
    && (s.canCtl h.1).onBus != some h.2.1)
  if !waits && bufs.isEmpty then s
  else
    let s := forEach bufs s (fun s h => reqEnd s h.1 h.2.1)
    let s := s.putSte { s.ste with waiting := s.ste.waiting.filter (fun (t : SteTx) => t.conn != c) }
    (s.raise F.STE_STATUS_STALE_TX).bump F.STE_CONNc_ERR_STALE c

/-- The telegram bits of a connection: TXBIT under TXMASK, 0 in a safe state. -/
def txBits (s : State) (c : Nat) : Nat :=
  if sendsSafe s then 0
  else (s.get F.FAB_TXBIT0_TX &&& s.get F.STE_CONNc_TXMASK_L_MASK c)
    + 2 ^ 32 * (s.get F.FAB_TXBIT1_TX &&& s.get F.STE_CONNc_TXMASK_H_MASK c)

/-- What telegrams with these axles take from a boundary snapshot (R299, R331). -/
def viewOf (s : State) (ids : List Nat) : TelView :=
  { occ := occBits s, state := telState s, demand := s.get F.FAB_OUTDEM_TLP_SNAP + 2 * s.get F.FAB_OUTDEM_TLS_SNAP
    nax := (ids.filter (· != 0)).length, slots := ids.flatMap (axleSlot s), cycle := s.cycle % 65536 }

/-- What the safety telegrams of a boundary carry (R331). -/
def telView (s : State) : TelView := viewOf s [s.get F.STE_AXSEL0_AXLE_ID, s.get F.STE_AXSEL1_AXLE_ID]

/-- The telegrams' data frozen at a boundary (R42, R331). -/
def telSnapshot (s : State) : State := s.putSte { s.ste with snap := some (telView s) }

/-- Bytes 0 to 59 of the FD DATA telegram (R328, R331). -/
def fdBody (s : State) (c seq : Nat) : List Byte :=
  let safe := sendsSafe s
  let v := s.ste.snap.getD (telView s)
  leBytes 1 0x11 ++ leBytes 2 seq ++ leBytes 1 (telFlags s) ++ leBytes 8 (txBits s c)
    ++ leBytes 6 (if safe then 2 ^ 48 - 1 else v.occ) ++ leBytes 1 v.state
    ++ leBytes 1 (if safe then 0 else v.nax) ++ v.slots ++ leBytes 2 v.cycle ++ leBytes 8 0

/-- The frame of a DATA telegram, with its check value (R329, R330). -/
def telData (s : State) (c seq : Nat) : State × List Byte :=
  let cid := s.get F.STE_CONNc_CID_CID c
  if s.flag F.STE_CONNc_CFG_FMT c then
    let b := leBytes 1 seq ++ leBytes 4 (txBits s c)
    let r := engineCheck s 13 false cid b
    (r.1, b ++ leBytes 3 r.2)
  else
    let b := fdBody s c seq
    let r := engineCheck s 12 true cid b
    (r.1, b ++ leBytes 4 r.2)

/-- A DATA telegram is due for a connection at the running cycle's boundary and has not been built. -/
def telDue (s : State) (c : Nat) : Bool :=
  let per := s.get F.STE_CONNc_MAP_TX_PERIOD c
  sendsTel s && connState s c != cnFree && per != 0 && (s.cycle + c) % per == 0 && (s.conn c).built != s.cycle + 1

/-- A DATA telegram built and requested (R333). -/
def telBuild (s : State) (c : Nat) : State :=
  if !telDue s c then s
  else
    let s := steStale s c
    let s := (s.bumpWrap F.STE_CONNc_SEQ_TX_SEQ c).updConn c (fun x => { x with built := s.cycle + 1 })
    let r := telData s c (s.get F.STE_CONNc_SEQ_TX_SEQ c)
    let s := forEach (dupList (s.get F.STE_CONNc_CFG_DUP c)) r.1 (fun s x =>
      steOffer s ⟨c, x, s.get F.STE_CONNc_TXID_ID c, s.flag F.STE_CONNc_TXID_IDE c, !s.flag F.STE_CONNc_CFG_FMT c, r.2⟩)
    steServe s

/-! ### Receive bits (R337) -/

/-- The RX bits of a connection take the bits of a telegram. -/
def putRx (s : State) (c bits : Nat) : State :=
  let first := s.get F.STE_CONNc_MAP_RX_FIRST c
  let n := s.get F.STE_CONNc_MAP_RX_COUNT c
  let rx := (List.range n).foldl (fun a i => if first + i < 64 then putBit a (first + i) (bitAt bits i) else a) s.fab.rxBits
  s.putFab { s.fab with rxBits := rx }

/-- An entry of the telegram engine in the journal. -/
def steNote (s : State) (cls flag obj st : Nat) : State := s.note cls 0x0E flag obj st

/-! ### Release, lapse (R336, R340) -/

/-- A dynamic connection released: its bits 0, its slot FREE. -/
def connRelease (s : State) (c : Nat) : State :=
  let s := putRx s c 0
  let s := s.putSte { s.ste with waiting := s.ste.waiting.filter (fun (t : SteTx) => t.conn != c) }
  let s := (s.set F.STE_CONNc_STAT_STATE c cnFree).lower F.STE_CONNc_STAT_SAFE_RX c
  let s := (s.lower F.STE_CONNc_STAT_BOUND c).set F.STE_CONNc_STAT_WL c 0
  let s := slotKeep s (s.set F.STE_CONNc_STAT_AGE c 0) c
  let s := (s.raise F.STE_STATUS_RELEASED).updConn c (fun x => { x with ref := none })
  steNote s 0 5 c (connWord s c)

/-- A VALID connection whose last accepted frame is older than TEXP cycles lapses (R336). -/
def connLapse (s : State) (c : Nat) : State :=
  if connState s c = cnValid ∧ s.get F.STE_CONNc_CFG_TEXP c * cycleTicks < s.cycleStart - (s.conn c).last then
    let s := (putRx s c 0).set F.STE_CONNc_STAT_STATE c cnLapsed
    let s := (s.raise F.STE_STATUS_LAPSE_NEW).updConn c (fun x => { x with ref := none, lapsed := s.cycle })
    steNote s 0 0 c (connWord s c)
  else s

/-- A dynamic connection LAPSED for DYN_HOLD × 100 cycles is released (R340); in a standby unit the image releases it (R341). -/
def dynHold (s : State) (c : Nat) : State :=
  if s.get F.STE_CONNc_CFG_CLASS c = 2 ∧ connState s c = cnLapsed
      ∧ (s.conn c).lapsed + s.get F.STE_CFG_DYN_HOLD * 100 ≤ s.cycle ∧ !listens s then connRelease s c
  else s

/-! ### Receiving (R334, R335) -/

/-- What a frame's receive identifier names: a connection, the announce identifier, or nothing. -/
inductive RxName where
  | conn (c : Nat) | announce | nobody
  deriving DecidableEq, Repr

/-- The name of a frame's identifier on its controller (test 1). -/
def rxName (s : State) (f : SteFrame) : RxName :=
  match (List.range 64).find? (fun c => connState s c != cnFree && (dupList (s.get F.STE_CONNc_CFG_DUP c)).contains f.x
      && s.get F.STE_CONNc_RXID_ID c == f.id && s.flag F.STE_CONNc_RXID_IDE c == f.ide) with
  | some c => .conn c
  | none =>
    if (dupList (s.get F.STE_CFG_ANN_DUP)).contains f.x && s.get F.STE_ANN_RXID_ID == f.id && s.flag F.STE_ANN_RXID_IDE == f.ide
    then .announce else .nobody

/-- A rejected frame: REJ_NEW, the connection's counter, a journal entry. -/
def rejectFrame (s : State) (c : Option Nat) (cnt : Fld) : State :=
  let s := s.raise F.STE_STATUS_REJ_NEW
  match c with
  | some c => let s := s.bump cnt c; steNote s 4 1 c (connWord s c)
  | none => steNote s 4 1 0xFF 0

/-- Bytes of a frame as a number. -/
def frameNum (f : SteFrame) (i n : Nat) : Nat := ofLeBytes ((f.data.drop i).take n)

/-- A frame accepted on a connection (R335, R337, R340). -/
def acceptFrame (s : State) (c seq : Nat) (fd : Bool) (f : SteFrame) : State :=
  let depart := fd && frameNum f 0 1 / 16 == 4
  let s := (s.set F.STE_CONNc_SEQ_RX_SEQ c seq).set F.STE_CONNc_STAT_AGE c 0
  let s := s.updConn c (fun x => { x with last := f.ts, ref := none })
  let safe := fd && bitAt (frameNum f 3 1) 0
  let s := (s.set F.STE_CONNc_STAT_STATE c cnValid).setFlag F.STE_CONNc_STAT_SAFE_RX c safe
  if depart then (if s.get F.STE_CONNc_CFG_CLASS c = 2 ∧ !listens s then connRelease s c else s)
  else
    let bits := if safe then 0 else if fd then frameNum f 4 8 else frameNum f 1 4
    putRx s c bits

/-- The sequence rule (R335); a duplicate is discarded and counted. -/
def seqRule (s : State) (c seq : Nat) (fd : Bool) (f : SteFrame) : State :=
  let m := if fd then 65536 else 256
  let win := s.get F.STE_CONNc_CFG_WIN c
  if connState s c = cnValid then
    let a := (seq + m - s.get F.STE_CONNc_SEQ_RX_SEQ c % m) % m
    if a = 0 then s.updConn c (fun x => { x with dups := x.dups + 1 })
    else if a ≤ win then acceptFrame s c seq fd f
    else rejectFrame s (some c) F.STE_CONNc_ERR_SEQ
  else
    match (s.conn c).ref with
    | some (r, t) =>
      let a := (seq + m - r % m) % m
      if 1 ≤ a ∧ a ≤ win ∧ f.ts ≤ t + s.get F.STE_CONNc_CFG_TEXP c * cycleTicks then acceptFrame s c seq fd f
      else s.updConn c (fun x => { x with ref := some (seq, f.ts) })
    | none => s.updConn c (fun x => { x with ref := some (seq, f.ts) })

/-- The acceptance tests of a frame on a connection (R334). -/
def connFrame (s : State) (c : Nat) (f : SteFrame) : State :=
  let fd := !s.flag F.STE_CONNc_CFG_FMT c
  let cid := cidRx (s.get F.STE_CONNc_CID_CID c)
  if fd then
    if !f.fdf ∨ f.data.length ≠ 64 then rejectFrame s (some c) F.STE_CONNc_ERR_OTHER
    else
      let r := engineCheck s 14 true cid (f.data.take 60)
      let s := r.1
      if r.2 ≠ frameNum f 60 4 then rejectFrame s (some c) F.STE_CONNc_ERR_CHECK
      else
        let kv := frameNum f 0 1
        if kv % 16 ≠ 1 ∨ !(kv / 16 == 1 || kv / 16 == 4) then rejectFrame s (some c) F.STE_CONNc_ERR_OTHER
        else seqRule s c (frameNum f 1 2) true f
  else if f.fdf ∨ f.data.length ≠ 8 then rejectFrame s (some c) F.STE_CONNc_ERR_OTHER
  else
    let r := engineCheck s 15 false cid (f.data.take 5)
    let s := r.1
    if r.2 ≠ frameNum f 5 3 then rejectFrame s (some c) F.STE_CONNc_ERR_CHECK
    else seqRule s c (frameNum f 0 1) false f

/-! ### Announcements and admissions (R338, R339) -/

def annMax : Nat := 10000
def pendValid (s : State) (k : Nat) : Bool := s.flag F.STE_ANN_PENDk_VALID k

/-- The pending entry of a whitelist entry. -/
def pendOf (s : State) (w : Nat) : Option Nat :=
  (List.range 4).find? (fun k => pendValid s k && s.get F.STE_ANN_PENDk_WL k == w)

/-- A pending entry cleared. -/
def pendClear (s : State) (k : Nat) : State :=
  let s := (s.lower F.STE_ANN_PENDk_VALID k).set F.STE_ANN_PENDk_WL k 0
  let s := (s.set F.STE_ANN_PENDk_AGE k 0).set F.STE_ANN_PIDk_PID k 0
  s.putSte { s.ste with nonces := upd s.ste.nonces k (fun _ => 0) }

/-- The connection bound to a whitelist entry. -/
def boundConn (s : State) (w : Nat) : Option Nat :=
  (List.range 64).find? (fun c => s.flag F.STE_CONNc_STAT_BOUND c && s.get F.STE_CONNc_STAT_WL c == w)

/-- An announcement enters the first free pending entry. -/
def announceEnter (s : State) (w pid nonce ts : Nat) : State :=
  if (pendOf s w).isSome then s
  else
    match (List.range 4).find? (fun k => !pendValid s k) with
    | none => s.raise F.STE_STATUS_ANN_OVF
    | some k =>
      let s := (s.raise F.STE_ANN_PENDk_VALID k).set F.STE_ANN_PENDk_WL k w
      let s := (s.set F.STE_ANN_PENDk_AGE k 0).set F.STE_ANN_PIDk_PID k pid
      let s := s.putSte { s.ste with nonces := upd s.ste.nonces k (fun _ => nonce) }
      let s := s.raise F.STE_STATUS_ANN_NEW
      s.gustKind 3 k ts (leBytes 1 w ++ leBytes 4 pid)

/-- An ANNOUNCE telegram (R338, R340). -/
def announceFrame (s : State) (f : SteFrame) : State :=
  if !f.fdf ∨ f.data.length ≠ 64 then rejectFrame s none F.STE_CONNc_ERR_OTHER
  else
    let r := engineCheck s 14 true (cidRx (s.get F.STE_ANN_CID_CID)) (f.data.take 60)
    let s := r.1
    if r.2 ≠ frameNum f 60 4 then rejectFrame s none F.STE_CONNc_ERR_CHECK
    else if frameNum f 0 1 ≠ 0x21 then rejectFrame s none F.STE_CONNc_ERR_OTHER
    else if !s.flag F.STE_CFG_ANN_EN then s
    else
      let pid := frameNum f 4 4
      match (List.range 32).find? (fun w => s.flag F.STE_WLw_CFG_VALID w && s.get F.STE_WLw_PID_PID w == pid) with
      | none => steNote s 4 0xFF 0xFF 0
      | some w =>
        match boundConn s w with
        | some c =>
          if connState s c = cnLapsed then announceEnter (connRelease s c) w pid (frameNum f 8 4) f.ts
          else steNote s 4 0xFF c (connWord s c)
        | none => announceEnter s w pid (frameNum f 8 4) f.ts

/-- A stored frame evaluated. A standby unit evaluates frames under R334 to R337 only (R341): announcements come to it from the image. -/
def steFrame (s : State) (f : SteFrame) : State :=
  match rxName s f with
  | .conn c => connFrame s c f
  | .announce => if listens s then s else announceFrame s f
  | .nobody => s

/-- A frame put in timestamp order, CAN0 before CAN1 on equal timestamps. -/
def frameInsert (f : SteFrame) : List SteFrame → List SteFrame
  | [] => [f]
  | g :: gs => if g.ts < f.ts ∨ (g.ts = f.ts ∧ g.x ≤ f.x) then g :: frameInsert f gs else f :: g :: gs

/-- Item 1 of the cores' work (R334 to R338): the pending announcements grow a cycle older, the stored frames, then the lapses. -/
def telegramBoundary (s : State) : State :=
  let s := forN 4 s (fun s k =>
    if pendValid s k && !listens s then s.set F.STE_ANN_PENDk_AGE k (min annMax (s.get F.STE_ANN_PENDk_AGE k + 1)) else s)
  let fs := s.ste.frames.filter (fun (f : SteFrame) => decide (f.ts < s.cycleStart))
  let s := s.putSte { s.ste with frames := s.ste.frames.filter (fun (f : SteFrame) => !decide (f.ts < s.cycleStart)) }
  let s := forN 64 s (fun s c => if connState s c = cnFree then s else s.bump F.STE_CONNc_STAT_AGE c)
  let s := forEach (fs.foldl (fun acc f => frameInsert f acc) []) s steFrame
  forN 64 s connLapse

/-- STE_ADMIT_RES of a port written. -/
def setAdmit (s : State) (p res reason conn : Nat) : State :=
  let s := s.set (F.STE_ADMIT_RES_RESULT.port p) 0 res
  (s.set (F.STE_ADMIT_RES_REASON.port p) 0 reason).set (F.STE_ADMIT_RES_CONN.port p) 0 conn

/-- A refused admission command, journaled. -/
def admitReject (s : State) (p reason conn : Nat) : State :=
  steNote (setAdmit s p 3 reason conn) 0 0xFF 0xFF 0

/-- A bound connection uses an RXBIT of a whitelist entry's range (R339). -/
def rangeBusy (s : State) (w : Nat) : Bool :=
  (List.range 64).any (fun c => s.flag F.STE_CONNc_STAT_BOUND c
    && rxMeet (s.get F.STE_WLw_MAP_RX_FIRST w, s.get F.STE_WLw_MAP_RX_COUNT w)
      (s.get F.STE_CONNc_MAP_RX_FIRST c, s.get F.STE_CONNc_MAP_RX_COUNT c))

/-- The parameters of a whitelist entry copied into a slot (R339). -/
def bindConn (s : State) (c w : Nat) : State :=
  let s := (s.set F.STE_CONNc_CFG_FMT c 0).set F.STE_CONNc_CFG_DUP c (s.get F.STE_WLw_CFG_DUP w)
  let s := (s.set F.STE_CONNc_CFG_WIN c (s.get F.STE_WLw_CFG_WIN w)).set F.STE_CONNc_CFG_TEXP c (s.get F.STE_WLw_CFG_TEXP w)
  let s := s.set F.STE_CONNc_CID_CID c (s.get F.STE_WLw_CID_CID w)
  let s := (s.set F.STE_CONNc_TXID_ID c (s.get F.STE_WLw_TXID_ID w)).set F.STE_CONNc_TXID_IDE c (s.get F.STE_WLw_TXID_IDE w)
  let s := (s.set F.STE_CONNc_RXID_ID c (s.get F.STE_WLw_RXID_ID w)).set F.STE_CONNc_RXID_IDE c (s.get F.STE_WLw_RXID_IDE w)
  let s := s.set F.STE_CONNc_MAP_RX_FIRST c (s.get F.STE_WLw_MAP_RX_FIRST w)
  let s := s.set F.STE_CONNc_MAP_RX_COUNT c (s.get F.STE_WLw_MAP_RX_COUNT w)
  let s := s.set F.STE_CONNc_MAP_TX_PERIOD c (s.get F.STE_WLw_MAP_TX_PERIOD w)
  let s := s.set F.STE_CONNc_TXMASK_L_MASK c (s.get F.STE_WLw_TXMASK_L_MASK w)
  let s := s.set F.STE_CONNc_TXMASK_H_MASK c (s.get F.STE_WLw_TXMASK_H_MASK w)
  let s := ((s.set F.STE_CONNc_STAT_STATE c cnSyncing).set F.STE_CONNc_STAT_WL c w).raise F.STE_CONNc_STAT_BOUND c
  let s := (s.set F.STE_CONNc_SEQ_TX_SEQ c 0).set F.STE_CONNc_SEQ_RX_SEQ c 0
  (s.set F.STE_CONNc_STAT_AGE c 0).updConn c (fun x => { x with ref := none, built := 0 })

/-- The ADMIT telegram (R339): KIND 3, PID, NONCE, slot index. -/
def sendAdmit (s : State) (pid nonce c : Nat) : State :=
  let b := leBytes 1 0x31 ++ leBytes 2 0 ++ leBytes 1 (telFlags s) ++ leBytes 4 pid ++ leBytes 4 nonce ++ leBytes 1 c ++ leBytes 47 0
  let r := engineCheck s 12 true (s.get F.STE_ANN_CID_CID) b
  let s := forEach (dupList (s.get F.STE_CFG_ANN_DUP)) r.1 (fun s x =>
    steOffer s ⟨64, x, s.get F.STE_ANN_TXID_ID, s.flag F.STE_ANN_TXID_IDE, true, b ++ leBytes 4 r.2⟩)
  steServe s

/-- An ACCEPT evaluated: the reason of the first condition that fails, else the binding (R339). -/
def admitAccept (s : State) (p w : Nat) : State :=
  if !(follows s || s.dev == .comm) then admitReject s p 1 0
  else if !(s.role == .active || (s.role == .detached && s.dev == .comm)) then admitReject s p 2 0
  else
    match pendOf s w with
    | none => admitReject s p 3 0
    | some k =>
      match (List.range 64).find? (fun c => s.get F.STE_CONNc_CFG_CLASS c == 2 && connState s c == cnFree) with
      | none => admitReject s p 4 0
      | some c =>
        if rangeBusy s w then admitReject s p 5 0
        else
          let pid := s.get F.STE_ANN_PIDk_PID k
          let nonce := nth s.ste.nonces k
          let s := pendClear (bindConn s c w) k
          let s := setAdmit (s.raise F.STE_STATUS_ADMIT_DONE) p 1 0 c
          steNote (sendAdmit s pid nonce c) 1 4 c (connWord s c)

/-- A port's admission command evaluated (R339, R340). A standby unit takes admissions, refusals and releases from the image alone (R341) and
rejects the command for its role (DEDUCED, log entry 69). -/
def admitEval (s : State) (p : Nat) : State :=
  match nth s.ste.admits p with
  | none => s
  | some a =>
    let s := s.putSte { s.ste with admits := upd s.ste.admits p (fun _ => none) }
    if listens s && (a.op == 2 || a.op == 3) then admitReject s p 2 (if a.op = 3 then a.conn else 0) else
    match a.op with
    | 1 => admitAccept s p a.wl
    | 2 =>
      match pendOf s a.wl with
      | some k => steNote (setAdmit (pendClear s k) p 1 0 0) 1 0xFF 0xFF 0
      | none => admitReject s p 3 0
    | 3 =>
      if s.get F.STE_CONNc_CFG_CLASS a.conn = 2 ∧ connState s a.conn ≠ cnFree then
        setAdmit (connRelease s a.conn) p 1 0 a.conn
      else admitReject s p 6 a.conn
    | _ => s

/-- A pending announcement of 10,000 cycles is discarded as EXPIRED (R338); in a standby unit the image discards it (R341). -/
def announceExpire (s : State) (k : Nat) : State :=
  if pendValid s k ∧ annMax ≤ s.get F.STE_ANN_PENDk_AGE k ∧ !listens s then steNote (pendClear s k) 4 0xFF 0xFF 0 else s

/-- Item 5 of the cores' work: admissions and releases, then the expiry of pending announcements. -/
def admissionsBoundary (s : State) : State :=
  let s := admitEval (admitEval s 0) 1
  let s := forN 64 s dynHold
  forN 4 s announceExpire

/-- A write of STE_ADMIT: WAITING until the boundary. -/
def admitWrite (s : State) (p op wl conn : Nat) : State :=
  if op = 0 then s
  else setAdmit (s.putSte { s.ste with admits := upd s.ste.admits p (fun _ => some ⟨op, wl, conn⟩) }) p 2 0 0

/-! ### The traction link's telegram (R298 to R302) -/

/-- What the traction link's telegram takes from a boundary snapshot (R299). -/
def tlView (s : State) : TelView := viewOf s ((List.range 3).map (fun k => s.get F.TLNK_AXSELk_AXLE_ID k))

/-- The telegram's data frozen at a boundary. -/
def tlSnapshot (s : State) : State := s.putTl { s.tl with view := some (tlView s) }

/-- Bytes 3 to 59 of the device's telegram: the data of the boundary snapshot, safe values in SAFE and COMMISSIONING (R302). -/
def tlBody (s : State) : List Byte :=
  let safe := sendsSafe s
  let v := s.tl.view.getD (tlView s)
  leBytes 1 (telFlags s) ++ leBytes 6 (if safe then 2 ^ 48 - 1 else v.occ) ++ leBytes 1 v.state
    ++ leBytes 1 (if safe then 0 else v.demand) ++ leBytes 1 (if safe then 0 else v.nax) ++ leBytes 2 v.cycle ++ v.slots

/-- A frame's 64 bytes put into sixteen data registers. -/
def putFrame (s : State) (f : Fld) (bs : List Byte) : State :=
  forN 16 s (fun s k => s.set f k (ofLeBytes ((bs.drop (4 * k)).take 4)))

/-- The frame sent: the next SEQ, its check value over the folded identity (R299, R300). -/
def tlSend (s : State) : State :=
  if !sendsLink s then s
  else
    let s := s.bumpWrap F.TLNK_SEQ_TX_SEQ
    let b := leBytes 1 0x41 ++ leBytes 2 (s.get F.TLNK_SEQ_TX_SEQ) ++ tlBody s
    let chk := crc32c (leBytes 4 (s.get F.TLNK_CONN_ID_CONN_ID) ++ b)
    putFrame s F.TLNK_TX_Wk_DATA (b ++ leBytes 4 chk)

/-- A rejected frame, with its flag of TLNK_STATUS. -/
def tlReject (s : State) (f : Fld) (bit : Nat) : State :=
  ((s.raise f).bump F.TLNK_RX_CNT_REJECTED).note 4 0x0B bit 0xFF 0

/-- The frame received (R301). -/
def tlReceive (s : State) (rx : List Byte) : State :=
  let bs := pad64 rx
  let seq := ofLeBytes ((bs.drop 1).take 2)
  let adv := (seq + 65536 - s.get F.TLNK_SEQ_RX_SEQ) % 65536
  if ofLeBytes (bs.take 1) ≠ 0x51 then tlReject s F.TLNK_STATUS_RX_TYPE 3
  else if crc32c (leBytes 4 (cidRx (s.get F.TLNK_CONN_ID_CONN_ID)) ++ bs.take 60) ≠ ofLeBytes (bs.drop 60) then
    tlReject s F.TLNK_STATUS_RX_CHECK 1
  else if !s.tl.anySeq ∧ !(1 ≤ adv ∧ adv ≤ 4) then tlReject s F.TLNK_STATUS_RX_SEQ 2
  else
    let s := (s.set F.TLNK_SEQ_RX_SEQ 0 seq).bumpWrap F.TLNK_RX_CNT_ACCEPTED
    let s := putFrame s F.TLNK_RX_Wk_DATA bs
    s.putTl { s.tl with idle := 0, anySeq := false, lapsed := false, okSince := true }

/-- The exchange of a cycle: one frame in each direction from tick 30,000, over at 33,072 (R298). -/
def tlExchange (s : State) (rx : List Byte) : State :=
  if !s.flag F.TLNK_CFG_EN ∨ !s.counting ∨ s.tl.sent = s.cycle + 1 then s
  else
    let s := s.advanceTo (s.cycleStart + 33072)
    let s := s.putTl { s.tl with sent := s.cycle + 1 }
    tlReceive (tlSend s) rx

/-- No frame has been accepted for TEXP cycles (R301). -/
def rxLapse (s : State) : State :=
  if s.flag F.TLNK_CFG_EN && s.counting && !s.tl.lapsed && decide (s.get F.TLNK_CFG_TEXP ≤ s.tl.idle) then
    let s := (s.raise F.TLNK_STATUS_RX_LAPSE).bump F.TLNK_RX_CNT_LAPSES
    let s := s.putTl { s.tl with lapsed := true, anySeq := true, okSince := false }
    let s := if s.flag F.TLNK_CFG_RX_STOP then s.raise F.TLNK_PIN_RSTOP else s
    s.note 0 0x0B 0 0xFF 0
  else s

/-- The boundary's work on the channel: a withdrawal ends after an accepted frame, a cycle in which none was accepted is counted. -/
def tlBoundary (s : State) : State :=
  if !s.flag F.TLNK_CFG_EN ∨ !s.counting then s
  else
    if s.tl.okSince then (s.lower F.TLNK_PIN_RSTOP).putTl { s.tl with idle := 0, okSince := false }
    else rxLapse (s.putTl { s.tl with idle := s.tl.idle + 1 })

end Sys2Proof.Machine
end

