-- ==== Sys2Proof/Machine/Startup.lean ====
section
/-!
DEFINITION. Power, resets, boot and start-up (18_power_clock_startup.md): R398, R399, R403 to R414, and the load at BOOT
(R238).
-/

namespace Sys2Proof.Machine

/-! ### Resets (R406, R407) -/

/-- Causes of CRU_RST_CAUSE. -/
def rcPower : Nat := 1
def rcPin : Nat := 2
def rcCommand : Nat := 3
def rcClock : Nat := 4
def rcPll : Nat := 5

/-- A reset: every register and every state as after reset; flash, the cause with its count, the pins of the outside world
and the commands that wait remain (R407). -/
def enterReset (s : State) (cause : Nat) : State :=
  let n := if cause = rcPower then 0 else satInc 8 (s.get F.CRU_RST_CAUSE_RESETS)
  let r := { State.reset with flash := s.flash, ext := { s.ext with lowSince := 0, roseIn := none }, pending := s.pending, freeCtr := s.freeCtr }
  (r.set F.CRU_RST_CAUSE_CAUSE 0 cause).set F.CRU_RST_CAUSE_RESETS 0 n

/-- VIN_START in steps of 10 mV: from 9.0 V to 9.5 V (R398). -/
def vinStart : Nat := 900 + min 50 Config.vinStart

/-- VIN rises on an unpowered device: above VIN_START it is powered and its power-on reset releases. -/
def powerOn (s : State) (vin : Nat) : State :=
  if s.ext.powered ∨ vin ≤ vinStart then s
  else enterReset (s.putExt { s.ext with powered := true }) rcPower

/-- VCORE has fallen below 0.30 V: the device is unpowered and in RESET (R406, R397). -/
def powerDown (s : State) : State :=
  enterReset (s.putExt { s.ext with powered := false }) rcPower

/-- A low pulse on RESET_N, its length in units of 0.1 µs (R406): 5 µs or more resets, 1 µs or less does not, between them
the device may do either. -/
def resetPin (s : State) (dur : Nat) : State :=
  if !s.ext.powered ∨ dur ≤ 10 then s
  else if 50 ≤ dur then enterReset s rcPin
  else
    let t := s.fresh
    if (Config.pulseResets s.freeCtr) then enterReset t rcPin else t

/-- A patch verifies: it names the ROM revision, and its signature under the key in ROM holds over the SHA-256 digest of what it
carries (R276; the order of its parts is a DESIGN CHOICE, log entry 102). -/
def patchGood (s : State) (p : Patch) : Bool :=
  p.rom.toNat == s.get F.SPU_FW_ROM_REV
    && ecdsaP256 (sha256 (leBytes 1 p.level.toNat ++ leBytes 2 p.rom.toNat ++ p.code)) p.signature

/-- Every patch of the flash verifies. -/
def patchesGood (s : State) : Bool := s.flash.patches.all (patchGood s)

/-- The patch level applied: the highest level of the patches, which are applied all or none (DESIGN CHOICE, log entry 102). -/
def patchLevel (s : State) : Nat := if patchesGood s then (s.flash.patches.map (·.level.toNat)).foldl max 0 else 0

/-- Reset is released (R409, R276, R346), before the PLL locks, while no tick is counted (R402): the resonator qualified, the patches verified, the memories filled with zeros,
ROLE_PREF read. Without the resonator BOOT does not begin; the patch area may have been programmed since (log entry 102). -/
def resetRelease (s : State) (patches : Option (List Patch)) (qualified : Bool) : State :=
  if !s.ext.powered ∨ s.boot.stage ≠ 0 ∨ !qualified then s
  else
    let s := s.putFlash { s.flash with patches := patches.getD s.flash.patches }
    let level := patchLevel s
    let good := patchesGood s
    let s := (s.set F.SPU_FW_PATCH_LVL 0 level).setFlag F.SPU_FW_PATCH_OK 0 good
    let s := (s.setFlag F.SPU_STATUS_PATCH_ERR 0 (!good)).setFlag F.URED_STATE_PREF 0 s.ext.prefGnd
    ((s.putBoot { s.boot with stage := 1 }).putSpu { s.spu with patchBad := !good }).putMem []

/-- The root PLL locks, and the tick is counted from here on (R402; R40, R238 step 1): the timestamp starts at 0, the ports answer, BOOT_SLOT and the start-up reading of
the seal switches are taken. -/
def pllLock (s : State) (r : List (BitVec 16)) : State :=
  if s.boot.stage ≠ 1 then s
  else
    let s := ((s.putNow 0).putCycle 0).putBoot { s.boot with stage := 2 }
    let s := s.putExt { s.ext with lowSince := 0, roseIn := none }
    let s := syncSlots (takeReading (s.raise F.CRU_CLK_PLL_LOCK) r)
    let v := sealReading r
    let s := s.putBoot { s.boot with sealStart := if v.2 = 0 then some v.1 else none }
    s.set F.CFG_SEAL_EXPECT_STARTUP 0 v.1

/-! ### The load at BOOT (R238, R264, R276) -/

/-- The load ends, and with it the virtual points take their states (R29); a refused one, also in step 8, puts none of the staged values into force, whose DEPTH_LOW of step 7 stands: steps 2 to 9 on the slot that BOOT_SLOT names, with the second reading of the switches, the cores that
failed their boot self-test, and the frame at which the flash could not be read. -/
def loadEnd (s : State) (r : List (BitVec 16)) (fails : Nat) (readErr : Option (BitVec 11)) : State :=
  let file := nth s.flash.slots s.flash.boot
  if s.boot.stage ≠ 2 ∨ s.dev ≠ .boot then s
  else
    match readErr, loadSlot s s.boot.sealStart file with
    | some f, _ => enterSafe (loadRefused s (readRefused s s.boot.sealStart file f.toNat)) 1
    | none, .error e => enterSafe (loadRefused s e) 1
    | none, .ok n =>
      let v := sealReading r
      let chg := v.2 ≠ 0 ∨ s.boot.sealStart ≠ some v.1
      let n := takeReading (if chg then (if n.flag F.CFG_STATUS_DEPTH_LOW then depthNote (s.raise F.CFG_STATUS_DEPTH_LOW) else s) else n) r
      let n := forN 3 n (fun n k => if bitAt fails k then (n.raise F.SPU_COREk_CNT_FAILED k).note 0 0x10 0xFF k 0 else n)
      let n := n.putSpu { n.spu with bootFail := fails % 8 }
      let t := if chg then loadRefused (n.raise F.CFG_STATUS_SEAL_CHG) ⟨.sealChg, noFrame⟩ else forN 8 n vcpStart
      if fails % 8 ≠ 0 then enterSafe t 8
      else if s.spu.patchBad then enterSafe t 9
      else if chg then enterSafe t 1
      else
        let n := forN 24 t dcTrim
        let n := ((n.raise F.CFG_STATUS_LOADED).set F.CFG_STATUS_SOURCE 0 s.flash.boot).note 2 0x12 0xFF 0xFF 0
        let n := syncSources (n.set F.FAB_SCRUB_WORD 0 0)
        linkSync (if bitAt v.1 15 then (n.raise F.DEV_STATE_BOOT_WAIT).putBoot { n.boot with stage := 4 }
          else n.putBoot { n.boot with stage := 3 })

/-! ### Entry to STARTUP and to COMMISSIONING (R410, R411) -/

/-- A section's first episode (R167, R410): DISTURBED with cause STARTUP; an unused section is CLEAR (R165). -/
def startSection (s : State) (n : Nat) : State :=
  let s := s.raise F.LEDG_SECn_COVER_LOST n
  if !secUsed s n then (s.set F.SECT_n_STATE_STATE n 0).set F.SECT_n_STATE_CAUSE n 0
  else
    let s := ((clockForget s n).set F.SECT_n_STATE_STATE n 2).set F.SECT_n_STATE_CAUSE n Cause.startup.code
    let s := (s.set F.SECT_n_STATE_CAUSE_CP n noCp).lower F.SECT_n_STATE_MULTI n
    let s := (s.lower F.SECT_n_STATE_SINGLE n).raise F.LEDG_SECn_EVID n
    let s := raiseShared (s.updSec n (fun x => { x with touched := true, watch := none })) F.SECT_STATUS_DIST_NEW 1
    secNote s n 0

/-- A connection as counting starts: STATIC SYNCING, DYNAMIC_SLOT FREE (R332, R410). -/
def startConn (s : State) (c : Nat) : State :=
  let s := s.set F.STE_CONNc_STAT_STATE c (if s.get F.STE_CONNc_CFG_CLASS c = 1 then cnSyncing else cnFree)
  s.updConn c (fun _ => default)

/-- A point as counting starts: BLIND for the settling of R55 with no cause at entry or exit; in ALTERNATING mode a normal frame, and
with it a pair, begins where the boundary is a multiple of 1,000 (R411). -/
def startPoint (cal : Bool) (s : State) (p : Nat) : State :=
  let mode := s.get F.EXC_CARRIER_SPn_MODE p
  let s := s.updPoint p (fun q => { q with calAlt := cal && (mode == mMatched || mode == mAlternating), quietSince := s.now })
  let s := calReset s p
  if excMode s p = mOff then s
  else
    let s := s.updPoint p (fun q => { q with blind := true, blindSince := s.now, blindExc := false, blindTo := false, altSince := s.now, settle := [settleFrom s.now] })
    if excMode s p = mAlternating ∧ s.cycle % 1000 = 0 then calFrameBegin (calFrameBegin s (2 * p) false) (2 * p + 1) false else s

/-- Counting begins (R410): sections, connections, points, encoder windows, virtual points (R29). -/
def startCounting (s : State) (cal : Bool) : State :=
  let s := forN 64 (forN 48 s startSection) startConn
  let s := forN 24 s (startPoint cal)
  forN 8 (forN 4 s (fun s q => s.updEnc q (fun e => { e with winFrom := s.now }))) vcpStart

/-- The least multiple of `m` at or after `k`. -/
def nextMultiple (m k : Nat) : Nat := (k + m - 1) / m * m

/-- A partner is on the Luarin link. -/
def hasPartner (s : State) : Bool := s.flag F.URED_CFG_PAIR_EN && s.flag F.URED_STATE_LINK_UP

/-- The partner drives in its configured modes, as its images show (R411): ACTIVE in OPERATIONAL or SQUALL, or in STARTUP and past its kc,
reckoned from the first image that showed it there (DEDUCED, log entry 70). -/
def partnerDrives (s : State) : Bool :=
  match s.link.lastImage with
  | some i =>
    i.role == Role.active.code && (i.dev == Dev.oper.code || i.dev == Dev.squall.code
      || (i.dev == Dev.startup.code
        && s.link.startSeen.any (fun k => decide (nextMultiple 1000 k + 1000 * s.get F.EXC_MODE_CAL_PAIRS ≤ i.cycle))))
  | none => false

/-- Progress of start-up (CRU_START). -/
def phCalWait : Nat := 1
def phCal : Nat := 2
def phSettle : Nat := 3
def phSweep : Nat := 4
def phDone : Nat := 5

/-- The phase of start-up at the running boundary. -/
def startPhase (s : State) : Nat :=
  if s.cycle < s.boot.k0 then phCalWait else if s.cycle < s.boot.kc then phCal
  else if s.cycle < s.boot.ks then phSettle else phSweep

/-- The boundaries of start-up from the boundary of entry (R411, R413); a listening standby skips calibration. -/
def planStart (s : State) (skip : Bool) : State :=
  let k0 := if skip then s.cycle else nextMultiple 1000 s.cycle
  let kc := if skip then s.cycle else k0 + 1000 * s.get F.EXC_MODE_CAL_PAIRS
  let ks := nextMultiple 50 (kc + 3)
  let s := s.putBoot
    { s.boot with entry := s.cycle, k0 := k0, kc := kc, ks := ks, swept := [], sweepOk48 := false, sweepOk49 := false }
  s.set F.CRU_START_PHASE 0 (startPhase s)

/-- The cycle numbering of a driving partner taken over exactly (R348), with the count at its boundary; what is measured from an earlier
tick keeps its age as far as the new count reaches back, and the boundary's input sample, already taken, is not taken again. -/
def takeNumbering (s : State) : State :=
  match s.link.marker with
  | some m => if s.cycle = m.1 then s else
    let new := m.1 * cycleTicks
    let shift := fun (t : Nat) => t + new - s.now
    let age := fun (c : Nat) => c + m.1 - s.cycle
    let s := { s with hosts := s.hosts.map (fun (h : PortState) => { h with resetAt := h.resetAt.map shift })
                      indicAt := if s.indicAt = 0 then 0 else age s.indicAt }
    let s := s.putExt { s.ext with lowSince := shift s.ext.lowSince, roseIn := s.ext.roseIn.map shift }
    let s := (s.putLink { s.link with rose := shift s.link.rose }).putBcw { s.bcw with armed := s.bcw.armed.map shift, clock := [] }
    let s := s.putSpu { s.spu with grantEnd := shift s.spu.grantEnd, trans := s.spu.trans.map (fun (l : List Nat) => l.map age) }
    let s := s.putRestores { s.restores with
      direct := s.restores.direct.map (fun (d : Option DirectEntry) => d.map (fun e => { e with tick := shift e.tick })) }
    let s := s.putFab { s.fab with clock := [], timers := s.fab.timers.map (fun (x : Nat × Nat) => (x.1, shift x.2)) }
    ((s.putCycle m.1).putNow new).putSio { s.sio with nextSample := new / 6000 + 1 }
  | none => s

/-- The channels of points in MATCHED or ALTERNATING mode. -/
def toneChans (s : State) : List Nat :=
  (List.range 48).filter (fun c => s.get F.EXC_CARRIER_SPn_MODE (c / 2) ≤ mAlternating)

/-- CAL_MISS at kc for every channel that calibration should have served and that has no accepted pair (R412). -/
def calMissed (s : State) : State :=
  let miss := (toneChans s).filter (fun c => !s.flag F.MEAS_CHn_CFG_OFFS_VALID c)
  forEach miss s (fun s c => (s.raise F.CRU_STATUS_CAL_MISS).note 0 0x13 2 c 0)

/-- Entry to STARTUP at the boundary (R410), with the role of R346; a unit that arrives as STANDBY takes the partner's
numbering over and has no copy yet; one that skips calibration has its kc at this boundary (R411, R412). The first frame of the traction link is accepted with any SEQ (R301). -/
def startupEntry (s : State) : State :=
  if s.boot.stage ≠ 3 ∨ !atBoundary s ∨ s.dev ≠ .boot then s
  else
    let partner := hasPartner s
    let skip := partner && partnerDrives s
    let s := if partner then takeNumbering s else s
    let s := (s.putBoot { s.boot with stage := 5 }).putLink { s.link with enteredAt := s.cycle, resync := b2n partner }
    let s := setRole (setDev s .startup) (if partner then .standby else .active)
    let s := (planStart s skip).setFlag F.CRU_START_SKIPPED_CAL 0 skip
    let s := startCounting (s.putTl { s.tl with anySeq := true }) (!skip)
    if skip then calMissed s else s

/-- Entry to COMMISSIONING (R380, R410): both ports hold ENTER_COMM and the wait of step 9 has begun. -/
def commissioningEntry (s : State) : State :=
  if s.boot.stage ≠ 4 ∨ !atBoundary s ∨ s.dev ≠ .boot ∨ !s.flag F.DEV_CMD_STAT_ENTER_A ∨ !s.flag F.DEV_CMD_STAT_ENTER_B then s
  else
    let s := (s.lower F.DEV_STATE_BOOT_WAIT).putBoot { s.boot with stage := 5 }
    startCounting (setDev s .comm) false

/-! ### Calibration and sweep (R411 to R414) -/

/-- A point leaves start-up calibration for its configured mode (R411 step 4). -/
def calLeave (s : State) (p : Nat) : State :=
  if !(s.point p).calAlt then s
  else
    let s := s.updPoint p (fun q => { q with calAlt := false })
    if s.get F.EXC_CARRIER_SPn_MODE p = mAlternating then s else excChange (calReset s p) p s.now .cpBlind

/-- The end of start-up calibration at kc (R411, R412). -/
def calEnd (s : State) : State :=
  if s.dev ≠ .startup ∨ !atBoundary s ∨ s.cycle ≠ s.boot.kc ∨ !(s.points.any (fun q => q.calAlt)) then s
  else
    forN 24 (calMissed s) calLeave

/-- The sweep has measured every channel and the tone path in this rotation (R413). -/
def sweepWhole (s : State) : Bool :=
  (toneChans s).all (fun c => s.boot.swept.contains c) && s.boot.sweepOk48 && s.boot.sweepOk49

/-- Entry to OPERATIONAL (R414). -/
def operational (s : State) : State :=
  let s := (setDev s .oper).set F.CRU_START_PHASE 0 phDone
  let s := s.set40 F.CRU_OPER_TS_L_TS 0 (ts40 s.now)
  s.putSpu { s.spu with ptDue := some (s.cycle + 600000) }

/-- A rotation of the sweep ends at the boundary (R413, R414): complete, or the fourth. A Squall cause raised in STARTUP takes
the device to SAFE at this boundary instead (R269). -/
def sweepBoundary (s : State) : State :=
  if s.dev ≠ .startup ∨ !s.spu.raised.isEmpty ∨ s.cycle ≤ s.boot.ks ∨ (s.cycle - s.boot.ks) % 50 ≠ 0 ∨ s.get F.CRU_START_ROTATIONS = (s.cycle - s.boot.ks) / 50
  then s
  else
    let s := s.set F.CRU_START_ROTATIONS 0 ((s.cycle - s.boot.ks) / 50)
    if sweepWhole s then operational s
    else if 4 ≤ (s.cycle - s.boot.ks) / 50 then
      let late := (toneChans s).filter (fun c => !s.boot.swept.contains c)
      let s := (s.raise F.CRU_STATUS_SWEEP_LATE).note 0 0x13 3 0xFF 0
      operational (forEach late s (fun s c => s.note 0 0x13 3 c 0))
    else s.putBoot { s.boot with sweepOk48 := false, sweepOk49 := false }

/-- The start-up's boundary work: phase, pairs done, the end of calibration, the sweep. -/
def startBoundary (s : State) : State :=
  if s.dev ≠ .startup then s
  else
    let s := s.set F.CRU_START_PHASE 0 (startPhase s)
    let done := if s.cycle < s.boot.k0 then 0 else (min s.cycle s.boot.kc - s.boot.k0) / 1000
    let s := calEnd (s.set F.CRU_START_PAIRS_DONE 0 (min 15 done))
    let s := if s.cycle = s.boot.ks then (s.putBoot { s.boot with swept := [], sweepOk48 := false, sweepOk49 := false }) else s
    sweepBoundary s

/-! ### Supply and clocks (R399, R403, R404) -/

/-- The measurement of VIN at a boundary. -/
def vinBoundary (s : State) (vin : Nat) : State :=
  let v := vin % 65536
  let s := (s.set F.CRU_VIN_VIN 0 v).set F.CRU_VIN_VIN_MIN 0 (min v (s.get F.CRU_VIN_VIN_MIN))
  if v < 900 then (s.raise F.CRU_STATUS_VIN_LOW).note 0 0x13 4 0xFF 0 else s

/-- A monitor's state field, window count and failure flag: monitor A or B. -/
def monSt (b : Bool) : Fld := if b then F.CRU_CLK_MONB_ST else F.CRU_CLK_MONA_ST
def monCount (b : Bool) : Fld := if b then F.CRU_MONB_COUNT else F.CRU_MONA_COUNT
def monWindows (b : Bool) : Fld := if b then F.CRU_MONB_WINDOWS else F.CRU_MONA_WINDOWS
def monFail (b : Bool) : Fld := if b then F.CRU_STATUS_MONB_FAIL else F.CRU_STATUS_MONA_FAIL

/-- A window of an enabled monitor ends: count and class (R403). -/
def monWindow (s : State) (b : Bool) (count : Nat) : State :=
  if s.get (monSt b) = 2 then s
  else
    let s := (s.set (monCount b) 0 count).bumpWrap (monWindows b)
    s.set (monSt b) 0 (if 6021 ≤ count ∧ count ≤ 6267 then 0 else 1)

/-- A monitor fails: DISABLED, its flag, a journal entry. -/
def monDisable (s : State) (b : Bool) : State :=
  ((s.set (monSt b) 0 2).raise (monFail b)).note 0 0x13 (b2n b) 0xFF 0

/-- The combination of the two latest classes (R403, R404): a clock fault resets; one failed monitor is a Squall cause; the
failure of the other forces every demand to 0 and is the second fault. -/
def monDecide (s : State) : State :=
  let a := s.get F.CRU_CLK_MONA_ST
  let b := s.get F.CRU_CLK_MONB_ST
  let one := fun (s : State) (m : Bool) => raiseSquall ((monDisable s m).raise F.CRU_CLK_CLK_SQ) 4
  let second := fun (s : State) (m : Bool) =>
    let s := monDisable s m
    let s := s.putSpu { s.spu with clkForce := true }
    if follows s then safeLater (s.set F.SPU_SQ_SECOND 0 4) 4 else s
  if a = 1 ∧ b = 1 then enterReset s rcClock
  else if a = 0 ∧ b = 1 then one s true
  else if a = 1 ∧ b = 0 then one s false
  else if a = 1 ∧ b = 2 then second s false
  else if a = 2 ∧ b = 1 then second s true
  else s

/-- A monitor completes a window, the other's window ending within the same reference period where one is given. -/
def monitorWindow (s : State) (b : Bool) (count : Nat) (other : Option Nat) : State :=
  if !s.portsUp then s
  else
    let s := monWindow s b count
    monDecide (match other with | some c => monWindow s (!b) c | none => s)

/-- The lock detector reports a loss of lock (R404). -/
def pllLoss (s : State) : State := if s.portsUp then enterReset s rcPll else s

end Sys2Proof.Machine
end

