-- ==== Sys2Proof/Machine/Pairing.lean ====
section
/-!
DEFINITION. Active and standby units (15_unit_pairing.md, R342 to R365): the interlock, the Luarin link, the copy of the
active unit's image, the comparison of decisions and the verdict exchange, readiness, takeover, take-back and handover.
-/

namespace Sys2Proof.Machine

/-! ### Frames received (R349 to R352) -/

/-- The unit takes the partner's cycle image in: as STANDBY, and in BOOT, where R346 and R411 ask what it shows. -/
def hears (s : State) : Bool := listens s || (s.dev == .boot && s.flag F.URED_CFG_PAIR_EN)

/-- The frames of a cycle image start anew with a frame of another cycle; each takes its place in the set by its FRAME_NO, in whatever
order a frame sent again brings them (R349). -/
def setBegin (l : Link) (f : LinkFrame) : Link :=
  let m := if l.setCycle = f.cycle ∧ l.got ≠ [] then l
    else { l with img := [], content := none, setCycle := f.cycle, got := [], setEnd := none }
  if m.got.contains f.frameNo then m else { m with got := f.frameNo :: m.got }

/-- Every frame of the set has come: those that the END frame counts, itself among them. -/
def setWhole (l : Link) : Bool :=
  match l.setEnd with
  | some e => (List.range e.1).all (fun i => l.got.contains i)
  | none => false

/-- Ledger records written to the copy: slot and its 96 bytes. -/
def copyRecs (l : Link) (recs : List (Nat × List Byte)) : Link :=
  { l with copyMem := recs.foldl (fun m r =>
      if r.1 < 4096 then storePutBytes m (recAddr r.1) ((r.2 ++ List.replicate 96 0).take 96) else m) l.copyMem }

/-- The bytes of the cycle image, its frames in their order. -/
def setBytes (l : Link) : List Byte :=
  (List.range (l.setEnd.getD (0, 0)).1).flatMap (fun i => ((l.img.find? (fun x => x.1 == i)).map (·.2)).getD [])

/-- The set of a cycle is complete: the copy of the cycle image, the acknowledgement, one refresh slice more (R351, R352). -/
def setComplete (s : State) (crc : Nat) : State :=
  let l := s.link
  let k := l.setCycle % 64
  let n := if (l.lastSlice + 1) % 64 = k then min 64 (s.get F.URED_SYNC_SLICES + 1) else 1
  let s := s.set F.URED_CRC_PARTNER_CRC 0 crc
  let s := if l.resync = 2 then s.set F.URED_SYNC_SLICES 0 n else s
  s.updLink (fun l => { l with copyImg := setBytes l, image := l.content, ack := l.setCycle, lastSlice := k, got := [] })

/-! ### The outcome of a verdict exchange (R355, R356) -/

/-- The exchange ends. -/
def exchangeEnd (s : State) : State :=
  (s.set F.URED_RUN_VERDICT_ST 0 0).updLink (fun l => { l with reqAt := none, own := none, part := none })

/-- UNEXPLAINED_DIVERGENCE (R356). -/
def diverge (s : State) : State :=
  let s := ((distAll s .divergence).raise F.URED_STATUS_FORCE_STOP).raise F.URED_STATUS_DIVERGE
  let s := ured (s.bump F.URED_CNT_DIVERGENCES) 2
  if s.role = .standby then s.updLink (fun l => { l with resync := 1 }) else s

/-- A NOT_READY standby has lost its partner: it stays STANDBY and drives nothing until reset (R358). -/
def partnerLost (s : State) : State :=
  ured ((s.raise F.URED_STATUS_PARTNER_LOST).updLink (fun l => { l with lost := true, decided := false })) 6

/-- A takeover decided at the boundary (R358): a READY standby will claim; a NOT_READY one has lost its partner. -/
def decideTakeover (s : State) : State :=
  if s.link.decided ∨ s.link.lost ∨ s.flag F.URED_STATE_CLAIM then s
  else if s.flag F.URED_STATE_READY then s.updLink (fun l => { l with decided := true, claimKind := 0 })
  else partnerLost s

/-- The outcome at B + 2 (R355), on the unit's own verdict and the partner's. -/
def outcome (s : State) (standby mismatching own part : Bool) : State :=
  let s := (s.setFlag F.URED_RUN_PART_FAULT 0 part).updLink (fun l => { l with ended := s.cycle + 1 })
  let s := readyBoundary (exchangeEnd s)
  let active := if standby then part else own
  let other := if standby then own else part
  if !mismatching then ured s 0xFF
  else if active then (if standby then decideTakeover s else s)
  else if other then (if standby then s.updLink (fun l => { l with resync := 1 }) else s)
  else diverge s

/-- The active unit's outcome at B + 2 (R355): whether the comparison at B + 2 still mismatches it hears in the STATUS frame of that cycle,
and not before, so that the outcome comes with that frame (DEDUCED, log entry 67). The request in it belongs to the exchange that ends. -/
def verdictStatus (s : State) (st : PartnerStatus) : State :=
  match s.role, s.link.reqAt, s.link.own, s.link.part with
  | .active, some b, some o, some p =>
    if s.cycle = b + 2 then
      outcome (s.updLink (fun l => { l with status := some { st with verdictReq := false } })) false st.verdictReq o p
    else s
  | _, _, _, _ => s

/-! ### Frames of the partner -/

/-- A STATUS frame of the partner (R351). -/
def statusFrame (s : State) (st : PartnerStatus) : State :=
  let s := s.setFlag F.URED_STATE_PARTNER_READY 0 st.ready
  let s := (s.set F.URED_STATE_PARTNER_ROLE 0 st.role).set F.URED_STATE_PARTNER_STATE 0 st.dev
  let owed := s.link.owed.filter (fun (o : Nat × Nat) => o.2 == 0 || decide (st.ack + 1 < o.2))
  let s := s.updLink (fun l => { l with status := some st, statusMissed := 0, owed := owed })
  let s := if s.link.reqAt.isSome ∧ st.verdict.isSome then s.set F.URED_RUN_VERDICT_ST 0 2 else s
  verdictStatus s st

/-- What a complete image tells at once: the partner's role and state, its verdict. -/
def imageSeen (s : State) : State :=
  match s.link.image with
  | none => s
  | some i =>
    let s := (s.set F.URED_STATE_PARTNER_ROLE 0 i.role).set F.URED_STATE_PARTNER_STATE 0 i.dev
    if s.link.reqAt.isSome ∧ i.verdict.isSome then s.set F.URED_RUN_VERDICT_ST 0 2 else s

/-- A frame of the partner's set taken in, and the set completed where it is whole. -/
def setFrame (s : State) (f : LinkFrame) (put : Link → Link) : State :=
  if !hears s then s
  else
    let s := (s.updLink (fun l => put (setBegin l f))).setFlag F.URED_SYNC_BACKLOG 0 f.backlog
    if setWhole s.link then imageSeen (setComplete s (s.link.setEnd.getD (0, 0)).2) else s

/-- An accepted frame applied by its TYPE. -/
def frameApply (s : State) (f : LinkFrame) : State :=
  match f.payload with
  | .image bytes content =>
    setFrame s f (fun l => { l with img := storeInsert l.img f.frameNo bytes, content := l.content.or content })
  | .delta recs => setFrame s f (fun l => copyRecs l recs)
  | .refresh recs => setFrame s f (fun l => copyRecs l recs)
  | .endFrame count crc => setFrame s f (fun l => { l with setEnd := some (count, crc) })
  | .status st => statusFrame s st
  | .other => s

/-- A link frame (R349): discarded when its CRC fails or its TYPE is undefined, else counted and applied. -/
def linkFrame (s : State) (f : LinkFrame) : State :=
  if !s.flag F.URED_STATE_LINK_UP ∨ !s.flag F.URED_CFG_PAIR_EN then s
  else if !f.crcOk ∨ f.payload = .other then
    let s := (s.bump F.URED_LINK_CRC_ERR).updLink (fun l => { l with discards := l.discards + 1 })
    if 16 ≤ s.link.discards then linkDown s else s
  else
    let s := s.bumpWrap F.URED_LINK_FRAMES
    frameApply (if f.resent then s.bump F.URED_LINK_RESENT else s) f

/-! ### The unit's own image (R350) -/

/-- The levels that the unit drives: SOUT0 to SOUT11, then TL_PERMIT, TL_STILL, TL_STOP_N (the numbering of URED_MM). -/
def driveLevels (s : State) : Nat :=
  s.lines.sout + 2 ^ 12 * b2n s.lines.tlp + 2 ^ 13 * b2n s.lines.still + 2 ^ 14 * b2n s.lines.stopN

/-- A section as the cycle image shows it. -/
def secImage (s : State) (n : Nat) : SecImage :=
  { state := s.get F.SECT_n_STATE_STATE n, count := s.get F.SECT_n_CNT_COUNT n, sweep := s.get F.SECT_n_CNT_SWEEP_AXLES n
    cause := s.get F.SECT_n_STATE_CAUSE n, causeCp := s.get F.SECT_n_STATE_CAUSE_CP n
    single := s.flag F.SECT_n_STATE_SINGLE n, multi := s.flag F.SECT_n_STATE_MULTI n
    early := s.flag F.SECT_n_STATE_EARLY n, evid := s.get F.LEDG_SECn_EVID n }

/-- The ID_READY bits of the sections. -/
def idReadyBits (s : State) : Nat := maskOf 48 (fun n => s.flag F.SECT_n_STATE_ID_READY n)

/-- The cycle image of the boundary's snapshot; the verdict of an exchange stands in images B + 1 and B + 2 (R355). -/
def ownImage (s : State) : CycleImage :=
  { cycle := s.cycle, dev := s.dev.code, role := s.role.code
    verdict := match s.link.said with | some v => if s.cycle ≤ v.1 + 2 then some v.2 else none | none => none
    tbAck := s.link.tbAck, agree := idReadyBits s
    frontEnd := (List.range 48).map (chState s) ++ s.points.map (fun (p : Point) => p.seq.code)
      ++ (List.range 32).map (cpState s) ++ s.points.map (fun (p : Point) => b2n p.pend.isSome)
    secs := (List.range 48).map (secImage s)
    motion := (List.range 48).map (fun n => b2n (secLull s n)) ++ s.points.map (fun (p : Point) => b2n p.lull)
      ++ (List.range 24).map (fun p => s.get40 F.SPOS_SPn_SPEED_L_SPEED p)
      ++ s.encs.map (fun (e : EncPort) => ofSigned 40 e.count) ++ (List.range 4).map (fun q => s.get F.DENC_PORTn_STAT_STATE q)
      ++ (List.range 16).map (fun k => s.get F.DENC_CMPk_STAT_ARMED k)
    sout := s.get F.FAB_OUTDEM_SOUT_SNAP, tlp := s.flag F.FAB_OUTDEM_TLP_SNAP, tls := s.flag F.FAB_OUTDEM_TLS_SNAP
    tx := s.get F.FAB_TXBIT0_TX + 2 ^ 32 * s.get F.FAB_TXBIT1_TX, hst := s.get F.FAB_HSTAT_HST
    safetyIo := (List.range 16).map (pairWord s) ++ (List.range 12).map (outWord s)
    drive := driveLevels s
    commits := s.link.commits, restores := s.link.restores
    directs := s.restores.direct.map (fun (d : Option DirectEntry) => d.map (fun e => (e.sec, e.token, e.tick)))
    conns := (List.range 64).map (fun c => ⟨connState s c, s.get F.STE_CONNc_STAT_WL c, s.flag F.STE_CONNc_STAT_BOUND c,
      s.get F.STE_CONNc_SEQ_TX_SEQ c⟩)
    pends := (List.range 4).map (fun k => ⟨pendValid s k, s.get F.STE_ANN_PENDk_WL k, s.get F.STE_ANN_PIDk_PID k,
      s.get F.STE_ANN_PENDk_AGE k, nth s.ste.nonces k⟩)
    tlSeq := s.get F.TLNK_SEQ_TX_SEQ, sqElapsed := s.get F.SPU_SQ_ELAPSED_CYCLES, kaPos := s.cycle }

/-! ### What the active unit sends (R350, R351) -/

/-- The cells of the ledger in working memory. -/
def ledgCells (s : State) : List Host.Cell :=
  s.mem.filter (fun (c : Host.Cell) => decide (ledgBase ≤ c.1) && decide (c.1 < ledgBase + 96 * 4096))

/-- Slots of cells that one list holds and the other does not. -/
def cellSlots (a b : List Host.Cell) : List Nat :=
  (a.filter (fun (c : Host.Cell) => !b.contains c)).map (fun (c : Host.Cell) => (c.1 - ledgBase) / 96)

/-- A slot joins the owed ones, not yet sent. -/
def oweSlot (l : List (Nat × Nat)) (i : Nat) : List (Nat × Nat) := storeInsert l i 0

/-- A list in pieces of at most `n`. -/
def pieces {α : Type} (n : Nat) : Nat → List α → List (List α)
  | 0, _ => []
  | _, [] => []
  | k + 1, l => l.take n :: pieces n k (l.drop n)

/-- The records of ledger slots as DELTA and REFRESH frames carry them, 40 to a frame. -/
def recFrames (s : State) (slots : List Nat) : List (List (Nat × List Byte)) :=
  pieces 40 13 (slots.map (fun i => (i, storeGetBytes s.mem (recAddr i) 96)))

/-- The frames of a boundary (R350): the cycle image in IMAGE frames, the slots `go` in DELTA frames, the refresh slice of the cycle, and
the END frame with the frame count, itself counted, and the CRC. -/
def framesOf (s : State) (img : List Byte) (go : List Nat) (crc : Nat) (backlog : Bool) : List LinkFrame :=
  let images := match pieces 4096 16 img with | [] => [[]] | l => l
  let slice := (List.range 64).map (fun i => 64 * (s.cycle % 64) + i)
  let body := (indexed 0 images).map (fun x => LinkPayload.image x.2 (if x.1 + 1 = images.length then s.link.sentImage else none))
    ++ (recFrames s go).map LinkPayload.delta ++ (recFrames s slice).map LinkPayload.refresh
  (indexed 0 (body ++ [.endFrame (body.length + 1) crc])).map (fun x => ⟨true, backlog, false, x.1, s.cycle, x.2⟩)

/-- Step 4 of R42 in the active unit: the ledger slots changed since the last boundary join the owed ones, at most 512 go
out in slot order, BACKLOG stands while others remain; the frames of R350 are formed. The bytes of the cycle image are free (log entry
18). -/
def linkSend (s : State) : State :=
  if !pairing s ∨ s.role ≠ .active ∨ !s.flag F.URED_STATE_LINK_UP then s
  else
    let cur := ledgCells s
    let l := s.link
    let owed := (cellSlots cur l.prevLedg ++ cellSlots l.prevLedg cur).foldl oweSlot l.owed
    let go := (owed.take 512).map (fun (o : Nat × Nat) => (o.1, if o.2 = 0 then s.cycle + 1 else o.2))
    let s := s.updLink (fun l => { l with prevLedg := cur, owed := go ++ owed.drop 512, sentSlots := go.map (·.1) })
    let backlog := decide (512 < owed.length)
    let img := (Config.imageBytes s.freeCtr).take 65536
    let crc := crc32c (img ++ storeGetBytes s.mem ledgBase (96 * 4096))
    let s := ((s.setFlag F.URED_SYNC_BACKLOG 0 backlog).fresh).set F.URED_CRC_LOCAL_CRC 0 crc
    s.updLink (fun l => { l with sentFrames := framesOf s img (go.map (·.1)) crc backlog })

/-! ### What the partner's frames carry (R169, R176, R180, R245, R341) -/

/-- Commits of the active unit applied by a standby unit, at the boundary after the image that carries them. -/
def carriedCommits (s : State) : State :=
  match s.link.image with
  | some i => if listens s ∧ i.commits ≠ [] then applySet s i.commits else s
  | none => s

/-- The partner's report for R176, from the image or the STATUS frame. -/
def partnerReport (s : State) : State :=
  let put := fun (s : State) (bits : Nat) => forN 48 s (fun s n => s.setFlag F.SECT_n_STATE_STBY_AGREE n (bitAt bits n))
  match s.role, s.link.image, s.link.status with
  | .standby, some i, _ => put s i.agree
  | .active, _, some st => put s st.idReady
  | _, _, _ => s

/-- A carried restore or DISTURB applied by a standby unit, a restore only where its own fabric has seen no passage and no disturbance
since the snapshot (R170); the port whose DISTURB it is reads DONE. -/
def carriedRestore (s : State) (r : RestoreImage) : State :=
  let raced := (s.sec r.sec).touched
  match r.op with
  | 1 => if raced then s else supervise s r.sec
  | 2 => if raced then s else ledgerClear (restoreClear s r.sec) r.sec
  | 5 => if raced then s else restoreClear s r.sec
  | 3 =>
    forN 2 (disturbApply s r.sec) (fun s p =>
      match s.restCarried p with
      | some c => if c.sec = r.sec then setRes (putCarried s p none) p c.sec c.op 1 .none else s
      | none => s)
  | _ => s

/-- A connection as the image has it: admissions and releases of dynamic slots, which a standby takes from nowhere else, the TX SEQ
(R341). -/
def carriedConn (s : State) (x : Nat × ConnImage) : State :=
  let c := x.1
  let i := x.2
  let s :=
    if s.get F.STE_CONNc_CFG_CLASS c ≠ 2 then s
    else if i.bound ∧ (!s.flag F.STE_CONNc_STAT_BOUND c ∨ s.get F.STE_CONNc_STAT_WL c ≠ i.wl) then bindConn s c i.wl
    else if !i.bound ∧ s.flag F.STE_CONNc_STAT_BOUND c then connRelease s c
    else s
  s.set F.STE_CONNc_SEQ_TX_SEQ c i.txSeq

/-- A pending announcement as the image has it. -/
def carriedPend (s : State) (x : Nat × PendImage) : State :=
  let k := x.1
  let i := x.2
  let s := (s.setFlag F.STE_ANN_PENDk_VALID k i.valid).set F.STE_ANN_PENDk_WL k i.wl
  let s := (s.set F.STE_ANN_PENDk_AGE k i.age).set F.STE_ANN_PIDk_PID k i.pid
  s.putSte { s.ste with nonces := upd s.ste.nonces k (fun _ => i.nonce) }

/-- Item 4 and 5 of the boundary work for what the partner carried: in a standby unit its image, in an active unit the
DISTURB commands of the STATUS frame. -/
def carriedBoundary (s : State) : State :=
  match s.role, s.link.image, s.link.status with
  | .standby, some i, _ =>
    let s := forEach i.restores s carriedRestore
    let s := forEach ((indexed 0 i.conns).take 64) s carriedConn
    let s := forEach ((indexed 0 i.pends).take 4) s carriedPend
    s.set F.TLNK_SEQ_TX_SEQ 0 i.tlSeq
  | .active, _, some st =>
    forEach (st.disturbs.filter (fun n => decide (n < 48) && secUsed s n)) s (fun s n =>
      if restoreDevice s then carry (disturbApply s n) opDisturb n else s)
  | _, _, _ => s

/-! ### Synchronisation of the counts (R348) -/

/-- The active unit's boundary marker as a standby unit measures it: the unit's own count follows it by a step of at most four ticks,
which the end of the boundary takes (`stepCount`); an offset is the partner's count less the unit's own (DESIGN CHOICE, log entry 65). -/
def markerBoundary (s : State) (m : Option (Nat × Int)) : State :=
  let s := s.updLink (fun l => { l with marker := m })
  match m with
  | none => s
  | some (_, off) =>
    if !listens s ∨ !s.flag F.URED_STATE_LINK_UP then s
    else
      let s := (s.set F.URED_SYNC_OFFSET 0 (fitS 8 off)).updLink (fun l => { l with step := max (-4) (min 4 off) })
      if off < -4 ∨ 4 < off then
        let s := s.updLink (fun l => { l with inLimit := 0 })
        if s.flag F.URED_STATUS_SYNC_LOST then s.indicate else ured (s.indicate.raise F.URED_STATUS_SYNC_LOST) 11
      else
        let s := s.updLink (fun l => { l with inLimit := l.inLimit + 1 })
        if 4 ≤ s.link.inLimit then s.lower F.URED_STATUS_SYNC_LOST else s

/-- The step of R348 applied to the extended count at the boundary; the cycle numbering stays. -/
def stepCount (s : State) : State :=
  let t := ((s.now : Int) + s.link.step).toNat
  (clockDone s t).putNow t

/-! ### Comparison of decisions (R353) -/

/-- The first item, with its index, in which the unit's own image and readback differ from the active unit's image. -/
def firstDiff (s : State) (own act : CycleImage) : Option (Nat × Nat) :=
  let dem := fun (i : CycleImage) (k : Nat) => if k < 12 then bitAt i.sout k else if k = 12 then i.tlp else i.tls
  let high := fun (k : Nat) => if k < 12 then bitAt s.balls.1 k else bitAt s.balls.2.2 (if k = 12 then 0 else if k = 13 then 2 else 1)
  let low := fun (k : Nat) => if k < 12 then bitAt s.balls.2.1 k else !high k
  match (List.range 14).find? (fun k => dem own k != dem act k) with
  | some k => some (0, k)
  | none =>
    match (List.range 48).find? (fun n => (nth own.secs n).state != (nth act.secs n).state) with
    | some n => some (1, n)
    | none =>
      match (List.range 15).find? (fun k => if bitAt act.drive k then !high k else !low k) with
      | some k => some (2, k)
      | none => none

/-- The comparison at a boundary at which the image of the cycle before has arrived. -/
def compareBoundary (s : State) : State :=
  match s.link.image, s.link.sentImage with
  | some act, some own =>
    if !listens s ∨ act.cycle ≠ own.cycle then s
    else
      match firstDiff s own act with
      | none =>
        let n := min 1000 (s.get F.URED_RUN_EQ_RUN + 1)
        (s.set F.URED_RUN_MISMATCH_RUN 0 0).set F.URED_RUN_EQ_RUN 0 n
      | some (item, idx) =>
        let s := (s.set F.URED_RUN_EQ_RUN 0 0).bump F.URED_RUN_MISMATCH_RUN
        if s.get F.URED_RUN_MISMATCH_RUN ≠ 1 then s
        else
          let s := (s.set F.URED_MM_ITEM 0 item).set F.URED_MM_INDEX 0 idx
          (s.set F.URED_MM_CYCLE 0 s.cycle).updLink (fun l => { l with mmFirst := s.cycle })
  | _, _ => s

/-! ### The verdict exchange (R354 to R356) -/

/-- The unit's own verdict at B + 1: an indicator raised from three cycles before the first mismatching boundary on. -/
def ownVerdict (s : State) (b first : Nat) : State :=
  let fault := s.indicAt != 0 && decide (first ≤ s.indicAt - 1 + 3)
  if s.cycle = b + 1 then
    (s.setFlag F.URED_RUN_OWN_FAULT 0 fault).updLink (fun l => { l with own := some fault, said := some (b, fault) })
  else s

/-- The standby unit's side of the exchange. -/
def verdictStandby (s : State) : State :=
  match s.link.reqAt with
  | none =>
    if s.get F.URED_RUN_MISMATCH_RUN = 3 ∧ s.link.image.isSome then
      (s.set F.URED_RUN_VERDICT_ST 0 1).updLink (fun l => { l with reqAt := some s.cycle })
    else s
  | some b =>
    let s := ownVerdict s b s.link.mmFirst
    let part := match s.link.image with | some i => i.verdict | none => none
    let s := match part with | some v => s.updLink (fun l => { l with part := some v }) | none => s
    if b + 2 ≤ s.cycle then
      match s.link.own, s.link.part with
      | some o, some p => outcome s true (s.get F.URED_RUN_MISMATCH_RUN != 0) o p
      | _, _ => if b + 3 ≤ s.cycle then exchangeEnd s else s
    else s

/-- The active unit's side: the request came with the STATUS frame of boundary B, the standby's verdict comes with that of B + 1. An
exchange for which no STATUS frame of cycle B + 2 has come ends at B + 3 without effect. -/
def verdictActive (s : State) : State :=
  match s.link.reqAt, s.link.status with
  | none, some st =>
    if st.verdictReq then
      let b := s.cycle - 1
      ownVerdict ((s.set F.URED_RUN_VERDICT_ST 0 1).updLink (fun l => { l with reqAt := some b, mmFirst := b - 2 })) b (b - 2)
    else s
  | some b, st =>
    let s := match st.bind (fun x => x.verdict) with | some v => s.updLink (fun l => { l with part := some v }) | none => s
    if b + 3 ≤ s.cycle then exchangeEnd s else s
  | none, none => s

/-- FORCE_STOP ends at the boundary after ACK_DIV (R356). -/
def ackDivBoundary (s : State) : State :=
  if s.reqs.ackDiv then
    let s := s.putReqs { s.reqs with ackDiv := false }
    s.lower F.URED_STATUS_FORCE_STOP
  else s

/-- ACK_DIV written. -/
def ackDiv (s : State) : State :=
  if s.flag F.URED_STATUS_FORCE_STOP then (s.putReqs { s.reqs with ackDiv := true }) else s

/-! ### The copy and resynchronisation (R352) -/

/-- The CRC of the copy in the order of R350. -/
def copyCrc (s : State) : Nat := crc32c (s.link.copyImg ++ storeGetBytes s.link.copyMem ledgBase (96 * 4096))

/-- The copy judged against the END frame at a boundary at which an image has arrived; a resynchronisation starts, ends or
waits. -/
def resyncBoundary (s : State) : State :=
  if !listens s then s
  else
    let agree := s.get F.URED_CRC_LOCAL_CRC == s.get F.URED_CRC_PARTNER_CRC
    let s := if s.link.image.isNone then s
      else
        let s := s.set F.URED_CRC_LOCAL_CRC 0 (copyCrc s)
        let agree := s.get F.URED_CRC_LOCAL_CRC == s.get F.URED_CRC_PARTNER_CRC
        if s.link.resync = 0 ∧ !agree then s.updLink (fun l => { l with resync := 1 }) else s
    let agree := if s.link.image.isNone then agree else s.get F.URED_CRC_LOCAL_CRC == s.get F.URED_CRC_PARTNER_CRC
    let quiet := s.get F.URED_RUN_MISMATCH_RUN = 0 ∧ s.link.reqAt.isNone ∧ !s.flag F.URED_STATUS_FORCE_STOP
    if s.link.resync = 1 ∧ quiet then
      let s := ((s.raise F.URED_STATUS_RESYNC_START).bump F.URED_CNT_RESYNCS).set F.URED_SYNC_SLICES 0 0
      ured (s.updLink (fun l => { l with resync := 2 })) 3
    else if s.link.resync = 2 ∧ s.link.image.isSome ∧ s.get F.URED_SYNC_SLICES = 64 ∧ !s.flag F.URED_SYNC_BACKLOG ∧ agree then
      ured ((s.raise F.URED_STATUS_RESYNC_DONE).updLink (fun l => { l with resync := 0 })) 4
    else s

/-! ### Takeover (R358 to R360) -/

/-- The partner is lost or no longer drives (R358), once an image of it has arrived. -/
def partnerGone (s : State) : Bool :=
  match s.link.lastImage with
  | none => false
  | some i => decide (2 ≤ s.link.missed) || i.dev == Dev.safe.code || i.role != Role.active.code || !intlkActive s

/-- Images counted at a boundary. -/
def imageBoundary (s : State) : State :=
  match s.link.image with
  | some i => s.updLink (fun l => { l with missed := 0, lastImage := some i })
  | none =>
    if s.link.lastImage.isNone then s
    else
      let s := (s.bump F.URED_SYNC_IMG_MISS).updLink (fun l => { l with missed := l.missed + 1 })
      if s.link.missed = 2 then ured (s.raise F.URED_STATUS_HB_LOST) 5 else s

/-- The claim at t0 (R359): INTLK_OUT asserted, t0 recorded, the checks of R362 begin anew, every point BLIND with cause
TAKEOVER, in whatever mode; a claim that comes within 600 ticks of the partner's is settled at once (R345). -/
def claim (s : State) (kind : Nat) : State :=
  let s := forN 7 s (fun s k => s.lower { F.URED_FIRST_SRC with bit := F.URED_FIRST_SRC.bit + k })
  let s := (s.raise F.URED_STATE_CLAIM).set40 F.URED_TO_TS_L_TS 0 (ts40 s.now)
  let s := s.updLink (fun l => { l with claimAt := some s.now, t0 := some s.now, claimKind := kind, decided := false, tbAt := none, handAt := none })
  let s := forN 24 s (fun s p =>
    (excChange s p s.now .takeover).updPoint p (fun q => { q with blindTo := true, noCarrier := some (q.noCarrier.getD s.now) }))
  yieldLate s

/-- A takeover that is decided is claimed, no later than 6,000 ticks after its boundary; a unit that has become NOT_READY meanwhile never
claims (R357). -/
def takeoverClaim (s : State) : State :=
  if s.link.decided && listens s && !s.flag F.URED_STATE_CLAIM then (if notReady s = 0 then claim s 0 else partnerLost s) else s

/-- Boundaries from `a` to `b`, both included, at which the schedule builds a connection's telegram. -/
def dueCount (per c a b : Nat) : Nat := ((List.range (b + 1 - a)).filter (fun i => (a + i + c) % per == 0)).length

/-- A connection's state as the copy carries it (R360); the RX bits of one that is not VALID are 0 (R332). -/
def carriedState (s : State) (c st : Nat) : State :=
  if st = connState s c then s
  else
    let s := s.set F.STE_CONNc_STAT_STATE c st
    if st = cnValid then s else putRx s c 0

/-- The series continue by the telegrams that the schedule builds after the copied boundary, whose own telegrams the copy has counted, and
before the unit's first (R360); the connection states, the SQUALL elapsed of a unit in SQUALL (it reads 0 in any other) and the
pending direct entries of the copy stand (R174; DEDUCED, log entry 112). -/
def continueSeries (s : State) : State :=
  match s.link.lastImage with
  | none => s
  | some i =>
    let k := i.cycle
    let s := forN 64 s (fun s c =>
      let per := s.get F.STE_CONNc_MAP_TX_PERIOD c
      let s := match i.conns[c]? with | some x => carriedState s c x.state | none => s
      if connState s c = cnFree ∨ per = 0 ∨ s.cycle < k then s
      else s.set F.STE_CONNc_SEQ_TX_SEQ c (s.get F.STE_CONNc_SEQ_TX_SEQ c + dueCount per c (k + 1) s.cycle))
    let s := if s.dev = .squall then
        (s.set F.SPU_SQ_ELAPSED_CYCLES 0 i.sqElapsed).putSpu { s.spu with sqEntry := s.cycle - i.sqElapsed }
      else s
    let own := s.tl.sent ≠ s.cycle + 1 ∧ s.now < s.cycleStart + 30000
    let n := s.cycle - k + b2n (!own)
    let s := if s.flag F.TLNK_CFG_EN then s.set F.TLNK_SEQ_TX_SEQ 0 (s.get F.TLNK_SEQ_TX_SEQ + n) else s
    forN 2 s (fun s p =>
      match nth i.directs p, s.restDirect p with
      | some d, none => putDirect s p (some ⟨d.1, d.2.1, d.2.2⟩)
      | _, _ => s)

/-- INTLK_IN has been inactive for 600 ticks from the claim on: the unit takes the ACTIVE role and drives from t_d (R359). -/
def takeoverDrive (s : State) : State :=
  match s.link.claimAt with
  | none => s
  | some t0 =>
    let td := max t0 s.ext.lowSince + 600
    if !s.flag F.URED_STATE_CLAIM ∨ s.ext.intlkIn ∨ s.role ≠ .standby ∨ !follows s ∨ !s.due td then s
    else
      let s := s.advanceTo td
      let s := continueSeries s
      let kind := s.link.claimKind
      let s := setRole ((s.lower F.URED_STATE_CLAIM).lower F.URED_STATE_READY) .active
      let s := if kind = 2 then s
        else if kind = 1 then ured ((s.raise F.URED_STATUS_TAKEOVER).bump F.URED_CNT_HANDOVERS) 0
        else ured ((s.raise F.URED_STATUS_TAKEOVER).bump F.URED_CNT_TAKEOVERS) 0
      (s.putTookOver (some s.now)).putLink
        { s.link with claimAt := none, lastImage := none, missed := 0, resync := 0, prevLedg := ledgCells s, firsts := [] }

/-! ### The interlock (R344, R345, R361) -/

/-- INTLK_IN changes level (R344, R345): a unit that has asserted INTLK_OUT yields to a later rise, and of two within 600 ticks the one not
marked by ROLE_PREF. -/
def intlkChange (s : State) (level : Bool) : State :=
  let was := s.ext.intlkIn
  if level then
    let s := s.putExt { s.ext with intlkIn := true, roseIn := if was then s.ext.roseIn else some s.now }
    let together := decide (s.now ≤ s.link.rose + 600)
    if !was ∧ s.lines.intlkOut ∧ !(together ∧ s.flag F.URED_STATE_PREF) then yieldRole s else s
  else if was then s.putExt { s.ext with intlkIn := false, lowSince := s.now }
  else s

/-- INTLK_IN has stayed active for 1,800 ticks after a claim (R345). -/
def toBlocked (s : State) : State :=
  match s.link.claimAt with
  | some t0 =>
    if s.flag F.URED_STATE_CLAIM ∧ s.ext.intlkIn ∧ s.due (t0 + 1800) then
      ured ((s.advanceTo (max s.now (t0 + 1800))).raise F.URED_STATUS_TO_BLOCKED) 7
    else s
  | none => s

/-- The readback of INTLK_OUT has differed from the commanded level for 600 ticks (R345, R362). -/
def intlkErr (s : State) : State :=
  if !s.portsUp then s
  else
    let s := match s.link.t0 with
      | some t0 => if s.now ≤ t0 + 600 then (s.raise F.URED_FIRST_INTLK).raise F.URED_STATUS_FIRST_ERR else s
      | none => s
    readyBoundary (ured (s.indicate.raise F.URED_STATUS_INTLK_ERR) 12)

/-! ### Claims at start-up (R346) -/

/-- The claim of a unit that entered STARTUP as STANDBY, 20 or 100 cycles after its entry. -/
def roleClaim (s : State) : State :=
  let d := if s.flag F.URED_STATE_PREF then 20 else 100
  let act := match s.link.lastImage with | some i => i.role == Role.active.code | none => false
  if listens s && atBoundary s && s.cycle == s.link.enteredAt + d && !intlkActive s && !act && !pairBad s && !s.link.lost
      && !s.flag F.URED_STATE_CLAIM
  then claim s 2 else s

/-! ### Take-back and handover (R363 to R365) -/

/-- The counting-point and Lull conditions of R363 in the unit's own view. -/
def quietTrack (s : State) : Bool :=
  (List.range 32).all (fun c => !cpUsed s c || cpState s c == 0 || (cpState s c == 2 && s.flag F.URED_CFG_TB_PARK))
    && (List.range 48).all (fun n => !secUsed s n || secLull s n)

/-- The conditions of R363, or of R365 for a partner in SQUALL. -/
def wantsBack (s : State) : Bool :=
  let sq := match s.link.lastImage with | some i => i.dev == Dev.squall.code | none => false
  listens s && (s.flag F.URED_STATE_PREF || sq) && s.dev == .oper && s.flag F.URED_STATE_READY
    && s.get F.URED_RUN_EQ_RUN == 1000 && quietTrack s && !s.flag F.URED_STATE_CLAIM && !s.link.lost

/-- The request of a standby unit, its lapse, and the claim it comes to (R364). -/
def takeBackStandby (s : State) : State :=
  match s.link.tbAt with
  | none => if wantsBack s then s.updLink (fun l => { l with tbAt := some s.cycle }) else s
  | some b =>
    if s.cycle < b + 2 then s
    else
      let ack := match s.link.image with | some i => i.tbAck && i.cycle == b + 1 | none => false
      let go := s.cycle == b + 2 && ack && wantsBack s
      s.updLink (fun l => { l with tbAt := none, handAt := if go then some s.cycle else none })

/-- The active unit's answer to TB_REQ. -/
def takeBackActive (s : State) : State :=
  let ok := match s.link.status with | some st => st.tbReq && quietTrack s | none => false
  s.updLink (fun l => { l with tbAck := ok })

/-- Tick 45,000 after B + 2 (R364): the claim, or TB_ABORT when a section in use has left Lull or the unit is NOT_READY (R357). -/
def handoverClaim (s : State) : State :=
  match s.link.handAt with
  | none => s
  | some k =>
    if k ≠ s.cycle ∨ !listens s ∨ s.flag F.URED_STATE_CLAIM then s.updLink (fun l => { l with handAt := none })
    else
      let s := s.advanceTo (s.cycleStart + 45000)
      if notReady s = 0 ∧ (List.range 48).all (fun n => !secUsed s n || secLull s n) then claim s 1
      else ured ((s.raise F.URED_STATUS_TB_ABORT).updLink (fun l => { l with handAt := none })) 8

/-! ### The boundary -/

/-- What the unit's STATUS frame of the cycle carries (R351). -/
def ownStatus (s : State) : PartnerStatus :=
  { ready := s.flag F.URED_STATE_READY, reason := s.get F.URED_STATE_NR_REASON, ack := s.link.ack, idReady := idReadyBits s
    verdictReq := (s.link.reqAt.isSome || s.link.ended == s.cycle + 1) && s.get F.URED_RUN_MISMATCH_RUN != 0, verdict := s.link.own
    tbReq := s.link.tbAt == some s.cycle, disturbs := s.link.disturbs, role := s.role.code, dev := s.dev.code }

/-- The partner's STATUS frames counted in an active unit. -/
def statusBoundary (s : State) : State :=
  if s.link.status.isSome then s
  else
    let s := s.updLink (fun l => { l with statusMissed := l.statusMissed + 1 })
    if 2 ≤ s.link.statusMissed then s.lower F.URED_STATE_PARTNER_READY else s

/-- In BOOT the unit only notes what the partner's image shows (R346, R411). -/
def bootImage (s : State) : State :=
  match s.link.image with
  | some i =>
    let starts := i.role == Role.active.code && i.dev == Dev.startup.code
    if s.dev = .boot then
      s.updLink (fun l => { l with lastImage := some i, startSeen := if starts then l.startSeen.or (some i.cycle) else none })
    else s
  | none => s

/-- The pairing's part of step 3 of R42. -/
def pairBoundary (s : State) (m : Option (Nat × Int)) : State :=
  let s := markerBoundary (pairCheck s) m
  let s := ackDivBoundary s
  if !pairing s then readyBoundary (bootImage s)
  else
    match s.role with
    | .standby =>
      let s := compareBoundary (imageBoundary s)
      let s := readyBoundary (resyncBoundary (verdictStandby s))
      let s := if partnerGone s then decideTakeover s else s
      takeBackStandby (roleClaim s)
    | .active => takeBackActive (readyBoundary (verdictActive (statusBoundary s)))
    | .detached => readyBoundary s

/-- Step 2 of R42: the computed parts of the cycle image are those of the boundary's snapshot. -/
def pairSnapshot (s : State) : State :=
  if s.flag F.URED_CFG_PAIR_EN && coresRun s then s.updLink (fun l => { l with snapImage := some (ownImage s) }) else s

/-- The snapshot's image with the parts that step 3 gives: verdict, TB_ACK, commits, restores, direct entries, telegrams. -/
def finalImage (s : State) (i : CycleImage) : CycleImage :=
  let o := ownImage s
  { i with verdict := o.verdict, tbAck := o.tbAck, agree := o.agree, commits := o.commits, restores := o.restores
           directs := o.directs, conns := o.conns, pends := o.pends }

/-- The end of the boundary: the unit's image is fixed, its frames sent, what arrived and what was carried set aside. The image and the
frames are the cores' work, which stops with them (R256). A STATUS frame goes out of a standby unit whose link is up (R351); what it
has not been able to say of DISTURB commands waits for the next. -/
def pairEnd (s : State) : State :=
  let sends := listens s && coresRun s && s.flag F.URED_STATE_LINK_UP
  let clear := fun (l : Link) =>
    { l with image := none, status := none, commits := [], restores := [], disturbs := if sends || s.role != .standby then [] else l.disturbs
             sentStatus := if sends then some (ownStatus s) else none }
  if !s.flag F.URED_CFG_PAIR_EN ∨ !coresRun s then s.updLink clear
  else (linkSend (s.updLink (fun l => { l with sentImage := l.snapImage.map (finalImage s) }))).updLink clear

end Sys2Proof.Machine
end

