-- ==== Sys2Proof/Machine/Views.lean ====
section
/-!
DEFINITION. Register fields that show state kept elsewhere: each has one home in `State`, and a read computes it from there
(the RO fields of 02 to 18 that name a state, a queue, a line or a time).
-/

namespace Sys2Proof.Machine

/-- The index of a register among its `n` places, when `b` is its address. -/
def regIdx (f : Fld) (n b : Nat) : Option Nat :=
  let a := f.bit / 32 * 4
  if b < a then none
  else if n = 1 then (if b = a then some 0 else none)
  else
    let st := f.stride / 8
    if (b - a) % st = 0 ∧ (b - a) / st < n then some ((b - a) / st) else none

/-- A state change for the index at which `b` lies, none otherwise. -/
def atReg (s : State) (f : Fld) (n b : Nat) (g : Nat → State) : State :=
  match regIdx f n b with | some i => g i | none => s

/-! ### Interrupts (R377) -/

/-- The word of a register by its address. -/
def wordAt (s : State) (p a : Nat) : Nat := match regAt a with | some d => storedWord s p d | none => 0

/-- Blocks with a mask register: route bit, STATUS, IRQ_MASK. -/
def maskedBlocks : List (Nat × Nat × Nat) := [
  (0, 0x14, 0x18), (7, 0x70000, 0x70004), (8, 0x80000, 0x80004), (10, 0xA0000, 0xA0004), (11, 0xB0000, 0xB0004),
  (12, 0xC0000, 0xC0004), (31, 0xC4000, 0xC4004), (13, 0xD0000, 0xD0004), (14, 0xE0000, 0xE0004), (15, 0xF0000, 0xF0004),
  (16, 0x100000, 0x100004), (20, 0x140000, 0x140004)]

/-- Blocks without one: route bit, the register of their W1C flags. -/
def plainBlocks : List (Nat × Nat) := [
  (1, 0x10004), (2, 0x20000), (3, 0x30004), (4, 0x40000), (5, 0x50020), (6, 0x60000), (9, 0x90000), (18, 0x120000)]

/-- The W1C flags set in a register. -/
def w1cWord (s : State) (a : Nat) : Nat :=
  match regAt a with | some d => storedWord s 0 d &&& clsMask d (fun c => c == .w1c) | none => 0

/-- The raised block interrupts. -/
def irqPend (s : State) : Nat :=
  let m := maskedBlocks.foldl (fun acc x => if wordAt s 0 x.2.1 &&& wordAt s 0 x.2.2 != 0 then acc + 2 ^ x.1 else acc) 0
  plainBlocks.foldl (fun acc x => if w1cWord s x.2 != 0 then acc + 2 ^ x.1 else acc) m

/-- HPx_IRQ_N is driven low: a raised block interrupt is routed to the port, which answers (R376, R377). -/
def irqLow (s : State) (p : HPort) : Bool :=
  s.portsUp && irqPend s &&& s.get (match p with | .a => F.HPS_IRQ_ROUTEA_ROUTE | .b => F.HPS_IRQ_ROUTEB_ROUTE) != 0

/-! ### Block by block -/

def viewExc (s : State) (b : Nat) : State :=
  let s := atReg s F.EXC_MODE_INTLK_IN 1 b (fun _ => s.setFlag F.EXC_MODE_INTLK_IN 0 (intlkActive s))
  let s := atReg s F.EXC_MON_FREE_SPARES 1 b (fun _ => s.set F.EXC_MON_FREE_SPARES 0 (freeSpares s))
  atReg s F.EXC_PEND_PEND 1 b (fun _ => s.set F.EXC_PEND_PEND 0 (maskOf 24 (fun p => (s.point p).pend.isSome)))

def viewMeas (s : State) (b : Nat) : State :=
  atReg s F.MEAS_CHn_CFG_CURVE 48 b (fun c => s.setFlag F.MEAS_CHn_CFG_CURVE_PEND c
    (match (s.point (c / 2)).pend with | some v => nth v.curve (c % 2) != s.get F.MEAS_CHn_CFG_CURVE c | none => false))

/-- SUP_STATUS.SLOT and the FAULTY bits. The slot runs while counting does; before it begins SLOT reads 0 and no visit is taken (DESIGN
CHOICE, log entry 117). -/
def viewSup (s : State) (b : Nat) : State :=
  let f := fun (lo n : Nat) => maskOf n (fun i => (s.chan (lo + i)).faulty)
  let s := atReg s F.SUP_STATUS_SLOT 1 b (fun _ => s.set F.SUP_STATUS_SLOT 0 (if s.counting then s.cycle % 50 else 0))
  let s := atReg s F.SUP_FAULTY0_FAULTY 1 b (fun _ => s.set F.SUP_FAULTY0_FAULTY 0 (f 0 32))
  atReg s F.SUP_FAULTY1_FAULTY 1 b (fun _ => s.set F.SUP_FAULTY1_FAULTY 0 (f 32 16))

def viewWev (s : State) (b : Nat) : State :=
  atReg s F.WEV_SPn_STATE_SEQ 24 b (pointShown s)

def viewLedg (s : State) (b : Nat) : State :=
  let l := s.ledger.verdicts
  let s := atReg s F.LEDG_SECn_LCOUNT 48 b (fun n => s.setFlag F.LEDG_SECn_ID_OK n (idOk s n))
  let s := atReg s F.LEDG_SPn_CFG_STATION 24 b (fun p => if (pointCp s p).isSome then s.raise F.LEDG_SPn_CFG_STATION p else s)
  let s := atReg s F.LEDG_LOC_STAT_LOC_COUNT 1 b (fun _ => s.set F.LEDG_LOC_STAT_LOC_COUNT 0 l.length)
  match l with
  | [] => s
  | v :: _ =>
    let s := atReg s F.LEDG_LOC_INFO_KIND 1 b (fun _ =>
      let s := (s.set F.LEDG_LOC_INFO_KIND 0 v.kind).set F.LEDG_LOC_INFO_CP 0 v.cp
      (s.set F.LEDG_LOC_INFO_EVID_UP 0 v.up).set F.LEDG_LOC_INFO_EVID_DN 0 v.dn)
    let s := atReg s F.LEDG_LOC_AXLE_AXLE_ID 1 b (fun _ => s.set F.LEDG_LOC_AXLE_AXLE_ID 0 v.axle)
    let s := atReg s F.LEDG_LOC_TS_L_TS 1 b (fun _ => s.set F.LEDG_LOC_TS_L_TS 0 (ts40 v.ts))
    atReg s F.LEDG_LOC_TS_H_TS 1 b (fun _ => s.set F.LEDG_LOC_TS_H_TS 0 (ts40 v.ts / 2 ^ 32))

/-- A pending DIRECT entry as SECT_DIRECT_A or _B shows it. -/
def viewDirect (s : State) (p : Nat) (k : Nat) : State :=
  let o := 32 * k
  match s.restDirect p with
  | none => s
  | some e =>
    let s := (s.set (F.SECT_DIRECT_A_SEC.offB o) 0 e.sec).raise (F.SECT_DIRECT_A_VALID.offB o)
    s.set (F.SECT_DIRECT_A_AGE.offB o) 0 (min 65535 ((s.now - e.tick) / cycleTicks))

def viewSect (s : State) (b : Nat) : State :=
  let occ := fun (lo n : Nat) => maskOf n (fun i => secOcc s (lo + i))
  let s := atReg s F.SECT_STATUS_N_DIST 1 b (fun _ => s.set F.SECT_STATUS_N_DIST 0
    ((List.range 48).filter (fun n => secUsed s n && decide (2 ≤ s.get F.SECT_n_STATE_STATE n))).length)
  let s := atReg s F.SECT_DIRECT_A_SEC 1 b (fun _ => viewDirect s 0 0)
  let s := atReg s (F.SECT_DIRECT_A_SEC.offB 32) 1 b (fun _ => viewDirect s 1 1)
  let s := atReg s F.SECT_OCC0_OCC 1 b (fun _ => s.set F.SECT_OCC0_OCC 0 (occ 0 32))
  let s := atReg s F.SECT_OCC1_OCC 1 b (fun _ => s.set F.SECT_OCC1_OCC 0 (occ 32 16))
  atReg s F.SECT_n_STATE_STATE 48 b (fun n =>
    let s := (s.setFlag F.SECT_n_STATE_OCC n (secOcc s n)).set F.SECT_n_STATE_MOVING n (s.get F.SECT_n_CFG_MOVING n)
    s.setFlag F.SECT_n_STATE_USED n (secUsed s n))

def viewSpos (s : State) (b : Nat) : State :=
  let lull := fun (lo n : Nat) => maskOf n (fun i => secLull s (lo + i))
  let s := atReg s F.SPOS_LULL0_LULL 1 b (fun _ => s.set F.SPOS_LULL0_LULL 0 (lull 0 32))
  let s := atReg s F.SPOS_LULL1_LULL 1 b (fun _ => s.set F.SPOS_LULL1_LULL 0 (lull 32 16))
  atReg s F.SPOS_SPn_SST_SPD_ST 24 b (fun p => s.setFlag F.SPOS_SPn_SST_LULL p (s.point p).lull)

def viewSio (s : State) (b : Nat) : State :=
  let m := fun (f : Fld) => maskOf 16 (fun j => s.flag f j)
  let s := atReg s F.SIO_IN_VAL_VALUE 1 b (fun _ =>
    (s.set F.SIO_IN_VAL_VALUE 0 (m F.SIO_INj_STAT_VALUE)).set F.SIO_IN_VAL_FAULT 0 (m F.SIO_INj_STAT_FAULT))
  let s := atReg s F.SIO_OUT_SUM_DRIVE 1 b (fun _ =>
    (s.set F.SIO_OUT_SUM_DRIVE 0 s.lines.sout).set F.SIO_OUT_SUM_SENSE 0 s.balls.1)
  atReg s F.SIO_OUTk_STAT_DEMAND 12 b (fun k =>
    let s := s.setFlag F.SIO_OUTk_STAT_DEMAND k (bitAt (s.get F.FAB_OUTDEM_SOUT) k)
    (s.setFlag F.SIO_OUTk_STAT_DRIVE k (bitAt s.lines.sout k)).set F.SIO_OUTk_STAT_STATE k (outState s k))

def viewTlnk (s : State) (b : Nat) : State :=
  atReg s F.TLNK_PIN_PERMIT_RUN 1 b (fun _ =>
    let s := (s.setFlag F.TLNK_PIN_PERMIT_RUN 0 s.lines.tlp).setFlag F.TLNK_PIN_DRIVE_EN 0 s.lines.tlDrive
    (s.setFlag F.TLNK_PIN_STOP_N_DRV 0 s.lines.stopN).setFlag F.TLNK_PIN_STILL_DRV 0 s.lines.still)

/-- Controller `x`, `b` with CAN1 taken to CAN0: single-shot in force (R314, R318), and word 1 of a buffer (R313). -/
def viewCan (s : State) (p x b : Nat) : State :=
  let s := atReg s F.CANx_BUFCTRLb_FULL 64 b (fun i =>
    s.setFlag (F.CANx_BUFCTRLb_SSHOT_ACT.can x) i (sshotAct s x i))
  atReg s F.CANx_BUFb_W1_DLC 64 b (fun i =>
    let s := (s.setFlag (F.CANx_BUFb_W1_FULL.can x) i (bufFull s x i)).setFlag (F.CANx_BUFb_W1_OVERRUN.can x) i
      (s.flag (F.CANx_BUFCTRLb_OVERRUN.can x) i)
    s.setFlag (F.CANx_BUFb_W1_LOCKED.can x) i (bufLocked s x i && s.get (F.CANx_BUFCTRLb_LOCK_OWNER.can x) i != p))

def viewCvu (s : State) (b : Nat) : State :=
  atReg s F.CVU_CHn_CFG_WIDTH 16 b (fun n => if 12 ≤ n then s.set F.CVU_CHn_CFG_OWNER n 3 else s)

def viewSte (s : State) (b : Nat) : State :=
  let v := fun (lo : Nat) => maskOf 32 (fun c => connState s (lo + c) == cnValid)
  let s := atReg s F.STE_RXBIT0_RX 1 b (fun _ => s.set F.STE_RXBIT0_RX 0 (s.fab.rxBits % 2 ^ 32))
  let s := atReg s F.STE_RXBIT1_RX 1 b (fun _ => s.set F.STE_RXBIT1_RX 0 (s.fab.rxBits / 2 ^ 32))
  let s := atReg s F.STE_VALID0_VALID 1 b (fun _ => s.set F.STE_VALID0_VALID 0 (v 0))
  atReg s F.STE_VALID1_VALID 1 b (fun _ => s.set F.STE_VALID1_VALID 0 (v 32))

def viewUred (s : State) (b : Nat) : State :=
  atReg s F.URED_STATE_ROLE 1 b (fun _ =>
    (s.setFlag F.URED_STATE_INTLK_IN 0 (intlkActive s)).setFlag F.URED_STATE_INTLK_OUT 0 s.lines.intlkOut)

def viewSpu (s : State) (b : Nat) : State :=
  let s := atReg s F.SPU_CORE_MODE 1 b (fun _ => s.set F.SPU_CORE_MODE 0 (voteMode s))
  let s := atReg s F.SPU_PT_DUE 1 b (fun _ => (s.setFlag F.SPU_PT_SUSP 0 (ptSusp s)).set F.SPU_PT_DUE 0
    (match s.spu.ptDue with | some d => min 600000 (d - s.cycle) | none => 0))
  atReg s F.SPU_KA_GRANT 1 b (fun _ => s.set F.SPU_KA_GRANT 0 (min 2 (grantLeft s)))

def viewHps (s : State) (b : Nat) : State :=
  let held := fun (id : Nat) => maskOf 32 (fun k => s.get F.HPS_SEMk_OWNER k == id)
  let s := atReg s F.HPS_IRQ_PEND_PEND 1 b (fun _ => s.set F.HPS_IRQ_PEND_PEND 0 (irqPend s))
  let s := atReg s F.HPS_SEM_A_HELD 1 b (fun _ => s.set F.HPS_SEM_A_HELD 0 (held 1))
  atReg s F.HPS_SEM_B_HELD 1 b (fun _ => s.set F.HPS_SEM_B_HELD 0 (held 2))

/-- The time as CRU shows it: the timestamp runs from the PLL's lock (R40, R405). -/
def viewCru (s : State) (b : Nat) : State :=
  let s := atReg s F.CRU_TIME_L_TIME 1 b (fun _ => s.set F.CRU_TIME_L_TIME 0 (ts40 s.now % 2 ^ 32))
  let s := atReg s F.CRU_TIME_H_TIME 1 b (fun _ => s.set F.CRU_TIME_H_TIME 0 (ts40 s.now / 2 ^ 32))
  let s := atReg s F.CRU_EPOCH_EPOCH 1 b (fun _ => s.set F.CRU_EPOCH_EPOCH 0 (epochOf s.now))
  atReg s F.CRU_CYCLE_CYCLE 1 b (fun _ => s.set F.CRU_CYCLE_CYCLE 0 s.cycle)

/-- Safety cycles since the older pending RESET. -/
def resetAge (s : State) : Nat :=
  match ((List.range 2).filterMap (fun p => (s.host p).resetAt)) with
  | [] => 0
  | t :: ts => min 65535 ((s.now - ts.foldl min t) / cycleTicks)

def viewDev (s : State) (b : Nat) : State :=
  let s := atReg s F.DEV_STATE_STATE 1 b (fun _ => s.set F.DEV_STATE_STATE 0 s.dev.code)
  atReg s F.DEV_CMD_STAT_RESET_AGE 1 b (fun _ => s.set F.DEV_CMD_STAT_RESET_AGE 0 (resetAge s))

/-- The state with the shown fields of the register at `a` put in their places, as port `p` reads it. -/
def viewed (s : State) (p a : Nat) : State :=
  let b := canFold a
  match b / 0x10000 with
  | 0x00 => viewDev s b
  | 0x01 => viewExc s b
  | 0x02 => viewMeas s b
  | 0x03 => viewSup s b
  | 0x04 => viewWev s b
  | 0x05 => viewLedg s b
  | 0x06 => viewSect s b
  | 0x07 => viewSpos s b
  | 0x0A => viewSio s b
  | 0x0B => viewTlnk s b
  | 0x0C => viewCan s p (if a = b then 0 else 1) b
  | 0x0D => viewCvu s b
  | 0x0E => viewSte s b
  | 0x0F => viewUred s b
  | 0x10 => viewSpu s b
  | 0x11 => viewHps s b
  | 0x13 => viewCru s b
  | _ => s

/-- The word that a port reads at a register, its effects aside. -/
def viewWord (s : State) (p a : Nat) (d : RegDesc) : Nat := storedWord (viewed s p a) p d

end Sys2Proof.Machine
end

