-- ==== Sys2Proof/Machine/HostPorts.lean ====
section
/-!
DEFINITION. The host ports (16_host_ports.md, R366 to R389, with R10 to R16 and R244 to R248): frames and their checks,
register reads and writes with their effects, commands, semaphores, the commands that need both ports, frees of the Gust
queue, and debug writes.
-/

namespace Sys2Proof.Machine

/-- The bits of a field in a word written to its register. -/
def inWord (f : Fld) (v : Nat) : Nat := bitsOf v (f.bit % 32) f.width

/-! ### Semaphores (R378, R379) -/

/-- A port's identity. -/
def portId (p : HPort) : Nat := p.toNat + 1

/-- A write of a semaphore. -/
def semWrite (s : State) (p : HPort) (k v : Nat) : State :=
  let cur := s.get F.HPS_SEMk_OWNER k
  let id := v % 4
  if id = portId p.other then s.accErr p (0x110100 + 4 * k) true .owner
  else if id = portId p then (if cur = 0 then s.set F.HPS_SEMk_OWNER k id else s)
  else if id = 0 then (if cur = portId p then s.set F.HPS_SEMk_OWNER k 0 else s)
  else s

/-- FREE_OWN: every semaphore of the port. -/
def freeOwn (s : State) (p : HPort) : State :=
  let s := forN 32 s (fun s k => if s.get F.HPS_SEMk_OWNER k = portId p then s.set F.HPS_SEMk_OWNER k 0 else s)
  s.note 1 0x11 0xFF 0xFF 0

/-! ### DEV_CMD (R380 to R382) -/

/-- KEY of DEV_CMD. -/
def devKey : Nat := 0xA55A

/-- The address of DEV_CMD. -/
def devCmdAddr : Nat := 0xC

/-- ENTER_COMM: held pending in BOOT, ignored elsewhere. -/
def enterComm (s : State) (p : HPort) : State :=
  if s.dev = .boot then s.raise (match p with | .a => F.DEV_CMD_STAT_ENTER_A | .b => F.DEV_CMD_STAT_ENTER_B)
  else s.raise F.DEV_STATUS_CMD_REJ

/-- The RESET bit of a port in DEV_CMD_STAT. -/
def resetBit (p : Nat) : Fld := if p = 0 then F.DEV_CMD_STAT_RESET_A else F.DEV_CMD_STAT_RESET_B

/-- RESET: held pending, its age restarted. -/
def devReset (s : State) (p : HPort) : State :=
  (s.updHost p.toNat (fun h => { h with resetAt := some s.now })).raise (resetBit p.toNat)

/-- GO_SAFE: at the next boundary, in STARTUP, OPERATIONAL and SQUALL. -/
def devGoSafe (s : State) : State := if follows s then (s.putReqs { s.reqs with goSafe := true }) else s

/-- WITHDRAW: the port's pending ENTER_COMM and RESET removed. -/
def devWithdraw (s : State) (p : HPort) : State :=
  let s := s.lower (match p with | .a => F.DEV_CMD_STAT_ENTER_A | .b => F.DEV_CMD_STAT_ENTER_B)
  (s.lower (resetBit p.toNat)).updHost p.toNat (fun h => { h with resetAt := none })

/-- A command that carries KEY, an access error with any other. -/
def keyed (s : State) (p : HPort) (key : Nat) (t : State) : State :=
  if key = devKey then t else s.accErr p devCmdAddr true .protected_

/-- A write of DEV_CMD. -/
def devCmd (s : State) (p : HPort) (v : Nat) : State :=
  keyed s p (v / 65536) (match v % 16 with
    | 1 => enterComm s p
    | 2 => devReset s p
    | 3 => devGoSafe s
    | 4 => devWithdraw s p
    | _ => s)

/-- Both ports' RESETs were written within 5 s of each other: the device resets at the next boundary, in every state. -/
def resetPair (s : State) : Bool :=
  match (s.host 0).resetAt, (s.host 1).resetAt with
  | some a, some b => decide (a ≤ b + fiveSeconds) && decide (b ≤ a + fiveSeconds)
  | _, _ => false

/-- A pending RESET older than 5 s is discarded (R381), unless the other port's RESET came within that time. -/
def resetExpire (s : State) : State :=
  if resetPair s then s
  else
    forN 2 s (fun s p =>
      match (s.host p).resetAt with
      | some t =>
        if t + fiveSeconds < s.now then
          ((s.updHost p (fun h => { h with resetAt := none })).lower (resetBit p)).raise F.DEV_STATUS_CMD_EXPIRED
        else s
      | none => s)

/-! ### The Gust queue's frees (R383, R384) -/

/-- JRN_GQ_FREE written. -/
def gqFree (s : State) (p : HPort) (n : Nat) : State :=
  let c := s.gustCount
  if s.get F.JRN_CFG_GQ_OWNER ≠ p.toNat then s.accErr p 0x14000C true .owner
  else if n = 0 ∨ c < n then s.accErr p 0x14000C true .protected_
  else
    let kept := s.flag F.JRN_GQ_STAT_GAP_OPEN && n == c
    let k := if kept then n - 1 else n
    let s := (s.set F.JRN_GQ_STAT_RD 0 ((s.get F.JRN_GQ_STAT_RD + k) % 4096)).lower F.JRN_GQ_STAT_GAP_OPEN
    (if kept then s.raise F.JRN_STATUS_GAP_KEPT else s).gustLevel

/-! ### Commands of the blocks -/

/-- EXC_CMD. -/
def excCmd (s : State) (v : Nat) : State :=
  match inWord F.EXC_CMD_OP v with
  | 1 => pendForce s (inWord F.EXC_CMD_POINTS v)
  | 2 => pendCancel s (inWord F.EXC_CMD_POINTS v)
  | _ => s

/-- A reference capture starts on a channel (R80); one that still runs starts anew, with its limit of 48,000 samples (DESIGN CHOICE, log
entry 105). -/
def refStart (s : State) (c : Nat) : State :=
  syncRefBusy (s.updChan c (fun x => { x with refCap := some (x.kNext, 0, 0, 0) }))

/-- MEAS_REF_CMD: in COMMISSIONING only (R81). -/
def refCommand (s : State) (p : HPort) (c : Nat) (all : Bool) : State :=
  if s.dev ≠ .comm then s.accErr p 0x20040 true .state_ else forEach (chansOf c all) s refStart

/-- CLEAR of SUP_CMD waits for the boundary (R113, R42). -/
def supClearCmd (s : State) (c : Nat) (all : Bool) : State :=
  s.putReqs { s.reqs with supClear := s.reqs.supClear ++ chansOf c all }

/-- CAPTURE of SUP_CMD: in COMMISSIONING only (R115). -/
def supCapture (s : State) (p : HPort) (c : Nat) (all : Bool) : State :=
  if s.dev ≠ .comm then s.accErr p 0x30008 true .state_ else forEach (chansOf c all) s zrefStart

/-- SUP_CMD. -/
def supCmd (s : State) (p : HPort) (v : Nat) : State :=
  let c := inWord F.SUP_CMD_CH v
  let all := inWord F.SUP_CMD_ALL v == 1
  match inWord F.SUP_CMD_OP v with
  | 1 => supClearCmd s c all
  | 2 => supCapture s p c all
  | _ => s

/-- LEDG_LOC_POP: the oldest verdict removed. -/
def locPop (s : State) : State := s.putLedger { s.ledger with verdicts := s.ledger.verdicts.drop 1 }

/-- CLEAR of DENC_CMD arms the ports to leave FAULT (R197). -/
def portArm (s : State) (ports : Nat) : State :=
  forEach (bitsSet ports 4) s (fun s q => if encState s q = encFault then s.raise F.DENC_PORTn_STAT_CLR_ARMED q else s)

/-- REARM and DISARM of DENC_CMD. -/
def cmpRearm (s : State) (cmps : Nat) : State :=
  forEach (bitsSet cmps 16) s (fun s k => s.updCmp k (fun c => { c with rearm := true }))
def cmpDisarm (s : State) (cmps : Nat) : State :=
  forEach (bitsSet cmps 16) s (fun s k =>
    ((s.lower F.DENC_CMPk_STAT_ARMED k).lower F.DENC_CMPk_STAT_FIRED k).updCmp k (fun c => { c with rearm := false }))

/-- DENC_CMD. -/
def dencCmd (s : State) (v : Nat) : State :=
  match inWord F.DENC_CMD_OP v with
  | 1 => portArm s (inWord F.DENC_CMD_PORTS v)
  | 2 => cmpRearm s (inWord F.DENC_CMD_CMPS v)
  | 3 => cmpDisarm s (inWord F.DENC_CMD_CMPS v)
  | _ => s

/-- CLEAR_IN and CLEAR_OUT wait for the boundary (R282, R292). -/
def clearInCmd (s : State) (m : Nat) : State := s.putReqs { s.reqs with clearIn := s.reqs.clearIn ||| m }
def clearOutCmd (s : State) (m : Nat) : State := s.putReqs { s.reqs with clearOut := s.reqs.clearOut ||| m }

/-- SIO_CMD. -/
def sioCmd (s : State) (v : Nat) : State :=
  match inWord F.SIO_CMD_OP v with
  | 1 => clearInCmd s (inWord F.SIO_CMD_PAIRS v)
  | 2 => clearOutCmd s (inWord F.SIO_CMD_OUTS v)
  | _ => s

/-- CLEAR_DRV waits for the boundary (R297). -/
def clearDrvCmd (s : State) : State := s.putReqs { s.reqs with clearDrv := true }

/-- MEAS_SNAP_REQ. A write of GO = 1 during a snapshot is ignored whole (R89); a request refused for SRC = 3 leaves the written SRC to be
read back, on which the spec is silent (DESIGN CHOICE, log entry 85). -/
def snapReq (s : State) (p : HPort) (v : Nat) : State :=
  let src := inWord F.MEAS_SNAP_REQ_SRC v
  let go := decide (inWord F.MEAS_SNAP_REQ_GO v = 1)
  let s := if go && s.snap.isSome then s else s.set F.MEAS_SNAP_REQ_SRC 0 src
  if go then snapGo s p src else s

/-- LEDG_REC_REQ: the slot and, with GO, the request of the port. -/
def recReqGo (s : State) (p : HPort) (slot : Nat) : State :=
  let s := s.set (F.LEDG_REC_REQ_SLOT.port p.toNat) 0 slot
  let s := s.lower (F.LEDG_REC_STAT_DONE.port p.toNat)
  s.putReqs { s.reqs with recReq := upd s.reqs.recReq p.toNat (fun _ => true) }
def recReq (s : State) (p : HPort) (v : Nat) : State :=
  let slot := inWord F.LEDG_REC_REQ_SLOT v
  if inWord F.LEDG_REC_REQ_GO v = 1 then recReqGo s p slot else s.set (F.LEDG_REC_REQ_SLOT.port p.toNat) 0 slot

/-- GO of SPOS_AXQ_REQ. -/
def axqGo (s : State) (p : HPort) : State :=
  let s := s.lower (F.SPOS_AXQ_STAT_DONE.port p.toNat)
  s.putReqs { s.reqs with axqReq := upd s.reqs.axqReq p.toNat (fun _ => true) }

/-- CFG_COMMIT. -/
def commitCmd (s : State) (p : HPort) (v : Nat) : State :=
  match inWord F.CFG_COMMIT_OP v with
  | 1 => commitWait s p.toNat
  | 2 => commitDiscard s p
  | _ => s

/-- An upload runs that the other port owns: its writes to the upload registers are refused (R240). -/
def upForeign (s : State) (p : HPort) : Bool := match s.up with | some u => u.port != p.toNat | none => false

/-- CFG_UP_CTRL: in COMMISSIONING only. -/
def upCtrl (s : State) (p : HPort) (v : Nat) : State :=
  match inWord F.CFG_UP_CTRL_OP v with
  | 1 => upStart s p (inWord F.CFG_UP_CTRL_TARGET v)
  | 2 => upAbort s p
  | _ =>
    if s.dev ≠ .comm then s.accErr p 0x120080 true .state_
    else if upForeign s p then s.accErr p 0x120080 true .owner else s

/-! ### Check-value channels (R322, R327) -/

/-- A write would change a STATIC field: it names neither the value that the field holds nor the one that it reads as, so that a word just
read can be written back (R16). -/
def staticChanges (s : State) (p : HPort) (a : Nat) (d : RegDesc) (v : Nat) : Bool :=
  let w := viewWord s p.toNat a d
  d.fields.any (fun x => x.2 == .static && s.get x.1 != fldOf d x.1 v && fldOf d x.1 w != fldOf d x.1 v)

/-- A parameter of a channel written: by its owner, and but for ALIVE_CNT while no computation runs. -/
def cvuParam (s : State) (p : HPort) (n off : Nat) (d : RegDesc) (v : Nat) : State :=
  if !cvuOwns s p n then s.accErr p (cvuAddr n off) true .owner
  else if cvuActive s n ∧ off ≠ 0x110 then s.accErr p (cvuAddr n off) true .busy
  else if staticChanges s p (cvuAddr n off) d v ∧ s.dev ≠ .comm then s.accErr p (cvuAddr n off) true .static_
  else
    let s := putFields s 0 d (fun c => c == .live) v
    if hasCls d .static ∧ s.dev = .comm then (putFields s 0 d (fun c => c == .static) v).raise F.FAB_STATUS_DIRTY else s

/-- A write in the channels' part of the block, at a displacement from the channel's base. -/
def cvuWrite (s : State) (p : HPort) (n off : Nat) (d : RegDesc) (v : Nat) : State :=
  match off with
  | 0x118 => cvuCtrl s p n v
  | 0x120 => cvuCtx s p n v
  | 0x128 => cvuData s p n off 4 v
  | 0x12C => cvuData s p n off 2 v
  | 0x130 => cvuData s p n off 1 v
  | 0x11C => s
  | 0x124 => s
  | 0x134 => s
  | 0x138 => s
  | 0x13C => s
  | _ => cvuParam s p n off d v

/-! ### Writes by class (R11 to R16, R244, R247, R248) -/

/-- A claim that INTLK_IN still blocks 1,800 ticks after it (R345). -/
def claimBlocked (s : State) : Bool :=
  match s.link.claimAt with
  | some t => s.flag F.URED_STATE_CLAIM && s.ext.intlkIn && decide (t + 1800 ≤ s.now)
  | none => false

/-- The lasting conditions outside the counting path that a flag reports: a monitor DISABLED (R404), a controller lost (R321), an active
unit whose images stay missing, a partner lost (R358), a blocked claim (R345), a divergence not acknowledged (R356), a port that a
drift check failed (R197). -/
def lasting (s : State) : List (Bool × Fld) :=
  [(s.get F.CRU_CLK_MONA_ST == 2, F.CRU_STATUS_MONA_FAIL), (s.get F.CRU_CLK_MONB_ST == 2, F.CRU_STATUS_MONB_FAIL),
   (s.flag (F.CANx_ERR_LOST.can 0), F.CANx_STATUS_LOST.can 0), (s.flag (F.CANx_ERR_LOST.can 1), F.CANx_STATUS_LOST.can 1),
   (s.role == .standby && decide (2 ≤ s.link.missed), F.URED_STATUS_HB_LOST), (s.link.lost, F.URED_STATUS_PARTNER_LOST),
   (claimBlocked s, F.URED_STATUS_TO_BLOCKED), (s.flag F.URED_STATUS_FORCE_STOP, F.URED_STATUS_DIVERGE)]

/-- What a W1C clear must not hide (R15): conditions that still hold set their flags again; `o` is the state before the clear. VIN_LOW
and SEAL_CHG stand for the latest measurement and reading, once one has set them. -/
def reassert (o s : State) : State :=
  let s := s.gustLevel
  let any := fun (n : Nat) (f : Fld) => (List.range n).any (fun i => s.flag f i)
  let s := if any 24 F.WEV_SPn_STATE_HYST_LOW_A || any 24 F.WEV_SPn_STATE_HYST_LOW_B then s.raise F.WEV_STATUS_HYST_LOW else s
  let s := if any 48 F.MEAS_CHn_CFG_DRIFT then s.raise F.MEAS_STATUS_DRIFT else s
  let s := if any 48 F.SUP_CHn_VISIT_STALE then s.raise F.SUP_STATUS_STALE_ANY else s
  let s := (List.range 96).foldl (fun s k => if clamping s k then clampFlag s k else s) s
  let s := if s.tone.xbar.isEmpty then s else s.raise F.EXC_MON_XBAR_ERR
  let s := if s.fab.ue then s.raise F.FAB_STATUS_UE else s
  let s := (lasting s).foldl (fun s x => if x.1 then s.raise x.2 else s) s
  let s := s.set F.DENC_STATUS_DRIFT_FAIL 0 ((List.range 4).foldl (fun w q => if s.flag F.DENC_PORTn_STAT_DRIFT_FAIL q then putBit w q true else w)
    (s.get F.DENC_STATUS_DRIFT_FAIL))
  let s := if o.flag F.CFG_STATUS_SEAL_CHG && sealDiffers s then s.raise F.CFG_STATUS_SEAL_CHG else s
  let s := if o.flag F.CRU_STATUS_VIN_LOW && decide (s.get F.CRU_VIN_VIN < 900) then s.raise F.CRU_STATUS_VIN_LOW else s
  let s := if (List.range 4).any (pendValid s) then s.raise F.STE_STATUS_ANN_NEW else s
  let s := if s.tl.lapsed && s.flag F.TLNK_CFG_EN then s.raise F.TLNK_STATUS_RX_LAPSE else s
  let t := fun (s : State) (x : Nat) =>
    if s.counting && s.flag (F.CANx_CFG_EN.can x) && !timingOk s x then s.raise (F.CANx_STATUS_TIMING_ERR.can x) else s
  t (t s 0) 1

/-- W1C flags cleared where a word has a 1. -/
def w1cFields (s : State) (p : Nat) (d : RegDesc) (v : Nat) : State :=
  if !hasCls d .w1c then s
  else
    let o := s
    let s := d.fields.foldl (fun s x =>
      if x.2 == .w1c then
        let f := portFld d p x.1
        s.set f 0 (s.get f ^^^ (s.get f &&& fldOf d x.1 v))
      else s) s
    let idc := fun (s : State) (x : Nat) =>
      if s.flag (F.CANx_IDCLASH_VALID.can x) then s else s.lower (F.CANx_IDCLASH_MULTI.can x)
    reassert o (idc (idc s 0) 1)

/-- A register of COMMISSIONING that is a view of a count tile written to the tile, and the views of that tile taken again; a write of FAB_SECn_TILE
moves the section's view to the tile it names (R210, R248). -/
def tileBack (s : State) (a : Nat) (d : RegDesc) : State :=
  if tileHomed a then
    let cfg := a < 0x60400
    let n := if cfg then (a - 0x60300) / 4 else (a - 0x60400) / 8
    match countTile s n with
    | some t => tileViews (s.putBytes (cfgBase + 0x800 * t + (if cfg then 72 else 80 + (a - 0x60400) % 8)) (leBytes 4 (storedWord s 0 d))) t
    | none => secView s n
  else if 0x90200 ≤ a ∧ a < 0x90200 + 4 * 48 then secView s ((a - 0x90200) / 4)
  else s

/-- The controller whose bit timing a register holds (R309). -/
def timingReg (a : Nat) : Option Nat :=
  if a = 0xC0010 ∨ a = 0xC0014 ∨ a = 0xC0018 then some 0
  else if a = 0xC4010 ∨ a = 0xC4014 ∨ a = 0xC4018 then some 1 else none

/-- A register of a connection (STE_CONNc): the parameters of a FREE DYNAMIC_SLOT stay zero (R332). -/
def connReg (a : Nat) : Bool := decide (0xE0100 ≤ a) && decide (a < 0xE0900)

/-- STATIC fields written in COMMISSIONING: at once, with DIRTY (R248), and with what rests on them: the views of count tiles, the points and
ports in use, a bit timing. -/
def staticPut (s : State) (a : Nat) (d : RegDesc) (v : Nat) : State :=
  let o := s
  let s := tileBack ((putFields s 0 d (fun c => c == .static) v).raise F.FAB_STATUS_DIRTY) a d
  let s := if connReg a then slotKeep s s ((a - 0xE0100) / 32) else s
  let s := if a = 0xF0008 then linkSync s else s
  let s := staticFollow o (forN 24 s (cpEnters o))
  match timingReg a with
  | some x => timingWritten s x
  | none => s

/-- A write by class: discarded whole where it changes a STATIC field outside COMMISSIONING or writes a SHADOW field of a
waiting set; else each field under its own class. -/
def writeFields (s : State) (p : HPort) (a : Nat) (d : RegDesc) (v : Nat) : State :=
  if staticChanges s p a d v ∧ s.dev ≠ .comm then s.accErr p a true .static_
  else if hasCls d .shadow ∧ commitState s p.toNat = cmWaiting then s.accErr p a true .busy
  else
    let s := if hasCls d .static ∧ s.dev = .comm then staticPut s a d v else s
    let s := if hasCls d .shadow then shadowPut s p.toNat [(a, v)] else s
    let s := putFields s p.toNat d (fun c => c == .live) v
    w1cFields s p.toNat d v

/-- NAME_H of a writable pair is staged for the port (R11). -/
def stageHigh (s : State) (p : HPort) (a v : Nat) : State :=
  s.updHost p.toNat (fun h => { h with staged := storeInsert h.staged a (v % 256) })

/-- NAME_L of a writable pair: both halves in one transfer, discarded without a staged NAME_H (R11). -/
def writePair (s : State) (p : HPort) (a : Nat) (d : RegDesc) (v : Nat) : State :=
  match (s.host p.toNat).staged.find? (fun x => x.1 == a + 4), regAt (a + 4) with
  | some h, some dh =>
    let take := fun (s : State) => s.updHost p.toNat (fun x => { x with staged := storeErase x.staged (a + 4) })
    if (changes s d .static v || changes s dh .static h.2) ∧ s.dev ≠ .comm then s.accErr p a true .static_
    else if hasCls d .shadow then
      if commitState s p.toNat = cmWaiting then s.accErr p a true .busy
      else take (shadowPut s p.toNat [(a + 4, h.2), (a, v)])
    else if s.dev = .comm then take (staticPut (putFields s 0 dh (fun c => c == .static) h.2) a d v)
    else take s
  | _, _ => s.accErr p a true .half

/-- A register with a field that a host may set. -/
def pairWritable (d : RegDesc) : Bool := hasCls d .static || hasCls d .shadow

/-- Registers whose writes are commands; none for any other. -/
def commandWrite (s : State) (p : HPort) (a : Nat) (d : RegDesc) (v : Nat) : Option State :=
  let b := canFold a
  let x := if a = b then 0 else 1
  match b with
  | 0x0C => some (devCmd s p v)
  | 0x10008 => some (excCmd s v)
  | 0x20004 => some (snapReq s p v)
  | 0x20040 => some (refCommand s p (inWord F.MEAS_REF_CMD_CH v) (inWord F.MEAS_REF_CMD_ALL v == 1))
  | 0x30008 => some (supCmd s p v)
  | 0x50054 => some (if v % 2 = 1 then locPop s else s)
  | 0x50080 => some (recReq s p v)
  | 0x60004 => some (restoreCmd s p.toNat v)
  | 0x70024 => some (if v % 2 = 1 then axqGo s p else s)
  | 0x80008 => some (dencCmd s v)
  | 0xA0008 => some (sioCmd s v)
  | 0xB002C => some (if v % 4 = 1 then clearDrvCmd s else s)
  | 0xC0008 => some (canCmd s x v)
  | 0xE0040 => some (admitWrite s p.toNat (inWord F.STE_ADMIT_OP v) (inWord F.STE_ADMIT_WL v) (inWord F.STE_ADMIT_CONN v))
  | 0xF000C => some (if v % 4 = 1 then ackDiv s else s)
  | 0x11001C => some (if v % 4 = 1 then freeOwn s p else s)
  | 0x120010 => some (
      if s.dev = .comm then bootSlotWrite s p v
      else if changes s d .static v then s.accErr p a true .static_ else s)
  | 0x120018 => some (commitCmd s p v)
  | 0x120080 => some (upCtrl s p v)
  | 0x120084 => some (upData s p v)
  | 0x14000C => some (gqFree s p (inWord F.JRN_GQ_FREE_N v))
  | _ =>
    if 0x110100 ≤ b ∧ b < 0x110180 then some (semWrite s p ((b - 0x110100) / 4) v)
    else if 0xC0900 ≤ b ∧ b < 0xC0A00 then some (ctrlWrite s p x ((b - 0xC0900) / 4) v)
    else if 0xC1000 ≤ b ∧ b < 0xC2200 then some (bufWrite s p x ((b - 0xC1000) / 72) ((b - 0xC1000) % 72 / 4) v)
    else if 0xD0100 ≤ b ∧ b < 0xD0500 then some (cvuWrite s p ((b - 0xD0100) / 64) (0x100 + (b - 0xD0100) % 64) d v)
    else none

/-- A word written to a register. -/
def writeRegAt (s : State) (p : HPort) (a : Nat) (d : RegDesc) (v : Nat) : State :=
  match commandWrite s p a d v with
  | some t => t
  | none =>
    if pairHigh a && pairWritable d then stageHigh s p a v
    else if pairLow a && pairWritable d then writePair s p a d v
    else
      let t := writeFields s p a d v
      if a = 0x140010 then t.gustLevel else t

/-- A word written by a port to any address (R374, R388, R389). The window ignores a write of BCW_CFG, whose one field is STATIC and so
reports a change outside COMMISSIONING (R12). -/
def writeWord (s : State) (p : HPort) (a v : Nat) : State :=
  if a % 4 ≠ 0 then s.accErr p a true .unaligned
  else if 0x200000 ≤ a ∧ a < 0x600000 then
    if s.dev = .comm then staticFollow s (cfgMemPut s a v) else s.accErr p a true .state_
  else if 0x600000 ≤ a ∧ a < 0xA00000 then s.accErr p a true .protected_
  else if 0x1E0000 ≤ a ∧ a < 0x1F0000 then
    match p with
    | .a => s.accErr p a true .port_
    | .b =>
      if a = 0x1E002C then bcwClr s v
      else if a = 0x1E0030 ∧ inWord F.BCW_CFG_EN v ≠ s.get F.BCW_CFG_EN ∧ s.dev ≠ .comm then s.accErr p a true .static_
      else if a ≤ 0x1E0030 then s else s.accErr p a true .unmapped
  else
    match regAt a with
    | some d => writeRegAt s p a d v
    | none => s.accErr p a true .unmapped

/-! ### Reads (R10, R313, R371, R405) -/

/-- The half captured for a port at an address (R10). -/
def snapOf (s : State) (p : HPort) (a : Nat) : Option Nat :=
  ((s.host p.toNat).snaps.find? (fun x => x.1 == a)).map (·.2)

/-- A half captured for a port. -/
def capture (s : State) (p : HPort) (a : Nat) : State :=
  match regAt a with
  | some d => let v := viewWord s p.toNat a d
    s.updHost p.toNat (fun h => { h with snaps := storeInsert h.snaps a v })
  | none => s

/-- The port of an encoder whose POS_L or TS_L lies at an address. -/
def encAt (base a : Nat) : Bool := decide (base ≤ a) && (a - base) % 64 == 0 && decide (a < base + 256)

/-- What a read of a NAME_L captures: NAME_H, with CRU_EPOCH for CRU_TIME_L, TS_L and TS_H for POS_L. -/
def captureLow (s : State) (p : HPort) (a : Nat) : State :=
  let s := capture s p (a + 4)
  if a = 0x130014 then capture s p 0x13001C
  else if encAt 0x80120 a then capture (capture s p (a + 8)) p (a + 12)
  else s

/-- A register's read: a captured half where there is one, the captures and releases of its address. -/
def readRegAt (s : State) (p : HPort) (a : Nat) (d : RegDesc) : State × Nat :=
  let v := viewWord s p.toNat a d
  if encAt 0x80128 a then
    match snapOf s p a with
    | some w => (s.updHost p.toNat (fun h => { h with snaps := storeErase h.snaps a }), w)
    | none => (capture s p (a + 4), v)
  else if pairLow a then (captureLow s p a, v)
  else if pairHigh a ∨ a = 0x13001C then (s, (snapOf s p a).getD v)
  else
    let b := canFold a
    let x := if a = b then 0 else 1
    if 0xC1000 ≤ b ∧ b < 0xC2200 then
      let i := (b - 0xC1000) / 72
      match (b - 0xC1000) % 72 / 4 with
      | 0 => (bufRead0 s p x i, v)
      | 17 => (bufRead17 s p x i, v)
      | _ => (s, v)
    else (s, v)

/-- A word read by a port at any address; a read that is an access error returns 0. -/
def readWord (s : State) (p : HPort) (a : Nat) : State × Nat :=
  if a % 4 ≠ 0 then (s.accErr p a false .unaligned, 0)
  else if 0x200000 ≤ a ∧ a < 0x670000 then (s, s.memWord a)
  else if 0x680000 ≤ a ∧ a < 0x6C0000 then (s, s.memWord a)
  else if 0x670000 ≤ a ∧ a < 0xA00000 then (s.accErr p a false .protected_, 0)
  else if 0x1E0000 ≤ a ∧ a < 0x1F0000 then
    match p with
    | .a => (s.accErr p a false .port_, 0)
    | .b => if a ≤ 0x1E0030 then bcwRead s ((a - 0x1E0000) / 4) else (s.accErr p a false .unmapped, 0)
  else
    match regAt a with
    | some d => readRegAt s p a d
    | none => (s.accErr p a false .unmapped, 0)

/-! ### Frames (R368 to R373) -/

/-- The CRC-16 of R369. -/
def crc16 (bs : List Byte) : Nat := crcMsb 16 0x1021 0xFFFF bs

/-- Opcode and address of a request as they cross the wire; `n` is the word count less 1. -/
def reqBytes (cmd n a : Nat) : List Byte := leBytes 1 (64 * cmd + n) ++ beBytes 3 a

/-- Words as they cross the wire. -/
def wireWords (ws : List Nat) : List Byte := ws.flatMap (beBytes 4)

/-- The address of word `i` of a frame. -/
def frameAddr (fixed : Bool) (a i : Nat) : Nat := if fixed then a else (a + 4 * i) % 2 ^ 24

/-- The response that a port returns. -/
def respond (s : State) (p : HPort) (ws : List Nat) (crc : Nat) : State :=
  s.updHost p.toNat (fun h => { h with resp := ws, respCrc := crc })

/-- A frame refused: zeros and the complement of the correct response CRC. -/
def respondBad (s : State) (p : HPort) (cmd n a : Nat) : State :=
  let ws := List.replicate (n + 1) 0
  respond s p ws (0xFFFF - crc16 (reqBytes cmd n a ++ wireWords ws))

/-- A failure of CRC or length counted. -/
def frameFail (s : State) (p : HPort) (f : Fld) : State :=
  (s.raise (f.port p.toNat)).bump (F.HPS_CNT_CRC_CNT.port p.toNat)

/-- Words read one after another. -/
def readWords (p : HPort) (fixed : Bool) (a : Nat) : Nat → Nat → State → List Nat → State × List Nat
  | 0, _, s, acc => (s, acc.reverse)
  | k + 1, i, s, acc =>
    let r := readWord s p (frameAddr fixed a i)
    readWords p fixed a k (i + 1) r.1 (r.2 :: acc)

/-- REPEAT (R372): the last accepted response again, when the counts agree. -/
def repeatFrame (s : State) (p : HPort) (n : Nat) : State :=
  match (s.host p.toNat).last with
  | some (_, _, ws) =>
    if ws.length = n + 1 then
      (respond s p ws (crc16 (reqBytes 0 n 0xFFFFFF ++ wireWords ws))).bump (F.HPS_CNT_REPEAT_CNT.port p.toNat)
    else frameFail (respondBad s p 0 n 0xFFFFFF) p F.HPS_STATUS_LEN_ERR
  | none => frameFail (respondBad s p 0 n 0xFFFFFF) p F.HPS_STATUS_LEN_ERR

/-- A read frame (R371): command 0 READ_INC or 1 READ_FIX. -/
def readFrame (s : State) (p : HPort) (cmd n a crc : Nat) : State :=
  if !s.portsUp then s
  else if crc ≠ crc16 (reqBytes cmd n a) then frameFail (respondBad s p cmd n a) p F.HPS_STATUS_CRC_ERR
  else if cmd = 0 ∧ a = 0xFFFFFF then repeatFrame s p n
  else
    let r := readWords p (cmd == 1) a (n + 1) 0 s []
    let s := respond r.1 p r.2 (crc16 (reqBytes cmd n a ++ wireWords r.2))
    s.updHost p.toNat (fun h => { h with last := some (64 * cmd + n, a, r.2) })

/-- A write frame (R370): command 2 WRITE_INC or 3 WRITE_FIX; executed whole or discarded whole. -/
def writeFrame (s : State) (p : HPort) (cmd n a : Nat) (data : List Nat) (crc : Nat) (csOk : Bool) : State :=
  if !s.portsUp then s
  else if !csOk ∨ data.length ≠ n + 1 then frameFail s p F.HPS_STATUS_LEN_ERR
  else if crc ≠ crc16 (reqBytes cmd n a ++ wireWords data) then frameFail s p F.HPS_STATUS_CRC_ERR
  else forEach (indexed 0 data) s (fun s x => writeWord s p (frameAddr (cmd == 3) a x.1) x.2)

/-- The effect of a command that a port writes, while the ports answer (R376). -/
def gate (s t : State) : State := if s.portsUp then t else s

/-- One word written by a port that answers. -/
def hostWrite (s : State) (p : HPort) (a v : Nat) : State := gate s (writeWord s p a v)

/-- One word read by a port that answers: its response. -/
def hostRead (s : State) (p : HPort) (a : Nat) : State :=
  if !s.portsUp then s
  else
    let r := readWord s p a
    let s := respond r.1 p [r.2] (crc16 (reqBytes 0 0 a ++ wireWords [r.2]))
    s.updHost p.toNat (fun h => { h with last := some (0, a, [r.2]) })

/-! ### The debugger (R274) -/

/-- The records of access errors of port A as they were: a debugger's access is not a port's. -/
def keepErr (s t : State) : State :=
  [F.HPS_STATUS_ACC_ERR, F.HPS_CNT_ACC_CNT, F.HPS_ERR_ADDR, F.HPS_ERR_KIND, F.HPS_ERR_WRITE, F.HPS_ERR_VALID].foldl
    (fun t f => t.set f 0 (s.get f)) t

/-- A write of the replay buffer delivered to CORE1 and CORE2 (R274). With all three cores at it, the voter issues a write of working
memory or of a device register (R253; DEDUCED, log entry 100). -/
def debugDeliver (s : State) (w : DebugWrite) : State :=
  match w.target with
  | .coreReg n => coreRegPut (coreRegPut s 1 n.toNat w.value.toNat) 2 n.toNat w.value.toNat
  | .memory a =>
    if 0x600000 ≤ a.toNat ∧ a.toNat < 0xA00000 then s.putBytes (a.toNat / 4 * 4) (leBytes 4 w.value.toNat) else s
  | .device a => keepErr s (writeWord s .a a.toNat w.value.toNat)
  | .breakpoint _ _ => s
  | .watchpoint _ _ => s

/-- The word that a core's read of the bus gives: of working memory, or of a device register as CORE0 reads it. -/
def busWord (s : State) (a : Nat) : Nat :=
  if 0x600000 ≤ a ∧ a < 0xA00000 then ofLeBytes ((List.range 4).map (fun i => s.byte (a / 4 * 4 + i)))
  else match regAt a with | some d => viewWord s 0 a d | none => 0

/-- What a debugger reads through CORE0 (R274): a core register, a word of working memory, a device register as CORE0 reads it, a
breakpoint or a watchpoint as it is set. The table has no row for a debugger's read, so no command calls this (log entry 98). -/
def debugRead (s : State) (t : DebugTarget) : Nat :=
  match t with
  | .coreReg n => storeGet 0 (coreArch s 0).regs n.toNat
  | .memory a => if 0x600000 ≤ a.toNat ∧ a.toNat < 0xA00000 then busWord s a.toNat else 0
  | .device a => if 0x600000 ≤ a.toNat ∧ a.toNat < 0xA00000 then 0 else busWord s a.toNat
  | .breakpoint k _ => (nth s.spu.breaks k.val).getD 0
  | .watchpoint k _ => (nth s.spu.watches k.val).getD 0

/-- The oldest entry of the replay buffer drains, and a stalled write enters. -/
def replayDrain (s : State) : State :=
  if !debugOpen s then s
  else
    match s.spu.replay with
    | [] => s
    | w :: ws =>
      let held := s.spu.stalled
      let s := debugDeliver (s.putSpu { s.spu with replay := ws, stalled := none }) w
      let s := s.set F.SPU_DBG_REPLAY_LVL 0 s.spu.replay.length
      match held with | some w => replayPut s w | none => s

/-- Every entry drains: the cores take a debugger's writes at one instruction position, before they go on. -/
def replayAll (s : State) : State := forN (replayMax + 1) s (fun s _ => replayDrain s)

/-- The word that the next instruction of the cores reads, if it reads one. -/
def coreWord (s : State) : Option Nat := (votedRead s).map (fun a => busWord s a.toNat)

/-- A single step: one instruction of each core that runs, after the writes that stand before it (R275). -/
def debugStep (s : State) : State :=
  if debugOpen s ∧ s.flag F.SPU_DBG_HALTED ∧ s.spu.stalled.isNone then coresStep (replayAll s) (coreWord (replayAll s)) else s

/-- The halted cores run on; not while the protocol is stalled. -/
def debugResume (s : State) : State :=
  if debugOpen s ∧ s.spu.stalled.isNone then (replayAll s).lower F.SPU_DBG_HALTED else s

/-- A debugger's write; a stalled protocol takes none. -/
def debugWrite (s : State) (w : DebugWrite) : State := if debugOpen s ∧ s.spu.stalled.isNone then replayPut s w else s

end Sys2Proof.Machine
end

