-- ==== Sys2Proof/Machine/Boundary.lean ====
section
/-!
DEFINITION. The safety-cycle boundary (01_counting_model.md, R42): everything that the device does there, in R42's order,
and the work of the cycle that ends which its commands have not already brought.
-/

namespace Sys2Proof.Machine

/-! ### The cycle that ends -/

/-- The running filter timers of tiles, earliest first, as tile, channel and tick of expiry. -/
def timerInsert (t : Nat × Nat) : List (Nat × Nat) → List (Nat × Nat)
  | [] => [t]
  | x :: xs => if t.2 < x.2 then t :: x :: xs else x :: timerInsert t xs

/-- Filter timers that run out before the boundary. -/
def timersOut (s : State) : State :=
  forEach (s.fab.timers.foldr timerInsert []) s (fun s t => timed (filterExpire · (t.1 / 4) (t.1 % 4)) s)

/-- The end of the running cycle: the tags of its samples (R95), filter timers, the claim of a decided takeover, the handover claim, the
input samples before the boundary's own (R283). -/
def cycleEnd (s : State) : State :=
  let s := takeoverClaim (if s.link.decided then (tagsPass s (s.cycleStart + 6000)).advanceTo (max s.now (s.cycleStart + 6000)) else s)
  let s := timersOut (timed handoverClaim s)
  sampleInputs ((tagsPass s (s.nextBoundary - 1)).advanceTo (max s.now (s.nextBoundary - 1)))

/-! ### Step 1 and 2 of R42 -/

/-- Frame pairs that end here (R79), pending excitation that an earlier boundary accepted (R58), commits, the boundary's own input sample,
which is the first under a committed DISC (R283), phase inversions; then one clock of the fabric and its snapshot (R219), which what
reaches the count tiles at this tick comes after (R211). R42, R58 and R59 do not order a point's pending values and a commit for the
point at one boundary: the pending values come first (DESIGN CHOICE, log entry 114). -/
def boundaryApply (s : State) : State :=
  let p := fabOver (s.putNow (s.now - 1))
  let s := if s.cycle % 1000 = 0 then forN 48 s calPairEnd else s
  let s := sampleInputs (carriedCommits (commitsBoundary (forN 24 s pendApply)))
  let s := fabTick p (altInvert s)
  clockAgain s (pairSnapshot (telSnapshot (tlSnapshot (fabSnapshot p (syncLedger (clockView s))))))

/-- The same while counting is stopped: commits, the input sample, the fabric's clock and its snapshot, which every boundary takes
(R42, R228). -/
def bootApply (s : State) : State :=
  let p := fabOver (s.putNow (s.now - 1))
  fabSnapshot p (fabTick p (sampleInputs (commitsBoundary s)))

/-! ### Step 3 of R42 -/

/-- Item 2: Lull entry of points, ports and sections. -/
def lullBoundary (s : State) : State :=
  if !s.counting then s else forN 48 (forN 4 (forN 24 s pointEnterLull) portEnterLull) secEnterLull

/-- Item 6: the other host commands that are evaluated at the boundary. -/
def commandsBoundary (s : State) : State :=
  let r := s.reqs
  let s := s.putReqs { r with supClear := [], clearIn := 0, clearOut := 0, clearDrv := false, goSafe := false }
  let s := clearOut (clearIn (forEach r.supClear s supArm) r.clearIn) r.clearOut
  let s := if r.clearDrv then clearDrv s else s
  let s := if r.goSafe && follows s then enterSafe s 10 else s
  resetExpire (commissioningEntry s)

/-- The work of the cores, in the order of R42; none while they are halted. -/
def coresWork (s : State) (m : Option (Nat × Int)) : State :=
  if !coresRun s then s
  else
    let s := lullBoundary (telegramBoundary (partnerReport s))
    let s := safeBoundary (squallBoundary s)
    let s := forN 2 (carriedBoundary (restoresBoundary s)) carriedLate
    let s := commandsBoundary (admissionsBoundary s)
    let s := steServe (forN 64 s telBuild)
    pairBoundary s m

/-! ### What the units do at a boundary by themselves -/

/-- Speeds, encoder ports, ledger and estimator. -/
def ledgerBoundary (s : State) : State :=
  if !s.counting then s
  else
    let s := forN 4 (forN 24 s speedStale) portFaultBoundary
    let s := jobsLate (forN 24 s refBoundary)
    let s := forN 24 s (fun s p => quietFinal (quietFinal s p false) p true)
    let s := cmpAxles (cmpBoundary (ledgerDiff s))
    forN 24 s (fun s p => s.bump F.SPOS_SPn_SST_AGE p)

/-- Measurement and supervision, which act while counting runs: the readback of the crossbar (R50) too, which in BOOT would find no
channel to make FAULTY (DESIGN CHOICE, log entry 108). -/
def sensorBoundary (s : State) (inp : BoundaryInputs) : State :=
  if !s.counting then s
  else
    let s := forN 48 s (fun s c => tagsBy s c s.now)
    let s := windowsFresh (s.putTone { s.tone with xbar := inp.xbarBad.map (·.val) })
    let s := forEach inp.xbarBad s (fun s p => xbarBad s p.val)
    forN 48 s (fun s c => refLate (zrefLate (faultyRelease (noiseBoundary s c) c) c) c)

/-- The balls read at the boundary (R293, R296, R297). -/
def ballsBoundary (s : State) (inp : BoundaryInputs) : State :=
  let hi := inp.soutHigh.toNat
  let lo := inp.soutLow.toNat
  let tl := inp.tlBalls.toNat
  let s := forN 12 s (fun s k =>
    (s.setFlag F.SIO_OUTk_STAT_SENSE_HI k (bitAt hi k)).setFlag F.SIO_OUTk_STAT_SENSE_LO k (bitAt lo k))
  let s := (s.setFlag F.TLNK_PIN_STOP_N 0 (bitAt tl 1)).setFlag F.TLNK_PIN_STILL 0 (bitAt tl 2)
  s.putBalls (hi, lo, tl)

/-- What a device that runs on reads at the boundary: VIN (R399) and the balls. -/
def pinsBoundary (s : State) (inp : BoundaryInputs) : State :=
  if s.portsUp then ballsBoundary (vinBoundary s inp.vin) inp else s

/-- Safety cycle k + 1 begins (R42). The count runs on its ticks (R402) and, in a STANDBY unit, steps after the active unit's (R348). -/
def boundary (s : State) (inp : BoundaryInputs) : State :=
  if !s.portsUp then s
  else
    let s := cycleEnd s
    let s := clockDone s s.nextBoundary
    let s := ((s.putNow ((s.cycle + 1) * cycleTicks)).putCycle (s.cycle + 1)).updLink (fun l => { l with step := 0, discards := 0 })
    let s := turnsDue s
    let s := if s.counting then boundaryApply s else bootApply s
    let s := grantExpire (startBoundary (sensorBoundary s inp))
    let s := if s.flag F.SPU_STATUS_HALTED then s else coresBoundary s
    let s := keepAliveBoundary (coresWork s inp.marker)
    let s := ledgerBoundary (tlBoundary s)
    let s := forN 2 s (fun s p => axqAnswer (recCopy s p) p)
    let s := if inp.bufCe0 then bufCorrected s 0 else s
    let s := if inp.bufCe1 then bufCorrected s 1 else s
    let s := pairEnd s
    stepCount (yieldLate (pinsBoundary (if resetPair s then enterReset s rcCommand else startupEntry s) inp))

end Sys2Proof.Machine
end

