-- ==== Sys2Proof/Machine/CanCommands.lean ====
section
/-!
DEFINITION. The meanings of the commands of the CAN controllers and the check-value unit (rows of 13): one definition for each
constructor of Instr, which settles its effect by `answer`.
-/

namespace Sys2Proof.Machine

/-- A frame received without error (R312). -/
def execCanFrameReceived (x : Fin 2) (frame : CanFrame) (s : State) : Host.Outcome State Fault Refusal :=
  answer s (canReceive s x.val frame)

/-- Word 0 of a buffer read by a port (R313). -/
def execRxBufLock (p : HPort) (x : Fin 2) (b : Fin 64) (s : State) : Host.Outcome State Fault Refusal :=
  answer s (gate s (bufRead0 s p x.val b.val))

/-- Word 17 of a buffer read by a port (R313). -/
def execRxBufRelease (p : HPort) (x : Fin 2) (b : Fin 64) (s : State) : Host.Outcome State Fault Refusal :=
  answer s (gate s (bufRead17 s p x.val b.val))

/-- LOCK_REL written (R313). -/
def execLockRel (p : HPort) (x : Fin 2) (b : Fin 64) (s : State) : Host.Outcome State Fault Refusal :=
  answer s (gate s (Sys2Proof.Machine.lockRel s p x.val b.val))

/-- A word of a buffer written by a port (R311). -/
def execTxBufWrite (p : HPort) (x : Fin 2) (b : Fin 64) (k : Fin 18) (v : Word) (s : State) : Host.Outcome State Fault Refusal :=
  answer s (gate s (bufWrite s p x.val b.val k.val v.toNat))

/-- TX_REQ written (R314). -/
def execTxReq (p : HPort) (x : Fin 2) (b : Fin 64) (s : State) : Host.Outcome State Fault Refusal :=
  answer s (gate s (Sys2Proof.Machine.txReq s p x.val b.val))

/-- ABORT written (R314). -/
def execBufAbort (p : HPort) (x : Fin 2) (b : Fin 64) (s : State) : Host.Outcome State Fault Refusal :=
  answer s (gate s (Sys2Proof.Machine.bufAbort s p x.val b.val))

/-- REENABLE written (R319). -/
def execReenable (p : HPort) (x : Fin 2) (b : Fin 64) (s : State) : Host.Outcome State Fault Refusal :=
  answer s (gate s (Sys2Proof.Machine.reenable s p x.val b.val))

/-- A frame is sent (R314), with the measured TDCV. -/
def execCanFrameTransmitted (x : Fin 2) (tdcv : BitVec 7) (s : State) : Host.Outcome State Fault Refusal :=
  answer s (steFreed s (canSent s x.val tdcv.toNat))

/-- A bus error (R316). -/
def execCanError (x : Fin 2) (e : CanError) (s : State) : Host.Outcome State Fault Refusal :=
  let t := Sys2Proof.Machine.canError s x.val e
  match e.kind with
  | .rxError | .rxFlag | .txFlag => answer s t
  | .txUncounted | .txError | .txAck _ => answer s (steFreed s t)

/-- 128 occurrences of 11 recessive bits (R317). -/
def execBusoffRecovery (x : Fin 2) (s : State) : Host.Outcome State Fault Refusal :=
  answer s (canRecover s x.val)

/-- RELEASE of CANx_CMD (R317). -/
def execCanRelease (_p : HPort) (x : Fin 2) (s : State) : Host.Outcome State Fault Refusal :=
  answer s (gate s (Sys2Proof.Machine.canRelease s x.val))

/-- ABORT of CANx_CMD (R314). -/
def execAbortAll (_p : HPort) (x : Fin 2) (s : State) : Host.Outcome State Fault Refusal :=
  answer s (gate s (Sys2Proof.Machine.abortAll s x.val))

/-- A controller is lost (R320, R321). -/
def execCanControllerLost (x : Fin 2) (cause : CanLostCause) (s : State) : Host.Outcome State Fault Refusal :=
  answer s (timed (canLost · x.val cause) s)

/-- START of a check-value channel (R324). -/
def execCvuStart (p : HPort) (n : Fin 16) (s : State) : Host.Outcome State Fault Refusal :=
  answer s (gate s (Sys2Proof.Machine.cvuStart s p n.val))

/-- DATA32 written (R324). -/
def execData32 (p : HPort) (n : Fin 16) (v : Word) (s : State) : Host.Outcome State Fault Refusal :=
  answer s (gate s (cvuData s p n.val 0x128 4 v.toNat))

/-- DATA16 written (R324). -/
def execData16 (p : HPort) (n : Fin 16) (v : BitVec 16) (s : State) : Host.Outcome State Fault Refusal :=
  answer s (gate s (cvuData s p n.val 0x12C 2 v.toNat))

/-- DATA8 written (R324). -/
def execData8 (p : HPort) (n : Fin 16) (v : Byte) (s : State) : Host.Outcome State Fault Refusal :=
  answer s (gate s (cvuData s p n.val 0x130 1 v.toNat))

/-- CTX written (R325). -/
def execCtxWrite (p : HPort) (n : Fin 16) (v : Word) (s : State) : Host.Outcome State Fault Refusal :=
  answer s (gate s (cvuCtx s p n.val v.toNat))

/-- FINISH of a channel (R324). -/
def execFinish (p : HPort) (n : Fin 16) (s : State) : Host.Outcome State Fault Refusal :=
  answer s (gate s (cvuFinish s p n.val))

/-- RELEASE of a channel (R327). -/
def execCvuRelease (p : HPort) (n : Fin 16) (s : State) : Host.Outcome State Fault Refusal :=
  answer s (gate s (Sys2Proof.Machine.cvuRelease s p n.val))

/-- A transmitting controller loses arbitration (R314). -/
def execLostArbitration (x : Fin 2) (s : State) : Host.Outcome State Fault Refusal :=
  answer s (steFreed s (lostArb s x.val))

/-- A recessive res bit in a received frame (R305). -/
def execProtocolException (x : Fin 2) (s : State) : Host.Outcome State Fault Refusal :=
  answer s (protoException s x.val)

end Sys2Proof.Machine
end

