-- ==== Sys2Proof/Machine/ClockCommands.lean ====
section
/-!
DEFINITION. The meanings of the commands of clock, supply, reset and start-up (rows of 00, 01 and 18: R8, R42, R398 to R414): one definition for each
constructor of Instr, which settles its effect by `answer`.
-/

namespace Sys2Proof.Machine

/-- The next wrap of the timestamp, when it falls in the running cycle. -/
def timestampWrap (s : State) : State :=
  let t := (s.now / 2 ^ 40 + 1) * 2 ^ 40
  if s.portsUp && s.due t then s.advanceTo t else s

/-- The boundary at which the sweep has run for four rotations without completing. -/
def sweepLate (s : State) : State :=
  if atBoundary s && s.cycle == s.boot.ks + 200 && !sweepWhole s then sweepBoundary s else s

/-- The boundary at which the sweep is complete. -/
def operationalEntry (s : State) : State := if atBoundary s && sweepWhole s then sweepBoundary s else s

/-- The timestamp wraps in the running cycle (R8, R405): the instant moves on to the tick of the wrap, which is 2^40 times the
new epoch. -/
def execTimestampWrap (s : State) : Host.Outcome State Fault Refusal :=
  answer s (timed timestampWrap s)

/-- The next safety cycle begins (R42) with what the pins present at its boundary. -/
def execSafetyCycleBoundary (inp : BoundaryInputs) (s : State) : Host.Outcome State Fault Refusal :=
  answer s (boundary s inp)

/-- VIN rises to a level on an unpowered device (R398). -/
def execPowerOnReset (vin : BitVec 16) (s : State) : Host.Outcome State Fault Refusal :=
  answer s (powerOn s vin.toNat)

/-- RESET_N is held low for a time in units of 0.1 µs (R406). -/
def execResetPin (dur : Nat) (s : State) : Host.Outcome State Fault Refusal :=
  answer s (Sys2Proof.Machine.resetPin s dur)

/-- Reset is released (R409): what the patch area of the flash was programmed with since the last release (none: nothing), and whether
the resonator qualifies. -/
def execResetRelease (patches : Option (List Patch)) (qualified : Bool) (s : State) : Host.Outcome State Fault Refusal :=
  answer s (Sys2Proof.Machine.resetRelease s patches qualified)

/-- The root PLL locks (R40), with the start-up reading of the seal switches. -/
def execPllLock (seals : SealSamples) (s : State) : Host.Outcome State Fault Refusal :=
  answer s (Sys2Proof.Machine.pllLock s seals)

/-- The load ends (R238), with the second seal reading, the cores that failed their boot self-test and a read error of the flash. -/
def execLoadEnd (seals : SealSamples) (fails : BitVec 3) (readErr : Option (BitVec 11)) (s : State) : Host.Outcome State Fault Refusal :=
  answer s (Sys2Proof.Machine.loadEnd s seals fails.toNat readErr)

/-- A root-clock monitor (A: false, B: true) completes a window (R403), the other's window ending in the same reference period
where its count is given. -/
def execMonitorWindow (mon : Bool) (count : BitVec 16) (other : Option (BitVec 16)) (s : State) : Host.Outcome State Fault Refusal :=
  answer s (Sys2Proof.Machine.monitorWindow s mon count.toNat (other.map BitVec.toNat))

/-- The lock detector reports loss of lock (R404). -/
def execPllLockLoss (s : State) : Host.Outcome State Fault Refusal :=
  answer s (pllLoss s)

/-- Entry to STARTUP at the first boundary after the load (R410). -/
def execStartupEntry (s : State) : Host.Outcome State Fault Refusal :=
  answer s (Sys2Proof.Machine.startupEntry s)

/-- The end of start-up calibration at kc (R411, R412). -/
def execCalEnd (s : State) : Host.Outcome State Fault Refusal :=
  answer s (Sys2Proof.Machine.calEnd s)

/-- The sweep ends after its fourth rotation without completing (R413). -/
def execSweepLate (s : State) : Host.Outcome State Fault Refusal :=
  answer s (Sys2Proof.Machine.sweepLate s)

/-- The sweep is complete at its boundary and the device enters OPERATIONAL (R414). -/
def execOperationalEntry (s : State) : Host.Outcome State Fault Refusal :=
  answer s (Sys2Proof.Machine.operationalEntry s)

/-- VCORE has fallen below 0.30 V: the power-on reset re-arms (R406). -/
def execPowerOnResetRearm (s : State) : Host.Outcome State Fault Refusal :=
  answer s (powerDown s)

end Sys2Proof.Machine
end

