-- ==== Sys2Proof/Machine/CountingCommands.lean ====
section
/-!
DEFINITION. The meanings of the commands of wheel events, axle ledger, section states, speeds and positions (rows of 05 to 08): one definition for each
constructor of Instr, which settles its effect by `answer`.
-/

namespace Sys2Proof.Machine

/-- An encoder frame taken in (R191), then what rests on a valid one: boundary units, the states of the virtual points, which are judged
after every count of the frame (R31), compares, speeds. -/
def encFrame (s : State) (q edge : Nat) (idleHigh : Bool) (bits : List Bool) : State :=
  if !s.counting ∨ !s.flag F.DENC_PORTn_CFG_ATTACH q then s
  else
    let t := edge + s.get F.DENC_PORTn_TIMING_LAT_COMP q
    let r := takeFrame s q edge idleHigh bits
    if r.2 ∧ encState r.1 q ≠ encFault then spdPort (cmpFrame (forN 8 (unitsFrame r.1 q t) vcpEval) q t) q else r.1

/-- LATE_LIM polls in a row have brought no valid frame (R192). -/
def encLateNow (s : State) (q : Nat) : State :=
  if s.counting ∧ s.flag F.DENC_PORTn_CFG_ATTACH q ∧ (encState s q = encValid ∨ encState s q = encDetached) then
    let lim := s.get F.DENC_PORTn_LIM_LATE_LIM q
    let poll := pollTicks s q
    portLate (s.updEnc q (fun e =>
      { e with missed := max e.missed lim, polls := (List.replicate (lim - e.missed) false ++ e.polls).take 256,
               lastPoll := e.lastPoll.map (fun t => t + (lim - e.missed) * poll) })) q
  else s

/-- A hold expires in the running cycle with no onset (R126). -/
def execHoldExpiry (sp : Fin 24) (s : State) : Host.Outcome State Fault Refusal :=
  answer s (if s.counting then timed (holdExpire · sp.val) s else s)

/-- A link window expires in the running cycle (R127). -/
def execLinkWindowExpiry (sp : Fin 24) (s : State) : Host.Outcome State Fault Refusal :=
  answer s (if s.counting then timed (linkExpire · sp.val) s else s)

/-- A channel's PARKED record is produced (R131). -/
def execParked (ch : Fin 48) (s : State) : Host.Outcome State Fault Refusal :=
  answer s (if s.counting then parkRecord s ch.val else s)

/-- A free engine starts the oldest queued job (R155). -/
def execMatchJobStart (s : State) : Host.Outcome State Fault Refusal :=
  answer s (startJob s)

/-- An engine finishes its alignment (R150 to R154). -/
def execMatchJobComplete (eng : Fin 2) (s : State) : Host.Outcome State Fault Refusal :=
  answer s (completeJob s eng.val)

/-- QUIET finality of a station and direction at a boundary (R152). -/
def execQuietFinal (sp : Fin 24) (neg : Bool) (s : State) : Host.Outcome State Fault Refusal :=
  answer s (if atBoundary s && s.counting then Sys2Proof.Machine.quietFinal s sp.val neg else s)

/-- Jobs queued for more than 500 ms become late (R156). -/
def execJobLate (s : State) : Host.Outcome State Fault Refusal :=
  answer s (if atBoundary s && s.counting then jobsLate s else s)

/-- POP of LEDG_LOC_POP (R160). -/
def execPop (_p : HPort) (s : State) : Host.Outcome State Fault Refusal :=
  answer s (gate s (locPop s))

/-- GO of LEDG_REC_REQ for a slot (R143). -/
def execRecReqGo (p : HPort) (slot : BitVec 12) (s : State) : Host.Outcome State Fault Refusal :=
  answer s (gate s (Sys2Proof.Machine.recReqGo s p slot.toNat))

/-- SUPERVISED of SECT_RESTORE_CMD (R171). -/
def execSupervised (p : HPort) (sec : BitVec 6) (s : State) : Host.Outcome State Fault Refusal :=
  answer s (gate s (restoreWrite s p.toNat opSupervised sec.toNat))

/-- DIRECT of SECT_RESTORE_CMD with a token (R174). -/
def execDirect (p : HPort) (sec : BitVec 6) (tok : BitVec 16) (s : State) : Host.Outcome State Fault Refusal :=
  answer s (gate s (directWrite s p.toNat sec.toNat tok.toNat))

/-- DISTURB of SECT_RESTORE_CMD (R167, R180). -/
def execDisturb (p : HPort) (sec : BitVec 6) (s : State) : Host.Outcome State Fault Refusal :=
  answer s (gate s (restoreWrite s p.toNat opDisturb sec.toNat))

/-- WITHDRAW of SECT_RESTORE_CMD (R174). -/
def execDirectWithdraw (p : HPort) (s : State) : Host.Outcome State Fault Refusal :=
  answer s (gate s (Sys2Proof.Machine.directWithdraw s p.toNat))

/-- A DIRECT entry older than 5 s is discarded as EXPIRED at a boundary, after the pairing (R174). -/
def execDirectExpired (p : HPort) (s : State) : Host.Outcome State Fault Refusal :=
  answer s (if atBoundary s && coresRun s then directExpire (directPair s) p.toNat else s)

/-- The identity-proven restore of a section at a boundary (R176). -/
def execIdentityRestore (sec : Fin 48) (s : State) : Host.Outcome State Fault Refusal :=
  answer s (if atBoundary s && s.counting && coresRun s then identityEval s sec.val else s)

/-- A standby's DISTURB that no image has carried back within 4 cycles (R180). -/
def execStandbyDisturbReject (p : HPort) (s : State) : Host.Outcome State Fault Refusal :=
  answer s (if coresRun s then carriedLate s p.toNat else s)

/-- A held pair speed goes STALE at a boundary (R185). -/
def execSpeedStale (sp : Fin 24) (s : State) : Host.Outcome State Fault Refusal :=
  answer s (if atBoundary s && s.counting then Sys2Proof.Machine.speedStale s sp.val else s)

/-- A point enters Lull at a boundary (R186). -/
def execPointLullEntry (sp : Fin 24) (s : State) : Host.Outcome State Fault Refusal :=
  answer s (if atBoundary s && s.counting && coresRun s then pointEnterLull s sp.val else s)

/-- An encoder frame: the tick of its first falling edge, whether DAT was high before it, its bits (R189 to R192). -/
def execEncoderFrame (port : Fin 4) (edge : Nat) (idleHigh : Bool) (bits : List Bool) (s : State) : Host.Outcome State Fault Refusal :=
  answer s (encFrame s port.val edge idleHigh bits)

/-- LATE_LIM polls have passed without a valid frame (R192). -/
def execEncoderLate (port : Fin 4) (s : State) : Host.Outcome State Fault Refusal :=
  answer s (encLateNow s port.val)

/-- A port enters Lull at a boundary (R196). -/
def execPortLullEntry (port : Fin 4) (s : State) : Host.Outcome State Fault Refusal :=
  answer s (if atBoundary s && s.counting && coresRun s then portEnterLull s port.val else s)

/-- An armed port without a reference mark leaves FAULT at a boundary (R197). -/
def execEncoderFaultRelease (port : Fin 4) (s : State) : Host.Outcome State Fault Refusal :=
  answer s (if atBoundary s && s.counting then portFaultBoundary s port.val else s)

/-- CLEAR of DENC_CMD (R197). -/
def execPortClear (_p : HPort) (ports : BitVec 4) (s : State) : Host.Outcome State Fault Refusal :=
  answer s (gate s (portArm s ports.toNat))

/-- REARM of DENC_CMD (R203). -/
def execRearm (_p : HPort) (cmps : BitVec 16) (s : State) : Host.Outcome State Fault Refusal :=
  answer s (gate s (cmpRearm s cmps.toNat))

/-- DISARM of DENC_CMD (R203). -/
def execDisarm (_p : HPort) (cmps : BitVec 16) (s : State) : Host.Outcome State Fault Refusal :=
  answer s (gate s (cmpDisarm s cmps.toNat))

/-- GO of SPOS_AXQ_REQ (R199). -/
def execAxqGo (p : HPort) (s : State) : Host.Outcome State Fault Refusal :=
  answer s (gate s (Sys2Proof.Machine.axqGo s p))

end Sys2Proof.Machine
end

