-- ==== Sys2Proof/Machine/FabricCommands.lean ====
section
/-!
DEFINITION. The meanings of the commands of the section fabric, the bit-stream and the seal (rows of 09 and 10): one definition for each
constructor of Instr, which settles its effect by `answer`.
-/

namespace Sys2Proof.Machine

/-- A filter channel's time elapses in the running cycle (R214). -/
def execFilterTimerExpiry (tile : Fin 2048) (ch : Fin 4) (s : State) : Host.Outcome State Fault Refusal :=
  answer s (timed (filterExpire · tile.val ch.val) s)

/-- The scrubber reads its next word (R224, R225). -/
def execScrubWord (finding : ScrubFinding) (s : State) : Host.Outcome State Fault Refusal :=
  answer s (Sys2Proof.Machine.scrubWord s finding)

/-- A double-bit error of a configuration word (R226). -/
def execDoubleBitError (word : Fin 524288) (s : State) : Host.Outcome State Fault Refusal :=
  answer s (if s.portsUp then doubleBit s word.val else s)

/-- A word written to the configuration memory window (R227). -/
def execCfgMemWrite (p : HPort) (addr : Addr) (v : Word) (s : State) : Host.Outcome State Fault Refusal :=
  answer s (hostWrite s p addr.toNat v.toNat)

/-- The periodic reading of the seal switches (R241). -/
def execSealReading (seals : SealSamples) (s : State) : Host.Outcome State Fault Refusal :=
  answer s (timed (sealPeriodic · seals) s)

/-- COMMIT of CFG_COMMIT (R244). -/
def execCommit (p : HPort) (s : State) : Host.Outcome State Fault Refusal :=
  answer s (gate s (commitWait s p.toNat))

/-- DISCARD of CFG_COMMIT (R246). -/
def execDiscard (p : HPort) (s : State) : Host.Outcome State Fault Refusal :=
  answer s (gate s (commitDiscard s p))

/-- START of CFG_UP_CTRL with a target (R240). -/
def execUploadStart (p : HPort) (target : BitVec 2) (s : State) : Host.Outcome State Fault Refusal :=
  answer s (gate s (upStart s p target.toNat))

/-- ABORT of CFG_UP_CTRL (R240). -/
def execUploadAbort (p : HPort) (s : State) : Host.Outcome State Fault Refusal :=
  answer s (gate s (upAbort s p))

/-- CFG_UP_DATA written (R240). -/
def execUploadData (p : HPort) (w : Word) (s : State) : Host.Outcome State Fault Refusal :=
  answer s (gate s (upData s p w.toNat))

/-- The checks of an upload are complete (R240). -/
def execUpDone (s : State) : Host.Outcome State Fault Refusal :=
  answer s (Sys2Proof.Machine.upDone s)

end Sys2Proof.Machine
end

