-- ==== Sys2Proof/Machine/FieldCommands.lean ====
section
/-!
DEFINITION. The meanings of the commands of excitation, measurement and sensor supervision (rows of 02, 03 and 04): one definition for each
constructor of Instr, which settles its effect by `answer`.
-/

namespace Sys2Proof.Machine

/-- The phase inversion at a boundary whose index is a multiple of 500 (R51). -/
def execAltPhaseInversion (s : State) : Host.Outcome State Fault Refusal :=
  answer s (if atBoundary s && s.counting then altInvert s else s)

/-- The pending values of a point at a boundary (R58). -/
def execPendingExcApply (sp : Fin 24) (s : State) : Host.Outcome State Fault Refusal :=
  answer s (if atBoundary s && s.counting then pendApply s sp.val else s)

/-- A point leaves BLIND after its last settling sample (R55). -/
def execSettlingEnd (sp : Fin 24) (s : State) : Host.Outcome State Fault Refusal :=
  answer s (if s.counting then Sys2Proof.Machine.settlingEnd s sp.val else s)

/-- FORCE of EXC_CMD (R60). -/
def execForce (_p : HPort) (pts : BitVec 24) (s : State) : Host.Outcome State Fault Refusal :=
  answer s (gate s (pendForce s pts.toNat))

/-- CANCEL of EXC_CMD (R59). -/
def execCancel (_p : HPort) (pts : BitVec 24) (s : State) : Host.Outcome State Fault Refusal :=
  answer s (gate s (pendCancel s pts.toNat))

/-- A source is declared FAILED, its deviation since a tick (R62). -/
def execSourceFailure (src : Fin 56) (onset : Nat) (s : State) : Host.Outcome State Fault Refusal :=
  answer s (sourceFail s src.val onset)

/-- A pin's clamp conducts from one tick to another (R67). -/
def execClampConduction (pin : Fin 96) (onset : Nat) (last : Nat) (s : State) : Host.Outcome State Fault Refusal :=
  answer s (clampConduct s pin.val onset last)

/-- The clamp episode of a pin ends 1,250 ticks after its last conduction (R67). -/
def execClampEpisodeEnd (pin : Fin 96) (s : State) : Host.Outcome State Fault Refusal :=
  answer s (timed (clampEnd · pin.val) s)

/-- A listening unit finds a point's carrier absent since a tick (R429). -/
def execCarrierLoss (sp : Fin 24) (onset : Nat) (s : State) : Host.Outcome State Fault Refusal :=
  answer s (Sys2Proof.Machine.carrierLoss s sp.val onset)

/-- A carrier reaches a point again (R429). -/
def execCarrierReturn (sp : Fin 24) (s : State) : Host.Outcome State Fault Refusal :=
  answer s (Sys2Proof.Machine.carrierReturn s sp.val)

/-- A channel completes the sample of an index: demodulated I and Q, and whether the modulator leaves its stable range in this sample and
in each of the four after it (R76, R95, R119). -/
def execDampingSample (ch : Fin 48) (k : Nat) (i : Int) (q : Int) (ovr : BitVec 5) (s : State) : Host.Outcome State Fault Refusal :=
  answer s (if s.counting then takeSample s ch.val k i q ovr else if s.portsUp then latchOnly s ch.val k i q ovr else s)

/-- The boundary that ends an ALTERNATING frame pair (R79). -/
def execCalPairEnd (ch : Fin 48) (s : State) : Host.Outcome State Fault Refusal :=
  answer s (if atBoundary s && s.counting && s.cycle % 1000 == 0 then Sys2Proof.Machine.calPairEnd s ch.val else s)

/-- MEAS_REF_CMD written (R80, R81). -/
def execRefCapture (p : HPort) (ch : BitVec 6) (all : Bool) (s : State) : Host.Outcome State Fault Refusal :=
  answer s (gate s (refCommand s p ch.toNat all))

/-- A channel's reference capture completes (R80). -/
def execRefCaptureDone (ch : Fin 48) (s : State) : Host.Outcome State Fault Refusal :=
  answer s (refDone s ch.val)

/-- A channel's reference capture runs out of samples (R80). -/
def execRefErr (ch : Fin 48) (s : State) : Host.Outcome State Fault Refusal :=
  answer s (refLate s ch.val)

/-- GO of MEAS_SNAP_REQ with a source (R88). -/
def execSnapGo (p : HPort) (src : BitVec 2) (s : State) : Host.Outcome State Fault Refusal :=
  answer s (gate s (snapReq s p (16 * src.toNat + 1)))

/-- The snapshot's samples are written out once every selected channel has been latched (R88). -/
def execSnapDone (s : State) : Host.Outcome State Fault Refusal :=
  answer s (Sys2Proof.Machine.snapDone s)

/-- The monitor flags a channel, its deviation since a tick (R94). -/
def execMonitorFlag (ch : Fin 48) (onset : Nat) (cls : MonClass) (s : State) : Host.Outcome State Fault Refusal :=
  answer s (Sys2Proof.Machine.monitorFlag s ch.val onset cls)

/-- A flagged episode ends with its last tick (R96). -/
def execMonitorEpisodeEnd (ch : Fin 48) (last : Nat) (s : State) : Host.Outcome State Fault Refusal :=
  answer s (monitorEnd s ch.val last)

/-- A deviation too short for a flag (R97). -/
def execGlitch (ch : Fin 48) (s : State) : Host.Outcome State Fault Refusal :=
  answer s (Sys2Proof.Machine.glitch s ch.val)

/-- A tone visit ends with its measured impedance (R103). -/
def execToneVisitVerdict (ch : Fin 48) (mag : BitVec 16) (phase : BitVec 16) (limit : Bool) (cross : Option (Fin 48 × BitVec 16)) (s : State) : Host.Outcome State Fault Refusal :=
  answer s (toneVisit s ch.val mag.toNat phase.toNat limit (cross.map (fun x => (x.1, x.2))))

/-- The tone path's self-check in slot 48 or 49 (R109). -/
def execToneSelfCheck (mag : BitVec 16) (phase : BitVec 16) (residual : BitVec 16) (s : State) : Host.Outcome State Fault Refusal :=
  answer s (timed (toneSelf · mag.toNat phase.toNat residual.toNat) s)

/-- A channel's AGE is judged against AGE_LIM (R106). -/
def execChannelStale (ch : Fin 48) (s : State) : Host.Outcome State Fault Refusal :=
  answer s (if s.counting then staleCheck s ch.val else s)

/-- CLEAR of SUP_CMD (R113). -/
def execSupClear (_p : HPort) (ch : BitVec 6) (all : Bool) (s : State) : Host.Outcome State Fault Refusal :=
  answer s (gate s (supClearCmd s ch.toNat all))

/-- A channel leaves FAULTY at a boundary (R113). -/
def execFaultyRelease (ch : Fin 48) (s : State) : Host.Outcome State Fault Refusal :=
  answer s (if atBoundary s && s.counting then Sys2Proof.Machine.faultyRelease s ch.val else s)

/-- CAPTURE of SUP_CMD (R115). -/
def execZrefCapture (p : HPort) (ch : BitVec 6) (all : Bool) (s : State) : Host.Outcome State Fault Refusal :=
  answer s (gate s (supCapture s p ch.toNat all))

/-- A channel completes its eight qualifying visits (R115). -/
def execZrefCaptureDone (ch : Fin 48) (s : State) : Host.Outcome State Fault Refusal :=
  answer s (zrefDone s ch.val)

/-- A channel's impedance capture runs out of rotations (R115). -/
def execZrefErr (ch : Fin 48) (s : State) : Host.Outcome State Fault Refusal :=
  answer s (zrefLate s ch.val)

end Sys2Proof.Machine
end

