-- ==== Sys2Proof/Machine/HostCommands.lean ====
section
/-!
DEFINITION. The meanings of the commands of the host ports: register accesses, frames, semaphores and device commands (rows of 00, 10 and 16): one definition for each
constructor of Instr, which settles its effect by `answer`.
-/

namespace Sys2Proof.Machine

/-- A word written to a register that has no row of its own (R247, R374). -/
def execRegisterWrite (p : HPort) (addr : Addr) (v : Word) (s : State) : Host.Outcome State Fault Refusal :=
  answer s (hostWrite s p addr.toNat v.toNat)

/-- A word written to NAME_H of a pair (R11). -/
def execPairHWrite (p : HPort) (addr : Addr) (v : Word) (s : State) : Host.Outcome State Fault Refusal :=
  answer s (hostWrite s p addr.toNat v.toNat)

/-- A word written to NAME_L of a pair (R11). -/
def execPairLWrite (p : HPort) (addr : Addr) (v : Word) (s : State) : Host.Outcome State Fault Refusal :=
  answer s (hostWrite s p addr.toNat v.toNat)

/-- NAME_L of a pair read (R10). -/
def execPairLRead (p : HPort) (addr : Addr) (s : State) : Host.Outcome State Fault Refusal :=
  answer s (hostRead s p addr.toNat)

/-- DENC_PORTn_POS_L read (R10). -/
def execPosRead (p : HPort) (port : Fin 4) (s : State) : Host.Outcome State Fault Refusal :=
  answer s (hostRead s p (0x80120 + 64 * port.val))

/-- CRU_TIME_L read (R405). -/
def execCruTimeRead (p : HPort) (s : State) : Host.Outcome State Fault Refusal :=
  answer s (hostRead s p 0x130014)

/-- A word written to a register with W1C flags (R15). -/
def execW1cClear (p : HPort) (addr : Addr) (mask : Word) (s : State) : Host.Outcome State Fault Refusal :=
  answer s (hostWrite s p addr.toNat mask.toNat)

/-- A READ_INC frame (R368, R371). -/
def execReadInc (p : HPort) (n : Fin 64) (addr : Addr) (crc : BitVec 16) (s : State) : Host.Outcome State Fault Refusal :=
  answer s (readFrame s p 0 n.val addr.toNat crc.toNat)

/-- A READ_FIX frame (R368, R371). -/
def execReadFix (p : HPort) (n : Fin 64) (addr : Addr) (crc : BitVec 16) (s : State) : Host.Outcome State Fault Refusal :=
  answer s (readFrame s p 1 n.val addr.toNat crc.toNat)

/-- A WRITE_INC frame (R370). -/
def execWriteInc (p : HPort) (n : Fin 64) (addr : Addr) (data : List Word) (crc : BitVec 16) (csOk : Bool) (s : State) : Host.Outcome State Fault Refusal :=
  answer s (writeFrame s p 2 n.val addr.toNat (data.map BitVec.toNat) crc.toNat csOk)

/-- A WRITE_FIX frame (R370). -/
def execWriteFix (p : HPort) (n : Fin 64) (addr : Addr) (data : List Word) (crc : BitVec 16) (csOk : Bool) (s : State) : Host.Outcome State Fault Refusal :=
  answer s (writeFrame s p 3 n.val addr.toNat (data.map BitVec.toNat) crc.toNat csOk)

/-- A REPEAT request: a READ_INC at 0xFF_FFFF (R372). -/
def execRepeatResponse (p : HPort) (n : Fin 64) (crc : BitVec 16) (s : State) : Host.Outcome State Fault Refusal :=
  answer s (readFrame s p 0 n.val 0xFFFFFF crc.toNat)

/-- A port writes an identity to a semaphore (R378). -/
def execSemTake (p : HPort) (k : Fin 32) (id : BitVec 2) (s : State) : Host.Outcome State Fault Refusal :=
  answer s (gate s (semWrite s p k.val id.toNat))

/-- A port writes 0 to a semaphore (R378). -/
def execSemRelease (p : HPort) (k : Fin 32) (s : State) : Host.Outcome State Fault Refusal :=
  answer s (gate s (semWrite s p k.val 0))

/-- FREE_OWN of HPS_CMD (R379). -/
def execFreeOwn (p : HPort) (s : State) : Host.Outcome State Fault Refusal :=
  answer s (gate s (Sys2Proof.Machine.freeOwn s p))

/-- ENTER_COMM of DEV_CMD with a key (R380). -/
def execEnterComm (p : HPort) (key : BitVec 16) (s : State) : Host.Outcome State Fault Refusal :=
  answer s (gate s (keyed s p key.toNat (Sys2Proof.Machine.enterComm s p)))

/-- Entry to COMMISSIONING at a boundary (R380). -/
def execCommissioningEntry (s : State) : Host.Outcome State Fault Refusal :=
  answer s (Sys2Proof.Machine.commissioningEntry s)

/-- RESET of DEV_CMD with a key (R381): held pending; with the other port's within 5 s, the next boundary resets the device. -/
def execResetCommand (p : HPort) (key : BitVec 16) (s : State) : Host.Outcome State Fault Refusal :=
  answer s (gate s (keyed s p key.toNat (devReset s p)))

/-- A pending RESET older than 5 s is discarded at a boundary (R381). -/
def execResetExpired (s : State) : Host.Outcome State Fault Refusal :=
  answer s (if atBoundary s && s.portsUp then resetExpire s else s)

/-- GO_SAFE of DEV_CMD with a key (R382). -/
def execGoSafe (p : HPort) (key : BitVec 16) (s : State) : Host.Outcome State Fault Refusal :=
  answer s (gate s (keyed s p key.toNat (devGoSafe s)))

/-- WITHDRAW of DEV_CMD with a key (R380). -/
def execDevWithdraw (p : HPort) (key : BitVec 16) (s : State) : Host.Outcome State Fault Refusal :=
  answer s (gate s (keyed s p key.toNat (Sys2Proof.Machine.devWithdraw s p)))

/-- JRN_GQ_FREE written (R383). -/
def execGqFree (p : HPort) (n : BitVec 12) (s : State) : Host.Outcome State Fault Refusal :=
  answer s (gate s (Sys2Proof.Machine.gqFree s p n.toNat))

end Sys2Proof.Machine
end

