-- ==== Sys2Proof/Machine/PairingCommands.lean ====
section
/-!
DEFINITION. The meanings of the commands of the unit pairing (rows of 15): one definition for each
constructor of Instr, which settles its effect by `answer`.
-/

namespace Sys2Proof.Machine

/-- INTLK_IN changes level (R344, R345). -/
def execIntlkInChange (level : Bool) (s : State) : Host.Outcome State Fault Refusal :=
  answer s (intlkChange s level)

/-- INTLK_IN stays active for 1,800 ticks after a claim (R345). -/
def execToBlocked (s : State) : Host.Outcome State Fault Refusal :=
  answer s (timed Sys2Proof.Machine.toBlocked s)

/-- The readback of INTLK_OUT differs for 600 ticks (R345). -/
def execIntlkErr (s : State) : Host.Outcome State Fault Refusal :=
  answer s (Sys2Proof.Machine.intlkErr s)

/-- The claim of a STANDBY unit at start-up (R346). -/
def execRoleClaim (s : State) : Host.Outcome State Fault Refusal :=
  answer s (Sys2Proof.Machine.roleClaim s)

/-- The link comes up and the partner's strap, DEV_REV and digest arrive (R347). -/
def execLinkUp (pref : Bool) (rev : Word) (digest : BitVec 256) (s : State) : Host.Outcome State Fault Refusal :=
  answer s (Sys2Proof.Machine.linkUp s pref rev.toNat digest.toNat)

/-- A frame of the Luarin link (R349). -/
def execLinkFrame (frame : LinkFrame) (s : State) : Host.Outcome State Fault Refusal :=
  answer s (Sys2Proof.Machine.linkFrame s frame)

/-- A lane is lost (R349). -/
def execLinkDown (s : State) : Host.Outcome State Fault Refusal :=
  answer s (Sys2Proof.Machine.linkDown s)

/-- ACK_DIV of URED_CMD (R356). -/
def execAckDiv (_p : HPort) (s : State) : Host.Outcome State Fault Refusal :=
  answer s (gate s (Sys2Proof.Machine.ackDiv s))

/-- The claim of a decided takeover (R359). -/
def execTakeoverClaim (s : State) : Host.Outcome State Fault Refusal :=
  answer s (Sys2Proof.Machine.takeoverClaim s)

/-- The claimant takes the ACTIVE role and drives (R359). -/
def execTakeoverDrive (s : State) : Host.Outcome State Fault Refusal :=
  answer s (timed Sys2Proof.Machine.takeoverDrive s)

/-- The claim of a handover at tick 45,000 (R364). -/
def execHandoverClaim (s : State) : Host.Outcome State Fault Refusal :=
  answer s (timed Sys2Proof.Machine.handoverClaim s)

end Sys2Proof.Machine
end

