-- ==== Sys2Proof/Machine/ProcessorCommands.lean ====
section
/-!
DEFINITION. The meanings of the commands of the safety processor, the debugger and the test port (rows of 11 and R406): one definition for each
constructor of Instr, which settles its effect by `answer`.
-/

namespace Sys2Proof.Machine

/-- A transaction reaches the voter (R253, R255). -/
def execVoterTransaction (txn : VoterTxn) (s : State) : Host.Outcome State Fault Refusal :=
  answer s (vote s txn)

/-- A core's self-test verdict (R258). -/
def execSelfTestDone (core : Fin 3) (pass : Bool) (s : State) : Host.Outcome State Fault Refusal :=
  answer s (timed (selfTest · core.val pass) s)

/-- The periodic test falls due at a boundary (R263). -/
def execPeriodicTestDue (s : State) : Host.Outcome State Fault Refusal :=
  answer s (if atBoundary s && coresRun s then periodicTest s else s)

/-- The cycle's keep-alive token (R265); the train that it starts asserts INTLK_OUT (R344), which R345 judges. -/
def execKeepaliveToken (v : Word) (s : State) : Host.Outcome State Fault Refusal :=
  answer s (yieldLate (keepAlive s v))

/-- A grant that has run out (R265). -/
def execKeepaliveGrantExpiry (s : State) : Host.Outcome State Fault Refusal :=
  answer s (grantExpire s)

/-- SQ_LIMIT is judged at a boundary in SQUALL (R270). -/
def execSquallLimit (s : State) : Host.Outcome State Fault Refusal :=
  answer s (if atBoundary s && s.dev == .squall && coresRun s then squallBoundary s else s)

/-- The debugger stops the three cores, by request or by a hit (R275). -/
def execDebugHalt (hit : Bool) (s : State) : Host.Outcome State Fault Refusal :=
  answer s (Sys2Proof.Machine.debugHalt s hit)

/-- One instruction of every core (R275). -/
def execDebugStep (s : State) : Host.Outcome State Fault Refusal :=
  answer s (Sys2Proof.Machine.debugStep s)

/-- The debugger resumes the cores (R274). -/
def execDebugResume (s : State) : Host.Outcome State Fault Refusal :=
  answer s (Sys2Proof.Machine.debugResume s)

/-- A debugger's write (R274). -/
def execDebugWrite (w : DebugWrite) (s : State) : Host.Outcome State Fault Refusal :=
  answer s (Sys2Proof.Machine.debugWrite s w)

/-- The replay buffer drains (R274). -/
def execReplayDrain (s : State) : Host.Outcome State Fault Refusal :=
  answer s (Sys2Proof.Machine.replayDrain s)

/-- BYPASS loaded (R273). -/
def execBypass (s : State) : Host.Outcome State Fault Refusal :=
  answer s (jtagSelect s 0)

/-- IDCODE loaded (R273). -/
def execIdcode (s : State) : Host.Outcome State Fault Refusal :=
  answer s (jtagSelect s 1)

/-- SAMPLE/PRELOAD (R273). -/
def execSamplePreload (s : State) : Host.Outcome State Fault Refusal :=
  answer s (jtagPreload s)

/-- EXTEST (R273). -/
def execExtest (s : State) : Host.Outcome State Fault Refusal :=
  answer s (jtagExtest s)

/-- The vendor instruction (R273). -/
def execVendorDebug (s : State) : Host.Outcome State Fault Refusal :=
  answer s (jtagVendor s)

/-- DBG_TRST_N (R406). -/
def execTestLogicReset (s : State) : Host.Outcome State Fault Refusal :=
  answer s (jtagReset s)

end Sys2Proof.Machine
end

