-- ==== Sys2Proof/Machine/SafetyIoCommands.lean ====
section
/-!
DEFINITION. The meanings of the commands of safety inputs and outputs and the traction link (rows of 12): one definition for each
constructor of Instr, which settles its effect by `answer`.
-/

namespace Sys2Proof.Machine

/-- The sample at which a pair that stays non-antivalent reaches DISC, when it falls in the running cycle (R279). -/
def discrepancy (s : State) (j : Nat) : State :=
  let t := (s.sio.nextSample + s.get F.SIO_INj_CFG_DISC j - s.get F.SIO_INj_STAT_RUN j - 1) * 6000
  if s.portsUp && s.flag F.SIO_INj_CFG_EN j && s.flag F.SIO_INj_STAT_DISAGREE j && !s.flag F.SIO_INj_STAT_FAULT j && s.due t then
    sampleInputs (s.advanceTo t)
  else s

/-- The levels of an input pair change (R278). -/
def execPairInputChange (j : Fin 16) (a : Bool) (b : Bool) (s : State) : Host.Outcome State Fault Refusal :=
  answer s (timed (pairChange · j.val a b) s)

/-- The levels of a pair stay non-antivalent until its fault latches in the running cycle (R279). -/
def execDiscrepancyFault (j : Fin 16) (s : State) : Host.Outcome State Fault Refusal :=
  answer s (timed (discrepancy · j.val) s)

/-- CLEAR_IN of SIO_CMD (R282). -/
def execClearIn (_p : HPort) (mask : BitVec 16) (s : State) : Host.Outcome State Fault Refusal :=
  answer s (gate s (clearInCmd s mask.toNat))

/-- CLEAR_OUT of SIO_CMD (R292). -/
def execClearOut (_p : HPort) (mask : BitVec 12) (s : State) : Host.Outcome State Fault Refusal :=
  answer s (gate s (clearOutCmd s mask.toNat))

/-- The test pulse due in the running cycle (R287). -/
def execTestPulse (k : Fin 12) (s : State) : Host.Outcome State Fault Refusal :=
  answer s (pulseStart s k.val)

/-- The end of a test pulse, with whether the ball read low (R288). -/
def execPulseEnd (k : Fin 12) (low : Bool) (s : State) : Host.Outcome State Fault Refusal :=
  answer s (timed (Sys2Proof.Machine.pulseEnd · k.val low) s)

/-- A closed switch whose ball does not read high, with whether its current limit is engaged (R286). -/
def execStuckOff (k : Fin 12) (limit : Bool) (s : State) : Host.Outcome State Fault Refusal :=
  answer s (Sys2Proof.Machine.stuckOff s k.val limit)

/-- An open output whose ball does not read low (R290). -/
def execStuckOn (k : Fin 12) (s : State) : Host.Outcome State Fault Refusal :=
  answer s (Sys2Proof.Machine.stuckOn s k.val)

/-- Current limit engaged for 30,000 ticks (R291). -/
def execOverload (k : Fin 12) (s : State) : Host.Outcome State Fault Refusal :=
  answer s (Sys2Proof.Machine.overload s k.val)

/-- Thermal shutdown of a switch (R291). -/
def execOvertemp (k : Fin 12) (s : State) : Host.Outcome State Fault Refusal :=
  answer s (Sys2Proof.Machine.overtemp s k.val)

/-- No edge at the TL_PERMIT ball for 6,000 ticks (R297). -/
def execTlpDrv (s : State) : Host.Outcome State Fault Refusal :=
  answer s (Sys2Proof.Machine.tlpDrv s)

/-- TL_STOP_N or TL_STILL reads low for 600 ticks (R297). -/
def execTlsDrv (s : State) : Host.Outcome State Fault Refusal :=
  answer s (Sys2Proof.Machine.tlsDrv s)

/-- A ball of the traction link shows permit against a stop (R297). -/
def execTlForeign (s : State) : Host.Outcome State Fault Refusal :=
  answer s (Sys2Proof.Machine.tlForeign s)

/-- CLEAR_DRV of TLNK_CMD (R297). -/
def execClearDrv (_p : HPort) (s : State) : Host.Outcome State Fault Refusal :=
  answer s (gate s (clearDrvCmd s))

/-- The telegram exchange of a cycle with the frame received (R298 to R301). -/
def execTlTelegramFrame (rx : List Byte) (s : State) : Host.Outcome State Fault Refusal :=
  answer s (timed (tlExchange · rx) s)

/-- No frame accepted for TEXP cycles (R301). -/
def execRxLapse (s : State) : Host.Outcome State Fault Refusal :=
  answer s (Sys2Proof.Machine.rxLapse s)

end Sys2Proof.Machine
end

