-- ==== Sys2Proof/Machine/TelegramCommands.lean ====
section
/-!
DEFINITION. The meanings of the commands of the safety telegram engine (rows of 14): one definition for each
constructor of Instr, which settles its effect by `answer`.
-/

namespace Sys2Proof.Machine

/-- A DATA telegram due at the running boundary is built (R333). -/
def execTelegramBuild (c : Fin 64) (s : State) : Host.Outcome State Fault Refusal :=
  answer s (if atBoundary s then telBuild s c.val else s)

/-- A VALID connection lapses at a boundary (R336). -/
def execConnLapse (c : Fin 64) (s : State) : Host.Outcome State Fault Refusal :=
  answer s (if atBoundary s && s.counting && coresRun s then Sys2Proof.Machine.connLapse s c.val else s)

/-- A pending announcement of 10,000 cycles is discarded (R338). -/
def execAnnounceExpired (k : Fin 4) (s : State) : Host.Outcome State Fault Refusal :=
  answer s (if s.counting && coresRun s then announceExpire s k.val else s)

/-- ACCEPT of STE_ADMIT (R339). -/
def execAccept (p : HPort) (wl : BitVec 5) (s : State) : Host.Outcome State Fault Refusal :=
  answer s (gate s (admitWrite s p.toNat 1 wl.toNat 0))

/-- REFUSE of STE_ADMIT (R339). -/
def execRefuse (p : HPort) (wl : BitVec 5) (s : State) : Host.Outcome State Fault Refusal :=
  answer s (gate s (admitWrite s p.toNat 2 wl.toNat 0))

/-- RELEASE of STE_ADMIT (R340). -/
def execSteRelease (p : HPort) (conn : BitVec 6) (s : State) : Host.Outcome State Fault Refusal :=
  answer s (gate s (admitWrite s p.toNat 3 0 conn.toNat))

/-- A dynamic connection LAPSED for DYN_HOLD × 100 cycles is released at a boundary (R340). -/
def execDynHoldExpiry (c : Fin 64) (s : State) : Host.Outcome State Fault Refusal :=
  answer s (if atBoundary s && s.counting && coresRun s then dynHold s c.val else s)

end Sys2Proof.Machine
end

