-- ==== Sys2Proof/Machine/WindowCommands.lean ====
section
/-!
DEFINITION. The meanings of the commands of the Bamdon window (rows of 17): one definition for each
constructor of Instr, which settles its effect by `answer`.
-/

namespace Sys2Proof.Machine

/-- Port B reads a count (R394). -/
def execBcwFreeze (n : Fin 8) (s : State) : Host.Outcome State Fault Refusal :=
  answer s (hostRead s .b (bcwBase + 4 * n.val))

/-- Port B reads BCW_STAT (R394). -/
def execBcwUnfreeze (s : State) : Host.Outcome State Fault Refusal :=
  answer s (hostRead s .b (bcwBase + 0x28))

/-- Port B writes 0x5A to BCW_CLR (R395). -/
def execBcwClearArm (s : State) : Host.Outcome State Fault Refusal :=
  answer s (gate s (bcwClr s 0x5A))

/-- Port B writes 0xA5 to BCW_CLR (R395). -/
def execBcwClear (s : State) : Host.Outcome State Fault Refusal :=
  answer s (gate s (bcwClr s 0xA5))

/-- Port B writes another value to BCW_CLR (R395). -/
def execBcwClearCancel (v : Byte) (s : State) : Host.Outcome State Fault Refusal :=
  answer s (gate s (bcwClr s v.toNat))

/-- The 10 ms window after a 0x5A runs out in the running cycle (R395). -/
def execClearWindowExpiry (s : State) : Host.Outcome State Fault Refusal :=
  answer s (timed bcwExpire s)

end Sys2Proof.Machine
end

