-- ==== Sys2Proof/Machine/Dispatch.lean ====
section
/-!
DEFINITION. exec: one arm for each constructor of Instr, each a direct call of its meaning.
-/

namespace Sys2Proof.Machine

def exec (i : Instr) (s : State) : Host.Outcome State Fault Refusal :=
  match i with
  | .timestampWrap => Sys2Proof.Machine.execTimestampWrap s
  | .safetyCycleBoundary inp => Sys2Proof.Machine.execSafetyCycleBoundary inp s
  | .registerWrite p addr v => Sys2Proof.Machine.execRegisterWrite p addr v s
  | .pairHWrite p addr v => Sys2Proof.Machine.execPairHWrite p addr v s
  | .pairLWrite p addr v => Sys2Proof.Machine.execPairLWrite p addr v s
  | .pairLRead p addr => Sys2Proof.Machine.execPairLRead p addr s
  | .posRead p port => Sys2Proof.Machine.execPosRead p port s
  | .cruTimeRead p => Sys2Proof.Machine.execCruTimeRead p s
  | .w1cClear p addr mask => Sys2Proof.Machine.execW1cClear p addr mask s
  | .readInc p n addr crc => Sys2Proof.Machine.execReadInc p n addr crc s
  | .readFix p n addr crc => Sys2Proof.Machine.execReadFix p n addr crc s
  | .writeInc p n addr data crc csOk => Sys2Proof.Machine.execWriteInc p n addr data crc csOk s
  | .writeFix p n addr data crc csOk => Sys2Proof.Machine.execWriteFix p n addr data crc csOk s
  | .repeatResponse p n crc => Sys2Proof.Machine.execRepeatResponse p n crc s
  | .altPhaseInversion => Sys2Proof.Machine.execAltPhaseInversion s
  | .pendingExcApply sp => Sys2Proof.Machine.execPendingExcApply sp s
  | .settlingEnd sp => Sys2Proof.Machine.execSettlingEnd sp s
  | .force p pts => Sys2Proof.Machine.execForce p pts s
  | .cancel p pts => Sys2Proof.Machine.execCancel p pts s
  | .sourceFailure src onset => Sys2Proof.Machine.execSourceFailure src onset s
  | .clampConduction pin onset last => Sys2Proof.Machine.execClampConduction pin onset last s
  | .clampEpisodeEnd pin => Sys2Proof.Machine.execClampEpisodeEnd pin s
  | .carrierLoss sp onset => Sys2Proof.Machine.execCarrierLoss sp onset s
  | .carrierReturn sp => Sys2Proof.Machine.execCarrierReturn sp s
  | .dampingSample ch k vi vq ovr => Sys2Proof.Machine.execDampingSample ch k vi vq ovr s
  | .calPairEnd ch => Sys2Proof.Machine.execCalPairEnd ch s
  | .refCapture p ch all => Sys2Proof.Machine.execRefCapture p ch all s
  | .refCaptureDone ch => Sys2Proof.Machine.execRefCaptureDone ch s
  | .refErr ch => Sys2Proof.Machine.execRefErr ch s
  | .snapGo p src => Sys2Proof.Machine.execSnapGo p src s
  | .snapDone => Sys2Proof.Machine.execSnapDone s
  | .monitorFlag ch onset cls => Sys2Proof.Machine.execMonitorFlag ch onset cls s
  | .monitorEpisodeEnd ch last => Sys2Proof.Machine.execMonitorEpisodeEnd ch last s
  | .glitch ch => Sys2Proof.Machine.execGlitch ch s
  | .toneVisitVerdict ch mag phase limit cross => Sys2Proof.Machine.execToneVisitVerdict ch mag phase limit cross s
  | .toneSelfCheck mag phase residual => Sys2Proof.Machine.execToneSelfCheck mag phase residual s
  | .channelStale ch => Sys2Proof.Machine.execChannelStale ch s
  | .supClear p ch all => Sys2Proof.Machine.execSupClear p ch all s
  | .faultyRelease ch => Sys2Proof.Machine.execFaultyRelease ch s
  | .zrefCapture p ch all => Sys2Proof.Machine.execZrefCapture p ch all s
  | .zrefCaptureDone ch => Sys2Proof.Machine.execZrefCaptureDone ch s
  | .zrefErr ch => Sys2Proof.Machine.execZrefErr ch s
  | .holdExpiry sp => Sys2Proof.Machine.execHoldExpiry sp s
  | .linkWindowExpiry sp => Sys2Proof.Machine.execLinkWindowExpiry sp s
  | .parked ch => Sys2Proof.Machine.execParked ch s
  | .matchJobStart => Sys2Proof.Machine.execMatchJobStart s
  | .matchJobComplete eng => Sys2Proof.Machine.execMatchJobComplete eng s
  | .quietFinal sp neg => Sys2Proof.Machine.execQuietFinal sp neg s
  | .jobLate => Sys2Proof.Machine.execJobLate s
  | .pop p => Sys2Proof.Machine.execPop p s
  | .recReqGo p slot => Sys2Proof.Machine.execRecReqGo p slot s
  | .supervised p sec => Sys2Proof.Machine.execSupervised p sec s
  | .direct p sec tok => Sys2Proof.Machine.execDirect p sec tok s
  | .disturb p sec => Sys2Proof.Machine.execDisturb p sec s
  | .directWithdraw p => Sys2Proof.Machine.execDirectWithdraw p s
  | .directExpired p => Sys2Proof.Machine.execDirectExpired p s
  | .identityRestore sec => Sys2Proof.Machine.execIdentityRestore sec s
  | .standbyDisturbReject p => Sys2Proof.Machine.execStandbyDisturbReject p s
  | .speedStale sp => Sys2Proof.Machine.execSpeedStale sp s
  | .pointLullEntry sp => Sys2Proof.Machine.execPointLullEntry sp s
  | .encoderFrame port edge idleHigh bits => Sys2Proof.Machine.execEncoderFrame port edge idleHigh bits s
  | .encoderLate port => Sys2Proof.Machine.execEncoderLate port s
  | .portLullEntry port => Sys2Proof.Machine.execPortLullEntry port s
  | .encoderFaultRelease port => Sys2Proof.Machine.execEncoderFaultRelease port s
  | .portClear p ports => Sys2Proof.Machine.execPortClear p ports s
  | .rearm p cmps => Sys2Proof.Machine.execRearm p cmps s
  | .disarm p cmps => Sys2Proof.Machine.execDisarm p cmps s
  | .axqGo p => Sys2Proof.Machine.execAxqGo p s
  | .filterTimerExpiry tile ch => Sys2Proof.Machine.execFilterTimerExpiry tile ch s
  | .scrubWord finding => Sys2Proof.Machine.execScrubWord finding s
  | .doubleBitError word => Sys2Proof.Machine.execDoubleBitError word s
  | .cfgMemWrite p addr v => Sys2Proof.Machine.execCfgMemWrite p addr v s
  | .powerOnReset vin => Sys2Proof.Machine.execPowerOnReset vin s
  | .resetPin dur => Sys2Proof.Machine.execResetPin dur s
  | .resetRelease patches qualified => Sys2Proof.Machine.execResetRelease patches qualified s
  | .pllLock seals => Sys2Proof.Machine.execPllLock seals s
  | .loadEnd seals fails readErr => Sys2Proof.Machine.execLoadEnd seals fails readErr s
  | .sealReading seals => Sys2Proof.Machine.execSealReading seals s
  | .commit p => Sys2Proof.Machine.execCommit p s
  | .discard p => Sys2Proof.Machine.execDiscard p s
  | .uploadStart p target => Sys2Proof.Machine.execUploadStart p target s
  | .uploadAbort p => Sys2Proof.Machine.execUploadAbort p s
  | .uploadData p w => Sys2Proof.Machine.execUploadData p w s
  | .upDone => Sys2Proof.Machine.execUpDone s
  | .voterTransaction txn => Sys2Proof.Machine.execVoterTransaction txn s
  | .selfTestDone core pass => Sys2Proof.Machine.execSelfTestDone core pass s
  | .periodicTestDue => Sys2Proof.Machine.execPeriodicTestDue s
  | .keepaliveToken v => Sys2Proof.Machine.execKeepaliveToken v s
  | .keepaliveGrantExpiry => Sys2Proof.Machine.execKeepaliveGrantExpiry s
  | .squallLimit => Sys2Proof.Machine.execSquallLimit s
  | .debugHalt hit => Sys2Proof.Machine.execDebugHalt hit s
  | .debugStep => Sys2Proof.Machine.execDebugStep s
  | .debugResume => Sys2Proof.Machine.execDebugResume s
  | .debugWrite w => Sys2Proof.Machine.execDebugWrite w s
  | .replayDrain => Sys2Proof.Machine.execReplayDrain s
  | .bypass => Sys2Proof.Machine.execBypass s
  | .idcode => Sys2Proof.Machine.execIdcode s
  | .samplePreload => Sys2Proof.Machine.execSamplePreload s
  | .extest => Sys2Proof.Machine.execExtest s
  | .vendorDebug => Sys2Proof.Machine.execVendorDebug s
  | .testLogicReset => Sys2Proof.Machine.execTestLogicReset s
  | .pairInputChange j a b => Sys2Proof.Machine.execPairInputChange j a b s
  | .discrepancyFault j => Sys2Proof.Machine.execDiscrepancyFault j s
  | .clearIn p mask => Sys2Proof.Machine.execClearIn p mask s
  | .clearOut p mask => Sys2Proof.Machine.execClearOut p mask s
  | .testPulse k => Sys2Proof.Machine.execTestPulse k s
  | .pulseEnd k low => Sys2Proof.Machine.execPulseEnd k low s
  | .stuckOff k limit => Sys2Proof.Machine.execStuckOff k limit s
  | .stuckOn k => Sys2Proof.Machine.execStuckOn k s
  | .overload k => Sys2Proof.Machine.execOverload k s
  | .overtemp k => Sys2Proof.Machine.execOvertemp k s
  | .tlpDrv => Sys2Proof.Machine.execTlpDrv s
  | .tlsDrv => Sys2Proof.Machine.execTlsDrv s
  | .tlForeign => Sys2Proof.Machine.execTlForeign s
  | .clearDrv p => Sys2Proof.Machine.execClearDrv p s
  | .tlTelegramFrame rx => Sys2Proof.Machine.execTlTelegramFrame rx s
  | .rxLapse => Sys2Proof.Machine.execRxLapse s
  | .canFrameReceived x frame => Sys2Proof.Machine.execCanFrameReceived x frame s
  | .rxBufLock p x b => Sys2Proof.Machine.execRxBufLock p x b s
  | .rxBufRelease p x b => Sys2Proof.Machine.execRxBufRelease p x b s
  | .lockRel p x b => Sys2Proof.Machine.execLockRel p x b s
  | .txBufWrite p x b k v => Sys2Proof.Machine.execTxBufWrite p x b k v s
  | .txReq p x b => Sys2Proof.Machine.execTxReq p x b s
  | .bufAbort p x b => Sys2Proof.Machine.execBufAbort p x b s
  | .reenable p x b => Sys2Proof.Machine.execReenable p x b s
  | .canFrameTransmitted x tdcv => Sys2Proof.Machine.execCanFrameTransmitted x tdcv s
  | .canError x e => Sys2Proof.Machine.execCanError x e s
  | .busoffRecovery x => Sys2Proof.Machine.execBusoffRecovery x s
  | .canRelease p x => Sys2Proof.Machine.execCanRelease p x s
  | .abortAll p x => Sys2Proof.Machine.execAbortAll p x s
  | .canControllerLost x cause => Sys2Proof.Machine.execCanControllerLost x cause s
  | .cvuStart p n => Sys2Proof.Machine.execCvuStart p n s
  | .data32 p n v => Sys2Proof.Machine.execData32 p n v s
  | .data16 p n v => Sys2Proof.Machine.execData16 p n v s
  | .data8 p n v => Sys2Proof.Machine.execData8 p n v s
  | .ctxWrite p n v => Sys2Proof.Machine.execCtxWrite p n v s
  | .finish p n => Sys2Proof.Machine.execFinish p n s
  | .cvuRelease p n => Sys2Proof.Machine.execCvuRelease p n s
  | .telegramBuild c => Sys2Proof.Machine.execTelegramBuild c s
  | .connLapse c => Sys2Proof.Machine.execConnLapse c s
  | .announceExpired k => Sys2Proof.Machine.execAnnounceExpired k s
  | .accept p wl => Sys2Proof.Machine.execAccept p wl s
  | .refuse p wl => Sys2Proof.Machine.execRefuse p wl s
  | .steRelease p conn => Sys2Proof.Machine.execSteRelease p conn s
  | .dynHoldExpiry c => Sys2Proof.Machine.execDynHoldExpiry c s
  | .intlkInChange level => Sys2Proof.Machine.execIntlkInChange level s
  | .toBlocked => Sys2Proof.Machine.execToBlocked s
  | .intlkErr => Sys2Proof.Machine.execIntlkErr s
  | .roleClaim => Sys2Proof.Machine.execRoleClaim s
  | .linkUp pref rev digest => Sys2Proof.Machine.execLinkUp pref rev digest s
  | .linkFrame frame => Sys2Proof.Machine.execLinkFrame frame s
  | .linkDown => Sys2Proof.Machine.execLinkDown s
  | .ackDiv p => Sys2Proof.Machine.execAckDiv p s
  | .takeoverClaim => Sys2Proof.Machine.execTakeoverClaim s
  | .takeoverDrive => Sys2Proof.Machine.execTakeoverDrive s
  | .handoverClaim => Sys2Proof.Machine.execHandoverClaim s
  | .semTake p k id => Sys2Proof.Machine.execSemTake p k id s
  | .semRelease p k => Sys2Proof.Machine.execSemRelease p k s
  | .freeOwn p => Sys2Proof.Machine.execFreeOwn p s
  | .enterComm p key => Sys2Proof.Machine.execEnterComm p key s
  | .commissioningEntry => Sys2Proof.Machine.execCommissioningEntry s
  | .resetCommand p key => Sys2Proof.Machine.execResetCommand p key s
  | .resetExpired => Sys2Proof.Machine.execResetExpired s
  | .goSafe p key => Sys2Proof.Machine.execGoSafe p key s
  | .devWithdraw p key => Sys2Proof.Machine.execDevWithdraw p key s
  | .gqFree p n => Sys2Proof.Machine.execGqFree p n s
  | .bcwFreeze n => Sys2Proof.Machine.execBcwFreeze n s
  | .bcwUnfreeze => Sys2Proof.Machine.execBcwUnfreeze s
  | .bcwClearArm => Sys2Proof.Machine.execBcwClearArm s
  | .bcwClear => Sys2Proof.Machine.execBcwClear s
  | .bcwClearCancel v => Sys2Proof.Machine.execBcwClearCancel v s
  | .clearWindowExpiry => Sys2Proof.Machine.execClearWindowExpiry s
  | .monitorWindow mon count other => Sys2Proof.Machine.execMonitorWindow mon count other s
  | .pllLockLoss => Sys2Proof.Machine.execPllLockLoss s
  | .startupEntry => Sys2Proof.Machine.execStartupEntry s
  | .calEnd => Sys2Proof.Machine.execCalEnd s
  | .sweepLate => Sys2Proof.Machine.execSweepLate s
  | .operationalEntry => Sys2Proof.Machine.execOperationalEntry s
  | .powerOnResetRearm => Sys2Proof.Machine.execPowerOnResetRearm s
  | .lostArbitration x => Sys2Proof.Machine.execLostArbitration x s
  | .protocolException x => Sys2Proof.Machine.execProtocolException x s

end Sys2Proof.Machine
end

