-- ==== Sys2Proof/Machine/Step.lean ====
section
/-!
DEFINITION. One step: the command at the front of the queue runs with the queue's rest. On an empty queue the clock goes
on by one tick (00_scope.md, "Units and formats": one tick is 1/60 µs), up to the last tick of the running safety cycle, whose
end is a command of its own; before the PLL has locked nothing counts.
-/

namespace Sys2Proof.Machine

/-- The idle step (DESIGN CHOICE, log entry 2); no tick is counted before lock (R402). -/
def idle (s : State) : State := if s.portsUp then timed (fun u => u.advanceTo (u.now + 1)) s else s

/-- A step. -/
def step (s : State) : Host.Outcome State Fault Refusal :=
  match s.pending with
  | [] => answer s (idle s)
  | c :: rest => exec c (s.putPending rest)

/-- The state with the command that a word spells put at the front of its queue; no row of the table has bits, so no word
spells a command. -/
def State.withFetchWord (s : State) (nbits w : Nat) : State :=
  match decodeTableWord nbits w with
  | some c => s.putPending (c :: s.pending)
  | none => s

end Sys2Proof.Machine
end

