-- ==== Sys2Proof/Safety.lean ====
section
/-!
DEFINITION. What counts as safe, in the terms the claims use: the lines that may be driven only under their conditions
(R53, R284, R294 to R296, R344), the canonical form of the stores, and what the settling after a command leaves alone.
-/

namespace Sys2Proof.Machine

/-- The addressed memories in canonical form: addresses strictly rising, no listed byte equal to 0. -/
def Memory.wf (m : List Host.Cell) : Bool := storeWf 0 m

/-- The register store in canonical form. -/
def Registers.wf (r : List (Nat × Nat)) : Bool := storeWf 0 r

/-- The lines stand as the conditions of the state command them. -/
def LinesFollow (s : State) : Prop := s.lines = computeLines s

/-- Switch `k` is commanded closed. -/
def switchClosed (s : State) (k : Nat) : Bool := bitAt s.lines.sout k

/-- No line commands motion: every switch open, no edges on TL_PERMIT, TL_STOP_N and TL_STILL not driven high. -/
def Restrictive (s : State) : Prop :=
  (∀ k, k < 12 → switchClosed s k = false) ∧ s.lines.tlp = false ∧ s.lines.stopN = false ∧ s.lines.still = false

/-- The sources need not start or stop (R53). -/
def DriveSteady (s : State) : Prop := s.counting = false ∨ srcMay s = s.lines.src

/-- The single fields that settling may write: the journal's head and JRN_NEW, the fabric's output demands, DRIVE_EN, the
pairs' raw levels and flags, the controllers' counters and state. -/
def loudFields : List Nat :=
  [F.JRN_HEAD_HEAD.key 0, F.JRN_STATUS_JRN_NEW.key 0, F.FAB_OUTDEM_SOUT.key 0, F.FAB_OUTDEM_TLP.key 0, F.FAB_OUTDEM_TLS.key 0,
   F.EXC_MODE_DRIVE_EN.key 0, F.SIO_IN_RAW_A.key 0, F.SIO_IN_RAW_B.key 0, F.SIO_STATUS_IN_FAULT_NEW.key 0, F.SIO_STATUS_DISC_NEW.key 0]
  ++ [0, 1].flatMap (fun x => [(F.CANx_ERR_MONITOR.can x).key 0, (F.CANx_ERR_TEC.can x).key 0, (F.CANx_ERR_REC.can x).key 0,
       (F.CANx_ERR_RP.can x).key 0, (F.CANx_ERR_ESTATE.can x).key 0])

/-- A bit address of the register store that settling a state whose drive is steady never writes: not one of the fields above, no
field of SIO_INj_STAT or SIO_INj_CNT, not ABANDONED of SIO_OUTk_CNT, not TX_REQ, LOCKED or LOCK_OWNER of CANx_BUFCTRLb. -/
def quietKey (k : Nat) : Bool :=
  !(loudFields.contains k || decide (0xA0180 * 8 ≤ k ∧ k < 0xA0240 * 8)
    || decide (0xA0400 * 8 ≤ k ∧ k < 0xA0430 * 8 ∧ k % 32 = 16)
    || decide ((0xC0900 * 8 ≤ k ∧ k < 0xC0A00 * 8 ∨ 0xC4900 * 8 ≤ k ∧ k < 0xC4A00 * 8) ∧ (k % 32 = 0 ∨ k % 32 = 9 ∨ k % 32 = 10)))

/-- An address inside the journal ring. -/
def inJournal (a : Nat) : Bool := decide (jrnBase ≤ a) && decide (a < jrnBase + 32 * 8192)

/-- The state with every part blanked that settling may write: the registers and the memory (of which `Keeps` says which of their
cells stand), the fabric, the safety inputs and outputs, the controllers with the telegram buffers they hold, and the mark of a
verdict indicator. -/
def State.steadyPart (s : State) : State :=
  { s with regs := [], mem := [], fab := default, sio := default, can := [], indicAt := 0,
           ste := { s.ste with held := [], snap := none } }

/-- `t` differs from `s` in nothing but what settling may write: its quiet registers and its bytes outside the journal ring are
those of `s`, and so is all else but what `steadyPart` blanks. -/
structure Keeps (s t : State) : Prop where
  regs : ∀ k, quietKey k = true → storeGet 0 t.regs k = storeGet 0 s.regs k
  byte : ∀ a, inJournal a = false → t.byte a = s.byte a
  rest : t.steadyPart = s.steadyPart

/-- What a command whose own effect on `s` is `u` leaves in `t`: all of `u`, but for the queue, which is that of `s`, the lines,
which stand as the conditions of `t` command them, the ticks at which INTLK_OUT rose and lines were first driven, and what `Keeps` excepts. -/
structure Result (s u t : State) : Prop where
  queue : t.pending = s.pending
  follow : LinesFollow t
  link : t.link = { u.link with rose := t.link.rose, firsts := t.link.firsts }
  keeps : Keeps u (((t.putLines u.lines).putLink u.link).putPending u.pending)

/-- A read of one word answered to a port: its response, which is the last accepted read (R371, R372). -/
def State.readBack (s : State) (p : HPort) (a w : Nat) : State :=
  s.updHost p.toNat (fun h =>
    { h with resp := [w], respCrc := crc16 (reqBytes 0 0 a ++ wireWords [w]), last := some (0, a, [w]) })

/-- Halves captured for a port, by address (R10). -/
def State.captured (s : State) (p : HPort) (l : List (Nat × Nat)) : State :=
  s.updHost p.toNat (fun h => { h with snaps := l.foldl (fun m x => storeInsert m x.1 x.2) h.snaps })

/-- A saturating count stepped. -/
def State.counted (s : State) (f : Fld) (i : Nat := 0) : State := s.set f i (satInc f.width (s.get f i))

/-- A point about to become BLIND meets the exception of R30: both channels READY, and every section in Lull that its counting
point, if it has one, bounds. -/
def blindExempt (s : State) (p : Nat) : Bool :=
  decide (chState s (2 * p) = 0 ∧ chState s (2 * p + 1) = 0) && (match pointCp s p with | some c => cpLull s c | none => true)

/-- The sections in use that a point's becoming BLIND disturbs, with the counting point whose events reach them (R29, R30): none where the
point is BLIND already, meets the exception or is FAULTY. -/
def blindDisturbs (s : State) (p : Nat) : List (Nat × Nat) :=
  if (s.point p).blind || blindExempt s p || (s.chan (2 * p)).faulty || (s.chan (2 * p + 1)).faulty then []
  else
    match pointCp s p with
    | some c => if portCarries s c then ((secsOf s c).filter (secUsed s)).map (fun n => (n, c)) else []
    | none => []

/-- What becoming BLIND leaves at a point (R30, R55, R56): BLIND, with the exception kept as it was judged on `s`, a settling
window that the present sample lies in, an idle sequencer and no count of INVALID samples. -/
structure BlindPoint (s t : State) (p : Nat) : Prop where
  blind : (t.point p).blind = true
  exc : (t.point p).blindExc = blindExempt s p
  settle : settling (t.point p) (s.now / 1250) = true
  seq : usable s p = true → (t.point p).seq = .idle ∧ (t.point p).entry = .none
  count : ∀ c, c = 2 * p ∨ c = 2 * p + 1 → (t.chan c).bad = []

/-- No hold is pending at a point: a hold cut short counts (R128). -/
def noHold (s : State) (p : Nat) : Prop := (s.point p).seq ≠ .holdP ∧ (s.point p).seq ≠ .holdN

/-- What one row of the transition table gives (R125): the next state and entry, how many records, and the outcome counters stepped. -/
abbrev SeqRow := Seq × Entry × Nat × List Fld

/-- A flange that leaves on a system: an Eddy where it entered there, unresolved where its entry is unknown. -/
def seqOut (e own : Entry) (left : Seq) (other : SeqRow) : SeqRow :=
  if e = own then (left, e, 2, [F.WEV_SPn_XCNT_EDDY])
  else if e = .a ∨ e = .b then other
  else (.idle, .none, 2, [F.WEV_SPn_XCNT_UNRESOLVED])

/-- The rows of R125 for one crossing of system A or B, onset or offset, before a hold or a link window expires. -/
def seqAfter (q : Seq) (e : Entry) (sysB on : Bool) : SeqRow :=
  let seqFault := F.WEV_SPn_XCNT_SEQ_FAULT
  match q, sysB, on with
  | .idle, false, true => (.aIn, .a, 1, [])
  | .idle, true, true => (.bIn, .b, 1, [])
  | .aIn, true, true => (.ab, e, 1, [])
  | .bIn, false, true => (.ab, e, 1, [])
  | .aIn, false, false => seqOut e .a .aLeft (.idle, .none, 2, [F.WEV_SPn_XCNT_UNRESOLVED])
  | .bIn, true, false => seqOut e .b .bLeft (.idle, .none, 2, [F.WEV_SPn_XCNT_UNRESOLVED])
  | .ab, false, false => (.bOut, e, 1, [])
  | .ab, true, false => (.aOut, e, 1, [])
  | .bOut, false, true => (.ab, e, 1, [])
  | .aOut, true, true => (.ab, e, 1, [])
  | .bOut, true, false => seqOut e .b .bLeft (.holdP, e, 1, [])
  | .aOut, false, false => seqOut e .a .aLeft (.holdN, e, 1, [])
  | .holdP, true, true => (.bOut, .a, 2, [F.WEV_SPn_XCNT_HOLD_CANCEL])
  | .holdN, false, true => (.aOut, .b, 2, [F.WEV_SPn_XCNT_HOLD_CANCEL])
  | .holdP, false, true => (.aIn, .a, 2, [F.WEV_SPn_PCNT_POS])
  | .holdN, true, true => (.bIn, .b, 2, [F.WEV_SPn_PCNT_NEG])
  | .aLeft, false, true => (.aIn, .a, 1, [])
  | .bLeft, true, true => (.bIn, .b, 1, [])
  | .aLeft, true, true => (.bIn, .unknown, 2, [seqFault])
  | .bLeft, false, true => (.aIn, .unknown, 2, [seqFault])
  | _, _, _ => (q, e, 0, [])

/-- The rows of R125 for two onsets, or two offsets, at one tick. -/
def seqBoth (q : Seq) (on : Bool) : SeqRow :=
  let seqFault := F.WEV_SPn_XCNT_SEQ_FAULT
  match q, on with
  | _, false => (.idle, .none, 3, [seqFault])
  | .holdP, true => (.ab, .unknown, 4, [F.WEV_SPn_PCNT_POS, seqFault])
  | .holdN, true => (.ab, .unknown, 4, [F.WEV_SPn_PCNT_NEG, seqFault])
  | _, true => (.ab, .unknown, 3, [seqFault])

/-- The crossings of one sample of each system, where there is one, through the table in the order of R124. -/
def seqPair (q : Seq) (e : Entry) (a b : Option (Bool × Nat)) : SeqRow :=
  let two := fun (x y : Bool × Bool) =>
    let r := seqAfter q e x.1 x.2
    let z := seqAfter r.1 r.2.1 y.1 y.2
    ((z.1, z.2.1, r.2.2.1 + z.2.2.1, r.2.2.2 ++ z.2.2.2) : SeqRow)
  match a, b with
  | none, none => (q, e, 0, [])
  | some x, none => seqAfter q e false x.1
  | none, some y => seqAfter q e true y.1
  | some x, some y =>
    if x.2 = y.2 ∧ x.1 = y.1 then seqBoth q x.1
    else if x.2 < y.2 ∨ (x.2 = y.2 ∧ x.1 = true) then two (false, x.1) (true, y.1)
    else two (true, y.1) (false, x.1)

/-- The systems that are on in a state of the sequencer. -/
def seqShows (q : Seq) : Bool × Bool :=
  match q with
  | .aIn => (true, false) | .aOut => (true, false)
  | .bIn => (false, true) | .bOut => (false, true)
  | .ab => (true, true)
  | _ => (false, false)

/-- A command answers a next state on `s`, and its whole effect is `u`. -/
def Answers (c : Instr) (s u : State) : Prop := ∃ t, exec c s = Host.Outcome.next t ∧ Result s u t

/-- A command whose effect `f` acts at a tick of its own in the cycle: what time itself brings before that tick comes first (`timed`),
`f` on `s` is `u`, and where `u` stands at the same tick, or nothing waits for time to pass, the whole effect is `u`. -/
def AnswersTimed (c : Instr) (f : State → State) (s u : State) : Prop :=
  exec c s = Host.Outcome.next (settled s (timed f s)) ∧ f s = u
    ∧ (u.now = s.now ∨ calm s = true → exec c s = Host.Outcome.next (settled s u) ∧ (DriveSteady u → Answers c s u))

end Sys2Proof.Machine
end

