-- ==== Sys2Proof/Certificates/Slice0/Obligations.lean ====
section
/-!
DEFINITION. The statements about the model, for the provers: each says what a command does to the state, or what the machine
does for every command. `Answers c s u` (Safety.lean) says that command `c` answers a next state on `s` whose whole effect is
`u`; its frame is part of it: all of `u` but what settling may write (`Keeps`).
-/

open Sys2Proof Sys2Proof.Machine

/-- A step runs the command at the front of the queue; an empty queue idles. For every command c, state s and rest of a queue: a
step of s with c at the front of its queue is exec of c on s with the queue's rest; with an empty queue the step answers the
settled idle state. Queue and idling are the model's form, log entries 1 and 2. (opcode_table.json, 01_counting_model.md
R42) -/
def Obligations.QueueFrontRuns : Prop :=
  (∀ (c : Instr) (rest : List Instr) (s : State), step (s.putPending (c :: rest)) = exec c (s.putPending rest))
  ∧ ∀ s : State, s.pending = [] → step s = .next (settled s (idle s))

/-- Every command answers a next state that keeps the queue and whose lines follow it. For every command c and state s, exec
answers a next state: no command of the table faults or is refused. It keeps the queue of s, and every driven line stands as
the conditions of that next state command it. (opcode_table.json, 12_safety_io_traction.md R284, 15_unit_pairing.md R344) -/
def Obligations.EveryCommandAnswers : Prop :=
  ∀ (c : Instr) (s : State), ∃ t, exec c s = .next t ∧ t.pending = s.pending ∧ LinesFollow t

/-- A port-B count read freezes the Bamdon window; the BCW_STAT read returns the frozen image and ends the freeze. While the
ports answer: a count read of an unfrozen window returns the live count and freezes the eleven words of that instant; a
count read of a frozen window returns the word of the image and changes nothing in the window; a read of BCW_STAT of a
frozen window returns the frozen word, clears each of CLR_DONE and CLR_TO that it shows and ends the freeze; of an unfrozen
window it returns the live word. Nothing else changes but the port's last response. That only the shown flags are cleared,
and by a read that ends a freeze alone, is the model's choice (log entry 31). (17_bamdon_window.md R394) -/
def Obligations.BamdonFreeze : Prop :=
  ∀ s : State, LinesFollow s → s.portsUp = true →
    (∀ n : Fin 8, s.bcw.image = none →
      Answers (.bcwFreeze n) s
        ((s.putBcw { s.bcw with image := some (bcwWords s true) }).readBack .b (0x1E0000 + 4 * n.val) (s.get F.BCW_CNTn_COUNT n.val)))
    ∧ (∀ (n : Fin 8) (ws : List Nat), s.bcw.image = some ws →
      Answers (.bcwFreeze n) s (s.readBack .b (0x1E0000 + 4 * n.val) (ws.getD n.val 0)))
    ∧ (∀ ws : List Nat, s.bcw.image = some ws →
      let u := if bitAt (ws.getD 10 0) 17 = true then s.set F.BCW_STAT_CLR_DONE 0 0 else s
      let v := if bitAt (ws.getD 10 0) 18 = true then u.set F.BCW_STAT_CLR_TO 0 0 else u
      Answers .bcwUnfreeze s ((v.putBcw { s.bcw with image := none }).readBack .b 0x1E0028 (ws.getD 10 0)))
    ∧ (s.bcw.image = none → Answers .bcwUnfreeze s (s.readBack .b 0x1E0028 (bcwStat s false)))

/-- The two-write clear of the Bamdon window and its 10 ms limit. While the ports answer: 0x5A arms the clear; 0xA5 no more than
600,000 ticks after it sets every live count and direction code to 0 and CLR_DONE, but where a passage has come in the same
clock of the fabric, whose point counts 1 in its direction; 0xA5 later than that sets CLR_TO and changes no count; 0xA5
without a 0x5A changes nothing; any other value disarms; the expiry moves the instant past the window, when that falls in
the running cycle, and changes nothing else. That the late 0xA5 consumes the 0x5A and the form of the expiry are the model's
(log entry 31). (17_bamdon_window.md R395) -/
def Obligations.BamdonClear : Prop :=
  ∀ s : State, LinesFollow s → s.portsUp = true →
    Answers .bcwClearArm s (s.putBcw { s.bcw with armed := some s.now })
    ∧ (∀ t, s.bcw.armed = some t → s.now ≤ t + 600000 →
      ∃ u, exec .bcwClear s = .next u
        ∧ (bcwNow s = [] → ∀ n, n < 8 → u.get F.BCW_CNTn_COUNT n = 0 ∧ u.get F.BCW_DIR_DIR n = 0)
        ∧ (∀ c code, bcwNow s = [(c, code)] → c < 8 → code ≤ 2 → ∀ n, n < 8 →
          u.get F.BCW_CNTn_COUNT n = (if n = c then 1 else 0) ∧ u.get F.BCW_DIR_DIR n = (if n = c then code else 0))
        ∧ u.get F.BCW_STAT_CLR_DONE = 1 ∧ u.bcw = { s.bcw with armed := none }
        ∧ u.now = s.now ∧ u.cycle = s.cycle
        ∧ (∀ k, quietKey k = true → k ≠ F.BCW_STAT_CLR_DONE.key 0
            → (∀ x, x ∈ bcwNow s → x.1 < 8) → (∀ n, n < 8 → k ≠ F.BCW_CNTn_COUNT.key n ∧ k ≠ F.BCW_DIR_DIR.key n) → storeGet 0 u.regs k = storeGet 0 s.regs k)
        ∧ (∀ a, inJournal a = false → u.byte a = s.byte a))
    ∧ (∀ t, s.bcw.armed = some t → t + 600000 < s.now →
      Answers .bcwClear s ((s.set F.BCW_STAT_CLR_TO 0 1).putBcw { s.bcw with armed := none }))
    ∧ (s.bcw.armed = none → Answers .bcwClear s s)
    ∧ (∀ v : Byte, v ≠ 0x5A → v ≠ 0xA5 → Answers (.bcwClearCancel v) s (s.putBcw { s.bcw with armed := none }))
    ∧ (∀ t, s.bcw.armed = some t → t + 600001 < s.nextBoundary → AnswersTimed .clearWindowExpiry bcwExpire s (s.putNow (max s.now (t + 600001))))

/-- Port A reaches nothing of the Bamdon window, and the window raises no block interrupt. A word written or read by port A at
any aligned address of the window changes nothing but the record of an access error of kind PORT, and the read returns 0;
bit 30 of the raised block interrupts is 0 in every state. (R391) -/
def Obligations.BamdonPortAReadsNothing : Prop :=
  (∀ (s : State) (a : Addr) (v : Word), LinesFollow s → s.portsUp = true → 0x1E0000 ≤ a.toNat → a.toNat < 0x1F0000 → a.toNat % 4 = 0 →
      Answers (.registerWrite .a a v) s (s.accErr .a a.toNat true .port_)
      ∧ readWord s .a a.toNat = (s.accErr .a a.toNat false .port_, 0)
      ∧ Answers (.pairLRead .a a) s ((s.accErr .a a.toNat false .port_).readBack .a a.toNat 0))
  ∧ ∀ s : State, bitAt (irqPend s) 30 = false

/-- Taking and releasing a semaphore. While the ports answer: a port that writes its own identity takes a free semaphore and
leaves a held one; the owner's 0 releases it, another's 0 changes nothing; a write of the other port's identity is an access
error of kind OWNER. (16_host_ports.md R378) -/
def Obligations.Semaphores : Prop :=
  ∀ (s : State) (p : HPort) (k : Fin 32), LinesFollow s → s.portsUp = true →
    (∀ id : BitVec 2, id.toNat = portId p → s.get F.HPS_SEMk_OWNER k.val = 0 →
      Answers (.semTake p k id) s (s.set F.HPS_SEMk_OWNER k.val (portId p)))
    ∧ (∀ id : BitVec 2, id.toNat = portId p → s.get F.HPS_SEMk_OWNER k.val ≠ 0 → Answers (.semTake p k id) s s)
    ∧ (∀ id : BitVec 2, id.toNat = portId p.other →
      Answers (.semTake p k id) s (s.accErr p (0x110100 + 4 * k.val) true .owner))
    ∧ (s.get F.HPS_SEMk_OWNER k.val = portId p → Answers (.semRelease p k) s (s.set F.HPS_SEMk_OWNER k.val 0))
    ∧ (s.get F.HPS_SEMk_OWNER k.val ≠ portId p → Answers (.semRelease p k) s s)

/-- FREE_OWN releases every semaphore of the writing port and no other; reset releases all. While the ports answer, FREE_OWN
leaves each semaphore that the writing port holds free, every other one as it was, and no other register that settling
leaves alone changes; in the reset state every semaphore is free. (16_host_ports.md R379, 16_host_ports.md R378) -/
def Obligations.FreeOwnReleasesOwn : Prop :=
  (∀ (s : State) (p : HPort), LinesFollow s → s.portsUp = true →
    ∃ t, exec (.freeOwn p) s = .next t
      ∧ (∀ k, k < 32 → t.get F.HPS_SEMk_OWNER k = if s.get F.HPS_SEMk_OWNER k = portId p then 0 else s.get F.HPS_SEMk_OWNER k)
      ∧ (∀ k, quietKey k = true → (∀ j, j < 32 → k ≠ F.HPS_SEMk_OWNER.key j) → storeGet 0 t.regs k = storeGet 0 s.regs k)
      ∧ (∀ a, inJournal a = false → t.byte a = s.byte a))
  ∧ ∀ k, k < 32 → State.reset.get F.HPS_SEMk_OWNER k = 0

/-- DEV_CMD with its key: ENTER_COMM, RESET, GO_SAFE, WITHDRAW held for the boundary. While the ports answer, with KEY 0xA55A:
ENTER_COMM in BOOT sets the port's pending bit, elsewhere CMD_REJ; RESET is held pending with its age restarted; GO_SAFE is
held for the boundary in STARTUP, OPERATIONAL and SQUALL and ignored elsewhere; WITHDRAW removes the port's pending
commands. With another KEY each is an access error PROTECTED and has no effect. (16_host_ports.md R380, 16_host_ports.md
R381, 16_host_ports.md R382) -/
def Obligations.DeviceCommands : Prop :=
  ∀ (s : State) (p : HPort), LinesFollow s → s.portsUp = true →
    (s.dev = .boot → Answers (.enterComm p 0xA55A) s
      (s.set (match p with | .a => F.DEV_CMD_STAT_ENTER_A | .b => F.DEV_CMD_STAT_ENTER_B) 0 1))
    ∧ (s.dev ≠ .boot → Answers (.enterComm p 0xA55A) s (s.set F.DEV_STATUS_CMD_REJ 0 1))
    ∧ Answers (.resetCommand p 0xA55A) s ((s.updHost p.toNat (fun h => { h with resetAt := some s.now })).set (resetBit p.toNat) 0 1)
    ∧ (follows s = true → Answers (.goSafe p 0xA55A) s (s.putReqs { s.reqs with goSafe := true }))
    ∧ (follows s = false → Answers (.goSafe p 0xA55A) s s)
    ∧ Answers (.devWithdraw p 0xA55A) s
      (((s.set (match p with | .a => F.DEV_CMD_STAT_ENTER_A | .b => F.DEV_CMD_STAT_ENTER_B) 0 0).set (resetBit p.toNat) 0 0).updHost p.toNat
        (fun h => { h with resetAt := none }))
    ∧ ∀ key : BitVec 16, key ≠ 0xA55A →
      Answers (.enterComm p key) s (s.accErr p 0xC true .protected_) ∧ Answers (.resetCommand p key) s (s.accErr p 0xC true .protected_)
      ∧ Answers (.goSafe p key) s (s.accErr p 0xC true .protected_) ∧ Answers (.devWithdraw p key) s (s.accErr p 0xC true .protected_)

/-- JRN_GQ_FREE advances RD for the owning port only, and keeps an open GAP entry. While the ports answer: the port of GQ_OWNER
that writes N from 1 to COUNT advances RD by N modulo 4,096, with no GAP open or with the open GAP beyond the freed entries;
where the free would include the open GAP entry RD advances by N - 1, the GAP closes and GAP_KEPT is set. The other port's
write is an access error OWNER; 0 or more than COUNT is an access error PROTECTED. (16_host_ports.md R383, 16_host_ports.md
R384) -/
def Obligations.GustQueueFree : Prop :=
  ∀ (s : State) (p : HPort) (n : BitVec 12), LinesFollow s → s.portsUp = true →
    (s.get F.JRN_CFG_GQ_OWNER = p.toNat → n.toNat ≠ 0 → n.toNat ≤ s.gustCount →
      (s.flag F.JRN_GQ_STAT_GAP_OPEN = false ∨ n.toNat < s.gustCount →
        ∃ t, exec (.gqFree p n) s = .next t ∧ t.get F.JRN_GQ_STAT_RD = (s.get F.JRN_GQ_STAT_RD + n.toNat) % 4096
          ∧ t.get F.JRN_GQ_STAT_WR = s.get F.JRN_GQ_STAT_WR ∧ t.get F.JRN_STATUS_GAP_KEPT = s.get F.JRN_STATUS_GAP_KEPT)
      ∧ (s.flag F.JRN_GQ_STAT_GAP_OPEN = true → n.toNat = s.gustCount →
        ∃ t, exec (.gqFree p n) s = .next t ∧ t.get F.JRN_GQ_STAT_RD = (s.get F.JRN_GQ_STAT_RD + n.toNat - 1) % 4096
          ∧ t.get F.JRN_GQ_STAT_GAP_OPEN = 0 ∧ t.get F.JRN_STATUS_GAP_KEPT = 1 ∧ t.get F.JRN_GQ_STAT_WR = s.get F.JRN_GQ_STAT_WR))
    ∧ (s.get F.JRN_CFG_GQ_OWNER ≠ p.toNat → Answers (.gqFree p n) s (s.accErr p 0x14000C true .owner))
    ∧ (s.get F.JRN_CFG_GQ_OWNER = p.toNat → (n.toNat = 0 ∨ s.gustCount < n.toNat) →
      Answers (.gqFree p n) s (s.accErr p 0x14000C true .protected_))

/-- A register write takes effect by the class of its field, or is an access error. While the ports answer, for a register of
one field that is no command and no half of a 40-bit pair: LIVE takes the value at once; SHADOW joins the port's shadow set
while that set is not waiting, and is an access error BUSY while it waits; STATIC, but for views of tiles and bit timings,
which act further, takes the value in COMMISSIONING, sets DIRTY, and what rests on it follows (points that it makes FAULTY
or BLIND, virtual points, ports, axles, speeds), and outside COMMISSIONING a write that changes it is discarded as an access
error STATIC. An unaligned address, an address that no register occupies, working memory, and configuration memory outside
COMMISSIONING are access errors UNALIGNED, UNMAPPED, PROTECTED and STATE. (10_bitstream_seal.md R247, 00_scope.md R12,
16_host_ports.md R374, 16_host_ports.md R388, 16_host_ports.md R389) -/
def Obligations.RegisterWriteByClass : Prop :=
  ∀ (s : State) (p : HPort) (a : Addr) (v : Word), LinesFollow s → s.portsUp = true →
    (∀ (d : RegDesc) (f : Fld) (c : Cls), a.toNat % 4 = 0 → (a.toNat < 0x1E0000 ∨ 0x1F0000 ≤ a.toNat ∧ a.toNat < 0x200000) →
      regAt a.toNat = some d → d.fields = [(f, c)] → commandWrite s p a.toNat d v.toNat = none →
      pairLow a.toNat = false → pairHigh a.toNat = false → a.toNat ≠ 0x140010 →
      (c = .live → DriveSteady (s.set (portFld d p.toNat f) 0 (fldOf d f v.toNat)) →
        Answers (.registerWrite p a v) s (s.set (portFld d p.toNat f) 0 (fldOf d f v.toNat)))
      ∧ (c = .shadow → commitState s p.toNat ≠ cmWaiting →
        Answers (.registerWrite p a v) s (shadowPut s p.toNat [(a.toNat, v.toNat)]))
      ∧ (c = .shadow → commitState s p.toNat = cmWaiting → Answers (.registerWrite p a v) s (s.accErr p a.toNat true .busy))
      ∧ (c = .static → s.dev = .comm → tileHomed a.toNat = false → timingReg a.toNat = none → a.toNat ≠ 0xF0008 →
        (a.toNat < 0x90200 ∨ 0x902C0 ≤ a.toNat) →
        let u := (s.set f 0 (fldOf d f v.toNat)).set F.FAB_STATUS_DIRTY 0 1
        let u := if connReg a.toNat then slotKeep u u ((a.toNat - 0xE0100) / 32) else u
        let u := staticFollow s (forN 24 u (cpEnters s))
        DriveSteady u → Answers (.registerWrite p a v) s u)
      ∧ (c = .static → s.dev ≠ .comm → s.get f ≠ fldOf d f v.toNat →
        Answers (.registerWrite p a v) s (s.accErr p a.toNat true .static_)))
    ∧ (a.toNat % 4 ≠ 0 → Answers (.registerWrite p a v) s (s.accErr p a.toNat true .unaligned))
    ∧ (a.toNat % 4 = 0 → a.toNat < 0x1E0000 → regAt a.toNat = none →
      Answers (.registerWrite p a v) s (s.accErr p a.toNat true .unmapped))
    ∧ (a.toNat % 4 = 0 → 0x600000 ≤ a.toNat → a.toNat < 0xA00000 →
      Answers (.registerWrite p a v) s (s.accErr p a.toNat true .protected_))
    ∧ (a.toNat % 4 = 0 → 0x200000 ≤ a.toNat → a.toNat < 0x600000 → s.dev ≠ .comm →
      Answers (.registerWrite p a v) s (s.accErr p a.toNat true .state_))

/-- NAME_H is staged for the writing port; NAME_L transfers both halves, or is an access error HALF. While the ports answer, for
a 40-bit pair that a host may write: a write of NAME_H stages its low byte for the writing port and changes nothing else; a
write of NAME_L with no staged NAME_H is discarded as an access error HALF; a write of NAME_L of a SHADOW pair, with NAME_H
staged and the set not waiting, puts both halves into the port's shadow set and empties the staging. (00_scope.md R11,
16_host_ports.md R374) -/
def Obligations.PairWrites : Prop :=
  ∀ (s : State) (p : HPort) (a : Addr) (v : Word) (d : RegDesc), LinesFollow s → s.portsUp = true →
    a.toNat % 4 = 0 → a.toNat < 0x1E0000 → regAt a.toNat = some d → pairWritable d = true → commandWrite s p a.toNat d v.toNat = none →
    (pairHigh a.toNat = true →
      Answers (.pairHWrite p a v) s
        (s.updHost p.toNat (fun h => { h with staged := storeInsert h.staged a.toNat (v.toNat % 256) })))
    ∧ (pairLow a.toNat = true → pairHigh a.toNat = false → (s.host p.toNat).staged.find? (fun x => x.1 == a.toNat + 4) = none →
      Answers (.pairLWrite p a v) s (s.accErr p a.toNat true .half))
    ∧ (∀ (hi : Nat) (dh : RegDesc), pairLow a.toNat = true → pairHigh a.toNat = false →
      (s.host p.toNat).staged.find? (fun x => x.1 == a.toNat + 4) = some (a.toNat + 4, hi) → regAt (a.toNat + 4) = some dh →
      hasCls d .shadow = true → hasCls d .static = false → hasCls dh .static = false → commitState s p.toNat ≠ cmWaiting →
      Answers (.pairLWrite p a v) s
        ((shadowPut s p.toNat [(a.toNat + 4, hi), (a.toNat, v.toNat)]).updHost p.toNat
          (fun h => { h with staged := storeErase h.staged (a.toNat + 4) })))

/-- Reads of NAME_L, POS_L and CRU_TIME_L capture the other halves for the reading port. While the ports answer: a read of a
pair's NAME_L returns its value and captures NAME_H of the same instant for the reading port; a read of DENC_PORTn_POS_L
captures POS_H, TS_L and TS_H of the same frame; a read of CRU_TIME_L returns bits 31:0 of the timestamp and captures bits
39:32 and the epoch of the same tick. Nothing else changes, nothing of the other port. (00_scope.md R10,
08_speed_position.md R191, 18_power_clock_startup.md R405) -/
def Obligations.PairReadsCapture : Prop :=
  ∀ (s : State) (p : HPort), LinesFollow s → s.portsUp = true →
    (∀ (a : Addr) (d dh : RegDesc), a.toNat % 4 = 0 → a.toNat < 0x1E0000 → regAt a.toNat = some d → regAt (a.toNat + 4) = some dh →
      pairLow a.toNat = true → a.toNat ≠ 0x130014 → encAt 0x80120 a.toNat = false → encAt 0x80128 a.toNat = false →
      Answers (.pairLRead p a) s
        ((s.captured p [(a.toNat + 4, viewWord s p.toNat (a.toNat + 4) dh)]).readBack
          p a.toNat (viewWord s p.toNat a.toNat d)))
    ∧ (∀ n : Fin 4,
      Answers (.posRead p n) s
        ((s.captured p [(0x80124 + 64 * n.val, s.get F.DENC_PORTn_POS_H_POS n.val), (0x80128 + 64 * n.val, s.get F.DENC_PORTn_TS_L_TS n.val),
            (0x8012C + 64 * n.val, s.get F.DENC_PORTn_TS_H_TS n.val)]).readBack
          p (0x80120 + 64 * n.val) (s.get F.DENC_PORTn_POS_L_POS n.val)))
    ∧ Answers (.cruTimeRead p) s
        ((s.captured p [(0x130018, ts40 s.now / 2 ^ 32), (0x13001C, epochOf s.now % 2 ^ 32)]).readBack
          p 0x130014 (ts40 s.now % 2 ^ 32))

/-- A W1C write clears the flags where it has ones, and a condition that still holds sets its flag again. While the ports
answer: a write of a mask to DEV_STATUS leaves each of its four flags set exactly where it was set and the mask has a 0; a
write to JRN_STATUS that clears GQ_LEVEL while the queue's count is at or above a threshold other than 0 leaves GQ_LEVEL
set, and one below the threshold leaves it clear; likewise RX_LAPSE of TLNK_STATUS while a lapse holds on an enabled
channel, HYST_LOW of WEV_STATUS while a point reports it, DRIFT of MEAS_STATUS while a channel drifts, STALE_ANY of
SUP_STATUS while a channel is STALE, VIN_LOW of CRU_STATUS, once set, while the last measurement lies below 9.0 V, XBAR_ERR
of EXC_MON while the last readback disagrees, UE of FAB_STATUS while an uncorrectable word stands, and SEAL_CHG of
CFG_STATUS, once set, while the last reading differs; MONA_FAIL and MONB_FAIL while the monitor is DISABLED, LOST of a
controller that is lost, HB_LOST while a standby misses images, PARTNER_LOST, TO_BLOCKED and DIVERGE while the partner is
lost, the claim blocked, the divergence not acknowledged. Which flags stand for a condition that holds is the model's
reading (log entry 51). (00_scope.md R15, 16_host_ports.md R374) -/
def Obligations.FlagsClearedByOnes : Prop :=
  ∀ (s : State) (p : HPort) (m : Word), LinesFollow s → s.portsUp = true →
    (∃ t, exec (.w1cClear p 0x14 m) s = .next t
      ∧ ∀ x, x ∈ [F.DEV_STATUS_STATE_CHG, F.DEV_STATUS_ROLE_CHG, F.DEV_STATUS_CMD_REJ, F.DEV_STATUS_CMD_EXPIRED] →
        s.get x ≤ 1 → t.get x = if bitAt m.toNat (x.bit - 0x14 * 8) then 0 else s.get x)
    ∧ (bitAt m.toNat 0 = true → s.get F.JRN_STATUS_GQ_LEVEL ≤ 1 → ∃ t, exec (.w1cClear p 0x140000 m) s = .next t
      ∧ t.get F.JRN_STATUS_GQ_LEVEL
        = if s.get F.JRN_GQ_LEVEL_GQ_THRESH ≠ 0 ∧ s.get F.JRN_GQ_LEVEL_GQ_THRESH ≤ s.gustCount then 1 else 0)
    ∧ (bitAt m.toNat 0 = true → s.get F.TLNK_STATUS_RX_LAPSE ≤ 1 → ∃ t, exec (.w1cClear p 0xB0000 m) s = .next t
      ∧ t.get F.TLNK_STATUS_RX_LAPSE = if s.tl.lapsed = true ∧ s.flag F.TLNK_CFG_EN = true then 1 else 0)
    ∧ (bitAt m.toNat 1 = true → s.get F.WEV_STATUS_HYST_LOW ≤ 1 → ∃ t, exec (.w1cClear p 0x40000 m) s = .next t
      ∧ t.get F.WEV_STATUS_HYST_LOW ≤ 1
        ∧ (t.get F.WEV_STATUS_HYST_LOW = 1 ↔ ∃ q, q < 24 ∧ (s.flag F.WEV_SPn_STATE_HYST_LOW_A q = true ∨ s.flag F.WEV_SPn_STATE_HYST_LOW_B q = true)))
    ∧ (bitAt m.toNat 11 = true → s.get F.MEAS_STATUS_DRIFT ≤ 1 → ∃ t, exec (.w1cClear p 0x20000 m) s = .next t
      ∧ t.get F.MEAS_STATUS_DRIFT ≤ 1 ∧ (t.get F.MEAS_STATUS_DRIFT = 1 ↔ ∃ c, c < 48 ∧ s.flag F.MEAS_CHn_CFG_DRIFT c = true))
    ∧ (bitAt m.toNat 13 = true → s.get F.SUP_STATUS_STALE_ANY ≤ 1 → ∃ t, exec (.w1cClear p 0x30004 m) s = .next t
      ∧ t.get F.SUP_STATUS_STALE_ANY ≤ 1 ∧ (t.get F.SUP_STATUS_STALE_ANY = 1 ↔ ∃ c, c < 48 ∧ s.flag F.SUP_CHn_VISIT_STALE c = true))
    ∧ (bitAt m.toNat 4 = true → s.get F.CRU_STATUS_VIN_LOW ≤ 1 → ∃ t, exec (.w1cClear p 0x130000 m) s = .next t
      ∧ t.get F.CRU_STATUS_VIN_LOW = if s.get F.CRU_STATUS_VIN_LOW = 1 ∧ s.get F.CRU_VIN_VIN < 900 then 1 else 0)
    ∧ (bitAt m.toNat 10 = true → s.get F.EXC_MON_XBAR_ERR ≤ 1 → ∃ t, exec (.w1cClear p 0x10004 m) s = .next t
      ∧ t.get F.EXC_MON_XBAR_ERR = if s.tone.xbar = [] then 0 else 1)
    ∧ (bitAt m.toNat 3 = true → s.get F.FAB_STATUS_UE ≤ 1 → ∃ t, exec (.w1cClear p 0x90000 m) s = .next t
      ∧ t.get F.FAB_STATUS_UE = if s.fab.ue = true then 1 else 0)
    ∧ (let stays := fun (a : Addr) (f : Fld) (holds : Prop) => bitAt m.toNat (f.bit % 32) = true → s.get f ≤ 1 →
        ∃ t, exec (.w1cClear p a m) s = .next t ∧ (holds → t.get f = 1) ∧ (¬holds → t.get f = 0)
      stays 0x130000 F.CRU_STATUS_MONA_FAIL (s.get F.CRU_CLK_MONA_ST = 2) ∧ stays 0x130000 F.CRU_STATUS_MONB_FAIL (s.get F.CRU_CLK_MONB_ST = 2)
      ∧ stays 0xC0000 (F.CANx_STATUS_LOST.can 0) (s.flag (F.CANx_ERR_LOST.can 0) = true) ∧ stays 0xC4000 (F.CANx_STATUS_LOST.can 1) (s.flag (F.CANx_ERR_LOST.can 1) = true)
      ∧ stays 0xF0000 F.URED_STATUS_HB_LOST (s.role = .standby ∧ 2 ≤ s.link.missed) ∧ stays 0xF0000 F.URED_STATUS_PARTNER_LOST (s.link.lost = true)
      ∧ stays 0xF0000 F.URED_STATUS_TO_BLOCKED (claimBlocked s = true) ∧ stays 0xF0000 F.URED_STATUS_DIVERGE (s.flag F.URED_STATUS_FORCE_STOP = true))
    ∧ (bitAt m.toNat 5 = true → s.get F.CFG_STATUS_SEAL_CHG ≤ 1 → ∃ t, exec (.w1cClear p 0x120000 m) s = .next t
      ∧ t.get F.CFG_STATUS_SEAL_CHG = if s.get F.CFG_STATUS_SEAL_CHG = 1 ∧ sealDiffers s = true then 1 else 0)

/-- READ_INC and READ_FIX of working and configuration memory, and a frame whose request CRC fails. While the ports answer: a
READ_INC or READ_FIX with the CRC of its request, of aligned words of 0x20_0000 to 0x66_FFFF, returns the words at rising
addresses or the one address over and over, with the response CRC over request and data, and keeps them as the last accepted
read; with another CRC each of them performs no read, returns zeros with the complement of the right response CRC, sets
CRC_ERR and counts it. Nothing else changes. The command stands in bits 7:6 of the opcode, the word count less 1 in bits
5:0. (16_host_ports.md R368, 16_host_ports.md R369, 16_host_ports.md R371, 16_host_ports.md R388) -/
def Obligations.ReadFrames : Prop :=
  ∀ (s : State) (p : HPort) (n : Fin 64) (a : Addr) (crc : BitVec 16), LinesFollow s → s.portsUp = true →
    (a.toNat % 4 = 0 → 0x200000 ≤ a.toNat → a.toNat + 4 * n.val < 0x670000 → crc.toNat = crc16 (reqBytes 0 n.val a.toNat) →
      Answers (.readInc p n a crc) s (s.updHost p.toNat (fun h =>
        let ws := (List.range (n.val + 1)).map (fun i => s.memWord (a.toNat + 4 * i))
        { h with resp := ws, respCrc := crc16 (reqBytes 0 n.val a.toNat ++ wireWords ws), last := some (n.val, a.toNat, ws) })))
    ∧ (a.toNat % 4 = 0 → 0x200000 ≤ a.toNat → a.toNat < 0x670000 → crc.toNat = crc16 (reqBytes 1 n.val a.toNat) →
      Answers (.readFix p n a crc) s (s.updHost p.toNat (fun h =>
        let ws := List.replicate (n.val + 1) (s.memWord a.toNat)
        { h with resp := ws, respCrc := crc16 (reqBytes 1 n.val a.toNat ++ wireWords ws), last := some (64 + n.val, a.toNat, ws) })))
    ∧ (crc.toNat ≠ crc16 (reqBytes 0 n.val a.toNat) →
      Answers (.readInc p n a crc) s
        (((s.updHost p.toNat (fun h => { h with resp := List.replicate (n.val + 1) 0, respCrc := 0xFFFF - crc16 (reqBytes 0 n.val a.toNat ++ wireWords (List.replicate (n.val + 1) 0)) })).set
            (F.HPS_STATUS_CRC_ERR.port p.toNat) 0 1).counted (F.HPS_CNT_CRC_CNT.port p.toNat)))
    ∧ (crc.toNat ≠ crc16 (reqBytes 1 n.val a.toNat) →
      Answers (.readFix p n a crc) s
        (((s.updHost p.toNat (fun h => { h with resp := List.replicate (n.val + 1) 0, respCrc := 0xFFFF - crc16 (reqBytes 1 n.val a.toNat ++ wireWords (List.replicate (n.val + 1) 0)) })).set
            (F.HPS_STATUS_CRC_ERR.port p.toNat) 0 1).counted (F.HPS_CNT_CRC_CNT.port p.toNat)))
    ∧ (∀ cs, (a ≠ 0xFFFFFF → frameCommand p (reqBytes 0 n.val a.toNat ++ beBytes 2 crc.toNat) cs = some (.readInc p n a crc))
      ∧ frameCommand p (reqBytes 0 n.val 0xFFFFFF ++ beBytes 2 crc.toNat) cs = some (.repeatResponse p n crc)
      ∧ frameCommand p (reqBytes 1 n.val a.toNat ++ beBytes 2 crc.toNat) cs = some (.readFix p n a crc))

/-- A write frame is executed whole, word by word, or discarded whole. While the ports answer: a WRITE_INC or WRITE_FIX of the
right length whose request CRC passes performs its words in order, each as a register write at the next word's address or at
the one address; a frame of wrong length or without its CS_N edge changes nothing but LEN_ERR and the count, one whose CRC
fails nothing but CRC_ERR and the count. The bytes of a whole frame spell its command, words and CRC. That a wrong length is
counted with the CRC failures, and that CS_N and length are judged before the CRC, so that a frame that fails both sets
LEN_ERR alone, is the model's reading (log entry 49). (16_host_ports.md R368, 16_host_ports.md R369, 16_host_ports.md R370) -/
def Obligations.WriteFrames : Prop :=
  ∀ (s : State) (p : HPort) (n : Fin 64) (a : Addr) (data : List Word) (crc : BitVec 16), LinesFollow s → s.portsUp = true →
    (data.length = n.val + 1 → crc.toNat = crc16 (reqBytes 2 n.val a.toNat ++ wireWords (data.map BitVec.toNat)) →
      exec (.writeInc p n a data crc true) s = .next (settled s
        (forEach (indexed 0 data) s (fun s x => writeWord s p ((a.toNat + 4 * x.1) % 2 ^ 24) x.2.toNat))))
    ∧ (data.length = n.val + 1 → crc.toNat = crc16 (reqBytes 3 n.val a.toNat ++ wireWords (data.map BitVec.toNat)) →
      exec (.writeFix p n a data crc true) s = .next (settled s (forEach data s (fun s x => writeWord s p a.toNat x.toNat))))
    ∧ (let failed := fun (f : Fld) => (s.set (f.port p.toNat) 0 1).counted (F.HPS_CNT_CRC_CNT.port p.toNat)
      (data.length = n.val + 1 → crc.toNat ≠ crc16 (reqBytes 2 n.val a.toNat ++ wireWords (data.map BitVec.toNat)) →
        Answers (.writeInc p n a data crc true) s (failed F.HPS_STATUS_CRC_ERR))
      ∧ (data.length = n.val + 1 → crc.toNat ≠ crc16 (reqBytes 3 n.val a.toNat ++ wireWords (data.map BitVec.toNat)) →
        Answers (.writeFix p n a data crc true) s (failed F.HPS_STATUS_CRC_ERR))
      ∧ (data.length ≠ n.val + 1 → ∀ cs,
        Answers (.writeInc p n a data crc cs) s (failed F.HPS_STATUS_LEN_ERR) ∧ Answers (.writeFix p n a data crc cs) s (failed F.HPS_STATUS_LEN_ERR))
      ∧ Answers (.writeInc p n a data crc false) s (failed F.HPS_STATUS_LEN_ERR) ∧ Answers (.writeFix p n a data crc false) s (failed F.HPS_STATUS_LEN_ERR))
    ∧ (data.length = n.val + 1 → ∀ cs,
      frameCommand p (reqBytes 2 n.val a.toNat ++ wireWords (data.map BitVec.toNat) ++ beBytes 2 crc.toNat) cs = some (.writeInc p n a data crc cs)
      ∧ frameCommand p (reqBytes 3 n.val a.toNat ++ wireWords (data.map BitVec.toNat) ++ beBytes 2 crc.toNat) cs = some (.writeFix p n a data crc cs))

/-- REPEAT returns the last accepted read again and performs no read. While the ports answer, a READ_INC at 0xFF_FFFF with its
request CRC whose count is that of the port's last accepted response returns its words with a response CRC of its own and
steps REPEAT_CNT, and nothing else changes; with another count it returns zeros with an inverted CRC and sets LEN_ERR. It
steps the count of CRC failures then, and REPEAT_CNT stays. That the response CRC covers the request of the REPEAT frame,
that the failure is counted with the CRC failures and that REPEAT_CNT counts successful repeats only is the model's reading
(log entry 49). (16_host_ports.md R372) -/
def Obligations.RepeatReturnsLastResponse : Prop :=
  ∀ (s : State) (p : HPort) (n : Fin 64) (op a : Nat) (ws : List Nat) (crc : BitVec 16), LinesFollow s → s.portsUp = true →
    crc.toNat = crc16 (reqBytes 0 n.val 0xFFFFFF) → (s.host p.toNat).last = some (op, a, ws) →
    (ws.length = n.val + 1 →
      Answers (.repeatResponse p n crc) s
        ((s.updHost p.toNat (fun h => { h with resp := ws, respCrc := crc16 (reqBytes 0 n.val 0xFFFFFF ++ wireWords ws) })).counted (F.HPS_CNT_REPEAT_CNT.port p.toNat)))
    ∧ (ws.length ≠ n.val + 1 →
      ∃ t, exec (.repeatResponse p n crc) s = .next t ∧ (t.host p.toNat).resp = List.replicate (n.val + 1) 0
        ∧ (t.host p.toNat).respCrc = 0xFFFF - crc16 (reqBytes 0 n.val 0xFFFFFF ++ wireWords (List.replicate (n.val + 1) 0))
        ∧ t.get (F.HPS_STATUS_LEN_ERR.port p.toNat) = 1
        ∧ t.get (F.HPS_CNT_CRC_CNT.port p.toNat) = satInc F.HPS_CNT_CRC_CNT.width (s.get (F.HPS_CNT_CRC_CNT.port p.toNat))
        ∧ t.get (F.HPS_CNT_REPEAT_CNT.port p.toNat) = s.get (F.HPS_CNT_REPEAT_CNT.port p.toNat))

/-- The phase inversion at a multiple of 500: phase, BLIND, SETTLING and the sections it disturbs. At a boundary whose index is
a multiple of 500, while counting runs, every ALTERNATING point takes the phase of the frame that begins, inverted at an odd
multiple and normal at an even one, and begins a SETTLING window with the sample that contains the boundary. Every other
point keeps its phase and its state. A point that was not BLIND becomes BLIND, with the exception of R30 judged; where no
hold is pending at an ALTERNATING point and nothing has reached a count tile in this fabric clock, every section in use
bounded by a point that was neither BLIND nor FAULTY and did not meet the exception is DISTURBED, and every section that no
such point bounds keeps its state. That every odd multiple inverts every such point is a reading (log entry 26).
(02_excitation.md R51, 02_excitation.md R55, 02_excitation.md R57, 02_excitation.md R56, 01_counting_model.md R30,
05_wheel_events.md R128) -/
def Obligations.PhaseInversionBlindsPoint : Prop :=
  (∀ s : State, LinesFollow s → s.counting = true → atBoundary s = true → s.cycle % 500 = 0 → s.cycle / 500 % 2 = 1 → s.points.length = 24 →
    (∀ p, p < 24 → excMode s p = mAlternating → (s.point p).blind = true ∧ (s.point p).altSince ≠ s.now) →
    ∃ t, exec .altPhaseInversion s = .next t ∧ t.now = s.now
      ∧ ∀ p, p < 24 →
        (excMode s p = mAlternating → t.get F.EXC_CARRIER_SPn_ALT_PHASE p = 1 ∧ (t.point p).blind = true
          ∧ (t.point p).altSince = s.now ∧ settling (t.point p) (s.now / 1250) = true)
        ∧ (excMode s p ≠ mAlternating → t.point p = s.point p
          ∧ t.get F.EXC_CARRIER_SPn_ALT_PHASE p = s.get F.EXC_CARRIER_SPn_ALT_PHASE p))
  ∧ ∀ s : State, LinesFollow s → s.counting = true → atBoundary s = true → s.cycle % 500 = 0 → s.points.length = 24 → s.chans.length = 48 →
    (∀ p, p < 24 → excMode s p = mAlternating → (s.point p).altSince ≠ s.now) →
    ∃ u, exec .altPhaseInversion s = .next (settled s u)
      ∧ (∀ p, p < 24 →
        (excMode s p = mAlternating → u.get F.EXC_CARRIER_SPn_ALT_PHASE p = s.cycle / 500 % 2 ∧ (u.point p).altSince = s.now
          ∧ (u.point p).blind = true ∧ settling (u.point p) (s.now / 1250) = true ∧ ((s.point p).blind = false → BlindPoint s u p))
        ∧ (excMode s p ≠ mAlternating → u.point p = s.point p ∧ u.get F.EXC_CARRIER_SPn_ALT_PHASE p = s.get F.EXC_CARRIER_SPn_ALT_PHASE p))
      ∧ (clockNow s = [] → (∀ p, p < 24 → excMode s p = mAlternating → noHold s p) → ∀ n, n < 48 →
        ((∃ p c, p < 24 ∧ excMode s p = mAlternating ∧ (n, c) ∈ blindDisturbs s p) → u.get F.SECT_n_STATE_STATE n = 2)
        ∧ ((∀ p c, p < 24 → excMode s p = mAlternating → (n, c) ∉ blindDisturbs s p) →
          u.get F.SECT_n_STATE_STATE n = s.get F.SECT_n_STATE_STATE n))

/-- Pending values take effect at a boundary when the point is ready or forced, and wait otherwise. At a boundary while counting
runs: with nothing pending, with values accepted at this very boundary, or neither forced nor ready under R58, a point keeps
everything. Otherwise the pending values come into force and none stay pending. A channel whose curve or thresholds differ
starts on its new scale, and two samples that still wait for the next are evaluated first (log entry 83). When the
excitation differs the sources follow, a new SETTLING window begins, and a change of mode starts calibration afresh and
gives OFFS_I the offset of the mode, a free value in DC_SUPPLY mode (R73 gives none; log entry 14). A point that was not
BLIND then becomes BLIND. On an unchanged scale, with no hold pending and nothing at a count tile in this fabric clock:
under the exception of R30, which the ready case always meets, no section changes its state; otherwise, forced, every
section in use that its counting point bounds is DISTURBED, with cause CP_BLIND and this point where it was not already.
That pending values are applied as they were accepted is the model's choice (log entry 104). (01_counting_model.md R30,
02_excitation.md R55, 02_excitation.md R57, 02_excitation.md R58, 02_excitation.md R60, 03_measurement.md R73,
03_measurement.md R87, 05_wheel_events.md R118, 05_wheel_events.md R428) -/
def Obligations.PendingValuesApply : Prop :=
  ∀ (s : State) (sp : Fin 24), LinesFollow s → s.counting = true → atBoundary s = true →
    ((s.point sp.val).pend = none → Answers (.pendingExcApply sp) s s)
    ∧ ∀ v, (s.point sp.val).pend = some v →
      (s.now ≤ (s.point sp.val).pendAt ∨ (s.point sp.val).force = false ∧ pendReady s sp.val = false → Answers (.pendingExcApply sp) s s)
      ∧ ((s.point sp.val).pendAt < s.now → (s.point sp.val).force = true ∨ pendReady s sp.val = true →
        let free := s.updPoint sp.val (fun x => { x with pend := none, force := false })
        let scale := scaleDiffers (pointVals s sp.val) v 0 || scaleDiffers (pointVals s sp.val) v 1
        let fresh := forN 2 (putVals (if scale then drainHeld free sp.val else free) sp.val v) (fun u j =>
          if scaleDiffers (pointVals s sp.val) v j then
            u.updChan (2 * sp.val + j) (fun x => { x with last := none, mean := [], parkRef := none })
          else u)
        let moded := if s.get F.EXC_CARRIER_SPn_MODE sp.val = v.mode then fresh else dcTrim (calReset fresh sp.val) sp.val
        (excDiffers (pointVals s sp.val) v = false → exec (.pendingExcApply sp) s = .next (settled s fresh))
        ∧ (excDiffers (pointVals s sp.val) v = false → drainHeld free sp.val = free → Answers (.pendingExcApply sp) s fresh)
        ∧ (excDiffers (pointVals s sp.val) v = true → (s.point sp.val).blind = false →
          let u := excChange (syncSources moded) sp.val s.now .cpBlind
          exec (.pendingExcApply sp) s = .next (settled s u)
          ∧ (s.points.length = 24 → s.chans.length = 48 →
            (u.point sp.val).pend = none ∧ (u.point sp.val).force = false
            ∧ (v.mode < 4 → u.get F.EXC_CARRIER_SPn_MODE sp.val = v.mode) ∧ (v.amp < 64 → u.get F.EXC_CARRIER_SPn_AMP sp.val = v.amp)
            ∧ (v.carrier < 256 → u.get F.EXC_CARRIER_SPn_CARRIER sp.val = v.carrier)
            ∧ (∀ j, j < 4 → nth v.src j < 64 → nth v.func j < 4 →
              u.get F.EXC_ROUTEp_SRC (4 * sp.val + j) = nth v.src j ∧ u.get F.EXC_ROUTEp_FUNC (4 * sp.val + j) = nth v.func j)
            ∧ (u.point sp.val).blind = true ∧ settling (u.point sp.val) (s.now / 1250) = true
            ∧ (scale = false → BlindPoint s u sp.val)
            ∧ (pendReady s sp.val = true → blindExempt s sp.val = true)
            ∧ (scale = false → clockNow s = [] → noHold s sp.val → ∀ n, n < 48 →
              (∀ c, (n, c) ∈ blindDisturbs s sp.val → u.get F.SECT_n_STATE_STATE n = 2
                ∧ (s.get F.SECT_n_STATE_STATE n ≠ 2 → u.get F.SECT_n_STATE_CAUSE n = 3 ∧ u.get F.SECT_n_STATE_CAUSE_CP n = c))
              ∧ ((∀ c, (n, c) ∉ blindDisturbs s sp.val) → u.get F.SECT_n_STATE_STATE n = s.get F.SECT_n_STATE_STATE n))))
        ∧ (excDiffers (pointVals s sp.val) v = true → (s.point sp.val).blind = true →
          Answers (.pendingExcApply sp) s ((syncSources moded).updPoint sp.val (fun q =>
            { q with settle := settleFrom s.now :: q.settle.filter (fun w => decide (s.now ≤ 1250 * (w.2 + 8))) }))))

/-- A point whose settling samples are over leaves BLIND with the states that its samples show. While counting runs, a BLIND
point whose settling windows are past on both channels' next samples, whatever their tags, and that was not blinded under
the exception of R30, leaves BLIND: its on or off state has held, so a channel that was on stays on while its sample lies at
or above its off-threshold, one that was off is on when it lies at or above its on-threshold, and one whose sample is tagged
keeps its state; the sequencer takes the state that the two show, with entry unknown unless both are off. Before that, and
at a point that is not BLIND, nothing happens. That the on state holds through BLIND is a reading (log entry 22).
(02_excitation.md R55, 05_wheel_events.md R128, 01_counting_model.md R30) -/
def Obligations.SettlingEnds : Prop :=
  ∀ (s : State) (sp : Fin 24), LinesFollow s → s.counting = true → s.points.length = 24 → s.chans.length = 48 →
    let x := fun (c : Nat) => nextSample (s.chan c)
    let past := fun (c : Nat) => 0 < (s.chan c).kNext ∧ pastSettling (s.point sp.val) (x c).k = true
    let on := fun (c : Nat) => if (x c).tag = 0 then decide ((if (s.chan c).on then offThr s c else onThr s c) ≤ (x c).l) else (s.chan c).on
    ((s.point sp.val).blind = false ∨ (∃ c, (c = 2 * sp.val ∨ c = 2 * sp.val + 1) ∧ ¬past c) → Answers (.settlingEnd sp) s s)
    ∧ ((s.point sp.val).blind = true → (s.point sp.val).blindExc = false →
    (∀ c, c = 2 * sp.val ∨ c = 2 * sp.val + 1 → past c ∧ (s.chan c).queue.length ≤ 1 ∧ (s.chan c).faulty = false) →
    ∃ t, exec (.settlingEnd sp) s = .next t ∧ (t.point sp.val).blind = false
      ∧ (∀ c, c = 2 * sp.val ∨ c = 2 * sp.val + 1 → (t.chan c).on = on c)
      ∧ ((t.point sp.val).seq, (t.point sp.val).entry) =
        (match on (2 * sp.val), on (2 * sp.val + 1) with
        | true, true => (Seq.ab, Entry.unknown)
        | true, false => (Seq.aIn, Entry.unknown)
        | false, true => (Seq.bIn, Entry.unknown)
        | false, false => (Seq.idle, Entry.none)))

/-- FORCE marks the selected points that hold pending values; CANCEL discards them. While the ports answer: FORCE marks every
selected point that holds pending values; CANCEL leaves every selected point with none and without its mark; nothing else
changes. (02_excitation.md R59, 02_excitation.md R60) -/
def Obligations.ForceAndCancel : Prop :=
  ∀ (s : State) (p : HPort) (pts : BitVec 24), LinesFollow s → s.portsUp = true →
    Answers (.force p pts) s (forEach (bitsSet pts.toNat 24) s (fun u q =>
      if (u.point q).pend.isSome then u.updPoint q (fun x => { x with force := true }) else u))
    ∧ Answers (.cancel p pts) s (forEach (bitsSet pts.toNat 24) s (fun u q => u.updPoint q (fun x => { x with pend := none, force := false })))

/-- A failed source: without AUTO_SPARE an episode of its channel, with it the lowest free source in its place. An ASSIGNED
source that is driven and fails while AUTO_SPARE is 0 becomes FAILED with no pin, SRC_FAIL is set with a journal entry,
pending values that name it are discarded, and its channel begins a monitor episode with reason SRC_LOST since the onset of
the deviation, whose samples are tagged. A source that is not ASSIGNED, or not driven, declares nothing. With AUTO_SPARE at
1, where no other source failed in this tick: without a free source NO_SPARE is set and the episode begins; otherwise the
lowest source that is FREE without RETIRE is ASSIGNED to the pin, in force and in every shadow copy, SUBST_CNT steps and
NO_SPARE stays, the samples from the onset to this tick are INVALID, and the point becomes BLIND as by a forced change:
where nothing had reached a count tile in this fabric clock and no hold is pending, it disturbs its sections unless the
exception of R30 holds. Failures of one tick share out the sources (log entry 84). (02_excitation.md R60, 02_excitation.md
R62, 02_excitation.md R63, 02_excitation.md R65, 04_sensor_supervision.md R96) -/
def Obligations.SourceFailureWithoutSpare : Prop :=
  ∀ (s : State) (src : Fin 56) (onset : Nat), LinesFollow s →
    (s.get F.EXC_SRCn_STATUS src.val = 1 → s.lines.src = true → s.get F.EXC_SRCn_PIN src.val < 96 → s.flag F.EXC_MODE_AUTO_SPARE = false →
      exec (.sourceFailure src onset) s = .next (settled s
        (monStart (dropFailed ((((((s.set F.EXC_SRCn_STATUS src.val 2).set F.EXC_SRCn_PIN src.val 127).indicate).set F.EXC_MON_SRC_FAIL 0 1).firstErr
          F.URED_FIRST_SRC 2400).note 0 0x01 8 src.val (2 + 127 * 256)) src.val) (s.get F.EXC_SRCn_PIN src.val / 2) onset 2)))
    ∧ (s.get F.EXC_SRCn_STATUS src.val ≠ 1 ∨ s.lines.src = false → Answers (.sourceFailure src onset) s s)
    ∧ (s.get F.EXC_SRCn_STATUS src.val = 1 → s.lines.src = true → s.get F.EXC_SRCn_PIN src.val < 96 → s.flag F.EXC_MODE_AUTO_SPARE = true →
      let pin := s.get F.EXC_SRCn_PIN src.val
      let w := dropFailed ((((((s.set F.EXC_SRCn_STATUS src.val 2).set F.EXC_SRCn_PIN src.val 127).indicate).set F.EXC_MON_SRC_FAIL 0 1).firstErr
          F.URED_FIRST_SRC 2400).note 0 0x01 8 src.val (2 + 127 * 256)) src.val
      let x : SrcFail := ⟨s.now, src.val, pin, onset, none⟩
      exec (.sourceFailure src onset) s = .next (settled s (substitute w x))
      ∧ ((∀ y, y ∈ s.srcFails → y.at_ ≠ s.now) →
        ((∀ m, m < 56 → srcFree s m = false) →
          exec (.sourceFailure src onset) s = .next (settled s (monStart ((w.putSrcFails [x]).set F.EXC_MON_NO_SPARE 0 1) (pin / 2) onset 2)))
        ∧ (∀ m, m < 56 → srcFree s m = true → (∀ j, j < m → srcFree s j = false) → ∃ u, exec (.sourceFailure src onset) s = .next (settled s u)
          ∧ u.get F.EXC_SRCn_STATUS src.val = 2 ∧ u.get F.EXC_SRCn_PIN src.val = 127
          ∧ u.get F.EXC_ROUTEp_SRC pin = m ∧ u.get F.EXC_SRCn_STATUS m = 1 ∧ u.get F.EXC_SRCn_PIN m = pin
          ∧ (∀ h, h ∈ u.hosts → ∀ e, e ∈ h.shadow → e.1 = 0x10100 + 4 * pin → e.2 % 64 = m)
          ∧ u.get F.EXC_MON_SUBST_CNT = satInc F.EXC_MON_SUBST_CNT.width (s.get F.EXC_MON_SUBST_CNT) ∧ u.get F.EXC_MON_NO_SPARE = s.get F.EXC_MON_NO_SPARE
          ∧ (s.points.length = 24 → s.chans.length = 48 → (onset, s.now, 2) ∈ (u.chan (pin / 2)).inval
            ∧ (u.point (pin / 4)).blind = true ∧ settling (u.point (pin / 4)) (s.now / 1250) = true
            ∧ ((s.point (pin / 4)).blind = false → BlindPoint s u (pin / 4))
            ∧ (clockNow s = [] → noHold s (pin / 4) → ∀ n, n < 48 →
              (∀ c, (n, c) ∈ blindDisturbs s (pin / 4) → u.get F.SECT_n_STATE_STATE n = 2)
              ∧ ((∀ c, (n, c) ∉ blindDisturbs s (pin / 4)) → u.get F.SECT_n_STATE_STATE n = s.get F.SECT_n_STATE_STATE n))))))

/-- A clamp conducts and its episode ends 1,250 ticks after the last conduction. A conduction sets the pin's CLAMP flag, is kept
with its first and last tick, and tags the samples that it overlaps; the end of the episode, when it falls in the running
cycle, moves the instant to it, counts the episode and journals it with its count. Conduction given with its first and last
tick is the model's form of the event (log entry 24). (02_excitation.md R67) -/
def Obligations.ClampEpisodes : Prop :=
  ∀ (s : State) (pin : Fin 96), LinesFollow s →
    (∀ onset last : Nat, (s.pin pin.val).from_ = none →
      let u := (s.set F.EXC_CLAMPk_CLAMP (pin.val / 32) (putBit (s.get F.EXC_CLAMPk_CLAMP (pin.val / 32)) (pin.val % 32) true)).updPin pin.val
          (fun x => { from_ := some onset, last := last, ivs := x.ivs })
      (s.counting = false → Answers (.clampConduction pin onset last) s u)
      ∧ exec (.clampConduction pin onset last) s = .next (settled s (tagsAgain u (pin.val / 2) onset)))
    ∧ ∀ (t m : Nat), (s.pin pin.val).from_ = some t → (s.pin pin.val).last + 1250 < s.nextBoundary →
      m = max s.now ((s.pin pin.val).last + 1250) →
      let u := ((s.putNow m).updPin pin.val (fun x => { x with from_ := none, ivs := (t, x.last) :: x.ivs })).counted F.EXC_ROUTEp_CLAMP_CNT pin.val
      AnswersTimed (.clampEpisodeEnd pin) (clampEnd · pin.val) s (u.countNote 0x01 0xFF pin.val 0 (u.get F.EXC_ROUTEp_CLAMP_CNT pin.val))

/-- Loss and return of the carrier at a BLIND point of a listening unit. While counting runs, at a BLIND point that is not OFF:
on a unit that does not drive, the absence found since a tick is kept from its first report; on the return, the absence
ends, the samples since the loss stay SETTLING, the 96 samples of R55 are counted from the present instant, and a window of
an earlier change that may still be in the chain stays. (02_excitation.md R429) -/
def Obligations.CarrierLossAndReturn : Prop :=
  ∀ (s : State) (sp : Fin 24) (onset : Nat), LinesFollow s → s.counting = true → (s.point sp.val).blind = true → excMode s sp.val ≠ mOff →
    (s.lines.src = false →
      Answers (.carrierLoss sp onset) s
        (s.updPoint sp.val (fun q => { q with noCarrier := some (q.noCarrier.getD onset) })))
    ∧ ((s.point sp.val).noCarrier.isSome = true →
      Answers (.carrierReturn sp) s (s.updPoint sp.val (fun q => { q with noCarrier := none, settle := ((q.noCarrier.getD s.now) / 1250, (settleFrom s.now).2) :: q.settle.filter (fun w => decide (s.now ≤ 1250 * (w.2 + 8))) })))

/-- A completed sample: kept in BLIND, waiting for the other channel, evaluated with the other's, or taken before counting runs.
While no snapshot is latched, once the tags of every sample that ends by its completion are fixed and the overranges that
come with it are told (nothing of that where no channel is touched and none comes): a sample in the settling window of a
BLIND point is kept as SETTLING with its linearised value and reaches no detector, only a running calibration and capture;
an untagged sample of a point that is not BLIND, whose other channel has none waiting, waits with its index, value and
damping. Before counting runs a sample is linearised and kept only, and without the ports nothing is. Of two untagged
samples of one index, each after one on its channel's present side, every crossing stands at the tick interpolated between
the middle ticks; with the sequencer in a state that shows the channels and its window running past these ticks, both
channels and the sequencer follow the table in the order of the ticks, an onset before an offset, the outcome counters step,
a SEQ_FAULT disturbs the sections, and a hold or link window begun by one crossing has its length (rounding: log entry 12).
A crossing at the middle tick of its sample waits for the next (R124). The instant moves to the completion of the sample,
3,600 ticks after its interval, within the running cycle. What fixes a tag and when is the model's choice (log entry 78).
(03_measurement.md R76, 03_measurement.md R86, 04_sensor_supervision.md R95, 05_wheel_events.md R116, 05_wheel_events.md
R119, 05_wheel_events.md R120, 05_wheel_events.md R124, 05_wheel_events.md R125, 05_wheel_events.md R126, 05_wheel_events.md
R127, 05_wheel_events.md R129) -/
def Obligations.DampingSampleTaken : Prop :=
  ∀ (s : State) (ch : Fin 48) (k : Nat) (i q : Int) (ovr : BitVec 5), LinesFollow s →
    let e := 1250 * (k + 1) + 3600
    let v := tellOver (turnsDue ((tagsPass s e).advanceTo e)) ch.val k ovr
    let d := damping v ch.val k i q
    let l := linearise v ch.val d.1 d.2
    (s.counting = true → calm s = true → ovr = 0 → ch.val < s.chans.length → v = s.advanceTo e)
    ∧ (s.counting = true → v.snap = none → DriveSteady v →
      ((v.point (ch.val / 2)).blind = true → settling (v.point (ch.val / 2)) k = true → v.chans.length = 48 →
        let x : Sample := ⟨k, 1, l, d.1, i, q⟩
        Answers (.dampingSample ch k i q ovr) s (calSample (refSample (v.updChan ch.val (fun c =>
          { c with kNext := k + 1, lastTag := 1, lastL := l, queue := [], winOn := c.winOn || (heldInTone v k && c.on) })) ch.val x) ch.val x))
      ∧ ((v.point (ch.val / 2)).blind = false → tagOf v ch.val k = (0, 0) → (v.chan (ch.val + 1 - 2 * (ch.val % 2))).queue = [] →
        Answers (.dampingSample ch k i q ovr) s (v.updChan ch.val (fun c =>
          { c with kNext := k + 1, lastTag := 0, lastL := l, queue := c.queue ++ [⟨k, 0, l, d.1, i, q⟩], winOn := c.winOn || (heldInTone v k && c.on) }))))
    ∧ (s.counting = true → v.snap = none → v.points.length = 24 → v.chans.length = 48 → ∀ (y : Sample) (f : Nat → Int), 0 < k →
      let p := ch.val / 2
      let a := 2 * p
      let b := 2 * p + 1
      let o := ch.val + 1 - 2 * (ch.val % 2)
      let m := midTick k
      usable v p = true → tagOf v ch.val k = (0, 0) → (v.chan ch.val).queue = [] → (v.chan o).queue = [y] → y.k = k → y.tag = 0 →
      seqShows (v.point p).seq = ((v.chan a).on, (v.chan b).on) →
      (∀ c, c = a ∨ c = b → (v.chan c).last = some (midTick (k - 1), f c) ∧ (if (v.chan c).on then offThr v c ≤ f c else f c < onThr v c)) →
      let at_ := fun (c : Nat) => if c = ch.val then l else y.l
      let cross := fun (c : Nat) =>
        if (v.chan c).on = false ∧ onThr v c ≤ at_ c then some (true, ((midTick (k - 1) : Int) + nearest ((onThr v c - f c) * 1250) (at_ c - f c)).toNat)
        else if (v.chan c).on = true ∧ at_ c < offThr v c then some (false, ((midTick (k - 1) : Int) + nearest ((f c - offThr v c) * 1250) (f c - at_ c)).toNat)
        else none
      (noHold v p ∨ 1250 * (k + 1) - 1 ≤ (v.point p).holdEnd) → ((v.point p).seq = .aLeft ∨ (v.point p).seq = .bLeft → m < (v.point p).linkEnd) →
      ((cross a).map (·.2) ≠ (cross b).map (·.2) → (∃ c x, (c = a ∨ c = b) ∧ cross c = some (x, m)) →
        exec (.dampingSample ch k i q ovr) s = .next (settled s (v.updChan ch.val (fun c =>
          { c with kNext := k + 1, lastTag := 0, lastL := l, queue := [⟨k, 0, l, d.1, i, q⟩], winOn := c.winOn || (heldInTone v k && c.on) }))))
      ∧ ((∀ c x, c = a ∨ c = b → cross c ≠ some (x, m)) ∨ (cross a).map (·.2) = (cross b).map (·.2) →
        let r := seqPair (v.point p).seq (v.point p).entry (cross a) (cross b)
        let cnt := fun (g : Fld) => r.2.2.2.count g
        ∃ u, exec (.dampingSample ch k i q ovr) s = .next (settled s u)
        ∧ (u.chan a).queue = [] ∧ (u.chan b).queue = []
        ∧ (∀ c, c = a ∨ c = b → (u.chan c).on = (match cross c with | some x => x.1 | none => (v.chan c).on))
        ∧ (u.point p).seq = r.1 ∧ (u.point p).entry = r.2.1
        ∧ (∀ g, g = F.WEV_SPn_PCNT_POS ∨ g = F.WEV_SPn_PCNT_NEG → u.get g p = (v.get g p + cnt g) % 2 ^ g.width)
        ∧ (∀ g, g = F.WEV_SPn_XCNT_EDDY ∨ g = F.WEV_SPn_XCNT_HOLD_CANCEL ∨ g = F.WEV_SPn_XCNT_SEQ_FAULT ∨ g = F.WEV_SPn_XCNT_UNRESOLVED →
          u.get g p = min (2 ^ g.width - 1) (v.get g p + cnt g))
        ∧ (0 < cnt F.WEV_SPn_XCNT_SEQ_FAULT → clockNow v = [] → ∀ cp, pointCp v p = some cp → portCarries v cp = true → ∀ n, n ∈ secsOf v cp → secUsed v n = true →
          u.get F.SECT_n_STATE_STATE n = 2)
        ∧ (∀ c t, cross c = some (false, t) → (c = a ∧ cross b = none ∨ c = b ∧ cross a = none) →
          let dwell := t - (v.chan c).onTick
          (r.1 = .holdP ∨ r.1 = .holdN → (u.point p).holdFrom = t
            ∧ (u.point p).holdEnd = t + max (qdiv (v.get F.WEV_SPn_CFG_HOLD p * dwell : Nat) 8).toNat 2500)
          ∧ (r.1 = .aLeft ∨ r.1 = .bLeft → (u.point p).linkEnd = t + max (4 * dwell) 2500))))
    ∧ (s.counting = false →
      let w := tellOver s ch.val k ovr
      let d := damping w ch.val k i q
      (s.portsUp = true → s.snap = none → DriveSteady (w.advanceTo e) → Answers (.dampingSample ch k i q ovr) s ((w.advanceTo e).updChan ch.val (fun c =>
        { c with kNext := k + 1, lastTag := (tagOf w ch.val k).1, lastL := linearise w ch.val d.1 d.2 })))
      ∧ (s.portsUp = false → Answers (.dampingSample ch k i q ovr) s s))

/-- A complete ALTERNATING pair gives the running mean offsets, or marks the channel CAL_BAD. At a boundary that ends a pair,
while counting runs: a channel that held one of the states READY or parked throughout (R78; not ACTIVE), with quiet frames
that both hold samples, takes the mean of its accepted pair offsets, with OFFS_VALID and without CAL_BAD; any other complete
pair sets CAL_BAD and OFFS_ERR and leaves the offsets. Rounding is left open by the spec (log entry 12), and that the
averages are of raw I and Q is a reading (log entry 82). (03_measurement.md R78, 03_measurement.md R79) -/
def Obligations.CalibrationPairs : Prop :=
  ∀ (s : State) (ch : Fin 48) (a b : CalFrame), LinesFollow s → s.counting = true → atBoundary s = true → s.cycle % 1000 = 0 →
    (s.chan ch.val).calP = some a → (s.chan ch.val).calN = some b →
    let st := (s.chan ch.val).calState.getD 7
    let good := !(s.chan ch.val).calMixed && (st == 0 || st == 2 || st == 3 || st == 4) && a.n != 0 && b.n != 0 && !a.noisy && !b.noisy
    let oi := (s.chan ch.val).calSum.1 + qdiv (a.si * b.n + b.si * a.n) (2 * a.n * b.n)
    let oq := (s.chan ch.val).calSum.2.1 + qdiv (a.sq * b.n + b.sq * a.n) (2 * a.n * b.n)
    let n := (s.chan ch.val).calSum.2.2 + 1
    let idle := s.updChan ch.val (fun x => { x with calP := none, calN := none, calState := none, calMixed := false })
    (good = true → ∃ t, exec (.calPairEnd ch) s = .next t
      ∧ t.get F.MEAS_CHn_OFFS_I_OFFS ch.val = fitS 32 (qdiv oi n) % 2 ^ 32 ∧ t.get F.MEAS_CHn_OFFS_Q_OFFS ch.val = fitS 32 (qdiv oq n) % 2 ^ 32
      ∧ t.get F.MEAS_CHn_CFG_OFFS_VALID ch.val = 1 ∧ t.get F.MEAS_CHn_CFG_CAL_BAD ch.val = 0
      ∧ (∀ c, c < 48 → c ≠ ch.val → t.get F.MEAS_CHn_OFFS_I_OFFS c = s.get F.MEAS_CHn_OFFS_I_OFFS c ∧ t.chan c = s.chan c))
    ∧ (good = false → Answers (.calPairEnd ch) s ((idle.set F.MEAS_CHn_CFG_CAL_BAD ch.val 1).set F.MEAS_STATUS_OFFS_ERR 0 1))

/-- MEAS_REF_CMD starts captures in COMMISSIONING only; a capture completes after 4,800 samples or fails after 48,000. While the
ports answer, the command starts a capture on each channel it names in COMMISSIONING and is an access error STATE elsewhere.
A capture of 4,800 samples writes REF_AMP and REF_PHASE and ends; one that is not complete 48,000 samples after its command
ends with REF_ERR. The phase, the root and its rounding are free values (log entries 11 and 12); that a second command
starts a running capture anew, and that raw I and Q are averaged, is the model's choice (log entry 105). (03_measurement.md
R80, 03_measurement.md R81) -/
def Obligations.ReferenceCapture : Prop :=
  ∀ s : State, LinesFollow s →
    (∀ (p : HPort) (ch : BitVec 6) (all : Bool), s.portsUp = true →
      (s.dev ≠ .comm → Answers (.refCapture p ch all) s (s.accErr p 0x20040 true .state_))
      ∧ (s.dev = .comm → Answers (.refCapture p ch all) s (forEach (if all then List.range 48 else if ch.toNat < 48 then [ch.toNat] else []) s
        (fun u c => syncRefBusy (u.updChan c (fun x => { x with refCap := some (x.kNext, 0, 0, 0) }))))))
    ∧ (∀ (ch : Fin 48) (k0 : Nat) (i q : Int), (s.chan ch.val).refCap = some (k0, 4800, i, q) →
      Answers (.refCaptureDone ch) s (syncRefBusy (((s.updChan ch.val (fun x => { x with refCap := none })).set F.MEAS_CHn_REF_REF_AMP ch.val
        (fitU 16 (ratRoot (((i * i + q * q : Int) : Rat) / ((4800 * 4800 * 2 ^ 30 : Nat) : Rat)) : Nat))).set F.MEAS_CHn_REF_REF_PHASE ch.val (Config.phaseOf i q))))
    ∧ (∀ (ch : Fin 48) (k0 n : Nat) (i q : Int), (s.chan ch.val).refCap = some (k0, n, i, q) → n ≠ 4800 → k0 + 48000 ≤ (s.chan ch.val).kNext →
      Answers (.refErr ch) s ((syncRefBusy (s.updChan ch.val (fun x => { x with refCap := none }))).set F.MEAS_STATUS_REF_ERR 0 1))

/-- SNAP_GO completes as a request taken or refused, and SNAP_DONE writes a complete snapshot out at once. While the ports
answer, SNAP_GO answers a next state: with a source of 0 to 2 and no snapshot running it starts one at the next sample index
with BUSY, the port, and DONE lowered; while one runs it is ignored but for SNAP_REFUSED, and with source 3 it sets
SNAP_REFUSED. SNAP_DONE answers a next state: of a running snapshot whose selected channels are all latched it sets DONE,
lowers BUSY, stamps the sample and writes each latched value with its tag and 0 with tag NOT SELECTED for every other
channel; of one that lacks a channel, and without one, it changes nothing. What SRC reads after a request with source 3 is
the model's choice (log entry 85). (03_measurement.md R88, 03_measurement.md R89, 03_measurement.md R90) -/
def Obligations.Snapshots : Prop :=
  ∀ s : State, LinesFollow s →
    (∀ (p : HPort) (src : BitVec 2), s.portsUp = true →
      (s.snap.isSome = true → ∃ t, exec (.snapGo p src) s = .next t ∧ Result s (s.set F.MEAS_STATUS_SNAP_REFUSED 0 1) t)
      ∧ (s.snap = none → src.toNat = 3 → ∃ t, exec (.snapGo p src) s = .next t
        ∧ Result s ((s.set F.MEAS_SNAP_REQ_SRC 0 src.toNat).set F.MEAS_STATUS_SNAP_REFUSED 0 1) t)
      ∧ (s.snap = none → src.toNat ≠ 3 → ∃ t, exec (.snapGo p src) s = .next t
        ∧ t.get F.MEAS_STATUS_SNAP_BUSY = 1 ∧ t.get F.MEAS_STATUS_SNAP_DONE = 0 ∧ t.get F.MEAS_STATUS_SNAP_PORT = p.toNat ∧ t.get F.MEAS_SNAP_REQ_SRC = src.toNat
        ∧ Result s (((((s.set F.MEAS_SNAP_REQ_SRC 0 src.toNat).set F.MEAS_STATUS_SNAP_DONE 0 0).set F.MEAS_STATUS_SNAP_BUSY 0 1).set
          F.MEAS_STATUS_SNAP_PORT 0 p.toNat).putSnap
            (some ⟨(s.now + 1249) / 1250, src.toNat, s.get F.MEAS_SNAP_MASK0_MASK + 2 ^ 32 * s.get F.MEAS_SNAP_MASK1_MASK, []⟩)) t))
    ∧ (s.snap = none → ∃ t, exec .snapDone s = .next t ∧ Result s s t)
    ∧ ∀ sn : Snap, s.snap = some sn →
      ((∃ c, c < 48 ∧ bitAt sn.mask c = true ∧ ∀ v, v ∈ sn.vals → v.1 ≠ c) → ∃ t, exec .snapDone s = .next t ∧ Result s s t)
      ∧ ((∀ c, c < 48 → bitAt sn.mask c = true → ∃ v, v ∈ sn.vals ∧ v.1 = c) →
        ∃ t, exec .snapDone s = .next t ∧ t.snap = none ∧ t.get F.MEAS_STATUS_SNAP_DONE = 1 ∧ t.get F.MEAS_STATUS_SNAP_BUSY = 0
        ∧ t.get40 F.MEAS_SNAP_TS_L_TS = ts40 (1250 * sn.k)
        ∧ ∀ c, c < 48 → match sn.vals.find? (fun v => v.1 == c) with
          | some v => t.get40 F.MEAS_SNAP_CHn_L_VALUE c = ofSigned 40 v.2.1 ∧ t.get F.MEAS_SNAP_TAGk_TAG c = v.2.2 % 2 ^ F.MEAS_SNAP_TAGk_TAG.width
          | none => t.get40 F.MEAS_SNAP_CHn_L_VALUE c = 0 ∧ t.get F.MEAS_SNAP_TAGk_TAG c = 8)

/-- A flagged episode begins and ends, and a glitch is counted. While counting runs, on a channel that is not OFF and has no
running episode, a flag begins an episode since its onset with the reason of its class, ends an armed CLEAR, marks the
verdict indicator and tags the samples since the onset; in another episode or on a channel that is OFF it changes nothing.
The end of an episode fixes the tags of its last samples, keeps its interval and, unless the episode made the channel
FAULTY, counts it and journals it; a glitch only steps GLITCH_CNT. That the end of an episode fixes tags, and when, is the
model's choice (log entry 78). (04_sensor_supervision.md R94, 04_sensor_supervision.md R96, 04_sensor_supervision.md R97,
04_sensor_supervision.md R98, 04_sensor_supervision.md R113) -/
def Obligations.MonitorEpisodes : Prop :=
  ∀ (s : State) (ch : Fin 48), LinesFollow s → s.counting = true →
    (∀ (onset : Nat) (c : MonClass), (s.chan ch.val).mon = none → excMode s (ch.val / 2) ≠ mOff →
      let u := s.indicate.updChan ch.val (fun x => { x with mon := some (onset, monReason c), monFaulted := false })
      exec (.monitorFlag ch onset c) s = .next (settled s (tagsAgain
        (if s.flag F.SUP_CHn_FAULT_CLR_ARMED ch.val then (u.set F.SUP_CHn_FAULT_CLR_ARMED ch.val 0).set F.SUP_STATUS_CLEAR_LAPSE 0 1 else u) ch.val onset)))
    ∧ (∀ (onset : Nat) (c : MonClass), (s.chan ch.val).mon.isSome = true ∨ excMode s (ch.val / 2) = mOff → Answers (.monitorFlag ch onset c) s s)
    ∧ (∀ (t r last : Nat), (s.chan ch.val).mon = some (t, r) →
      let v := tagsTo s ch.val (last / 1250 + 1) s.now
      let u := v.updChan ch.val (fun x => { x with mon := none, inval := (t, last, r) :: x.inval })
      DriveSteady v →
      ((v.chan ch.val).monFaulted = true → Answers (.monitorEpisodeEnd ch last) s u)
      ∧ ((v.chan ch.val).monFaulted = false → ∃ t', exec (.monitorEpisodeEnd ch last) s = .next t' ∧ t'.chans = u.chans
        ∧ t'.get F.SUP_CHn_FAULT_FLAG_CNT ch.val = satInc 8 (v.get F.SUP_CHn_FAULT_FLAG_CNT ch.val)
        ∧ ∀ k, quietKey k = true → k ≠ F.SUP_CHn_FAULT_FLAG_CNT.key ch.val → storeGet 0 t'.regs k = storeGet 0 v.regs k))
    ∧ ((s.chan ch.val).mon = none → ∀ last, Answers (.monitorEpisodeEnd ch last) s s)
    ∧ Answers (.glitch ch) s (s.counted F.SUP_CHn_FAULT_GLITCH_CNT ch.val)

/-- Results of tone visits: SKIPPED and DISCARDED with the check of AGE, PASS, PASS_RESTRICTED and FAIL. While counting runs,
the visit of the running cycle's slot, not yet evaluated: on a point in DC_SUPPLY mode or OFF, or BLIND in the window, it is
SKIPPED and AGE steps, with the check of R106; with an INVALID or CLAMP sample in the window it is DISCARDED likewise; on a
channel of a point not BLIND, not FAULTY, off and without a spoilt window, with nothing that tags a sample, no armed CLEAR
and no capture, an impedance within every limit of R103 is a PASS that records magnitude and phase and clears AGE and STALE.
Where AGE passes a limit other than 0 at a SKIPPED or DISCARDED visit of a channel that is not STALE, STALE and STALE_ANY
are set. In every other window magnitude and phase are recorded; a row of R103 that applies, of which rows 4 and 5 are left
out while the channel was on and during a capture (R115), gives FAIL, clears AGE and STALE, ends an armed CLEAR and makes
the channel FAULTY with the reason of the row, and the other channel too of a CROSS; where none applies the result is
PASS_RESTRICTED for a channel that was on, which steps AGE, and PASS otherwise, which an armed CLEAR counts, and no channel
becomes FAULTY. The instant moves to tick 54,600 of the cycle, before which the tags of the samples that end by then are
fixed. That the verdict stands at that tick is a reading (log entry 3), SKIPPED in mode OFF and the steps of AGE too (log
entry 27, with R107), and what fixes a tag is the model's choice (log entry 78). (04_sensor_supervision.md R101,
04_sensor_supervision.md R103, 04_sensor_supervision.md R104, 04_sensor_supervision.md R105, 04_sensor_supervision.md R106,
04_sensor_supervision.md R107, 04_sensor_supervision.md R113, 04_sensor_supervision.md R115) -/
def Obligations.ToneVisits : Prop :=
  ∀ (s : State) (ch : Fin 48) (mag ph : BitVec 16) (limit : Bool) (cross : Option (Fin 48 × BitVec 16)) (m : Nat), LinesFollow s → s.counting = true →
    s.cycle % 50 = ch.val → s.tone.visited ≠ s.cycle + 1 → m = max s.now (min (s.cycleStart + 54600) (s.nextBoundary - 1)) →
    let v := (tagsPass s (s.cycleStart + 54600)).advanceTo (s.cycleStart + 54600)
    let at_ := v.putTone { v.tone with visited := v.cycle + 1 }
    let carrier := excMode v (ch.val / 2) = mMatched ∨ excMode v (ch.val / 2) = mAlternating
    (calm s = true → v = s.putNow m)
    ∧ (v.flag F.SUP_CHn_FAULT_CLR_ARMED ch.val = false → v.flag F.SUP_CHn_VISIT_STALE ch.val = true → DriveSteady v →
      (excMode v (ch.val / 2) = mDc ∨ excMode v (ch.val / 2) = mOff ∨ carrier ∧ windowBlind v ch.val = true →
        Answers (.toneVisitVerdict ch mag ph limit cross) s ((at_.set F.SUP_CHn_VISIT_RESULT ch.val vSkipped).counted F.SUP_CHn_VISIT_AGE ch.val))
      ∧ (carrier → windowBlind v ch.val = false → windowBad v ch.val = true →
        Answers (.toneVisitVerdict ch mag ph limit cross) s ((at_.set F.SUP_CHn_VISIT_RESULT ch.val vDiscarded).counted F.SUP_CHn_VISIT_AGE ch.val)))
    ∧ (∀ r : Nat, excMode v (ch.val / 2) = mDc ∨ excMode v (ch.val / 2) = mOff ∨ carrier ∧ (windowBlind v ch.val = true ∨ windowBad v ch.val = true) →
      r = (if carrier ∧ windowBlind v ch.val = false then vDiscarded else vSkipped) →
      let age := satInc F.SUP_CHn_VISIT_AGE.width (v.get F.SUP_CHn_VISIT_AGE ch.val)
      let lim := s.get F.SUP_TONE_CFG_AGE_LIM * 1200
      ∃ u, exec (.toneVisitVerdict ch mag ph limit cross) s = .next (settled s u)
        ∧ u.get F.SUP_CHn_VISIT_RESULT ch.val = r ∧ u.get F.SUP_CHn_VISIT_AGE ch.val = age ∧ u.get F.SUP_CHn_FAULT_CLR_ARMED ch.val = 0
        ∧ (lim ≠ 0 → lim < age → u.get F.SUP_CHn_VISIT_STALE ch.val = 1)
        ∧ (lim ≠ 0 → lim < age → v.flag F.SUP_CHn_VISIT_STALE ch.val = false → u.get F.SUP_STATUS_STALE_ANY = 1)
        ∧ (lim = 0 ∨ age ≤ lim → u.get F.SUP_CHn_VISIT_STALE ch.val = v.get F.SUP_CHn_VISIT_STALE ch.val)
        ∧ ∀ c, (u.chan c).faulty = (v.chan c).faulty)
    ∧ (carrier → windowBlind v ch.val = false → windowBad v ch.val = false → v.chans.length = 48 →
      let w := (at_.set F.SUP_CHn_IMP_MAG ch.val mag.toNat).set F.SUP_CHn_IMP_PHASE ch.val ph.toNat
      let busy := (v.chan ch.val).winOn || (v.chan ch.val).on
      let armed := v.flag F.SUP_CHn_FAULT_CLR_ARMED ch.val
      ∃ u, exec (.toneVisitVerdict ch mag ph limit cross) s = .next (settled s u)
        ∧ u.get F.SUP_CHn_IMP_MAG ch.val = mag.toNat ∧ u.get F.SUP_CHn_IMP_PHASE ch.val = ph.toNat
        ∧ (match toneVerdict w ch.val mag.toNat ph.toNat limit cross (!busy && (v.chan ch.val).zCap.isNone) with
          | none => u.get F.SUP_CHn_VISIT_RESULT ch.val = (if busy then vRestricted else vPass)
            ∧ u.get F.SUP_CHn_VISIT_AGE ch.val = (if busy then satInc F.SUP_CHn_VISIT_AGE.width (v.get F.SUP_CHn_VISIT_AGE ch.val) else 0)
            ∧ (busy = false → u.get F.SUP_CHn_VISIT_STALE ch.val = 0 ∧ u.get F.SUP_CHn_FAULT_CLR_ARMED ch.val = v.get F.SUP_CHn_FAULT_CLR_ARMED ch.val
              ∧ u.get F.SUP_CHn_FAULT_PASS_CNT ch.val = (if armed then min 4 (v.get F.SUP_CHn_FAULT_PASS_CNT ch.val + 1) else v.get F.SUP_CHn_FAULT_PASS_CNT ch.val))
            ∧ (busy = true → u.get F.SUP_CHn_FAULT_CLR_ARMED ch.val = 0) ∧ ∀ c, (u.chan c).faulty = (v.chan c).faulty
          | some r => u.get F.SUP_CHn_VISIT_RESULT ch.val = vFail ∧ u.get F.SUP_CHn_VISIT_AGE ch.val = 0 ∧ u.get F.SUP_CHn_VISIT_STALE ch.val = 0
            ∧ u.get F.SUP_CHn_FAULT_CLR_ARMED ch.val = 0 ∧ (u.chan ch.val).faulty = true
            ∧ ((v.chan ch.val).faulty = false → u.get F.SUP_CHn_FAULT_REASON ch.val = r)
            ∧ ∀ x, cross = some x → r = 11 → (u.chan x.1.val).faulty = true))
    ∧ (excMode s (ch.val / 2) = mMatched ∨ excMode s (ch.val / 2) = mAlternating → (s.point (ch.val / 2)).blind = false →
      (s.point (ch.val / 2)).blindEnd ≤ s.cycleStart + 6000 → (s.chan ch.val).winBad = false → (s.chan ch.val).winOn = false → (s.chan ch.val).on = false →
      (s.chan ch.val).faulty = false → (s.chan ch.val).zCap = none → calm s = true → s.flag F.SUP_CHn_FAULT_CLR_ARMED ch.val = false →
      toneVerdict s ch.val mag.toNat ph.toNat limit cross true = none →
      ∃ t, exec (.toneVisitVerdict ch mag ph limit cross) s = .next t ∧ t.now = m
        ∧ t.get F.SUP_CHn_VISIT_RESULT ch.val = vPass ∧ t.get F.SUP_CHn_VISIT_AGE ch.val = 0 ∧ t.get F.SUP_CHn_VISIT_STALE ch.val = 0
        ∧ t.get F.SUP_CHn_IMP_MAG ch.val = mag.toNat ∧ t.get F.SUP_CHn_IMP_PHASE ch.val = ph.toNat
        ∧ t.boot.swept = ch.val :: s.boot.swept
        ∧ ∀ c, c < 48 → c ≠ ch.val → t.get F.SUP_CHn_VISIT_RESULT c = s.get F.SUP_CHn_VISIT_RESULT c ∧ t.get F.SUP_CHn_VISIT_AGE c = s.get F.SUP_CHn_VISIT_AGE c)

/-- The self-check of the tone path in slots 48 and 49. While counting runs: in slot 48 a reference load measured within 2 %
(1,960 to 2,040 in units of 0.5 ohm) and one degree sets PASS48 with its magnitude; in slot 49 a residual below 0.1 % of the
slot-48 voltage sets PASS49, and any other clears PASS49 and sets TONE_ERR, with a journal entry. That the check stands at
tick 54,600 is a reading (log entry 3). (04_sensor_supervision.md R109) -/
def Obligations.ToneSelfCheckVerdict : Prop :=
  ∀ (s : State) (mag ph residual : BitVec 16) (m : Nat), LinesFollow s → s.counting = true → s.tone.visited ≠ s.cycle + 1 →
    m = max s.now (min (s.cycleStart + 54600) (s.nextBoundary - 1)) →
    (s.cycle % 50 = 48 → 1960 ≤ mag.toNat → mag.toNat ≤ 2040 → 360 * (toSigned 16 ph.toNat).natAbs ≤ 65536 →
      AnswersTimed (.toneSelfCheck mag ph residual) (toneSelf · mag.toNat ph.toNat residual.toNat) s
        ((((((s.putNow m).putTone { s.tone with visited := s.cycle + 1 }).set F.SUP_SELF_MAG 0 mag.toNat).set F.SUP_SELF_PASS48 0 1).putBoot
          { s.boot with sweepOk48 := true }).putTone { s.tone with visited := s.cycle + 1, fails := b2n s.tone.fail48, fail48 := false }))
    ∧ (s.cycle % 50 = 49 → residual.toNat < 10 →
      AnswersTimed (.toneSelfCheck mag ph residual) (toneSelf · mag.toNat ph.toNat residual.toNat) s
        ((((s.putNow m).putTone { s.tone with visited := s.cycle + 1 }).set F.SUP_SELF_PASS49 0 1).putBoot { s.boot with sweepOk49 := true }))
    ∧ (s.cycle % 50 = 49 → 10 ≤ residual.toNat → calm s = true ∨ m = s.now →
      ∃ t, exec (.toneSelfCheck mag ph residual) s = .next t ∧ t.get F.SUP_SELF_PASS49 = 0 ∧ t.get F.SUP_STATUS_TONE_ERR = 1
        ∧ t.boot.sweepOk49 = false ∧ t.tone.fail48 = true)

/-- AGE past its limit sets STALE; CLEAR waits for the boundary; a channel leaves FAULTY after its fourth pass. While counting
runs, a channel whose AGE is above a limit other than 0 and that is not STALE becomes STALE with STALE_ANY, and nothing
happens at or below it. CLEAR of SUP_CMD is held for the boundary for each channel it names. At a boundary, an armed FAULTY
channel with four passes whose last sample carries no tag and lies below the off-threshold is no longer FAULTY and has no
reason. (04_sensor_supervision.md R106, 04_sensor_supervision.md R113) -/
def Obligations.SupervisionAgeAndClear : Prop :=
  ∀ (s : State) (ch : Fin 48), LinesFollow s →
    (s.counting = true → s.get F.SUP_TONE_CFG_AGE_LIM ≠ 0 → s.get F.SUP_TONE_CFG_AGE_LIM * 1200 < s.get F.SUP_CHn_VISIT_AGE ch.val →
      s.flag F.SUP_CHn_VISIT_STALE ch.val = false →
      ∃ t, exec (.channelStale ch) s = .next t ∧ t.get F.SUP_CHn_VISIT_STALE ch.val = 1 ∧ t.get F.SUP_STATUS_STALE_ANY = 1)
    ∧ (s.counting = true → s.get F.SUP_CHn_VISIT_AGE ch.val ≤ s.get F.SUP_TONE_CFG_AGE_LIM * 1200 → Answers (.channelStale ch) s s)
    ∧ (∀ (p : HPort) (c : BitVec 6) (all : Bool), s.portsUp = true →
      Answers (.supClear p c all) s (s.putReqs { s.reqs with supClear := s.reqs.supClear ++
        (if all then List.range 48 else if c.toNat < 48 then [c.toNat] else []) }))
    ∧ (s.counting = true → atBoundary s = true → s.chans.length = 48 → (s.chan ch.val).faulty = true → s.flag F.SUP_CHn_FAULT_CLR_ARMED ch.val = true →
      s.get F.SUP_CHn_FAULT_PASS_CNT ch.val = 4 → (s.chan ch.val).lastTag = 0 → (s.chan ch.val).lastL < offThr s ch.val →
      ∃ t, exec (.faultyRelease ch) s = .next t ∧ (t.chan ch.val).faulty = false ∧ t.get F.SUP_CHn_FAULT_REASON ch.val = 0
        ∧ t.get F.SUP_CHn_FAULT_CLR_ARMED ch.val = 0 ∧ t.get F.SUP_CHn_FAULT_PASS_CNT ch.val = 0
        ∧ (t.chan ch.val).on = false ∧ (t.point (ch.val / 2)).quietSince = s.now
        ∧ (∀ c, c < 48 → c / 2 ≠ ch.val / 2 → t.chan c = s.chan c) ∧ ∀ c, c < 48 → c ≠ ch.val → (t.chan c).faulty = (s.chan c).faulty ∧ (t.chan c).on = (s.chan c).on)

/-- CAPTURE of a reference impedance runs in COMMISSIONING, completes after eight visits or fails after 16 rotations. While the
ports answer, CAPTURE starts on each channel it names in COMMISSIONING and is an access error STATE elsewhere; eight
qualifying visits write the magnitude and phase of the mean impedance; a capture not complete 16 rotations after its command
ends with ZREF_ERR. The phase of a vector and the rounding are open (log entries 11 and 12). (04_sensor_supervision.md R115) -/
def Obligations.ImpedanceReferences : Prop :=
  ∀ s : State, LinesFollow s →
    (∀ (p : HPort) (ch : BitVec 6) (all : Bool), s.portsUp = true →
      (s.dev ≠ .comm → Answers (.zrefCapture p ch all) s (s.accErr p 0x30008 true .state_))
      ∧ (s.dev = .comm → Answers (.zrefCapture p ch all) s (forEach (if all then List.range 48 else if ch.toNat < 48 then [ch.toNat] else []) s
        (fun u c => syncZrefBusy (u.updChan c (fun x => { x with zCap := some (u.cycle, 0, 0, 0) }))))))
    ∧ (∀ (ch : Fin 48) (k0 : Nat) (re im : Int), (s.chan ch.val).zCap = some (k0, 8, re, im) →
      let mag := ratRoot (((re * re + im * im : Int) : Rat) / ((8 * 2 ^ 62 * (8 * 2 ^ 62) : Nat) : Rat))
      Answers (.zrefCaptureDone ch) s (syncZrefBusy (((s.set F.SUP_CHn_ZREF_MAG ch.val (fitU 16 (mag : Nat))).set F.SUP_CHn_ZREF_PHASE ch.val
        (Config.phaseOf re im % 65536)).updChan ch.val (fun x => { x with zCap := none }))))
    ∧ (∀ (ch : Fin 48) (k0 n : Nat) (re im : Int), (s.chan ch.val).zCap = some (k0, n, re, im) → n ≠ 8 → k0 + 800 ≤ s.cycle →
      Answers (.zrefErr ch) s ((syncZrefBusy (s.updChan ch.val (fun x => { x with zCap := none }))).set F.SUP_STATUS_ZREF_ERR 0 1))

/-- A hold that expires produces its passage; a link window that expires leaves the point empty; a parked channel gives one
record. While counting runs: a hold whose end falls in the running cycle, once every sample that ends by then has been
evaluated, produces the PASSAGE of its direction at that tick and leaves the sequencer IDLE with no entry, and waits for
them before; a link window that ends in the running cycle, once every sample that ends by then has been evaluated and no
sample to come can show an onset before its end, leaves IDLE with no entry and counts nothing, and waits for them before;
the PARKED record of a channel that has newly met the condition is produced once, stamped with the last tick of the window
that met it. (05_wheel_events.md R126, 05_wheel_events.md R127, 05_wheel_events.md R129, 05_wheel_events.md R131) -/
def Obligations.HoldsAndLinkWindows : Prop :=
  ∀ (s : State) (sp : Fin 24), LinesFollow s → s.counting = true →
    (∀ neg : Bool, (s.point sp.val).seq = (if neg then Seq.holdN else Seq.holdP) → (s.point sp.val).holdEnd < s.nextBoundary →
      (evaluatedTo s sp.val (s.point sp.val).holdEnd = false → Answers (.holdExpiry sp) s s)
      ∧ (evaluatedTo s sp.val (s.point sp.val).holdEnd = true → AnswersTimed (.holdExpiry sp) (holdExpire · sp.val) s
        ((passage (s.putNow (max s.now (s.point sp.val).holdEnd)) sp.val neg).updPoint sp.val (fun x => { x with seq := .idle, entry := .none }))))
    ∧ ((s.point sp.val).seq = .aLeft ∨ (s.point sp.val).seq = .bLeft → (s.point sp.val).linkEnd < s.nextBoundary →
      (evaluatedTo s sp.val (s.point sp.val).linkEnd = false ∨ onsetsSeen s sp.val (s.point sp.val).linkEnd = false → Answers (.linkWindowExpiry sp) s s)
      ∧ (evaluatedTo s sp.val (s.point sp.val).linkEnd = true → onsetsSeen s sp.val (s.point sp.val).linkEnd = true → AnswersTimed (.linkWindowExpiry sp) (linkExpire · sp.val) s
        ((s.putNow (max s.now (s.point sp.val).linkEnd)).updPoint sp.val (fun x => { x with seq := .idle, entry := .none }))))
    ∧ (∀ ch : Fin 48, (s.chan ch.val).met = true → (s.chan ch.val).parkRec = false → 2 ≤ chState s ch.val → chState s ch.val ≤ 4 →
      exec (.parked ch) s = .next (settled s (rec0 ((s.updChan ch.val (fun x => { x with parkRec := true })).updPoint (ch.val / 2)
        (fun x => { x with parkedIn := true })) (ch.val / 2) .parked (ch.val % 2 == 1) (1250 * ((s.chan ch.val).metAt + 1) - 1))))
    ∧ ∀ ch : Fin 48, (s.chan ch.val).met = false ∨ (s.chan ch.val).parkRec = true → Answers (.parked ch) s s

/-- A section's count stays within 0 to 4,095 and disturbs its section at either limit. For a used section with a count of at
most 4,095 and the passages that reach its tile in one fabric clock: a sum within 0 to 4,095 becomes the count; below 0 the
count is 0, above 4,095 it is 4,095, LIMIT_CNT steps, and the section is DISTURBED, with cause UNDERFLOW or OVERFLOW unless
it already was: then CAUSE and CAUSE_CP stay, MULTI is set and one journal entry is written. From SWEEP_PENDING a new
episode begins with that cause and MULTI clear. (R162) -/
def Obligations.SectionCountLimits : Prop :=
  ∀ (s : State) (n : Nat) (moves : List (Nat × Bool)), n < 48 → secUsed s n = true → s.get F.SECT_n_CNT_COUNT n ≤ 4095 →
    let ins := (moves.filter (fun m => m.2)).length
    let outs := (moves.filter (fun m => !m.2)).length
    let c0 := s.get F.SECT_n_CNT_COUNT n
    let t := (moveSec s n moves).1
    let disturbed := fun (cause : Nat) =>
      t.get F.SECT_n_CNT_LIMIT_CNT n = satInc F.SECT_n_CNT_LIMIT_CNT.width (s.get F.SECT_n_CNT_LIMIT_CNT n) ∧ t.get F.SECT_n_STATE_STATE n = 2
        ∧ t.get F.JRN_HEAD_HEAD = (s.get F.JRN_HEAD_HEAD + 1) % 2 ^ 32
        ∧ (s.get F.SECT_n_STATE_STATE n ≠ 2 → t.get F.SECT_n_STATE_CAUSE n = cause ∧ t.get F.SECT_n_STATE_MULTI n = 0)
        ∧ (s.get F.SECT_n_STATE_STATE n = 2 → t.get F.SECT_n_STATE_CAUSE n = s.get F.SECT_n_STATE_CAUSE n
          ∧ t.get F.SECT_n_STATE_CAUSE_CP n = s.get F.SECT_n_STATE_CAUSE_CP n ∧ t.get F.SECT_n_STATE_MULTI n = 1)
    (outs ≤ c0 + ins → c0 + ins - outs ≤ 4095 → t.get F.SECT_n_CNT_COUNT n = c0 + ins - outs ∧ t.get F.SECT_n_CNT_LIMIT_CNT n = s.get F.SECT_n_CNT_LIMIT_CNT n)
    ∧ (c0 + ins < outs → t.get F.SECT_n_CNT_COUNT n = 0 ∧ disturbed 5)
    ∧ (outs + 4095 < c0 + ins → t.get F.SECT_n_CNT_COUNT n = 4095 ∧ disturbed 6)

/-- SUPERVISED, DIRECT and DISTURB wait for the boundary and are evaluated there; WITHDRAW removes the port's DIRECT entry.
While the ports answer: SUPERVISED and DISTURB replace the port's waiting command and read WAITING; DIRECT of a section
below 48 with a token other than 0, while the other port holds no entry, is held with its tick and reads WAITING, and of
another section or with token 0 it is rejected with SECTION or TOKEN; WITHDRAW removes the port's entry and reads DONE, and
without one it is rejected with STATE; DIRECT and WITHDRAW also replace a waiting command (log entry 35). At the boundary
(restoreEval, directPair) the command, or a pair of DIRECT entries for one section, both written before the boundary, is
taken out. With the same token, or for SUPERVISED, it is rejected with the reason of its first failing row, and no section
changes; otherwise SUPERVISED gives SWEEP_PENDING with count and SWEEP_AXLES 0 and DIRECT gives CLEAR with count 0, and both
are carried to the partner and read DONE. Different tokens are rejected with TOKEN at both ports. DISTURB is rejected for a
section not in use, makes any other DISTURBED with cause HOST in the unit that may restore, is carried by a following
standby, and is rejected with DEVICE elsewhere. That the condition of the device comes first, for DISTURB after the section,
is the model's choice (log entry 94). (07_section_states.md R169, 07_section_states.md R170, 07_section_states.md R171,
07_section_states.md R172, 07_section_states.md R174, 07_section_states.md R180) -/
def Obligations.RestoreCommandsHeld : Prop :=
  ∀ (s : State) (p : HPort) (sec : BitVec 6), LinesFollow s → s.portsUp = true →
    Answers (.supervised p sec) s (setRes (putCmd s p.toNat (some ⟨1, sec.toNat, s.now⟩)) p.toNat sec.toNat 1 2 .none)
    ∧ Answers (.disturb p sec) s (setRes (putCmd s p.toNat (some ⟨3, sec.toNat, s.now⟩)) p.toNat sec.toNat 3 2 .none)
    ∧ (∀ tok : BitVec 16, sec.toNat < 48 → tok ≠ 0 → s.restDirect p.other.toNat = none →
      Answers (.direct p sec tok) s
        (setRes (putCmd (putDirect s p.toNat (some ⟨sec.toNat, tok.toNat, s.now⟩)) p.toNat none) p.toNat sec.toNat 2 2 .none))
    ∧ (∀ tok : BitVec 16, 48 ≤ sec.toNat → Answers (.direct p sec tok) s (rejectRes s p.toNat sec.toNat 2 .section_))
    ∧ (sec.toNat < 48 → Answers (.direct p sec 0) s (rejectRes s p.toNat sec.toNat 2 .token))
    ∧ (∀ d, s.restDirect p.toNat = some d → Answers (.directWithdraw p) s (setRes (putDirect (putCmd s p.toNat none) p.toNat none) p.toNat d.sec 4 1 .none))
    ∧ (s.restDirect p.toNat = none → Answers (.directWithdraw p) s (rejectRes (putCmd s p.toNat none) p.toNat 0 4 .state_))
    ∧ (let rows := fun (n : Nat) (direct : Bool) =>
        if restoreDevice s = false then 6
        else if 48 ≤ n ∨ secUsed s n = false then 1
        else if snapAt s n 0 ≠ 2 ∧ ¬(direct = true ∧ snapAt s n 0 = 3) then 2
        else if direct = true ∧ s.flag F.SECT_n_CFG_DIRECT_EN n = false then 3
        else if pointsAll s n (fun st => st == 0 || st == 2) = false then 4
        else if direct = true ∧ s.flag F.SECT_n_STATE_LULL n = false then 5
        else if (s.sec n).touched = true then 7
        else 0
      let shows := fun (u : State) (q n op result reason : Nat) =>
        u.get (F.SECT_RESTORE_RES_SEC.port q) = n ∧ u.get (F.SECT_RESTORE_RES_OP.port q) = op ∧ u.get (F.SECT_RESTORE_RES_RESULT.port q) = result
          ∧ u.get (F.SECT_RESTORE_RES_REASON.port q) = reason ∧ (result = 3 → u.get F.SECT_STATUS_REJECT = 1)
      let same := fun (u : State) (n : Nat) => u.get F.SECT_n_STATE_STATE n = s.get F.SECT_n_STATE_STATE n ∧ u.get F.SECT_n_CNT_COUNT n = s.get F.SECT_n_CNT_COUNT n
      (∀ c, s.restCmd p.toNat = some c → c.sec < 64 → c.op < 8 →
        let u := restoreEval s p.toNat
        let r := rows c.sec false
        u.restCmd p.toNat = none
        ∧ (c.op = 1 → r ≠ 0 → shows u p.toNat c.sec 1 3 r ∧ ∀ k, k < 48 → same u k)
        ∧ (c.op = 1 → r = 0 → shows u p.toNat c.sec 1 1 0 ∧ u.get F.SECT_n_STATE_STATE c.sec = 3 ∧ u.get F.SECT_n_CNT_COUNT c.sec = 0
          ∧ u.get F.SECT_n_CNT_SWEEP_AXLES c.sec = 0 ∧ u.get F.LEDG_SECn_EVID c.sec = 0 ∧ ⟨1, c.sec⟩ ∈ u.link.restores ∧ ∀ k, k < 48 → k ≠ c.sec → same u k)
        ∧ (c.op ≠ 1 →
          (48 ≤ c.sec ∨ secUsed s c.sec = false → shows u p.toNat c.sec c.op 3 1 ∧ ∀ k, k < 48 → same u k)
          ∧ (c.sec < 48 → secUsed s c.sec = true →
            (restoreDevice s = true → shows u p.toNat c.sec c.op 1 0 ∧ ⟨3, c.sec⟩ ∈ u.link.restores
              ∧ (clockNow s = [] → u.get F.SECT_n_STATE_STATE c.sec = 2 ∧ (s.get F.SECT_n_STATE_STATE c.sec ≠ 2 →
                u.get F.SECT_n_STATE_CAUSE c.sec = 10 ∧ u.get F.SECT_n_STATE_CAUSE_CP c.sec = 63)))
            ∧ (restoreDevice s = false → s.role = .standby → follows s = true →
              u.restCarried p.toNat = (if s.restores.carried.length ≤ p.toNat then s.restCarried p.toNat else some c) ∧ c.sec ∈ u.link.disturbs ∧ ∀ k, k < 48 → same u k)
            ∧ (restoreDevice s = false → s.role ≠ .standby ∨ follows s = false → shows u p.toNat c.sec c.op 3 6 ∧ ∀ k, k < 48 → same u k))))
      ∧ ∀ a b, s.restDirect 0 = some a → s.restDirect 1 = some b → a.sec = b.sec → a.sec < 64 → a.tick < s.cycleStart → b.tick < s.cycleStart →
        let u := directPair s
        let r := rows a.sec true
        u.restDirect 0 = none ∧ u.restDirect 1 = none
        ∧ (a.token ≠ b.token → (∀ q, q < 2 → shows u q a.sec 2 3 8) ∧ ∀ k, k < 48 → same u k)
        ∧ (a.token = b.token → r ≠ 0 → (∀ q, q < 2 → shows u q a.sec 2 3 r) ∧ ∀ k, k < 48 → same u k)
        ∧ (a.token = b.token → r = 0 → (∀ q, q < 2 → shows u q a.sec 2 1 0) ∧ u.get F.SECT_n_STATE_STATE a.sec = 0 ∧ u.get F.SECT_n_CNT_COUNT a.sec = 0
          ∧ u.get F.SECT_n_STATE_CAUSE a.sec = 0 ∧ u.get F.SECT_n_STATE_CAUSE_CP a.sec = 63 ∧ u.get F.SECT_n_STATE_MULTI a.sec = 0
          ∧ u.get F.SECT_STATUS_RESTORED = 1 ∧ ⟨2, a.sec⟩ ∈ u.link.restores ∧ ∀ k, k < 48 → k ≠ a.sec → same u k))

/-- Expiry of DIRECT and carried DISTURB commands, the identity-proven restore and the completion of a sweep. DIRECT_EXPIRED,
IDENTITY_RESTORE and STANDBY_DISTURB_REJECT answer a next state while the cores run. At a boundary, a DIRECT entry that the
pairing of the two ports' entries, both written before the boundary, leaves and that is older than 5 s is discarded as
EXPIRED and a younger one stays, and between boundaries nothing happens; a carried DISTURB of at least 4 cycles is rejected
with DEVICE unless an image that names it has arrived. At a boundary while counting runs, a section that shows the evidence
of R171 at this boundary and the one before, with the partner in agreement, in a device that may restore, untouched since
the snapshot, becomes CLEAR with count 0 and no cause, and RESTORED is set. The passages of one fabric clock in a
SWEEP_PENDING section, with a sum within the limits: SWEEP_AXLES counts the inward ones since the count was last 0; the
count's return to 0 with at least SWEEP_MIN of them makes the section CLEAR with RESTORED, with fewer sets SWEEP_AXLES to 0
and leaves it SWEEP_PENDING; a clock that starts and ends with count 0 completes nothing. (07_section_states.md R171,
07_section_states.md R173, 07_section_states.md R174, 07_section_states.md R176, 07_section_states.md R180) -/
def Obligations.RestoreDeadlinesAndIdentity : Prop :=
  (∀ s : State, LinesFollow s → coresRun s = true →
    (∀ p : HPort, atBoundary s = false → ∃ t, exec (.directExpired p) s = .next t ∧ Result s s t)
    ∧ (∀ p : HPort, atBoundary s = true →
      let v := directPair s
      (s.restDirect p.other.toNat = none ∨ s.restDirect p.toNat = none → v = s)
      ∧ (∀ a b, s.restDirect p.toNat = some a → s.restDirect p.other.toNat = some b → s.cycleStart ≤ a.tick ∨ s.cycleStart ≤ b.tick → v = s)
      ∧ (v.restDirect p.toNat = none → ∃ t, exec (.directExpired p) s = .next t ∧ t = settled s v)
      ∧ ∀ d, v.restDirect p.toNat = some d →
        (d.tick + 300000000 < s.now → ∃ t, exec (.directExpired p) s = .next t ∧ t.restDirect p.toNat = none
          ∧ t.get (F.SECT_RESTORE_RES_RESULT.port p.toNat) = 3 ∧ t.get (F.SECT_RESTORE_RES_REASON.port p.toNat) = 9
          ∧ t = settled s (rejectRes (putDirect v p.toNat none) p.toNat d.sec 2 .expired))
        ∧ (s.now ≤ d.tick + 300000000 → ∃ t, exec (.directExpired p) s = .next t ∧ t = settled s v))
    ∧ (∀ p : HPort, s.restCarried p.toNat = none → ∃ t, exec (.standbyDisturbReject p) s = .next t ∧ Result s s t)
    ∧ (∀ (p : HPort) c, s.restCarried p.toNat = some c →
      let arrived := ∃ i, s.link.image = some i ∧ ∃ r, r ∈ i.restores ∧ r.op = 3 ∧ r.sec = c.sec
      (c.tick + 240000 ≤ s.now → ¬arrived → ∃ t, exec (.standbyDisturbReject p) s = .next t
        ∧ Result s (rejectRes (putCarried s p.toNat none) p.toNat c.sec c.op .device) t)
      ∧ (s.now < c.tick + 240000 ∨ arrived → ∃ t, exec (.standbyDisturbReject p) s = .next t ∧ Result s s t))
    ∧ ∀ n : Fin 48, s.counting = true → atBoundary s = true → (s.sec n.val).idAt = s.cycle → s.cycle ≠ 0 → (s.sec n.val).idPrev = true → idLocal s n.val = true →
      partnerAgrees s n.val = true → restoreDevice s = true → (s.sec n.val).touched = false →
      ∃ t, exec (.identityRestore n) s = .next t ∧ t.get F.SECT_n_STATE_STATE n.val = 0 ∧ t.get F.SECT_n_CNT_COUNT n.val = 0
        ∧ t.get F.SECT_n_STATE_CAUSE n.val = 0 ∧ t.get F.SECT_n_STATE_CAUSE_CP n.val = 63 ∧ t.get F.SECT_n_STATE_SINGLE n.val = 0 ∧ t.get F.SECT_STATUS_RESTORED = 1
        ∧ ∀ k, k < 48 → k ≠ n.val → t.get F.SECT_n_STATE_STATE k = s.get F.SECT_n_STATE_STATE k ∧ t.get F.SECT_n_CNT_COUNT k = s.get F.SECT_n_CNT_COUNT k)
  ∧ ∀ (s : State) (n : Nat) (moves : List (Nat × Bool)), n < 48 → s.get F.SECT_n_STATE_STATE n = 3 →
    let ins := (moves.filter (fun m => m.2)).length
    let outs := (moves.filter (fun m => !m.2)).length
    let c0 := s.get F.SECT_n_CNT_COUNT n
    let axles := min 255 ((if c0 = 0 then 0 else s.get F.SECT_n_CNT_SWEEP_AXLES n) + ins)
    let t := (moveSec s n moves).1
    outs ≤ c0 + ins → c0 + ins - outs ≤ 4095 →
      t.get F.SECT_n_CNT_COUNT n = c0 + ins - outs
      ∧ (c0 + ins ≠ outs → t.get F.SECT_n_STATE_STATE n = 3 ∧ t.get F.SECT_n_CNT_SWEEP_AXLES n = axles)
      ∧ (c0 + ins = outs → c0 = 0 → t.get F.SECT_n_STATE_STATE n = 3 ∧ t.get F.SECT_n_CNT_SWEEP_AXLES n = s.get F.SECT_n_CNT_SWEEP_AXLES n)
      ∧ (c0 + ins = outs → c0 ≠ 0 → axles < s.get F.SECT_n_CFG_SWEEP_MIN n → t.get F.SECT_n_STATE_STATE n = 3 ∧ t.get F.SECT_n_CNT_SWEEP_AXLES n = 0)
      ∧ (c0 + ins = outs → c0 ≠ 0 → s.get F.SECT_n_CFG_SWEEP_MIN n ≤ axles → t.get F.SECT_n_STATE_STATE n = 0 ∧ t.get F.SECT_n_STATE_CAUSE n = 0
        ∧ t.get F.SECT_n_STATE_MULTI n = 0 ∧ t.get F.SECT_STATUS_RESTORED = 1)

/-- A held speed goes STALE, and a quiet point enters Lull. At a boundary while counting runs: a point whose speed has the
status ONSET or FULL, set long enough ago to cover twice the nominal gap at that speed, becomes STALE with the flag STALE
and keeps its speed; a younger one, and a speed of 0, keeps everything (that a speed of 0 covers no distance is the model's
reading, log entry 37). While the cores run, a used point, not on its encoder row, whose channels are neither ACTIVE, BLIND
nor FAULTY (PARKED does not matter) and which has been quiet for LULL_TIME cycles, enters Lull with speed 0, status LULL and
no valid direction. (08_speed_position.md R183, 08_speed_position.md R185, 08_speed_position.md R186) -/
def Obligations.SpeedStaleAndPointLull : Prop :=
  ∀ (s : State) (sp : Fin 24), LinesFollow s → s.counting = true → atBoundary s = true →
    (let v := s.getS40 F.SPOS_SPn_SPEED_L_SPEED sp.val
      let due := 2 * (s.get F.SPOS_SPn_CFG_GAP_NOM sp.val * 100000) * 60000000
      spdSt s sp.val = sstOnset ∨ spdSt s sp.val = sstFull →
      (v ≠ 0 → due ≤ (s.now - (s.point sp.val).spdTick) * v.natAbs →
        Answers (.speedStale sp) s ((s.set F.SPOS_SPn_SST_SPD_ST sp.val sstStale).set F.SPOS_STATUS_STALE 0 1))
      ∧ (v = 0 ∨ (s.now - (s.point sp.val).spdTick) * v.natAbs < due → Answers (.speedStale sp) s s))
    ∧ (coresRun s = true → s.points.length = 24 → pointUnquiet s sp.val = false → (s.point sp.val).lull = false →
      (s.point sp.val).quietSince + s.get F.SPOS_CFG_LULL_TIME * cycleTicks ≤ s.now → pointUsed s sp.val = true → encRow s sp.val = false →
      ∃ t, exec (.pointLullEntry sp) s = .next t ∧ (t.point sp.val).lull = true ∧ t.get F.SPOS_SPn_SST_SPD_ST sp.val = sstLull
        ∧ t.getS40 F.SPOS_SPn_SPEED_L_SPEED sp.val = 0 ∧ t.get F.SPOS_SPn_SST_DIR_VALID sp.val = 0
        ∧ ∀ q, q < 24 → q ≠ sp.val → t.point q = s.point q ∧ spdSt t q = spdSt s q)

/-- Encoder frames: a faulty one is counted and discarded, a valid one gives the position. While counting runs, on an attached
port, after the polls since the last one that brought no frame are recorded: a frame before which DAT was not high is
counted with LAST_ERR IDLE, the position stays, and a port with fewer than 16 faulty polls and fewer misses than the
LATE_LIM of its tick keeps its state; a frame without error bit or parity fault, the first or one within MAX_STEP, is judged
with its decoded position: on a port that is not in FAULT the boundary units, virtual points, compares and speeds that rest
on it follow; on a port in FAULT it is kept for decoding only. One beyond MAX_STEP is faulty and takes the port to FAULT. A
port that is not attached takes nothing. How the silent polls are reckoned from the ticks of the frames is the model's
choice (log entry 60). (08_speed_position.md R191, 08_speed_position.md R192, 08_speed_position.md R195,
08_speed_position.md R197) -/
def Obligations.EncoderFrames : Prop :=
  ∀ (s : State) (port : Fin 4) (edge : Nat) (hi : Bool) (bits : List Bool), LinesFollow s → s.counting = true →
    let q := port.val
    let v := pollsRecord s q edge
    let t := edge + s.get F.DENC_PORTn_TIMING_LAT_COMP q
    (s.flag F.DENC_PORTn_CFG_ATTACH q = false → Answers (.encoderFrame port edge hi bits) s s)
    ∧ (silentPolls s q edge = 0 → v = s.updEnc q (fun e => { e with polls := e.polls.take 256, lastPoll := some edge }))
    ∧ (s.flag F.DENC_PORTn_CFG_ATTACH q = true → ((true :: (v.encPort q).polls).take 256 |>.filter id).length < 16 →
      (v.encPort q).missed + 1 < lateLimAt v q t → v.encs.length = 4 → DriveSteady v →
      Answers (.encoderFrame port edge false bits) s
        ((((v.updEnc q (fun e => { e with polls := (true :: e.polls).take 256 })).indicate.counted F.DENC_PORTn_STAT_ERR_CNT q).set
          F.DENC_PORTn_STAT_LAST_ERR q 1).updEnc q (fun e => { e with missed := e.missed + 1, goodRun := 0 })))
    ∧ (s.flag F.DENC_PORTn_CFG_ATTACH q = true → errBit v q bits = false → parityBad v q bits = false → v.encs.length = 4 →
      let e0 := v.encPort q
      let raw := rawOf v q bits
      let count := if e0.loaded then extend (v.get F.DENC_PORTn_FRAME_POS_WIDTH q) e0.count e0.raw raw else count40 raw
      let step := posUnder (scaleAtTick v q t) count - posUnder (scaleAtTick v q t) e0.count
      let lim : Int := maxStepAt v q t * 4
      let pos := framePos v q t count
      (e0.loaded = false ∨ step ≤ lim ∧ -lim ≤ step →
        (encState v q = encFault → DriveSteady v →
          Answers (.encoderFrame port edge true bits) s (holdsLatch (v.updEnc q (fun e =>
            { e with loaded := true, raw := raw, count := count, frames := keepFrames (latchHorizon v) ((t, pos) :: e.frames),
                     polls := (false :: e.polls).take 256, missed := 0, goodRun := e.goodRun + 1,
                     lullPos := if e0.loaded then e.lullPos else pos, extreme := if e0.loaded then e.extreme else pos })) q))
        ∧ (encState (frameValid v q t raw count) q ≠ encFault →
          exec (.encoderFrame port edge true bits) s = .next (settled s
            (spdPort (cmpFrame (forN 8 (unitsFrame (frameValid v q t raw count) q t) vcpEval) q t) q))))
      ∧ (e0.loaded = true → lim < step ∨ step < -lim →
        exec (.encoderFrame port edge true bits) s = .next (settled s (frameFaulty (v.updEnc q (fun e => { e with raw := raw, count := count })) q t 4))))

/-- Ports become LATE, enter Lull, are armed by CLEAR and leave FAULT. An attached VALID or DETACHED port without a valid frame
for LATE_LIM polls becomes LATE, while counting runs, its virtual points are evaluated, it leaves Lull, the journal shows it
so, and the speeds that rest on it are evaluated; any other port stays. At a boundary at which the cores work, a port VALID
for the whole window with every frame of it within the band of the first enters Lull without a valid direction, and with a
frame beyond the band it stays; an armed port in FAULT without a mark, whose last 256 polls (those without a frame among
them) hold no faulty frame and of which fewer than LATE_LIM were missed in a row, becomes VALID with the position, tick and
speed of its last decoded frame, and its virtual points and speeds are evaluated; one that is not armed stays. CLEAR arms
every selected port in FAULT and no other. That the event asserts the polls is the model's choice (log entry 60).
(08_speed_position.md R192, 08_speed_position.md R196, 08_speed_position.md R197) -/
def Obligations.EncoderPortStates : Prop :=
  ∀ s : State, LinesFollow s →
    (∀ port : Fin 4, s.counting = true → s.flag F.DENC_PORTn_CFG_ATTACH port.val = true → encState s port.val = encValid ∨ encState s port.val = encDetached →
      let lim := s.get F.DENC_PORTn_LIM_LATE_LIM port.val
      let u := denc1 ((s.updEnc port.val (fun e =>
        { e with missed := max e.missed lim, polls := (List.replicate (lim - e.missed) false ++ e.polls).take 256,
                 lastPoll := e.lastPoll.map (fun t => t + (lim - e.missed) * pollTicks s port.val) })).set F.DENC_PORTn_STAT_STATE port.val encLate)
          F.DENC_STATUS_LATE_NEW port.val
      let w := portLeaveLull (vcpEvalPort u port.val) port.val
      exec (.encoderLate port) s = .next (settled s (spdPort (w.note 0 0x08 (4 + port.val) port.val (portWord w port.val)) port.val)))
    ∧ (∀ port : Fin 4, s.counting = false ∨ s.flag F.DENC_PORTn_CFG_ATTACH port.val = false ∨ encState s port.val = encLate ∨ encState s port.val = encFault →
      Answers (.encoderLate port) s s)
    ∧ (∀ (port : Fin 4) (f0 : LullCell) (rest : List LullCell), s.counting = true → coresRun s = true → atBoundary s = true →
      let lt := s.get F.DENC_PORTn_LULL_LULL_TIME port.val
      let band : Int := s.get F.DENC_PORTn_LULL_LULL_BAND port.val
      (s.encPort port.val).hist.takeWhile (fun c => decide (s.cycle ≤ c.cycle + lt)) = rest ++ [f0] →
      ((∃ f, f ∈ rest ++ [f0] ∧ (f.lo < f0.first - band ∨ f0.first + band < f.hi)) → Answers (.portLullEntry port) s s)
      ∧ ((∀ f, f ∈ rest ++ [f0] → f0.first - band ≤ f.lo ∧ f.hi ≤ f0.first + band) →
      encState s port.val = encValid → s.flag F.DENC_PORTn_STAT_LULL port.val = false → (s.encPort port.val).validSince + lt * cycleTicks ≤ s.now →
      (s.encPort port.val).winFrom + lt * cycleTicks ≤ s.now →
      ∃ t, exec (.portLullEntry port) s = .next t ∧ t.get F.DENC_PORTn_STAT_LULL port.val = 1 ∧ t.get F.DENC_PORTn_STAT_DIR_VALID port.val = 0
        ∧ ∀ q, q < 4 → q ≠ port.val → t.get F.DENC_PORTn_STAT_LULL q = s.get F.DENC_PORTn_STAT_LULL q ∧ t.encPort q = s.encPort q))
    ∧ (∀ port : Fin 4, s.counting = true → atBoundary s = true → encState s port.val = encFault → s.flag F.DENC_PORTn_STAT_CLR_ARMED port.val = true →
      portMarked s port.val = false → (∀ x, x ∈ pollsBy s port.val s.now → x = false) → (s.encPort port.val).missed < s.get F.DENC_PORTn_LIM_LATE_LIM port.val →
      exec (.encoderFaultRelease port) s = .next (settled s (spdPort (vcpEvalPort (portPublish (portValid
        ((s.set F.DENC_PORTn_STAT_CLR_ARMED port.val 0).set F.DENC_PORTn_STAT_DRIFT_FAIL port.val 0) port.val) port.val) port.val) port.val)))
    ∧ (∀ port : Fin 4, s.flag F.DENC_PORTn_STAT_CLR_ARMED port.val = false → Answers (.encoderFaultRelease port) s s)
    ∧ ∀ (p : HPort) (ports : BitVec 4), s.portsUp = true →
      Answers (.portClear p ports) s (forEach (bitsSet ports.toNat 4) s (fun u q =>
        if encState u q = encFault then u.set F.DENC_PORTn_STAT_CLR_ARMED q 1 else u))

/-- REARM, DISARM, the axle query, the ledger copy and POP. While the ports answer: REARM marks the selected compares for the
boundary; DISARM disarms them at once; GO of an axle query and of a ledger copy lowers the port's DONE and is held for the
boundary; POP removes the oldest localisation verdict. Nothing else changes. That DISARM clears FIRED and a pending REARM is
the model's reading (log entry 50). (08_speed_position.md R199, 08_speed_position.md R203, 06_axle_ledger.md R143,
06_axle_ledger.md R160) -/
def Obligations.CompareAndQueryCommands : Prop :=
  ∀ (s : State) (p : HPort), LinesFollow s → s.portsUp = true →
    (∀ cmps : BitVec 16,
      Answers (.rearm p cmps) s (forEach (bitsSet cmps.toNat 16) s (fun u k => u.updCmp k (fun c => { c with rearm := true })))
      ∧ Answers (.disarm p cmps) s (forEach (bitsSet cmps.toNat 16) s (fun u k =>
        ((u.set F.DENC_CMPk_STAT_ARMED k 0).set F.DENC_CMPk_STAT_FIRED k 0).updCmp k (fun c => { c with rearm := false }))))
    ∧ Answers (.axqGo p) s ((s.set (F.SPOS_AXQ_STAT_DONE.port p.toNat) 0 0).putReqs { s.reqs with axqReq := upd s.reqs.axqReq p.toNat (fun _ => true) })
    ∧ (∀ slot : BitVec 12,
      Answers (.recReqGo p slot) s (((s.set (F.LEDG_REC_REQ_SLOT.port p.toNat) 0 slot.toNat).set (F.LEDG_REC_STAT_DONE.port p.toNat) 0 0).putReqs
        { s.reqs with recReq := upd s.reqs.recReq p.toNat (fun _ => true) }))
    ∧ Answers (.pop p) s (s.putLedger { s.ledger with verdicts := s.ledger.verdicts.drop 1 })

/-- MATCH_JOB_START, MATCH_JOB_COMPLETE, QUIET_FINAL and JOB_LATE answer a next state: jobs start in order, complete, become
final and become late. Each of the four commands answers a next state. MATCH_JOB_START: a free engine takes the oldest
queued job, with the values in force, when no running job shares a section with it, and otherwise nothing starts.
MATCH_JOB_COMPLETE: an engine's completion steps JOBS, frees the engine, and the turns are applied as far as they are done
in their order; of an idle engine it changes nothing. QUIET_FINAL: at a boundary a turn is appended for a station and
direction whose last passage is QUIET cycles old, and with no other turn waiting their open assignments become final at once
in the order of their passages; before that age, with all final or with such a turn waiting nothing happens. That results
wait for their turn is the model's choice (log entry 93). JOB_LATE: at a boundary a job queued for more than 30,000,000
ticks becomes late and its departure sections lapse, with none that old only OLDEST_AGE follows, and between boundaries
nothing happens. (06_axle_ledger.md R150, 06_axle_ledger.md R152, 06_axle_ledger.md R153, 06_axle_ledger.md R155,
06_axle_ledger.md R156, 06_axle_ledger.md R157) -/
def Obligations.MatchJobs : Prop :=
  ∀ s : State, LinesFollow s →
    (∀ (j : Job) (rest : List Job) (k : Nat), queuedJobs s = j :: rest → [0, 1].find? (fun k => (engineJob s k).isNone) = some k →
      let busy := [0, 1].filterMap (engineJob s)
      ((∀ r, r ∈ busy → ∀ n, n ∈ r.secs → n ∉ j.secs) →
        ∃ t, exec .matchJobStart s = .next t ∧ engineJob t k = some { j with stage := .running k, vals := ledgVals s }
          ∧ Result s (syncLedger (syncQueue (s.putLedger { s.ledger with
              jobs := turnTo s.ledger.jobs .queued (fun j => { j with stage := .running k, vals := ledgVals s }) }))) t)
      ∧ (∀ r n, r ∈ busy → n ∈ r.secs → n ∈ j.secs → ∃ t, exec .matchJobStart s = .next t ∧ Result s s t))
    ∧ (queuedJobs s = [] ∨ (engineJob s 0).isSome = true ∧ (engineJob s 1).isSome = true → ∃ t, exec .matchJobStart s = .next t ∧ Result s s t)
    ∧ (∀ eng : Fin 2,
      (engineJob s eng.val = none → ∃ t, exec (.matchJobComplete eng) s = .next t ∧ Result s s t)
      ∧ ((engineJob s eng.val).isSome = true → ∃ t, exec (.matchJobComplete eng) s = .next t
        ∧ t = settled s (syncTurns ((s.putLedger { s.ledger with
            jobs := turnTo s.ledger.jobs (.running eng.val) (fun j => { j with stage := .done }) }).set F.LEDG_JOBS_JOBS 0 (s.get F.LEDG_JOBS_JOBS + 1)))))
    ∧ (∀ (sp : Fin 24) (neg : Bool), s.counting = true → atBoundary s = true →
      let here := s.ledger.obs.filter (fun o => o.sp == sp.val && o.neg == neg)
      (here = [] → ∃ t, exec (.quietFinal sp neg) s = .next t ∧ Result s s t)
      ∧ ∀ (o : Obs) (rest : List Obs), here = o :: rest →
        let waits := s.ledger.jobs.any (fun j => j.stage == .quiet && j.sp == sp.val && j.neg == neg)
        (o.ts + s.get F.LEDG_COST_QUIET * cycleTicks ≤ s.now → (∃ x, x ∈ here ∧ x.final = false) → waits = false →
          exec (.quietFinal sp neg) s = .next (settled s (syncTurns (s.putLedger { s.ledger with
            jobs := s.ledger.jobs ++ [{ turnOf s .quiet with sp := sp.val, neg := neg }] })))
          ∧ (s.ledger.jobs = [] → exec (.quietFinal sp neg) s = .next (settled s (syncLedger (syncWaiting (syncQueue
            (forEach (here.filter (fun x => !x.final && x.slot.isSome)).reverse s (fun u x => finalise u (ledgVals s) x))))))))
        ∧ (s.now < o.ts + s.get F.LEDG_COST_QUIET * cycleTicks ∨ (∀ x, x ∈ here → x.final = true) ∨ waits = true → ∃ t, exec (.quietFinal sp neg) s = .next t ∧ Result s s t))
    ∧ (atBoundary s = false → ∃ t, exec .jobLate s = .next t ∧ Result s s t)
    ∧ (s.counting = true → atBoundary s = true →
      ((∀ i, i ∈ queuedJobs s → s.now ≤ i.queued + 30000000) → ∃ t, exec .jobLate s = .next t ∧ Result s (s.set F.LEDG_QAGE_OLDEST_AGE 0
        (match queuedJobs s with | j :: _ => min ((s.now - j.queued) / cycleTicks) 65535 | [] => 0)) t)
      ∧ ∀ j : Job, s.ledger.jobs = [j] → j.stage = .queued → j.late = false → j.queued + 30000000 < s.now →
        let u := lapseSecs (s.putLedger { s.ledger with jobs := [{ j with late := true }] }) j.dep
        ∃ t, exec .jobLate s = .next t ∧ t = settled s (syncLedger (u.set F.LEDG_QAGE_OLDEST_AGE 0
          (match queuedJobs u with | i :: _ => min ((s.now - i.queued) / cycleTicks) 65535 | [] => 0))))

/-- Input pairs: antivalent levels give the value, a lasting discrepancy latches the fault, CLEAR_IN waits for the boundary. On
an enabled pair without fault whose samples are up to date, a change of levels is seen by the next sample, 100 us apart:
antivalent levels give VALUE by the polarity and end a discrepancy, which steps SWITCH_CNT or RETURN_CNT and raises
DISC_NEW; non-antivalent levels raise DISAGREE and count RUN, and at DISC the fault latches with VALUE 0 and IN_FAULT_NEW. A
pair that is not enabled shows nothing. A discrepancy that lasts latches the fault at the sample that reaches DISC. What
channels and ledger turns have due before that sample is done before it (log entry 78). CLEAR_IN is held; evaluated, it
clears a fault of a pair at its safe levels and otherwise raises CLR_REJ. That PAIR_INPUT_CHANGE moves the instant to the
next sample, and DISCREPANCY_FAULT to the sample at which the run reaches DISC, is the model's choice (log entry 33).
(12_safety_io_traction.md R277, 12_safety_io_traction.md R278, 12_safety_io_traction.md R279, 12_safety_io_traction.md R281,
12_safety_io_traction.md R282) -/
def Obligations.InputPairs : Prop :=
  ∀ (s : State) (j : Fin 16), LinesFollow s → s.portsUp = true → s.sio.nextSample = s.now / 6000 + 1 →
    let stat := fun (t : State) => (t.get F.SIO_INj_STAT_VALUE j.val, t.get F.SIO_INj_STAT_FAULT j.val, t.get F.SIO_INj_STAT_DISAGREE j.val, t.get F.SIO_INj_STAT_RUN j.val)
    let run := s.get F.SIO_INj_STAT_RUN j.val
    let disc := s.get F.SIO_INj_CFG_DISC j.val
    (∀ a b : Bool,
      let d := (s.now / 6000 + 1) * 6000
      let u := (s.putExt { s.ext with sinA := putBit s.ext.sinA j.val a, sinB := putBit s.ext.sinB j.val b }).advanceTo d
      exec (.pairInputChange j a b) s = .next (settled s (timed (pairChange · j.val a b) s)) ∧ (calm s = true → s.due d = true → DriveSteady u → run < 20000 →
      ∃ t, exec (.pairInputChange j a b) s = .next t ∧ Result s u t
        ∧ (s.flag F.SIO_INj_CFG_EN j.val = false → stat t = stat s)
        ∧ (s.flag F.SIO_INj_CFG_EN j.val = true → s.flag F.SIO_INj_STAT_FAULT j.val = false →
          (a ≠ b → run = 0 → stat t = (b2n (a != s.flag F.SIO_INj_CFG_POL j.val), 0, 0, 0))
          ∧ (a ≠ b → 0 < run → run < disc → stat t = (b2n (a != s.flag F.SIO_INj_CFG_POL j.val), 0, 0, 0) ∧ t.get F.SIO_STATUS_DISC_NEW = 1
            ∧ (let cnt := if bitAt s.sio.lastAnti j.val = (a != s.flag F.SIO_INj_CFG_POL j.val) then F.SIO_INj_CNT_RETURN_CNT else F.SIO_INj_CNT_SWITCH_CNT
               t.get cnt j.val = satInc cnt.width (s.get cnt j.val)))
          ∧ (a = b → run + 1 < disc → stat t = (s.get F.SIO_INj_STAT_VALUE j.val, 0, 1, run + 1))
          ∧ (a = b → disc ≤ run + 1 → stat t = (0, 1, 1, run + 1) ∧ t.get F.SIO_STATUS_IN_FAULT_NEW = 1))))
    ∧ exec (.discrepancyFault j) s = .next (settled s (timed (discrepancy · j.val) s))
    ∧ (let d := (s.sio.nextSample + disc - run - 1) * 6000
      calm s = true → s.flag F.SIO_INj_CFG_EN j.val = true → s.flag F.SIO_INj_STAT_DISAGREE j.val = true → s.flag F.SIO_INj_STAT_FAULT j.val = false → run < disc → disc ≤ 20000 →
      bitAt s.ext.sinA j.val = bitAt s.ext.sinB j.val → s.due d = true → DriveSteady (s.advanceTo d) →
      ∃ t, exec (.discrepancyFault j) s = .next t ∧ Result s (s.advanceTo d) t ∧ t.now = d ∧ stat t = (0, 1, 1, disc) ∧ t.get F.SIO_STATUS_IN_FAULT_NEW = 1)
    ∧ (s.flag F.SIO_INj_STAT_FAULT j.val = true → Answers (.discrepancyFault j) s s)
    ∧ (∀ (p : HPort) (mask : BitVec 16), Answers (.clearIn p mask) s (s.putReqs { s.reqs with clearIn := s.reqs.clearIn ||| mask.toNat }))
    ∧ (s.flag F.SIO_INj_STAT_FAULT j.val = true →
      (bitAt s.ext.sinA j.val = s.flag F.SIO_INj_CFG_POL j.val → bitAt s.ext.sinB j.val = (!s.flag F.SIO_INj_CFG_POL j.val) → (clearIn s (2 ^ j.val)).get F.SIO_INj_STAT_FAULT j.val = 0)
      ∧ (¬ (bitAt s.ext.sinA j.val = s.flag F.SIO_INj_CFG_POL j.val ∧ bitAt s.ext.sinB j.val = !s.flag F.SIO_INj_CFG_POL j.val) → clearIn s (2 ^ j.val) = s.set F.SIO_STATUS_CLR_REJ 0 1))

/-- A detected output fault latches its kind, opens the switch and, with FAULT_STOP, stops the traction link. On a switch closed
for 7,200 ticks STUCK_OFF (or OVERLOAD with the limit engaged), on an open enabled switch of a driving unit without fault or
pulse STUCK_ON, and on any enabled output of a driving unit without fault OVERLOAD and OVERTEMP, latch FAULT_KIND, step
FAULTS, raise OUT_FAULT_NEW, and with FAULT_STOP raise FSTOP: afterwards the switch is open, a pulse in progress is counted
as ABANDONED, and with FSTOP the traction link shows stop. SENSE_HI and SENSE_LO follow the reads: the level that failed
reads 0, the other as the ball is, which is open (DESIGN CHOICE, log entry 113). STUCK_OFF and STUCK_ON observed on a switch
in the other position or, before the earliest tick at which the reads can show it, on one just closed, change nothing; at an
output that holds a fault, is not enabled or is not driven, OVERLOAD and OVERTEMP change nothing and STUCK_ON shows the
levels only. (12_safety_io_traction.md R286, 12_safety_io_traction.md R289, 12_safety_io_traction.md R290,
12_safety_io_traction.md R291, 12_safety_io_traction.md R292, 12_safety_io_traction.md R293) -/
def Obligations.OutputFaultsOpenTheSwitch : Prop :=
  ∀ (s : State) (k : Fin 12), LinesFollow s →
    let flt := fun (u : State) (kind : Nat) =>
      let v := (((u.indicate.set F.SIO_OUTk_STAT_FAULT_KIND k.val kind).counted F.SIO_OUTk_CNT_FAULTS k.val).updOut k.val
        (fun o => { o with pulse := none, openAt := s.now })).set F.SIO_STATUS_OUT_FAULT_NEW 0 1
      if s.flag F.SIO_OUTk_CFG_FAULT_STOP k.val = true then v.set F.TLNK_PIN_FSTOP 0 1 else v
    let latches := fun (c : Instr) (u : State) (kind : Nat) =>
      ∃ t, exec c s = .next t ∧ Result s (flt u kind) t ∧ switchClosed t k.val = false
        ∧ (s.flag F.SIO_OUTk_CFG_FAULT_STOP k.val = true → t.lines.tlp = false ∧ t.lines.stopN = false ∧ t.lines.still = false)
    let open_ := fun (u : State) (no : Fld) (other : Fld) => ((u.set no k.val 0).set other k.val (if Config.ballReads u.freeCtr then 1 else 0)).fresh
    (switchClosed s k.val = true →
      ((s.outPort k.val).closeAt + 7200 ≤ s.now → ∀ limit, latches (.stuckOff k limit)
        (open_ (if s.get F.SIO_OUTk_STAT_FAULT_KIND k.val = 0 then s.firstErrFrom F.URED_FIRST_SOUT 12000 (s.firstTick k.val) else s) F.SIO_OUTk_STAT_SENSE_HI F.SIO_OUTk_STAT_SENSE_LO)
        (if limit then 3 else 2))
      ∧ (s.now < (s.outPort k.val).closeAt + 7200 → ∀ limit, Answers (.stuckOff k limit) s s)
      ∧ Answers (.stuckOn k) s s)
    ∧ (mayDrive s = true ∧ s.flag F.SIO_OUTk_CFG_EN k.val = true ∧ s.get F.SIO_OUTk_STAT_FAULT_KIND k.val = 0 →
      latches (.overload k) s 3 ∧ latches (.overtemp k) s 4
      ∧ ((s.outPort k.val).pulse.isSome = true → ∀ c, c ∈ [Instr.overload k, .overtemp k] → ∃ t, exec c s = .next t
        ∧ (t.outPort k.val).pulse = none ∧ t.get F.SIO_OUTk_CNT_ABANDONED k.val = satInc F.SIO_OUTk_CNT_ABANDONED.width (s.get F.SIO_OUTk_CNT_ABANDONED k.val)))
    ∧ (mayDrive s = false ∨ s.flag F.SIO_OUTk_CFG_EN k.val = false ∨ s.get F.SIO_OUTk_STAT_FAULT_KIND k.val ≠ 0 →
      Answers (.overload k) s s ∧ Answers (.overtemp k) s s)
    ∧ (switchClosed s k.val = false →
      (∀ limit, Answers (.stuckOff k limit) s s)
      ∧ (mayDrive s = true → s.flag F.SIO_OUTk_CFG_EN k.val = true → s.get F.SIO_OUTk_STAT_FAULT_KIND k.val = 0 → (s.outPort k.val).pulse = none →
        latches (.stuckOn k) (open_ s F.SIO_OUTk_STAT_SENSE_LO F.SIO_OUTk_STAT_SENSE_HI) 1)
      ∧ (mayDrive s = false ∨ s.flag F.SIO_OUTk_CFG_EN k.val = false ∨ s.get F.SIO_OUTk_STAT_FAULT_KIND k.val ≠ 0 → (s.outPort k.val).pulse = none →
        Answers (.stuckOn k) s (open_ s F.SIO_OUTk_STAT_SENSE_LO F.SIO_OUTk_STAT_SENSE_HI))
      ∧ ((s.outPort k.val).pulse ≠ none → Answers (.stuckOn k) s s))

/-- Test pulses open a switch for PULSE_LEN, and CLEAR_OUT and CLEAR_DRV wait for the boundary and refuse while demanded. A
pulse that is due opens its switch, closed at the boundary, until PULSE_LEN after the boundary; a pulse over whose ball read
low is counted in PASSED and ends, with SENSE_LO 1 and SENSE_HI 0; otherwise STUCK_ON is latched. CLEAR_OUT and CLEAR_DRV
are held for the boundary. Evaluated, CLEAR_OUT clears the fault of an output that is not demanded, and otherwise leaves it
and raises CLR_REJ; CLEAR_DRV clears RBSTOP while the TL_PERMIT demand is 0 and otherwise leaves it.
(12_safety_io_traction.md R287, 12_safety_io_traction.md R288, 12_safety_io_traction.md R292, 12_safety_io_traction.md R297) -/
def Obligations.TestPulsesAndClears : Prop :=
  ∀ (s : State) (k : Fin 12), LinesFollow s →
    (pulseDue s k.val = true → (s.outPort k.val).pulse = none → (s.outPort k.val).closeAt ≤ s.cycleStart → (s.outPort k.val).pulsed ≠ s.cycle + 1 →
      ∃ t, exec (.testPulse k) s = .next t ∧ switchClosed t k.val = false
        ∧ t = settled s (s.updOut k.val (fun o => { o with pulse := some (s.cycleStart + 60 * s.get F.SIO_OUTk_CFG_PULSE_LEN k.val), openAt := s.cycleStart, pulsed := s.cycle + 1 })))
    ∧ (pulseDue s k.val = false → Answers (.testPulse k) s s)
    ∧ (∀ d, (s.outPort k.val).pulse = some d → s.due d = true →
      let u := s.advanceTo d
      let r := (u.set F.SIO_OUTk_STAT_SENSE_HI k.val 0).set F.SIO_OUTk_STAT_SENSE_LO k.val 1
      AnswersTimed (.pulseEnd k true) (Sys2Proof.Machine.pulseEnd · k.val true) s
        ((r.updOut k.val (fun o => { o with pulse := none, closeAt := u.now })).set F.SIO_OUTk_CNT_PASSED k.val (s.get F.SIO_OUTk_CNT_PASSED k.val + 1))
      ∧ exec (.pulseEnd k false) s = .next (settled s (timed (Sys2Proof.Machine.pulseEnd · k.val false) s))
      ∧ (calm s = true → s.get F.SIO_OUTk_STAT_FAULT_KIND k.val = 0 → mayDrive u = true → s.flag F.SIO_OUTk_CFG_EN k.val = true → DriveSteady u →
        ∃ t, exec (.pulseEnd k false) s = .next t ∧ t.get F.SIO_OUTk_STAT_FAULT_KIND k.val = 1 ∧ switchClosed t k.val = false ∧ t.get F.SIO_OUTk_STAT_SENSE_LO k.val = 0
          ∧ t.get F.SIO_OUTk_CNT_FAULTS k.val = satInc F.SIO_OUTk_CNT_FAULTS.width (s.get F.SIO_OUTk_CNT_FAULTS k.val)))
    ∧ (∀ low, (s.outPort k.val).pulse = none → Answers (.pulseEnd k low) s s)
    ∧ (∀ p : HPort, s.portsUp = true →
      (∀ mask : BitVec 12, Answers (.clearOut p mask) s (s.putReqs { s.reqs with clearOut := s.reqs.clearOut ||| mask.toNat }))
      ∧ Answers (.clearDrv p) s (s.putReqs { s.reqs with clearDrv := true }))
    ∧ (s.get F.SIO_OUTk_STAT_FAULT_KIND k.val ≠ 0 →
      (bitAt (s.get F.FAB_OUTDEM_SOUT) k.val = false → (clearOut s (2 ^ k.val)).get F.SIO_OUTk_STAT_FAULT_KIND k.val = 0)
      ∧ (bitAt (s.get F.FAB_OUTDEM_SOUT) k.val = true → (clearOut s (2 ^ k.val)).get F.SIO_OUTk_STAT_FAULT_KIND k.val = s.get F.SIO_OUTk_STAT_FAULT_KIND k.val
        ∧ (clearOut s (2 ^ k.val)).get F.SIO_STATUS_CLR_REJ = 1))
    ∧ (s.flag F.TLNK_PIN_RBSTOP = true → (clearDrv s).flag F.TLNK_PIN_RBSTOP = s.flag F.FAB_OUTDEM_TLP)

/-- Readback faults stop the traction link, and its telegrams are accepted by type, check and sequence or lapse. A readback
fault of the driven link latches its bit and RBSTOP, and the lines of a unit that may drive show stop; STOP_N and STILL show
the level read on the lines that the fault concerns, which are open where the command names neither (DESIGN CHOICE, log
entry 113). Once a cycle while counting runs, the exchange sends the unit's frame and judges the one received: a wrong type,
check value or sequence raises its flag and REJECTED; a frame in order becomes RX_SEQ and the RX words and restarts the age.
What channels and ledger turns have due before the exchange is done before it (log entry 78). A disabled link, or a second
exchange in the cycle, does nothing. After TEXP cycles without a frame RX_LAPSE and, with RX_STOP, RSTOP are raised;
TL_STOP_N then shows stop but where EXTEST of COMMISSIONING holds it. (12_safety_io_traction.md R297,
12_safety_io_traction.md R298, 12_safety_io_traction.md R299, 12_safety_io_traction.md R300, 12_safety_io_traction.md R301) -/
def Obligations.TractionLink : Prop :=
  ∀ s : State, LinesFollow s →
    let stops := fun (c : Instr) (u : State) (f : Fld) =>
      ∃ t, exec c s = .next t ∧ Result s ((u.indicate.set f 0 1).set F.TLNK_PIN_RBSTOP 0 1) t
        ∧ (mayDrive s = true → t.lines.tlp = false ∧ t.lines.stopN = false ∧ t.lines.still = false)
    let reads := fun (u : State) (a b : Bool) (v : Nat) =>
      let w := if a then u.set F.TLNK_PIN_STOP_N 0 v else u
      (if b then w.set F.TLNK_PIN_STILL 0 v else w).fresh
    (s.lines.tlDrive = true →
      (s.lines.tlp = true → stops .tlpDrv (s.firstErrFrom F.URED_FIRST_TLP_DRV 6000 (s.firstTick 12)) F.TLNK_STATUS_TLP_DRV)
      ∧ (s.lines.stopN = true ∨ s.lines.still = true → ∃ a b : Bool, (a = true ∨ b = true) ∧ (a = true → s.lines.stopN = true) ∧ (b = true → s.lines.still = true)
        ∧ stops .tlsDrv (reads (s.firstErrFrom F.URED_FIRST_TLS_DRV 600 (max (if a then s.firstTick 13 else 0) (if b then s.firstTick 14 else 0))) a b 0) F.TLNK_STATUS_TLS_DRV)
      ∧ (s.lines.tlp = false ∨ s.lines.still = false ∨ s.lines.stopN = false → ∃ a b : Bool, (a = true ∨ b = true ∨ s.lines.tlp = false) ∧ (a = true → s.lines.stopN = false)
        ∧ (b = true → s.lines.still = false) ∧ stops .tlForeign (reads s a b 1) F.TLNK_STATUS_TL_FOREIGN)
      ∧ (s.lines.tlp = false → Answers .tlpDrv s s) ∧ (s.lines.stopN = false → s.lines.still = false → Answers .tlsDrv s s)
      ∧ (s.lines.tlp = true → s.lines.stopN = true → s.lines.still = true → Answers .tlForeign s s))
    ∧ (s.lines.tlDrive = false → Answers .tlpDrv s s ∧ Answers .tlsDrv s s ∧ Answers .tlForeign s s)
    ∧ (∀ rx : List Byte,
      (s.flag F.TLNK_CFG_EN = false ∨ s.counting = false ∨ s.tl.sent = s.cycle + 1 → Answers (.tlTelegramFrame rx) s s)
      ∧ (s.flag F.TLNK_CFG_EN = true → s.counting = true → s.tl.sent ≠ s.cycle + 1 →
        let u := s.advanceTo (s.cycleStart + 33072)
        let v := tlSend (u.putTl { u.tl with sent := u.cycle + 1 })
        let bs := pad64 rx
        let seq := ofLeBytes ((bs.drop 1).take 2)
        let adv := (seq + 65536 - v.get F.TLNK_SEQ_RX_SEQ) % 65536
        let good := crc32c (leBytes 4 (cidRx (v.get F.TLNK_CONN_ID_CONN_ID)) ++ bs.take 60) = ofLeBytes (bs.drop 60)
        let rejected := fun (f : Fld) (bit : Nat) => AnswersTimed (.tlTelegramFrame rx) (tlExchange · rx) s (((v.set f 0 1).counted F.TLNK_RX_CNT_REJECTED).note 4 0x0B bit 0xFF 0)
        (ofLeBytes (bs.take 1) ≠ 0x51 → rejected F.TLNK_STATUS_RX_TYPE 3)
        ∧ (ofLeBytes (bs.take 1) = 0x51 → ¬good → rejected F.TLNK_STATUS_RX_CHECK 1)
        ∧ (ofLeBytes (bs.take 1) = 0x51 → good → v.tl.anySeq = false → adv = 0 ∨ 4 < adv → rejected F.TLNK_STATUS_RX_SEQ 2)
        ∧ (ofLeBytes (bs.take 1) = 0x51 → good → v.tl.anySeq = true ∨ (1 ≤ adv ∧ adv ≤ 4) →
          let w := putFrame ((v.set F.TLNK_SEQ_RX_SEQ 0 seq).set F.TLNK_RX_CNT_ACCEPTED 0 (v.get F.TLNK_RX_CNT_ACCEPTED + 1)) F.TLNK_RX_Wk_DATA bs
          AnswersTimed (.tlTelegramFrame rx) (tlExchange · rx) s (w.putTl { w.tl with idle := 0, anySeq := false, lapsed := false, okSince := true }))))
    ∧ (s.flag F.TLNK_CFG_EN = true → s.counting = true → s.tl.lapsed = false → s.get F.TLNK_CFG_TEXP ≤ s.tl.idle →
      ∃ t, exec .rxLapse s = .next t ∧ t.get F.TLNK_STATUS_RX_LAPSE = 1 ∧ t.get F.TLNK_RX_CNT_LAPSES = satInc F.TLNK_RX_CNT_LAPSES.width (s.get F.TLNK_RX_CNT_LAPSES)
        ∧ t.tl = { s.tl with lapsed := true, anySeq := true, okSince := false }
        ∧ (s.flag F.TLNK_CFG_RX_STOP = true → t.get F.TLNK_PIN_RSTOP = 1 ∧ t.lines.tlp = false ∧ t.lines.still = false ∧ (s.dev ≠ .comm ∨ s.spu.jtag ≠ 3 → t.lines.stopN = false)))
    ∧ (s.tl.idle < s.get F.TLNK_CFG_TEXP ∨ s.flag F.TLNK_CFG_EN = false → Answers .rxLapse s s)

/-- Locks, claims, transmit requests and aborts of CAN buffers by the port that owns them. While the ports answer: a port that
does not own a buffer gets an OWNER error and changes nothing (REENABLE of an STE-owned buffer is open to both). The owner's
read of word 0 locks an unlocked RX buffer, the holder's read of word 17 releases it with FULL and OVERRUN cleared, LOCK_REL
releases it with FULL kept. A write of a TX buffer's word without a pending request writes it (BUSY with one; a word of an
RX buffer stays), TX_REQ in normal mode requests it (STATE otherwise; nothing while HELD), and the first writer claims an
EITHER buffer. ABORT ends a pending request whose frame has not started and leaves one that is on the bus, ABORT of CANx_CMD
every host-owned one likewise, REENABLE ends HELD. Whether a waiting frame has started is a free value (log entry 99); the
kinds OWNER, BUSY and STATE of these errors, STATE for TX_REQ in monitoring mode among them, are the model's reading (log
entry 45). (13_can.md R311, 13_can.md R313, 13_can.md R314, 13_can.md R319, 13_can.md R307, 16_host_ports.md R374) -/
def Obligations.CanBufferAccess : Prop :=
  ∀ (s : State) (p : HPort) (x : Fin 2) (b : Fin 64), LinesFollow s → s.portsUp = true →
    let X := x.val
    let B := b.val
    let refused := fun (c : Instr) (a : Nat) (k : AccKind) => Answers c s (s.accErr p a true k)
    let into := fun (c : Instr) (u : State) => exec c s = .next (settled s u)
    let free := fun (u : State) => (u.set (F.CANx_BUFCTRLb_LOCKED.can X) B 0).set (F.CANx_BUFCTRLb_LOCK_OWNER.can X) B 3
    let claimed := if bufOwner s X B = ownEither ∧ bufLocked s X B = false then
      (s.set (F.CANx_BUFCTRLb_LOCKED.can X) B 1).set (F.CANx_BUFCTRLb_LOCK_OWNER.can X) B p.toNat else s
    (portOwns s p X B = false →
      (∀ k v, refused (.txBufWrite p x b k v) (bufAddr X B k.val) .owner)
      ∧ refused (.txReq p x b) (ctrlAddr X B) .owner ∧ refused (.bufAbort p x b) (ctrlAddr X B) .owner ∧ refused (.lockRel p x b) (ctrlAddr X B) .owner
      ∧ (bufOwner s X B ≠ ownSte → refused (.reenable p x b) (ctrlAddr X B) .owner)
      ∧ Answers (.rxBufLock p x b) s s)
    ∧ (portOwns s p X B = true ∨ bufOwner s X B = ownSte → exec (.reenable p x b) s = .next (settled s
      ((s.set (F.CANx_BUFCTRLb_HELD.can X) B 0).updCan X (fun c => { c with clash := upd c.clash B (fun _ => 0) }))))
    ∧ (bufTx s X B = false →
      (portOwns s p X B = true → bufLocked s X B = false → into (.rxBufLock p x b)
        ((s.set (F.CANx_BUFCTRLb_LOCKED.can X) B 1).set (F.CANx_BUFCTRLb_LOCK_OWNER.can X) B p.toNat))
      ∧ (bufLocked s X B = true → Answers (.rxBufLock p x b) s s)
      ∧ (portHolds s p X B = true → into (.rxBufRelease p x b) (((free s).set (F.CANx_BUFCTRLb_FULL.can X) B 0).set (F.CANx_BUFCTRLb_OVERRUN.can X) B 0))
      ∧ (portOwns s p X B = true → (∀ k v, Answers (.txBufWrite p x b k v) s s) ∧ Answers (.txReq p x b) s s ∧ Answers (.bufAbort p x b) s s))
    ∧ (portHolds s p X B = false → Answers (.rxBufRelease p x b) s s)
    ∧ (portOwns s p X B = true → portHolds s p X B = true → into (.lockRel p x b) (free s))
    ∧ (portOwns s p X B = true → portHolds s p X B = false → Answers (.lockRel p x b) s s)
    ∧ (portOwns s p X B = true → bufTx s X B = true →
      (bufPending s X B = true → (∀ k v, refused (.txBufWrite p x b k v) (bufAddr X B k.val) .busy)
        ∧ (((startSeen s X).canCtl X).onBus = some B → into (.bufAbort p x b) (startSeen s X))
        ∧ (((startSeen s X).canCtl X).onBus ≠ some B → into (.bufAbort p x b) (reqEnd (startSeen s X) X B)))
      ∧ (bufPending s X B = false → Answers (.bufAbort p x b) s s
        ∧ ∀ (k : Fin 18) (v : Word),
          (2 ≤ k.val → into (.txBufWrite p x b k v) (claimed.set (bufDataFld X B) (k.val - 2) v.toNat))
          ∧ (k.val = 1 → into (.txBufWrite p x b k v) (((claimed.set (F.CANx_BUFb_W1_DLC.can X) B v.toNat).set (F.CANx_BUFb_W1_BRS.can X) B (v.toNat / 16)).set
            (F.CANx_BUFb_W1_ESI.can X) B (v.toNat / 32)))
          ∧ (k.val = 0 → into (.txBufWrite p x b k v) ((((claimed.set (F.CANx_BUFb_W0_ID.can X) B v.toNat).set (F.CANx_BUFb_W0_IDE.can X) B (v.toNat / 2 ^ 29)).set
            (F.CANx_BUFb_W0_RTR.can X) B (v.toNat / 2 ^ 30)).set (F.CANx_BUFb_W0_FDF.can X) B (v.toNat / 2 ^ 31))))
      ∧ (canNormal s X = false → refused (.txReq p x b) (ctrlAddr X B) .state_)
      ∧ (canNormal s X = true → s.flag (F.CANx_BUFCTRLb_HELD.can X) B = false → into (.txReq p x b) ((startSeen claimed X).set (F.CANx_BUFCTRLb_TX_REQ.can X) B 1))
      ∧ (canNormal s X = true → s.flag (F.CANx_BUFCTRLb_HELD.can X) B = true → into (.txReq p x b) claimed))
    ∧ exec (.abortAll p x) s = .next (settled s (forN 64 (startSeen s X) (fun u c =>
        if bufTx u X c && bufPending u X c && bufOwner u X c != ownSte && (u.canCtl X).onBus != some c then reqEnd u X c else u)))

/-- A CAN frame is stored by the first filter that matches, and a transmitted one ends its request. A live controller stores a
valid frame in the buffer of the lowest matching filter's group that takes it, with the filter, tick and FULL, raises its
receive flag and RX_NEW, hands it to the telegram engine if that owns the buffer (in normal mode REC falls); with no place
OVERRUN is raised and counted; without a filter nothing is stored. A protocol exception raises PXE. A transmission of the
buffer whose frame is on the bus, else of the one that wins arbitration, ends its request, clears TX_FAIL and NOACK, stamps
the buffer and raises its flag and TX_DONE; a frame with BRS also gives TDCV its measured delay; lost arbitration fails a
single-shot request and, in a HALT, ends a pending one of the telegram engine, and otherwise leaves the request. A
controller that is not live takes nothing. Which buffer's frame is on the bus rests on the model's choice of when a request
has started (busPick; log entry 99); that a HALT ends the telegram engine's pending transmissions is R256's. (13_can.md
R305, 13_can.md R310, 13_can.md R312, 13_can.md R314, 13_can.md R315, 13_can.md R316, 13_can.md R318, 11_safety_processor.md
R256) -/
def Obligations.CanFrames : Prop :=
  ∀ (s : State) (x : Fin 2), LinesFollow s →
    let X := x.val
    (∀ fr : CanFrame,
      (canLive s X = false → Answers (.canFrameReceived x fr) s s ∧ Answers (.protocolException x) s s)
      ∧ (canLive s X = true → Answers (.protocolException x) s (s.set (F.CANx_STATUS_PXE.can X) 0 1))
      ∧ (canLive s X = true →
        let stored := fun (u : State) => exec (.canFrameReceived x fr) s = .next (settled s (rxGood u X))
        (firstFilter s X fr = none → stored s)
        ∧ (∀ f, firstFilter s X fr = some f → groupPlace s X f = none →
          stored (((s.set (F.CANx_BUFCTRLb_OVERRUN.can X) (s.get (F.CANx_FLTf_CFG_TARGET.can X) f) 1).set (F.CANx_STATUS_OVERRUN.can X) 0 1).counted
            (F.CANx_CNT_OVR_CNT.can X)))
        ∧ (∀ f b, firstFilter s X fr = some f → groupPlace s X f = some b →
          let u := (setBufFlag (((bufPut s X b fr f).set40 (F.CANx_BUFb_TS_L_TS.can X) b (ts40 s.now)).set (F.CANx_BUFCTRLb_FULL.can X) b 1)
            F.CANx_RXF0_FLAG F.CANx_RXF1_FLAG X b).set (F.CANx_STATUS_RX_NEW.can X) 0 1
          (bufOwner u X b ≠ ownSte → stored u) ∧ (bufOwner u X b = ownSte → stored (steCopy u X b))))
      ∧ (canLive s X = true → canNormal s X = false → firstFilter s X fr = none → Answers (.canFrameReceived x fr) s s)
      ∧ (canNormal s X = true → canState s X = 0 → firstFilter s X fr = none → 0 < s.get (F.CANx_ERR_REC.can X) → s.flag (F.CANx_ERR_RP.can X) = false → tecOf s X < 128 →
        ∃ t, exec (.canFrameReceived x fr) s = .next t ∧ t.get (F.CANx_ERR_REC.can X) = s.get (F.CANx_ERR_REC.can X) - 1 ∧ t.get (F.CANx_ERR_ESTATE.can X) = 0))
    ∧ (∀ tdcv : BitVec 7,
      (busPick s X = none → Answers (.canFrameTransmitted x tdcv) s s ∧ Answers (.lostArbitration x) s s)
      ∧ (∀ b, busPick s X = some b →
        let f := busFree s X
        (∃ t, exec (.canFrameTransmitted x tdcv) s = .next (settled s (steFreed s t)) ∧ t.get (F.CANx_BUFCTRLb_TX_REQ.can X) b = 0 ∧ t.get (F.CANx_BUFCTRLb_TX_FAIL.can X) b = 0
          ∧ t.get (F.CANx_ERR_NOACK.can X) = 0 ∧ t.get (F.CANx_CNT_NOACK_RUN.can X) = 0 ∧ t.get40 (F.CANx_BUFb_TS_L_TS.can X) b = ts40 s.now
          ∧ t.get (F.CANx_STATUS_TX_DONE.can X) = 1 ∧ t.get (F.CANx_ERR_TEC.can X) = tecOf s X - 1
          ∧ t.get (F.CANx_TDC_TDCV.can X) = (if bufBrs s X b = true then tdcv.toNat else s.get (F.CANx_TDC_TDCV.can X))
          ∧ bitAt (t.get ((if b < 32 then F.CANx_TXD0_FLAG else F.CANx_TXD1_FLAG).can X)) (b % 32) = true)
        ∧ (sshotAct s X b = false →
          let ends := s.flag F.SPU_STATUS_HALTED = true ∧ bufOwner s X b = ownSte ∧ bufPending s X b = true
          (¬ends → exec (.lostArbitration x) s = .next (settled s (steFreed s (clashReset f X b))))
          ∧ (ends → exec (.lostArbitration x) s = .next (settled s (steFreed s (reqEnd (clashReset f X b) X b)))))
        ∧ (sshotAct s X b = true → exec (.lostArbitration x) s = .next (settled s (steFreed s ((reqEnd (clashReset f X b) X b).set (F.CANx_BUFCTRLb_TX_FAIL.can X) b 1))))))

/-- CAN error counters and states, bus-off recovery and the loss of a controller. A controller that is not live takes no error,
and one in bus monitoring mode records the last error code of a receiver's error alone. In normal mode and not in bus-off, a
receiver's error counts 1 and its primary error 8 in the receive counter, a dominant bit error around a flag counts 8 in the
transmit counter, also after the request has ended, and a transmitter's error ends its attempt; 128 makes the controller
error passive with EPASS, more than 255 transmit errors take it to bus-off with TEC 255 and BO_CNT stepped, recovering at
once under AUTO_REC. RELEASE starts the recovery of a controller in bus-off, and a complete recovery returns it error active
with counters 0. Which counter an error acts on comes with the command (log entry 41); RECOV_SEQ 0 at the start and 128 at
the end is the model's reading (log entry 44). A loss raises LOST with its cause once; with a duplicated connection in
OPERATIONAL it raises Squall cause CAN_LOST. (13_can.md R316, 13_can.md R317, 13_can.md R320, 13_can.md R321) -/
def Obligations.CanErrorStates : Prop :=
  ∀ (s : State) (x : Fin 2), LinesFollow s →
    let X := x.val
    (∀ e : CanError, canLive s X = false → Answers (.canError x e) s s)
    ∧ (∀ e : CanError, canLive s X = true → canNormal s X = false →
      (e.kind = .rxError ∨ e.kind = .rxFlag → Answers (.canError x e) s
        ((s.set (F.CANx_ERR_LEC.can X) 0 (lecCode e.code)).set (F.CANx_ERR_LEC_DATA.can X) 0 (b2n e.dataPhase)))
      ∧ (e.kind ≠ .rxError → e.kind ≠ .rxFlag → Answers (.canError x e) s s))
    ∧ (∀ e : CanError, canNormal s X = true → canState s X < 2 →
      let lec := fun (t : State) => t.get (F.CANx_ERR_LEC.can X) = lecCode e.code ∧ t.get (F.CANx_ERR_LEC_DATA.can X) = b2n e.dataPhase
      let up := fun (tec rec_ : Nat) => ∃ t, exec (.canError x e) s = .next t ∧ lec t
        ∧ (tec ≤ 255 → t.get (F.CANx_ERR_TEC.can X) = tec ∧ recOf t X = min rec_ 128
          ∧ t.get (F.CANx_ERR_ESTATE.can X) = (if 128 ≤ tec ∨ 128 ≤ rec_ then 1 else 0)
          ∧ (128 ≤ tec ∨ 128 ≤ rec_ → canState s X = 0 → t.get (F.CANx_STATUS_EPASS.can X) = 1))
        ∧ (255 < tec → t.get (F.CANx_ERR_TEC.can X) = 255 ∧ t.get (F.CANx_STATUS_BUSOFF.can X) = 1
          ∧ t.get (F.CANx_ERR_ESTATE.can X) = (if s.flag (F.CANx_CFG_AUTO_REC.can X) then 3 else 2) ∧ t.get (F.CANx_CNT_RECOV_SEQ.can X) = 0
          ∧ t.get (F.CANx_CNT_BO_CNT.can X) = satInc (F.CANx_CNT_BO_CNT.can X).width (s.get (F.CANx_CNT_BO_CNT.can X)))
      (e.kind = .rxError → up (tecOf s X) (recOf s X + 1))
      ∧ (e.kind = .rxFlag → up (tecOf s X) (recOf s X + 8))
      ∧ (e.kind = .txFlag → up (tecOf s X + 8) (recOf s X))
      ∧ (busPick s X = none → e.kind = .txError ∨ e.kind = .txUncounted → Answers (.canError x e) s s)
      ∧ ∀ b, busPick s X = some b →
        let v := txFailed ((s.set (F.CANx_ERR_LEC.can X) 0 (lecCode e.code)).set (F.CANx_ERR_LEC_DATA.can X) 0 (b2n e.dataPhase)) X b e
        (e.kind = .txUncounted → exec (.canError x e) s = .next (settled s (steFreed s v)))
        ∧ (e.kind = .txError → exec (.canError x e) s = .next (settled s (steFreed s (errState v X (tecOf s X + 8) (recOf s X))))))
    ∧ (canState s X = 3 → canUp s X = true → canNormal s X = true →
      ∃ t, exec (.busoffRecovery x) s = .next t ∧ t.get (F.CANx_ERR_TEC.can X) = 0 ∧ recOf t X = 0 ∧ t.get (F.CANx_ERR_ESTATE.can X) = 0 ∧ t.get (F.CANx_CNT_RECOV_SEQ.can X) = 128)
    ∧ (canState s X ≠ 3 → Answers (.busoffRecovery x) s s)
    ∧ (∀ p : HPort, s.portsUp = true →
      (canState s X = 2 → exec (.canRelease p x) s = .next (settled s ((s.set (F.CANx_ERR_ESTATE.can X) 0 3).set (F.CANx_CNT_RECOV_SEQ.can X) 0 0)))
      ∧ (canState s X ≠ 2 → Answers (.canRelease p x) s s))
    ∧ (∀ cause : CanLostCause,
      (s.flag (F.CANx_CFG_EN.can X) = false ∨ s.counting = false ∨ s.flag (F.CANx_ERR_LOST.can X) = true → Answers (.canControllerLost x cause) s s)
      ∧ (s.flag (F.CANx_CFG_EN.can X) = true → s.counting = true → s.flag (F.CANx_ERR_LOST.can X) = false → cause ≠ .busOff →
        let u := ((s.set (F.CANx_ERR_LOST.can X) 0 1).set (F.CANx_ERR_LOST_CAUSE.can X) 0 (lostCode cause)).set (F.CANx_STATUS_LOST.can X) 0 1
        (dupConn s = false → Answers (.canControllerLost x cause) s u)
        ∧ (dupConn s = true → s.dev = .oper →
          ∃ t, exec (.canControllerLost x cause) s = .next t ∧ t.get (F.CANx_ERR_LOST.can X) = 1 ∧ bitAt (t.get F.SPU_SQ_CAUSES) 1 = true ∧ t.spu.raised = s.spu.raised ++ [2])))

/-- Check-value channels: START, data, context, FINISH and RELEASE by the owning port. While the ports answer: an access by a
port that does not own the channel is an OWNER error. START of an active channel and data of an inactive one are BUSY
errors; START with unusable parameters raises ERR; otherwise INIT with the guard bytes absorbed is the running register and
an EITHER channel is claimed. DATA registers absorb their bytes, least significant first, and count them; CTX replaces the
register; FINISH of an active channel forms RESULT, compares it under CMP_EN, raises DONE and steps the alive counter;
RELEASE ends computation and claim. The kinds of access error, what START clears and FINISH without a computation are the
model's reading (log entries 45 and 47). (14_safety_telegrams.md R322, 14_safety_telegrams.md R323, 14_safety_telegrams.md
R324, 14_safety_telegrams.md R325, 14_safety_telegrams.md R327, 16_host_ports.md R374) -/
def Obligations.CheckValueChannels : Prop :=
  ∀ (s : State) (p : HPort) (n : Fin 16), LinesFollow s → s.portsUp = true →
    let N := n.val
    let w := s.get F.CVU_CHn_CFG_WIDTH N
    let poly := s.get F.CVU_CHn_POLY_VALUE N
    let refin := s.flag F.CVU_CHn_CFG_REFIN N
    let g := s.get F.CVU_CHn_CFG_GUARD N
    let refused := fun (c : Instr) (off : Nat) (k : AccKind) => Answers c s (s.accErr p (cvuAddr N off) true k)
    (cvuOwns s p N = false →
      refused (.cvuStart p n) 0x118 .owner ∧ refused (.finish p n) 0x118 .owner ∧ refused (.cvuRelease p n) 0x118 .owner ∧ (∀ v, refused (.ctxWrite p n v) 0x120 .owner)
      ∧ (∀ v, refused (.data32 p n v) 0x128 .owner) ∧ (∀ v, refused (.data16 p n v) 0x12C .owner) ∧ (∀ v, refused (.data8 p n v) 0x130 .owner))
    ∧ (cvuOwns s p N = true →
      (∀ v : Word, Answers (.ctxWrite p n v) s (s.set F.CVU_CHn_CTX_CTX N (v.toNat % 2 ^ w)))
      ∧ Answers (.cvuRelease p n) s ((s.set F.CVU_CHn_STAT_ACTIVE N 0).set F.CVU_CHn_STAT_CLAIM N 3)
      ∧ (cvuActive s N = true →
        let fed := fun (bs : List Byte) => (s.set F.CVU_CHn_CTX_CTX N (bs.foldl (cvuByte w poly refin) (s.get F.CVU_CHn_CTX_CTX N))).set F.CVU_CHn_STAT_BYTES N
          (min (s.get F.CVU_CHn_STAT_BYTES N + bs.length) 65535)
        let r := cvuOut w (s.flag F.CVU_CHn_CFG_REFOUT N) (s.flag F.CVU_CHn_CFG_INV N) (s.get F.CVU_CHn_CTX_CTX N)
        let ok := decide (r = s.get F.CVU_CHn_EXPECT_VALUE N)
        refused (.cvuStart p n) 0x118 .busy ∧ (∀ v : Word, Answers (.data32 p n v) s (fed (leBytes 4 v.toNat)))
        ∧ (∀ v : BitVec 16, Answers (.data16 p n v) s (fed (leBytes 2 v.toNat))) ∧ (∀ v : Byte, Answers (.data8 p n v) s (fed (leBytes 1 v.toNat)))
        ∧ ∃ t, exec (.finish p n) s = .next t ∧ t.get F.CVU_CHn_RESULT_RESULT N = r % 2 ^ 32 ∧ t.get F.CVU_CHn_STAT_ACTIVE N = 0
          ∧ t.get F.CVU_CHn_STAT_MATCH N = b2n (s.flag F.CVU_CHn_CFG_CMP_EN N && ok) ∧ t.get F.CVU_CHn_STAT_MISMATCH N = b2n (s.flag F.CVU_CHn_CFG_CMP_EN N && !ok)
          ∧ bitAt (t.get F.CVU_STATUS_DONE) N = true ∧ (s.flag F.CVU_CHn_CFG_CMP_EN N = true → ok = false → bitAt (t.get F.CVU_STATUS_MISMATCH) N = true)
          ∧ t.get F.CVU_CHn_ALIVE_ALIVE_CNT N = (if (g = 1 ∨ g = 3) ∧ (s.flag F.CVU_CHn_CFG_ALIVE_ADV N = false ∨ (s.flag F.CVU_CHn_CFG_CMP_EN N && ok) = true)
            then (s.get F.CVU_CHn_ALIVE_ALIVE_CNT N + 1) % 2 ^ F.CVU_CHn_ALIVE_ALIVE_CNT.width else s.get F.CVU_CHn_ALIVE_ALIVE_CNT N))
      ∧ (cvuActive s N = false →
        Answers (.finish p n) s s ∧ (∀ v, refused (.data32 p n v) 0x128 .busy) ∧ (∀ v, refused (.data16 p n v) 0x12C .busy) ∧ (∀ v, refused (.data8 p n v) 0x130 .busy)
        ∧ (cvuBad s N = true → Answers (.cvuStart p n) s (s.set F.CVU_CHn_STAT_ERR N 1))
        ∧ (cvuBad s N = false →
          let guard := (if g = 2 ∨ g = 3 then leBytes 4 (s.get F.CVU_CHn_FOLD_VALUE N) else []) ++ (if g = 1 ∨ g = 3 then leBytes 2 (s.get F.CVU_CHn_ALIVE_ALIVE_CNT N) else [])
          ∃ t, exec (.cvuStart p n) s = .next t ∧ t.get F.CVU_CHn_STAT_ACTIVE N = 1 ∧ t.get F.CVU_CHn_STAT_ERR N = 0 ∧ t.get F.CVU_CHn_STAT_BYTES N = 0
            ∧ t.get F.CVU_CHn_CTX_CTX N = guard.foldl (cvuByte w poly refin) (s.get F.CVU_CHn_INIT_VALUE N)
            ∧ t.get F.CVU_CHn_STAT_CLAIM N = (if s.get F.CVU_CHn_CFG_OWNER N = 2 then p.toNat else s.get F.CVU_CHn_STAT_CLAIM N)
            ∧ ∀ m, m < 16 → m ≠ N → t.get F.CVU_CHn_CTX_CTX m = s.get F.CVU_CHn_CTX_CTX m ∧ t.get F.CVU_CHn_STAT_ACTIVE m = s.get F.CVU_CHn_STAT_ACTIVE m)))

/-- Safety telegrams are built when due, connections lapse and are released, and admission commands wait for the boundary.
ACCEPT, REFUSE and RELEASE of STE_ADMIT answer a next state while the ports answer: they replace the port's admission
command and read WAITING. While the cores run, at a boundary, a due telegram takes the next TX_SEQ; its frame is requested
from the lowest free buffer of each controller that DUP names, with two copies alike; without a free buffer it waits, the
waiting list stays in connection order, and one that waits of a lower connection goes first; one that is not due is not
built. A received frame of a connection that fails its length, check value, type or sequence is rejected with REJ_NEW and
the counter of the first that fails; a duplicate is only counted; one in order on a VALID connection, or the second of two
in order within TEXP on any other, is accepted with its SEQ, timestamp and bits, and the first is the reference; a DEPART
frees a dynamic slot. A VALID connection whose last frame is older than TEXP cycles becomes LAPSED with its receive bits 0,
a younger one stays. A dynamic connection LAPSED for DYN_HOLD hundreds of cycles is released. A pending announcement of
10,000 cycles is discarded. A standby unit takes releases, departures and discards from the image alone (DEDUCED, log entry
69). In a HALT nothing is built, lapses, is released or is discarded. (14_safety_telegrams.md R333, 14_safety_telegrams.md
R334, 14_safety_telegrams.md R335, 14_safety_telegrams.md R336, 14_safety_telegrams.md R338, 14_safety_telegrams.md R339,
14_safety_telegrams.md R340) -/
def Obligations.SafetyTelegrams : Prop :=
  ∀ s : State, LinesFollow s →
    (∀ p : HPort, s.portsUp = true →
      let held := fun (op wl conn : Nat) => (((s.putSte { s.ste with admits := upd s.ste.admits p.toNat (fun _ => some ⟨op, wl, conn⟩) }).set
        (F.STE_ADMIT_RES_RESULT.port p.toNat) 0 2).set (F.STE_ADMIT_RES_REASON.port p.toNat) 0 0).set (F.STE_ADMIT_RES_CONN.port p.toNat) 0 0
      (∀ wl : BitVec 5, ∃ t, exec (.accept p wl) s = .next t ∧ Result s (held 1 wl.toNat 0) t)
      ∧ (∀ wl : BitVec 5, ∃ t, exec (.refuse p wl) s = .next t ∧ Result s (held 2 wl.toNat 0) t)
      ∧ ∀ c : BitVec 6, ∃ t, exec (.steRelease p c) s = .next t ∧ Result s (held 3 0 c.toNat) t)
    ∧ (∀ c : Fin 64, atBoundary s = true →
      (telDue s c.val = false → Answers (.telegramBuild c) s s)
      ∧ (telDue s c.val = true →
        ∃ t, exec (.telegramBuild c) s = .next t ∧ t.get F.STE_CONNc_SEQ_TX_SEQ c.val = (s.get F.STE_CONNc_SEQ_TX_SEQ c.val + 1) % 65536
          ∧ (∀ d, d < 64 → d ≠ c.val → t.get F.STE_CONNc_SEQ_TX_SEQ d = s.get F.STE_CONNc_SEQ_TX_SEQ d)
          ∧ (s.get F.STE_CONNc_CFG_DUP c.val = 0 → freeSteBuf s 0 = none → canDrives s = true → s.ste.waiting = [] → s.ste.held = [] →
            t.ste.waiting = [⟨c.val, 0, s.get F.STE_CONNc_TXID_ID c.val, s.flag F.STE_CONNc_TXID_IDE c.val, !s.flag F.STE_CONNc_CFG_FMT c.val,
              (telData (((steStale s c.val).set F.STE_CONNc_SEQ_TX_SEQ c.val (s.get F.STE_CONNc_SEQ_TX_SEQ c.val + 1)).updConn c.val (fun y => { y with built := s.cycle + 1 })) c.val
                ((s.get F.STE_CONNc_SEQ_TX_SEQ c.val + 1) % 65536)).2⟩])
          ∧ (s.ste.waiting.Pairwise (fun a b => a.conn ≤ b.conn) → t.ste.waiting.Pairwise (fun a b => a.conn ≤ b.conn)))
      ∧ (telDue s c.val = true → s.ste.held = [] → (∀ w, w ∈ s.ste.waiting → w.conn ≠ c.val) →
        let w := ((s.set F.STE_CONNc_SEQ_TX_SEQ c.val (s.get F.STE_CONNc_SEQ_TX_SEQ c.val + 1)).updConn c.val (fun y => { y with built := s.cycle + 1 }))
        let data := (telData w c.val ((s.get F.STE_CONNc_SEQ_TX_SEQ c.val + 1) % 65536)).2
        let tel := fun (x : Nat) => (⟨c.val, x, s.get F.STE_CONNc_TXID_ID c.val, s.flag F.STE_CONNc_TXID_IDE c.val, !s.flag F.STE_CONNc_CFG_FMT c.val, data⟩ : SteTx)
        let takes := fun (u : State) (x b : Nat) => u.flag (F.CANx_BUFCTRLb_TX_REQ.can x) b = true ∧ u.get (F.CANx_BUFb_W0_ID.can x) b = s.get F.STE_CONNc_TXID_ID c.val
          ∧ u.flag (F.CANx_BUFb_W0_FDF.can x) b = !s.flag F.STE_CONNc_CFG_FMT c.val
          ∧ ∀ k, k < 16 → u.get (bufDataFld x b) k = ofLeBytes (((pad64 (data.take (if s.flag F.STE_CONNc_CFG_FMT c.val then 8 else 64))).drop (4 * k)).take 4)
        (∀ x b, s.get F.STE_CONNc_CFG_DUP c.val = x → x < 2 → s.ste.waiting = [] → freeSteBuf s x = some b →
          ∃ u, exec (.telegramBuild c) s = .next (settled s u) ∧ takes u x b ∧ u.ste.held = [(x, b, c.val)] ∧ u.ste.waiting = [])
        ∧ (∀ a b, s.get F.STE_CONNc_CFG_DUP c.val = 2 → s.ste.waiting = [] → freeSteBuf s 0 = some a → freeSteBuf s 1 = some b →
          ∃ u, exec (.telegramBuild c) s = .next (settled s u) ∧ takes u 0 a ∧ takes u 1 b ∧ u.ste.held = [(1, b, c.val), (0, a, c.val)] ∧ u.ste.waiting = [])
        ∧ (∀ x, s.get F.STE_CONNc_CFG_DUP c.val = x → x < 2 → freeSteBuf s 0 = none → freeSteBuf s 1 = none → canDrives s = true →
          ∃ u, exec (.telegramBuild c) s = .next (settled s u) ∧ u.ste.waiting = waitInsert (tel x) s.ste.waiting ∧ u.ste.held = [])
        ∧ (∀ b h rest, s.get F.STE_CONNc_CFG_DUP c.val = 0 → s.ste.waiting = h :: rest → (∀ w, w ∈ h :: rest → w.x = 0 ∧ w.conn < c.val) →
          freeSteBuf s 0 = some b → (∀ d, d < 64 → d ≠ b → bufTx s 0 d = true → bufOwner s 0 d = ownSte → bufPending s 0 d = true ∨ s.flag (F.CANx_BUFCTRLb_HELD.can 0) d = true) →
          ∃ u, exec (.telegramBuild c) s = .next (settled s u) ∧ u.ste.held = [(0, b, h.conn)] ∧ u.ste.waiting = rest ++ [tel 0])))
    ∧ (∀ (f : SteFrame) (c : Nat), rxName s f = .conn c → s.ste.conns.length = 64 →
      let t := steFrame s f
      let fd := !s.flag F.STE_CONNc_CFG_FMT c
      let cid := cidRx (s.get F.STE_CONNc_CID_CID c)
      let len := f.fdf = fd ∧ f.data.length = (if fd then 64 else 8)
      let check := if fd then (engineCheck s 14 true cid (f.data.take 60)).2 = frameNum f 60 4 else (engineCheck s 15 false cid (f.data.take 5)).2 = frameNum f 5 3
      let kind := frameNum f 0 1 / 16
      let type := fd = false ∨ (frameNum f 0 1 % 16 = 1 ∧ (kind = 1 ∨ kind = 4))
      let depart := fd = true ∧ kind = 4
      let seq := if fd then frameNum f 1 2 else frameNum f 0 1
      let m := if fd then 65536 else 256
      let adv := fun (r : Nat) => (seq + m - r % m) % m
      let win := s.get F.STE_CONNc_CFG_WIN c
      let stays := connState t c = connState s c ∧ t.fab = s.fab ∧ t.get F.STE_CONNc_SEQ_RX_SEQ c = s.get F.STE_CONNc_SEQ_RX_SEQ c
      let rejected := fun (n : Fld) => t.get F.STE_STATUS_REJ_NEW = 1 ∧ t.get n c = satInc n.width (s.get n c) ∧ t.conn c = s.conn c ∧ stays
      let accepted := t.get F.STE_CONNc_SEQ_RX_SEQ c = seq % 65536 ∧ (t.conn c).last = f.ts ∧ (t.conn c).ref = none
        ∧ (¬depart → connState t c = cnValid ∧ ∀ i, i < s.get F.STE_CONNc_MAP_RX_COUNT c → s.get F.STE_CONNc_MAP_RX_FIRST c + i < 64 →
          bitAt t.fab.rxBits (s.get F.STE_CONNc_MAP_RX_FIRST c + i) = (if fd then !bitAt (frameNum f 3 1) 0 && bitAt (frameNum f 4 8) i else bitAt (frameNum f 1 4) i))
        ∧ (depart → connState t c = (if s.get F.STE_CONNc_CFG_CLASS c = 2 ∧ listens s = false then cnFree else cnValid))
      (¬len → rejected F.STE_CONNc_ERR_OTHER) ∧ (len → ¬check → rejected F.STE_CONNc_ERR_CHECK) ∧ (len → check → ¬type → rejected F.STE_CONNc_ERR_OTHER)
      ∧ (len → check → type → connState s c = cnValid →
        let a := adv (s.get F.STE_CONNc_SEQ_RX_SEQ c)
        (a = 0 → stays ∧ t.conn c = { s.conn c with dups := (s.conn c).dups + 1 }) ∧ (1 ≤ a → a ≤ win → accepted) ∧ (1 ≤ a → win < a → rejected F.STE_CONNc_ERR_SEQ))
      ∧ (len → check → type → connState s c ≠ cnValid →
        let waits := stays ∧ t.conn c = { s.conn c with ref := some (seq, f.ts) }
        ((s.conn c).ref = none → waits)
        ∧ ∀ r t0, (s.conn c).ref = some (r, t0) →
          let good := 1 ≤ adv r ∧ adv r ≤ win ∧ f.ts ≤ t0 + s.get F.STE_CONNc_CFG_TEXP c * cycleTicks
          (good → accepted) ∧ (¬good → waits)))
    ∧ (∀ c : Fin 64, atBoundary s = true → s.counting = true → coresRun s = true → s.ste.conns.length = 64 →
      let old := decide (s.get F.STE_CONNc_CFG_TEXP c.val * cycleTicks < s.cycleStart - (s.conn c.val).last)
      (connState s c.val = cnValid → old = true →
        ∃ t, exec (.connLapse c) s = .next t ∧ connState t c.val = cnLapsed ∧ t.get F.STE_STATUS_LAPSE_NEW = 1 ∧ (t.conn c.val).ref = none ∧ (t.conn c.val).lapsed = s.cycle
          ∧ (∀ i, i < s.get F.STE_CONNc_MAP_RX_COUNT c.val → s.get F.STE_CONNc_MAP_RX_FIRST c.val + i < 64 → bitAt t.fab.rxBits (s.get F.STE_CONNc_MAP_RX_FIRST c.val + i) = false)
          ∧ ∀ d, d < 64 → d ≠ c.val → connState t d = connState s d ∧ t.conn d = s.conn d)
      ∧ (connState s c.val ≠ cnValid ∨ old = false → Answers (.connLapse c) s s)
      ∧ (listens s = true → Answers (.dynHoldExpiry c) s s)
      ∧ (s.get F.STE_CONNc_CFG_CLASS c.val = 2 → connState s c.val = cnLapsed → listens s = false →
        ((s.conn c.val).lapsed + s.get F.STE_CFG_DYN_HOLD * 100 ≤ s.cycle →
          ∃ t, exec (.dynHoldExpiry c) s = .next t ∧ connState t c.val = cnFree ∧ t.get F.STE_CONNc_STAT_BOUND c.val = 0 ∧ t.get F.STE_STATUS_RELEASED = 1
            ∧ t.get F.STE_CONNc_CID_CID c.val = 0 ∧ t.get F.STE_CONNc_MAP_TX_PERIOD c.val = 0 ∧ ∀ d, d < 64 → d ≠ c.val → connState t d = connState s d)
        ∧ (s.cycle < (s.conn c.val).lapsed + s.get F.STE_CFG_DYN_HOLD * 100 → Answers (.dynHoldExpiry c) s s)))
    ∧ (coresRun s = false → (∀ c, Answers (.connLapse c) s s ∧ Answers (.dynHoldExpiry c) s s ∧ Answers (.telegramBuild c) s s) ∧ ∀ k, Answers (.announceExpired k) s s)
    ∧ (∀ k : Fin 4, listens s = true → Answers (.announceExpired k) s s)
    ∧ (∀ k : Fin 4, s.counting = true → coresRun s = true → listens s = false → s.flag F.STE_ANN_PENDk_VALID k.val = true →
      (10000 ≤ s.get F.STE_ANN_PENDk_AGE k.val →
        Answers (.announceExpired k) s ((((s.set F.STE_ANN_PENDk_VALID k.val 0).set F.STE_ANN_PENDk_WL k.val 0).set F.STE_ANN_PENDk_AGE k.val 0).set F.STE_ANN_PIDk_PID k.val 0 |>.putSte
          { s.ste with nonces := upd s.ste.nonces k.val (fun _ => 0) }))
      ∧ (s.get F.STE_ANN_PENDk_AGE k.val < 10000 → Answers (.announceExpired k) s s))

/-- An active INTLK_IN stops every line, and the link and its frames are accepted or discarded. When INTLK_IN rises every switch
opens, the traction link shows stop (but where EXTEST drives its cells in COMMISSIONING), the sources stop and the encoder
terminations disconnect; a unit that asserts INTLK_OUT yields, unless both rose within 600 ticks and it is the preferred
one; a rise and a fall of INTLK_IN are kept with their ticks. A deviating INTLK_OUT raises INTLK_ERR and with it NOT_READY,
and within 600 ticks of t_0 FIRST. Link-up exchanges strap, revision and digest, and raises PREF_CLASH and CFG_MISMATCH on
an equal strap and on a difference, but for the digest 0 of a partner that has not loaded (DEDUCED, log entry 123); with
PAIR_EN 0 the link counts as up only before the load, and nothing is judged. A frame with a bad CRC or of an undefined type
is counted and discarded, the sixteenth of a cycle takes the link down, any other is counted; STATUS tells the partner's
readiness, and a unit that hears collects image, ledger records and END under their numbers, until a frame, late or resent
ones too, completes the set that END counts. ACK_DIV is held while FORCE_STOP stands. What the link counters count is the
model's reading (log entry 64). (15_unit_pairing.md R344, 15_unit_pairing.md R345, 15_unit_pairing.md R347,
15_unit_pairing.md R349, 15_unit_pairing.md R351, 15_unit_pairing.md R356, 19_package_electrical.md R421) -/
def Obligations.InterlockAndLink : Prop :=
  ∀ s : State, LinesFollow s →
    (∃ t, exec (.intlkInChange true) s = .next t ∧ t.ext.intlkIn = true ∧ t.lines.src = false ∧ t.lines.encTerm = false
      ∧ (∀ k, k < 12 → switchClosed t k = false) ∧ t.lines.tlp = false ∧ t.lines.still = false ∧ ((s.dev = .comm → s.spu.jtag ≠ 3) → Restrictive t))
    ∧ (s.ext.intlkIn = false → s.lines.intlkOut = true → s.link.rose + 600 < s.now ∨ s.flag F.URED_STATE_PREF = false → follows s = true →
      ∃ u, exec (.intlkInChange true) s = .next (settled s u) ∧ u.role = .standby ∧ u.get F.URED_STATUS_YIELDED = 1 ∧ u.get F.URED_STATE_CLAIM = 0
        ∧ u.link.claimAt = none ∧ u.link.resync = 1)
    ∧ (s.ext.intlkIn = true ∨ s.lines.intlkOut = false ∨ (s.now ≤ s.link.rose + 600 ∧ s.flag F.URED_STATE_PREF = true) →
      exec (.intlkInChange true) s = .next (settled s (s.putExt { s.ext with intlkIn := true, roseIn := if s.ext.intlkIn = true then s.ext.roseIn else some s.now })))
    ∧ (s.ext.intlkIn = true → Answers (.intlkInChange false) s (s.putExt { s.ext with intlkIn := false, lowSince := s.now }))
    ∧ (s.ext.intlkIn = false → Answers (.intlkInChange false) s s)
    ∧ (s.portsUp = true → (∀ t0, s.link.t0 = some t0 → t0 + 600 < s.now) → Answers .intlkErr s (readyBoundary (s.indicate.set F.URED_STATUS_INTLK_ERR 0 1)))
    ∧ (∀ t0, s.portsUp = true → s.link.t0 = some t0 → s.now ≤ t0 + 600 → Answers .intlkErr s (readyBoundary
      (((s.set F.URED_FIRST_INTLK 0 1).set F.URED_STATUS_FIRST_ERR 0 1).indicate.set F.URED_STATUS_INTLK_ERR 0 1)))
    ∧ (s.portsUp = false → Answers .intlkErr s s)
    ∧ (∀ pref rev digest,
      (s.portsUp = true → s.flag F.URED_CFG_PAIR_EN = true →
        ∃ u, exec (.linkUp pref rev digest) s = .next (settled s u) ∧ u.get F.URED_STATE_LINK_UP = 1 ∧ u.get F.URED_STATUS_LINK_DOWN = 0
          ∧ u.link = { s.link with lanes := true, partner := some (pref, rev.toNat, digest.toNat), sentHello := some (hello s) }
          ∧ (pref = s.flag F.URED_STATE_PREF → u.get F.URED_STATUS_PREF_CLASH = 1)
          ∧ (pref ≠ s.flag F.URED_STATE_PREF → u.get F.URED_STATUS_PREF_CLASH = s.get F.URED_STATUS_PREF_CLASH)
          ∧ (rev.toNat ≠ devRev s ∨ (digest.toNat ≠ 0 ∧ digest.toNat ≠ digestNum s) → u.get F.URED_STATUS_CFG_MISMATCH = 1)
          ∧ (rev.toNat = devRev s → digest.toNat = digestNum s ∨ digest.toNat = 0 → u.get F.URED_STATUS_CFG_MISMATCH = s.get F.URED_STATUS_CFG_MISMATCH))
      ∧ (s.portsUp = false → Answers (.linkUp pref rev digest) s s)
      ∧ (s.portsUp = true → s.flag F.URED_CFG_PAIR_EN = false →
        let sent := if s.dev = .boot ∧ s.boot.stage = 2 then some (hello s) else s.link.sentHello
        Answers (.linkUp pref rev digest) s ((s.putLink { s.link with lanes := true, partner := some (pref, rev.toNat, digest.toNat), sentHello := sent }).set F.URED_STATE_LINK_UP 0 (if s.dev = .boot ∧ s.boot.stage = 2 then 1 else 0))))
    ∧ (s.flag F.URED_STATE_LINK_UP = true →
      ∃ u, exec .linkDown s = .next (settled s u) ∧ u.get F.URED_STATE_LINK_UP = 0 ∧ u.get F.URED_STATUS_LINK_DOWN = 1 ∧ u.get F.URED_STATE_PARTNER_READY = 0 ∧ u.get F.URED_STATE_READY = 0)
    ∧ (s.flag F.URED_STATE_LINK_UP = false → Answers .linkDown s (s.putLink { s.link with lanes := false }) ∧ ∀ f, Answers (.linkFrame f) s s)
    ∧ (∀ f : LinkFrame, s.flag F.URED_STATE_LINK_UP = true → s.flag F.URED_CFG_PAIR_EN = true →
      let w := s.set F.URED_LINK_FRAMES 0 (s.get F.URED_LINK_FRAMES + 1)
      let v := if f.resent = true then w.counted F.URED_LINK_RESENT else w
      let m := setBegin s.link f
      let bad := f.crcOk = false ∨ f.payload = .other
      let whole := fun (u : State) (c : Option CycleImage) (crc : Nat) =>
        u.link.image = c ∧ u.link.ack = m.setCycle ∧ u.get F.URED_CRC_PARTNER_CRC = crc % 2 ^ 32
      let waits := fun (u : State) => u.link.image = s.link.image ∧ u.get F.URED_CRC_PARTNER_CRC = s.get F.URED_CRC_PARTNER_CRC
      (bad → s.link.discards + 1 < 16 → Answers (.linkFrame f) s ((s.counted F.URED_LINK_CRC_ERR).putLink { s.link with discards := s.link.discards + 1 }))
      ∧ (bad → 16 ≤ s.link.discards + 1 → ∃ u, exec (.linkFrame f) s = .next (settled s u) ∧ u.get F.URED_STATE_LINK_UP = 0 ∧ u.get F.URED_STATUS_LINK_DOWN = 1)
      ∧ (∀ st, f.crcOk = true → f.payload = .status st →
        ∃ t, exec (.linkFrame f) s = .next t ∧ t.get F.URED_STATE_PARTNER_READY = b2n st.ready ∧ t.link.status = some st ∧ t.link.statusMissed = 0)
      ∧ (f.crcOk = true → hears s = true →
        (∀ recs, f.payload = .delta recs ∨ f.payload = .refresh recs →
          ∃ t, exec (.linkFrame f) s = .next t ∧ t.link.copyMem = (copyRecs s.link recs).copyMem ∧ t.get F.URED_SYNC_BACKLOG = b2n f.backlog
            ∧ (setWhole m = false → t.link.got = m.got ∧ waits t) ∧ ∀ e, m.setEnd = some e → setWhole m = true → whole t m.content e.2)
        ∧ (∀ bytes c, f.payload = .image bytes c →
          ∃ t, exec (.linkFrame f) s = .next t ∧ t.link.img = storeInsert m.img f.frameNo bytes ∧ t.link.content = m.content.or c
            ∧ (setWhole m = false → t.link.got = m.got ∧ waits t) ∧ ∀ e, m.setEnd = some e → setWhole m = true → whole t (m.content.or c) e.2)
        ∧ ∀ n crc, f.payload = .endFrame n crc →
          ∃ t, exec (.linkFrame f) s = .next t ∧ t.link.setEnd = some (n, crc)
            ∧ ((∀ i, i < n → i ∈ m.got) → whole t m.content crc) ∧ ∀ i, i < n → i ∉ m.got → t.link.got = m.got ∧ waits t)
      ∧ (f.crcOk = true → f.payload ≠ .other → hears s = false → (∀ st, f.payload ≠ .status st) → Answers (.linkFrame f) s v))
    ∧ (∀ p : HPort, s.portsUp = true →
      (s.flag F.URED_STATUS_FORCE_STOP = true → Answers (.ackDiv p) s (s.putReqs { s.reqs with ackDiv := true }))
      ∧ (s.flag F.URED_STATUS_FORCE_STOP = false → Answers (.ackDiv p) s s))

/-- A standby unit claims by takeover, at start-up or for a handover, drives 600 ticks after INTLK_IN is inactive, or is
blocked. In a unit that listens without a claim: a decided takeover and a handover whose track is quiet, each of a unit that
is still READY, and the start-up claim when due raise CLAIM with the tick of the claim and take every point out of use as
source; a decided takeover of a unit that is NOT_READY sets PARTNER_LOST instead, a handover that is NOT_READY or whose
track is not quiet ends with TB_ABORT, and without a reason nothing is claimed. A unit that is not preferred and claims
within 600 ticks of a rise of INTLK_IN yields at once. Once INTLK_IN has been inactive for 600 ticks since the claim, the
unit takes the ACTIVE role at that tick, and a takeover raises TAKEOVER and is counted. INTLK_IN active 1,800 ticks after
the claim raises TO_BLOCKED. What channels and ledger turns have due before is done before (log entry 78). That the start-up
claim looks at no NOT_READY, the tick from which a claimant drives and what is counted are the model's reading (log entries
66 and 68). (15_unit_pairing.md R345, 15_unit_pairing.md R346, 15_unit_pairing.md R358, 15_unit_pairing.md R359,
15_unit_pairing.md R364) -/
def Obligations.TakeoverClaims : Prop :=
  ∀ s : State, LinesFollow s →
    let claims := fun (c : Instr) (kind at_ : Nat) => ∃ u, exec c s = .next (settled s u) ∧ u.get F.URED_STATE_CLAIM = 1 ∧ u.link.claimAt = some at_
      ∧ u.link.claimKind = kind ∧ u.get40 F.URED_TO_TS_L_TS = ts40 at_ ∧ u.role = s.role ∧ ∀ p, p < 24 → s.points.length = 24 → (u.point p).blindTo = true
    let alone := fun (a : Nat) => s.ext.intlkIn = false ∨ (∀ r, s.ext.roseIn = some r → r + 600 < a) ∨ s.flag F.URED_STATE_PREF = true
    (listens s = true → s.flag F.URED_STATE_CLAIM = false →
      (s.link.decided = true → notReady s = 0 → alone s.now → claims .takeoverClaim 0 s.now)
      ∧ (s.link.decided = true → notReady s = 0 → ¬alone s.now → trainRuns s = true →
        ∃ u, exec .takeoverClaim s = .next (settled s u) ∧ u.get F.URED_STATE_CLAIM = 0 ∧ u.get F.URED_STATUS_YIELDED = 1 ∧ u.link.claimAt = none ∧ u.role = .standby)
      ∧ (s.link.decided = true → notReady s ≠ 0 →
        ∃ u, exec .takeoverClaim s = .next (settled s u) ∧ u.get F.URED_STATE_CLAIM = 0 ∧ u.get F.URED_STATUS_PARTNER_LOST = 1 ∧ u.link.lost = true ∧ u.link.decided = false)
      ∧ (s.link.decided = false → Answers .takeoverClaim s s)
      ∧ (atBoundary s = true → s.cycle = s.link.enteredAt + (if s.flag F.URED_STATE_PREF then 20 else 100) → intlkActive s = false → pairBad s = false → s.link.lost = false →
        (∀ i, s.link.lastImage = some i → i.role ≠ Role.active.code) → claims .roleClaim 2 s.now)
      ∧ (s.cycle ≠ s.link.enteredAt + (if s.flag F.URED_STATE_PREF then 20 else 100) → Answers .roleClaim s s)
      ∧ exec .handoverClaim s = .next (settled s (timed Sys2Proof.Machine.handoverClaim s))
      ∧ (calm s = true → s.link.handAt = some s.cycle → s.now ≤ s.cycleStart + 45000 →
        (notReady s = 0 → alone (s.cycleStart + 45000) → (∀ n, n < 48 → secUsed s n = true → secLull s n = true) → claims .handoverClaim 1 (s.cycleStart + 45000))
        ∧ (notReady s ≠ 0 ∨ (∃ n, n < 48 ∧ secUsed s n = true ∧ secLull s n = false) →
          ∃ u, exec .handoverClaim s = .next (settled s u) ∧ u.get F.URED_STATUS_TB_ABORT = 1 ∧ u.link.handAt = none ∧ u.get F.URED_STATE_CLAIM = 0))
      ∧ (s.link.handAt = none → Answers .handoverClaim s s))
    ∧ (∀ t0, s.link.claimAt = some t0 → s.flag F.URED_STATE_CLAIM = true →
      let td := max t0 s.ext.lowSince + 600
      exec .takeoverDrive s = .next (settled s (timed Sys2Proof.Machine.takeoverDrive s))
      ∧ (calm s = true → s.ext.intlkIn = false → s.role = .standby → follows s = true → s.due td = true → s.now ≤ td →
        ∃ u, exec .takeoverDrive s = .next (settled s u) ∧ u.role = .active ∧ u.now = td ∧ u.get F.URED_STATE_CLAIM = 0 ∧ u.get F.URED_STATE_READY = 0
          ∧ u.tookOver = some td ∧ u.link.claimAt = none
          ∧ (s.link.claimKind = 0 → u.get F.URED_STATUS_TAKEOVER = 1 ∧ u.get F.URED_CNT_TAKEOVERS = satInc F.URED_CNT_TAKEOVERS.width (s.get F.URED_CNT_TAKEOVERS))
          ∧ (s.link.claimKind = 1 → u.get F.URED_CNT_HANDOVERS = satInc F.URED_CNT_HANDOVERS.width (s.get F.URED_CNT_HANDOVERS)))
      ∧ (s.ext.intlkIn = true → Answers .takeoverDrive s s)
      ∧ (s.ext.intlkIn = true → s.due (t0 + 1800) = true →
        AnswersTimed .toBlocked Sys2Proof.Machine.toBlocked s (ured ((s.advanceTo (max s.now (t0 + 1800))).set F.URED_STATUS_TO_BLOCKED 0 1) 7))
      ∧ (s.ext.intlkIn = false → Answers .toBlocked s s))
    ∧ (s.link.claimAt = none → Answers .toBlocked s s ∧ Answers .takeoverDrive s s)

/-- Every reset leaves the reset state with its cause; release, lock and the monitors of the root clock. Power-on of an
unpowered device, a RESET_N pulse of at least 5 us, a lost PLL lock and two failed clock windows leave the reset state with
flash, pins and queue kept, the cause recorded and RESETS counted (0 after power); a pulse of at most 1 us, VIN at or below
VIN_START and a powered device's power-on change nothing; a pulse between them does either, which is left free (log entry
62). Release with a qualified resonator verifies each patch of the flash by its ROM revision and its signature over the
digest of level, revision and code, and records the check and the level (log entry 102: the key in ROM is a free value; the
order of the parts, which half of a signature is r, and the level of several are the model's choice) and fills the memories
with zeros; without it nothing changes, the lock starts the timestamp and the ports. A monitor's window is counted and
classed; one failed monitor in OPERATIONAL is disabled and raises Squall cause CLK_MON, the other's failure after it is the
second fault and takes every demand away. VIN_START, between 9.0 V and 9.5 V, is left free (log entry 62).
(18_power_clock_startup.md R398, 18_power_clock_startup.md R403, 18_power_clock_startup.md R404, 18_power_clock_startup.md
R406, 18_power_clock_startup.md R407, 18_power_clock_startup.md R409, 01_counting_model.md R40, 11_safety_processor.md R276) -/
def Obligations.ResetsAndRelease : Prop :=
  ∀ s : State, LinesFollow s →
    let rst := fun (v : State) (powered : Bool) (cause n : Nat) =>
      ({ State.reset with flash := v.flash, ext := { v.ext with powered := powered, lowSince := 0, roseIn := none }, pending := v.pending, freeCtr := v.freeCtr }.set F.CRU_RST_CAUSE_CAUSE 0 cause).set
        F.CRU_RST_CAUSE_RESETS 0 n
    let on := s.ext.powered
    let n := min (s.get F.CRU_RST_CAUSE_RESETS + 1) 255
    (∀ vin : BitVec 16,
      (s.ext.powered = false → 950 < vin.toNat → Answers (.powerOnReset vin) s (rst s true 1 0))
      ∧ (s.ext.powered = true ∨ vin.toNat ≤ 900 → Answers (.powerOnReset vin) s s))
    ∧ Answers .powerOnResetRearm s (rst s false 1 0)
    ∧ (∀ dur, (s.ext.powered = true → 50 ≤ dur → Answers (.resetPin dur) s (rst s on 2 n))
      ∧ (s.ext.powered = true → 10 < dur → dur < 50 → Answers (.resetPin dur) s s.fresh ∨ Answers (.resetPin dur) s (rst s.fresh on 2 n))
      ∧ (s.ext.powered = false ∨ dur ≤ 10 → Answers (.resetPin dur) s s))
    ∧ (s.portsUp = true → Answers .pllLockLoss s (rst s on 5 n))
    ∧ (s.portsUp = false → Answers .pllLockLoss s s)
    ∧ (∀ (ps : Option (List Patch)),
      let u := s.putFlash { s.flash with patches := ps.getD s.flash.patches }
      let good := patchesGood u
      (good = true ↔ ∀ p, p ∈ ps.getD s.flash.patches → p.rom.toNat = s.get F.SPU_FW_ROM_REV
        ∧ ecdsaP256 (sha256 (leBytes 1 p.level.toNat ++ leBytes 2 p.rom.toNat ++ p.code)) p.signature = true)
      ∧ (s.ext.powered = true → s.boot.stage = 0 → s.get F.DEV_STATE_STATE = 1 →
        Answers (.resetRelease ps true) s ((((((((u.set F.SPU_FW_PATCH_LVL 0 (patchLevel u)).set F.SPU_FW_PATCH_OK 0 (b2n good)).set F.SPU_STATUS_PATCH_ERR 0 (b2n (!good))).set
          F.URED_STATE_PREF 0 (b2n s.ext.prefGnd)).putBoot { s.boot with stage := 1 }).putSpu { s.spu with patchBad := !good }).putMem [])))
      ∧ (∀ q : Bool, s.ext.powered = false ∨ s.boot.stage ≠ 0 ∨ q = false → Answers (.resetRelease ps q) s s))
    ∧ (∀ seals,
      (s.boot.stage = 1 → s.get F.DEV_STATE_STATE = 1 →
        ∃ t, exec (.pllLock seals) s = .next t ∧ t.portsUp = true ∧ t.now = 0 ∧ t.cycle = 0 ∧ t.ext.lowSince = 0 ∧ t.boot.stage = 2
          ∧ t.boot.sealStart = (if (sealReading seals).2 = 0 then some (sealReading seals).1 else none) ∧ t.get F.CFG_SEAL_READ_SEAL = (sealReading seals).1)
      ∧ (s.boot.stage ≠ 1 → Answers (.pllLock seals) s s))
    ∧ (∀ (b : Bool) (count : BitVec 16),
      (s.portsUp = false → Answers (.monitorWindow b count none) s s)
      ∧ (s.portsUp = true → s.get (monSt b) ≠ 2 → s.get (monSt (!b)) = 0 →
        let ok := decide (6021 ≤ count.toNat ∧ count.toNat ≤ 6267)
        (ok = true → Answers (.monitorWindow b count none) s (((s.set (monCount b) 0 count.toNat).set (monWindows b) 0 (s.get (monWindows b) + 1)).set (monSt b) 0 0))
        ∧ (ok = false → s.dev = .oper → ∃ t, exec (.monitorWindow b count none) s = .next t ∧ t.get (monSt b) = 2 ∧ t.get (monFail b) = 1 ∧ t.get F.CRU_CLK_CLK_SQ = 1
          ∧ bitAt (t.get F.SPU_SQ_CAUSES) 3 = true ∧ t.spu.raised = s.spu.raised ++ [4] ∧ t.get (monCount b) = count.toNat))
      ∧ (s.portsUp = true → s.get (monSt b) ≠ 2 → s.get (monSt (!b)) = 2 → count.toNat < 6021 ∨ 6267 < count.toNat → follows s = true →
        ∃ t, exec (.monitorWindow b count none) s = .next t ∧ t.get (monSt b) = 2 ∧ t.get (monFail b) = 1 ∧ t.get F.SPU_SQ_SECOND = 4 ∧ t.toSafe = s.toSafe ++ [4]
          ∧ t.get F.FAB_OUTDEM_SOUT = 0 ∧ t.lines.sout = 0 ∧ t.lines.tlp = false ∧ t.lines.still = false)
      ∧ (∀ other : BitVec 16, s.portsUp = true → s.get (monSt b) ≠ 2 → s.get (monSt (!b)) ≠ 2 →
        count.toNat < 6021 ∨ 6267 < count.toNat → other.toNat < 6021 ∨ 6267 < other.toNat → Answers (.monitorWindow b count (some other)) s (rst s on 4 n)))

/-- The load ends in LOADED or SAFE, and STARTUP, COMMISSIONING and OPERATIONAL are entered at boundaries. A load with a read
error, a refused stream, a changed seal, a failed core or a bad patch ends in SAFE, causes 1, 8 and 9; a load in order with
the sealed reading unchanged is LOADED and goes on, to the wait for COMMISSIONING if the seal asks for it. At a boundary a
loaded unit without a partner enters STARTUP as ACTIVE, one with a partner as STANDBY, with every used section DISTURBED
with cause STARTUP; with both ENTER_COMM held a waiting unit enters COMMISSIONING. The end of calibration reports channels
without an offset; a complete sweep, or the fourth rotation with SWEEP_LATE, enters OPERATIONAL. A RESET older than 5 s
expires. A wrap of the timestamp due in the cycle moves the instant to it, what channels and ledger turns have due before
being done first (log entry 78). How the seals are read, and which SAFE_CAUSE stands where several causes hold (1 of a load
that fails first, then 8 of a failed core, 9 of a bad patch, 1 of a changed seal), is the model's reading (log entry 56).
(10_bitstream_seal.md R238, 11_safety_processor.md R264, 11_safety_processor.md R276, 16_host_ports.md R380,
16_host_ports.md R381, 18_power_clock_startup.md R410, 18_power_clock_startup.md R411, 18_power_clock_startup.md R413,
18_power_clock_startup.md R414, 00_scope.md R8) -/
def Obligations.LoadAndStartUp : Prop :=
  ∀ s : State, LinesFollow s →
    (∀ seals (fails : BitVec 3) readErr,
      (s.boot.stage ≠ 2 ∨ s.dev ≠ .boot → Answers (.loadEnd seals fails readErr) s s)
      ∧ (s.boot.stage = 2 → s.dev = .boot →
        let file := loadSlot s s.boot.sealStart (nth s.flash.slots s.flash.boot)
        let safe := fun (cause : Nat) => ∃ u, exec (.loadEnd seals fails readErr) s = .next (settled s u) ∧ u.dev = .safe ∧ u.get F.DEV_STATE_SAFE_CAUSE = cause
        (readErr ≠ none → safe 1)
        ∧ (∀ r, readErr = none → file = .error r → safe 1)
        ∧ (∀ n, readErr = none → file = .ok n → n.dev = .boot → n.boot = s.boot →
          (fails ≠ 0 → safe 8)
          ∧ (fails = 0 → s.spu.patchBad = true → safe 9)
          ∧ (fails = 0 → s.spu.patchBad = false → (sealReading seals).2 ≠ 0 ∨ s.boot.sealStart ≠ some (sealReading seals).1 →
            ∃ u, exec (.loadEnd seals fails readErr) s = .next (settled s u) ∧ u.dev = .safe ∧ u.get F.DEV_STATE_SAFE_CAUSE = 1 ∧ u.get F.CFG_STATUS_SEAL_CHG = 1)
          ∧ (fails = 0 → s.spu.patchBad = false → sealReading seals = (s.boot.sealStart.getD 0, 0) → s.boot.sealStart.isSome = true →
            ∃ u, exec (.loadEnd seals fails readErr) s = .next (settled s u) ∧ u.get F.CFG_STATUS_LOADED = 1
              ∧ u.boot.stage = (if bitAt (sealReading seals).1 15 then 4 else 3)))))
    ∧ (s.boot.stage = 3 → atBoundary s = true → s.dev = .boot →
      ∃ u, exec .startupEntry s = .next (settled s u) ∧ u.dev = .startup ∧ u.role = (if hasPartner s then .standby else .active) ∧ u.boot.stage = 5
        ∧ ∀ n, n < 48 → u.get F.SECT_n_STATE_STATE n = (if secUsed s n then 2 else 0) ∧ (secUsed s n = true → u.get F.SECT_n_STATE_CAUSE n = Cause.startup.code))
    ∧ (s.boot.stage ≠ 3 ∨ atBoundary s = false → Answers .startupEntry s s)
    ∧ (s.boot.stage = 4 → atBoundary s = true → s.dev = .boot → s.flag F.DEV_CMD_STAT_ENTER_A = true → s.flag F.DEV_CMD_STAT_ENTER_B = true →
      ∃ u, exec .commissioningEntry s = .next (settled s u) ∧ u.dev = .comm ∧ u.get F.DEV_STATE_BOOT_WAIT = 0 ∧ u.role = s.role)
    ∧ (s.boot.stage ≠ 4 ∨ s.flag F.DEV_CMD_STAT_ENTER_A = false ∨ s.flag F.DEV_CMD_STAT_ENTER_B = false → Answers .commissioningEntry s s)
    ∧ (s.dev = .startup → atBoundary s = true → s.cycle = s.boot.kc → ∀ p c, p < 24 → (s.point p).calAlt = true → c ∈ toneChans s → s.flag F.MEAS_CHn_CFG_OFFS_VALID c = false →
      ∃ u, exec .calEnd s = .next (settled s u) ∧ u.get F.CRU_STATUS_CAL_MISS = 1 ∧ ∀ q, q < 24 → (u.point q).calAlt = false)
    ∧ (s.dev ≠ .startup → Answers .calEnd s s ∧ Answers .operationalEntry s s ∧ Answers .sweepLate s s)
    ∧ (s.dev = .startup → atBoundary s = true → s.boot.ks < s.cycle → (s.cycle - s.boot.ks) % 50 = 0 → s.get F.CRU_START_ROTATIONS ≠ (s.cycle - s.boot.ks) / 50 →
      (sweepWhole s = true → ∃ u, exec .operationalEntry s = .next (settled s u) ∧ u.dev = .oper ∧ u.get40 F.CRU_OPER_TS_L_TS = ts40 s.now
        ∧ u.spu.ptDue = some (s.cycle + 600000) ∧ u.get F.CRU_STATUS_SWEEP_LATE = s.get F.CRU_STATUS_SWEEP_LATE)
      ∧ (sweepWhole s = false → Answers .operationalEntry s s)
      ∧ (sweepWhole s = false → s.cycle = s.boot.ks + 200 → ∃ u, exec .sweepLate s = .next (settled s u) ∧ u.dev = .oper ∧ u.get F.CRU_STATUS_SWEEP_LATE = 1))
    ∧ (s.portsUp = true → atBoundary s = true → resetPair s = false → ∀ a, (s.host 0).resetAt = some a → (s.host 1).resetAt = none →
      (a + 300000000 < s.now → Answers .resetExpired s (((s.updHost 0 (fun h => { h with resetAt := none })).set (resetBit 0) 0 0).set F.DEV_STATUS_CMD_EXPIRED 0 1))
      ∧ (s.now ≤ a + 300000000 → Answers .resetExpired s s))
    ∧ (let d := (s.now / 2 ^ 40 + 1) * 2 ^ 40
      (s.portsUp = true → s.due d = true → AnswersTimed .timestampWrap Sys2Proof.Machine.timestampWrap s (s.advanceTo d) ∧ (s.advanceTo d).now = d)
      ∧ (s.due d = false → Answers .timestampWrap s s))

/-- SAFETY_CYCLE_BOUNDARY begins the next cycle, does the boundary's work in order, and reads the balls and VIN. Without the
ports the boundary does nothing. Otherwise the running cycle's overdue work is done (log entry 6) and a fabric clock that it
leaves running ends (log entry 20), the cycle index steps, the instant is its first tick, and the ledger's turns due are
done (log entry 93); then, while counting runs, the pending values of earlier boundaries, the accepted commits (in this
order, log entry 114), the boundary's own input sample, a clock of the fabric and the snapshot (log entry 20), else the
commits, the sample, the clock and the fabric's part of the snapshot; the sensors and the start-up, the cores' boundary work
unless a HALT holds them, the cores' items and the keep-alive, the traction link and the ledger, the copies, the pairing's
end, then the entry to STARTUP or the dual-port reset, in the order of R42, and last the step of at most 4 ticks by which a
standby's count follows its partner's (R348, log entry 65). Where these log entries are named the order or the instant is
the model's choice. A unit whose ports answer afterwards shows the balls and VIN as the pins present them, and VIN below 9.0
V raises VIN_LOW. (01_counting_model.md R42, 12_safety_io_traction.md R293, 18_power_clock_startup.md R399) -/
def Obligations.BoundaryWork : Prop :=
  ∀ (s : State) (inp : BoundaryInputs),
    (s.portsUp = false → LinesFollow s → Answers (.safetyCycleBoundary inp) s s)
    ∧ (s.portsUp = true →
      let v := cycleEnd s
      let v := clockDone v v.nextBoundary
      let w := (v.putNow ((v.cycle + 1) * 60000)).putCycle (v.cycle + 1)
      let a := turnsDue (w.putLink { w.link with step := 0, discards := 0 })
      let b := grantExpire (startBoundary (sensorBoundary (if a.counting then boundaryApply a else bootApply a) inp))
      let c := ledgerBoundary (tlBoundary (keepAliveBoundary (coresWork (if b.flag F.SPU_STATUS_HALTED then b else coresBoundary b) inp.marker)))
      let d := axqAnswer (recCopy (axqAnswer (recCopy c 0) 0) 1) 1
      let e := if inp.bufCe0 then bufCorrected d 0 else d
      let f := pairEnd (if inp.bufCe1 then bufCorrected e 1 else e)
      let u := stepCount (yieldLate (pinsBoundary (if resetPair f then enterReset f 3 else startupEntry f) inp))
      exec (.safetyCycleBoundary inp) s = .next (settled s u)
        ∧ (resetPair f = true → u.portsUp = false)
        ∧ (u.portsUp = true → u.balls = (inp.soutHigh.toNat, inp.soutLow.toNat, inp.tlBalls.toNat) ∧ u.get F.CRU_VIN_VIN = inp.vin % 65536
          ∧ (inp.vin % 65536 < 900 → u.get F.CRU_STATUS_VIN_LOW = 1)
          ∧ ∀ k, k < 12 → u.get F.SIO_OUTk_STAT_SENSE_HI k = b2n (bitAt inp.soutHigh.toNat k) ∧ u.get F.SIO_OUTk_STAT_SENSE_LO k = b2n (bitAt inp.soutLow.toNat k)))

/-- The voter masks an odd core and halts on a lost majority; self-tests, tokens and the Squall limit. A lane is a transaction's
type, address and content with its check bits. With three running cores, equal lanes are issued, one odd lane masks its
core, records the mismatch and issues the majority, three different lanes halt with their bitwise majority recorded; with
two, equal lanes are issued and a difference halts; a mismatch indication on a fenced lane and an issued transaction that
its target rejects halt. HALT opens every switch, stops the traction link (but where EXTEST drives its cells in
COMMISSIONING), drops the telegrams that wait and takes a driving device to SAFE with cause 2; after it no transaction and
no verdict changes anything. A testing core's pass after fewer than three transients waits for resynchronisation, a third
transient or a failure fences it. A due periodic test starts on the next core. The cycle's right token is counted and grants
the trains to the end of the next cycle, any other raises KA_ERR. A Squall at its limit enters SAFE with cause 4. A due test
at a boundary to which not all cores came running raises DEFER and waits. The lanes with their check bits and the bitwise
majority of three (log entry 98), the token itself, a free value (log entry 58), and the self-test's verdict 24,000 ticks
after the boundary (log entry 3) are the model's choices. (11_safety_processor.md R253, 11_safety_processor.md R255,
11_safety_processor.md R256, 11_safety_processor.md R258, 11_safety_processor.md R260, 11_safety_processor.md R261,
11_safety_processor.md R263, 11_safety_processor.md R265, 11_safety_processor.md R270) -/
def Obligations.VoterAndCores : Prop :=
  ∀ s : State, LinesFollow s →
    (∀ x : VoterTxn, s.flag F.SPU_STATUS_HALTED = true → Answers (.voterTransaction x) s s)
    ∧ (∀ x : VoterTxn, s.flag F.SPU_STATUS_HALTED = false →
      let l0 := x.lane0
      let l1 := x.lane1
      let l2 := x.lane2
      let issued := fun (l : VoterLane) => some (⟨l.kind.toNat, l.addr.toNat, l.data.toNat, l.check.toNat⟩ : Issued)
      let recorded := fun (t : State) (kind addr : Nat) => t.get F.SPU_MM_INFO_TXN = kind ∧ t.get F.SPU_MM_ADDR_ADDR = addr
      let halts := fun (kind : Nat) (also : State → Prop) => ∃ u, exec (.voterTransaction x) s = .next (settled s u) ∧ u.get F.SPU_STATUS_HALTED = 1 ∧ u.get F.SPU_MM_INFO_KIND = kind ∧ u.spu.grantEnd = 0
        ∧ (follows s = true → u.dev = .safe ∧ u.get F.DEV_STATE_SAFE_CAUSE = 2 ∧ u.role = .detached) ∧ (s.dev = .comm → u.dev = .comm) ∧ u.ste.waiting = [] ∧ also u
        ∧ (∀ k, k < 12 → switchClosed (settled s u) k = false) ∧ (settled s u).lines.tlp = false ∧ (settled s u).lines.still = false ∧ ((s.dev = .comm → s.spu.jtag ≠ 3) → Restrictive (settled s u))
      let nothing := fun (u : State) => u.spu.issued = s.spu.issued
      let rejects := fun (l : VoterLane) => x.rejected = true → halts 5 (fun u => u.spu.issued = issued l ∧ recorded u l.kind.toNat l.addr.toNat)
      let issues := fun (l : VoterLane) => (x.rejected = false → Answers (.voterTransaction x) s (s.putSpu { s.spu with issued := issued l })) ∧ rejects l
      let masks := fun (k : Nat) (l : VoterLane) => (x.rejected = false → ∃ t, exec (.voterTransaction x) s = .next t ∧ coreSt t k = 1 ∧ t.get F.SPU_MM_INFO_KIND = 1
        ∧ t.get F.SPU_MM_INFO_CORE = k ∧ recorded t l.kind.toNat l.addr.toNat ∧ t.get F.SPU_STATUS_MM_NEW = 1 ∧ t.get F.SPU_STATUS_HALTED = 0
        ∧ t.spu.issued = issued l ∧ ∀ j, j < 3 → j ≠ k → coreSt t j = 0) ∧ rejects l
      (∀ k, x.fenced = some k → coreSt s k.val = 4 → halts 4 nothing)
      ∧ ((∀ k, x.fenced = some k → coreSt s k.val ≠ 4) →
        (coreSt s 0 = 0 → coreSt s 1 = 0 → coreSt s 2 = 0 →
          (l0 = l1 → l1 = l2 → issues l0)
          ∧ (l0 = l1 → l1 ≠ l2 → masks 2 l0) ∧ (l0 = l2 → l0 ≠ l1 → masks 1 l0) ∧ (l1 = l2 → l0 ≠ l1 → masks 0 l1)
          ∧ (l0 ≠ l1 → l1 ≠ l2 → l0 ≠ l2 → halts 2 (fun u => nothing u
            ∧ recorded u ((l0.kind &&& l1.kind) ||| (l1.kind &&& l2.kind) ||| (l0.kind &&& l2.kind)).toNat
              ((l0.addr &&& l1.addr) ||| (l1.addr &&& l2.addr) ||| (l0.addr &&& l2.addr)).toNat)))
        ∧ (coreSt s 0 = 0 → coreSt s 1 = 0 → coreSt s 2 ≠ 0 → (l0 = l1 → issues l0) ∧ (l0 ≠ l1 → halts 3 nothing))
        ∧ (coreSt s 0 = 0 → coreSt s 1 ≠ 0 → coreSt s 2 = 0 → (l0 = l2 → issues l0) ∧ (l0 ≠ l2 → halts 3 nothing))
        ∧ (coreSt s 0 ≠ 0 → coreSt s 1 = 0 → coreSt s 2 = 0 → (l1 = l2 → issues l1) ∧ (l1 ≠ l2 → halts 3 nothing))))
    ∧ (∀ (k : Fin 3) pass, coreSt s k.val ≠ 2 ∨ s.flag F.SPU_STATUS_HALTED = true → Answers (.selfTestDone k pass) s s)
    ∧ (∀ (k : Fin 3) pass, exec (.selfTestDone k pass) s = .next (settled s (timed (selfTest · k.val pass) s)))
    ∧ (∀ k : Fin 3, coreSt s k.val = 2 → s.flag F.SPU_STATUS_HALTED = false → calm s = true → DriveSteady (s.advanceTo (max s.now (s.cycleStart + 24000))) →
      (testOf s k.val ≠ 2 → (transWin s k.val).length < 2 → ∃ t, exec (.selfTestDone k true) s = .next t ∧ coreSt t k.val = 3 ∧ t.get F.SPU_STATUS_TRANS_NEW = 1
        ∧ t.get F.SPU_COREk_CNT_WIN k.val = (transWin s k.val).length + 1 ∧ ∀ j, j < 3 → j ≠ k.val → coreSt t j = coreSt s j)
      ∧ (testOf s k.val = 2 → ∃ t, exec (.selfTestDone k true) s = .next t ∧ coreSt t k.val = 3 ∧ t.get F.SPU_COREk_CNT_PT_PASS k.val = satInc F.SPU_COREk_CNT_PT_PASS.width (s.get F.SPU_COREk_CNT_PT_PASS k.val)
        ∧ t.spu.trans = s.spu.trans)
      ∧ (testOf s k.val ≠ 2 → 2 ≤ (transWin s k.val).length → s.dev = .oper → ∃ t, exec (.selfTestDone k true) s = .next t ∧ coreSt t k.val = 4 ∧ t.get F.SPU_COREk_CNT_WIN k.val = 3
        ∧ t.get F.SPU_STATUS_FENCE_NEW = 1 ∧ t.spu.raised = s.spu.raised ++ [1])
      ∧ (s.dev = .oper → ∃ t, exec (.selfTestDone k false) s = .next t ∧ coreSt t k.val = 4 ∧ t.get F.SPU_COREk_CNT_FAILED k.val = 1 ∧ t.get F.SPU_STATUS_FENCE_NEW = 1
        ∧ bitAt (t.get F.SPU_SQ_CAUSES) 0 = true ∧ t.spu.raised = s.spu.raised ++ [1]))
    ∧ (atBoundary s = true → coresRun s = true → s.dev = .oper → ∀ d, s.spu.ptDue = some d →
      (s.cycle < d → Answers .periodicTestDue s s)
      ∧ (d ≤ s.cycle → (∃ k, k < 3 ∧ coreSt s k ≠ 0) ∨ s.spu.ranAll = false → Answers .periodicTestDue s (s.set F.SPU_PT_DEFER 0 1))
      ∧ (d ≤ s.cycle → (∀ k, k < 3 → coreSt s k = 0) → s.spu.ranAll = true → s.get F.SPU_PT_NEXT < 3 →
        ∃ t, exec .periodicTestDue s = .next t ∧ coreSt t (s.get F.SPU_PT_NEXT) = 2 ∧ t.get F.SPU_PT_NEXT = (s.get F.SPU_PT_NEXT + 1) % 3 ∧ t.spu.ptDue = some (d + 600000) ∧ t.get F.SPU_PT_DEFER = 0))
    ∧ (∀ v : Word, (coresRun s = false → Answers (.keepaliveToken v) s s)
      ∧ (coresRun s = true → s.spu.tokenOk = false → v = Config.tokenOf s.cycle → exec (.keepaliveToken v) s = .next (settled s (yieldLate
        ((s.set F.SPU_KA_TOKENS 0 (s.get F.SPU_KA_TOKENS + 1)).putSpu { s.spu with tokenOk := true, grantEnd := (s.cycle + 2) * 60000 }))))
      ∧ (coresRun s = true → s.spu.tokenOk = true ∨ v ≠ Config.tokenOf s.cycle → Answers (.keepaliveToken v) s (s.indicate.set F.SPU_STATUS_KA_ERR 0 1)))
    ∧ (s.spu.grantEnd ≤ s.now → ∃ t, exec .keepaliveGrantExpiry s = .next t ∧ Result s (s.putSpu { s.spu with grantEnd := 0 }) t
        ∧ (∀ k, k < 12 → switchClosed t k = false) ∧ t.lines.tlp = false ∧ t.lines.still = false ∧ ((s.dev = .comm → s.spu.jtag ≠ 3) → Restrictive t))
    ∧ (s.now < s.spu.grantEnd → Answers .keepaliveGrantExpiry s s)
    ∧ (atBoundary s = true → s.dev = .squall → coresRun s = true →
      (s.cycle - s.spu.sqEntry < s.get F.SPU_SQ_CFG_SQ_LIMIT * 60000 →
        Answers .squallLimit s ((s.putSpu { s.spu with raised := [] }).set F.SPU_SQ_ELAPSED_CYCLES 0 (s.cycle - s.spu.sqEntry)))
      ∧ (s.get F.SPU_SQ_CFG_SQ_LIMIT * 60000 ≤ s.cycle - s.spu.sqEntry →
        ∃ u, exec .squallLimit s = .next (settled s u) ∧ u.dev = .safe ∧ u.role = .detached ∧ u.get F.DEV_STATE_SAFE_CAUSE = 4 ∧ u.get F.SPU_SQ_SECOND = 7))
    ∧ (s.dev ≠ .squall → Answers .squallLimit s s)

/-- The test port selects its instructions, and the debugger acts in COMMISSIONING only, through the replay buffer. Every test-
port command selects its instruction and closes the debug protocol, but for the vendor instruction in COMMISSIONING, which
opens it and elsewhere selects BYPASS; SAMPLE/PRELOAD, and EXTEST outside COMMISSIONING alike, sample the lines and preload
the cells with what the tester shifted in, a free value; EXTEST in COMMISSIONING samples the lines and drives the cells.
While the protocol is open, halt by request or at a set breakpoint or watchpoint, resume and step act on the cores; a write
acts on CORE0 at once and waits in the replay buffer of 64 entries, which drains oldest first to the other cores, the memory
and the devices; a write beyond them stalls the protocol and enters then. A step or a resume lets the buffer drain whole
first; a stalled protocol takes no command. Closed, the debugger changes nothing. That DBG_TRST_N selects IDCODE is presumed
(log entry 63); when memory and devices take a write, which commands a stall holds and what one firmware instruction does
are the model's (log entry 100), the cells held in `Lines` too (log entry 101). (11_safety_processor.md R273,
11_safety_processor.md R274, 11_safety_processor.md R275, 18_power_clock_startup.md R406) -/
def Obligations.DebugAndTestPort : Prop :=
  ∀ s : State, LinesFollow s →
    let select := fun (u : State) (i : Nat) => (u.set F.SPU_DBG_EN 0 (if i = 4 then 1 else 0)).putSpu { u.spu with jtag := i }
    let sampled := (s.set F.SPU_DBG_EN 0 0).putSpu { s.spu with jtag := 2, scanLines := s.lines, scanExt := s.ext }
    Answers .bypass s (select s 0) ∧ Answers .idcode s (select s 1) ∧ Answers .testLogicReset s (select s 1) ∧ (∃ cells : BitVec 3, let pre := sampled.fresh.putSpu { sampled.fresh.spu with preload := cells.toNat }
      Answers .samplePreload s pre ∧ (s.dev ≠ .comm → Answers .extest s pre))
    ∧ (s.dev = .comm → (∃ t, exec .extest s = .next t ∧ Result s (select sampled 3) t ∧ t.lines.stopN = bitAt s.spu.preload 0 ∧ t.lines.tlDrive = bitAt s.spu.preload 1
      ∧ t.lines.encClk = bitAt s.spu.preload 2 ∧ (bitAt s.spu.preload 2 = false → t.lines.encTerm = false)) ∧ Answers .vendorDebug s (select s 4))
    ∧ (s.dev ≠ .comm → Answers .vendorDebug s (select s 0))
    ∧ (debugOpen s = false → (∀ hit, Answers (.debugHalt hit) s s) ∧ Answers .debugStep s s ∧ Answers .debugResume s s ∧ (∀ w, Answers (.debugWrite w) s s) ∧ Answers .replayDrain s s)
    ∧ (debugOpen s = true →
      (s.flag F.SPU_DBG_HALTED = false →
        (s.spu.stalled = none → Answers (.debugHalt false) s (s.set F.SPU_DBG_HALTED 0 1))
        ∧ ((∃ a, some a ∈ s.spu.breaks ++ s.spu.watches) → Answers (.debugHalt true) s ((s.set F.SPU_DBG_HALTED 0 1).counted F.SPU_DBG_BP_HITS))
        ∧ ((∀ a, some a ∉ s.spu.breaks ++ s.spu.watches) → Answers (.debugHalt true) s s)
        ∧ Answers .debugStep s s)
      ∧ (s.flag F.SPU_DBG_HALTED = true → ∀ hit, Answers (.debugHalt hit) s s)
      ∧ (s.spu.stalled ≠ none → Answers (.debugHalt false) s s ∧ Answers .debugStep s s ∧ Answers .debugResume s s ∧ ∀ w, Answers (.debugWrite w) s s)
      ∧ (s.spu.stalled = none → s.spu.replay = [] →
        Answers .debugResume s (s.set F.SPU_DBG_HALTED 0 0)
        ∧ (s.flag F.SPU_DBG_HALTED = true → ∃ t, exec .debugStep s = .next t ∧ (∃ cs, Result s (s.putSpu { s.spu with cores := cs }) t)
          ∧ (s.spu.cores.length = 3 → ∀ k, k < 3 →
            let a := coreArch s k
            let r := Config.coreStep a.regs a.mem a.pos (coreWord s)
            coreArch t k = if coreSt s k = 0 then ⟨r.1, r.2.1, r.2.2⟩ else a)))
      ∧ (s.spu.stalled = none →
        exec .debugResume s = .next (settled s ((replayAll s).set F.SPU_DBG_HALTED 0 0)) ∧ (s.flag F.SPU_DBG_HALTED = true → exec .debugStep s = .next (settled s (coresStep (replayAll s) (coreWord (replayAll s))))))
      ∧ (∀ w, s.spu.stalled = none → s.spu.replay.length < 64 →
        let u := s.putSpu { s.spu with replay := s.spu.replay ++ [w] }
        Answers (.debugWrite w) s ((debugCore0 u w).set F.SPU_DBG_REPLAY_LVL 0 (s.spu.replay.length + 1))
        ∧ (∀ n, w.target = .coreReg n → s.spu.cores.length = 3 → ∃ t, exec (.debugWrite w) s = .next t ∧ storeGet 0 (coreArch t 0).regs n.toNat = w.value.toNat ∧ coreArch t 1 = coreArch s 1
          ∧ coreArch t 2 = coreArch s 2)
        ∧ (∀ k b, w.target = .breakpoint k b → s.spu.breaks.length = 8 → ∃ t, exec (.debugWrite w) s = .next t ∧ t.spu.breaks[k.val]? = some (if b = true then some w.value.toNat else none))
        ∧ (∀ k b, w.target = .watchpoint k b → s.spu.watches.length = 4 → ∃ t, exec (.debugWrite w) s = .next t ∧ t.spu.watches[k.val]? = some (if b = true then some w.value.toNat else none)))
      ∧ (∀ w, s.spu.stalled = none → 64 ≤ s.spu.replay.length → Answers (.debugWrite w) s (s.putSpu { s.spu with stalled := some w }))
      ∧ (s.spu.replay = [] → Answers .replayDrain s s)
      ∧ (∀ w ws, s.spu.replay = w :: ws →
        let u := debugDeliver (s.putSpu { s.spu with replay := ws, stalled := none }) w
        let v := u.set F.SPU_DBG_REPLAY_LVL 0 u.spu.replay.length
        (s.spu.stalled = none → exec .replayDrain s = .next (settled s v))
        ∧ (∀ x, s.spu.stalled = some x → exec .replayDrain s = .next (settled s (replayPut v x)))
        ∧ (∀ n, s.spu.stalled = none → w.target = .coreReg n → s.spu.cores.length = 3 → ∃ t, exec .replayDrain s = .next t ∧ t.spu.replay = ws
          ∧ storeGet 0 (coreArch t 1).regs n.toNat = w.value.toNat ∧ storeGet 0 (coreArch t 2).regs n.toNat = w.value.toNat ∧ coreArch t 0 = coreArch s 0)
        ∧ (∀ a, s.spu.stalled = none → w.target = .memory a → a.toNat % 4 = 0 → 0x600000 ≤ a.toNat → a.toNat < 0xA00000 → inJournal a.toNat = false →
          ∃ t, exec .replayDrain s = .next t ∧ t.memWord a.toNat = w.value.toNat ∧ t.spu.replay = ws
            ∧ ∀ b, inJournal b = false → b < a.toNat ∨ a.toNat + 4 ≤ b → t.byte b = s.byte b)
        ∧ (∀ x n, s.spu.stalled = some x → w.target = .coreReg n → ws.length < 64 → ∃ t, exec .replayDrain s = .next t ∧ t.spu.replay = ws ++ [x] ∧ t.spu.stalled = none
          ∧ t.get F.SPU_DBG_REPLAY_LVL = ws.length + 1)))

/-- Filter timers, scrubbing, configuration memory, the seal reading, commits and their evaluation, and uploads. A due filter
time moves the instant to it and the fabric settles there; what channels and ledger turns have due before this or a seal
reading is done first (log entry 78). Once the load has started it, the scrubber reads word after word and begins again
after the last, a single-bit error is corrected and counted, a double-bit error, whoever reads it, raises UE, forces the
demands to 0 and outside COMMISSIONING holds SAFE cause 3. The configuration memory is written in COMMISSIONING only. A
changed periodic seal reading raises SEAL_CHG and in OPERATIONAL holds SAFE cause 6, an unchanged one is kept. COMMIT waits
for the boundary, DISCARD empties the port's set unless it waits. A waiting set evaluated there (commitEval) is refused
whole and kept, with COMMIT_ERR, on the first of RANGE, MISSING, RULE, STATE and ROLE, with the address that the failing
rule gives; an accepted one empties the set, every SHADOW field in it takes its value, and a point's excitation, curve and
threshold values become pending, or cease to be when they equal those in force. An upload is started, fed, aborted and
completed by its port in COMMISSIONING; a slot is programmed as the words arrive, a part that fails its check ends the
upload, and the part after which nothing is missing begins the last check. That every reading is shown, and what a commit
does outside the running states, is the model's reading (log entry 76). (09_section_fabric.md R214, 09_section_fabric.md
R224, 09_section_fabric.md R226, 09_section_fabric.md R227, 10_bitstream_seal.md R240, 10_bitstream_seal.md R243,
10_bitstream_seal.md R244, 10_bitstream_seal.md R246, 10_bitstream_seal.md R241, 10_bitstream_seal.md R245, 02_excitation.md
R59) -/
def Obligations.FabricAndConfiguration : Prop :=
  ∀ s : State, LinesFollow s →
    (∀ (tile : Fin 2048) (ch : Fin 4),
      (filterTimer s tile.val ch.val = none → Answers (.filterTimerExpiry tile ch) s s)
      ∧ ∀ d, filterTimer s tile.val ch.val = some d → s.due d = true →
        AnswersTimed (.filterTimerExpiry tile ch) (filterExpire · tile.val ch.val) s (fabSettle (s.advanceTo d)) ∧ (fabSettle (s.advanceTo d)).now = max s.now d)
    ∧ (s.boot.stage < 3 → ∀ f, Answers (.scrubWord f) s s)
    ∧ (s.portsUp = false → ∀ w, Answers (.doubleBitError w) s s)
    ∧ (3 ≤ s.boot.stage →
      (s.get F.FAB_SCRUB_WORD + 1 = 524288 → ∀ f, ∃ t, exec (.scrubWord f) s = .next t ∧ t.get F.FAB_SCRUB_WORD = 0)
      ∧ (s.get F.FAB_SCRUB_WORD + 1 < 524288 →
        Answers (.scrubWord .clean) s (s.set F.FAB_SCRUB_WORD 0 (s.get F.FAB_SCRUB_WORD + 1))
        ∧ ∀ bit : Fin 72, ∃ t, exec (.scrubWord (.single bit)) s = .next t ∧ t.get F.FAB_SCRUB_WORD = s.get F.FAB_SCRUB_WORD + 1
          ∧ t.get F.FAB_CE_CNT_CE_TOTAL = satInc F.FAB_CE_CNT_CE_TOTAL.width (s.get F.FAB_CE_CNT_CE_TOTAL) ∧ t.get F.FAB_STATUS_CE_NEW = 1
          ∧ t.get F.FAB_CE_LAST_WORD = s.get F.FAB_SCRUB_WORD ∧ t.get F.FAB_CE_LAST_BIT = bit.val)
      ∧ (s.get F.FAB_SCRUB_WORD + 1 < 524288 → ∃ t, exec (.scrubWord .double) s = .next t ∧ t.get F.FAB_SCRUB_WORD = s.get F.FAB_SCRUB_WORD + 1 ∧ t.get F.FAB_STATUS_UE = 1
        ∧ t.get F.FAB_OUTDEM_SOUT = 0 ∧ t.lines.sout = 0 ∧ t.toSafe = (if s.dev = .comm then s.toSafe else s.toSafe ++ [3])))
    ∧ (s.portsUp = true →
      (∀ w : Fin 524288, ∃ t, exec (.doubleBitError w) s = .next t ∧ t.get F.FAB_STATUS_UE = 1 ∧ t.get F.FAB_OUTDEM_SOUT = 0 ∧ t.lines.sout = 0 ∧ t.lines.tlp = false ∧ t.lines.still = false
        ∧ (s.flag F.FAB_UE_ADDR_VALID = false → t.get F.FAB_UE_ADDR_WORD = w.val) ∧ t.toSafe = (if s.dev = .comm then s.toSafe else s.toSafe ++ [3])))
    ∧ (∀ (p : HPort) (a : Addr) (v : Word), s.portsUp = true → 0x200000 ≤ a.toNat → a.toNat < 0x600000 →
      (a.toNat % 4 ≠ 0 → Answers (.cfgMemWrite p a v) s (s.accErr p a.toNat true .unaligned))
      ∧ (a.toNat % 4 = 0 → s.dev ≠ .comm → Answers (.cfgMemWrite p a v) s (s.accErr p a.toNat true .state_))
      ∧ (a.toNat % 4 = 0 → s.dev = .comm → ∃ t, exec (.cfgMemWrite p a v) s = .next t ∧ t.memWord a.toNat = v.toNat ∧ t.get F.FAB_STATUS_DIRTY = 1
        ∧ ∀ b, inJournal b = false → b < a.toNat ∨ a.toNat + 4 ≤ b → t.byte b = s.byte b))
    ∧ (∀ seals : SealSamples,
      (s.cycle % 100 ≠ 0 ∨ s.portsUp = false → Answers (.sealReading seals) s s)
      ∧ (s.cycle % 100 = 0 → s.portsUp = true →
        exec (.sealReading seals) s = .next (settled s (timed (sealPeriodic · seals) s)) ∧
        let u := s.advanceTo (max s.now (s.cycleStart + 48000))
        let r := sealReading seals
        (r.2 = 0 → s.boot.sealStart = some r.1 → AnswersTimed (.sealReading seals) (sealPeriodic · seals) s (takeReading u seals))
        ∧ (r.2 ≠ 0 ∨ s.boot.sealStart ≠ some r.1 → s.dev = .oper → calm s = true → DriveSteady u →
          ∃ t, exec (.sealReading seals) s = .next t ∧ t.get F.CFG_STATUS_SEAL_CHG = 1 ∧ t.get F.CFG_SEAL_READ_SEAL = r.1 ∧ t.get F.CFG_SEAL_READ_UNSETTLED = r.2 ∧ t.toSafe = s.toSafe ++ [6])))
    ∧ (∀ p : HPort, s.portsUp = true →
      let k := p.toNat
      Answers (.commit p) s ((s.set (F.CFG_COMMIT_STAT_STATE.port k) 0 1).set (F.CFG_COMMIT_STAT_REASON.port k) 0 0)
      ∧ (let u := commitEval s k
        let set := (s.host k).shadow
        let n := withSet s set
        let failing := fun (rs : List Rule) => firstBad (set.map (·.1)) rs
        let reason :=
          if (failing (rangeRules n)).isSome then 3 else if (failing (missingRules s n (set.map (·.1)))).isSome then 2
          else if (failing (groupRules s n false)).isSome then 1
          else if s.dev = .reset ∨ s.dev = .boot ∨ s.dev = .safe ∨ s.flag F.SPU_STATUS_HALTED = true then 4 else if s.role = .standby then 5 else 0
        (commitState s k ≠ 1 → u = s)
        ∧ (commitState s k = 1 → reason ≠ 0 → commitState u k = 3 ∧ u.get (F.CFG_COMMIT_STAT_REASON.port k) = reason ∧ u.get F.CFG_STATUS_CFG_COMMIT_ERR = 1
          ∧ (∀ r, (reason = 3 ∧ failing (rangeRules n) = some r ∨ reason = 2 ∧ failing (missingRules s n (set.map (·.1))) = some r ∨ reason = 1 ∧ failing (groupRules s n false) = some r) →
            u.get (F.CFG_COMMIT_ADDR_ADDR.port k) = badAddr (set.map (·.1)) r % 2 ^ F.CFG_COMMIT_ADDR_ADDR.width)
          ∧ u.hosts = s.hosts ∧ u.points = s.points ∧ u.chans = s.chans ∧ u.link = s.link
          ∧ ∀ q, q ∉ [(F.CFG_COMMIT_STAT_STATE.port k).key 0, (F.CFG_COMMIT_STAT_REASON.port k).key 0, (F.CFG_COMMIT_ADDR_ADDR.port k).key 0,
            F.CFG_STATUS_CFG_COMMIT_ERR.key 0, F.JRN_HEAD_HEAD.key 0, F.JRN_STATUS_JRN_NEW.key 0] → storeGet 0 u.regs q = storeGet 0 s.regs q)
        ∧ (commitState s k = 1 → reason = 0 → commitState u k = 2 ∧ u.get (F.CFG_COMMIT_STAT_REASON.port k) = 0 ∧ u.get (F.CFG_COMMIT_STAT_PENDING.port k) = 0
          ∧ (u.host k).shadow = [] ∧ u.link.commits = s.link.commits ++ set
          ∧ (∀ a w d f, (a, w) ∈ set → (set.map (·.1)).Nodup → (∀ j, j < 24 → a ∉ pendRegs j) → regAt a = some d → (f, Cls.shadow) ∈ d.fields →
            u.get (portFld d 0 f) = fldOf d f w)
          ∧ (s.points.length = 24 → ∀ j, j < 24 → pointVals u j = pointVals s j
            ∧ (u.point j).pend = (if (pendRegs j).any (fun a => (set.map (·.1)).contains a) then (if pointVals n j = pointVals s j then none else some (pointVals n j)) else (s.point j).pend)
            ∧ ((pendRegs j).any (fun a => (set.map (·.1)).contains a) = true → (u.point j).pendAt = s.now ∧ (u.point j).force = false))))
      ∧ (commitState s k = 1 → Answers (.discard p) s (s.accErr p 0x120018 true .busy))
      ∧ (commitState s k ≠ 1 → Answers (.discard p) s ((((s.updHost k (fun h => { h with shadow := [] })).set (F.CFG_COMMIT_STAT_STATE.port k) 0 0).set (F.CFG_COMMIT_STAT_REASON.port k) 0 0).set
        (F.CFG_COMMIT_STAT_PENDING.port k) 0 (min 4095 ((s.updHost k (fun h => { h with shadow := [] })).host k).shadow.length)))
      ∧ (s.dev ≠ .comm → (∀ t, Answers (.uploadStart p t) s (s.accErr p 0x120080 true .state_)) ∧ Answers (.uploadAbort p) s (s.accErr p 0x120080 true .state_)
        ∧ ∀ w, Answers (.uploadData p w) s (s.accErr p 0x120084 true .state_))
      ∧ (s.dev = .comm →
        (s.up = none → Answers (.uploadAbort p) s s ∧ (∀ w, Answers (.uploadData p w) s s) ∧ Answers .upDone s s)
        ∧ (upState s ≠ 1 → upState s ≠ 2 → (∀ g : BitVec 2, g.toNat < 3 → ∃ t, exec (.uploadStart p g) s = .next t ∧ upState t = 1 ∧ t.get F.CFG_UP_STAT_ACCEPT = 1 ∧ t.get F.CFG_UP_STAT_UP_PORT = k
            ∧ t.get F.CFG_UP_STAT_CODE = 0 ∧ t.get F.CFG_UP_WORDS_WORDS = 0 ∧ t.up = some ⟨k, g.toNat, [], []⟩
            ∧ t.flash = (if g = 0 then s.flash else { s.flash with slots := upd s.flash.slots (g.toNat - 1) (fun _ => some []), valid := upd s.flash.valid (g.toNat - 1) (fun _ => false) }))
          ∧ Answers (.uploadStart p 3) s s)
        ∧ (upState s = 1 ∨ upState s = 2 → s.get F.CFG_UP_STAT_UP_PORT = k → ∀ t, Answers (.uploadStart p t) s s)
        ∧ (upState s = 1 ∨ upState s = 2 → s.get F.CFG_UP_STAT_UP_PORT ≠ k → ∀ t, Answers (.uploadStart p t) s (s.accErr p 0x120080 true .owner))
        ∧ (∀ u, s.up = some u →
          (u.port ≠ k → Answers (.uploadAbort p) s (s.accErr p 0x120080 true .owner) ∧ ∀ w, Answers (.uploadData p w) s (s.accErr p 0x120084 true .owner))
          ∧ (u.port = k → ∃ t, exec (.uploadAbort p) s = .next t ∧ upState t = 4 ∧ t.up = none ∧ t.get F.CFG_UP_STAT_ACCEPT = 0 ∧ t.get F.CFG_STATUS_UP_ERR = 1)
          ∧ (∀ w : Word, u.port = k → s.flag F.CFG_UP_STAT_ACCEPT = true → u.cur.length + 4 < partLen u →
            let v := { u with cur := (leBytes 4 w.toNat).reverse ++ u.cur }
            (u.target = 0 → Answers (.uploadData p w) s ((s.counted F.CFG_UP_WORDS_WORDS).putUp (some v)))
            ∧ (u.target = 1 ∨ u.target = 2 → ∃ t, exec (.uploadData p w) s = .next t ∧ t.up = some v ∧ t.get F.CFG_UP_WORDS_WORDS = satInc F.CFG_UP_WORDS_WORDS.width (s.get F.CFG_UP_WORDS_WORDS)
              ∧ t.flash = { s.flash with slots := upd s.flash.slots (u.target - 1) (fun _ => some (upBytes v)), valid := upd s.flash.valid (u.target - 1) (fun _ => false) }))
          ∧ (∀ w : Word, u.port = k → s.flag F.CFG_UP_STAT_ACCEPT = true → partLen u ≤ u.cur.length + 4 →
            let v := { u with cur := (leBytes 4 w.toNat).reverse ++ u.cur }
            let x := partProgram (s.counted F.CFG_UP_WORDS_WORDS) v
            (∀ r, partErr x v v.cur.reverse = some r → ∃ t, exec (.uploadData p w) s = .next t ∧ upState t = 4 ∧ t.up = none ∧ t.get F.CFG_UP_STAT_ACCEPT = 0 ∧ t.get F.CFG_STATUS_UP_ERR = 1
              ∧ t.get F.CFG_UP_STAT_CODE = r.err.code)
            ∧ (partErr x v v.cur.reverse = none → ∃ t, exec (.uploadData p w) s = .next t ∧ t.up = some { v with cur := [], parts := v.cur.reverse :: v.parts }
              ∧ (partLen u = 48 → upState t = 2 ∧ t.get F.CFG_UP_STAT_ACCEPT = 0) ∧ (partLen u ≠ 48 → upState t = upState s)))
          ∧ (∀ w : Word, u.port = k → s.flag F.CFG_UP_STAT_ACCEPT = false → ∃ t, exec (.uploadData p w) s = .next t ∧ upState t = 4 ∧ t.up = none ∧ t.get F.CFG_STATUS_UP_ERR = 1)
          ∧ (upState s ≠ 2 → Answers .upDone s s)
          ∧ (∀ v, upState s = 2 → u.target = 0 → upRam s u = .ok v → ∃ t, exec .upDone s = .next t ∧ upState t = 3 ∧ t.up = none ∧ t.get F.CFG_STATUS_UP_DONE = 1 ∧ t.get F.CFG_STATUS_LOADED = 1)
          ∧ (∀ v, upState s = 2 → u.target ≠ 0 → upSlot s u = .ok v → ∃ t, exec .upDone s = .next t ∧ upState t = 3 ∧ t.up = none ∧ t.get F.CFG_STATUS_UP_DONE = 1
            ∧ t.flash = { s.flash with slots := upd s.flash.slots (u.target - 1) (fun _ => some (upBytes u)), valid := upd s.flash.valid (u.target - 1) (fun _ => true) })
          ∧ (∀ r, upState s = 2 → (if u.target = 0 then upRam s u else upSlot s u) = .error r → ∃ t, exec .upDone s = .next t ∧ upState t = 4 ∧ t.up = none ∧ t.get F.CFG_STATUS_UP_ERR = 1))))

/-- After every step, a line that permits motion stands only under all the conditions of the rules that let it. Whatever the
state and the command in front of the queue, in the next state of a step: a switch is closed only in an ACTIVE unit in
STARTUP, OPERATIONAL or SQUALL with INTLK_IN inactive, with the grant of the keep-alive running and the cores not halted,
its output demanded and enabled, without fault or pulse; TL_PERMIT, TL_STOP_N and TL_STILL are driven only so and while
neither fault stop nor lapse nor readback fault holds, the first and last on their demands, TL_STOP_N also by its cell under
EXTEST in COMMISSIONING; the sources run and the encoder terminations connect only with INTLK_IN inactive in an ACTIVE unit,
in COMMISSIONING, or in a granted SAFE unit without a partner. Hence INTLK_IN active, HALT or a lapsed grant leave every
switch open. (02_excitation.md R53, 12_safety_io_traction.md R284, 12_safety_io_traction.md R294, 12_safety_io_traction.md
R295, 12_safety_io_traction.md R296, 15_unit_pairing.md R344, 11_safety_processor.md R273, 19_package_electrical.md R421) -/
def Obligations.LinesObeyTheirConditions : Prop :=
  ∀ s t : State, step s = .next t →
    let live := t.role = .active ∧ (t.dev = .startup ∨ t.dev = .oper ∨ t.dev = .squall) ∧ t.ext.intlkIn = false ∧ t.ext.lowSince + 600 ≤ t.now
      ∧ t.now < t.spu.grantEnd ∧ t.get F.SPU_STATUS_HALTED = 0
    let clear := t.flag F.TLNK_PIN_FSTOP = false ∧ t.flag F.TLNK_PIN_RSTOP = false ∧ t.flag F.TLNK_PIN_RBSTOP = false
    (∀ k, switchClosed t k = true → k < 12 ∧ live ∧ bitAt (t.get F.FAB_OUTDEM_SOUT) k = true ∧ t.flag F.SIO_OUTk_CFG_EN k = true ∧ t.get F.SIO_OUTk_STAT_FAULT_KIND k = 0
      ∧ (t.outPort k).pulse = none)
    ∧ (t.lines.tlp = true → live ∧ clear ∧ t.flag F.FAB_OUTDEM_TLP = true)
    ∧ (t.lines.stopN = true → (live ∧ clear) ∨ (t.dev = .comm ∧ t.spu.jtag = 3))
    ∧ (t.lines.still = true → live ∧ clear ∧ t.flag F.FAB_OUTDEM_TLS = true)
    ∧ (t.lines.src = true ∨ t.lines.encTerm = true → t.ext.intlkIn = false ∧ t.ext.lowSince + 600 ≤ t.now ∧ (t.role = .active ∨ t.dev = .comm
      ∨ (t.dev = .safe ∧ t.now < t.spu.grantEnd ∧ t.get F.SPU_STATUS_HALTED = 0 ∧ t.flag F.URED_STATE_LINK_UP = false)))
    ∧ (t.ext.intlkIn = true ∨ t.get F.SPU_STATUS_HALTED ≠ 0 ∨ t.spu.grantEnd ≤ t.now ∨ t.role ≠ .active →
      (∀ k, k < 12 → switchClosed t k = false) ∧ t.lines.tlp = false ∧ t.lines.still = false ∧ ((t.dev = .comm → t.spu.jtag ≠ 3) → Restrictive t))

/-- The state after reset drives nothing, has no command waiting and holds its stores in canonical form. After reset the lines
follow their conditions and are restrictive, the sources do not drive, the device is in RESET without ports, the unit is
DETACHED, the fabric demands nothing, no switch has a fault, the queue is empty, and memory and the register store have
their canonical form. (12_safety_io_traction.md R284, 12_safety_io_traction.md R294, 18_power_clock_startup.md R406,
18_power_clock_startup.md R407) -/
def Obligations.ResetIsRestrictive : Prop :=
  LinesFollow State.reset ∧ Restrictive State.reset ∧ State.reset.lines.src = false ∧ State.reset.dev = .reset ∧ State.reset.role = .detached ∧ State.reset.portsUp = false
    ∧ State.reset.pending = [] ∧ State.reset.get F.FAB_OUTDEM_SOUT = 0 ∧ (∀ k, k < 12 → State.reset.get F.SIO_OUTk_STAT_FAULT_KIND k = 0)
    ∧ State.reset.spu.grantEnd = 0 ∧ Memory.wf State.reset.mem = true ∧ Registers.wf State.reset.regs = true
end

