-- ==== Sys2Proof/WellFormed.lean ====
section
/-!
DEFINITION. Which commands are well formed: the relations between a command's operands that their types do not already say.
Register numbers, channels, buffers and every other index are bounded by their type. A command that is not well formed is one
that no host, bus or pin can send; the machine gives it a meaning all the same.
-/

namespace Sys2Proof

/-- An address names a register word (R374: an access at another address is an error UNALIGNED). -/
def aligned (a : Addr) : Bool := a.toNat % 4 == 0

/-- Bytes in the data field of a frame by its DLC (ISO 11898-1, R311). -/
def CanFrame.len (f : CanFrame) : Nat :=
  let d := f.dlc.toNat
  if d ≤ 8 then d
  else if !f.fdf then 8
  else if d = 9 then 12 else if d = 10 then 16 else if d = 11 then 20 else if d = 12 then 24
  else if d = 13 then 32 else if d = 14 then 48 else 64

/-- A frame as a bus can carry it: an 11-bit identifier in bits 28:18 leaves bits 17:0 at 0, a CAN FD frame is no remote frame,
BRS and ESI belong to CAN FD, and the data field has the length of the DLC, none in a remote frame. -/
def CanFrame.wf (f : CanFrame) : Bool :=
  (f.ide || f.id.toNat % 2 ^ 18 == 0) && !(f.fdf && f.rtr) && (f.fdf || (!f.brs && !f.esi))
    && f.data.length == (if f.rtr then 0 else f.len)

/-- A command is well formed. -/
def Instr.wf (i : Instr) : Bool :=
  match i with
  | .timestampWrap => true
  | .safetyCycleBoundary _ => true
  | .registerWrite _ addr _ => aligned addr
  | .pairHWrite _ addr _ => aligned addr
  | .pairLWrite _ addr _ => aligned addr
  | .pairLRead _ addr => aligned addr
  | .posRead _ _ => true
  | .cruTimeRead _ => true
  | .w1cClear _ addr _ => aligned addr
  | .readInc _ _ _ _ => true
  | .readFix _ _ _ _ => true
  | .writeInc _ n _ data _ _ => data.length == n.val + 1
  | .writeFix _ n _ data _ _ => data.length == n.val + 1
  | .repeatResponse _ _ _ => true
  | .altPhaseInversion => true
  | .pendingExcApply _ => true
  | .settlingEnd _ => true
  | .force _ _ => true
  | .cancel _ _ => true
  | .sourceFailure _ _ => true
  | .clampConduction _ onset last => decide (onset ≤ last)
  | .clampEpisodeEnd _ => true
  | .carrierLoss _ _ => true
  | .carrierReturn _ => true
  | .dampingSample _ _ _ _ _ => true
  | .calPairEnd _ => true
  | .refCapture _ _ _ => true
  | .refCaptureDone _ => true
  | .refErr _ => true
  | .snapGo _ _ => true
  | .snapDone => true
  | .monitorFlag _ _ _ => true
  | .monitorEpisodeEnd _ _ => true
  | .glitch _ => true
  | .toneVisitVerdict ch _ _ _ cross => match cross with | some x => x.1 != ch | none => true
  | .toneSelfCheck _ _ _ => true
  | .channelStale _ => true
  | .supClear _ _ _ => true
  | .faultyRelease _ => true
  | .zrefCapture _ _ _ => true
  | .zrefCaptureDone _ => true
  | .zrefErr _ => true
  | .holdExpiry _ => true
  | .linkWindowExpiry _ => true
  | .parked _ => true
  | .matchJobStart => true
  | .matchJobComplete _ => true
  | .quietFinal _ _ => true
  | .jobLate => true
  | .pop _ => true
  | .recReqGo _ _ => true
  | .supervised _ _ => true
  | .direct _ _ _ => true
  | .disturb _ _ => true
  | .directWithdraw _ => true
  | .directExpired _ => true
  | .identityRestore _ => true
  | .standbyDisturbReject _ => true
  | .speedStale _ => true
  | .pointLullEntry _ => true
  | .encoderFrame _ _ _ bits => decide (0 < bits.length) && decide (bits.length ≤ 64)
  | .encoderLate _ => true
  | .portLullEntry _ => true
  | .encoderFaultRelease _ => true
  | .portClear _ _ => true
  | .rearm _ _ => true
  | .disarm _ _ => true
  | .axqGo _ => true
  | .filterTimerExpiry _ _ => true
  | .scrubWord _ => true
  | .doubleBitError _ => true
  | .cfgMemWrite _ addr _ => aligned addr && decide (0x200000 ≤ addr.toNat) && decide (addr.toNat < 0x600000)
  | .powerOnReset _ => true
  | .resetPin _ => true
  | .resetRelease _ _ => true
  | .pllLock seals => seals.length == 5
  | .loadEnd seals _ _ => seals.length == 5
  | .sealReading seals => seals.length == 5
  | .commit _ => true
  | .discard _ => true
  | .uploadStart _ _ => true
  | .uploadAbort _ => true
  | .uploadData _ _ => true
  | .upDone => true
  | .voterTransaction _ => true
  | .selfTestDone _ _ => true
  | .periodicTestDue => true
  | .keepaliveToken _ => true
  | .keepaliveGrantExpiry => true
  | .squallLimit => true
  | .debugHalt _ => true
  | .debugStep => true
  | .debugResume => true
  | .debugWrite _ => true
  | .replayDrain => true
  | .bypass => true
  | .idcode => true
  | .samplePreload => true
  | .extest => true
  | .vendorDebug => true
  | .testLogicReset => true
  | .pairInputChange _ _ _ => true
  | .discrepancyFault _ => true
  | .clearIn _ _ => true
  | .clearOut _ _ => true
  | .testPulse _ => true
  | .pulseEnd _ _ => true
  | .stuckOff _ _ => true
  | .stuckOn _ => true
  | .overload _ => true
  | .overtemp _ => true
  | .tlpDrv => true
  | .tlsDrv => true
  | .tlForeign => true
  | .clearDrv _ => true
  | .tlTelegramFrame rx => rx.length == 64
  | .rxLapse => true
  | .canFrameReceived _ frame => frame.wf
  | .rxBufLock _ _ _ => true
  | .rxBufRelease _ _ _ => true
  | .lockRel _ _ _ => true
  | .txBufWrite _ _ _ _ _ => true
  | .txReq _ _ _ => true
  | .bufAbort _ _ _ => true
  | .reenable _ _ _ => true
  | .canFrameTransmitted _ _ => true
  | .canError _ _ => true
  | .busoffRecovery _ => true
  | .canRelease _ _ => true
  | .abortAll _ _ => true
  | .canControllerLost _ _ => true
  | .cvuStart _ _ => true
  | .data32 _ _ _ => true
  | .data16 _ _ _ => true
  | .data8 _ _ _ => true
  | .ctxWrite _ _ _ => true
  | .finish _ _ => true
  | .cvuRelease _ _ => true
  | .telegramBuild _ => true
  | .connLapse _ => true
  | .announceExpired _ => true
  | .accept _ _ => true
  | .refuse _ _ => true
  | .steRelease _ _ => true
  | .dynHoldExpiry _ => true
  | .intlkInChange _ => true
  | .toBlocked => true
  | .intlkErr => true
  | .roleClaim => true
  | .linkUp _ _ _ => true
  | .linkFrame _ => true
  | .linkDown => true
  | .ackDiv _ => true
  | .takeoverClaim => true
  | .takeoverDrive => true
  | .handoverClaim => true
  | .semTake _ _ id => id == 1 || id == 2
  | .semRelease _ _ => true
  | .freeOwn _ => true
  | .enterComm _ _ => true
  | .commissioningEntry => true
  | .resetCommand _ _ => true
  | .resetExpired => true
  | .goSafe _ _ => true
  | .devWithdraw _ _ => true
  | .gqFree _ _ => true
  | .bcwFreeze _ => true
  | .bcwUnfreeze => true
  | .bcwClearArm => true
  | .bcwClear => true
  | .bcwClearCancel v => v != 0x5A && v != 0xA5
  | .clearWindowExpiry => true
  | .monitorWindow _ _ _ => true
  | .pllLockLoss => true
  | .startupEntry => true
  | .calEnd => true
  | .sweepLate => true
  | .operationalEntry => true
  | .powerOnResetRearm => true
  | .lostArbitration _ => true
  | .protocolException _ => true

end Sys2Proof
end

