-- ==== Sys2Proof/Laws/PerInstr.lean ====
section
/-!
SUPPORT. One statement for each constructor of Instr: a well-formed command names register words only by aligned addresses
(R374), so no well-formed register access is an UNALIGNED error.
-/

namespace Sys2Proof

/-- The address that a command's operand gives a register or a memory word, where it has one that must be aligned. -/
def Instr.wordAddr (i : Instr) : Option Addr :=
  match i with
  | .timestampWrap => none
  | .safetyCycleBoundary _ => none
  | .registerWrite _ a _ => some a
  | .pairHWrite _ a _ => some a
  | .pairLWrite _ a _ => some a
  | .pairLRead _ a => some a
  | .posRead _ _ => none
  | .cruTimeRead _ => none
  | .w1cClear _ a _ => some a
  | .readInc _ _ _ _ => none
  | .readFix _ _ _ _ => none
  | .writeInc _ _ _ _ _ _ => none
  | .writeFix _ _ _ _ _ _ => none
  | .repeatResponse _ _ _ => none
  | .altPhaseInversion => none
  | .pendingExcApply _ => none
  | .settlingEnd _ => none
  | .force _ _ => none
  | .cancel _ _ => none
  | .sourceFailure _ _ => none
  | .clampConduction _ _ _ => none
  | .clampEpisodeEnd _ => none
  | .carrierLoss _ _ => none
  | .carrierReturn _ => none
  | .dampingSample _ _ _ _ _ => none
  | .calPairEnd _ => none
  | .refCapture _ _ _ => none
  | .refCaptureDone _ => none
  | .refErr _ => none
  | .snapGo _ _ => none
  | .snapDone => none
  | .monitorFlag _ _ _ => none
  | .monitorEpisodeEnd _ _ => none
  | .glitch _ => none
  | .toneVisitVerdict _ _ _ _ _ => none
  | .toneSelfCheck _ _ _ => none
  | .channelStale _ => none
  | .supClear _ _ _ => none
  | .faultyRelease _ => none
  | .zrefCapture _ _ _ => none
  | .zrefCaptureDone _ => none
  | .zrefErr _ => none
  | .holdExpiry _ => none
  | .linkWindowExpiry _ => none
  | .parked _ => none
  | .matchJobStart => none
  | .matchJobComplete _ => none
  | .quietFinal _ _ => none
  | .jobLate => none
  | .pop _ => none
  | .recReqGo _ _ => none
  | .supervised _ _ => none
  | .direct _ _ _ => none
  | .disturb _ _ => none
  | .directWithdraw _ => none
  | .directExpired _ => none
  | .identityRestore _ => none
  | .standbyDisturbReject _ => none
  | .speedStale _ => none
  | .pointLullEntry _ => none
  | .encoderFrame _ _ _ _ => none
  | .encoderLate _ => none
  | .portLullEntry _ => none
  | .encoderFaultRelease _ => none
  | .portClear _ _ => none
  | .rearm _ _ => none
  | .disarm _ _ => none
  | .axqGo _ => none
  | .filterTimerExpiry _ _ => none
  | .scrubWord _ => none
  | .doubleBitError _ => none
  | .cfgMemWrite _ a _ => some a
  | .powerOnReset _ => none
  | .resetPin _ => none
  | .resetRelease _ _ => none
  | .pllLock _ => none
  | .loadEnd _ _ _ => none
  | .sealReading _ => none
  | .commit _ => none
  | .discard _ => none
  | .uploadStart _ _ => none
  | .uploadAbort _ => none
  | .uploadData _ _ => none
  | .upDone => none
  | .voterTransaction _ => none
  | .selfTestDone _ _ => none
  | .periodicTestDue => none
  | .keepaliveToken _ => none
  | .keepaliveGrantExpiry => none
  | .squallLimit => none
  | .debugHalt _ => none
  | .debugStep => none
  | .debugResume => none
  | .debugWrite _ => none
  | .replayDrain => none
  | .bypass => none
  | .idcode => none
  | .samplePreload => none
  | .extest => none
  | .vendorDebug => none
  | .testLogicReset => none
  | .pairInputChange _ _ _ => none
  | .discrepancyFault _ => none
  | .clearIn _ _ => none
  | .clearOut _ _ => none
  | .testPulse _ => none
  | .pulseEnd _ _ => none
  | .stuckOff _ _ => none
  | .stuckOn _ => none
  | .overload _ => none
  | .overtemp _ => none
  | .tlpDrv => none
  | .tlsDrv => none
  | .tlForeign => none
  | .clearDrv _ => none
  | .tlTelegramFrame _ => none
  | .rxLapse => none
  | .canFrameReceived _ _ => none
  | .rxBufLock _ _ _ => none
  | .rxBufRelease _ _ _ => none
  | .lockRel _ _ _ => none
  | .txBufWrite _ _ _ _ _ => none
  | .txReq _ _ _ => none
  | .bufAbort _ _ _ => none
  | .reenable _ _ _ => none
  | .canFrameTransmitted _ _ => none
  | .canError _ _ => none
  | .busoffRecovery _ => none
  | .canRelease _ _ => none
  | .abortAll _ _ => none
  | .canControllerLost _ _ => none
  | .cvuStart _ _ => none
  | .data32 _ _ _ => none
  | .data16 _ _ _ => none
  | .data8 _ _ _ => none
  | .ctxWrite _ _ _ => none
  | .finish _ _ => none
  | .cvuRelease _ _ => none
  | .telegramBuild _ => none
  | .connLapse _ => none
  | .announceExpired _ => none
  | .accept _ _ => none
  | .refuse _ _ => none
  | .steRelease _ _ => none
  | .dynHoldExpiry _ => none
  | .intlkInChange _ => none
  | .toBlocked => none
  | .intlkErr => none
  | .roleClaim => none
  | .linkUp _ _ _ => none
  | .linkFrame _ => none
  | .linkDown => none
  | .ackDiv _ => none
  | .takeoverClaim => none
  | .takeoverDrive => none
  | .handoverClaim => none
  | .semTake _ _ _ => none
  | .semRelease _ _ => none
  | .freeOwn _ => none
  | .enterComm _ _ => none
  | .commissioningEntry => none
  | .resetCommand _ _ => none
  | .resetExpired => none
  | .goSafe _ _ => none
  | .devWithdraw _ _ => none
  | .gqFree _ _ => none
  | .bcwFreeze _ => none
  | .bcwUnfreeze => none
  | .bcwClearArm => none
  | .bcwClear => none
  | .bcwClearCancel _ => none
  | .clearWindowExpiry => none
  | .monitorWindow _ _ _ => none
  | .pllLockLoss => none
  | .startupEntry => none
  | .calEnd => none
  | .sweepLate => none
  | .operationalEntry => none
  | .powerOnResetRearm => none
  | .lostArbitration _ => none
  | .protocolException _ => none

/-- A well-formed command's word address is a multiple of 4. -/
def Laws.Aligned.Statement (i : Instr) : Prop := i.wf = true → ∀ a, i.wordAddr = some a → a.toNat % 4 = 0

theorem Laws.Aligned.timestampWrap : Laws.Aligned.Statement (.timestampWrap) := fun _ _ e => nomatch e

theorem Laws.Aligned.safetyCycleBoundary (inp : BoundaryInputs) : Laws.Aligned.Statement (.safetyCycleBoundary inp) := fun _ _ e => nomatch e

theorem Laws.Aligned.registerWrite (p : HPort) (addr : Addr) (v : Word) : Laws.Aligned.Statement (.registerWrite p addr v) := by
  intro h a e
  simp only [Instr.wordAddr, Option.some.injEq] at e
  subst e
  simp only [Instr.wf, aligned, beq_iff_eq] at h
  exact h

theorem Laws.Aligned.pairHWrite (p : HPort) (addr : Addr) (v : Word) : Laws.Aligned.Statement (.pairHWrite p addr v) := by
  intro h a e
  simp only [Instr.wordAddr, Option.some.injEq] at e
  subst e
  simp only [Instr.wf, aligned, beq_iff_eq] at h
  exact h

theorem Laws.Aligned.pairLWrite (p : HPort) (addr : Addr) (v : Word) : Laws.Aligned.Statement (.pairLWrite p addr v) := by
  intro h a e
  simp only [Instr.wordAddr, Option.some.injEq] at e
  subst e
  simp only [Instr.wf, aligned, beq_iff_eq] at h
  exact h

theorem Laws.Aligned.pairLRead (p : HPort) (addr : Addr) : Laws.Aligned.Statement (.pairLRead p addr) := by
  intro h a e
  simp only [Instr.wordAddr, Option.some.injEq] at e
  subst e
  simp only [Instr.wf, aligned, beq_iff_eq] at h
  exact h

theorem Laws.Aligned.posRead (p : HPort) (port : Fin 4) : Laws.Aligned.Statement (.posRead p port) := fun _ _ e => nomatch e

theorem Laws.Aligned.cruTimeRead (p : HPort) : Laws.Aligned.Statement (.cruTimeRead p) := fun _ _ e => nomatch e

theorem Laws.Aligned.w1cClear (p : HPort) (addr : Addr) (mask : Word) : Laws.Aligned.Statement (.w1cClear p addr mask) := by
  intro h a e
  simp only [Instr.wordAddr, Option.some.injEq] at e
  subst e
  simp only [Instr.wf, aligned, beq_iff_eq] at h
  exact h

theorem Laws.Aligned.readInc (p : HPort) (n : Fin 64) (addr : Addr) (crc : BitVec 16) : Laws.Aligned.Statement (.readInc p n addr crc) := fun _ _ e => nomatch e

theorem Laws.Aligned.readFix (p : HPort) (n : Fin 64) (addr : Addr) (crc : BitVec 16) : Laws.Aligned.Statement (.readFix p n addr crc) := fun _ _ e => nomatch e

theorem Laws.Aligned.writeInc (p : HPort) (n : Fin 64) (addr : Addr) (data : List Word) (crc : BitVec 16) (csOk : Bool) : Laws.Aligned.Statement (.writeInc p n addr data crc csOk) := fun _ _ e => nomatch e

theorem Laws.Aligned.writeFix (p : HPort) (n : Fin 64) (addr : Addr) (data : List Word) (crc : BitVec 16) (csOk : Bool) : Laws.Aligned.Statement (.writeFix p n addr data crc csOk) := fun _ _ e => nomatch e

theorem Laws.Aligned.repeatResponse (p : HPort) (n : Fin 64) (crc : BitVec 16) : Laws.Aligned.Statement (.repeatResponse p n crc) := fun _ _ e => nomatch e

theorem Laws.Aligned.altPhaseInversion : Laws.Aligned.Statement (.altPhaseInversion) := fun _ _ e => nomatch e

theorem Laws.Aligned.pendingExcApply (sp : Fin 24) : Laws.Aligned.Statement (.pendingExcApply sp) := fun _ _ e => nomatch e

theorem Laws.Aligned.settlingEnd (sp : Fin 24) : Laws.Aligned.Statement (.settlingEnd sp) := fun _ _ e => nomatch e

theorem Laws.Aligned.force (p : HPort) (pts : BitVec 24) : Laws.Aligned.Statement (.force p pts) := fun _ _ e => nomatch e

theorem Laws.Aligned.cancel (p : HPort) (pts : BitVec 24) : Laws.Aligned.Statement (.cancel p pts) := fun _ _ e => nomatch e

theorem Laws.Aligned.sourceFailure (src : Fin 56) (onset : Nat) : Laws.Aligned.Statement (.sourceFailure src onset) := fun _ _ e => nomatch e

theorem Laws.Aligned.clampConduction (pin : Fin 96) (onset : Nat) (last : Nat) : Laws.Aligned.Statement (.clampConduction pin onset last) := fun _ _ e => nomatch e

theorem Laws.Aligned.clampEpisodeEnd (pin : Fin 96) : Laws.Aligned.Statement (.clampEpisodeEnd pin) := fun _ _ e => nomatch e

theorem Laws.Aligned.carrierLoss (sp : Fin 24) (onset : Nat) : Laws.Aligned.Statement (.carrierLoss sp onset) := fun _ _ e => nomatch e

theorem Laws.Aligned.carrierReturn (sp : Fin 24) : Laws.Aligned.Statement (.carrierReturn sp) := fun _ _ e => nomatch e

theorem Laws.Aligned.dampingSample (ch : Fin 48) (k : Nat) (i : Int) (q : Int) (ovr : BitVec 5) : Laws.Aligned.Statement (.dampingSample ch k i q ovr) := fun _ _ e => nomatch e

theorem Laws.Aligned.calPairEnd (ch : Fin 48) : Laws.Aligned.Statement (.calPairEnd ch) := fun _ _ e => nomatch e

theorem Laws.Aligned.refCapture (p : HPort) (ch : BitVec 6) (all : Bool) : Laws.Aligned.Statement (.refCapture p ch all) := fun _ _ e => nomatch e

theorem Laws.Aligned.refCaptureDone (ch : Fin 48) : Laws.Aligned.Statement (.refCaptureDone ch) := fun _ _ e => nomatch e

theorem Laws.Aligned.refErr (ch : Fin 48) : Laws.Aligned.Statement (.refErr ch) := fun _ _ e => nomatch e

theorem Laws.Aligned.snapGo (p : HPort) (src : BitVec 2) : Laws.Aligned.Statement (.snapGo p src) := fun _ _ e => nomatch e

theorem Laws.Aligned.snapDone : Laws.Aligned.Statement (.snapDone) := fun _ _ e => nomatch e

theorem Laws.Aligned.monitorFlag (ch : Fin 48) (onset : Nat) (cls : MonClass) : Laws.Aligned.Statement (.monitorFlag ch onset cls) := fun _ _ e => nomatch e

theorem Laws.Aligned.monitorEpisodeEnd (ch : Fin 48) (last : Nat) : Laws.Aligned.Statement (.monitorEpisodeEnd ch last) := fun _ _ e => nomatch e

theorem Laws.Aligned.glitch (ch : Fin 48) : Laws.Aligned.Statement (.glitch ch) := fun _ _ e => nomatch e

theorem Laws.Aligned.toneVisitVerdict (ch : Fin 48) (mag : BitVec 16) (phase : BitVec 16) (limit : Bool) (cross : Option (Fin 48 × BitVec 16)) : Laws.Aligned.Statement (.toneVisitVerdict ch mag phase limit cross) := fun _ _ e => nomatch e

theorem Laws.Aligned.toneSelfCheck (mag : BitVec 16) (phase : BitVec 16) (residual : BitVec 16) : Laws.Aligned.Statement (.toneSelfCheck mag phase residual) := fun _ _ e => nomatch e

theorem Laws.Aligned.channelStale (ch : Fin 48) : Laws.Aligned.Statement (.channelStale ch) := fun _ _ e => nomatch e

theorem Laws.Aligned.supClear (p : HPort) (ch : BitVec 6) (all : Bool) : Laws.Aligned.Statement (.supClear p ch all) := fun _ _ e => nomatch e

theorem Laws.Aligned.faultyRelease (ch : Fin 48) : Laws.Aligned.Statement (.faultyRelease ch) := fun _ _ e => nomatch e

theorem Laws.Aligned.zrefCapture (p : HPort) (ch : BitVec 6) (all : Bool) : Laws.Aligned.Statement (.zrefCapture p ch all) := fun _ _ e => nomatch e

theorem Laws.Aligned.zrefCaptureDone (ch : Fin 48) : Laws.Aligned.Statement (.zrefCaptureDone ch) := fun _ _ e => nomatch e

theorem Laws.Aligned.zrefErr (ch : Fin 48) : Laws.Aligned.Statement (.zrefErr ch) := fun _ _ e => nomatch e

theorem Laws.Aligned.holdExpiry (sp : Fin 24) : Laws.Aligned.Statement (.holdExpiry sp) := fun _ _ e => nomatch e

theorem Laws.Aligned.linkWindowExpiry (sp : Fin 24) : Laws.Aligned.Statement (.linkWindowExpiry sp) := fun _ _ e => nomatch e

theorem Laws.Aligned.parked (ch : Fin 48) : Laws.Aligned.Statement (.parked ch) := fun _ _ e => nomatch e

theorem Laws.Aligned.matchJobStart : Laws.Aligned.Statement (.matchJobStart) := fun _ _ e => nomatch e

theorem Laws.Aligned.matchJobComplete (eng : Fin 2) : Laws.Aligned.Statement (.matchJobComplete eng) := fun _ _ e => nomatch e

theorem Laws.Aligned.quietFinal (sp : Fin 24) (neg : Bool) : Laws.Aligned.Statement (.quietFinal sp neg) := fun _ _ e => nomatch e

theorem Laws.Aligned.jobLate : Laws.Aligned.Statement (.jobLate) := fun _ _ e => nomatch e

theorem Laws.Aligned.pop (p : HPort) : Laws.Aligned.Statement (.pop p) := fun _ _ e => nomatch e

theorem Laws.Aligned.recReqGo (p : HPort) (slot : BitVec 12) : Laws.Aligned.Statement (.recReqGo p slot) := fun _ _ e => nomatch e

theorem Laws.Aligned.supervised (p : HPort) (sec : BitVec 6) : Laws.Aligned.Statement (.supervised p sec) := fun _ _ e => nomatch e

theorem Laws.Aligned.direct (p : HPort) (sec : BitVec 6) (tok : BitVec 16) : Laws.Aligned.Statement (.direct p sec tok) := fun _ _ e => nomatch e

theorem Laws.Aligned.disturb (p : HPort) (sec : BitVec 6) : Laws.Aligned.Statement (.disturb p sec) := fun _ _ e => nomatch e

theorem Laws.Aligned.directWithdraw (p : HPort) : Laws.Aligned.Statement (.directWithdraw p) := fun _ _ e => nomatch e

theorem Laws.Aligned.directExpired (p : HPort) : Laws.Aligned.Statement (.directExpired p) := fun _ _ e => nomatch e

theorem Laws.Aligned.identityRestore (sec : Fin 48) : Laws.Aligned.Statement (.identityRestore sec) := fun _ _ e => nomatch e

theorem Laws.Aligned.standbyDisturbReject (p : HPort) : Laws.Aligned.Statement (.standbyDisturbReject p) := fun _ _ e => nomatch e

theorem Laws.Aligned.speedStale (sp : Fin 24) : Laws.Aligned.Statement (.speedStale sp) := fun _ _ e => nomatch e

theorem Laws.Aligned.pointLullEntry (sp : Fin 24) : Laws.Aligned.Statement (.pointLullEntry sp) := fun _ _ e => nomatch e

theorem Laws.Aligned.encoderFrame (port : Fin 4) (edge : Nat) (idleHigh : Bool) (bits : List Bool) : Laws.Aligned.Statement (.encoderFrame port edge idleHigh bits) := fun _ _ e => nomatch e

theorem Laws.Aligned.encoderLate (port : Fin 4) : Laws.Aligned.Statement (.encoderLate port) := fun _ _ e => nomatch e

theorem Laws.Aligned.portLullEntry (port : Fin 4) : Laws.Aligned.Statement (.portLullEntry port) := fun _ _ e => nomatch e

theorem Laws.Aligned.encoderFaultRelease (port : Fin 4) : Laws.Aligned.Statement (.encoderFaultRelease port) := fun _ _ e => nomatch e

theorem Laws.Aligned.portClear (p : HPort) (ports : BitVec 4) : Laws.Aligned.Statement (.portClear p ports) := fun _ _ e => nomatch e

theorem Laws.Aligned.rearm (p : HPort) (cmps : BitVec 16) : Laws.Aligned.Statement (.rearm p cmps) := fun _ _ e => nomatch e

theorem Laws.Aligned.disarm (p : HPort) (cmps : BitVec 16) : Laws.Aligned.Statement (.disarm p cmps) := fun _ _ e => nomatch e

theorem Laws.Aligned.axqGo (p : HPort) : Laws.Aligned.Statement (.axqGo p) := fun _ _ e => nomatch e

theorem Laws.Aligned.filterTimerExpiry (tile : Fin 2048) (ch : Fin 4) : Laws.Aligned.Statement (.filterTimerExpiry tile ch) := fun _ _ e => nomatch e

theorem Laws.Aligned.scrubWord (finding : ScrubFinding) : Laws.Aligned.Statement (.scrubWord finding) := fun _ _ e => nomatch e

theorem Laws.Aligned.doubleBitError (word : Fin 524288) : Laws.Aligned.Statement (.doubleBitError word) := fun _ _ e => nomatch e

theorem Laws.Aligned.cfgMemWrite (p : HPort) (addr : Addr) (v : Word) : Laws.Aligned.Statement (.cfgMemWrite p addr v) := by
  intro h a e
  simp only [Instr.wordAddr, Option.some.injEq] at e
  subst e
  simp only [Instr.wf, aligned, Bool.and_eq_true, beq_iff_eq] at h
  exact h.1.1

theorem Laws.Aligned.powerOnReset (vin : BitVec 16) : Laws.Aligned.Statement (.powerOnReset vin) := fun _ _ e => nomatch e

theorem Laws.Aligned.resetPin (dur : Nat) : Laws.Aligned.Statement (.resetPin dur) := fun _ _ e => nomatch e

theorem Laws.Aligned.resetRelease (patches : Option (List Patch)) (qualified : Bool) : Laws.Aligned.Statement (.resetRelease patches qualified) := fun _ _ e => nomatch e

theorem Laws.Aligned.pllLock (seals : SealSamples) : Laws.Aligned.Statement (.pllLock seals) := fun _ _ e => nomatch e

theorem Laws.Aligned.loadEnd (seals : SealSamples) (fails : BitVec 3) (readErr : Option (BitVec 11)) : Laws.Aligned.Statement (.loadEnd seals fails readErr) := fun _ _ e => nomatch e

theorem Laws.Aligned.sealReading (seals : SealSamples) : Laws.Aligned.Statement (.sealReading seals) := fun _ _ e => nomatch e

theorem Laws.Aligned.commit (p : HPort) : Laws.Aligned.Statement (.commit p) := fun _ _ e => nomatch e

theorem Laws.Aligned.discard (p : HPort) : Laws.Aligned.Statement (.discard p) := fun _ _ e => nomatch e

theorem Laws.Aligned.uploadStart (p : HPort) (target : BitVec 2) : Laws.Aligned.Statement (.uploadStart p target) := fun _ _ e => nomatch e

theorem Laws.Aligned.uploadAbort (p : HPort) : Laws.Aligned.Statement (.uploadAbort p) := fun _ _ e => nomatch e

theorem Laws.Aligned.uploadData (p : HPort) (w : Word) : Laws.Aligned.Statement (.uploadData p w) := fun _ _ e => nomatch e

theorem Laws.Aligned.upDone : Laws.Aligned.Statement (.upDone) := fun _ _ e => nomatch e

theorem Laws.Aligned.voterTransaction (txn : VoterTxn) : Laws.Aligned.Statement (.voterTransaction txn) := fun _ _ e => nomatch e

theorem Laws.Aligned.selfTestDone (core : Fin 3) (pass : Bool) : Laws.Aligned.Statement (.selfTestDone core pass) := fun _ _ e => nomatch e

theorem Laws.Aligned.periodicTestDue : Laws.Aligned.Statement (.periodicTestDue) := fun _ _ e => nomatch e

theorem Laws.Aligned.keepaliveToken (v : Word) : Laws.Aligned.Statement (.keepaliveToken v) := fun _ _ e => nomatch e

theorem Laws.Aligned.keepaliveGrantExpiry : Laws.Aligned.Statement (.keepaliveGrantExpiry) := fun _ _ e => nomatch e

theorem Laws.Aligned.squallLimit : Laws.Aligned.Statement (.squallLimit) := fun _ _ e => nomatch e

theorem Laws.Aligned.debugHalt (hit : Bool) : Laws.Aligned.Statement (.debugHalt hit) := fun _ _ e => nomatch e

theorem Laws.Aligned.debugStep : Laws.Aligned.Statement (.debugStep) := fun _ _ e => nomatch e

theorem Laws.Aligned.debugResume : Laws.Aligned.Statement (.debugResume) := fun _ _ e => nomatch e

theorem Laws.Aligned.debugWrite (w : DebugWrite) : Laws.Aligned.Statement (.debugWrite w) := fun _ _ e => nomatch e

theorem Laws.Aligned.replayDrain : Laws.Aligned.Statement (.replayDrain) := fun _ _ e => nomatch e

theorem Laws.Aligned.bypass : Laws.Aligned.Statement (.bypass) := fun _ _ e => nomatch e

theorem Laws.Aligned.idcode : Laws.Aligned.Statement (.idcode) := fun _ _ e => nomatch e

theorem Laws.Aligned.samplePreload : Laws.Aligned.Statement (.samplePreload) := fun _ _ e => nomatch e

theorem Laws.Aligned.extest : Laws.Aligned.Statement (.extest) := fun _ _ e => nomatch e

theorem Laws.Aligned.vendorDebug : Laws.Aligned.Statement (.vendorDebug) := fun _ _ e => nomatch e

theorem Laws.Aligned.testLogicReset : Laws.Aligned.Statement (.testLogicReset) := fun _ _ e => nomatch e

theorem Laws.Aligned.pairInputChange (j : Fin 16) (a : Bool) (b : Bool) : Laws.Aligned.Statement (.pairInputChange j a b) := fun _ _ e => nomatch e

theorem Laws.Aligned.discrepancyFault (j : Fin 16) : Laws.Aligned.Statement (.discrepancyFault j) := fun _ _ e => nomatch e

theorem Laws.Aligned.clearIn (p : HPort) (mask : BitVec 16) : Laws.Aligned.Statement (.clearIn p mask) := fun _ _ e => nomatch e

theorem Laws.Aligned.clearOut (p : HPort) (mask : BitVec 12) : Laws.Aligned.Statement (.clearOut p mask) := fun _ _ e => nomatch e

theorem Laws.Aligned.testPulse (k : Fin 12) : Laws.Aligned.Statement (.testPulse k) := fun _ _ e => nomatch e

theorem Laws.Aligned.pulseEnd (k : Fin 12) (low : Bool) : Laws.Aligned.Statement (.pulseEnd k low) := fun _ _ e => nomatch e

theorem Laws.Aligned.stuckOff (k : Fin 12) (limit : Bool) : Laws.Aligned.Statement (.stuckOff k limit) := fun _ _ e => nomatch e

theorem Laws.Aligned.stuckOn (k : Fin 12) : Laws.Aligned.Statement (.stuckOn k) := fun _ _ e => nomatch e

theorem Laws.Aligned.overload (k : Fin 12) : Laws.Aligned.Statement (.overload k) := fun _ _ e => nomatch e

theorem Laws.Aligned.overtemp (k : Fin 12) : Laws.Aligned.Statement (.overtemp k) := fun _ _ e => nomatch e

theorem Laws.Aligned.tlpDrv : Laws.Aligned.Statement (.tlpDrv) := fun _ _ e => nomatch e

theorem Laws.Aligned.tlsDrv : Laws.Aligned.Statement (.tlsDrv) := fun _ _ e => nomatch e

theorem Laws.Aligned.tlForeign : Laws.Aligned.Statement (.tlForeign) := fun _ _ e => nomatch e

theorem Laws.Aligned.clearDrv (p : HPort) : Laws.Aligned.Statement (.clearDrv p) := fun _ _ e => nomatch e

theorem Laws.Aligned.tlTelegramFrame (rx : List Byte) : Laws.Aligned.Statement (.tlTelegramFrame rx) := fun _ _ e => nomatch e

theorem Laws.Aligned.rxLapse : Laws.Aligned.Statement (.rxLapse) := fun _ _ e => nomatch e

theorem Laws.Aligned.canFrameReceived (x : Fin 2) (frame : CanFrame) : Laws.Aligned.Statement (.canFrameReceived x frame) := fun _ _ e => nomatch e

theorem Laws.Aligned.rxBufLock (p : HPort) (x : Fin 2) (b : Fin 64) : Laws.Aligned.Statement (.rxBufLock p x b) := fun _ _ e => nomatch e

theorem Laws.Aligned.rxBufRelease (p : HPort) (x : Fin 2) (b : Fin 64) : Laws.Aligned.Statement (.rxBufRelease p x b) := fun _ _ e => nomatch e

theorem Laws.Aligned.lockRel (p : HPort) (x : Fin 2) (b : Fin 64) : Laws.Aligned.Statement (.lockRel p x b) := fun _ _ e => nomatch e

theorem Laws.Aligned.txBufWrite (p : HPort) (x : Fin 2) (b : Fin 64) (k : Fin 18) (v : Word) : Laws.Aligned.Statement (.txBufWrite p x b k v) := fun _ _ e => nomatch e

theorem Laws.Aligned.txReq (p : HPort) (x : Fin 2) (b : Fin 64) : Laws.Aligned.Statement (.txReq p x b) := fun _ _ e => nomatch e

theorem Laws.Aligned.bufAbort (p : HPort) (x : Fin 2) (b : Fin 64) : Laws.Aligned.Statement (.bufAbort p x b) := fun _ _ e => nomatch e

theorem Laws.Aligned.reenable (p : HPort) (x : Fin 2) (b : Fin 64) : Laws.Aligned.Statement (.reenable p x b) := fun _ _ e => nomatch e

theorem Laws.Aligned.canFrameTransmitted (x : Fin 2) (tdcv : BitVec 7) : Laws.Aligned.Statement (.canFrameTransmitted x tdcv) := fun _ _ e => nomatch e

theorem Laws.Aligned.canError (x : Fin 2) (e : CanError) : Laws.Aligned.Statement (.canError x e) := fun _ _ e => nomatch e

theorem Laws.Aligned.busoffRecovery (x : Fin 2) : Laws.Aligned.Statement (.busoffRecovery x) := fun _ _ e => nomatch e

theorem Laws.Aligned.canRelease (p : HPort) (x : Fin 2) : Laws.Aligned.Statement (.canRelease p x) := fun _ _ e => nomatch e

theorem Laws.Aligned.abortAll (p : HPort) (x : Fin 2) : Laws.Aligned.Statement (.abortAll p x) := fun _ _ e => nomatch e

theorem Laws.Aligned.canControllerLost (x : Fin 2) (cause : CanLostCause) : Laws.Aligned.Statement (.canControllerLost x cause) := fun _ _ e => nomatch e

theorem Laws.Aligned.cvuStart (p : HPort) (n : Fin 16) : Laws.Aligned.Statement (.cvuStart p n) := fun _ _ e => nomatch e

theorem Laws.Aligned.data32 (p : HPort) (n : Fin 16) (v : Word) : Laws.Aligned.Statement (.data32 p n v) := fun _ _ e => nomatch e

theorem Laws.Aligned.data16 (p : HPort) (n : Fin 16) (v : BitVec 16) : Laws.Aligned.Statement (.data16 p n v) := fun _ _ e => nomatch e

theorem Laws.Aligned.data8 (p : HPort) (n : Fin 16) (v : Byte) : Laws.Aligned.Statement (.data8 p n v) := fun _ _ e => nomatch e

theorem Laws.Aligned.ctxWrite (p : HPort) (n : Fin 16) (v : Word) : Laws.Aligned.Statement (.ctxWrite p n v) := fun _ _ e => nomatch e

theorem Laws.Aligned.finish (p : HPort) (n : Fin 16) : Laws.Aligned.Statement (.finish p n) := fun _ _ e => nomatch e

theorem Laws.Aligned.cvuRelease (p : HPort) (n : Fin 16) : Laws.Aligned.Statement (.cvuRelease p n) := fun _ _ e => nomatch e

theorem Laws.Aligned.telegramBuild (c : Fin 64) : Laws.Aligned.Statement (.telegramBuild c) := fun _ _ e => nomatch e

theorem Laws.Aligned.connLapse (c : Fin 64) : Laws.Aligned.Statement (.connLapse c) := fun _ _ e => nomatch e

theorem Laws.Aligned.announceExpired (k : Fin 4) : Laws.Aligned.Statement (.announceExpired k) := fun _ _ e => nomatch e

theorem Laws.Aligned.accept (p : HPort) (wl : BitVec 5) : Laws.Aligned.Statement (.accept p wl) := fun _ _ e => nomatch e

theorem Laws.Aligned.refuse (p : HPort) (wl : BitVec 5) : Laws.Aligned.Statement (.refuse p wl) := fun _ _ e => nomatch e

theorem Laws.Aligned.steRelease (p : HPort) (conn : BitVec 6) : Laws.Aligned.Statement (.steRelease p conn) := fun _ _ e => nomatch e

theorem Laws.Aligned.dynHoldExpiry (c : Fin 64) : Laws.Aligned.Statement (.dynHoldExpiry c) := fun _ _ e => nomatch e

theorem Laws.Aligned.intlkInChange (level : Bool) : Laws.Aligned.Statement (.intlkInChange level) := fun _ _ e => nomatch e

theorem Laws.Aligned.toBlocked : Laws.Aligned.Statement (.toBlocked) := fun _ _ e => nomatch e

theorem Laws.Aligned.intlkErr : Laws.Aligned.Statement (.intlkErr) := fun _ _ e => nomatch e

theorem Laws.Aligned.roleClaim : Laws.Aligned.Statement (.roleClaim) := fun _ _ e => nomatch e

theorem Laws.Aligned.linkUp (pref : Bool) (rev : Word) (digest : BitVec 256) : Laws.Aligned.Statement (.linkUp pref rev digest) := fun _ _ e => nomatch e

theorem Laws.Aligned.linkFrame (frame : LinkFrame) : Laws.Aligned.Statement (.linkFrame frame) := fun _ _ e => nomatch e

theorem Laws.Aligned.linkDown : Laws.Aligned.Statement (.linkDown) := fun _ _ e => nomatch e

theorem Laws.Aligned.ackDiv (p : HPort) : Laws.Aligned.Statement (.ackDiv p) := fun _ _ e => nomatch e

theorem Laws.Aligned.takeoverClaim : Laws.Aligned.Statement (.takeoverClaim) := fun _ _ e => nomatch e

theorem Laws.Aligned.takeoverDrive : Laws.Aligned.Statement (.takeoverDrive) := fun _ _ e => nomatch e

theorem Laws.Aligned.handoverClaim : Laws.Aligned.Statement (.handoverClaim) := fun _ _ e => nomatch e

theorem Laws.Aligned.semTake (p : HPort) (k : Fin 32) (id : BitVec 2) : Laws.Aligned.Statement (.semTake p k id) := fun _ _ e => nomatch e

theorem Laws.Aligned.semRelease (p : HPort) (k : Fin 32) : Laws.Aligned.Statement (.semRelease p k) := fun _ _ e => nomatch e

theorem Laws.Aligned.freeOwn (p : HPort) : Laws.Aligned.Statement (.freeOwn p) := fun _ _ e => nomatch e

theorem Laws.Aligned.enterComm (p : HPort) (key : BitVec 16) : Laws.Aligned.Statement (.enterComm p key) := fun _ _ e => nomatch e

theorem Laws.Aligned.commissioningEntry : Laws.Aligned.Statement (.commissioningEntry) := fun _ _ e => nomatch e

theorem Laws.Aligned.resetCommand (p : HPort) (key : BitVec 16) : Laws.Aligned.Statement (.resetCommand p key) := fun _ _ e => nomatch e

theorem Laws.Aligned.resetExpired : Laws.Aligned.Statement (.resetExpired) := fun _ _ e => nomatch e

theorem Laws.Aligned.goSafe (p : HPort) (key : BitVec 16) : Laws.Aligned.Statement (.goSafe p key) := fun _ _ e => nomatch e

theorem Laws.Aligned.devWithdraw (p : HPort) (key : BitVec 16) : Laws.Aligned.Statement (.devWithdraw p key) := fun _ _ e => nomatch e

theorem Laws.Aligned.gqFree (p : HPort) (n : BitVec 12) : Laws.Aligned.Statement (.gqFree p n) := fun _ _ e => nomatch e

theorem Laws.Aligned.bcwFreeze (n : Fin 8) : Laws.Aligned.Statement (.bcwFreeze n) := fun _ _ e => nomatch e

theorem Laws.Aligned.bcwUnfreeze : Laws.Aligned.Statement (.bcwUnfreeze) := fun _ _ e => nomatch e

theorem Laws.Aligned.bcwClearArm : Laws.Aligned.Statement (.bcwClearArm) := fun _ _ e => nomatch e

theorem Laws.Aligned.bcwClear : Laws.Aligned.Statement (.bcwClear) := fun _ _ e => nomatch e

theorem Laws.Aligned.bcwClearCancel (v : Byte) : Laws.Aligned.Statement (.bcwClearCancel v) := fun _ _ e => nomatch e

theorem Laws.Aligned.clearWindowExpiry : Laws.Aligned.Statement (.clearWindowExpiry) := fun _ _ e => nomatch e

theorem Laws.Aligned.monitorWindow (mon : Bool) (count : BitVec 16) (other : Option (BitVec 16)) : Laws.Aligned.Statement (.monitorWindow mon count other) := fun _ _ e => nomatch e

theorem Laws.Aligned.pllLockLoss : Laws.Aligned.Statement (.pllLockLoss) := fun _ _ e => nomatch e

theorem Laws.Aligned.startupEntry : Laws.Aligned.Statement (.startupEntry) := fun _ _ e => nomatch e

theorem Laws.Aligned.calEnd : Laws.Aligned.Statement (.calEnd) := fun _ _ e => nomatch e

theorem Laws.Aligned.sweepLate : Laws.Aligned.Statement (.sweepLate) := fun _ _ e => nomatch e

theorem Laws.Aligned.operationalEntry : Laws.Aligned.Statement (.operationalEntry) := fun _ _ e => nomatch e

theorem Laws.Aligned.powerOnResetRearm : Laws.Aligned.Statement (.powerOnResetRearm) := fun _ _ e => nomatch e

theorem Laws.Aligned.lostArbitration (x : Fin 2) : Laws.Aligned.Statement (.lostArbitration x) := fun _ _ e => nomatch e

theorem Laws.Aligned.protocolException (x : Fin 2) : Laws.Aligned.Statement (.protocolException x) := fun _ _ e => nomatch e

end Sys2Proof
end

