-- ==== Sys2Proof/Laws/Store.lean ====
section
/-!
SUPPORT. The laws of the sparse store: a read after a write at the same key gives the value written, a write leaves every
other key alone, and every write keeps the canonical form.
-/

namespace Sys2Proof.Machine

theorem storeGet_erase_self {α : Type} (d : α) (l : List (Nat × α)) (k : Nat) : storeGet d (storeErase l k) k = d := by
  induction l with
  | nil => rfl
  | cons x rest ih =>
    obtain ⟨k', v⟩ := x
    by_cases h : k = k'
    · simpa [storeErase, h] using h ▸ ih
    · simp [storeErase, storeGet, h, ih]

theorem storeGet_erase_ne {α : Type} (d : α) (l : List (Nat × α)) {k j : Nat} (h : j ≠ k) :
    storeGet d (storeErase l k) j = storeGet d l j := by
  induction l with
  | nil => rfl
  | cons x rest ih =>
    obtain ⟨k', v⟩ := x
    by_cases hk : k = k'
    · subst hk; simp [storeErase, storeGet, h, ih]
    · by_cases hj : j = k' <;> simp [storeErase, storeGet, hk, hj, ih]

theorem storeGet_insert_self {α : Type} (d : α) (l : List (Nat × α)) (k : Nat) (v : α) :
    storeGet d (storeInsert l k v) k = v := by
  induction l with
  | nil => simp [storeInsert, storeGet]
  | cons x rest ih =>
    obtain ⟨k', v'⟩ := x
    by_cases hk : k = k'
    · simp [storeInsert, storeGet, hk]
    · by_cases hl : k < k' <;> simp [storeInsert, storeGet, hk, hl, ih]

theorem storeGet_insert_ne {α : Type} (d : α) (l : List (Nat × α)) {k j : Nat} (v : α) (h : j ≠ k) :
    storeGet d (storeInsert l k v) j = storeGet d l j := by
  induction l with
  | nil => simp [storeInsert, storeGet, h]
  | cons x rest ih =>
    obtain ⟨k', v'⟩ := x
    by_cases hk : k = k'
    · subst hk; simp [storeInsert, storeGet, h]
    · by_cases hl : k < k'
      · simp [storeInsert, storeGet, hk, hl, h]
      · by_cases hj : j = k' <;> simp [storeInsert, storeGet, hk, hl, hj, ih]

/-- A read after a write at the same key. -/
@[simp] theorem storeGet_put_self {α : Type} [DecidableEq α] (d : α) (l : List (Nat × α)) (k : Nat) (v : α) :
    storeGet d (storePut d l k v) k = v := by
  unfold storePut
  split
  · rename_i h; rw [storeGet_erase_self, h]
  · exact storeGet_insert_self d l k v

/-- A write leaves every other key alone. -/
theorem storeGet_put_ne {α : Type} [DecidableEq α] (d : α) (l : List (Nat × α)) {k j : Nat} (v : α) (h : j ≠ k) :
    storeGet d (storePut d l k v) j = storeGet d l j := by
  unfold storePut
  split
  · exact storeGet_erase_ne d l h
  · exact storeGet_insert_ne d l v h

/-! ### The canonical form -/

theorem storeWfFrom_mono {α : Type} [DecidableEq α] (d : α) {l : List (Nat × α)} {b c : Nat} (h : c ≤ b)
    (w : storeWfFrom d b l = true) : storeWfFrom d c l = true := by
  cases l with
  | nil => rfl
  | cons x rest =>
    obtain ⟨k, v⟩ := x
    simp only [storeWfFrom, Bool.and_eq_true, decide_eq_true_eq] at w ⊢
    exact ⟨⟨by omega, w.1.2⟩, w.2⟩

theorem storeErase_wfFrom {α : Type} [DecidableEq α] (d : α) (l : List (Nat × α)) (k : Nat) {b : Nat}
    (w : storeWfFrom d b l = true) : storeWfFrom d b (storeErase l k) = true := by
  induction l generalizing b with
  | nil => rfl
  | cons x rest ih =>
    obtain ⟨k', v⟩ := x
    have w' := w
    simp only [storeWfFrom, Bool.and_eq_true, decide_eq_true_eq] at w'
    by_cases h : k = k'
    · simp only [storeErase, h, if_true]
      exact h ▸ ih (storeWfFrom_mono d (by omega) w'.2)
    · simp only [storeErase, h, if_false, storeWfFrom, Bool.and_eq_true, decide_eq_true_eq]
      exact ⟨w'.1, ih w'.2⟩

theorem storeInsert_wfFrom {α : Type} [DecidableEq α] (d : α) (l : List (Nat × α)) (k : Nat) (v : α) (hv : v ≠ d) {b : Nat}
    (hb : b ≤ k) (w : storeWfFrom d b l = true) : storeWfFrom d b (storeInsert l k v) = true := by
  induction l generalizing b with
  | nil => simp [storeInsert, storeWfFrom, hv, hb]
  | cons x rest ih =>
    obtain ⟨k', v'⟩ := x
    simp only [storeWfFrom, Bool.and_eq_true, decide_eq_true_eq] at w
    by_cases h : k = k'
    · simp only [storeInsert, h, if_true, storeWfFrom, Bool.and_eq_true, decide_eq_true_eq]
      exact ⟨⟨w.1.1, hv⟩, w.2⟩
    · by_cases hl : k < k'
      · simp only [storeInsert, h, hl, if_true, if_false, storeWfFrom, Bool.and_eq_true, decide_eq_true_eq]
        exact ⟨⟨hb, hv⟩, ⟨by omega, w.1.2⟩, w.2⟩
      · simp only [storeInsert, h, hl, if_false, storeWfFrom, Bool.and_eq_true, decide_eq_true_eq]
        exact ⟨w.1, ih (by omega) w.2⟩

/-- A write keeps the canonical form. -/
theorem storePut_wf {α : Type} [DecidableEq α] (d : α) (l : List (Nat × α)) (k : Nat) (v : α) (w : storeWf d l = true) :
    storeWf d (storePut d l k v) = true := by
  unfold storePut storeWf at *
  split
  · exact storeErase_wfFrom d l k w
  · rename_i h; exact storeInsert_wfFrom d l k v h (Nat.zero_le k) w

/-- Bytes written keep the canonical form. -/
theorem storePutBytes_wf (l : List (Nat × Byte)) (a : Nat) (bs : List Byte) (w : storeWf 0 l = true) :
    storeWf 0 (storePutBytes l a bs) = true := by
  induction bs generalizing l a with
  | nil => exact w
  | cons b bs ih => exact ih _ _ (storePut_wf 0 l a b w)

/-- Bytes written leave every byte outside them alone. -/
theorem storeGet_putBytes_out (l : List (Nat × Byte)) (a : Nat) (bs : List Byte) {x : Nat} (h : x < a ∨ a + bs.length ≤ x) :
    storeGet 0 (storePutBytes l a bs) x = storeGet 0 l x := by
  induction bs generalizing l a with
  | nil => rfl
  | cons b bs ih =>
    simp only [List.length_cons] at h
    rw [storePutBytes, ih _ _ (by omega), storeGet_put_ne _ _ _ (by omega)]

/-- Bytes written read back. -/
theorem storeGet_putBytes_in (l : List (Nat × Byte)) (a : Nat) (bs : List Byte) (i : Nat) (h : i < bs.length) :
    storeGet 0 (storePutBytes l a bs) (a + i) = bs[i] := by
  induction bs generalizing l a i with
  | nil => simp at h
  | cons b bs ih =>
    cases i with
    | zero =>
      rw [storePutBytes, storeGet_putBytes_out _ _ _ (Or.inl (by omega))]
      simp
    | succ i =>
      simp only [List.length_cons] at h
      have := ih (storePut 0 l a b) (a + 1) i (by omega)
      rw [storePutBytes, show a + (i + 1) = a + 1 + i by omega, this]
      simp

end Sys2Proof.Machine
end

