-- ==== Sys2Proof/Laws/State.lean ====
section
/-!
SUPPORT. The small laws of the state: for each named update one lemma for each field that it leaves alone, true by rfl, and
the value it gives where it writes; reads of register fields and bytes after each update.
-/

namespace Sys2Proof.Machine

variable (s : State)

/-! ### One-bit and counter writes are writes of a field -/

@[simp] theorem State.raise_eq (f : Fld) (i : Nat) : s.raise f i = s.set f i 1 := rfl
@[simp] theorem State.lower_eq (f : Fld) (i : Nat) : s.lower f i = s.set f i 0 := rfl
@[simp] theorem State.setFlag_eq (f : Fld) (i : Nat) (b : Bool) : s.setFlag f i b = s.set f i (b2n b) := rfl
@[simp] theorem State.bump_eq (f : Fld) (i : Nat) : s.bump f i = s.set f i (satInc f.width (s.get f i)) := rfl
@[simp] theorem State.updOut_eq (k : Nat) (f : OutPort → OutPort) : s.updOut k f = s.putSio { s.sio with outs := upd s.sio.outs k f } := rfl
@[simp] theorem State.updCan_eq (x : Nat) (f : CanCtl → CanCtl) : s.updCan x f = s.putCan (upd s.can x f) := rfl
@[simp] theorem State.updConn_eq (c : Nat) (f : ConnX → ConnX) : s.updConn c f = s.putSte { s.ste with conns := upd s.ste.conns c f } := rfl
@[simp] theorem State.updLink_eq (f : Link → Link) : s.updLink f = s.putLink (f s.link) := rfl
@[simp] theorem State.indicate_eq : s.indicate = s.putIndicAt (s.cycle + 1) := rfl
@[simp] theorem State.advanceTo_eq (t : Nat) : s.advanceTo t = s.putNow (max s.now (min t (s.nextBoundary - 1))) := rfl
@[simp] theorem State.bumpWrap_eq (f : Fld) (i : Nat) : s.bumpWrap f i = s.set f i (s.get f i + 1) := rfl

/-! ### Register fields -/

/-- A field reads back what was written, reduced to its width. -/
@[simp] theorem State.get_set_self (f : Fld) (i v : Nat) : (s.set f i v).get f i = v % 2 ^ f.width :=
  storeGet_put_self 0 _ _ _

/-- A write leaves every field at another bit address alone. -/
theorem State.get_set_ne {f g : Fld} {i j : Nat} (v : Nat) (h : g.key j ≠ f.key i) : (s.set f i v).get g j = s.get g j :=
  storeGet_put_ne 0 _ _ h

/-- The store after a write, at another key. -/
theorem State.regs_set_ne {f : Fld} {i k : Nat} (v : Nat) (h : k ≠ f.key i) :
    storeGet 0 (s.set f i v).regs k = storeGet 0 s.regs k :=
  storeGet_put_ne 0 _ _ h

/-! ### set -/

@[simp] theorem State.set_mem (f : Fld) (i v : Nat) : (s.set f i v).mem = s.mem := rfl
@[simp] theorem State.set_now (f : Fld) (i v : Nat) : (s.set f i v).now = s.now := rfl
@[simp] theorem State.set_cycle (f : Fld) (i v : Nat) : (s.set f i v).cycle = s.cycle := rfl
@[simp] theorem State.set_pending (f : Fld) (i v : Nat) : (s.set f i v).pending = s.pending := rfl
@[simp] theorem State.set_freeCtr (f : Fld) (i v : Nat) : (s.set f i v).freeCtr = s.freeCtr := rfl
@[simp] theorem State.set_chans (f : Fld) (i v : Nat) : (s.set f i v).chans = s.chans := rfl
@[simp] theorem State.set_points (f : Fld) (i v : Nat) : (s.set f i v).points = s.points := rfl
@[simp] theorem State.set_pins (f : Fld) (i v : Nat) : (s.set f i v).pins = s.pins := rfl
@[simp] theorem State.set_secs (f : Fld) (i v : Nat) : (s.set f i v).secs = s.secs := rfl
@[simp] theorem State.set_encs (f : Fld) (i v : Nat) : (s.set f i v).encs = s.encs := rfl
@[simp] theorem State.set_units (f : Fld) (i v : Nat) : (s.set f i v).units = s.units := rfl
@[simp] theorem State.set_cmps (f : Fld) (i v : Nat) : (s.set f i v).cmps = s.cmps := rfl
@[simp] theorem State.set_ests (f : Fld) (i v : Nat) : (s.set f i v).ests = s.ests := rfl
@[simp] theorem State.set_ledger (f : Fld) (i v : Nat) : (s.set f i v).ledger = s.ledger := rfl
@[simp] theorem State.set_reqs (f : Fld) (i v : Nat) : (s.set f i v).reqs = s.reqs := rfl
@[simp] theorem State.set_restores (f : Fld) (i v : Nat) : (s.set f i v).restores = s.restores := rfl
@[simp] theorem State.set_snap (f : Fld) (i v : Nat) : (s.set f i v).snap = s.snap := rfl
@[simp] theorem State.set_tone (f : Fld) (i v : Nat) : (s.set f i v).tone = s.tone := rfl
@[simp] theorem State.set_bcw (f : Fld) (i v : Nat) : (s.set f i v).bcw = s.bcw := rfl
@[simp] theorem State.set_fab (f : Fld) (i v : Nat) : (s.set f i v).fab = s.fab := rfl
@[simp] theorem State.set_toSafe (f : Fld) (i v : Nat) : (s.set f i v).toSafe = s.toSafe := rfl
@[simp] theorem State.set_lines (f : Fld) (i v : Nat) : (s.set f i v).lines = s.lines := rfl
@[simp] theorem State.set_ext (f : Fld) (i v : Nat) : (s.set f i v).ext = s.ext := rfl
@[simp] theorem State.set_sio (f : Fld) (i v : Nat) : (s.set f i v).sio = s.sio := rfl
@[simp] theorem State.set_spu (f : Fld) (i v : Nat) : (s.set f i v).spu = s.spu := rfl
@[simp] theorem State.set_boot (f : Fld) (i v : Nat) : (s.set f i v).boot = s.boot := rfl
@[simp] theorem State.set_can (f : Fld) (i v : Nat) : (s.set f i v).can = s.can := rfl
@[simp] theorem State.set_ste (f : Fld) (i v : Nat) : (s.set f i v).ste = s.ste := rfl
@[simp] theorem State.set_tl (f : Fld) (i v : Nat) : (s.set f i v).tl = s.tl := rfl
@[simp] theorem State.set_hosts (f : Fld) (i v : Nat) : (s.set f i v).hosts = s.hosts := rfl
@[simp] theorem State.set_flash (f : Fld) (i v : Nat) : (s.set f i v).flash = s.flash := rfl
@[simp] theorem State.set_up (f : Fld) (i v : Nat) : (s.set f i v).up = s.up := rfl
@[simp] theorem State.set_link (f : Fld) (i v : Nat) : (s.set f i v).link = s.link := rfl
@[simp] theorem State.set_balls (f : Fld) (i v : Nat) : (s.set f i v).balls = s.balls := rfl
@[simp] theorem State.set_indicAt (f : Fld) (i v : Nat) : (s.set f i v).indicAt = s.indicAt := rfl
@[simp] theorem State.set_tookOver (f : Fld) (i v : Nat) : (s.set f i v).tookOver = s.tookOver := rfl
@[simp] theorem State.set_srcFails (f : Fld) (i v : Nat) : (s.set f i v).srcFails = s.srcFails := rfl
@[simp] theorem State.byte_set (f : Fld) (i v : Nat) (addr : Nat) : (s.set f i v).byte addr = s.byte addr := rfl

/-! ### putSpu -/

@[simp] theorem State.putSpu_regs (x : Spu) : (s.putSpu x).regs = s.regs := rfl
@[simp] theorem State.putSpu_mem (x : Spu) : (s.putSpu x).mem = s.mem := rfl
@[simp] theorem State.putSpu_now (x : Spu) : (s.putSpu x).now = s.now := rfl
@[simp] theorem State.putSpu_cycle (x : Spu) : (s.putSpu x).cycle = s.cycle := rfl
@[simp] theorem State.putSpu_pending (x : Spu) : (s.putSpu x).pending = s.pending := rfl
@[simp] theorem State.putSpu_freeCtr (x : Spu) : (s.putSpu x).freeCtr = s.freeCtr := rfl
@[simp] theorem State.putSpu_chans (x : Spu) : (s.putSpu x).chans = s.chans := rfl
@[simp] theorem State.putSpu_points (x : Spu) : (s.putSpu x).points = s.points := rfl
@[simp] theorem State.putSpu_pins (x : Spu) : (s.putSpu x).pins = s.pins := rfl
@[simp] theorem State.putSpu_secs (x : Spu) : (s.putSpu x).secs = s.secs := rfl
@[simp] theorem State.putSpu_encs (x : Spu) : (s.putSpu x).encs = s.encs := rfl
@[simp] theorem State.putSpu_units (x : Spu) : (s.putSpu x).units = s.units := rfl
@[simp] theorem State.putSpu_cmps (x : Spu) : (s.putSpu x).cmps = s.cmps := rfl
@[simp] theorem State.putSpu_ests (x : Spu) : (s.putSpu x).ests = s.ests := rfl
@[simp] theorem State.putSpu_ledger (x : Spu) : (s.putSpu x).ledger = s.ledger := rfl
@[simp] theorem State.putSpu_reqs (x : Spu) : (s.putSpu x).reqs = s.reqs := rfl
@[simp] theorem State.putSpu_restores (x : Spu) : (s.putSpu x).restores = s.restores := rfl
@[simp] theorem State.putSpu_snap (x : Spu) : (s.putSpu x).snap = s.snap := rfl
@[simp] theorem State.putSpu_tone (x : Spu) : (s.putSpu x).tone = s.tone := rfl
@[simp] theorem State.putSpu_bcw (x : Spu) : (s.putSpu x).bcw = s.bcw := rfl
@[simp] theorem State.putSpu_fab (x : Spu) : (s.putSpu x).fab = s.fab := rfl
@[simp] theorem State.putSpu_toSafe (x : Spu) : (s.putSpu x).toSafe = s.toSafe := rfl
@[simp] theorem State.putSpu_lines (x : Spu) : (s.putSpu x).lines = s.lines := rfl
@[simp] theorem State.putSpu_ext (x : Spu) : (s.putSpu x).ext = s.ext := rfl
@[simp] theorem State.putSpu_sio (x : Spu) : (s.putSpu x).sio = s.sio := rfl
@[simp] theorem State.putSpu_boot (x : Spu) : (s.putSpu x).boot = s.boot := rfl
@[simp] theorem State.putSpu_can (x : Spu) : (s.putSpu x).can = s.can := rfl
@[simp] theorem State.putSpu_ste (x : Spu) : (s.putSpu x).ste = s.ste := rfl
@[simp] theorem State.putSpu_tl (x : Spu) : (s.putSpu x).tl = s.tl := rfl
@[simp] theorem State.putSpu_hosts (x : Spu) : (s.putSpu x).hosts = s.hosts := rfl
@[simp] theorem State.putSpu_flash (x : Spu) : (s.putSpu x).flash = s.flash := rfl
@[simp] theorem State.putSpu_up (x : Spu) : (s.putSpu x).up = s.up := rfl
@[simp] theorem State.putSpu_link (x : Spu) : (s.putSpu x).link = s.link := rfl
@[simp] theorem State.putSpu_balls (x : Spu) : (s.putSpu x).balls = s.balls := rfl
@[simp] theorem State.putSpu_indicAt (x : Spu) : (s.putSpu x).indicAt = s.indicAt := rfl
@[simp] theorem State.putSpu_tookOver (x : Spu) : (s.putSpu x).tookOver = s.tookOver := rfl
@[simp] theorem State.putSpu_srcFails (x : Spu) : (s.putSpu x).srcFails = s.srcFails := rfl
@[simp] theorem State.putSpu_spu (x : Spu) : (s.putSpu x).spu = x := rfl
@[simp] theorem State.get_putSpu (x : Spu) (g : Fld) (j : Nat) : (s.putSpu x).get g j = s.get g j := rfl
@[simp] theorem State.byte_putSpu (x : Spu) (addr : Nat) : (s.putSpu x).byte addr = s.byte addr := rfl

/-! ### putLedger -/

@[simp] theorem State.putLedger_regs (x : Ledger) : (s.putLedger x).regs = s.regs := rfl
@[simp] theorem State.putLedger_mem (x : Ledger) : (s.putLedger x).mem = s.mem := rfl
@[simp] theorem State.putLedger_now (x : Ledger) : (s.putLedger x).now = s.now := rfl
@[simp] theorem State.putLedger_cycle (x : Ledger) : (s.putLedger x).cycle = s.cycle := rfl
@[simp] theorem State.putLedger_pending (x : Ledger) : (s.putLedger x).pending = s.pending := rfl
@[simp] theorem State.putLedger_freeCtr (x : Ledger) : (s.putLedger x).freeCtr = s.freeCtr := rfl
@[simp] theorem State.putLedger_chans (x : Ledger) : (s.putLedger x).chans = s.chans := rfl
@[simp] theorem State.putLedger_points (x : Ledger) : (s.putLedger x).points = s.points := rfl
@[simp] theorem State.putLedger_pins (x : Ledger) : (s.putLedger x).pins = s.pins := rfl
@[simp] theorem State.putLedger_secs (x : Ledger) : (s.putLedger x).secs = s.secs := rfl
@[simp] theorem State.putLedger_encs (x : Ledger) : (s.putLedger x).encs = s.encs := rfl
@[simp] theorem State.putLedger_units (x : Ledger) : (s.putLedger x).units = s.units := rfl
@[simp] theorem State.putLedger_cmps (x : Ledger) : (s.putLedger x).cmps = s.cmps := rfl
@[simp] theorem State.putLedger_ests (x : Ledger) : (s.putLedger x).ests = s.ests := rfl
@[simp] theorem State.putLedger_reqs (x : Ledger) : (s.putLedger x).reqs = s.reqs := rfl
@[simp] theorem State.putLedger_restores (x : Ledger) : (s.putLedger x).restores = s.restores := rfl
@[simp] theorem State.putLedger_snap (x : Ledger) : (s.putLedger x).snap = s.snap := rfl
@[simp] theorem State.putLedger_tone (x : Ledger) : (s.putLedger x).tone = s.tone := rfl
@[simp] theorem State.putLedger_bcw (x : Ledger) : (s.putLedger x).bcw = s.bcw := rfl
@[simp] theorem State.putLedger_fab (x : Ledger) : (s.putLedger x).fab = s.fab := rfl
@[simp] theorem State.putLedger_toSafe (x : Ledger) : (s.putLedger x).toSafe = s.toSafe := rfl
@[simp] theorem State.putLedger_lines (x : Ledger) : (s.putLedger x).lines = s.lines := rfl
@[simp] theorem State.putLedger_ext (x : Ledger) : (s.putLedger x).ext = s.ext := rfl
@[simp] theorem State.putLedger_sio (x : Ledger) : (s.putLedger x).sio = s.sio := rfl
@[simp] theorem State.putLedger_spu (x : Ledger) : (s.putLedger x).spu = s.spu := rfl
@[simp] theorem State.putLedger_boot (x : Ledger) : (s.putLedger x).boot = s.boot := rfl
@[simp] theorem State.putLedger_can (x : Ledger) : (s.putLedger x).can = s.can := rfl
@[simp] theorem State.putLedger_ste (x : Ledger) : (s.putLedger x).ste = s.ste := rfl
@[simp] theorem State.putLedger_tl (x : Ledger) : (s.putLedger x).tl = s.tl := rfl
@[simp] theorem State.putLedger_hosts (x : Ledger) : (s.putLedger x).hosts = s.hosts := rfl
@[simp] theorem State.putLedger_flash (x : Ledger) : (s.putLedger x).flash = s.flash := rfl
@[simp] theorem State.putLedger_up (x : Ledger) : (s.putLedger x).up = s.up := rfl
@[simp] theorem State.putLedger_link (x : Ledger) : (s.putLedger x).link = s.link := rfl
@[simp] theorem State.putLedger_balls (x : Ledger) : (s.putLedger x).balls = s.balls := rfl
@[simp] theorem State.putLedger_indicAt (x : Ledger) : (s.putLedger x).indicAt = s.indicAt := rfl
@[simp] theorem State.putLedger_tookOver (x : Ledger) : (s.putLedger x).tookOver = s.tookOver := rfl
@[simp] theorem State.putLedger_srcFails (x : Ledger) : (s.putLedger x).srcFails = s.srcFails := rfl
@[simp] theorem State.putLedger_ledger (x : Ledger) : (s.putLedger x).ledger = x := rfl
@[simp] theorem State.get_putLedger (x : Ledger) (g : Fld) (j : Nat) : (s.putLedger x).get g j = s.get g j := rfl
@[simp] theorem State.byte_putLedger (x : Ledger) (addr : Nat) : (s.putLedger x).byte addr = s.byte addr := rfl

/-! ### putSte -/

@[simp] theorem State.putSte_regs (x : Ste) : (s.putSte x).regs = s.regs := rfl
@[simp] theorem State.putSte_mem (x : Ste) : (s.putSte x).mem = s.mem := rfl
@[simp] theorem State.putSte_now (x : Ste) : (s.putSte x).now = s.now := rfl
@[simp] theorem State.putSte_cycle (x : Ste) : (s.putSte x).cycle = s.cycle := rfl
@[simp] theorem State.putSte_pending (x : Ste) : (s.putSte x).pending = s.pending := rfl
@[simp] theorem State.putSte_freeCtr (x : Ste) : (s.putSte x).freeCtr = s.freeCtr := rfl
@[simp] theorem State.putSte_chans (x : Ste) : (s.putSte x).chans = s.chans := rfl
@[simp] theorem State.putSte_points (x : Ste) : (s.putSte x).points = s.points := rfl
@[simp] theorem State.putSte_pins (x : Ste) : (s.putSte x).pins = s.pins := rfl
@[simp] theorem State.putSte_secs (x : Ste) : (s.putSte x).secs = s.secs := rfl
@[simp] theorem State.putSte_encs (x : Ste) : (s.putSte x).encs = s.encs := rfl
@[simp] theorem State.putSte_units (x : Ste) : (s.putSte x).units = s.units := rfl
@[simp] theorem State.putSte_cmps (x : Ste) : (s.putSte x).cmps = s.cmps := rfl
@[simp] theorem State.putSte_ests (x : Ste) : (s.putSte x).ests = s.ests := rfl
@[simp] theorem State.putSte_ledger (x : Ste) : (s.putSte x).ledger = s.ledger := rfl
@[simp] theorem State.putSte_reqs (x : Ste) : (s.putSte x).reqs = s.reqs := rfl
@[simp] theorem State.putSte_restores (x : Ste) : (s.putSte x).restores = s.restores := rfl
@[simp] theorem State.putSte_snap (x : Ste) : (s.putSte x).snap = s.snap := rfl
@[simp] theorem State.putSte_tone (x : Ste) : (s.putSte x).tone = s.tone := rfl
@[simp] theorem State.putSte_bcw (x : Ste) : (s.putSte x).bcw = s.bcw := rfl
@[simp] theorem State.putSte_fab (x : Ste) : (s.putSte x).fab = s.fab := rfl
@[simp] theorem State.putSte_toSafe (x : Ste) : (s.putSte x).toSafe = s.toSafe := rfl
@[simp] theorem State.putSte_lines (x : Ste) : (s.putSte x).lines = s.lines := rfl
@[simp] theorem State.putSte_ext (x : Ste) : (s.putSte x).ext = s.ext := rfl
@[simp] theorem State.putSte_sio (x : Ste) : (s.putSte x).sio = s.sio := rfl
@[simp] theorem State.putSte_spu (x : Ste) : (s.putSte x).spu = s.spu := rfl
@[simp] theorem State.putSte_boot (x : Ste) : (s.putSte x).boot = s.boot := rfl
@[simp] theorem State.putSte_can (x : Ste) : (s.putSte x).can = s.can := rfl
@[simp] theorem State.putSte_tl (x : Ste) : (s.putSte x).tl = s.tl := rfl
@[simp] theorem State.putSte_hosts (x : Ste) : (s.putSte x).hosts = s.hosts := rfl
@[simp] theorem State.putSte_flash (x : Ste) : (s.putSte x).flash = s.flash := rfl
@[simp] theorem State.putSte_up (x : Ste) : (s.putSte x).up = s.up := rfl
@[simp] theorem State.putSte_link (x : Ste) : (s.putSte x).link = s.link := rfl
@[simp] theorem State.putSte_balls (x : Ste) : (s.putSte x).balls = s.balls := rfl
@[simp] theorem State.putSte_indicAt (x : Ste) : (s.putSte x).indicAt = s.indicAt := rfl
@[simp] theorem State.putSte_tookOver (x : Ste) : (s.putSte x).tookOver = s.tookOver := rfl
@[simp] theorem State.putSte_srcFails (x : Ste) : (s.putSte x).srcFails = s.srcFails := rfl
@[simp] theorem State.putSte_ste (x : Ste) : (s.putSte x).ste = x := rfl
@[simp] theorem State.get_putSte (x : Ste) (g : Fld) (j : Nat) : (s.putSte x).get g j = s.get g j := rfl
@[simp] theorem State.byte_putSte (x : Ste) (addr : Nat) : (s.putSte x).byte addr = s.byte addr := rfl

/-! ### putBoot -/

@[simp] theorem State.putBoot_regs (x : Boot) : (s.putBoot x).regs = s.regs := rfl
@[simp] theorem State.putBoot_mem (x : Boot) : (s.putBoot x).mem = s.mem := rfl
@[simp] theorem State.putBoot_now (x : Boot) : (s.putBoot x).now = s.now := rfl
@[simp] theorem State.putBoot_cycle (x : Boot) : (s.putBoot x).cycle = s.cycle := rfl
@[simp] theorem State.putBoot_pending (x : Boot) : (s.putBoot x).pending = s.pending := rfl
@[simp] theorem State.putBoot_freeCtr (x : Boot) : (s.putBoot x).freeCtr = s.freeCtr := rfl
@[simp] theorem State.putBoot_chans (x : Boot) : (s.putBoot x).chans = s.chans := rfl
@[simp] theorem State.putBoot_points (x : Boot) : (s.putBoot x).points = s.points := rfl
@[simp] theorem State.putBoot_pins (x : Boot) : (s.putBoot x).pins = s.pins := rfl
@[simp] theorem State.putBoot_secs (x : Boot) : (s.putBoot x).secs = s.secs := rfl
@[simp] theorem State.putBoot_encs (x : Boot) : (s.putBoot x).encs = s.encs := rfl
@[simp] theorem State.putBoot_units (x : Boot) : (s.putBoot x).units = s.units := rfl
@[simp] theorem State.putBoot_cmps (x : Boot) : (s.putBoot x).cmps = s.cmps := rfl
@[simp] theorem State.putBoot_ests (x : Boot) : (s.putBoot x).ests = s.ests := rfl
@[simp] theorem State.putBoot_ledger (x : Boot) : (s.putBoot x).ledger = s.ledger := rfl
@[simp] theorem State.putBoot_reqs (x : Boot) : (s.putBoot x).reqs = s.reqs := rfl
@[simp] theorem State.putBoot_restores (x : Boot) : (s.putBoot x).restores = s.restores := rfl
@[simp] theorem State.putBoot_snap (x : Boot) : (s.putBoot x).snap = s.snap := rfl
@[simp] theorem State.putBoot_tone (x : Boot) : (s.putBoot x).tone = s.tone := rfl
@[simp] theorem State.putBoot_bcw (x : Boot) : (s.putBoot x).bcw = s.bcw := rfl
@[simp] theorem State.putBoot_fab (x : Boot) : (s.putBoot x).fab = s.fab := rfl
@[simp] theorem State.putBoot_toSafe (x : Boot) : (s.putBoot x).toSafe = s.toSafe := rfl
@[simp] theorem State.putBoot_lines (x : Boot) : (s.putBoot x).lines = s.lines := rfl
@[simp] theorem State.putBoot_ext (x : Boot) : (s.putBoot x).ext = s.ext := rfl
@[simp] theorem State.putBoot_sio (x : Boot) : (s.putBoot x).sio = s.sio := rfl
@[simp] theorem State.putBoot_spu (x : Boot) : (s.putBoot x).spu = s.spu := rfl
@[simp] theorem State.putBoot_can (x : Boot) : (s.putBoot x).can = s.can := rfl
@[simp] theorem State.putBoot_ste (x : Boot) : (s.putBoot x).ste = s.ste := rfl
@[simp] theorem State.putBoot_tl (x : Boot) : (s.putBoot x).tl = s.tl := rfl
@[simp] theorem State.putBoot_hosts (x : Boot) : (s.putBoot x).hosts = s.hosts := rfl
@[simp] theorem State.putBoot_flash (x : Boot) : (s.putBoot x).flash = s.flash := rfl
@[simp] theorem State.putBoot_up (x : Boot) : (s.putBoot x).up = s.up := rfl
@[simp] theorem State.putBoot_link (x : Boot) : (s.putBoot x).link = s.link := rfl
@[simp] theorem State.putBoot_balls (x : Boot) : (s.putBoot x).balls = s.balls := rfl
@[simp] theorem State.putBoot_indicAt (x : Boot) : (s.putBoot x).indicAt = s.indicAt := rfl
@[simp] theorem State.putBoot_tookOver (x : Boot) : (s.putBoot x).tookOver = s.tookOver := rfl
@[simp] theorem State.putBoot_srcFails (x : Boot) : (s.putBoot x).srcFails = s.srcFails := rfl
@[simp] theorem State.putBoot_boot (x : Boot) : (s.putBoot x).boot = x := rfl
@[simp] theorem State.get_putBoot (x : Boot) (g : Fld) (j : Nat) : (s.putBoot x).get g j = s.get g j := rfl
@[simp] theorem State.byte_putBoot (x : Boot) (addr : Nat) : (s.putBoot x).byte addr = s.byte addr := rfl

/-! ### putReqs -/

@[simp] theorem State.putReqs_regs (x : Requests) : (s.putReqs x).regs = s.regs := rfl
@[simp] theorem State.putReqs_mem (x : Requests) : (s.putReqs x).mem = s.mem := rfl
@[simp] theorem State.putReqs_now (x : Requests) : (s.putReqs x).now = s.now := rfl
@[simp] theorem State.putReqs_cycle (x : Requests) : (s.putReqs x).cycle = s.cycle := rfl
@[simp] theorem State.putReqs_pending (x : Requests) : (s.putReqs x).pending = s.pending := rfl
@[simp] theorem State.putReqs_freeCtr (x : Requests) : (s.putReqs x).freeCtr = s.freeCtr := rfl
@[simp] theorem State.putReqs_chans (x : Requests) : (s.putReqs x).chans = s.chans := rfl
@[simp] theorem State.putReqs_points (x : Requests) : (s.putReqs x).points = s.points := rfl
@[simp] theorem State.putReqs_pins (x : Requests) : (s.putReqs x).pins = s.pins := rfl
@[simp] theorem State.putReqs_secs (x : Requests) : (s.putReqs x).secs = s.secs := rfl
@[simp] theorem State.putReqs_encs (x : Requests) : (s.putReqs x).encs = s.encs := rfl
@[simp] theorem State.putReqs_units (x : Requests) : (s.putReqs x).units = s.units := rfl
@[simp] theorem State.putReqs_cmps (x : Requests) : (s.putReqs x).cmps = s.cmps := rfl
@[simp] theorem State.putReqs_ests (x : Requests) : (s.putReqs x).ests = s.ests := rfl
@[simp] theorem State.putReqs_ledger (x : Requests) : (s.putReqs x).ledger = s.ledger := rfl
@[simp] theorem State.putReqs_restores (x : Requests) : (s.putReqs x).restores = s.restores := rfl
@[simp] theorem State.putReqs_snap (x : Requests) : (s.putReqs x).snap = s.snap := rfl
@[simp] theorem State.putReqs_tone (x : Requests) : (s.putReqs x).tone = s.tone := rfl
@[simp] theorem State.putReqs_bcw (x : Requests) : (s.putReqs x).bcw = s.bcw := rfl
@[simp] theorem State.putReqs_fab (x : Requests) : (s.putReqs x).fab = s.fab := rfl
@[simp] theorem State.putReqs_toSafe (x : Requests) : (s.putReqs x).toSafe = s.toSafe := rfl
@[simp] theorem State.putReqs_lines (x : Requests) : (s.putReqs x).lines = s.lines := rfl
@[simp] theorem State.putReqs_ext (x : Requests) : (s.putReqs x).ext = s.ext := rfl
@[simp] theorem State.putReqs_sio (x : Requests) : (s.putReqs x).sio = s.sio := rfl
@[simp] theorem State.putReqs_spu (x : Requests) : (s.putReqs x).spu = s.spu := rfl
@[simp] theorem State.putReqs_boot (x : Requests) : (s.putReqs x).boot = s.boot := rfl
@[simp] theorem State.putReqs_can (x : Requests) : (s.putReqs x).can = s.can := rfl
@[simp] theorem State.putReqs_ste (x : Requests) : (s.putReqs x).ste = s.ste := rfl
@[simp] theorem State.putReqs_tl (x : Requests) : (s.putReqs x).tl = s.tl := rfl
@[simp] theorem State.putReqs_hosts (x : Requests) : (s.putReqs x).hosts = s.hosts := rfl
@[simp] theorem State.putReqs_flash (x : Requests) : (s.putReqs x).flash = s.flash := rfl
@[simp] theorem State.putReqs_up (x : Requests) : (s.putReqs x).up = s.up := rfl
@[simp] theorem State.putReqs_link (x : Requests) : (s.putReqs x).link = s.link := rfl
@[simp] theorem State.putReqs_balls (x : Requests) : (s.putReqs x).balls = s.balls := rfl
@[simp] theorem State.putReqs_indicAt (x : Requests) : (s.putReqs x).indicAt = s.indicAt := rfl
@[simp] theorem State.putReqs_tookOver (x : Requests) : (s.putReqs x).tookOver = s.tookOver := rfl
@[simp] theorem State.putReqs_srcFails (x : Requests) : (s.putReqs x).srcFails = s.srcFails := rfl
@[simp] theorem State.putReqs_reqs (x : Requests) : (s.putReqs x).reqs = x := rfl
@[simp] theorem State.get_putReqs (x : Requests) (g : Fld) (j : Nat) : (s.putReqs x).get g j = s.get g j := rfl
@[simp] theorem State.byte_putReqs (x : Requests) (addr : Nat) : (s.putReqs x).byte addr = s.byte addr := rfl

/-! ### putBcw -/

@[simp] theorem State.putBcw_regs (x : Bcw) : (s.putBcw x).regs = s.regs := rfl
@[simp] theorem State.putBcw_mem (x : Bcw) : (s.putBcw x).mem = s.mem := rfl
@[simp] theorem State.putBcw_now (x : Bcw) : (s.putBcw x).now = s.now := rfl
@[simp] theorem State.putBcw_cycle (x : Bcw) : (s.putBcw x).cycle = s.cycle := rfl
@[simp] theorem State.putBcw_pending (x : Bcw) : (s.putBcw x).pending = s.pending := rfl
@[simp] theorem State.putBcw_freeCtr (x : Bcw) : (s.putBcw x).freeCtr = s.freeCtr := rfl
@[simp] theorem State.putBcw_chans (x : Bcw) : (s.putBcw x).chans = s.chans := rfl
@[simp] theorem State.putBcw_points (x : Bcw) : (s.putBcw x).points = s.points := rfl
@[simp] theorem State.putBcw_pins (x : Bcw) : (s.putBcw x).pins = s.pins := rfl
@[simp] theorem State.putBcw_secs (x : Bcw) : (s.putBcw x).secs = s.secs := rfl
@[simp] theorem State.putBcw_encs (x : Bcw) : (s.putBcw x).encs = s.encs := rfl
@[simp] theorem State.putBcw_units (x : Bcw) : (s.putBcw x).units = s.units := rfl
@[simp] theorem State.putBcw_cmps (x : Bcw) : (s.putBcw x).cmps = s.cmps := rfl
@[simp] theorem State.putBcw_ests (x : Bcw) : (s.putBcw x).ests = s.ests := rfl
@[simp] theorem State.putBcw_ledger (x : Bcw) : (s.putBcw x).ledger = s.ledger := rfl
@[simp] theorem State.putBcw_reqs (x : Bcw) : (s.putBcw x).reqs = s.reqs := rfl
@[simp] theorem State.putBcw_restores (x : Bcw) : (s.putBcw x).restores = s.restores := rfl
@[simp] theorem State.putBcw_snap (x : Bcw) : (s.putBcw x).snap = s.snap := rfl
@[simp] theorem State.putBcw_tone (x : Bcw) : (s.putBcw x).tone = s.tone := rfl
@[simp] theorem State.putBcw_fab (x : Bcw) : (s.putBcw x).fab = s.fab := rfl
@[simp] theorem State.putBcw_toSafe (x : Bcw) : (s.putBcw x).toSafe = s.toSafe := rfl
@[simp] theorem State.putBcw_lines (x : Bcw) : (s.putBcw x).lines = s.lines := rfl
@[simp] theorem State.putBcw_ext (x : Bcw) : (s.putBcw x).ext = s.ext := rfl
@[simp] theorem State.putBcw_sio (x : Bcw) : (s.putBcw x).sio = s.sio := rfl
@[simp] theorem State.putBcw_spu (x : Bcw) : (s.putBcw x).spu = s.spu := rfl
@[simp] theorem State.putBcw_boot (x : Bcw) : (s.putBcw x).boot = s.boot := rfl
@[simp] theorem State.putBcw_can (x : Bcw) : (s.putBcw x).can = s.can := rfl
@[simp] theorem State.putBcw_ste (x : Bcw) : (s.putBcw x).ste = s.ste := rfl
@[simp] theorem State.putBcw_tl (x : Bcw) : (s.putBcw x).tl = s.tl := rfl
@[simp] theorem State.putBcw_hosts (x : Bcw) : (s.putBcw x).hosts = s.hosts := rfl
@[simp] theorem State.putBcw_flash (x : Bcw) : (s.putBcw x).flash = s.flash := rfl
@[simp] theorem State.putBcw_up (x : Bcw) : (s.putBcw x).up = s.up := rfl
@[simp] theorem State.putBcw_link (x : Bcw) : (s.putBcw x).link = s.link := rfl
@[simp] theorem State.putBcw_balls (x : Bcw) : (s.putBcw x).balls = s.balls := rfl
@[simp] theorem State.putBcw_indicAt (x : Bcw) : (s.putBcw x).indicAt = s.indicAt := rfl
@[simp] theorem State.putBcw_tookOver (x : Bcw) : (s.putBcw x).tookOver = s.tookOver := rfl
@[simp] theorem State.putBcw_srcFails (x : Bcw) : (s.putBcw x).srcFails = s.srcFails := rfl
@[simp] theorem State.putBcw_bcw (x : Bcw) : (s.putBcw x).bcw = x := rfl
@[simp] theorem State.get_putBcw (x : Bcw) (g : Fld) (j : Nat) : (s.putBcw x).get g j = s.get g j := rfl
@[simp] theorem State.byte_putBcw (x : Bcw) (addr : Nat) : (s.putBcw x).byte addr = s.byte addr := rfl

/-! ### putTl -/

@[simp] theorem State.putTl_regs (x : TlLink) : (s.putTl x).regs = s.regs := rfl
@[simp] theorem State.putTl_mem (x : TlLink) : (s.putTl x).mem = s.mem := rfl
@[simp] theorem State.putTl_now (x : TlLink) : (s.putTl x).now = s.now := rfl
@[simp] theorem State.putTl_cycle (x : TlLink) : (s.putTl x).cycle = s.cycle := rfl
@[simp] theorem State.putTl_pending (x : TlLink) : (s.putTl x).pending = s.pending := rfl
@[simp] theorem State.putTl_freeCtr (x : TlLink) : (s.putTl x).freeCtr = s.freeCtr := rfl
@[simp] theorem State.putTl_chans (x : TlLink) : (s.putTl x).chans = s.chans := rfl
@[simp] theorem State.putTl_points (x : TlLink) : (s.putTl x).points = s.points := rfl
@[simp] theorem State.putTl_pins (x : TlLink) : (s.putTl x).pins = s.pins := rfl
@[simp] theorem State.putTl_secs (x : TlLink) : (s.putTl x).secs = s.secs := rfl
@[simp] theorem State.putTl_encs (x : TlLink) : (s.putTl x).encs = s.encs := rfl
@[simp] theorem State.putTl_units (x : TlLink) : (s.putTl x).units = s.units := rfl
@[simp] theorem State.putTl_cmps (x : TlLink) : (s.putTl x).cmps = s.cmps := rfl
@[simp] theorem State.putTl_ests (x : TlLink) : (s.putTl x).ests = s.ests := rfl
@[simp] theorem State.putTl_ledger (x : TlLink) : (s.putTl x).ledger = s.ledger := rfl
@[simp] theorem State.putTl_reqs (x : TlLink) : (s.putTl x).reqs = s.reqs := rfl
@[simp] theorem State.putTl_restores (x : TlLink) : (s.putTl x).restores = s.restores := rfl
@[simp] theorem State.putTl_snap (x : TlLink) : (s.putTl x).snap = s.snap := rfl
@[simp] theorem State.putTl_tone (x : TlLink) : (s.putTl x).tone = s.tone := rfl
@[simp] theorem State.putTl_bcw (x : TlLink) : (s.putTl x).bcw = s.bcw := rfl
@[simp] theorem State.putTl_fab (x : TlLink) : (s.putTl x).fab = s.fab := rfl
@[simp] theorem State.putTl_toSafe (x : TlLink) : (s.putTl x).toSafe = s.toSafe := rfl
@[simp] theorem State.putTl_lines (x : TlLink) : (s.putTl x).lines = s.lines := rfl
@[simp] theorem State.putTl_ext (x : TlLink) : (s.putTl x).ext = s.ext := rfl
@[simp] theorem State.putTl_sio (x : TlLink) : (s.putTl x).sio = s.sio := rfl
@[simp] theorem State.putTl_spu (x : TlLink) : (s.putTl x).spu = s.spu := rfl
@[simp] theorem State.putTl_boot (x : TlLink) : (s.putTl x).boot = s.boot := rfl
@[simp] theorem State.putTl_can (x : TlLink) : (s.putTl x).can = s.can := rfl
@[simp] theorem State.putTl_ste (x : TlLink) : (s.putTl x).ste = s.ste := rfl
@[simp] theorem State.putTl_hosts (x : TlLink) : (s.putTl x).hosts = s.hosts := rfl
@[simp] theorem State.putTl_flash (x : TlLink) : (s.putTl x).flash = s.flash := rfl
@[simp] theorem State.putTl_up (x : TlLink) : (s.putTl x).up = s.up := rfl
@[simp] theorem State.putTl_link (x : TlLink) : (s.putTl x).link = s.link := rfl
@[simp] theorem State.putTl_balls (x : TlLink) : (s.putTl x).balls = s.balls := rfl
@[simp] theorem State.putTl_indicAt (x : TlLink) : (s.putTl x).indicAt = s.indicAt := rfl
@[simp] theorem State.putTl_tookOver (x : TlLink) : (s.putTl x).tookOver = s.tookOver := rfl
@[simp] theorem State.putTl_srcFails (x : TlLink) : (s.putTl x).srcFails = s.srcFails := rfl
@[simp] theorem State.putTl_tl (x : TlLink) : (s.putTl x).tl = x := rfl
@[simp] theorem State.get_putTl (x : TlLink) (g : Fld) (j : Nat) : (s.putTl x).get g j = s.get g j := rfl
@[simp] theorem State.byte_putTl (x : TlLink) (addr : Nat) : (s.putTl x).byte addr = s.byte addr := rfl

/-! ### putFab -/

@[simp] theorem State.putFab_regs (x : Fabric) : (s.putFab x).regs = s.regs := rfl
@[simp] theorem State.putFab_mem (x : Fabric) : (s.putFab x).mem = s.mem := rfl
@[simp] theorem State.putFab_now (x : Fabric) : (s.putFab x).now = s.now := rfl
@[simp] theorem State.putFab_cycle (x : Fabric) : (s.putFab x).cycle = s.cycle := rfl
@[simp] theorem State.putFab_pending (x : Fabric) : (s.putFab x).pending = s.pending := rfl
@[simp] theorem State.putFab_freeCtr (x : Fabric) : (s.putFab x).freeCtr = s.freeCtr := rfl
@[simp] theorem State.putFab_chans (x : Fabric) : (s.putFab x).chans = s.chans := rfl
@[simp] theorem State.putFab_points (x : Fabric) : (s.putFab x).points = s.points := rfl
@[simp] theorem State.putFab_pins (x : Fabric) : (s.putFab x).pins = s.pins := rfl
@[simp] theorem State.putFab_secs (x : Fabric) : (s.putFab x).secs = s.secs := rfl
@[simp] theorem State.putFab_encs (x : Fabric) : (s.putFab x).encs = s.encs := rfl
@[simp] theorem State.putFab_units (x : Fabric) : (s.putFab x).units = s.units := rfl
@[simp] theorem State.putFab_cmps (x : Fabric) : (s.putFab x).cmps = s.cmps := rfl
@[simp] theorem State.putFab_ests (x : Fabric) : (s.putFab x).ests = s.ests := rfl
@[simp] theorem State.putFab_ledger (x : Fabric) : (s.putFab x).ledger = s.ledger := rfl
@[simp] theorem State.putFab_reqs (x : Fabric) : (s.putFab x).reqs = s.reqs := rfl
@[simp] theorem State.putFab_restores (x : Fabric) : (s.putFab x).restores = s.restores := rfl
@[simp] theorem State.putFab_snap (x : Fabric) : (s.putFab x).snap = s.snap := rfl
@[simp] theorem State.putFab_tone (x : Fabric) : (s.putFab x).tone = s.tone := rfl
@[simp] theorem State.putFab_bcw (x : Fabric) : (s.putFab x).bcw = s.bcw := rfl
@[simp] theorem State.putFab_toSafe (x : Fabric) : (s.putFab x).toSafe = s.toSafe := rfl
@[simp] theorem State.putFab_lines (x : Fabric) : (s.putFab x).lines = s.lines := rfl
@[simp] theorem State.putFab_ext (x : Fabric) : (s.putFab x).ext = s.ext := rfl
@[simp] theorem State.putFab_sio (x : Fabric) : (s.putFab x).sio = s.sio := rfl
@[simp] theorem State.putFab_spu (x : Fabric) : (s.putFab x).spu = s.spu := rfl
@[simp] theorem State.putFab_boot (x : Fabric) : (s.putFab x).boot = s.boot := rfl
@[simp] theorem State.putFab_can (x : Fabric) : (s.putFab x).can = s.can := rfl
@[simp] theorem State.putFab_ste (x : Fabric) : (s.putFab x).ste = s.ste := rfl
@[simp] theorem State.putFab_tl (x : Fabric) : (s.putFab x).tl = s.tl := rfl
@[simp] theorem State.putFab_hosts (x : Fabric) : (s.putFab x).hosts = s.hosts := rfl
@[simp] theorem State.putFab_flash (x : Fabric) : (s.putFab x).flash = s.flash := rfl
@[simp] theorem State.putFab_up (x : Fabric) : (s.putFab x).up = s.up := rfl
@[simp] theorem State.putFab_link (x : Fabric) : (s.putFab x).link = s.link := rfl
@[simp] theorem State.putFab_balls (x : Fabric) : (s.putFab x).balls = s.balls := rfl
@[simp] theorem State.putFab_indicAt (x : Fabric) : (s.putFab x).indicAt = s.indicAt := rfl
@[simp] theorem State.putFab_tookOver (x : Fabric) : (s.putFab x).tookOver = s.tookOver := rfl
@[simp] theorem State.putFab_srcFails (x : Fabric) : (s.putFab x).srcFails = s.srcFails := rfl
@[simp] theorem State.putFab_fab (x : Fabric) : (s.putFab x).fab = x := rfl
@[simp] theorem State.get_putFab (x : Fabric) (g : Fld) (j : Nat) : (s.putFab x).get g j = s.get g j := rfl
@[simp] theorem State.byte_putFab (x : Fabric) (addr : Nat) : (s.putFab x).byte addr = s.byte addr := rfl

/-! ### putRestores -/

@[simp] theorem State.putRestores_regs (x : Restores) : (s.putRestores x).regs = s.regs := rfl
@[simp] theorem State.putRestores_mem (x : Restores) : (s.putRestores x).mem = s.mem := rfl
@[simp] theorem State.putRestores_now (x : Restores) : (s.putRestores x).now = s.now := rfl
@[simp] theorem State.putRestores_cycle (x : Restores) : (s.putRestores x).cycle = s.cycle := rfl
@[simp] theorem State.putRestores_pending (x : Restores) : (s.putRestores x).pending = s.pending := rfl
@[simp] theorem State.putRestores_freeCtr (x : Restores) : (s.putRestores x).freeCtr = s.freeCtr := rfl
@[simp] theorem State.putRestores_chans (x : Restores) : (s.putRestores x).chans = s.chans := rfl
@[simp] theorem State.putRestores_points (x : Restores) : (s.putRestores x).points = s.points := rfl
@[simp] theorem State.putRestores_pins (x : Restores) : (s.putRestores x).pins = s.pins := rfl
@[simp] theorem State.putRestores_secs (x : Restores) : (s.putRestores x).secs = s.secs := rfl
@[simp] theorem State.putRestores_encs (x : Restores) : (s.putRestores x).encs = s.encs := rfl
@[simp] theorem State.putRestores_units (x : Restores) : (s.putRestores x).units = s.units := rfl
@[simp] theorem State.putRestores_cmps (x : Restores) : (s.putRestores x).cmps = s.cmps := rfl
@[simp] theorem State.putRestores_ests (x : Restores) : (s.putRestores x).ests = s.ests := rfl
@[simp] theorem State.putRestores_ledger (x : Restores) : (s.putRestores x).ledger = s.ledger := rfl
@[simp] theorem State.putRestores_reqs (x : Restores) : (s.putRestores x).reqs = s.reqs := rfl
@[simp] theorem State.putRestores_snap (x : Restores) : (s.putRestores x).snap = s.snap := rfl
@[simp] theorem State.putRestores_tone (x : Restores) : (s.putRestores x).tone = s.tone := rfl
@[simp] theorem State.putRestores_bcw (x : Restores) : (s.putRestores x).bcw = s.bcw := rfl
@[simp] theorem State.putRestores_fab (x : Restores) : (s.putRestores x).fab = s.fab := rfl
@[simp] theorem State.putRestores_toSafe (x : Restores) : (s.putRestores x).toSafe = s.toSafe := rfl
@[simp] theorem State.putRestores_lines (x : Restores) : (s.putRestores x).lines = s.lines := rfl
@[simp] theorem State.putRestores_ext (x : Restores) : (s.putRestores x).ext = s.ext := rfl
@[simp] theorem State.putRestores_sio (x : Restores) : (s.putRestores x).sio = s.sio := rfl
@[simp] theorem State.putRestores_spu (x : Restores) : (s.putRestores x).spu = s.spu := rfl
@[simp] theorem State.putRestores_boot (x : Restores) : (s.putRestores x).boot = s.boot := rfl
@[simp] theorem State.putRestores_can (x : Restores) : (s.putRestores x).can = s.can := rfl
@[simp] theorem State.putRestores_ste (x : Restores) : (s.putRestores x).ste = s.ste := rfl
@[simp] theorem State.putRestores_tl (x : Restores) : (s.putRestores x).tl = s.tl := rfl
@[simp] theorem State.putRestores_hosts (x : Restores) : (s.putRestores x).hosts = s.hosts := rfl
@[simp] theorem State.putRestores_flash (x : Restores) : (s.putRestores x).flash = s.flash := rfl
@[simp] theorem State.putRestores_up (x : Restores) : (s.putRestores x).up = s.up := rfl
@[simp] theorem State.putRestores_link (x : Restores) : (s.putRestores x).link = s.link := rfl
@[simp] theorem State.putRestores_balls (x : Restores) : (s.putRestores x).balls = s.balls := rfl
@[simp] theorem State.putRestores_indicAt (x : Restores) : (s.putRestores x).indicAt = s.indicAt := rfl
@[simp] theorem State.putRestores_tookOver (x : Restores) : (s.putRestores x).tookOver = s.tookOver := rfl
@[simp] theorem State.putRestores_srcFails (x : Restores) : (s.putRestores x).srcFails = s.srcFails := rfl
@[simp] theorem State.putRestores_restores (x : Restores) : (s.putRestores x).restores = x := rfl
@[simp] theorem State.get_putRestores (x : Restores) (g : Fld) (j : Nat) : (s.putRestores x).get g j = s.get g j := rfl
@[simp] theorem State.byte_putRestores (x : Restores) (addr : Nat) : (s.putRestores x).byte addr = s.byte addr := rfl

/-! ### putLink -/

@[simp] theorem State.putLink_regs (x : Link) : (s.putLink x).regs = s.regs := rfl
@[simp] theorem State.putLink_mem (x : Link) : (s.putLink x).mem = s.mem := rfl
@[simp] theorem State.putLink_now (x : Link) : (s.putLink x).now = s.now := rfl
@[simp] theorem State.putLink_cycle (x : Link) : (s.putLink x).cycle = s.cycle := rfl
@[simp] theorem State.putLink_pending (x : Link) : (s.putLink x).pending = s.pending := rfl
@[simp] theorem State.putLink_freeCtr (x : Link) : (s.putLink x).freeCtr = s.freeCtr := rfl
@[simp] theorem State.putLink_chans (x : Link) : (s.putLink x).chans = s.chans := rfl
@[simp] theorem State.putLink_points (x : Link) : (s.putLink x).points = s.points := rfl
@[simp] theorem State.putLink_pins (x : Link) : (s.putLink x).pins = s.pins := rfl
@[simp] theorem State.putLink_secs (x : Link) : (s.putLink x).secs = s.secs := rfl
@[simp] theorem State.putLink_encs (x : Link) : (s.putLink x).encs = s.encs := rfl
@[simp] theorem State.putLink_units (x : Link) : (s.putLink x).units = s.units := rfl
@[simp] theorem State.putLink_cmps (x : Link) : (s.putLink x).cmps = s.cmps := rfl
@[simp] theorem State.putLink_ests (x : Link) : (s.putLink x).ests = s.ests := rfl
@[simp] theorem State.putLink_ledger (x : Link) : (s.putLink x).ledger = s.ledger := rfl
@[simp] theorem State.putLink_reqs (x : Link) : (s.putLink x).reqs = s.reqs := rfl
@[simp] theorem State.putLink_restores (x : Link) : (s.putLink x).restores = s.restores := rfl
@[simp] theorem State.putLink_snap (x : Link) : (s.putLink x).snap = s.snap := rfl
@[simp] theorem State.putLink_tone (x : Link) : (s.putLink x).tone = s.tone := rfl
@[simp] theorem State.putLink_bcw (x : Link) : (s.putLink x).bcw = s.bcw := rfl
@[simp] theorem State.putLink_fab (x : Link) : (s.putLink x).fab = s.fab := rfl
@[simp] theorem State.putLink_toSafe (x : Link) : (s.putLink x).toSafe = s.toSafe := rfl
@[simp] theorem State.putLink_lines (x : Link) : (s.putLink x).lines = s.lines := rfl
@[simp] theorem State.putLink_ext (x : Link) : (s.putLink x).ext = s.ext := rfl
@[simp] theorem State.putLink_sio (x : Link) : (s.putLink x).sio = s.sio := rfl
@[simp] theorem State.putLink_spu (x : Link) : (s.putLink x).spu = s.spu := rfl
@[simp] theorem State.putLink_boot (x : Link) : (s.putLink x).boot = s.boot := rfl
@[simp] theorem State.putLink_can (x : Link) : (s.putLink x).can = s.can := rfl
@[simp] theorem State.putLink_ste (x : Link) : (s.putLink x).ste = s.ste := rfl
@[simp] theorem State.putLink_tl (x : Link) : (s.putLink x).tl = s.tl := rfl
@[simp] theorem State.putLink_hosts (x : Link) : (s.putLink x).hosts = s.hosts := rfl
@[simp] theorem State.putLink_flash (x : Link) : (s.putLink x).flash = s.flash := rfl
@[simp] theorem State.putLink_up (x : Link) : (s.putLink x).up = s.up := rfl
@[simp] theorem State.putLink_balls (x : Link) : (s.putLink x).balls = s.balls := rfl
@[simp] theorem State.putLink_indicAt (x : Link) : (s.putLink x).indicAt = s.indicAt := rfl
@[simp] theorem State.putLink_tookOver (x : Link) : (s.putLink x).tookOver = s.tookOver := rfl
@[simp] theorem State.putLink_srcFails (x : Link) : (s.putLink x).srcFails = s.srcFails := rfl
@[simp] theorem State.putLink_link (x : Link) : (s.putLink x).link = x := rfl
@[simp] theorem State.get_putLink (x : Link) (g : Fld) (j : Nat) : (s.putLink x).get g j = s.get g j := rfl
@[simp] theorem State.byte_putLink (x : Link) (addr : Nat) : (s.putLink x).byte addr = s.byte addr := rfl

/-! ### putExt -/

@[simp] theorem State.putExt_regs (x : Ext) : (s.putExt x).regs = s.regs := rfl
@[simp] theorem State.putExt_mem (x : Ext) : (s.putExt x).mem = s.mem := rfl
@[simp] theorem State.putExt_now (x : Ext) : (s.putExt x).now = s.now := rfl
@[simp] theorem State.putExt_cycle (x : Ext) : (s.putExt x).cycle = s.cycle := rfl
@[simp] theorem State.putExt_pending (x : Ext) : (s.putExt x).pending = s.pending := rfl
@[simp] theorem State.putExt_freeCtr (x : Ext) : (s.putExt x).freeCtr = s.freeCtr := rfl
@[simp] theorem State.putExt_chans (x : Ext) : (s.putExt x).chans = s.chans := rfl
@[simp] theorem State.putExt_points (x : Ext) : (s.putExt x).points = s.points := rfl
@[simp] theorem State.putExt_pins (x : Ext) : (s.putExt x).pins = s.pins := rfl
@[simp] theorem State.putExt_secs (x : Ext) : (s.putExt x).secs = s.secs := rfl
@[simp] theorem State.putExt_encs (x : Ext) : (s.putExt x).encs = s.encs := rfl
@[simp] theorem State.putExt_units (x : Ext) : (s.putExt x).units = s.units := rfl
@[simp] theorem State.putExt_cmps (x : Ext) : (s.putExt x).cmps = s.cmps := rfl
@[simp] theorem State.putExt_ests (x : Ext) : (s.putExt x).ests = s.ests := rfl
@[simp] theorem State.putExt_ledger (x : Ext) : (s.putExt x).ledger = s.ledger := rfl
@[simp] theorem State.putExt_reqs (x : Ext) : (s.putExt x).reqs = s.reqs := rfl
@[simp] theorem State.putExt_restores (x : Ext) : (s.putExt x).restores = s.restores := rfl
@[simp] theorem State.putExt_snap (x : Ext) : (s.putExt x).snap = s.snap := rfl
@[simp] theorem State.putExt_tone (x : Ext) : (s.putExt x).tone = s.tone := rfl
@[simp] theorem State.putExt_bcw (x : Ext) : (s.putExt x).bcw = s.bcw := rfl
@[simp] theorem State.putExt_fab (x : Ext) : (s.putExt x).fab = s.fab := rfl
@[simp] theorem State.putExt_toSafe (x : Ext) : (s.putExt x).toSafe = s.toSafe := rfl
@[simp] theorem State.putExt_lines (x : Ext) : (s.putExt x).lines = s.lines := rfl
@[simp] theorem State.putExt_sio (x : Ext) : (s.putExt x).sio = s.sio := rfl
@[simp] theorem State.putExt_spu (x : Ext) : (s.putExt x).spu = s.spu := rfl
@[simp] theorem State.putExt_boot (x : Ext) : (s.putExt x).boot = s.boot := rfl
@[simp] theorem State.putExt_can (x : Ext) : (s.putExt x).can = s.can := rfl
@[simp] theorem State.putExt_ste (x : Ext) : (s.putExt x).ste = s.ste := rfl
@[simp] theorem State.putExt_tl (x : Ext) : (s.putExt x).tl = s.tl := rfl
@[simp] theorem State.putExt_hosts (x : Ext) : (s.putExt x).hosts = s.hosts := rfl
@[simp] theorem State.putExt_flash (x : Ext) : (s.putExt x).flash = s.flash := rfl
@[simp] theorem State.putExt_up (x : Ext) : (s.putExt x).up = s.up := rfl
@[simp] theorem State.putExt_link (x : Ext) : (s.putExt x).link = s.link := rfl
@[simp] theorem State.putExt_balls (x : Ext) : (s.putExt x).balls = s.balls := rfl
@[simp] theorem State.putExt_indicAt (x : Ext) : (s.putExt x).indicAt = s.indicAt := rfl
@[simp] theorem State.putExt_tookOver (x : Ext) : (s.putExt x).tookOver = s.tookOver := rfl
@[simp] theorem State.putExt_srcFails (x : Ext) : (s.putExt x).srcFails = s.srcFails := rfl
@[simp] theorem State.putExt_ext (x : Ext) : (s.putExt x).ext = x := rfl
@[simp] theorem State.get_putExt (x : Ext) (g : Fld) (j : Nat) : (s.putExt x).get g j = s.get g j := rfl
@[simp] theorem State.byte_putExt (x : Ext) (addr : Nat) : (s.putExt x).byte addr = s.byte addr := rfl

/-! ### putUp -/

@[simp] theorem State.putUp_regs (x : Option Upload) : (s.putUp x).regs = s.regs := rfl
@[simp] theorem State.putUp_mem (x : Option Upload) : (s.putUp x).mem = s.mem := rfl
@[simp] theorem State.putUp_now (x : Option Upload) : (s.putUp x).now = s.now := rfl
@[simp] theorem State.putUp_cycle (x : Option Upload) : (s.putUp x).cycle = s.cycle := rfl
@[simp] theorem State.putUp_pending (x : Option Upload) : (s.putUp x).pending = s.pending := rfl
@[simp] theorem State.putUp_freeCtr (x : Option Upload) : (s.putUp x).freeCtr = s.freeCtr := rfl
@[simp] theorem State.putUp_chans (x : Option Upload) : (s.putUp x).chans = s.chans := rfl
@[simp] theorem State.putUp_points (x : Option Upload) : (s.putUp x).points = s.points := rfl
@[simp] theorem State.putUp_pins (x : Option Upload) : (s.putUp x).pins = s.pins := rfl
@[simp] theorem State.putUp_secs (x : Option Upload) : (s.putUp x).secs = s.secs := rfl
@[simp] theorem State.putUp_encs (x : Option Upload) : (s.putUp x).encs = s.encs := rfl
@[simp] theorem State.putUp_units (x : Option Upload) : (s.putUp x).units = s.units := rfl
@[simp] theorem State.putUp_cmps (x : Option Upload) : (s.putUp x).cmps = s.cmps := rfl
@[simp] theorem State.putUp_ests (x : Option Upload) : (s.putUp x).ests = s.ests := rfl
@[simp] theorem State.putUp_ledger (x : Option Upload) : (s.putUp x).ledger = s.ledger := rfl
@[simp] theorem State.putUp_reqs (x : Option Upload) : (s.putUp x).reqs = s.reqs := rfl
@[simp] theorem State.putUp_restores (x : Option Upload) : (s.putUp x).restores = s.restores := rfl
@[simp] theorem State.putUp_snap (x : Option Upload) : (s.putUp x).snap = s.snap := rfl
@[simp] theorem State.putUp_tone (x : Option Upload) : (s.putUp x).tone = s.tone := rfl
@[simp] theorem State.putUp_bcw (x : Option Upload) : (s.putUp x).bcw = s.bcw := rfl
@[simp] theorem State.putUp_fab (x : Option Upload) : (s.putUp x).fab = s.fab := rfl
@[simp] theorem State.putUp_toSafe (x : Option Upload) : (s.putUp x).toSafe = s.toSafe := rfl
@[simp] theorem State.putUp_lines (x : Option Upload) : (s.putUp x).lines = s.lines := rfl
@[simp] theorem State.putUp_ext (x : Option Upload) : (s.putUp x).ext = s.ext := rfl
@[simp] theorem State.putUp_sio (x : Option Upload) : (s.putUp x).sio = s.sio := rfl
@[simp] theorem State.putUp_spu (x : Option Upload) : (s.putUp x).spu = s.spu := rfl
@[simp] theorem State.putUp_boot (x : Option Upload) : (s.putUp x).boot = s.boot := rfl
@[simp] theorem State.putUp_can (x : Option Upload) : (s.putUp x).can = s.can := rfl
@[simp] theorem State.putUp_ste (x : Option Upload) : (s.putUp x).ste = s.ste := rfl
@[simp] theorem State.putUp_tl (x : Option Upload) : (s.putUp x).tl = s.tl := rfl
@[simp] theorem State.putUp_hosts (x : Option Upload) : (s.putUp x).hosts = s.hosts := rfl
@[simp] theorem State.putUp_flash (x : Option Upload) : (s.putUp x).flash = s.flash := rfl
@[simp] theorem State.putUp_link (x : Option Upload) : (s.putUp x).link = s.link := rfl
@[simp] theorem State.putUp_balls (x : Option Upload) : (s.putUp x).balls = s.balls := rfl
@[simp] theorem State.putUp_indicAt (x : Option Upload) : (s.putUp x).indicAt = s.indicAt := rfl
@[simp] theorem State.putUp_tookOver (x : Option Upload) : (s.putUp x).tookOver = s.tookOver := rfl
@[simp] theorem State.putUp_srcFails (x : Option Upload) : (s.putUp x).srcFails = s.srcFails := rfl
@[simp] theorem State.putUp_up (x : Option Upload) : (s.putUp x).up = x := rfl
@[simp] theorem State.get_putUp (x : Option Upload) (g : Fld) (j : Nat) : (s.putUp x).get g j = s.get g j := rfl
@[simp] theorem State.byte_putUp (x : Option Upload) (addr : Nat) : (s.putUp x).byte addr = s.byte addr := rfl

/-! ### putSio -/

@[simp] theorem State.putSio_regs (x : Sio) : (s.putSio x).regs = s.regs := rfl
@[simp] theorem State.putSio_mem (x : Sio) : (s.putSio x).mem = s.mem := rfl
@[simp] theorem State.putSio_now (x : Sio) : (s.putSio x).now = s.now := rfl
@[simp] theorem State.putSio_cycle (x : Sio) : (s.putSio x).cycle = s.cycle := rfl
@[simp] theorem State.putSio_pending (x : Sio) : (s.putSio x).pending = s.pending := rfl
@[simp] theorem State.putSio_freeCtr (x : Sio) : (s.putSio x).freeCtr = s.freeCtr := rfl
@[simp] theorem State.putSio_chans (x : Sio) : (s.putSio x).chans = s.chans := rfl
@[simp] theorem State.putSio_points (x : Sio) : (s.putSio x).points = s.points := rfl
@[simp] theorem State.putSio_pins (x : Sio) : (s.putSio x).pins = s.pins := rfl
@[simp] theorem State.putSio_secs (x : Sio) : (s.putSio x).secs = s.secs := rfl
@[simp] theorem State.putSio_encs (x : Sio) : (s.putSio x).encs = s.encs := rfl
@[simp] theorem State.putSio_units (x : Sio) : (s.putSio x).units = s.units := rfl
@[simp] theorem State.putSio_cmps (x : Sio) : (s.putSio x).cmps = s.cmps := rfl
@[simp] theorem State.putSio_ests (x : Sio) : (s.putSio x).ests = s.ests := rfl
@[simp] theorem State.putSio_ledger (x : Sio) : (s.putSio x).ledger = s.ledger := rfl
@[simp] theorem State.putSio_reqs (x : Sio) : (s.putSio x).reqs = s.reqs := rfl
@[simp] theorem State.putSio_restores (x : Sio) : (s.putSio x).restores = s.restores := rfl
@[simp] theorem State.putSio_snap (x : Sio) : (s.putSio x).snap = s.snap := rfl
@[simp] theorem State.putSio_tone (x : Sio) : (s.putSio x).tone = s.tone := rfl
@[simp] theorem State.putSio_bcw (x : Sio) : (s.putSio x).bcw = s.bcw := rfl
@[simp] theorem State.putSio_fab (x : Sio) : (s.putSio x).fab = s.fab := rfl
@[simp] theorem State.putSio_toSafe (x : Sio) : (s.putSio x).toSafe = s.toSafe := rfl
@[simp] theorem State.putSio_lines (x : Sio) : (s.putSio x).lines = s.lines := rfl
@[simp] theorem State.putSio_ext (x : Sio) : (s.putSio x).ext = s.ext := rfl
@[simp] theorem State.putSio_spu (x : Sio) : (s.putSio x).spu = s.spu := rfl
@[simp] theorem State.putSio_boot (x : Sio) : (s.putSio x).boot = s.boot := rfl
@[simp] theorem State.putSio_can (x : Sio) : (s.putSio x).can = s.can := rfl
@[simp] theorem State.putSio_ste (x : Sio) : (s.putSio x).ste = s.ste := rfl
@[simp] theorem State.putSio_tl (x : Sio) : (s.putSio x).tl = s.tl := rfl
@[simp] theorem State.putSio_hosts (x : Sio) : (s.putSio x).hosts = s.hosts := rfl
@[simp] theorem State.putSio_flash (x : Sio) : (s.putSio x).flash = s.flash := rfl
@[simp] theorem State.putSio_up (x : Sio) : (s.putSio x).up = s.up := rfl
@[simp] theorem State.putSio_link (x : Sio) : (s.putSio x).link = s.link := rfl
@[simp] theorem State.putSio_balls (x : Sio) : (s.putSio x).balls = s.balls := rfl
@[simp] theorem State.putSio_indicAt (x : Sio) : (s.putSio x).indicAt = s.indicAt := rfl
@[simp] theorem State.putSio_tookOver (x : Sio) : (s.putSio x).tookOver = s.tookOver := rfl
@[simp] theorem State.putSio_srcFails (x : Sio) : (s.putSio x).srcFails = s.srcFails := rfl
@[simp] theorem State.putSio_sio (x : Sio) : (s.putSio x).sio = x := rfl
@[simp] theorem State.get_putSio (x : Sio) (g : Fld) (j : Nat) : (s.putSio x).get g j = s.get g j := rfl
@[simp] theorem State.byte_putSio (x : Sio) (addr : Nat) : (s.putSio x).byte addr = s.byte addr := rfl

/-! ### putSnap -/

@[simp] theorem State.putSnap_regs (x : Option Snap) : (s.putSnap x).regs = s.regs := rfl
@[simp] theorem State.putSnap_mem (x : Option Snap) : (s.putSnap x).mem = s.mem := rfl
@[simp] theorem State.putSnap_now (x : Option Snap) : (s.putSnap x).now = s.now := rfl
@[simp] theorem State.putSnap_cycle (x : Option Snap) : (s.putSnap x).cycle = s.cycle := rfl
@[simp] theorem State.putSnap_pending (x : Option Snap) : (s.putSnap x).pending = s.pending := rfl
@[simp] theorem State.putSnap_freeCtr (x : Option Snap) : (s.putSnap x).freeCtr = s.freeCtr := rfl
@[simp] theorem State.putSnap_chans (x : Option Snap) : (s.putSnap x).chans = s.chans := rfl
@[simp] theorem State.putSnap_points (x : Option Snap) : (s.putSnap x).points = s.points := rfl
@[simp] theorem State.putSnap_pins (x : Option Snap) : (s.putSnap x).pins = s.pins := rfl
@[simp] theorem State.putSnap_secs (x : Option Snap) : (s.putSnap x).secs = s.secs := rfl
@[simp] theorem State.putSnap_encs (x : Option Snap) : (s.putSnap x).encs = s.encs := rfl
@[simp] theorem State.putSnap_units (x : Option Snap) : (s.putSnap x).units = s.units := rfl
@[simp] theorem State.putSnap_cmps (x : Option Snap) : (s.putSnap x).cmps = s.cmps := rfl
@[simp] theorem State.putSnap_ests (x : Option Snap) : (s.putSnap x).ests = s.ests := rfl
@[simp] theorem State.putSnap_ledger (x : Option Snap) : (s.putSnap x).ledger = s.ledger := rfl
@[simp] theorem State.putSnap_reqs (x : Option Snap) : (s.putSnap x).reqs = s.reqs := rfl
@[simp] theorem State.putSnap_restores (x : Option Snap) : (s.putSnap x).restores = s.restores := rfl
@[simp] theorem State.putSnap_tone (x : Option Snap) : (s.putSnap x).tone = s.tone := rfl
@[simp] theorem State.putSnap_bcw (x : Option Snap) : (s.putSnap x).bcw = s.bcw := rfl
@[simp] theorem State.putSnap_fab (x : Option Snap) : (s.putSnap x).fab = s.fab := rfl
@[simp] theorem State.putSnap_toSafe (x : Option Snap) : (s.putSnap x).toSafe = s.toSafe := rfl
@[simp] theorem State.putSnap_lines (x : Option Snap) : (s.putSnap x).lines = s.lines := rfl
@[simp] theorem State.putSnap_ext (x : Option Snap) : (s.putSnap x).ext = s.ext := rfl
@[simp] theorem State.putSnap_sio (x : Option Snap) : (s.putSnap x).sio = s.sio := rfl
@[simp] theorem State.putSnap_spu (x : Option Snap) : (s.putSnap x).spu = s.spu := rfl
@[simp] theorem State.putSnap_boot (x : Option Snap) : (s.putSnap x).boot = s.boot := rfl
@[simp] theorem State.putSnap_can (x : Option Snap) : (s.putSnap x).can = s.can := rfl
@[simp] theorem State.putSnap_ste (x : Option Snap) : (s.putSnap x).ste = s.ste := rfl
@[simp] theorem State.putSnap_tl (x : Option Snap) : (s.putSnap x).tl = s.tl := rfl
@[simp] theorem State.putSnap_hosts (x : Option Snap) : (s.putSnap x).hosts = s.hosts := rfl
@[simp] theorem State.putSnap_flash (x : Option Snap) : (s.putSnap x).flash = s.flash := rfl
@[simp] theorem State.putSnap_up (x : Option Snap) : (s.putSnap x).up = s.up := rfl
@[simp] theorem State.putSnap_link (x : Option Snap) : (s.putSnap x).link = s.link := rfl
@[simp] theorem State.putSnap_balls (x : Option Snap) : (s.putSnap x).balls = s.balls := rfl
@[simp] theorem State.putSnap_indicAt (x : Option Snap) : (s.putSnap x).indicAt = s.indicAt := rfl
@[simp] theorem State.putSnap_tookOver (x : Option Snap) : (s.putSnap x).tookOver = s.tookOver := rfl
@[simp] theorem State.putSnap_srcFails (x : Option Snap) : (s.putSnap x).srcFails = s.srcFails := rfl
@[simp] theorem State.putSnap_snap (x : Option Snap) : (s.putSnap x).snap = x := rfl
@[simp] theorem State.get_putSnap (x : Option Snap) (g : Fld) (j : Nat) : (s.putSnap x).get g j = s.get g j := rfl
@[simp] theorem State.byte_putSnap (x : Option Snap) (addr : Nat) : (s.putSnap x).byte addr = s.byte addr := rfl

/-! ### putTone -/

@[simp] theorem State.putTone_regs (x : Tone) : (s.putTone x).regs = s.regs := rfl
@[simp] theorem State.putTone_mem (x : Tone) : (s.putTone x).mem = s.mem := rfl
@[simp] theorem State.putTone_now (x : Tone) : (s.putTone x).now = s.now := rfl
@[simp] theorem State.putTone_cycle (x : Tone) : (s.putTone x).cycle = s.cycle := rfl
@[simp] theorem State.putTone_pending (x : Tone) : (s.putTone x).pending = s.pending := rfl
@[simp] theorem State.putTone_freeCtr (x : Tone) : (s.putTone x).freeCtr = s.freeCtr := rfl
@[simp] theorem State.putTone_chans (x : Tone) : (s.putTone x).chans = s.chans := rfl
@[simp] theorem State.putTone_points (x : Tone) : (s.putTone x).points = s.points := rfl
@[simp] theorem State.putTone_pins (x : Tone) : (s.putTone x).pins = s.pins := rfl
@[simp] theorem State.putTone_secs (x : Tone) : (s.putTone x).secs = s.secs := rfl
@[simp] theorem State.putTone_encs (x : Tone) : (s.putTone x).encs = s.encs := rfl
@[simp] theorem State.putTone_units (x : Tone) : (s.putTone x).units = s.units := rfl
@[simp] theorem State.putTone_cmps (x : Tone) : (s.putTone x).cmps = s.cmps := rfl
@[simp] theorem State.putTone_ests (x : Tone) : (s.putTone x).ests = s.ests := rfl
@[simp] theorem State.putTone_ledger (x : Tone) : (s.putTone x).ledger = s.ledger := rfl
@[simp] theorem State.putTone_reqs (x : Tone) : (s.putTone x).reqs = s.reqs := rfl
@[simp] theorem State.putTone_restores (x : Tone) : (s.putTone x).restores = s.restores := rfl
@[simp] theorem State.putTone_snap (x : Tone) : (s.putTone x).snap = s.snap := rfl
@[simp] theorem State.putTone_bcw (x : Tone) : (s.putTone x).bcw = s.bcw := rfl
@[simp] theorem State.putTone_fab (x : Tone) : (s.putTone x).fab = s.fab := rfl
@[simp] theorem State.putTone_toSafe (x : Tone) : (s.putTone x).toSafe = s.toSafe := rfl
@[simp] theorem State.putTone_lines (x : Tone) : (s.putTone x).lines = s.lines := rfl
@[simp] theorem State.putTone_ext (x : Tone) : (s.putTone x).ext = s.ext := rfl
@[simp] theorem State.putTone_sio (x : Tone) : (s.putTone x).sio = s.sio := rfl
@[simp] theorem State.putTone_spu (x : Tone) : (s.putTone x).spu = s.spu := rfl
@[simp] theorem State.putTone_boot (x : Tone) : (s.putTone x).boot = s.boot := rfl
@[simp] theorem State.putTone_can (x : Tone) : (s.putTone x).can = s.can := rfl
@[simp] theorem State.putTone_ste (x : Tone) : (s.putTone x).ste = s.ste := rfl
@[simp] theorem State.putTone_tl (x : Tone) : (s.putTone x).tl = s.tl := rfl
@[simp] theorem State.putTone_hosts (x : Tone) : (s.putTone x).hosts = s.hosts := rfl
@[simp] theorem State.putTone_flash (x : Tone) : (s.putTone x).flash = s.flash := rfl
@[simp] theorem State.putTone_up (x : Tone) : (s.putTone x).up = s.up := rfl
@[simp] theorem State.putTone_link (x : Tone) : (s.putTone x).link = s.link := rfl
@[simp] theorem State.putTone_balls (x : Tone) : (s.putTone x).balls = s.balls := rfl
@[simp] theorem State.putTone_indicAt (x : Tone) : (s.putTone x).indicAt = s.indicAt := rfl
@[simp] theorem State.putTone_tookOver (x : Tone) : (s.putTone x).tookOver = s.tookOver := rfl
@[simp] theorem State.putTone_srcFails (x : Tone) : (s.putTone x).srcFails = s.srcFails := rfl
@[simp] theorem State.putTone_tone (x : Tone) : (s.putTone x).tone = x := rfl
@[simp] theorem State.get_putTone (x : Tone) (g : Fld) (j : Nat) : (s.putTone x).get g j = s.get g j := rfl
@[simp] theorem State.byte_putTone (x : Tone) (addr : Nat) : (s.putTone x).byte addr = s.byte addr := rfl

/-! ### putEsts -/

@[simp] theorem State.putEsts_regs (x : List AxleEst) : (s.putEsts x).regs = s.regs := rfl
@[simp] theorem State.putEsts_mem (x : List AxleEst) : (s.putEsts x).mem = s.mem := rfl
@[simp] theorem State.putEsts_now (x : List AxleEst) : (s.putEsts x).now = s.now := rfl
@[simp] theorem State.putEsts_cycle (x : List AxleEst) : (s.putEsts x).cycle = s.cycle := rfl
@[simp] theorem State.putEsts_pending (x : List AxleEst) : (s.putEsts x).pending = s.pending := rfl
@[simp] theorem State.putEsts_freeCtr (x : List AxleEst) : (s.putEsts x).freeCtr = s.freeCtr := rfl
@[simp] theorem State.putEsts_chans (x : List AxleEst) : (s.putEsts x).chans = s.chans := rfl
@[simp] theorem State.putEsts_points (x : List AxleEst) : (s.putEsts x).points = s.points := rfl
@[simp] theorem State.putEsts_pins (x : List AxleEst) : (s.putEsts x).pins = s.pins := rfl
@[simp] theorem State.putEsts_secs (x : List AxleEst) : (s.putEsts x).secs = s.secs := rfl
@[simp] theorem State.putEsts_encs (x : List AxleEst) : (s.putEsts x).encs = s.encs := rfl
@[simp] theorem State.putEsts_units (x : List AxleEst) : (s.putEsts x).units = s.units := rfl
@[simp] theorem State.putEsts_cmps (x : List AxleEst) : (s.putEsts x).cmps = s.cmps := rfl
@[simp] theorem State.putEsts_ledger (x : List AxleEst) : (s.putEsts x).ledger = s.ledger := rfl
@[simp] theorem State.putEsts_reqs (x : List AxleEst) : (s.putEsts x).reqs = s.reqs := rfl
@[simp] theorem State.putEsts_restores (x : List AxleEst) : (s.putEsts x).restores = s.restores := rfl
@[simp] theorem State.putEsts_snap (x : List AxleEst) : (s.putEsts x).snap = s.snap := rfl
@[simp] theorem State.putEsts_tone (x : List AxleEst) : (s.putEsts x).tone = s.tone := rfl
@[simp] theorem State.putEsts_bcw (x : List AxleEst) : (s.putEsts x).bcw = s.bcw := rfl
@[simp] theorem State.putEsts_fab (x : List AxleEst) : (s.putEsts x).fab = s.fab := rfl
@[simp] theorem State.putEsts_toSafe (x : List AxleEst) : (s.putEsts x).toSafe = s.toSafe := rfl
@[simp] theorem State.putEsts_lines (x : List AxleEst) : (s.putEsts x).lines = s.lines := rfl
@[simp] theorem State.putEsts_ext (x : List AxleEst) : (s.putEsts x).ext = s.ext := rfl
@[simp] theorem State.putEsts_sio (x : List AxleEst) : (s.putEsts x).sio = s.sio := rfl
@[simp] theorem State.putEsts_spu (x : List AxleEst) : (s.putEsts x).spu = s.spu := rfl
@[simp] theorem State.putEsts_boot (x : List AxleEst) : (s.putEsts x).boot = s.boot := rfl
@[simp] theorem State.putEsts_can (x : List AxleEst) : (s.putEsts x).can = s.can := rfl
@[simp] theorem State.putEsts_ste (x : List AxleEst) : (s.putEsts x).ste = s.ste := rfl
@[simp] theorem State.putEsts_tl (x : List AxleEst) : (s.putEsts x).tl = s.tl := rfl
@[simp] theorem State.putEsts_hosts (x : List AxleEst) : (s.putEsts x).hosts = s.hosts := rfl
@[simp] theorem State.putEsts_flash (x : List AxleEst) : (s.putEsts x).flash = s.flash := rfl
@[simp] theorem State.putEsts_up (x : List AxleEst) : (s.putEsts x).up = s.up := rfl
@[simp] theorem State.putEsts_link (x : List AxleEst) : (s.putEsts x).link = s.link := rfl
@[simp] theorem State.putEsts_balls (x : List AxleEst) : (s.putEsts x).balls = s.balls := rfl
@[simp] theorem State.putEsts_indicAt (x : List AxleEst) : (s.putEsts x).indicAt = s.indicAt := rfl
@[simp] theorem State.putEsts_tookOver (x : List AxleEst) : (s.putEsts x).tookOver = s.tookOver := rfl
@[simp] theorem State.putEsts_srcFails (x : List AxleEst) : (s.putEsts x).srcFails = s.srcFails := rfl
@[simp] theorem State.putEsts_ests (x : List AxleEst) : (s.putEsts x).ests = x := rfl
@[simp] theorem State.get_putEsts (x : List AxleEst) (g : Fld) (j : Nat) : (s.putEsts x).get g j = s.get g j := rfl
@[simp] theorem State.byte_putEsts (x : List AxleEst) (addr : Nat) : (s.putEsts x).byte addr = s.byte addr := rfl

/-! ### putToSafe -/

@[simp] theorem State.putToSafe_regs (x : List Nat) : (s.putToSafe x).regs = s.regs := rfl
@[simp] theorem State.putToSafe_mem (x : List Nat) : (s.putToSafe x).mem = s.mem := rfl
@[simp] theorem State.putToSafe_now (x : List Nat) : (s.putToSafe x).now = s.now := rfl
@[simp] theorem State.putToSafe_cycle (x : List Nat) : (s.putToSafe x).cycle = s.cycle := rfl
@[simp] theorem State.putToSafe_pending (x : List Nat) : (s.putToSafe x).pending = s.pending := rfl
@[simp] theorem State.putToSafe_freeCtr (x : List Nat) : (s.putToSafe x).freeCtr = s.freeCtr := rfl
@[simp] theorem State.putToSafe_chans (x : List Nat) : (s.putToSafe x).chans = s.chans := rfl
@[simp] theorem State.putToSafe_points (x : List Nat) : (s.putToSafe x).points = s.points := rfl
@[simp] theorem State.putToSafe_pins (x : List Nat) : (s.putToSafe x).pins = s.pins := rfl
@[simp] theorem State.putToSafe_secs (x : List Nat) : (s.putToSafe x).secs = s.secs := rfl
@[simp] theorem State.putToSafe_encs (x : List Nat) : (s.putToSafe x).encs = s.encs := rfl
@[simp] theorem State.putToSafe_units (x : List Nat) : (s.putToSafe x).units = s.units := rfl
@[simp] theorem State.putToSafe_cmps (x : List Nat) : (s.putToSafe x).cmps = s.cmps := rfl
@[simp] theorem State.putToSafe_ests (x : List Nat) : (s.putToSafe x).ests = s.ests := rfl
@[simp] theorem State.putToSafe_ledger (x : List Nat) : (s.putToSafe x).ledger = s.ledger := rfl
@[simp] theorem State.putToSafe_reqs (x : List Nat) : (s.putToSafe x).reqs = s.reqs := rfl
@[simp] theorem State.putToSafe_restores (x : List Nat) : (s.putToSafe x).restores = s.restores := rfl
@[simp] theorem State.putToSafe_snap (x : List Nat) : (s.putToSafe x).snap = s.snap := rfl
@[simp] theorem State.putToSafe_tone (x : List Nat) : (s.putToSafe x).tone = s.tone := rfl
@[simp] theorem State.putToSafe_bcw (x : List Nat) : (s.putToSafe x).bcw = s.bcw := rfl
@[simp] theorem State.putToSafe_fab (x : List Nat) : (s.putToSafe x).fab = s.fab := rfl
@[simp] theorem State.putToSafe_lines (x : List Nat) : (s.putToSafe x).lines = s.lines := rfl
@[simp] theorem State.putToSafe_ext (x : List Nat) : (s.putToSafe x).ext = s.ext := rfl
@[simp] theorem State.putToSafe_sio (x : List Nat) : (s.putToSafe x).sio = s.sio := rfl
@[simp] theorem State.putToSafe_spu (x : List Nat) : (s.putToSafe x).spu = s.spu := rfl
@[simp] theorem State.putToSafe_boot (x : List Nat) : (s.putToSafe x).boot = s.boot := rfl
@[simp] theorem State.putToSafe_can (x : List Nat) : (s.putToSafe x).can = s.can := rfl
@[simp] theorem State.putToSafe_ste (x : List Nat) : (s.putToSafe x).ste = s.ste := rfl
@[simp] theorem State.putToSafe_tl (x : List Nat) : (s.putToSafe x).tl = s.tl := rfl
@[simp] theorem State.putToSafe_hosts (x : List Nat) : (s.putToSafe x).hosts = s.hosts := rfl
@[simp] theorem State.putToSafe_flash (x : List Nat) : (s.putToSafe x).flash = s.flash := rfl
@[simp] theorem State.putToSafe_up (x : List Nat) : (s.putToSafe x).up = s.up := rfl
@[simp] theorem State.putToSafe_link (x : List Nat) : (s.putToSafe x).link = s.link := rfl
@[simp] theorem State.putToSafe_balls (x : List Nat) : (s.putToSafe x).balls = s.balls := rfl
@[simp] theorem State.putToSafe_indicAt (x : List Nat) : (s.putToSafe x).indicAt = s.indicAt := rfl
@[simp] theorem State.putToSafe_tookOver (x : List Nat) : (s.putToSafe x).tookOver = s.tookOver := rfl
@[simp] theorem State.putToSafe_srcFails (x : List Nat) : (s.putToSafe x).srcFails = s.srcFails := rfl
@[simp] theorem State.putToSafe_toSafe (x : List Nat) : (s.putToSafe x).toSafe = x := rfl
@[simp] theorem State.get_putToSafe (x : List Nat) (g : Fld) (j : Nat) : (s.putToSafe x).get g j = s.get g j := rfl
@[simp] theorem State.byte_putToSafe (x : List Nat) (addr : Nat) : (s.putToSafe x).byte addr = s.byte addr := rfl

/-! ### putFlash -/

@[simp] theorem State.putFlash_regs (x : Flash) : (s.putFlash x).regs = s.regs := rfl
@[simp] theorem State.putFlash_mem (x : Flash) : (s.putFlash x).mem = s.mem := rfl
@[simp] theorem State.putFlash_now (x : Flash) : (s.putFlash x).now = s.now := rfl
@[simp] theorem State.putFlash_cycle (x : Flash) : (s.putFlash x).cycle = s.cycle := rfl
@[simp] theorem State.putFlash_pending (x : Flash) : (s.putFlash x).pending = s.pending := rfl
@[simp] theorem State.putFlash_freeCtr (x : Flash) : (s.putFlash x).freeCtr = s.freeCtr := rfl
@[simp] theorem State.putFlash_chans (x : Flash) : (s.putFlash x).chans = s.chans := rfl
@[simp] theorem State.putFlash_points (x : Flash) : (s.putFlash x).points = s.points := rfl
@[simp] theorem State.putFlash_pins (x : Flash) : (s.putFlash x).pins = s.pins := rfl
@[simp] theorem State.putFlash_secs (x : Flash) : (s.putFlash x).secs = s.secs := rfl
@[simp] theorem State.putFlash_encs (x : Flash) : (s.putFlash x).encs = s.encs := rfl
@[simp] theorem State.putFlash_units (x : Flash) : (s.putFlash x).units = s.units := rfl
@[simp] theorem State.putFlash_cmps (x : Flash) : (s.putFlash x).cmps = s.cmps := rfl
@[simp] theorem State.putFlash_ests (x : Flash) : (s.putFlash x).ests = s.ests := rfl
@[simp] theorem State.putFlash_ledger (x : Flash) : (s.putFlash x).ledger = s.ledger := rfl
@[simp] theorem State.putFlash_reqs (x : Flash) : (s.putFlash x).reqs = s.reqs := rfl
@[simp] theorem State.putFlash_restores (x : Flash) : (s.putFlash x).restores = s.restores := rfl
@[simp] theorem State.putFlash_snap (x : Flash) : (s.putFlash x).snap = s.snap := rfl
@[simp] theorem State.putFlash_tone (x : Flash) : (s.putFlash x).tone = s.tone := rfl
@[simp] theorem State.putFlash_bcw (x : Flash) : (s.putFlash x).bcw = s.bcw := rfl
@[simp] theorem State.putFlash_fab (x : Flash) : (s.putFlash x).fab = s.fab := rfl
@[simp] theorem State.putFlash_toSafe (x : Flash) : (s.putFlash x).toSafe = s.toSafe := rfl
@[simp] theorem State.putFlash_lines (x : Flash) : (s.putFlash x).lines = s.lines := rfl
@[simp] theorem State.putFlash_ext (x : Flash) : (s.putFlash x).ext = s.ext := rfl
@[simp] theorem State.putFlash_sio (x : Flash) : (s.putFlash x).sio = s.sio := rfl
@[simp] theorem State.putFlash_spu (x : Flash) : (s.putFlash x).spu = s.spu := rfl
@[simp] theorem State.putFlash_boot (x : Flash) : (s.putFlash x).boot = s.boot := rfl
@[simp] theorem State.putFlash_can (x : Flash) : (s.putFlash x).can = s.can := rfl
@[simp] theorem State.putFlash_ste (x : Flash) : (s.putFlash x).ste = s.ste := rfl
@[simp] theorem State.putFlash_tl (x : Flash) : (s.putFlash x).tl = s.tl := rfl
@[simp] theorem State.putFlash_hosts (x : Flash) : (s.putFlash x).hosts = s.hosts := rfl
@[simp] theorem State.putFlash_up (x : Flash) : (s.putFlash x).up = s.up := rfl
@[simp] theorem State.putFlash_link (x : Flash) : (s.putFlash x).link = s.link := rfl
@[simp] theorem State.putFlash_balls (x : Flash) : (s.putFlash x).balls = s.balls := rfl
@[simp] theorem State.putFlash_indicAt (x : Flash) : (s.putFlash x).indicAt = s.indicAt := rfl
@[simp] theorem State.putFlash_tookOver (x : Flash) : (s.putFlash x).tookOver = s.tookOver := rfl
@[simp] theorem State.putFlash_srcFails (x : Flash) : (s.putFlash x).srcFails = s.srcFails := rfl
@[simp] theorem State.putFlash_flash (x : Flash) : (s.putFlash x).flash = x := rfl
@[simp] theorem State.get_putFlash (x : Flash) (g : Fld) (j : Nat) : (s.putFlash x).get g j = s.get g j := rfl
@[simp] theorem State.byte_putFlash (x : Flash) (addr : Nat) : (s.putFlash x).byte addr = s.byte addr := rfl

/-! ### putBalls -/

@[simp] theorem State.putBalls_regs (x : Nat × Nat × Nat) : (s.putBalls x).regs = s.regs := rfl
@[simp] theorem State.putBalls_mem (x : Nat × Nat × Nat) : (s.putBalls x).mem = s.mem := rfl
@[simp] theorem State.putBalls_now (x : Nat × Nat × Nat) : (s.putBalls x).now = s.now := rfl
@[simp] theorem State.putBalls_cycle (x : Nat × Nat × Nat) : (s.putBalls x).cycle = s.cycle := rfl
@[simp] theorem State.putBalls_pending (x : Nat × Nat × Nat) : (s.putBalls x).pending = s.pending := rfl
@[simp] theorem State.putBalls_freeCtr (x : Nat × Nat × Nat) : (s.putBalls x).freeCtr = s.freeCtr := rfl
@[simp] theorem State.putBalls_chans (x : Nat × Nat × Nat) : (s.putBalls x).chans = s.chans := rfl
@[simp] theorem State.putBalls_points (x : Nat × Nat × Nat) : (s.putBalls x).points = s.points := rfl
@[simp] theorem State.putBalls_pins (x : Nat × Nat × Nat) : (s.putBalls x).pins = s.pins := rfl
@[simp] theorem State.putBalls_secs (x : Nat × Nat × Nat) : (s.putBalls x).secs = s.secs := rfl
@[simp] theorem State.putBalls_encs (x : Nat × Nat × Nat) : (s.putBalls x).encs = s.encs := rfl
@[simp] theorem State.putBalls_units (x : Nat × Nat × Nat) : (s.putBalls x).units = s.units := rfl
@[simp] theorem State.putBalls_cmps (x : Nat × Nat × Nat) : (s.putBalls x).cmps = s.cmps := rfl
@[simp] theorem State.putBalls_ests (x : Nat × Nat × Nat) : (s.putBalls x).ests = s.ests := rfl
@[simp] theorem State.putBalls_ledger (x : Nat × Nat × Nat) : (s.putBalls x).ledger = s.ledger := rfl
@[simp] theorem State.putBalls_reqs (x : Nat × Nat × Nat) : (s.putBalls x).reqs = s.reqs := rfl
@[simp] theorem State.putBalls_restores (x : Nat × Nat × Nat) : (s.putBalls x).restores = s.restores := rfl
@[simp] theorem State.putBalls_snap (x : Nat × Nat × Nat) : (s.putBalls x).snap = s.snap := rfl
@[simp] theorem State.putBalls_tone (x : Nat × Nat × Nat) : (s.putBalls x).tone = s.tone := rfl
@[simp] theorem State.putBalls_bcw (x : Nat × Nat × Nat) : (s.putBalls x).bcw = s.bcw := rfl
@[simp] theorem State.putBalls_fab (x : Nat × Nat × Nat) : (s.putBalls x).fab = s.fab := rfl
@[simp] theorem State.putBalls_toSafe (x : Nat × Nat × Nat) : (s.putBalls x).toSafe = s.toSafe := rfl
@[simp] theorem State.putBalls_lines (x : Nat × Nat × Nat) : (s.putBalls x).lines = s.lines := rfl
@[simp] theorem State.putBalls_ext (x : Nat × Nat × Nat) : (s.putBalls x).ext = s.ext := rfl
@[simp] theorem State.putBalls_sio (x : Nat × Nat × Nat) : (s.putBalls x).sio = s.sio := rfl
@[simp] theorem State.putBalls_spu (x : Nat × Nat × Nat) : (s.putBalls x).spu = s.spu := rfl
@[simp] theorem State.putBalls_boot (x : Nat × Nat × Nat) : (s.putBalls x).boot = s.boot := rfl
@[simp] theorem State.putBalls_can (x : Nat × Nat × Nat) : (s.putBalls x).can = s.can := rfl
@[simp] theorem State.putBalls_ste (x : Nat × Nat × Nat) : (s.putBalls x).ste = s.ste := rfl
@[simp] theorem State.putBalls_tl (x : Nat × Nat × Nat) : (s.putBalls x).tl = s.tl := rfl
@[simp] theorem State.putBalls_hosts (x : Nat × Nat × Nat) : (s.putBalls x).hosts = s.hosts := rfl
@[simp] theorem State.putBalls_flash (x : Nat × Nat × Nat) : (s.putBalls x).flash = s.flash := rfl
@[simp] theorem State.putBalls_up (x : Nat × Nat × Nat) : (s.putBalls x).up = s.up := rfl
@[simp] theorem State.putBalls_link (x : Nat × Nat × Nat) : (s.putBalls x).link = s.link := rfl
@[simp] theorem State.putBalls_indicAt (x : Nat × Nat × Nat) : (s.putBalls x).indicAt = s.indicAt := rfl
@[simp] theorem State.putBalls_tookOver (x : Nat × Nat × Nat) : (s.putBalls x).tookOver = s.tookOver := rfl
@[simp] theorem State.putBalls_srcFails (x : Nat × Nat × Nat) : (s.putBalls x).srcFails = s.srcFails := rfl
@[simp] theorem State.putBalls_balls (x : Nat × Nat × Nat) : (s.putBalls x).balls = x := rfl
@[simp] theorem State.get_putBalls (x : Nat × Nat × Nat) (g : Fld) (j : Nat) : (s.putBalls x).get g j = s.get g j := rfl
@[simp] theorem State.byte_putBalls (x : Nat × Nat × Nat) (addr : Nat) : (s.putBalls x).byte addr = s.byte addr := rfl

/-! ### putIndicAt -/

@[simp] theorem State.putIndicAt_regs (x : Nat) : (s.putIndicAt x).regs = s.regs := rfl
@[simp] theorem State.putIndicAt_mem (x : Nat) : (s.putIndicAt x).mem = s.mem := rfl
@[simp] theorem State.putIndicAt_now (x : Nat) : (s.putIndicAt x).now = s.now := rfl
@[simp] theorem State.putIndicAt_cycle (x : Nat) : (s.putIndicAt x).cycle = s.cycle := rfl
@[simp] theorem State.putIndicAt_pending (x : Nat) : (s.putIndicAt x).pending = s.pending := rfl
@[simp] theorem State.putIndicAt_freeCtr (x : Nat) : (s.putIndicAt x).freeCtr = s.freeCtr := rfl
@[simp] theorem State.putIndicAt_chans (x : Nat) : (s.putIndicAt x).chans = s.chans := rfl
@[simp] theorem State.putIndicAt_points (x : Nat) : (s.putIndicAt x).points = s.points := rfl
@[simp] theorem State.putIndicAt_pins (x : Nat) : (s.putIndicAt x).pins = s.pins := rfl
@[simp] theorem State.putIndicAt_secs (x : Nat) : (s.putIndicAt x).secs = s.secs := rfl
@[simp] theorem State.putIndicAt_encs (x : Nat) : (s.putIndicAt x).encs = s.encs := rfl
@[simp] theorem State.putIndicAt_units (x : Nat) : (s.putIndicAt x).units = s.units := rfl
@[simp] theorem State.putIndicAt_cmps (x : Nat) : (s.putIndicAt x).cmps = s.cmps := rfl
@[simp] theorem State.putIndicAt_ests (x : Nat) : (s.putIndicAt x).ests = s.ests := rfl
@[simp] theorem State.putIndicAt_ledger (x : Nat) : (s.putIndicAt x).ledger = s.ledger := rfl
@[simp] theorem State.putIndicAt_reqs (x : Nat) : (s.putIndicAt x).reqs = s.reqs := rfl
@[simp] theorem State.putIndicAt_restores (x : Nat) : (s.putIndicAt x).restores = s.restores := rfl
@[simp] theorem State.putIndicAt_snap (x : Nat) : (s.putIndicAt x).snap = s.snap := rfl
@[simp] theorem State.putIndicAt_tone (x : Nat) : (s.putIndicAt x).tone = s.tone := rfl
@[simp] theorem State.putIndicAt_bcw (x : Nat) : (s.putIndicAt x).bcw = s.bcw := rfl
@[simp] theorem State.putIndicAt_fab (x : Nat) : (s.putIndicAt x).fab = s.fab := rfl
@[simp] theorem State.putIndicAt_toSafe (x : Nat) : (s.putIndicAt x).toSafe = s.toSafe := rfl
@[simp] theorem State.putIndicAt_lines (x : Nat) : (s.putIndicAt x).lines = s.lines := rfl
@[simp] theorem State.putIndicAt_ext (x : Nat) : (s.putIndicAt x).ext = s.ext := rfl
@[simp] theorem State.putIndicAt_sio (x : Nat) : (s.putIndicAt x).sio = s.sio := rfl
@[simp] theorem State.putIndicAt_spu (x : Nat) : (s.putIndicAt x).spu = s.spu := rfl
@[simp] theorem State.putIndicAt_boot (x : Nat) : (s.putIndicAt x).boot = s.boot := rfl
@[simp] theorem State.putIndicAt_can (x : Nat) : (s.putIndicAt x).can = s.can := rfl
@[simp] theorem State.putIndicAt_ste (x : Nat) : (s.putIndicAt x).ste = s.ste := rfl
@[simp] theorem State.putIndicAt_tl (x : Nat) : (s.putIndicAt x).tl = s.tl := rfl
@[simp] theorem State.putIndicAt_hosts (x : Nat) : (s.putIndicAt x).hosts = s.hosts := rfl
@[simp] theorem State.putIndicAt_flash (x : Nat) : (s.putIndicAt x).flash = s.flash := rfl
@[simp] theorem State.putIndicAt_up (x : Nat) : (s.putIndicAt x).up = s.up := rfl
@[simp] theorem State.putIndicAt_link (x : Nat) : (s.putIndicAt x).link = s.link := rfl
@[simp] theorem State.putIndicAt_balls (x : Nat) : (s.putIndicAt x).balls = s.balls := rfl
@[simp] theorem State.putIndicAt_tookOver (x : Nat) : (s.putIndicAt x).tookOver = s.tookOver := rfl
@[simp] theorem State.putIndicAt_srcFails (x : Nat) : (s.putIndicAt x).srcFails = s.srcFails := rfl
@[simp] theorem State.putIndicAt_indicAt (x : Nat) : (s.putIndicAt x).indicAt = x := rfl
@[simp] theorem State.get_putIndicAt (x : Nat) (g : Fld) (j : Nat) : (s.putIndicAt x).get g j = s.get g j := rfl
@[simp] theorem State.byte_putIndicAt (x : Nat) (addr : Nat) : (s.putIndicAt x).byte addr = s.byte addr := rfl

/-! ### putSrcFails -/

@[simp] theorem State.putSrcFails_regs (x : List SrcFail) : (s.putSrcFails x).regs = s.regs := rfl
@[simp] theorem State.putSrcFails_mem (x : List SrcFail) : (s.putSrcFails x).mem = s.mem := rfl
@[simp] theorem State.putSrcFails_now (x : List SrcFail) : (s.putSrcFails x).now = s.now := rfl
@[simp] theorem State.putSrcFails_cycle (x : List SrcFail) : (s.putSrcFails x).cycle = s.cycle := rfl
@[simp] theorem State.putSrcFails_pending (x : List SrcFail) : (s.putSrcFails x).pending = s.pending := rfl
@[simp] theorem State.putSrcFails_freeCtr (x : List SrcFail) : (s.putSrcFails x).freeCtr = s.freeCtr := rfl
@[simp] theorem State.putSrcFails_chans (x : List SrcFail) : (s.putSrcFails x).chans = s.chans := rfl
@[simp] theorem State.putSrcFails_points (x : List SrcFail) : (s.putSrcFails x).points = s.points := rfl
@[simp] theorem State.putSrcFails_pins (x : List SrcFail) : (s.putSrcFails x).pins = s.pins := rfl
@[simp] theorem State.putSrcFails_secs (x : List SrcFail) : (s.putSrcFails x).secs = s.secs := rfl
@[simp] theorem State.putSrcFails_encs (x : List SrcFail) : (s.putSrcFails x).encs = s.encs := rfl
@[simp] theorem State.putSrcFails_units (x : List SrcFail) : (s.putSrcFails x).units = s.units := rfl
@[simp] theorem State.putSrcFails_cmps (x : List SrcFail) : (s.putSrcFails x).cmps = s.cmps := rfl
@[simp] theorem State.putSrcFails_ests (x : List SrcFail) : (s.putSrcFails x).ests = s.ests := rfl
@[simp] theorem State.putSrcFails_ledger (x : List SrcFail) : (s.putSrcFails x).ledger = s.ledger := rfl
@[simp] theorem State.putSrcFails_reqs (x : List SrcFail) : (s.putSrcFails x).reqs = s.reqs := rfl
@[simp] theorem State.putSrcFails_restores (x : List SrcFail) : (s.putSrcFails x).restores = s.restores := rfl
@[simp] theorem State.putSrcFails_snap (x : List SrcFail) : (s.putSrcFails x).snap = s.snap := rfl
@[simp] theorem State.putSrcFails_tone (x : List SrcFail) : (s.putSrcFails x).tone = s.tone := rfl
@[simp] theorem State.putSrcFails_bcw (x : List SrcFail) : (s.putSrcFails x).bcw = s.bcw := rfl
@[simp] theorem State.putSrcFails_fab (x : List SrcFail) : (s.putSrcFails x).fab = s.fab := rfl
@[simp] theorem State.putSrcFails_toSafe (x : List SrcFail) : (s.putSrcFails x).toSafe = s.toSafe := rfl
@[simp] theorem State.putSrcFails_lines (x : List SrcFail) : (s.putSrcFails x).lines = s.lines := rfl
@[simp] theorem State.putSrcFails_ext (x : List SrcFail) : (s.putSrcFails x).ext = s.ext := rfl
@[simp] theorem State.putSrcFails_sio (x : List SrcFail) : (s.putSrcFails x).sio = s.sio := rfl
@[simp] theorem State.putSrcFails_spu (x : List SrcFail) : (s.putSrcFails x).spu = s.spu := rfl
@[simp] theorem State.putSrcFails_boot (x : List SrcFail) : (s.putSrcFails x).boot = s.boot := rfl
@[simp] theorem State.putSrcFails_can (x : List SrcFail) : (s.putSrcFails x).can = s.can := rfl
@[simp] theorem State.putSrcFails_ste (x : List SrcFail) : (s.putSrcFails x).ste = s.ste := rfl
@[simp] theorem State.putSrcFails_tl (x : List SrcFail) : (s.putSrcFails x).tl = s.tl := rfl
@[simp] theorem State.putSrcFails_hosts (x : List SrcFail) : (s.putSrcFails x).hosts = s.hosts := rfl
@[simp] theorem State.putSrcFails_flash (x : List SrcFail) : (s.putSrcFails x).flash = s.flash := rfl
@[simp] theorem State.putSrcFails_up (x : List SrcFail) : (s.putSrcFails x).up = s.up := rfl
@[simp] theorem State.putSrcFails_link (x : List SrcFail) : (s.putSrcFails x).link = s.link := rfl
@[simp] theorem State.putSrcFails_balls (x : List SrcFail) : (s.putSrcFails x).balls = s.balls := rfl
@[simp] theorem State.putSrcFails_indicAt (x : List SrcFail) : (s.putSrcFails x).indicAt = s.indicAt := rfl
@[simp] theorem State.putSrcFails_tookOver (x : List SrcFail) : (s.putSrcFails x).tookOver = s.tookOver := rfl
@[simp] theorem State.putSrcFails_srcFails (x : List SrcFail) : (s.putSrcFails x).srcFails = x := rfl
@[simp] theorem State.get_putSrcFails (x : List SrcFail) (g : Fld) (j : Nat) : (s.putSrcFails x).get g j = s.get g j := rfl
@[simp] theorem State.byte_putSrcFails (x : List SrcFail) (addr : Nat) : (s.putSrcFails x).byte addr = s.byte addr := rfl

/-! ### putTookOver -/

@[simp] theorem State.putTookOver_regs (x : Option Nat) : (s.putTookOver x).regs = s.regs := rfl
@[simp] theorem State.putTookOver_mem (x : Option Nat) : (s.putTookOver x).mem = s.mem := rfl
@[simp] theorem State.putTookOver_now (x : Option Nat) : (s.putTookOver x).now = s.now := rfl
@[simp] theorem State.putTookOver_cycle (x : Option Nat) : (s.putTookOver x).cycle = s.cycle := rfl
@[simp] theorem State.putTookOver_pending (x : Option Nat) : (s.putTookOver x).pending = s.pending := rfl
@[simp] theorem State.putTookOver_freeCtr (x : Option Nat) : (s.putTookOver x).freeCtr = s.freeCtr := rfl
@[simp] theorem State.putTookOver_chans (x : Option Nat) : (s.putTookOver x).chans = s.chans := rfl
@[simp] theorem State.putTookOver_points (x : Option Nat) : (s.putTookOver x).points = s.points := rfl
@[simp] theorem State.putTookOver_pins (x : Option Nat) : (s.putTookOver x).pins = s.pins := rfl
@[simp] theorem State.putTookOver_secs (x : Option Nat) : (s.putTookOver x).secs = s.secs := rfl
@[simp] theorem State.putTookOver_encs (x : Option Nat) : (s.putTookOver x).encs = s.encs := rfl
@[simp] theorem State.putTookOver_units (x : Option Nat) : (s.putTookOver x).units = s.units := rfl
@[simp] theorem State.putTookOver_cmps (x : Option Nat) : (s.putTookOver x).cmps = s.cmps := rfl
@[simp] theorem State.putTookOver_ests (x : Option Nat) : (s.putTookOver x).ests = s.ests := rfl
@[simp] theorem State.putTookOver_ledger (x : Option Nat) : (s.putTookOver x).ledger = s.ledger := rfl
@[simp] theorem State.putTookOver_reqs (x : Option Nat) : (s.putTookOver x).reqs = s.reqs := rfl
@[simp] theorem State.putTookOver_restores (x : Option Nat) : (s.putTookOver x).restores = s.restores := rfl
@[simp] theorem State.putTookOver_snap (x : Option Nat) : (s.putTookOver x).snap = s.snap := rfl
@[simp] theorem State.putTookOver_tone (x : Option Nat) : (s.putTookOver x).tone = s.tone := rfl
@[simp] theorem State.putTookOver_bcw (x : Option Nat) : (s.putTookOver x).bcw = s.bcw := rfl
@[simp] theorem State.putTookOver_fab (x : Option Nat) : (s.putTookOver x).fab = s.fab := rfl
@[simp] theorem State.putTookOver_toSafe (x : Option Nat) : (s.putTookOver x).toSafe = s.toSafe := rfl
@[simp] theorem State.putTookOver_lines (x : Option Nat) : (s.putTookOver x).lines = s.lines := rfl
@[simp] theorem State.putTookOver_ext (x : Option Nat) : (s.putTookOver x).ext = s.ext := rfl
@[simp] theorem State.putTookOver_sio (x : Option Nat) : (s.putTookOver x).sio = s.sio := rfl
@[simp] theorem State.putTookOver_spu (x : Option Nat) : (s.putTookOver x).spu = s.spu := rfl
@[simp] theorem State.putTookOver_boot (x : Option Nat) : (s.putTookOver x).boot = s.boot := rfl
@[simp] theorem State.putTookOver_can (x : Option Nat) : (s.putTookOver x).can = s.can := rfl
@[simp] theorem State.putTookOver_ste (x : Option Nat) : (s.putTookOver x).ste = s.ste := rfl
@[simp] theorem State.putTookOver_tl (x : Option Nat) : (s.putTookOver x).tl = s.tl := rfl
@[simp] theorem State.putTookOver_hosts (x : Option Nat) : (s.putTookOver x).hosts = s.hosts := rfl
@[simp] theorem State.putTookOver_flash (x : Option Nat) : (s.putTookOver x).flash = s.flash := rfl
@[simp] theorem State.putTookOver_up (x : Option Nat) : (s.putTookOver x).up = s.up := rfl
@[simp] theorem State.putTookOver_link (x : Option Nat) : (s.putTookOver x).link = s.link := rfl
@[simp] theorem State.putTookOver_balls (x : Option Nat) : (s.putTookOver x).balls = s.balls := rfl
@[simp] theorem State.putTookOver_indicAt (x : Option Nat) : (s.putTookOver x).indicAt = s.indicAt := rfl
@[simp] theorem State.putTookOver_srcFails (x : Option Nat) : (s.putTookOver x).srcFails = s.srcFails := rfl
@[simp] theorem State.putTookOver_tookOver (x : Option Nat) : (s.putTookOver x).tookOver = x := rfl
@[simp] theorem State.get_putTookOver (x : Option Nat) (g : Fld) (j : Nat) : (s.putTookOver x).get g j = s.get g j := rfl
@[simp] theorem State.byte_putTookOver (x : Option Nat) (addr : Nat) : (s.putTookOver x).byte addr = s.byte addr := rfl

/-! ### putPending -/

@[simp] theorem State.putPending_regs (x : List Instr) : (s.putPending x).regs = s.regs := rfl
@[simp] theorem State.putPending_mem (x : List Instr) : (s.putPending x).mem = s.mem := rfl
@[simp] theorem State.putPending_now (x : List Instr) : (s.putPending x).now = s.now := rfl
@[simp] theorem State.putPending_cycle (x : List Instr) : (s.putPending x).cycle = s.cycle := rfl
@[simp] theorem State.putPending_freeCtr (x : List Instr) : (s.putPending x).freeCtr = s.freeCtr := rfl
@[simp] theorem State.putPending_chans (x : List Instr) : (s.putPending x).chans = s.chans := rfl
@[simp] theorem State.putPending_points (x : List Instr) : (s.putPending x).points = s.points := rfl
@[simp] theorem State.putPending_pins (x : List Instr) : (s.putPending x).pins = s.pins := rfl
@[simp] theorem State.putPending_secs (x : List Instr) : (s.putPending x).secs = s.secs := rfl
@[simp] theorem State.putPending_encs (x : List Instr) : (s.putPending x).encs = s.encs := rfl
@[simp] theorem State.putPending_units (x : List Instr) : (s.putPending x).units = s.units := rfl
@[simp] theorem State.putPending_cmps (x : List Instr) : (s.putPending x).cmps = s.cmps := rfl
@[simp] theorem State.putPending_ests (x : List Instr) : (s.putPending x).ests = s.ests := rfl
@[simp] theorem State.putPending_ledger (x : List Instr) : (s.putPending x).ledger = s.ledger := rfl
@[simp] theorem State.putPending_reqs (x : List Instr) : (s.putPending x).reqs = s.reqs := rfl
@[simp] theorem State.putPending_restores (x : List Instr) : (s.putPending x).restores = s.restores := rfl
@[simp] theorem State.putPending_snap (x : List Instr) : (s.putPending x).snap = s.snap := rfl
@[simp] theorem State.putPending_tone (x : List Instr) : (s.putPending x).tone = s.tone := rfl
@[simp] theorem State.putPending_bcw (x : List Instr) : (s.putPending x).bcw = s.bcw := rfl
@[simp] theorem State.putPending_fab (x : List Instr) : (s.putPending x).fab = s.fab := rfl
@[simp] theorem State.putPending_toSafe (x : List Instr) : (s.putPending x).toSafe = s.toSafe := rfl
@[simp] theorem State.putPending_lines (x : List Instr) : (s.putPending x).lines = s.lines := rfl
@[simp] theorem State.putPending_ext (x : List Instr) : (s.putPending x).ext = s.ext := rfl
@[simp] theorem State.putPending_sio (x : List Instr) : (s.putPending x).sio = s.sio := rfl
@[simp] theorem State.putPending_spu (x : List Instr) : (s.putPending x).spu = s.spu := rfl
@[simp] theorem State.putPending_boot (x : List Instr) : (s.putPending x).boot = s.boot := rfl
@[simp] theorem State.putPending_can (x : List Instr) : (s.putPending x).can = s.can := rfl
@[simp] theorem State.putPending_ste (x : List Instr) : (s.putPending x).ste = s.ste := rfl
@[simp] theorem State.putPending_tl (x : List Instr) : (s.putPending x).tl = s.tl := rfl
@[simp] theorem State.putPending_hosts (x : List Instr) : (s.putPending x).hosts = s.hosts := rfl
@[simp] theorem State.putPending_flash (x : List Instr) : (s.putPending x).flash = s.flash := rfl
@[simp] theorem State.putPending_up (x : List Instr) : (s.putPending x).up = s.up := rfl
@[simp] theorem State.putPending_link (x : List Instr) : (s.putPending x).link = s.link := rfl
@[simp] theorem State.putPending_balls (x : List Instr) : (s.putPending x).balls = s.balls := rfl
@[simp] theorem State.putPending_indicAt (x : List Instr) : (s.putPending x).indicAt = s.indicAt := rfl
@[simp] theorem State.putPending_tookOver (x : List Instr) : (s.putPending x).tookOver = s.tookOver := rfl
@[simp] theorem State.putPending_srcFails (x : List Instr) : (s.putPending x).srcFails = s.srcFails := rfl
@[simp] theorem State.putPending_pending (x : List Instr) : (s.putPending x).pending = x := rfl
@[simp] theorem State.get_putPending (x : List Instr) (g : Fld) (j : Nat) : (s.putPending x).get g j = s.get g j := rfl
@[simp] theorem State.byte_putPending (x : List Instr) (addr : Nat) : (s.putPending x).byte addr = s.byte addr := rfl

/-! ### putCycle -/

@[simp] theorem State.putCycle_regs (x : Nat) : (s.putCycle x).regs = s.regs := rfl
@[simp] theorem State.putCycle_mem (x : Nat) : (s.putCycle x).mem = s.mem := rfl
@[simp] theorem State.putCycle_now (x : Nat) : (s.putCycle x).now = s.now := rfl
@[simp] theorem State.putCycle_pending (x : Nat) : (s.putCycle x).pending = s.pending := rfl
@[simp] theorem State.putCycle_freeCtr (x : Nat) : (s.putCycle x).freeCtr = s.freeCtr := rfl
@[simp] theorem State.putCycle_chans (x : Nat) : (s.putCycle x).chans = s.chans := rfl
@[simp] theorem State.putCycle_points (x : Nat) : (s.putCycle x).points = s.points := rfl
@[simp] theorem State.putCycle_pins (x : Nat) : (s.putCycle x).pins = s.pins := rfl
@[simp] theorem State.putCycle_secs (x : Nat) : (s.putCycle x).secs = s.secs := rfl
@[simp] theorem State.putCycle_encs (x : Nat) : (s.putCycle x).encs = s.encs := rfl
@[simp] theorem State.putCycle_units (x : Nat) : (s.putCycle x).units = s.units := rfl
@[simp] theorem State.putCycle_cmps (x : Nat) : (s.putCycle x).cmps = s.cmps := rfl
@[simp] theorem State.putCycle_ests (x : Nat) : (s.putCycle x).ests = s.ests := rfl
@[simp] theorem State.putCycle_ledger (x : Nat) : (s.putCycle x).ledger = s.ledger := rfl
@[simp] theorem State.putCycle_reqs (x : Nat) : (s.putCycle x).reqs = s.reqs := rfl
@[simp] theorem State.putCycle_restores (x : Nat) : (s.putCycle x).restores = s.restores := rfl
@[simp] theorem State.putCycle_snap (x : Nat) : (s.putCycle x).snap = s.snap := rfl
@[simp] theorem State.putCycle_tone (x : Nat) : (s.putCycle x).tone = s.tone := rfl
@[simp] theorem State.putCycle_bcw (x : Nat) : (s.putCycle x).bcw = s.bcw := rfl
@[simp] theorem State.putCycle_fab (x : Nat) : (s.putCycle x).fab = s.fab := rfl
@[simp] theorem State.putCycle_toSafe (x : Nat) : (s.putCycle x).toSafe = s.toSafe := rfl
@[simp] theorem State.putCycle_lines (x : Nat) : (s.putCycle x).lines = s.lines := rfl
@[simp] theorem State.putCycle_ext (x : Nat) : (s.putCycle x).ext = s.ext := rfl
@[simp] theorem State.putCycle_sio (x : Nat) : (s.putCycle x).sio = s.sio := rfl
@[simp] theorem State.putCycle_spu (x : Nat) : (s.putCycle x).spu = s.spu := rfl
@[simp] theorem State.putCycle_boot (x : Nat) : (s.putCycle x).boot = s.boot := rfl
@[simp] theorem State.putCycle_can (x : Nat) : (s.putCycle x).can = s.can := rfl
@[simp] theorem State.putCycle_ste (x : Nat) : (s.putCycle x).ste = s.ste := rfl
@[simp] theorem State.putCycle_tl (x : Nat) : (s.putCycle x).tl = s.tl := rfl
@[simp] theorem State.putCycle_hosts (x : Nat) : (s.putCycle x).hosts = s.hosts := rfl
@[simp] theorem State.putCycle_flash (x : Nat) : (s.putCycle x).flash = s.flash := rfl
@[simp] theorem State.putCycle_up (x : Nat) : (s.putCycle x).up = s.up := rfl
@[simp] theorem State.putCycle_link (x : Nat) : (s.putCycle x).link = s.link := rfl
@[simp] theorem State.putCycle_balls (x : Nat) : (s.putCycle x).balls = s.balls := rfl
@[simp] theorem State.putCycle_indicAt (x : Nat) : (s.putCycle x).indicAt = s.indicAt := rfl
@[simp] theorem State.putCycle_tookOver (x : Nat) : (s.putCycle x).tookOver = s.tookOver := rfl
@[simp] theorem State.putCycle_srcFails (x : Nat) : (s.putCycle x).srcFails = s.srcFails := rfl
@[simp] theorem State.putCycle_cycle (x : Nat) : (s.putCycle x).cycle = x := rfl
@[simp] theorem State.get_putCycle (x : Nat) (g : Fld) (j : Nat) : (s.putCycle x).get g j = s.get g j := rfl
@[simp] theorem State.byte_putCycle (x : Nat) (addr : Nat) : (s.putCycle x).byte addr = s.byte addr := rfl

/-! ### putNow -/

@[simp] theorem State.putNow_regs (x : Nat) : (s.putNow x).regs = s.regs := rfl
@[simp] theorem State.putNow_mem (x : Nat) : (s.putNow x).mem = s.mem := rfl
@[simp] theorem State.putNow_cycle (x : Nat) : (s.putNow x).cycle = s.cycle := rfl
@[simp] theorem State.putNow_pending (x : Nat) : (s.putNow x).pending = s.pending := rfl
@[simp] theorem State.putNow_freeCtr (x : Nat) : (s.putNow x).freeCtr = s.freeCtr := rfl
@[simp] theorem State.putNow_chans (x : Nat) : (s.putNow x).chans = s.chans := rfl
@[simp] theorem State.putNow_points (x : Nat) : (s.putNow x).points = s.points := rfl
@[simp] theorem State.putNow_pins (x : Nat) : (s.putNow x).pins = s.pins := rfl
@[simp] theorem State.putNow_secs (x : Nat) : (s.putNow x).secs = s.secs := rfl
@[simp] theorem State.putNow_encs (x : Nat) : (s.putNow x).encs = s.encs := rfl
@[simp] theorem State.putNow_units (x : Nat) : (s.putNow x).units = s.units := rfl
@[simp] theorem State.putNow_cmps (x : Nat) : (s.putNow x).cmps = s.cmps := rfl
@[simp] theorem State.putNow_ests (x : Nat) : (s.putNow x).ests = s.ests := rfl
@[simp] theorem State.putNow_ledger (x : Nat) : (s.putNow x).ledger = s.ledger := rfl
@[simp] theorem State.putNow_reqs (x : Nat) : (s.putNow x).reqs = s.reqs := rfl
@[simp] theorem State.putNow_restores (x : Nat) : (s.putNow x).restores = s.restores := rfl
@[simp] theorem State.putNow_snap (x : Nat) : (s.putNow x).snap = s.snap := rfl
@[simp] theorem State.putNow_tone (x : Nat) : (s.putNow x).tone = s.tone := rfl
@[simp] theorem State.putNow_bcw (x : Nat) : (s.putNow x).bcw = s.bcw := rfl
@[simp] theorem State.putNow_fab (x : Nat) : (s.putNow x).fab = s.fab := rfl
@[simp] theorem State.putNow_toSafe (x : Nat) : (s.putNow x).toSafe = s.toSafe := rfl
@[simp] theorem State.putNow_lines (x : Nat) : (s.putNow x).lines = s.lines := rfl
@[simp] theorem State.putNow_ext (x : Nat) : (s.putNow x).ext = s.ext := rfl
@[simp] theorem State.putNow_sio (x : Nat) : (s.putNow x).sio = s.sio := rfl
@[simp] theorem State.putNow_spu (x : Nat) : (s.putNow x).spu = s.spu := rfl
@[simp] theorem State.putNow_boot (x : Nat) : (s.putNow x).boot = s.boot := rfl
@[simp] theorem State.putNow_can (x : Nat) : (s.putNow x).can = s.can := rfl
@[simp] theorem State.putNow_ste (x : Nat) : (s.putNow x).ste = s.ste := rfl
@[simp] theorem State.putNow_tl (x : Nat) : (s.putNow x).tl = s.tl := rfl
@[simp] theorem State.putNow_hosts (x : Nat) : (s.putNow x).hosts = s.hosts := rfl
@[simp] theorem State.putNow_flash (x : Nat) : (s.putNow x).flash = s.flash := rfl
@[simp] theorem State.putNow_up (x : Nat) : (s.putNow x).up = s.up := rfl
@[simp] theorem State.putNow_link (x : Nat) : (s.putNow x).link = s.link := rfl
@[simp] theorem State.putNow_balls (x : Nat) : (s.putNow x).balls = s.balls := rfl
@[simp] theorem State.putNow_indicAt (x : Nat) : (s.putNow x).indicAt = s.indicAt := rfl
@[simp] theorem State.putNow_tookOver (x : Nat) : (s.putNow x).tookOver = s.tookOver := rfl
@[simp] theorem State.putNow_srcFails (x : Nat) : (s.putNow x).srcFails = s.srcFails := rfl
@[simp] theorem State.putNow_now (x : Nat) : (s.putNow x).now = x := rfl
@[simp] theorem State.get_putNow (x : Nat) (g : Fld) (j : Nat) : (s.putNow x).get g j = s.get g j := rfl
@[simp] theorem State.byte_putNow (x : Nat) (addr : Nat) : (s.putNow x).byte addr = s.byte addr := rfl

/-! ### putCan -/

@[simp] theorem State.putCan_regs (x : List CanCtl) : (s.putCan x).regs = s.regs := rfl
@[simp] theorem State.putCan_mem (x : List CanCtl) : (s.putCan x).mem = s.mem := rfl
@[simp] theorem State.putCan_now (x : List CanCtl) : (s.putCan x).now = s.now := rfl
@[simp] theorem State.putCan_cycle (x : List CanCtl) : (s.putCan x).cycle = s.cycle := rfl
@[simp] theorem State.putCan_pending (x : List CanCtl) : (s.putCan x).pending = s.pending := rfl
@[simp] theorem State.putCan_freeCtr (x : List CanCtl) : (s.putCan x).freeCtr = s.freeCtr := rfl
@[simp] theorem State.putCan_chans (x : List CanCtl) : (s.putCan x).chans = s.chans := rfl
@[simp] theorem State.putCan_points (x : List CanCtl) : (s.putCan x).points = s.points := rfl
@[simp] theorem State.putCan_pins (x : List CanCtl) : (s.putCan x).pins = s.pins := rfl
@[simp] theorem State.putCan_secs (x : List CanCtl) : (s.putCan x).secs = s.secs := rfl
@[simp] theorem State.putCan_encs (x : List CanCtl) : (s.putCan x).encs = s.encs := rfl
@[simp] theorem State.putCan_units (x : List CanCtl) : (s.putCan x).units = s.units := rfl
@[simp] theorem State.putCan_cmps (x : List CanCtl) : (s.putCan x).cmps = s.cmps := rfl
@[simp] theorem State.putCan_ests (x : List CanCtl) : (s.putCan x).ests = s.ests := rfl
@[simp] theorem State.putCan_ledger (x : List CanCtl) : (s.putCan x).ledger = s.ledger := rfl
@[simp] theorem State.putCan_reqs (x : List CanCtl) : (s.putCan x).reqs = s.reqs := rfl
@[simp] theorem State.putCan_restores (x : List CanCtl) : (s.putCan x).restores = s.restores := rfl
@[simp] theorem State.putCan_snap (x : List CanCtl) : (s.putCan x).snap = s.snap := rfl
@[simp] theorem State.putCan_tone (x : List CanCtl) : (s.putCan x).tone = s.tone := rfl
@[simp] theorem State.putCan_bcw (x : List CanCtl) : (s.putCan x).bcw = s.bcw := rfl
@[simp] theorem State.putCan_fab (x : List CanCtl) : (s.putCan x).fab = s.fab := rfl
@[simp] theorem State.putCan_toSafe (x : List CanCtl) : (s.putCan x).toSafe = s.toSafe := rfl
@[simp] theorem State.putCan_lines (x : List CanCtl) : (s.putCan x).lines = s.lines := rfl
@[simp] theorem State.putCan_ext (x : List CanCtl) : (s.putCan x).ext = s.ext := rfl
@[simp] theorem State.putCan_sio (x : List CanCtl) : (s.putCan x).sio = s.sio := rfl
@[simp] theorem State.putCan_spu (x : List CanCtl) : (s.putCan x).spu = s.spu := rfl
@[simp] theorem State.putCan_boot (x : List CanCtl) : (s.putCan x).boot = s.boot := rfl
@[simp] theorem State.putCan_ste (x : List CanCtl) : (s.putCan x).ste = s.ste := rfl
@[simp] theorem State.putCan_tl (x : List CanCtl) : (s.putCan x).tl = s.tl := rfl
@[simp] theorem State.putCan_hosts (x : List CanCtl) : (s.putCan x).hosts = s.hosts := rfl
@[simp] theorem State.putCan_flash (x : List CanCtl) : (s.putCan x).flash = s.flash := rfl
@[simp] theorem State.putCan_up (x : List CanCtl) : (s.putCan x).up = s.up := rfl
@[simp] theorem State.putCan_link (x : List CanCtl) : (s.putCan x).link = s.link := rfl
@[simp] theorem State.putCan_balls (x : List CanCtl) : (s.putCan x).balls = s.balls := rfl
@[simp] theorem State.putCan_indicAt (x : List CanCtl) : (s.putCan x).indicAt = s.indicAt := rfl
@[simp] theorem State.putCan_tookOver (x : List CanCtl) : (s.putCan x).tookOver = s.tookOver := rfl
@[simp] theorem State.putCan_srcFails (x : List CanCtl) : (s.putCan x).srcFails = s.srcFails := rfl
@[simp] theorem State.putCan_can (x : List CanCtl) : (s.putCan x).can = x := rfl
@[simp] theorem State.get_putCan (x : List CanCtl) (g : Fld) (j : Nat) : (s.putCan x).get g j = s.get g j := rfl
@[simp] theorem State.byte_putCan (x : List CanCtl) (addr : Nat) : (s.putCan x).byte addr = s.byte addr := rfl

/-! ### putLines -/

@[simp] theorem State.putLines_regs (x : Lines) : (s.putLines x).regs = s.regs := rfl
@[simp] theorem State.putLines_mem (x : Lines) : (s.putLines x).mem = s.mem := rfl
@[simp] theorem State.putLines_now (x : Lines) : (s.putLines x).now = s.now := rfl
@[simp] theorem State.putLines_cycle (x : Lines) : (s.putLines x).cycle = s.cycle := rfl
@[simp] theorem State.putLines_pending (x : Lines) : (s.putLines x).pending = s.pending := rfl
@[simp] theorem State.putLines_freeCtr (x : Lines) : (s.putLines x).freeCtr = s.freeCtr := rfl
@[simp] theorem State.putLines_chans (x : Lines) : (s.putLines x).chans = s.chans := rfl
@[simp] theorem State.putLines_points (x : Lines) : (s.putLines x).points = s.points := rfl
@[simp] theorem State.putLines_pins (x : Lines) : (s.putLines x).pins = s.pins := rfl
@[simp] theorem State.putLines_secs (x : Lines) : (s.putLines x).secs = s.secs := rfl
@[simp] theorem State.putLines_encs (x : Lines) : (s.putLines x).encs = s.encs := rfl
@[simp] theorem State.putLines_units (x : Lines) : (s.putLines x).units = s.units := rfl
@[simp] theorem State.putLines_cmps (x : Lines) : (s.putLines x).cmps = s.cmps := rfl
@[simp] theorem State.putLines_ests (x : Lines) : (s.putLines x).ests = s.ests := rfl
@[simp] theorem State.putLines_ledger (x : Lines) : (s.putLines x).ledger = s.ledger := rfl
@[simp] theorem State.putLines_reqs (x : Lines) : (s.putLines x).reqs = s.reqs := rfl
@[simp] theorem State.putLines_restores (x : Lines) : (s.putLines x).restores = s.restores := rfl
@[simp] theorem State.putLines_snap (x : Lines) : (s.putLines x).snap = s.snap := rfl
@[simp] theorem State.putLines_tone (x : Lines) : (s.putLines x).tone = s.tone := rfl
@[simp] theorem State.putLines_bcw (x : Lines) : (s.putLines x).bcw = s.bcw := rfl
@[simp] theorem State.putLines_fab (x : Lines) : (s.putLines x).fab = s.fab := rfl
@[simp] theorem State.putLines_toSafe (x : Lines) : (s.putLines x).toSafe = s.toSafe := rfl
@[simp] theorem State.putLines_ext (x : Lines) : (s.putLines x).ext = s.ext := rfl
@[simp] theorem State.putLines_sio (x : Lines) : (s.putLines x).sio = s.sio := rfl
@[simp] theorem State.putLines_spu (x : Lines) : (s.putLines x).spu = s.spu := rfl
@[simp] theorem State.putLines_boot (x : Lines) : (s.putLines x).boot = s.boot := rfl
@[simp] theorem State.putLines_can (x : Lines) : (s.putLines x).can = s.can := rfl
@[simp] theorem State.putLines_ste (x : Lines) : (s.putLines x).ste = s.ste := rfl
@[simp] theorem State.putLines_tl (x : Lines) : (s.putLines x).tl = s.tl := rfl
@[simp] theorem State.putLines_hosts (x : Lines) : (s.putLines x).hosts = s.hosts := rfl
@[simp] theorem State.putLines_flash (x : Lines) : (s.putLines x).flash = s.flash := rfl
@[simp] theorem State.putLines_up (x : Lines) : (s.putLines x).up = s.up := rfl
@[simp] theorem State.putLines_link (x : Lines) : (s.putLines x).link = s.link := rfl
@[simp] theorem State.putLines_balls (x : Lines) : (s.putLines x).balls = s.balls := rfl
@[simp] theorem State.putLines_indicAt (x : Lines) : (s.putLines x).indicAt = s.indicAt := rfl
@[simp] theorem State.putLines_tookOver (x : Lines) : (s.putLines x).tookOver = s.tookOver := rfl
@[simp] theorem State.putLines_srcFails (x : Lines) : (s.putLines x).srcFails = s.srcFails := rfl
@[simp] theorem State.putLines_lines (x : Lines) : (s.putLines x).lines = x := rfl
@[simp] theorem State.get_putLines (x : Lines) (g : Fld) (j : Nat) : (s.putLines x).get g j = s.get g j := rfl
@[simp] theorem State.byte_putLines (x : Lines) (addr : Nat) : (s.putLines x).byte addr = s.byte addr := rfl

/-! ### putBytes -/

@[simp] theorem State.putBytes_regs (a : Nat) (bs : List Byte) : (s.putBytes a bs).regs = s.regs := rfl
@[simp] theorem State.putBytes_now (a : Nat) (bs : List Byte) : (s.putBytes a bs).now = s.now := rfl
@[simp] theorem State.putBytes_cycle (a : Nat) (bs : List Byte) : (s.putBytes a bs).cycle = s.cycle := rfl
@[simp] theorem State.putBytes_pending (a : Nat) (bs : List Byte) : (s.putBytes a bs).pending = s.pending := rfl
@[simp] theorem State.putBytes_freeCtr (a : Nat) (bs : List Byte) : (s.putBytes a bs).freeCtr = s.freeCtr := rfl
@[simp] theorem State.putBytes_chans (a : Nat) (bs : List Byte) : (s.putBytes a bs).chans = s.chans := rfl
@[simp] theorem State.putBytes_points (a : Nat) (bs : List Byte) : (s.putBytes a bs).points = s.points := rfl
@[simp] theorem State.putBytes_pins (a : Nat) (bs : List Byte) : (s.putBytes a bs).pins = s.pins := rfl
@[simp] theorem State.putBytes_secs (a : Nat) (bs : List Byte) : (s.putBytes a bs).secs = s.secs := rfl
@[simp] theorem State.putBytes_encs (a : Nat) (bs : List Byte) : (s.putBytes a bs).encs = s.encs := rfl
@[simp] theorem State.putBytes_units (a : Nat) (bs : List Byte) : (s.putBytes a bs).units = s.units := rfl
@[simp] theorem State.putBytes_cmps (a : Nat) (bs : List Byte) : (s.putBytes a bs).cmps = s.cmps := rfl
@[simp] theorem State.putBytes_ests (a : Nat) (bs : List Byte) : (s.putBytes a bs).ests = s.ests := rfl
@[simp] theorem State.putBytes_ledger (a : Nat) (bs : List Byte) : (s.putBytes a bs).ledger = s.ledger := rfl
@[simp] theorem State.putBytes_reqs (a : Nat) (bs : List Byte) : (s.putBytes a bs).reqs = s.reqs := rfl
@[simp] theorem State.putBytes_restores (a : Nat) (bs : List Byte) : (s.putBytes a bs).restores = s.restores := rfl
@[simp] theorem State.putBytes_snap (a : Nat) (bs : List Byte) : (s.putBytes a bs).snap = s.snap := rfl
@[simp] theorem State.putBytes_tone (a : Nat) (bs : List Byte) : (s.putBytes a bs).tone = s.tone := rfl
@[simp] theorem State.putBytes_bcw (a : Nat) (bs : List Byte) : (s.putBytes a bs).bcw = s.bcw := rfl
@[simp] theorem State.putBytes_fab (a : Nat) (bs : List Byte) : (s.putBytes a bs).fab = s.fab := rfl
@[simp] theorem State.putBytes_toSafe (a : Nat) (bs : List Byte) : (s.putBytes a bs).toSafe = s.toSafe := rfl
@[simp] theorem State.putBytes_lines (a : Nat) (bs : List Byte) : (s.putBytes a bs).lines = s.lines := rfl
@[simp] theorem State.putBytes_ext (a : Nat) (bs : List Byte) : (s.putBytes a bs).ext = s.ext := rfl
@[simp] theorem State.putBytes_sio (a : Nat) (bs : List Byte) : (s.putBytes a bs).sio = s.sio := rfl
@[simp] theorem State.putBytes_spu (a : Nat) (bs : List Byte) : (s.putBytes a bs).spu = s.spu := rfl
@[simp] theorem State.putBytes_boot (a : Nat) (bs : List Byte) : (s.putBytes a bs).boot = s.boot := rfl
@[simp] theorem State.putBytes_can (a : Nat) (bs : List Byte) : (s.putBytes a bs).can = s.can := rfl
@[simp] theorem State.putBytes_ste (a : Nat) (bs : List Byte) : (s.putBytes a bs).ste = s.ste := rfl
@[simp] theorem State.putBytes_tl (a : Nat) (bs : List Byte) : (s.putBytes a bs).tl = s.tl := rfl
@[simp] theorem State.putBytes_hosts (a : Nat) (bs : List Byte) : (s.putBytes a bs).hosts = s.hosts := rfl
@[simp] theorem State.putBytes_flash (a : Nat) (bs : List Byte) : (s.putBytes a bs).flash = s.flash := rfl
@[simp] theorem State.putBytes_up (a : Nat) (bs : List Byte) : (s.putBytes a bs).up = s.up := rfl
@[simp] theorem State.putBytes_link (a : Nat) (bs : List Byte) : (s.putBytes a bs).link = s.link := rfl
@[simp] theorem State.putBytes_balls (a : Nat) (bs : List Byte) : (s.putBytes a bs).balls = s.balls := rfl
@[simp] theorem State.putBytes_indicAt (a : Nat) (bs : List Byte) : (s.putBytes a bs).indicAt = s.indicAt := rfl
@[simp] theorem State.putBytes_tookOver (a : Nat) (bs : List Byte) : (s.putBytes a bs).tookOver = s.tookOver := rfl
@[simp] theorem State.putBytes_srcFails (a : Nat) (bs : List Byte) : (s.putBytes a bs).srcFails = s.srcFails := rfl
@[simp] theorem State.get_putBytes (a : Nat) (bs : List Byte) (g : Fld) (j : Nat) : (s.putBytes a bs).get g j = s.get g j := rfl

/-! ### updChan -/

@[simp] theorem State.updChan_regs (n : Nat) (f : Chan → Chan) : (s.updChan n f).regs = s.regs := rfl
@[simp] theorem State.updChan_mem (n : Nat) (f : Chan → Chan) : (s.updChan n f).mem = s.mem := rfl
@[simp] theorem State.updChan_now (n : Nat) (f : Chan → Chan) : (s.updChan n f).now = s.now := rfl
@[simp] theorem State.updChan_cycle (n : Nat) (f : Chan → Chan) : (s.updChan n f).cycle = s.cycle := rfl
@[simp] theorem State.updChan_pending (n : Nat) (f : Chan → Chan) : (s.updChan n f).pending = s.pending := rfl
@[simp] theorem State.updChan_freeCtr (n : Nat) (f : Chan → Chan) : (s.updChan n f).freeCtr = s.freeCtr := rfl
@[simp] theorem State.updChan_points (n : Nat) (f : Chan → Chan) : (s.updChan n f).points = s.points := rfl
@[simp] theorem State.updChan_pins (n : Nat) (f : Chan → Chan) : (s.updChan n f).pins = s.pins := rfl
@[simp] theorem State.updChan_secs (n : Nat) (f : Chan → Chan) : (s.updChan n f).secs = s.secs := rfl
@[simp] theorem State.updChan_encs (n : Nat) (f : Chan → Chan) : (s.updChan n f).encs = s.encs := rfl
@[simp] theorem State.updChan_units (n : Nat) (f : Chan → Chan) : (s.updChan n f).units = s.units := rfl
@[simp] theorem State.updChan_cmps (n : Nat) (f : Chan → Chan) : (s.updChan n f).cmps = s.cmps := rfl
@[simp] theorem State.updChan_ests (n : Nat) (f : Chan → Chan) : (s.updChan n f).ests = s.ests := rfl
@[simp] theorem State.updChan_ledger (n : Nat) (f : Chan → Chan) : (s.updChan n f).ledger = s.ledger := rfl
@[simp] theorem State.updChan_reqs (n : Nat) (f : Chan → Chan) : (s.updChan n f).reqs = s.reqs := rfl
@[simp] theorem State.updChan_restores (n : Nat) (f : Chan → Chan) : (s.updChan n f).restores = s.restores := rfl
@[simp] theorem State.updChan_snap (n : Nat) (f : Chan → Chan) : (s.updChan n f).snap = s.snap := rfl
@[simp] theorem State.updChan_tone (n : Nat) (f : Chan → Chan) : (s.updChan n f).tone = s.tone := rfl
@[simp] theorem State.updChan_bcw (n : Nat) (f : Chan → Chan) : (s.updChan n f).bcw = s.bcw := rfl
@[simp] theorem State.updChan_fab (n : Nat) (f : Chan → Chan) : (s.updChan n f).fab = s.fab := rfl
@[simp] theorem State.updChan_toSafe (n : Nat) (f : Chan → Chan) : (s.updChan n f).toSafe = s.toSafe := rfl
@[simp] theorem State.updChan_lines (n : Nat) (f : Chan → Chan) : (s.updChan n f).lines = s.lines := rfl
@[simp] theorem State.updChan_ext (n : Nat) (f : Chan → Chan) : (s.updChan n f).ext = s.ext := rfl
@[simp] theorem State.updChan_sio (n : Nat) (f : Chan → Chan) : (s.updChan n f).sio = s.sio := rfl
@[simp] theorem State.updChan_spu (n : Nat) (f : Chan → Chan) : (s.updChan n f).spu = s.spu := rfl
@[simp] theorem State.updChan_boot (n : Nat) (f : Chan → Chan) : (s.updChan n f).boot = s.boot := rfl
@[simp] theorem State.updChan_can (n : Nat) (f : Chan → Chan) : (s.updChan n f).can = s.can := rfl
@[simp] theorem State.updChan_ste (n : Nat) (f : Chan → Chan) : (s.updChan n f).ste = s.ste := rfl
@[simp] theorem State.updChan_tl (n : Nat) (f : Chan → Chan) : (s.updChan n f).tl = s.tl := rfl
@[simp] theorem State.updChan_hosts (n : Nat) (f : Chan → Chan) : (s.updChan n f).hosts = s.hosts := rfl
@[simp] theorem State.updChan_flash (n : Nat) (f : Chan → Chan) : (s.updChan n f).flash = s.flash := rfl
@[simp] theorem State.updChan_up (n : Nat) (f : Chan → Chan) : (s.updChan n f).up = s.up := rfl
@[simp] theorem State.updChan_link (n : Nat) (f : Chan → Chan) : (s.updChan n f).link = s.link := rfl
@[simp] theorem State.updChan_balls (n : Nat) (f : Chan → Chan) : (s.updChan n f).balls = s.balls := rfl
@[simp] theorem State.updChan_indicAt (n : Nat) (f : Chan → Chan) : (s.updChan n f).indicAt = s.indicAt := rfl
@[simp] theorem State.updChan_tookOver (n : Nat) (f : Chan → Chan) : (s.updChan n f).tookOver = s.tookOver := rfl
@[simp] theorem State.updChan_srcFails (n : Nat) (f : Chan → Chan) : (s.updChan n f).srcFails = s.srcFails := rfl
@[simp] theorem State.get_updChan (n : Nat) (f : Chan → Chan) (g : Fld) (j : Nat) : (s.updChan n f).get g j = s.get g j := rfl
@[simp] theorem State.byte_updChan (n : Nat) (f : Chan → Chan) (addr : Nat) : (s.updChan n f).byte addr = s.byte addr := rfl

/-! ### updPoint -/

@[simp] theorem State.updPoint_regs (n : Nat) (f : Point → Point) : (s.updPoint n f).regs = s.regs := rfl
@[simp] theorem State.updPoint_mem (n : Nat) (f : Point → Point) : (s.updPoint n f).mem = s.mem := rfl
@[simp] theorem State.updPoint_now (n : Nat) (f : Point → Point) : (s.updPoint n f).now = s.now := rfl
@[simp] theorem State.updPoint_cycle (n : Nat) (f : Point → Point) : (s.updPoint n f).cycle = s.cycle := rfl
@[simp] theorem State.updPoint_pending (n : Nat) (f : Point → Point) : (s.updPoint n f).pending = s.pending := rfl
@[simp] theorem State.updPoint_freeCtr (n : Nat) (f : Point → Point) : (s.updPoint n f).freeCtr = s.freeCtr := rfl
@[simp] theorem State.updPoint_chans (n : Nat) (f : Point → Point) : (s.updPoint n f).chans = s.chans := rfl
@[simp] theorem State.updPoint_pins (n : Nat) (f : Point → Point) : (s.updPoint n f).pins = s.pins := rfl
@[simp] theorem State.updPoint_secs (n : Nat) (f : Point → Point) : (s.updPoint n f).secs = s.secs := rfl
@[simp] theorem State.updPoint_encs (n : Nat) (f : Point → Point) : (s.updPoint n f).encs = s.encs := rfl
@[simp] theorem State.updPoint_units (n : Nat) (f : Point → Point) : (s.updPoint n f).units = s.units := rfl
@[simp] theorem State.updPoint_cmps (n : Nat) (f : Point → Point) : (s.updPoint n f).cmps = s.cmps := rfl
@[simp] theorem State.updPoint_ests (n : Nat) (f : Point → Point) : (s.updPoint n f).ests = s.ests := rfl
@[simp] theorem State.updPoint_ledger (n : Nat) (f : Point → Point) : (s.updPoint n f).ledger = s.ledger := rfl
@[simp] theorem State.updPoint_reqs (n : Nat) (f : Point → Point) : (s.updPoint n f).reqs = s.reqs := rfl
@[simp] theorem State.updPoint_restores (n : Nat) (f : Point → Point) : (s.updPoint n f).restores = s.restores := rfl
@[simp] theorem State.updPoint_snap (n : Nat) (f : Point → Point) : (s.updPoint n f).snap = s.snap := rfl
@[simp] theorem State.updPoint_tone (n : Nat) (f : Point → Point) : (s.updPoint n f).tone = s.tone := rfl
@[simp] theorem State.updPoint_bcw (n : Nat) (f : Point → Point) : (s.updPoint n f).bcw = s.bcw := rfl
@[simp] theorem State.updPoint_fab (n : Nat) (f : Point → Point) : (s.updPoint n f).fab = s.fab := rfl
@[simp] theorem State.updPoint_toSafe (n : Nat) (f : Point → Point) : (s.updPoint n f).toSafe = s.toSafe := rfl
@[simp] theorem State.updPoint_lines (n : Nat) (f : Point → Point) : (s.updPoint n f).lines = s.lines := rfl
@[simp] theorem State.updPoint_ext (n : Nat) (f : Point → Point) : (s.updPoint n f).ext = s.ext := rfl
@[simp] theorem State.updPoint_sio (n : Nat) (f : Point → Point) : (s.updPoint n f).sio = s.sio := rfl
@[simp] theorem State.updPoint_spu (n : Nat) (f : Point → Point) : (s.updPoint n f).spu = s.spu := rfl
@[simp] theorem State.updPoint_boot (n : Nat) (f : Point → Point) : (s.updPoint n f).boot = s.boot := rfl
@[simp] theorem State.updPoint_can (n : Nat) (f : Point → Point) : (s.updPoint n f).can = s.can := rfl
@[simp] theorem State.updPoint_ste (n : Nat) (f : Point → Point) : (s.updPoint n f).ste = s.ste := rfl
@[simp] theorem State.updPoint_tl (n : Nat) (f : Point → Point) : (s.updPoint n f).tl = s.tl := rfl
@[simp] theorem State.updPoint_hosts (n : Nat) (f : Point → Point) : (s.updPoint n f).hosts = s.hosts := rfl
@[simp] theorem State.updPoint_flash (n : Nat) (f : Point → Point) : (s.updPoint n f).flash = s.flash := rfl
@[simp] theorem State.updPoint_up (n : Nat) (f : Point → Point) : (s.updPoint n f).up = s.up := rfl
@[simp] theorem State.updPoint_link (n : Nat) (f : Point → Point) : (s.updPoint n f).link = s.link := rfl
@[simp] theorem State.updPoint_balls (n : Nat) (f : Point → Point) : (s.updPoint n f).balls = s.balls := rfl
@[simp] theorem State.updPoint_indicAt (n : Nat) (f : Point → Point) : (s.updPoint n f).indicAt = s.indicAt := rfl
@[simp] theorem State.updPoint_tookOver (n : Nat) (f : Point → Point) : (s.updPoint n f).tookOver = s.tookOver := rfl
@[simp] theorem State.updPoint_srcFails (n : Nat) (f : Point → Point) : (s.updPoint n f).srcFails = s.srcFails := rfl
@[simp] theorem State.get_updPoint (n : Nat) (f : Point → Point) (g : Fld) (j : Nat) : (s.updPoint n f).get g j = s.get g j := rfl
@[simp] theorem State.byte_updPoint (n : Nat) (f : Point → Point) (addr : Nat) : (s.updPoint n f).byte addr = s.byte addr := rfl

/-! ### updSec -/

@[simp] theorem State.updSec_regs (n : Nat) (f : Sec → Sec) : (s.updSec n f).regs = s.regs := rfl
@[simp] theorem State.updSec_mem (n : Nat) (f : Sec → Sec) : (s.updSec n f).mem = s.mem := rfl
@[simp] theorem State.updSec_now (n : Nat) (f : Sec → Sec) : (s.updSec n f).now = s.now := rfl
@[simp] theorem State.updSec_cycle (n : Nat) (f : Sec → Sec) : (s.updSec n f).cycle = s.cycle := rfl
@[simp] theorem State.updSec_pending (n : Nat) (f : Sec → Sec) : (s.updSec n f).pending = s.pending := rfl
@[simp] theorem State.updSec_freeCtr (n : Nat) (f : Sec → Sec) : (s.updSec n f).freeCtr = s.freeCtr := rfl
@[simp] theorem State.updSec_chans (n : Nat) (f : Sec → Sec) : (s.updSec n f).chans = s.chans := rfl
@[simp] theorem State.updSec_points (n : Nat) (f : Sec → Sec) : (s.updSec n f).points = s.points := rfl
@[simp] theorem State.updSec_pins (n : Nat) (f : Sec → Sec) : (s.updSec n f).pins = s.pins := rfl
@[simp] theorem State.updSec_encs (n : Nat) (f : Sec → Sec) : (s.updSec n f).encs = s.encs := rfl
@[simp] theorem State.updSec_units (n : Nat) (f : Sec → Sec) : (s.updSec n f).units = s.units := rfl
@[simp] theorem State.updSec_cmps (n : Nat) (f : Sec → Sec) : (s.updSec n f).cmps = s.cmps := rfl
@[simp] theorem State.updSec_ests (n : Nat) (f : Sec → Sec) : (s.updSec n f).ests = s.ests := rfl
@[simp] theorem State.updSec_ledger (n : Nat) (f : Sec → Sec) : (s.updSec n f).ledger = s.ledger := rfl
@[simp] theorem State.updSec_reqs (n : Nat) (f : Sec → Sec) : (s.updSec n f).reqs = s.reqs := rfl
@[simp] theorem State.updSec_restores (n : Nat) (f : Sec → Sec) : (s.updSec n f).restores = s.restores := rfl
@[simp] theorem State.updSec_snap (n : Nat) (f : Sec → Sec) : (s.updSec n f).snap = s.snap := rfl
@[simp] theorem State.updSec_tone (n : Nat) (f : Sec → Sec) : (s.updSec n f).tone = s.tone := rfl
@[simp] theorem State.updSec_bcw (n : Nat) (f : Sec → Sec) : (s.updSec n f).bcw = s.bcw := rfl
@[simp] theorem State.updSec_fab (n : Nat) (f : Sec → Sec) : (s.updSec n f).fab = s.fab := rfl
@[simp] theorem State.updSec_toSafe (n : Nat) (f : Sec → Sec) : (s.updSec n f).toSafe = s.toSafe := rfl
@[simp] theorem State.updSec_lines (n : Nat) (f : Sec → Sec) : (s.updSec n f).lines = s.lines := rfl
@[simp] theorem State.updSec_ext (n : Nat) (f : Sec → Sec) : (s.updSec n f).ext = s.ext := rfl
@[simp] theorem State.updSec_sio (n : Nat) (f : Sec → Sec) : (s.updSec n f).sio = s.sio := rfl
@[simp] theorem State.updSec_spu (n : Nat) (f : Sec → Sec) : (s.updSec n f).spu = s.spu := rfl
@[simp] theorem State.updSec_boot (n : Nat) (f : Sec → Sec) : (s.updSec n f).boot = s.boot := rfl
@[simp] theorem State.updSec_can (n : Nat) (f : Sec → Sec) : (s.updSec n f).can = s.can := rfl
@[simp] theorem State.updSec_ste (n : Nat) (f : Sec → Sec) : (s.updSec n f).ste = s.ste := rfl
@[simp] theorem State.updSec_tl (n : Nat) (f : Sec → Sec) : (s.updSec n f).tl = s.tl := rfl
@[simp] theorem State.updSec_hosts (n : Nat) (f : Sec → Sec) : (s.updSec n f).hosts = s.hosts := rfl
@[simp] theorem State.updSec_flash (n : Nat) (f : Sec → Sec) : (s.updSec n f).flash = s.flash := rfl
@[simp] theorem State.updSec_up (n : Nat) (f : Sec → Sec) : (s.updSec n f).up = s.up := rfl
@[simp] theorem State.updSec_link (n : Nat) (f : Sec → Sec) : (s.updSec n f).link = s.link := rfl
@[simp] theorem State.updSec_balls (n : Nat) (f : Sec → Sec) : (s.updSec n f).balls = s.balls := rfl
@[simp] theorem State.updSec_indicAt (n : Nat) (f : Sec → Sec) : (s.updSec n f).indicAt = s.indicAt := rfl
@[simp] theorem State.updSec_tookOver (n : Nat) (f : Sec → Sec) : (s.updSec n f).tookOver = s.tookOver := rfl
@[simp] theorem State.updSec_srcFails (n : Nat) (f : Sec → Sec) : (s.updSec n f).srcFails = s.srcFails := rfl
@[simp] theorem State.get_updSec (n : Nat) (f : Sec → Sec) (g : Fld) (j : Nat) : (s.updSec n f).get g j = s.get g j := rfl
@[simp] theorem State.byte_updSec (n : Nat) (f : Sec → Sec) (addr : Nat) : (s.updSec n f).byte addr = s.byte addr := rfl

/-! ### updPin -/

@[simp] theorem State.updPin_regs (n : Nat) (f : Pin → Pin) : (s.updPin n f).regs = s.regs := rfl
@[simp] theorem State.updPin_mem (n : Nat) (f : Pin → Pin) : (s.updPin n f).mem = s.mem := rfl
@[simp] theorem State.updPin_now (n : Nat) (f : Pin → Pin) : (s.updPin n f).now = s.now := rfl
@[simp] theorem State.updPin_cycle (n : Nat) (f : Pin → Pin) : (s.updPin n f).cycle = s.cycle := rfl
@[simp] theorem State.updPin_pending (n : Nat) (f : Pin → Pin) : (s.updPin n f).pending = s.pending := rfl
@[simp] theorem State.updPin_freeCtr (n : Nat) (f : Pin → Pin) : (s.updPin n f).freeCtr = s.freeCtr := rfl
@[simp] theorem State.updPin_chans (n : Nat) (f : Pin → Pin) : (s.updPin n f).chans = s.chans := rfl
@[simp] theorem State.updPin_points (n : Nat) (f : Pin → Pin) : (s.updPin n f).points = s.points := rfl
@[simp] theorem State.updPin_secs (n : Nat) (f : Pin → Pin) : (s.updPin n f).secs = s.secs := rfl
@[simp] theorem State.updPin_encs (n : Nat) (f : Pin → Pin) : (s.updPin n f).encs = s.encs := rfl
@[simp] theorem State.updPin_units (n : Nat) (f : Pin → Pin) : (s.updPin n f).units = s.units := rfl
@[simp] theorem State.updPin_cmps (n : Nat) (f : Pin → Pin) : (s.updPin n f).cmps = s.cmps := rfl
@[simp] theorem State.updPin_ests (n : Nat) (f : Pin → Pin) : (s.updPin n f).ests = s.ests := rfl
@[simp] theorem State.updPin_ledger (n : Nat) (f : Pin → Pin) : (s.updPin n f).ledger = s.ledger := rfl
@[simp] theorem State.updPin_reqs (n : Nat) (f : Pin → Pin) : (s.updPin n f).reqs = s.reqs := rfl
@[simp] theorem State.updPin_restores (n : Nat) (f : Pin → Pin) : (s.updPin n f).restores = s.restores := rfl
@[simp] theorem State.updPin_snap (n : Nat) (f : Pin → Pin) : (s.updPin n f).snap = s.snap := rfl
@[simp] theorem State.updPin_tone (n : Nat) (f : Pin → Pin) : (s.updPin n f).tone = s.tone := rfl
@[simp] theorem State.updPin_bcw (n : Nat) (f : Pin → Pin) : (s.updPin n f).bcw = s.bcw := rfl
@[simp] theorem State.updPin_fab (n : Nat) (f : Pin → Pin) : (s.updPin n f).fab = s.fab := rfl
@[simp] theorem State.updPin_toSafe (n : Nat) (f : Pin → Pin) : (s.updPin n f).toSafe = s.toSafe := rfl
@[simp] theorem State.updPin_lines (n : Nat) (f : Pin → Pin) : (s.updPin n f).lines = s.lines := rfl
@[simp] theorem State.updPin_ext (n : Nat) (f : Pin → Pin) : (s.updPin n f).ext = s.ext := rfl
@[simp] theorem State.updPin_sio (n : Nat) (f : Pin → Pin) : (s.updPin n f).sio = s.sio := rfl
@[simp] theorem State.updPin_spu (n : Nat) (f : Pin → Pin) : (s.updPin n f).spu = s.spu := rfl
@[simp] theorem State.updPin_boot (n : Nat) (f : Pin → Pin) : (s.updPin n f).boot = s.boot := rfl
@[simp] theorem State.updPin_can (n : Nat) (f : Pin → Pin) : (s.updPin n f).can = s.can := rfl
@[simp] theorem State.updPin_ste (n : Nat) (f : Pin → Pin) : (s.updPin n f).ste = s.ste := rfl
@[simp] theorem State.updPin_tl (n : Nat) (f : Pin → Pin) : (s.updPin n f).tl = s.tl := rfl
@[simp] theorem State.updPin_hosts (n : Nat) (f : Pin → Pin) : (s.updPin n f).hosts = s.hosts := rfl
@[simp] theorem State.updPin_flash (n : Nat) (f : Pin → Pin) : (s.updPin n f).flash = s.flash := rfl
@[simp] theorem State.updPin_up (n : Nat) (f : Pin → Pin) : (s.updPin n f).up = s.up := rfl
@[simp] theorem State.updPin_link (n : Nat) (f : Pin → Pin) : (s.updPin n f).link = s.link := rfl
@[simp] theorem State.updPin_balls (n : Nat) (f : Pin → Pin) : (s.updPin n f).balls = s.balls := rfl
@[simp] theorem State.updPin_indicAt (n : Nat) (f : Pin → Pin) : (s.updPin n f).indicAt = s.indicAt := rfl
@[simp] theorem State.updPin_tookOver (n : Nat) (f : Pin → Pin) : (s.updPin n f).tookOver = s.tookOver := rfl
@[simp] theorem State.updPin_srcFails (n : Nat) (f : Pin → Pin) : (s.updPin n f).srcFails = s.srcFails := rfl
@[simp] theorem State.get_updPin (n : Nat) (f : Pin → Pin) (g : Fld) (j : Nat) : (s.updPin n f).get g j = s.get g j := rfl
@[simp] theorem State.byte_updPin (n : Nat) (f : Pin → Pin) (addr : Nat) : (s.updPin n f).byte addr = s.byte addr := rfl

/-! ### updEnc -/

@[simp] theorem State.updEnc_regs (n : Nat) (f : EncPort → EncPort) : (s.updEnc n f).regs = s.regs := rfl
@[simp] theorem State.updEnc_mem (n : Nat) (f : EncPort → EncPort) : (s.updEnc n f).mem = s.mem := rfl
@[simp] theorem State.updEnc_now (n : Nat) (f : EncPort → EncPort) : (s.updEnc n f).now = s.now := rfl
@[simp] theorem State.updEnc_cycle (n : Nat) (f : EncPort → EncPort) : (s.updEnc n f).cycle = s.cycle := rfl
@[simp] theorem State.updEnc_pending (n : Nat) (f : EncPort → EncPort) : (s.updEnc n f).pending = s.pending := rfl
@[simp] theorem State.updEnc_freeCtr (n : Nat) (f : EncPort → EncPort) : (s.updEnc n f).freeCtr = s.freeCtr := rfl
@[simp] theorem State.updEnc_chans (n : Nat) (f : EncPort → EncPort) : (s.updEnc n f).chans = s.chans := rfl
@[simp] theorem State.updEnc_points (n : Nat) (f : EncPort → EncPort) : (s.updEnc n f).points = s.points := rfl
@[simp] theorem State.updEnc_pins (n : Nat) (f : EncPort → EncPort) : (s.updEnc n f).pins = s.pins := rfl
@[simp] theorem State.updEnc_secs (n : Nat) (f : EncPort → EncPort) : (s.updEnc n f).secs = s.secs := rfl
@[simp] theorem State.updEnc_units (n : Nat) (f : EncPort → EncPort) : (s.updEnc n f).units = s.units := rfl
@[simp] theorem State.updEnc_cmps (n : Nat) (f : EncPort → EncPort) : (s.updEnc n f).cmps = s.cmps := rfl
@[simp] theorem State.updEnc_ests (n : Nat) (f : EncPort → EncPort) : (s.updEnc n f).ests = s.ests := rfl
@[simp] theorem State.updEnc_ledger (n : Nat) (f : EncPort → EncPort) : (s.updEnc n f).ledger = s.ledger := rfl
@[simp] theorem State.updEnc_reqs (n : Nat) (f : EncPort → EncPort) : (s.updEnc n f).reqs = s.reqs := rfl
@[simp] theorem State.updEnc_restores (n : Nat) (f : EncPort → EncPort) : (s.updEnc n f).restores = s.restores := rfl
@[simp] theorem State.updEnc_snap (n : Nat) (f : EncPort → EncPort) : (s.updEnc n f).snap = s.snap := rfl
@[simp] theorem State.updEnc_tone (n : Nat) (f : EncPort → EncPort) : (s.updEnc n f).tone = s.tone := rfl
@[simp] theorem State.updEnc_bcw (n : Nat) (f : EncPort → EncPort) : (s.updEnc n f).bcw = s.bcw := rfl
@[simp] theorem State.updEnc_fab (n : Nat) (f : EncPort → EncPort) : (s.updEnc n f).fab = s.fab := rfl
@[simp] theorem State.updEnc_toSafe (n : Nat) (f : EncPort → EncPort) : (s.updEnc n f).toSafe = s.toSafe := rfl
@[simp] theorem State.updEnc_lines (n : Nat) (f : EncPort → EncPort) : (s.updEnc n f).lines = s.lines := rfl
@[simp] theorem State.updEnc_ext (n : Nat) (f : EncPort → EncPort) : (s.updEnc n f).ext = s.ext := rfl
@[simp] theorem State.updEnc_sio (n : Nat) (f : EncPort → EncPort) : (s.updEnc n f).sio = s.sio := rfl
@[simp] theorem State.updEnc_spu (n : Nat) (f : EncPort → EncPort) : (s.updEnc n f).spu = s.spu := rfl
@[simp] theorem State.updEnc_boot (n : Nat) (f : EncPort → EncPort) : (s.updEnc n f).boot = s.boot := rfl
@[simp] theorem State.updEnc_can (n : Nat) (f : EncPort → EncPort) : (s.updEnc n f).can = s.can := rfl
@[simp] theorem State.updEnc_ste (n : Nat) (f : EncPort → EncPort) : (s.updEnc n f).ste = s.ste := rfl
@[simp] theorem State.updEnc_tl (n : Nat) (f : EncPort → EncPort) : (s.updEnc n f).tl = s.tl := rfl
@[simp] theorem State.updEnc_hosts (n : Nat) (f : EncPort → EncPort) : (s.updEnc n f).hosts = s.hosts := rfl
@[simp] theorem State.updEnc_flash (n : Nat) (f : EncPort → EncPort) : (s.updEnc n f).flash = s.flash := rfl
@[simp] theorem State.updEnc_up (n : Nat) (f : EncPort → EncPort) : (s.updEnc n f).up = s.up := rfl
@[simp] theorem State.updEnc_link (n : Nat) (f : EncPort → EncPort) : (s.updEnc n f).link = s.link := rfl
@[simp] theorem State.updEnc_balls (n : Nat) (f : EncPort → EncPort) : (s.updEnc n f).balls = s.balls := rfl
@[simp] theorem State.updEnc_indicAt (n : Nat) (f : EncPort → EncPort) : (s.updEnc n f).indicAt = s.indicAt := rfl
@[simp] theorem State.updEnc_tookOver (n : Nat) (f : EncPort → EncPort) : (s.updEnc n f).tookOver = s.tookOver := rfl
@[simp] theorem State.updEnc_srcFails (n : Nat) (f : EncPort → EncPort) : (s.updEnc n f).srcFails = s.srcFails := rfl
@[simp] theorem State.get_updEnc (n : Nat) (f : EncPort → EncPort) (g : Fld) (j : Nat) : (s.updEnc n f).get g j = s.get g j := rfl
@[simp] theorem State.byte_updEnc (n : Nat) (f : EncPort → EncPort) (addr : Nat) : (s.updEnc n f).byte addr = s.byte addr := rfl

/-! ### updUnit -/

@[simp] theorem State.updUnit_regs (n : Nat) (f : BoundaryUnit → BoundaryUnit) : (s.updUnit n f).regs = s.regs := rfl
@[simp] theorem State.updUnit_mem (n : Nat) (f : BoundaryUnit → BoundaryUnit) : (s.updUnit n f).mem = s.mem := rfl
@[simp] theorem State.updUnit_now (n : Nat) (f : BoundaryUnit → BoundaryUnit) : (s.updUnit n f).now = s.now := rfl
@[simp] theorem State.updUnit_cycle (n : Nat) (f : BoundaryUnit → BoundaryUnit) : (s.updUnit n f).cycle = s.cycle := rfl
@[simp] theorem State.updUnit_pending (n : Nat) (f : BoundaryUnit → BoundaryUnit) : (s.updUnit n f).pending = s.pending := rfl
@[simp] theorem State.updUnit_freeCtr (n : Nat) (f : BoundaryUnit → BoundaryUnit) : (s.updUnit n f).freeCtr = s.freeCtr := rfl
@[simp] theorem State.updUnit_chans (n : Nat) (f : BoundaryUnit → BoundaryUnit) : (s.updUnit n f).chans = s.chans := rfl
@[simp] theorem State.updUnit_points (n : Nat) (f : BoundaryUnit → BoundaryUnit) : (s.updUnit n f).points = s.points := rfl
@[simp] theorem State.updUnit_pins (n : Nat) (f : BoundaryUnit → BoundaryUnit) : (s.updUnit n f).pins = s.pins := rfl
@[simp] theorem State.updUnit_secs (n : Nat) (f : BoundaryUnit → BoundaryUnit) : (s.updUnit n f).secs = s.secs := rfl
@[simp] theorem State.updUnit_encs (n : Nat) (f : BoundaryUnit → BoundaryUnit) : (s.updUnit n f).encs = s.encs := rfl
@[simp] theorem State.updUnit_cmps (n : Nat) (f : BoundaryUnit → BoundaryUnit) : (s.updUnit n f).cmps = s.cmps := rfl
@[simp] theorem State.updUnit_ests (n : Nat) (f : BoundaryUnit → BoundaryUnit) : (s.updUnit n f).ests = s.ests := rfl
@[simp] theorem State.updUnit_ledger (n : Nat) (f : BoundaryUnit → BoundaryUnit) : (s.updUnit n f).ledger = s.ledger := rfl
@[simp] theorem State.updUnit_reqs (n : Nat) (f : BoundaryUnit → BoundaryUnit) : (s.updUnit n f).reqs = s.reqs := rfl
@[simp] theorem State.updUnit_restores (n : Nat) (f : BoundaryUnit → BoundaryUnit) : (s.updUnit n f).restores = s.restores := rfl
@[simp] theorem State.updUnit_snap (n : Nat) (f : BoundaryUnit → BoundaryUnit) : (s.updUnit n f).snap = s.snap := rfl
@[simp] theorem State.updUnit_tone (n : Nat) (f : BoundaryUnit → BoundaryUnit) : (s.updUnit n f).tone = s.tone := rfl
@[simp] theorem State.updUnit_bcw (n : Nat) (f : BoundaryUnit → BoundaryUnit) : (s.updUnit n f).bcw = s.bcw := rfl
@[simp] theorem State.updUnit_fab (n : Nat) (f : BoundaryUnit → BoundaryUnit) : (s.updUnit n f).fab = s.fab := rfl
@[simp] theorem State.updUnit_toSafe (n : Nat) (f : BoundaryUnit → BoundaryUnit) : (s.updUnit n f).toSafe = s.toSafe := rfl
@[simp] theorem State.updUnit_lines (n : Nat) (f : BoundaryUnit → BoundaryUnit) : (s.updUnit n f).lines = s.lines := rfl
@[simp] theorem State.updUnit_ext (n : Nat) (f : BoundaryUnit → BoundaryUnit) : (s.updUnit n f).ext = s.ext := rfl
@[simp] theorem State.updUnit_sio (n : Nat) (f : BoundaryUnit → BoundaryUnit) : (s.updUnit n f).sio = s.sio := rfl
@[simp] theorem State.updUnit_spu (n : Nat) (f : BoundaryUnit → BoundaryUnit) : (s.updUnit n f).spu = s.spu := rfl
@[simp] theorem State.updUnit_boot (n : Nat) (f : BoundaryUnit → BoundaryUnit) : (s.updUnit n f).boot = s.boot := rfl
@[simp] theorem State.updUnit_can (n : Nat) (f : BoundaryUnit → BoundaryUnit) : (s.updUnit n f).can = s.can := rfl
@[simp] theorem State.updUnit_ste (n : Nat) (f : BoundaryUnit → BoundaryUnit) : (s.updUnit n f).ste = s.ste := rfl
@[simp] theorem State.updUnit_tl (n : Nat) (f : BoundaryUnit → BoundaryUnit) : (s.updUnit n f).tl = s.tl := rfl
@[simp] theorem State.updUnit_hosts (n : Nat) (f : BoundaryUnit → BoundaryUnit) : (s.updUnit n f).hosts = s.hosts := rfl
@[simp] theorem State.updUnit_flash (n : Nat) (f : BoundaryUnit → BoundaryUnit) : (s.updUnit n f).flash = s.flash := rfl
@[simp] theorem State.updUnit_up (n : Nat) (f : BoundaryUnit → BoundaryUnit) : (s.updUnit n f).up = s.up := rfl
@[simp] theorem State.updUnit_link (n : Nat) (f : BoundaryUnit → BoundaryUnit) : (s.updUnit n f).link = s.link := rfl
@[simp] theorem State.updUnit_balls (n : Nat) (f : BoundaryUnit → BoundaryUnit) : (s.updUnit n f).balls = s.balls := rfl
@[simp] theorem State.updUnit_indicAt (n : Nat) (f : BoundaryUnit → BoundaryUnit) : (s.updUnit n f).indicAt = s.indicAt := rfl
@[simp] theorem State.updUnit_tookOver (n : Nat) (f : BoundaryUnit → BoundaryUnit) : (s.updUnit n f).tookOver = s.tookOver := rfl
@[simp] theorem State.updUnit_srcFails (n : Nat) (f : BoundaryUnit → BoundaryUnit) : (s.updUnit n f).srcFails = s.srcFails := rfl
@[simp] theorem State.get_updUnit (n : Nat) (f : BoundaryUnit → BoundaryUnit) (g : Fld) (j : Nat) : (s.updUnit n f).get g j = s.get g j := rfl
@[simp] theorem State.byte_updUnit (n : Nat) (f : BoundaryUnit → BoundaryUnit) (addr : Nat) : (s.updUnit n f).byte addr = s.byte addr := rfl

/-! ### updCmp -/

@[simp] theorem State.updCmp_regs (n : Nat) (f : CmpUnit → CmpUnit) : (s.updCmp n f).regs = s.regs := rfl
@[simp] theorem State.updCmp_mem (n : Nat) (f : CmpUnit → CmpUnit) : (s.updCmp n f).mem = s.mem := rfl
@[simp] theorem State.updCmp_now (n : Nat) (f : CmpUnit → CmpUnit) : (s.updCmp n f).now = s.now := rfl
@[simp] theorem State.updCmp_cycle (n : Nat) (f : CmpUnit → CmpUnit) : (s.updCmp n f).cycle = s.cycle := rfl
@[simp] theorem State.updCmp_pending (n : Nat) (f : CmpUnit → CmpUnit) : (s.updCmp n f).pending = s.pending := rfl
@[simp] theorem State.updCmp_freeCtr (n : Nat) (f : CmpUnit → CmpUnit) : (s.updCmp n f).freeCtr = s.freeCtr := rfl
@[simp] theorem State.updCmp_chans (n : Nat) (f : CmpUnit → CmpUnit) : (s.updCmp n f).chans = s.chans := rfl
@[simp] theorem State.updCmp_points (n : Nat) (f : CmpUnit → CmpUnit) : (s.updCmp n f).points = s.points := rfl
@[simp] theorem State.updCmp_pins (n : Nat) (f : CmpUnit → CmpUnit) : (s.updCmp n f).pins = s.pins := rfl
@[simp] theorem State.updCmp_secs (n : Nat) (f : CmpUnit → CmpUnit) : (s.updCmp n f).secs = s.secs := rfl
@[simp] theorem State.updCmp_encs (n : Nat) (f : CmpUnit → CmpUnit) : (s.updCmp n f).encs = s.encs := rfl
@[simp] theorem State.updCmp_units (n : Nat) (f : CmpUnit → CmpUnit) : (s.updCmp n f).units = s.units := rfl
@[simp] theorem State.updCmp_ests (n : Nat) (f : CmpUnit → CmpUnit) : (s.updCmp n f).ests = s.ests := rfl
@[simp] theorem State.updCmp_ledger (n : Nat) (f : CmpUnit → CmpUnit) : (s.updCmp n f).ledger = s.ledger := rfl
@[simp] theorem State.updCmp_reqs (n : Nat) (f : CmpUnit → CmpUnit) : (s.updCmp n f).reqs = s.reqs := rfl
@[simp] theorem State.updCmp_restores (n : Nat) (f : CmpUnit → CmpUnit) : (s.updCmp n f).restores = s.restores := rfl
@[simp] theorem State.updCmp_snap (n : Nat) (f : CmpUnit → CmpUnit) : (s.updCmp n f).snap = s.snap := rfl
@[simp] theorem State.updCmp_tone (n : Nat) (f : CmpUnit → CmpUnit) : (s.updCmp n f).tone = s.tone := rfl
@[simp] theorem State.updCmp_bcw (n : Nat) (f : CmpUnit → CmpUnit) : (s.updCmp n f).bcw = s.bcw := rfl
@[simp] theorem State.updCmp_fab (n : Nat) (f : CmpUnit → CmpUnit) : (s.updCmp n f).fab = s.fab := rfl
@[simp] theorem State.updCmp_toSafe (n : Nat) (f : CmpUnit → CmpUnit) : (s.updCmp n f).toSafe = s.toSafe := rfl
@[simp] theorem State.updCmp_lines (n : Nat) (f : CmpUnit → CmpUnit) : (s.updCmp n f).lines = s.lines := rfl
@[simp] theorem State.updCmp_ext (n : Nat) (f : CmpUnit → CmpUnit) : (s.updCmp n f).ext = s.ext := rfl
@[simp] theorem State.updCmp_sio (n : Nat) (f : CmpUnit → CmpUnit) : (s.updCmp n f).sio = s.sio := rfl
@[simp] theorem State.updCmp_spu (n : Nat) (f : CmpUnit → CmpUnit) : (s.updCmp n f).spu = s.spu := rfl
@[simp] theorem State.updCmp_boot (n : Nat) (f : CmpUnit → CmpUnit) : (s.updCmp n f).boot = s.boot := rfl
@[simp] theorem State.updCmp_can (n : Nat) (f : CmpUnit → CmpUnit) : (s.updCmp n f).can = s.can := rfl
@[simp] theorem State.updCmp_ste (n : Nat) (f : CmpUnit → CmpUnit) : (s.updCmp n f).ste = s.ste := rfl
@[simp] theorem State.updCmp_tl (n : Nat) (f : CmpUnit → CmpUnit) : (s.updCmp n f).tl = s.tl := rfl
@[simp] theorem State.updCmp_hosts (n : Nat) (f : CmpUnit → CmpUnit) : (s.updCmp n f).hosts = s.hosts := rfl
@[simp] theorem State.updCmp_flash (n : Nat) (f : CmpUnit → CmpUnit) : (s.updCmp n f).flash = s.flash := rfl
@[simp] theorem State.updCmp_up (n : Nat) (f : CmpUnit → CmpUnit) : (s.updCmp n f).up = s.up := rfl
@[simp] theorem State.updCmp_link (n : Nat) (f : CmpUnit → CmpUnit) : (s.updCmp n f).link = s.link := rfl
@[simp] theorem State.updCmp_balls (n : Nat) (f : CmpUnit → CmpUnit) : (s.updCmp n f).balls = s.balls := rfl
@[simp] theorem State.updCmp_indicAt (n : Nat) (f : CmpUnit → CmpUnit) : (s.updCmp n f).indicAt = s.indicAt := rfl
@[simp] theorem State.updCmp_tookOver (n : Nat) (f : CmpUnit → CmpUnit) : (s.updCmp n f).tookOver = s.tookOver := rfl
@[simp] theorem State.updCmp_srcFails (n : Nat) (f : CmpUnit → CmpUnit) : (s.updCmp n f).srcFails = s.srcFails := rfl
@[simp] theorem State.get_updCmp (n : Nat) (f : CmpUnit → CmpUnit) (g : Fld) (j : Nat) : (s.updCmp n f).get g j = s.get g j := rfl
@[simp] theorem State.byte_updCmp (n : Nat) (f : CmpUnit → CmpUnit) (addr : Nat) : (s.updCmp n f).byte addr = s.byte addr := rfl

/-! ### updHost -/

@[simp] theorem State.updHost_regs (n : Nat) (f : PortState → PortState) : (s.updHost n f).regs = s.regs := rfl
@[simp] theorem State.updHost_mem (n : Nat) (f : PortState → PortState) : (s.updHost n f).mem = s.mem := rfl
@[simp] theorem State.updHost_now (n : Nat) (f : PortState → PortState) : (s.updHost n f).now = s.now := rfl
@[simp] theorem State.updHost_cycle (n : Nat) (f : PortState → PortState) : (s.updHost n f).cycle = s.cycle := rfl
@[simp] theorem State.updHost_pending (n : Nat) (f : PortState → PortState) : (s.updHost n f).pending = s.pending := rfl
@[simp] theorem State.updHost_freeCtr (n : Nat) (f : PortState → PortState) : (s.updHost n f).freeCtr = s.freeCtr := rfl
@[simp] theorem State.updHost_chans (n : Nat) (f : PortState → PortState) : (s.updHost n f).chans = s.chans := rfl
@[simp] theorem State.updHost_points (n : Nat) (f : PortState → PortState) : (s.updHost n f).points = s.points := rfl
@[simp] theorem State.updHost_pins (n : Nat) (f : PortState → PortState) : (s.updHost n f).pins = s.pins := rfl
@[simp] theorem State.updHost_secs (n : Nat) (f : PortState → PortState) : (s.updHost n f).secs = s.secs := rfl
@[simp] theorem State.updHost_encs (n : Nat) (f : PortState → PortState) : (s.updHost n f).encs = s.encs := rfl
@[simp] theorem State.updHost_units (n : Nat) (f : PortState → PortState) : (s.updHost n f).units = s.units := rfl
@[simp] theorem State.updHost_cmps (n : Nat) (f : PortState → PortState) : (s.updHost n f).cmps = s.cmps := rfl
@[simp] theorem State.updHost_ests (n : Nat) (f : PortState → PortState) : (s.updHost n f).ests = s.ests := rfl
@[simp] theorem State.updHost_ledger (n : Nat) (f : PortState → PortState) : (s.updHost n f).ledger = s.ledger := rfl
@[simp] theorem State.updHost_reqs (n : Nat) (f : PortState → PortState) : (s.updHost n f).reqs = s.reqs := rfl
@[simp] theorem State.updHost_restores (n : Nat) (f : PortState → PortState) : (s.updHost n f).restores = s.restores := rfl
@[simp] theorem State.updHost_snap (n : Nat) (f : PortState → PortState) : (s.updHost n f).snap = s.snap := rfl
@[simp] theorem State.updHost_tone (n : Nat) (f : PortState → PortState) : (s.updHost n f).tone = s.tone := rfl
@[simp] theorem State.updHost_bcw (n : Nat) (f : PortState → PortState) : (s.updHost n f).bcw = s.bcw := rfl
@[simp] theorem State.updHost_fab (n : Nat) (f : PortState → PortState) : (s.updHost n f).fab = s.fab := rfl
@[simp] theorem State.updHost_toSafe (n : Nat) (f : PortState → PortState) : (s.updHost n f).toSafe = s.toSafe := rfl
@[simp] theorem State.updHost_lines (n : Nat) (f : PortState → PortState) : (s.updHost n f).lines = s.lines := rfl
@[simp] theorem State.updHost_ext (n : Nat) (f : PortState → PortState) : (s.updHost n f).ext = s.ext := rfl
@[simp] theorem State.updHost_sio (n : Nat) (f : PortState → PortState) : (s.updHost n f).sio = s.sio := rfl
@[simp] theorem State.updHost_spu (n : Nat) (f : PortState → PortState) : (s.updHost n f).spu = s.spu := rfl
@[simp] theorem State.updHost_boot (n : Nat) (f : PortState → PortState) : (s.updHost n f).boot = s.boot := rfl
@[simp] theorem State.updHost_can (n : Nat) (f : PortState → PortState) : (s.updHost n f).can = s.can := rfl
@[simp] theorem State.updHost_ste (n : Nat) (f : PortState → PortState) : (s.updHost n f).ste = s.ste := rfl
@[simp] theorem State.updHost_tl (n : Nat) (f : PortState → PortState) : (s.updHost n f).tl = s.tl := rfl
@[simp] theorem State.updHost_flash (n : Nat) (f : PortState → PortState) : (s.updHost n f).flash = s.flash := rfl
@[simp] theorem State.updHost_up (n : Nat) (f : PortState → PortState) : (s.updHost n f).up = s.up := rfl
@[simp] theorem State.updHost_link (n : Nat) (f : PortState → PortState) : (s.updHost n f).link = s.link := rfl
@[simp] theorem State.updHost_balls (n : Nat) (f : PortState → PortState) : (s.updHost n f).balls = s.balls := rfl
@[simp] theorem State.updHost_indicAt (n : Nat) (f : PortState → PortState) : (s.updHost n f).indicAt = s.indicAt := rfl
@[simp] theorem State.updHost_tookOver (n : Nat) (f : PortState → PortState) : (s.updHost n f).tookOver = s.tookOver := rfl
@[simp] theorem State.updHost_srcFails (n : Nat) (f : PortState → PortState) : (s.updHost n f).srcFails = s.srcFails := rfl
@[simp] theorem State.get_updHost (n : Nat) (f : PortState → PortState) (g : Fld) (j : Nat) : (s.updHost n f).get g j = s.get g j := rfl
@[simp] theorem State.byte_updHost (n : Nat) (f : PortState → PortState) (addr : Nat) : (s.updHost n f).byte addr = s.byte addr := rfl

/-! ### fresh -/

@[simp] theorem State.fresh_regs : (s.fresh).regs = s.regs := rfl
@[simp] theorem State.fresh_mem : (s.fresh).mem = s.mem := rfl
@[simp] theorem State.fresh_now : (s.fresh).now = s.now := rfl
@[simp] theorem State.fresh_cycle : (s.fresh).cycle = s.cycle := rfl
@[simp] theorem State.fresh_pending : (s.fresh).pending = s.pending := rfl
@[simp] theorem State.fresh_chans : (s.fresh).chans = s.chans := rfl
@[simp] theorem State.fresh_points : (s.fresh).points = s.points := rfl
@[simp] theorem State.fresh_pins : (s.fresh).pins = s.pins := rfl
@[simp] theorem State.fresh_secs : (s.fresh).secs = s.secs := rfl
@[simp] theorem State.fresh_encs : (s.fresh).encs = s.encs := rfl
@[simp] theorem State.fresh_units : (s.fresh).units = s.units := rfl
@[simp] theorem State.fresh_cmps : (s.fresh).cmps = s.cmps := rfl
@[simp] theorem State.fresh_ests : (s.fresh).ests = s.ests := rfl
@[simp] theorem State.fresh_ledger : (s.fresh).ledger = s.ledger := rfl
@[simp] theorem State.fresh_reqs : (s.fresh).reqs = s.reqs := rfl
@[simp] theorem State.fresh_restores : (s.fresh).restores = s.restores := rfl
@[simp] theorem State.fresh_snap : (s.fresh).snap = s.snap := rfl
@[simp] theorem State.fresh_tone : (s.fresh).tone = s.tone := rfl
@[simp] theorem State.fresh_bcw : (s.fresh).bcw = s.bcw := rfl
@[simp] theorem State.fresh_fab : (s.fresh).fab = s.fab := rfl
@[simp] theorem State.fresh_toSafe : (s.fresh).toSafe = s.toSafe := rfl
@[simp] theorem State.fresh_lines : (s.fresh).lines = s.lines := rfl
@[simp] theorem State.fresh_ext : (s.fresh).ext = s.ext := rfl
@[simp] theorem State.fresh_sio : (s.fresh).sio = s.sio := rfl
@[simp] theorem State.fresh_spu : (s.fresh).spu = s.spu := rfl
@[simp] theorem State.fresh_boot : (s.fresh).boot = s.boot := rfl
@[simp] theorem State.fresh_can : (s.fresh).can = s.can := rfl
@[simp] theorem State.fresh_ste : (s.fresh).ste = s.ste := rfl
@[simp] theorem State.fresh_tl : (s.fresh).tl = s.tl := rfl
@[simp] theorem State.fresh_hosts : (s.fresh).hosts = s.hosts := rfl
@[simp] theorem State.fresh_flash : (s.fresh).flash = s.flash := rfl
@[simp] theorem State.fresh_up : (s.fresh).up = s.up := rfl
@[simp] theorem State.fresh_link : (s.fresh).link = s.link := rfl
@[simp] theorem State.fresh_balls : (s.fresh).balls = s.balls := rfl
@[simp] theorem State.fresh_indicAt : (s.fresh).indicAt = s.indicAt := rfl
@[simp] theorem State.fresh_tookOver : (s.fresh).tookOver = s.tookOver := rfl
@[simp] theorem State.fresh_srcFails : (s.fresh).srcFails = s.srcFails := rfl
@[simp] theorem State.get_fresh (g : Fld) (j : Nat) : (s.fresh).get g j = s.get g j := rfl
@[simp] theorem State.byte_fresh (addr : Nat) : (s.fresh).byte addr = s.byte addr := rfl

end Sys2Proof.Machine
end

