-- ==== Sys2Proof/Laws/Settle.lean ====
section
/-!
SUPPORT. What the settling after a command can do: one lemma for each operation under `settle`, and `settle_keeps`, which
says once that a state whose drive is steady keeps everything but what follows the state at once (`Keeps`).
-/

namespace Sys2Proof.Machine

/-! ### Keeps as a relation -/

theorem Keeps.refl (s : State) : Keeps s s := ⟨fun _ _ => rfl, fun _ _ => rfl, rfl⟩

theorem Keeps.trans {s t u : State} (a : Keeps s t) (b : Keeps t u) : Keeps s u :=
  ⟨fun k h => (b.regs k h).trans (a.regs k h), fun x h => (b.byte x h).trans (a.byte x h), b.rest.trans a.rest⟩

theorem Keeps.ite {s a b : State} {c : Prop} [Decidable c] (ha : c → Keeps s a) (hb : ¬c → Keeps s b) :
    Keeps s (if c then a else b) := by
  by_cases h : c
  · rw [if_pos h]; exact ha h
  · rw [if_neg h]; exact hb h

/-- Whatever reads only what settling cannot write reads the same. -/
theorem Keeps.reads {α : Type} (f : State → α) (hf : ∀ s : State, f s.steadyPart = f s) {s t : State} (h : Keeps s t) : f t = f s := by
  rw [← hf t, h.rest, hf s]

theorem Keeps.now {s t : State} (h : Keeps s t) : t.now = s.now := h.reads State.now fun _ => rfl

theorem Keeps.lines {s t : State} (h : Keeps s t) : t.lines = s.lines := h.reads State.lines fun _ => rfl

theorem Keeps.ext {s t : State} (h : Keeps s t) : t.ext = s.ext := h.reads State.ext fun _ => rfl

theorem Keeps.spu {s t : State} (h : Keeps s t) : t.spu = s.spu := h.reads State.spu fun _ => rfl

theorem Keeps.boot {s t : State} (h : Keeps s t) : t.boot = s.boot := h.reads State.boot fun _ => rfl

theorem Keeps.link {s t : State} (h : Keeps s t) : t.link = s.link := h.reads State.link fun _ => rfl

/-- A field of a quiet key reads the same. -/
theorem Keeps.get {s t : State} (h : Keeps s t) (f : Fld) (i : Nat := 0) (q : quietKey (f.key i) = true) :
    t.get f i = s.get f i := h.regs _ q

theorem Keeps.flag {s t : State} (h : Keeps s t) (f : Fld) (i : Nat := 0) (q : quietKey (f.key i) = true) :
    t.flag f i = s.flag f i := by unfold State.flag; rw [h.get f i q]

/-- A write of a loud field. -/
theorem keeps_set (s : State) (f : Fld) (i v : Nat) (h : quietKey (f.key i) = false) : Keeps s (s.set f i v) := by
  refine ⟨fun k hk => ?_, fun _ _ => rfl, rfl⟩
  exact State.regs_set_ne s v (fun e => by rw [e] at hk; rw [hk] at h; exact Bool.noConfusion h)

/-- A loop of keeping steps. -/
theorem keeps_foldl {α : Type} (l : List α) (f : State → α → State) (h : ∀ s, ∀ a ∈ l, Keeps s (f s a)) (s : State) :
    Keeps s (l.foldl f s) := by
  induction l generalizing s with
  | nil => exact Keeps.refl s
  | cons a l ih =>
    exact (h s a (by simp)).trans (ih (fun s b hb => h s b (by simp [hb])) (f s a))

theorem keeps_forN (n : Nat) (f : State → Nat → State) (h : ∀ s i, i < n → Keeps s (f s i)) (s : State) :
    Keeps s (forN n s f) :=
  keeps_foldl _ f (fun s i hi => h s i (List.mem_range.mp hi)) s

/-! ### The journal -/

theorem JEntry.bytes_length (e : JEntry) (n : Nat) : (e.bytes n).length ≤ 32 := by
  simp only [JEntry.bytes, List.length_append, leBytes, List.length_cons, List.length_nil, List.length_take]
  omega

theorem keeps_clockKeep (s : State) (e : JEntry) : Keeps s (clockKeep s e) :=
  Keeps.ite (fun _ => Keeps.refl s) (fun _ => ⟨fun _ _ => rfl, fun _ _ => rfl, rfl⟩)

theorem keeps_putJournal (s : State) (n : Nat) (e : JEntry) (m : Nat) : Keeps s (s.putBytes (jrnSlot n) (e.bytes m)) := by
  refine ⟨fun _ _ => rfl, fun a h => ?_, rfl⟩
  have hl := JEntry.bytes_length e m
  have hm : n % 8192 < 8192 := Nat.mod_lt _ (by decide)
  simp only [inJournal, Bool.and_eq_false_iff, decide_eq_false_iff_not, Nat.not_le, Nat.not_lt] at h
  exact storeGet_putBytes_out _ _ _ (by unfold jrnSlot; omega)

theorem keeps_journal (s : State) (e : JEntry) : Keeps s (s.journal e) := by
  unfold State.journal
  refine Keeps.ite (fun _ => ?_) (fun _ => Keeps.refl s)
  have h1 := (keeps_clockKeep s e).trans (keeps_putJournal _ (s.get F.JRN_HEAD_HEAD) e (s.get F.JRN_HEAD_HEAD))
  have h2 := fun v => h1.trans (keeps_set _ F.JRN_HEAD_HEAD 0 v (by decide))
  exact Keeps.ite (fun _ => (h2 _).trans (keeps_set _ F.JRN_STATUS_JRN_NEW 0 _ (by decide))) (fun _ => h2 _)

theorem keeps_note (s : State) (a b c d e : Nat) : Keeps s (s.note a b c d e) := keeps_journal s _

theorem keeps_indicate (s : State) : Keeps s s.indicate := ⟨fun _ _ => rfl, fun _ _ => rfl, rfl⟩

theorem keeps_sio (s : State) (x : Sio) : Keeps s (s.putSio x) := ⟨fun _ _ => rfl, fun _ _ => rfl, rfl⟩

theorem keeps_updOut (s : State) (k : Nat) (f : OutPort → OutPort) : Keeps s (s.updOut k f) := keeps_sio s _

theorem keeps_countNote (s : State) (a b c d e : Nat) : Keeps s (s.countNote a b c d e) := keeps_journal s _

theorem Keeps.countNote {s t : State} (h : Keeps s t) {a b c d e : Nat} : Keeps s (t.countNote a b c d e) :=
  h.trans (keeps_countNote t a b c d e)

theorem Keeps.set {s t : State} (h : Keeps s t) {f : Fld} {i v : Nat} (q : quietKey (f.key i) = false) :
    Keeps s (t.set f i v) := h.trans (keeps_set t f i v q)

theorem Keeps.note {s t : State} (h : Keeps s t) {a b c d e : Nat} : Keeps s (t.note a b c d e) := h.trans (keeps_note t a b c d e)

theorem Keeps.journal {s t : State} (h : Keeps s t) {e : JEntry} : Keeps s (t.journal e) := h.trans (keeps_journal t e)

theorem Keeps.sio {s t : State} (h : Keeps s t) {x : Sio} : Keeps s (t.putSio x) := h.trans (keeps_sio t x)

theorem Keeps.updOut {s t : State} (h : Keeps s t) {k : Nat} {f : OutPort → OutPort} : Keeps s (t.updOut k f) :=
  h.trans (keeps_updOut t k f)

/-! ### Input samples -/

theorem keeps_pairFault (s : State) {j : Nat} (hj : j < 16) : Keeps s (pairFault s j) := by
  have k1 := (by decide : ∀ j < 16, quietKey (F.SIO_INj_STAT_FAULT.key j) = false) j hj
  have k2 := (by decide : ∀ j < 16, quietKey (F.SIO_INj_STAT_VALUE.key j) = false) j hj
  have k3 : quietKey (F.SIO_STATUS_IN_FAULT_NEW.key 0) = false := by decide
  simp only [pairFault, State.raise, State.lower]
  exact ((((keeps_indicate s).set k1).set k2).set k3).note

theorem keeps_pairAgree (s : State) {j : Nat} (hj : j < 16) (permit : Bool) : Keeps s (pairAgree s j permit) := by
  have kd := (by decide : ∀ j < 16, quietKey (F.SIO_INj_STAT_DISAGREE.key j) = false) j hj
  have kr := (by decide : ∀ j < 16, quietKey (F.SIO_INj_STAT_RUN.key j) = false) j hj
  have kv := (by decide : ∀ j < 16, quietKey (F.SIO_INj_STAT_VALUE.key j) = false) j hj
  have kc := (by decide : ∀ j < 16, quietKey (F.SIO_INj_CNT_RETURN_CNT.key j) = false) j hj
  have ks := (by decide : ∀ j < 16, quietKey (F.SIO_INj_CNT_SWITCH_CNT.key j) = false) j hj
  have kn : quietKey (F.SIO_STATUS_DISC_NEW.key 0) = false := by decide
  have h0 := (((keeps_set s F.SIO_INj_STAT_DISAGREE j 0 kd).set (v := 0) kr).sio
    (x := { s.sio with lastAnti := putBit s.sio.lastAnti j permit }))
  simp only [pairAgree, State.raise, State.lower, State.setFlag, State.bump]
  refine Keeps.ite (fun _ => h0) (fun _ => Keeps.ite (fun _ => h0.trans (keeps_pairFault _ hj)) (fun _ => ?_))
  refine Keeps.ite (fun _ => h0.set kv) (fun _ => ((Keeps.set (h0.set kv) ?_).set kn).journal)
  split
  · exact kc
  · exact ks

theorem keeps_pairSamples (s : State) {j : Nat} (hj : j < 16) (m : Nat) : Keeps s (pairSamples s j m) := by
  have kd := (by decide : ∀ j < 16, quietKey (F.SIO_INj_STAT_DISAGREE.key j) = false) j hj
  have kr := (by decide : ∀ j < 16, quietKey (F.SIO_INj_STAT_RUN.key j) = false) j hj
  simp only [pairSamples, State.raise]
  have h0 := fun v => (keeps_set s _ j 1 kd).set (v := v) kr
  exact Keeps.ite (fun _ => Keeps.refl s) (fun _ => Keeps.ite (fun _ => keeps_pairAgree s hj _) (fun _ =>
    Keeps.ite (fun _ => (h0 _).trans (keeps_pairFault _ hj)) (fun _ => h0 _)))

/-- Everything that the due input samples can do. -/
theorem keeps_sampleInputs (s : State) : Keeps s (sampleInputs s) := by
  have ka : quietKey (F.SIO_IN_RAW_A.key 0) = false := by decide
  have kb : quietKey (F.SIO_IN_RAW_B.key 0) = false := by decide
  simp only [sampleInputs]
  split
  · exact Keeps.refl s
  · split
    · exact Keeps.refl s
    · refine Keeps.sio (Keeps.trans ((keeps_set s _ 0 _ ka).set kb) (keeps_forN 16 _ (fun s j hj => keeps_pairSamples s hj _) _))

/-! ### Controllers -/

theorem keeps_can (s : State) (x : List CanCtl) : Keeps s (s.putCan x) := ⟨fun _ _ => rfl, fun _ _ => rfl, rfl⟩

theorem keeps_held (s : State) (l : List (Nat × Nat × Nat)) : Keeps s (s.putSte { s.ste with held := l }) := by
  exact ⟨fun _ _ => rfl, fun _ _ => rfl, rfl⟩

theorem Keeps.can {s t : State} (h : Keeps s t) {x : List CanCtl} : Keeps s (t.putCan x) := h.trans (keeps_can t x)

theorem keeps_bufUnlock (s : State) {x b : Nat} (hx : x < 2) (hb : b < 64) : Keeps s (bufUnlock s x b) := by
  have k1 := (by decide : ∀ x < 2, ∀ b < 64, quietKey ((F.CANx_BUFCTRLb_LOCKED.can x).key b) = false) x hx b hb
  have k2 := (by decide : ∀ x < 2, ∀ b < 64, quietKey ((F.CANx_BUFCTRLb_LOCK_OWNER.can x).key b) = false) x hx b hb
  simp only [bufUnlock, State.lower]
  exact (keeps_set s _ b 0 k1).set k2

theorem keeps_reqEnd (s : State) {x b : Nat} (hx : x < 2) (hb : b < 64) : Keeps s (reqEnd s x b) := by
  have k1 := (by decide : ∀ x < 2, ∀ b < 64, quietKey ((F.CANx_BUFCTRLb_TX_REQ.can x).key b) = false) x hx b hb
  have h0 := (keeps_set s _ b 0 k1).trans (keeps_held _ (s.ste.held.filter (fun (h : Nat × Nat × Nat) => !(h.1 == x && h.2.1 == b))))
  simp only [reqEnd, State.lower]
  exact Keeps.ite (fun _ => h0.trans (keeps_bufUnlock _ hx hb)) (fun _ => h0)

theorem keeps_attemptCut (s : State) (x : Nat) : Keeps s (attemptCut s x) := by
  unfold attemptCut clashReset State.updCan
  dsimp only
  split
  · exact (keeps_can s _).can
  · exact keeps_can s _

theorem keeps_canSyncOne (s : State) {x : Nat} (hx : x < 2) : Keeps s (canSyncOne s x) := by
  have k0 := (by decide : ∀ x < 2, quietKey ((F.CANx_ERR_MONITOR.can x).key 0) = false) x hx
  have k1 := (by decide : ∀ x < 2, quietKey ((F.CANx_ERR_TEC.can x).key 0) = false) x hx
  have k2 := (by decide : ∀ x < 2, quietKey ((F.CANx_ERR_REC.can x).key 0) = false) x hx
  have k3 := (by decide : ∀ x < 2, quietKey ((F.CANx_ERR_RP.can x).key 0) = false) x hx
  have k4 := (by decide : ∀ x < 2, quietKey ((F.CANx_ERR_ESTATE.can x).key 0) = false) x hx
  simp only [canSyncOne, State.setFlag, State.lower, State.updCan]
  split
  · refine Keeps.trans ?_ (keeps_forN 64 _ (fun s b hb => ?_) _)
    · exact ((((((keeps_set s _ 0 _ k0).trans (keeps_attemptCut _ _)).set k1).set k2).set k3).set k4).can
    · split
      · exact keeps_reqEnd s hx hb
      · exact Keeps.refl s
  · exact keeps_set s _ 0 _ k0

/-- Everything that a change of a controller's mode can do. -/
theorem keeps_canSync (s : State) : Keeps s (canSync s) :=
  Keeps.trans (keeps_canSyncOne s (by decide)) (keeps_canSyncOne _ (by decide))

/-! ### Fabric and output switches -/

theorem keeps_fab (s : State) (x : Fabric) : Keeps s (s.putFab x) := ⟨fun _ _ => rfl, fun _ _ => rfl, rfl⟩

theorem keeps_fabRun (n : Nat) (s : State) : Keeps s (fabRun n s) := by
  induction n generalizing s with
  | zero => exact Keeps.refl s
  | succ n ih =>
    unfold fabRun
    dsimp only
    split
    · exact Keeps.refl s
    · exact Keeps.trans (keeps_fab s _) (ih _)

/-- Everything that the fabric's settling can do. -/
theorem keeps_fabSettle (s : State) : Keeps s (fabSettle s) := by
  have k1 : quietKey (F.FAB_OUTDEM_SOUT.key 0) = false := by decide
  have k2 : quietKey (F.FAB_OUTDEM_TLP.key 0) = false := by decide
  have k3 : quietKey (F.FAB_OUTDEM_TLS.key 0) = false := by decide
  have hd : ∀ s, Keeps s (putDemands s) := fun s => ((keeps_set s _ 0 _ k1).set k2).set k3
  exact Keeps.ite (fun _ => (keeps_fabRun 4096 s).trans (hd _)) (fun _ => Keeps.ite (fun _ => hd s) (fun _ => Keeps.refl s))

/-- Everything that abandoning a pulse can do. -/
theorem keeps_pulseAbandon (s : State) (k : Nat) (hk : k < 12) : Keeps s (pulseAbandon s k) := by
  have k1 := (by decide : ∀ k < 12, quietKey (F.SIO_OUTk_CNT_ABANDONED.key k) = false) k hk
  unfold pulseAbandon
  exact Keeps.ite (fun _ => Keeps.refl s) (fun _ => ((keeps_updOut s k _).set k1).countNote)

/-- Everything that the output switches' following can do. -/
theorem keeps_outStep (s : State) : Keeps s (outStep s) := by
  unfold outStep
  refine keeps_forN 12 _ (fun s k hk => ?_) s
  dsimp only
  split
  · exact keeps_pulseAbandon s k hk
  · split
    · exact keeps_updOut s k _
    · split
      · exact keeps_updOut s k _
      · exact Keeps.refl s

/-! ### Settling -/

theorem Keeps.dev {s t : State} (h : Keeps s t) : t.dev = s.dev := by
  unfold State.dev; rw [h.boot, h.get F.DEV_STATE_STATE 0 (by decide)]

theorem Keeps.role {s t : State} (h : Keeps s t) : t.role = s.role := by
  unfold State.role; rw [h.get F.DEV_STATE_ROLE 0 (by decide)]

theorem Keeps.counting {s t : State} (h : Keeps s t) : t.counting = s.counting := by
  unfold State.counting; rw [h.dev]

theorem Keeps.portsUp {s t : State} (h : Keeps s t) : t.portsUp = s.portsUp := by
  unfold State.portsUp; rw [h.flag F.CRU_CLK_PLL_LOCK 0 (by decide)]

theorem Keeps.srcMay {s t : State} (h : Keeps s t) : Sys2Proof.Machine.srcMay t = Sys2Proof.Machine.srcMay s := by
  unfold Sys2Proof.Machine.srcMay intlkActive trainRuns
  rw [h.ext, h.now, h.role, h.dev, h.spu, h.flag F.SPU_STATUS_HALTED 0 (by decide), h.flag F.URED_STATE_LINK_UP 0 (by decide)]

theorem keeps_syncDrive (s : State) (h : DriveSteady s) : Keeps s (syncDrive s) := by
  have hk : quietKey (F.EXC_MODE_DRIVE_EN.key 0) = false := by decide
  have k := keeps_set s F.EXC_MODE_DRIVE_EN 0 (b2n (Sys2Proof.Machine.srcMay s)) hk
  have hc : Sys2Proof.Machine.srcMay s = (s.set F.EXC_MODE_DRIVE_EN 0 (b2n (Sys2Proof.Machine.srcMay s))).lines.src
      ∨ (!(s.set F.EXC_MODE_DRIVE_EN 0 (b2n (Sys2Proof.Machine.srcMay s))).counting) = true := by
    rw [k.counting, k.lines]
    rcases h with h | h
    · exact Or.inr (by rw [h]; rfl)
    · exact Or.inl h
  simp only [syncDrive, State.setFlag]
  exact Keeps.ite (fun _ => k) (fun hn => absurd hc hn)

/-- Settling a state whose drive is steady keeps everything but the blocks that follow the state at once. -/
theorem settle_keeps (s : State) (h : DriveSteady s) : Keeps s (settle s) := by
  have k := keeps_sampleInputs s
  have h' : DriveSteady (sampleInputs s) := by
    unfold DriveSteady; rw [k.counting, k.srcMay, k.lines]; exact h
  unfold settle
  exact Keeps.trans k (Keeps.trans (keeps_syncDrive _ h') (Keeps.trans (keeps_canSync _) (Keeps.trans (keeps_fabSettle _)
    (keeps_outStep _))))

/-! ### The state after a command -/

theorem settled_eq (s t : State) : settled s t = (putLines (settle t)).putPending s.pending := by unfold settled; rfl

theorem putLines_eq (u : State) : ∃ l, putLines u = (u.putLines (computeLines u)).putLink l ∧ l.image = u.link.image :=
  ⟨{ u.link with
      rose := if (computeLines u).intlkOut && !u.lines.intlkOut then u.now else u.link.rose,
      firsts := firstsOf u (computeLines u) }, rfl, rfl⟩

@[simp] theorem settled_pending (s t : State) : (settled s t).pending = s.pending := by
  rw [settled_eq]; exact State.putPending_pending _ _

theorem putLines_regs (u : State) : (putLines u).regs = u.regs := by
  obtain ⟨l, h, _⟩ := putLines_eq u; rw [h]; rfl

theorem settled_regs (s t : State) : (settled s t).regs = (settle t).regs := by
  rw [settled_eq, State.putPending_regs, putLines_regs]

theorem settled_get (s t : State) (f : Fld) (i : Nat) : (settled s t).get f i = (settle t).get f i := by
  unfold State.get; rw [settled_regs]

theorem putLines_lines (u : State) : (putLines u).lines = computeLines (putLines u) := by
  obtain ⟨l, h, _⟩ := putLines_eq u; rw [h]; rfl

/-- After every command the lines stand as the conditions command them. -/
theorem settled_lines (s t : State) : LinesFollow (settled s t) := by
  rw [settled_eq]
  generalize hu : settle t = u
  unfold LinesFollow
  rw [State.putPending_lines, putLines_lines]
  rfl

/-- A field of a quiet key after a command whose effect leaves the drive steady. -/
theorem settled_get_quiet {s t : State} (h : DriveSteady t) (f : Fld) (i : Nat) (q : quietKey (f.key i) = true) :
    (settled s t).get f i = t.get f i := by
  rw [settled_get]; exact (settle_keeps t h).get f i q

/-! ### Commands whose effect leaves the drive steady -/

/-- Where the lines follow the state the drive is steady. -/
theorem LinesFollow.steady {s : State} (h : LinesFollow s) : DriveSteady s := by
  refine Or.inr ?_
  unfold LinesFollow at h
  rw [h]; rfl

/-- An effect that leaves the lines and the conditions of R53 alone leaves the drive steady. -/
theorem DriveSteady.of_eq {s u : State} (h : LinesFollow s) (l : u.lines = s.lines) (m : srcMay u = srcMay s) : DriveSteady u := by
  refine Or.inr ?_
  have h' := h
  unfold LinesFollow at h'
  rw [m, l, h']; rfl

/-- The addresses of the register fields that the conditions of R53 read. -/
def drivesSource (k : Nat) : Bool :=
  k == F.DEV_STATE_ROLE.key 0 || k == F.DEV_STATE_STATE.key 0 || k == F.SPU_STATUS_HALTED.key 0 || k == F.URED_STATE_LINK_UP.key 0

theorem srcMay_set (s : State) (f : Fld) (i v : Nat) (h : drivesSource (f.key i) = false) :
    srcMay (s.set f i v) = srcMay s := by
  simp only [drivesSource, Bool.or_eq_false_iff, beq_eq_false_iff_ne, ne_eq] at h
  obtain ⟨⟨⟨h1, h2⟩, h3⟩, h4⟩ := h
  have e (g : Fld) (hn : ¬f.key i = g.key 0) : (s.set f i v).get g 0 = s.get g 0 := State.get_set_ne s v (fun e => hn e.symm)
  unfold srcMay intlkActive trainRuns State.role State.dev State.flag
  rw [e _ h1, e _ h2, e _ h3, e _ h4]
  rfl

theorem DriveSteady.set {s : State} (h : DriveSteady s) {f : Fld} {i v : Nat} (k : drivesSource (f.key i) = false) :
    DriveSteady (s.set f i v) := by
  unfold DriveSteady at *
  rw [srcMay_set s f i v k, State.set_lines]
  rcases h with h | h
  · left
    have hk : f.key i ≠ F.DEV_STATE_STATE.key 0 := by
      simp only [drivesSource, Bool.or_eq_false_iff, beq_eq_false_iff_ne, ne_eq] at k
      exact k.1.1.2
    have e : (s.set f i v).dev = s.dev := by
      unfold State.dev
      rw [State.get_set_ne s v (fun e => hk e.symm)]
      rfl
    unfold State.counting at *
    rw [e]; exact h
  · exact Or.inr h

theorem put_three_again (w : State) (a b : Lines) (c d : Link) (e f : List Instr) :
    ((((((w.putLines a).putLink c).putPending e).putLines b).putLink d).putPending f) = ((w.putLines b).putLink d).putPending f := rfl

theorem put_three_self (w : State) : ((w.putLines w.lines).putLink w.link).putPending w.pending = w := rfl

/-- Settling leaves the whole effect of a command that leaves the drive steady. -/
theorem settled_result {s u : State} (h : DriveSteady u) : Result s u (settled s u) := by
  have k := settle_keeps u h
  rw [settled_eq]
  generalize settle u = w at k
  obtain ⟨l, hl, _⟩ := putLines_eq w
  refine ⟨State.putPending_pending _ _, ?_, ?_, ?_⟩
  · unfold LinesFollow; rw [State.putPending_lines, putLines_lines]; rfl
  · unfold putLines
    dsimp only
    rw [State.putPending_link, State.putLink_link, k.link]
  · rw [hl, put_three_again, ← k.lines, ← k.link, ← (k.reads State.pending fun _ => rfl), put_three_self]
    exact k

/-- A command that answers a settled effect with a steady drive. -/
theorem answers_of {c : Instr} {s u : State} (h : exec c s = answer s u) (d : DriveSteady u) : Answers c s u :=
  ⟨_, h, settled_result d⟩

end Sys2Proof.Machine
end

