-- ==== Sys2Proof/Tests/Slice0.lean ====
section
/-!
SUPPORT. Tests: the well-formedness checks with an ill-formed command for each, single steps on small states whose expected
results are worked out by hand from the rules cited, and for every statement of Certificates/Slice0/Obligations.lean with
hypotheses a theorem that shows, clause by clause, states and operands that meet them.
-/

namespace Sys2Proof.Tests

set_option Elab.async false

open Sys2Proof.Machine

/-! ### Small states -/

/-- The lines put as the conditions command them. -/
def fix (s : State) : State := s.putLines (computeLines s)

/-- A device in a state and role (codes of DEV_STATE), its ports answering, every other register 0. -/
def mk (st role : Nat) : State :=
  fix ((({ State.reset with regs := [], boot := { State.reset.boot with stage := 5 } }.set F.DEV_STATE_STATE 0 st).set
    F.DEV_STATE_ROLE 0 role).set F.CRU_CLK_PLL_LOCK 0 1)

/-- The same at tick `t` of cycle `k`, every due input sample taken. -/
def at_ (k t : Nat) (s : State) : State :=
  fix ((((s.putCycle k).putNow (k * 60000 + t))).putSio { s.sio with nextSample := (k * 60000 + t) / 6000 + 1 })

def boot : State := mk 1 0
def comm : State := mk 2 0
def oper : State := mk 4 1
def sqll : State := mk 5 1
def safe : State := mk 6 0
def stby : State := mk 4 2
def dark : State := fix (oper.set F.CRU_CLK_PLL_LOCK 0 0)
def unlocked : State := fix (boot.set F.CRU_CLK_PLL_LOCK 0 0)

/-- A commanded next state has a property. -/
def after (c : Instr) (s : State) (f : State → Bool) : Bool := match exec c s with | .next t => f t | _ => false

/-! ### Well-formed commands -/

theorem test_wf_unaligned_write : Instr.wf (.registerWrite .a 0x10002 0) = false := by decide
theorem test_wf_unaligned_pair_high : Instr.wf (.pairHWrite .a 0x10003 0) = false := by decide
theorem test_wf_unaligned_pair_low : Instr.wf (.pairLWrite .b 0x10001 0) = false := by decide
theorem test_wf_unaligned_pair_read : Instr.wf (.pairLRead .b 0x10001) = false := by decide
theorem test_wf_unaligned_w1c : Instr.wf (.w1cClear .b 0x15 1) = false := by decide
theorem test_wf_cfg_window : Instr.wf (.cfgMemWrite .a 0x600000 0) = false := by decide
theorem test_wf_cfg_below : Instr.wf (.cfgMemWrite .a 0x1FFFFC 0) = false := by decide
theorem test_wf_frame_length : Instr.wf (.writeInc .a 2 0x10000 [1, 2] 0 true) = false := by decide
theorem test_wf_frame_fix_length : Instr.wf (.writeFix .a 0 0x10000 [] 0 true) = false := by decide
theorem test_wf_clamp_order : Instr.wf (.clampConduction 0 5 4) = false := by decide
theorem test_wf_encoder_empty : Instr.wf (.encoderFrame 0 0 true []) = false := by decide
theorem test_wf_encoder_long : Instr.wf (.encoderFrame 0 0 true (List.replicate 65 false)) = false := by decide
theorem test_wf_seal_samples : Instr.wf (.sealReading [0, 0]) = false := by decide
theorem test_wf_pll_samples : Instr.wf (.pllLock [0, 0, 0, 0]) = false := by decide
theorem test_wf_load_samples : Instr.wf (.loadEnd [0, 0, 0, 0, 0, 0] 0 none) = false := by decide
theorem test_wf_telegram_length : Instr.wf (.tlTelegramFrame [0]) = false := by decide
theorem test_wf_cross_own_channel : Instr.wf (.toneVisitVerdict 3 0 0 false (some (3, 0))) = false := by decide
theorem test_wf_cancel_values : Instr.wf (.bcwClearCancel 0x5A) = false ∧ Instr.wf (.bcwClearCancel 0xA5) = false := by decide
theorem test_wf_semaphore_identity : Instr.wf (.semTake .a 0 3) = false := by decide
theorem test_wf_can_length : Instr.wf (.canFrameReceived 0 ⟨0, true, false, false, false, false, 3, [1, 2]⟩) = false := by decide
theorem test_wf_can_base_identifier : Instr.wf (.canFrameReceived 0 ⟨1, false, false, false, false, false, 0, []⟩) = false := by decide
theorem test_wf_can_fd_remote : Instr.wf (.canFrameReceived 0 ⟨0, true, true, true, false, false, 0, []⟩) = false := by decide
theorem test_wf_can_classical_brs : Instr.wf (.canFrameReceived 0 ⟨0, true, false, false, true, false, 0, []⟩) = false := by decide
theorem test_wf_registerWrite : Instr.wf (.registerWrite .a 0x10004 0) = true := by decide

/-! ### Witnesses: the Bamdon window, the host ports -/

theorem wit_QueueFrontRuns : State.reset.pending = [] := rfl

/-- The Bamdon window frozen with a BCW_STAT word, armed at a tick. -/
def frozen (stat : Nat) : State := oper.putBcw { oper.bcw with image := some (List.replicate 10 1 ++ [stat]) }
def armed (k t : Nat) : State := let s := at_ k t oper; s.putBcw { s.bcw with armed := some 0 }
/-- The same with a passage of counting point 7 in the present clock of the fabric. -/
def armedNow : State := let s := armed 10 0; s.putBcw { s.bcw with clockAt := clockOf s.now, clock := [(7, 2)] }

theorem wit_BamdonFreeze :
    (LinesFollow oper ∧ oper.portsUp = true ∧ oper.bcw.image = none)
    ∧ ∀ w ∈ [0x60000, 0x40000, 0x20000, 0], LinesFollow (frozen w) ∧ (frozen w).portsUp = true ∧ (frozen w).bcw.image = some (List.replicate 10 1 ++ [w]) := by
  unfold LinesFollow; decide +kernel

theorem wit_BamdonClear :
    (LinesFollow (armed 10 0) ∧ (armed 10 0).portsUp = true ∧ (armed 10 0).bcw.armed = some 0 ∧ (armed 10 0).now ≤ 0 + 600000 ∧ bcwNow (armed 10 0) = [])
    ∧ (LinesFollow armedNow ∧ armedNow.portsUp = true ∧ armedNow.bcw.armed = some 0 ∧ armedNow.now ≤ 0 + 600000 ∧ bcwNow armedNow = [(7, 2)])
    ∧ (LinesFollow (armed 10 1) ∧ (armed 10 1).portsUp = true ∧ (armed 10 1).bcw.armed = some 0 ∧ 0 + 600000 < (armed 10 1).now)
    ∧ (LinesFollow oper ∧ oper.portsUp = true ∧ oper.bcw.armed = none) ∧ ((0 : Byte) ≠ 0x5A ∧ (0 : Byte) ≠ 0xA5)
    ∧ 0 + 600001 < (armed 10 1).nextBoundary := by
  unfold LinesFollow; decide +kernel

theorem wit_BamdonPortAReadsNothing :
    LinesFollow oper ∧ oper.portsUp = true
    ∧ (0x1E0000 ≤ (0x1E0000 : Addr).toNat ∧ (0x1E0000 : Addr).toNat < 0x1F0000 ∧ (0x1E0000 : Addr).toNat % 4 = 0)
    ∧ (0x1E0000 ≤ (0x1EFFFC : Addr).toNat ∧ (0x1EFFFC : Addr).toNat < 0x1F0000 ∧ (0x1EFFFC : Addr).toNat % 4 = 0) := by
  unfold LinesFollow; decide +kernel

/-- Semaphore 31 held by a port. -/
def held (p : HPort) : State := oper.set F.HPS_SEMk_OWNER 31 (portId p)

theorem wit_Semaphores :
    (LinesFollow oper ∧ oper.portsUp = true ∧ (1 : BitVec 2).toNat = portId .a ∧ oper.get F.HPS_SEMk_OWNER 31 = 0 ∧ oper.get F.HPS_SEMk_OWNER 31 ≠ portId .a
      ∧ (2 : BitVec 2).toNat = portId HPort.a.other)
    ∧ (LinesFollow (held .a) ∧ (held .a).portsUp = true ∧ (held .a).get F.HPS_SEMk_OWNER 31 ≠ 0 ∧ (held .a).get F.HPS_SEMk_OWNER 31 = portId .a)
    ∧ (LinesFollow (held .b) ∧ (held .b).portsUp = true ∧ (held .b).get F.HPS_SEMk_OWNER 31 = portId .b ∧ (held .b).get F.HPS_SEMk_OWNER 31 ≠ portId .a) := by
  unfold LinesFollow; decide +kernel

theorem wit_FreeOwnReleasesOwn : LinesFollow (held .b) ∧ (held .b).portsUp = true := by unfold LinesFollow; decide +kernel

theorem wit_DeviceCommands :
    (LinesFollow boot ∧ boot.portsUp = true ∧ boot.dev = .boot ∧ follows boot = false)
    ∧ (LinesFollow oper ∧ oper.portsUp = true ∧ oper.dev ≠ .boot ∧ follows oper = true) ∧ (0xA55B : BitVec 16) ≠ 0xA55A := by
  unfold LinesFollow; decide +kernel

/-- A Gust queue of five entries, the GAP open or not. -/
def gust (gap : Nat) : State := (((oper.set F.JRN_GQ_STAT_WR 0 9).set F.JRN_GQ_STAT_RD 0 4).set F.JRN_GQ_STAT_GAP_OPEN 0 gap)

theorem wit_GustQueueFree :
    (∀ g, g < 2 → LinesFollow (gust g) ∧ (gust g).portsUp = true ∧ (gust g).get F.JRN_CFG_GQ_OWNER = HPort.a.toNat ∧ (gust g).gustCount = 5)
    ∧ ((gust 0).flag F.JRN_GQ_STAT_GAP_OPEN = false ∧ (5 : BitVec 12).toNat ≠ 0 ∧ (5 : BitVec 12).toNat ≤ 5)
    ∧ ((gust 1).flag F.JRN_GQ_STAT_GAP_OPEN = true ∧ (4 : BitVec 12).toNat < 5 ∧ (5 : BitVec 12).toNat = 5)
    ∧ (gust 0).get F.JRN_CFG_GQ_OWNER ≠ HPort.b.toNat ∧ (0 : BitVec 12).toNat = 0 ∧ 5 < (6 : BitVec 12).toNat := by
  unfold LinesFollow; decide +kernel

/-! ### Witnesses: register accesses and frames -/

theorem wit_RegisterWriteByClass :
    (∀ s ∈ [oper, comm], LinesFollow s ∧ s.portsUp = true)
    ∧ (∃ d f, regAt 0xB0004 = some d ∧ d.fields = [(f, .live)] ∧ commandWrite oper .a 0xB0004 d 0x55 = none
      ∧ DriveSteady (oper.set (portFld d HPort.a.toNat f) 0 (fldOf d f 0x55)))
    ∧ (∃ d f, regAt 0xB0010 = some d ∧ d.fields = [(f, .shadow)] ∧ commandWrite oper .a 0xB0010 d 0x55 = none)
    ∧ (∃ d f, regAt 0xB000C = some d ∧ d.fields = [(f, .static)] ∧ commandWrite comm .a 0xB000C d 0x55 = none ∧ commandWrite oper .a 0xB000C d 0x55 = none
      ∧ tileHomed 0xB000C = false ∧ timingReg 0xB000C = none ∧ connReg 0xB000C = false ∧ 0xB000C ≠ 0xF0008 ∧ 0xB000C ≥ 0x902C0
      ∧ DriveSteady (staticFollow comm (forN 24 ((comm.set f 0 (fldOf d f 0x55)).set F.FAB_STATUS_DIRTY 0 1) (cpEnters comm))) ∧ oper.get f ≠ fldOf d f 0x55)
    ∧ ((∀ a ∈ [0xB0004, 0xB0010, 0xB000C], a % 4 = 0 ∧ a < 0x1E0000 ∧ pairLow a = false ∧ pairHigh a = false ∧ a ≠ 0x140010)
      ∧ commitState oper 0 ≠ cmWaiting ∧ commitState (oper.set (F.CFG_COMMIT_STAT_STATE.port 0) 0 cmWaiting) 0 = cmWaiting ∧ comm.dev = .comm ∧ oper.dev ≠ .comm
      ∧ 0xB0005 % 4 ≠ 0 ∧ regAt 0xBFFFC = none ∧ 0xBFFFC < 0x1E0000) := by
  refine ⟨by unfold LinesFollow; decide +kernel, ⟨_, _, rfl, rfl, rfl, by unfold DriveSteady; decide +kernel⟩, ⟨_, _, rfl, rfl, rfl⟩,
    ⟨_, _, rfl, rfl, rfl, rfl, by decide +kernel, by decide +kernel, rfl, by decide, by decide, by unfold DriveSteady; decide +kernel, by decide +kernel⟩, by decide +kernel⟩

/-- NAME_H of DENC_CMP0_POS staged by port A. -/
def staged : State := oper.updHost 0 (fun h => { h with staged := [(0x8040C, 0x34)] })

theorem wit_PairWrites :
    (∀ s ∈ [oper, staged], LinesFollow s ∧ s.portsUp = true ∧ commitState s 0 ≠ cmWaiting)
    ∧ (∃ d dh, regAt 0x80408 = some d ∧ regAt (0x80408 + 4) = some dh ∧ pairWritable d = true ∧ pairWritable dh = true ∧ commandWrite oper .a 0x80408 d 5 = none
      ∧ commandWrite oper .a 0x8040C dh 5 = none ∧ hasCls d .shadow = true ∧ hasCls d .static = false ∧ hasCls dh .static = false)
    ∧ (pairHigh 0x8040C = true ∧ pairLow 0x80408 = true ∧ pairHigh 0x80408 = false
      ∧ (oper.host 0).staged.find? (fun x => x.1 == 0x80408 + 4) = none ∧ (staged.host 0).staged.find? (fun x => x.1 == 0x80408 + 4) = some (0x80408 + 4, 0x34)) := by
  refine ⟨by unfold LinesFollow; decide +kernel, ⟨_, _, rfl, rfl, rfl, rfl, rfl, rfl, rfl, rfl, rfl⟩, by decide +kernel⟩

theorem wit_PairReadsCapture :
    LinesFollow oper ∧ oper.portsUp = true ∧ (regAt 0x21000).isSome = true ∧ (regAt (0x21000 + 4)).isSome = true
    ∧ pairLow 0x21000 = true ∧ encAt 0x80120 0x21000 = false ∧ encAt 0x80128 0x21000 = false := by
  unfold LinesFollow; decide +kernel

/-- A queue at its threshold, a lapse of the traction link. -/
def level (thr : Nat) : State := ((gust 0).set F.JRN_GQ_LEVEL_GQ_THRESH 0 thr).set F.JRN_STATUS_GQ_LEVEL 0 1

theorem wit_FlagsClearedByOnes :
    (∀ t ∈ [0, 5, 6], LinesFollow (level t) ∧ (level t).portsUp = true ∧ (level t).get F.JRN_STATUS_GQ_LEVEL ≤ 1) ∧ bitAt (1 : Word).toNat 0 = true
    ∧ (∀ x ∈ [F.DEV_STATUS_STATE_CHG, F.DEV_STATUS_ROLE_CHG, F.DEV_STATUS_CMD_REJ, F.DEV_STATUS_CMD_EXPIRED], (level 5).get x ≤ 1)
    ∧ (∀ f ∈ [F.TLNK_STATUS_RX_LAPSE, F.WEV_STATUS_HYST_LOW, F.MEAS_STATUS_DRIFT, F.SUP_STATUS_STALE_ANY, F.CRU_STATUS_VIN_LOW, F.EXC_MON_XBAR_ERR, F.FAB_STATUS_UE, F.CFG_STATUS_SEAL_CHG], (level 5).get f ≤ 1)
    ∧ ∀ b ∈ [0, 1, 3, 4, 5, 10, 11, 13], bitAt (BitVec.ofNat 32 (2 ^ b)).toNat b = true := by
  unfold LinesFollow; decide +kernel

theorem wit_ReadFrames :
    LinesFollow oper ∧ oper.portsUp = true
    ∧ ((0x66FF00 : Addr).toNat % 4 = 0 ∧ 0x200000 ≤ (0x66FF00 : Addr).toNat ∧ (0x66FF00 : Addr).toNat + 4 * (63 : Fin 64).val < 0x670000
      ∧ (BitVec.ofNat 16 (crc16 (reqBytes 0 63 0x66FF00))).toNat = crc16 (reqBytes 0 63 0x66FF00))
    ∧ ((0x200000 : Addr).toNat % 4 = 0 ∧ (BitVec.ofNat 16 (crc16 (reqBytes 1 0 0x200000))).toNat = crc16 (reqBytes 1 0 0x200000))
    ∧ (0 : BitVec 16).toNat ≠ crc16 (reqBytes 0 0 0x200000) ∧ (0 : BitVec 16).toNat ≠ crc16 (reqBytes 1 0 0x200000) ∧ (0x200000 : Addr) ≠ 0xFFFFFF := by
  unfold LinesFollow; decide +kernel

theorem wit_WriteFrames :
    LinesFollow oper ∧ oper.portsUp = true ∧ ([1, 2] : List Word).length = (1 : Fin 64).val + 1 ∧ ([1, 2] : List Word).length ≠ (0 : Fin 64).val + 1
    ∧ (BitVec.ofNat 16 (crc16 (reqBytes 2 1 0x30000 ++ wireWords [1, 2]))).toNat = crc16 (reqBytes 2 1 0x30000 ++ wireWords (([1, 2] : List Word).map BitVec.toNat))
    ∧ (BitVec.ofNat 16 (crc16 (reqBytes 3 1 0x30000 ++ wireWords [1, 2]))).toNat = crc16 (reqBytes 3 1 0x30000 ++ wireWords (([1, 2] : List Word).map BitVec.toNat))
    ∧ ∀ op ∈ [2, 3], (0 : BitVec 16).toNat ≠ crc16 (reqBytes op 1 0x30000 ++ wireWords (([1, 2] : List Word).map BitVec.toNat)) := by
  unfold LinesFollow; decide +kernel

/-- A last accepted read of two words. -/
def answered : State := oper.updHost 1 (fun h => { h with last := some (1, 0x30000, [7, 8]) })

theorem wit_RepeatReturnsLastResponse :
    LinesFollow answered ∧ answered.portsUp = true ∧ (answered.host HPort.b.toNat).last = some (1, 0x30000, [7, 8])
    ∧ (BitVec.ofNat 16 (crc16 (reqBytes 0 1 0xFFFFFF))).toNat = crc16 (reqBytes 0 1 0xFFFFFF) ∧ [7, 8].length = (1 : Fin 64).val + 1
    ∧ (BitVec.ofNat 16 (crc16 (reqBytes 0 63 0xFFFFFF))).toNat = crc16 (reqBytes 0 63 0xFFFFFF) ∧ [7, 8].length ≠ (63 : Fin 64).val + 1 := by
  unfold LinesFollow; decide +kernel

/-! ### Witnesses: excitation and measurement -/

/-- Point 3 ALTERNATING, every point BLIND since an earlier tick. -/
def blindAll (s : State) : State := { s with points := s.points.map (fun q => { q with blind := true, altSince := 1 }) }
def inverting : State := blindAll (at_ 500 0 (oper.set F.EXC_CARRIER_SPn_MODE 3 mAlternating))

theorem wit_PhaseInversionBlindsPoint :
    LinesFollow inverting ∧ inverting.counting = true ∧ atBoundary inverting = true ∧ inverting.cycle % 500 = 0
    ∧ inverting.cycle / 500 % 2 = 1 ∧ inverting.points.length = 24 ∧ excMode inverting 3 = mAlternating
    ∧ ∀ p, p < 24 → excMode inverting p = mAlternating → (inverting.point p).blind = true ∧ (inverting.point p).altSince ≠ inverting.now := by
  unfold LinesFollow; decide +kernel

/-- Point 23 at a boundary with pending values: another curve, or another amplitude on a BLIND point. -/
def pendCurve (force : Bool) : State :=
  let s := (at_ 7 0 oper).updChan 46 (fun x => { x with met := true, on := true })
  s.updPoint 23 (fun x => { x with pend := some { pointVals s 23 with curve := [3, 0] }, force := force })
def pendNew : State := (pendCurve true).updPoint 23 (fun x => { x with pendAt := 420000 })
def pendAmp : State :=
  let s := at_ 7 0 oper
  s.updPoint 23 (fun x => { x with blind := true, pend := some { pointVals s 23 with amp := 9 }, force := true })

theorem wit_PendingValuesApply :
    (∀ s ∈ [at_ 7 0 oper, pendCurve true, pendCurve false, pendNew, pendAmp], LinesFollow s ∧ s.counting = true ∧ atBoundary s = true)
    ∧ ((at_ 7 0 oper).point 23).pend = none
    ∧ (((pendCurve false).point 23).pend.isSome = true ∧ ((pendCurve false).point 23).force = false ∧ pendReady (pendCurve false) 23 = false)
    ∧ ((pendNew.point 23).pend.isSome = true ∧ pendNew.now ≤ (pendNew.point 23).pendAt)
    ∧ (∀ s ∈ [pendCurve true, pendAmp], (s.point 23).pendAt < s.now)
    ∧ (((pendCurve true).point 23).force = true ∧ ∃ v, ((pendCurve true).point 23).pend = some v ∧ excDiffers (pointVals (pendCurve true) 23) v = false)
    ∧ ((pendAmp.point 23).blind = true ∧ ∃ v, (pendAmp.point 23).pend = some v ∧ excDiffers (pointVals pendAmp 23) v = true
      ∧ pendAmp.get F.EXC_CARRIER_SPn_MODE 23 = v.mode) := by
  refine ⟨by unfold LinesFollow; decide +kernel, by decide +kernel, by decide +kernel, by decide +kernel, by decide +kernel, ⟨by decide +kernel, ⟨_, rfl, by decide +kernel⟩⟩,
    by decide +kernel, ⟨_, rfl, by decide +kernel, by decide +kernel⟩⟩

/-- Point 2 BLIND with samples past its settling, one of them waiting, one tagged; the same within a settling window. -/
def settledPoint : State :=
  (((blindAll oper).updChan 4 (fun c => { c with kNext := 5, queue := [⟨4, 0, 7, 0, 0, 0⟩] })).updChan 5 (fun c => { c with kNext := 1, lastTag := 4 }))
def unsettled : State := settledPoint.updPoint 2 (fun x => { x with settle := [(0, 4)] })

theorem wit_SettlingEnds :
    (∀ s ∈ [oper, settledPoint, unsettled], LinesFollow s ∧ s.counting = true ∧ s.points.length = 24 ∧ s.chans.length = 48)
    ∧ (oper.point 2).blind = false ∧ ((unsettled.point 2).blind = true ∧ ∀ c ∈ [4, 5], pastSettling (unsettled.point 2) (nextSample (unsettled.chan c)).k = false)
    ∧ ((settledPoint.point 2).blind = true ∧ (settledPoint.point 2).blindExc = false)
    ∧ ∀ c ∈ [4, 5], 0 < (settledPoint.chan c).kNext ∧ pastSettling (settledPoint.point 2) (nextSample (settledPoint.chan c)).k = true
      ∧ (settledPoint.chan c).queue.length ≤ 1 ∧ (settledPoint.chan c).faulty = false := by
  unfold LinesFollow; decide +kernel

theorem wit_ForceAndCancel : LinesFollow (pendCurve false) ∧ (pendCurve false).portsUp = true := by unfold LinesFollow; decide +kernel

/-- Source 55 ASSIGNED at pin 95 on a driving unit. -/
def sourced : State := at_ 7 0 ((oper.set F.EXC_SRCn_STATUS 55 1).set F.EXC_SRCn_PIN 55 95)

theorem wit_SourceFailureWithoutSpare :
    (LinesFollow sourced ∧ sourced.get F.EXC_SRCn_STATUS 55 = 1 ∧ sourced.lines.src = true ∧ sourced.get F.EXC_SRCn_PIN 55 < 96
      ∧ sourced.flag F.EXC_MODE_AUTO_SPARE = false ∧ sourced.get F.EXC_SRCn_STATUS 54 ≠ 1)
    ∧ LinesFollow safe ∧ safe.lines.src = false := by
  unfold LinesFollow; decide +kernel

/-- Pin 33 conducting since tick 100, last at a tick whose episode ends in the running cycle. -/
def clamped : State := (at_ 7 0 oper).updPin 33 (fun x => { x with from_ := some 100, last := 7 * 60000 + 58749 })

theorem wit_ClampEpisodes :
    (LinesFollow oper ∧ (oper.pin 33).from_ = none)
    ∧ (LinesFollow clamped ∧ (clamped.pin 33).from_ = some 100 ∧ (clamped.pin 33).last + 1250 < clamped.nextBoundary) := by
  unfold LinesFollow; decide +kernel

/-- A listening unit with point 3 MATCHED and BLIND, with a carrier and without. -/
def listening (x : Option Nat) : State := (blindAll (at_ 7 0 stby)).updPoint 3 (fun q => { q with noCarrier := x })

theorem wit_CarrierLossAndReturn :
    ∀ s ∈ [listening none, listening (some 5)], LinesFollow s ∧ s.counting = true ∧ (s.point 3).blind = true ∧ excMode s 3 ≠ mOff ∧ s.lines.src = false
      ∧ (s = listening (some 5) → (s.point 3).noCarrier.isSome = true) := by
  unfold LinesFollow; decide +kernel

/-- Point 2 in its settling window at sample 340, and not. -/
def sampled (bl : Bool) : State := (at_ 7 5000 oper).updPoint 2 (fun x => { x with blind := bl, settle := [(300, 400)] })

/-- Point 2 not BLIND and past its window; the same with channel 4 flagged for one earlier sample. -/
def sampled2 : State := (sampled false).updPoint 2 (fun x => { x with settle := [] })
def flagged : State := sampled2.updChan 4 (fun c => { c with inval := [(1250 * 338, 1250 * 338 + 9, 5)] })

/-- The state in which sample 340 of channel 4, with its overranges told ahead, is taken. -/
def taken (s : State) (ovr : BitVec 5) : State := tellOver (turnsDue ((tagsPass s 429850).advanceTo 429850)) 4 340 ovr

theorem wit_DampingSampleTaken :
    (∀ s ∈ [sampled true, sampled false, sampled2, flagged, boot, unlocked], LinesFollow s)
    ∧ 1250 * (340 + 1) + 3600 = 429850
    ∧ (∀ s ∈ [sampled true, sampled2], s.counting = true ∧ calm s = true ∧ 4 < s.chans.length)
    ∧ (calm flagged = false ∧ flagged.counting = true ∧ (taken flagged 3).snap = none)
    ∧ (let v := taken (sampled true) 0
      v.snap = none ∧ DriveSteady v ∧ (v.point 2).blind = true ∧ settling (v.point 2) 340 = true ∧ v.chans.length = 48)
    ∧ (∀ x ∈ [(sampled2, 0#5), (flagged, 0#5), (sampled2, 4#5)], let v := taken x.1 x.2
      x.1.counting = true ∧ v.snap = none ∧ DriveSteady v ∧ (v.point 2).blind = false ∧ tagOf v 4 340 = (0, 0) ∧ (v.chan 5).queue = [])
    ∧ (boot.counting = false ∧ boot.portsUp = true ∧ boot.snap = none ∧ DriveSteady ((tellOver boot 4 340 0).advanceTo 429850)
      ∧ unlocked.counting = false ∧ unlocked.portsUp = false) := by
  unfold LinesFollow DriveSteady; decide +kernel

/-- A calibration pair of channel 3, its state READY throughout or mixed. -/
def pairDone (mixed : Bool) : State :=
  (at_ 1000 0 oper).updChan 3 (fun x =>
    { x with calP := some ⟨10, 100, 200, 1000, 4000⟩, calN := some ⟨10, 300, 200, 9000, 4000⟩, calState := some 0, calMixed := mixed })

theorem wit_CalibrationPairs :
    ∀ m ∈ [true, false], LinesFollow (pairDone m) ∧ (pairDone m).counting = true ∧ atBoundary (pairDone m) = true ∧ (pairDone m).cycle % 1000 = 0
      ∧ ((pairDone m).chan 3).calP = some ⟨10, 100, 200, 1000, 4000⟩ ∧ ((pairDone m).chan 3).calN = some ⟨10, 300, 200, 9000, 4000⟩
      ∧ ((pairDone m).chan 3).calState.getD 7 = 0 ∧ ((pairDone m).chan 3).calMixed = m ∧ (⟨10, 100, 200, 1000, 4000⟩ : CalFrame).noisy = false
      ∧ (⟨10, 300, 200, 9000, 4000⟩ : CalFrame).noisy = false := by
  unfold LinesFollow; decide +kernel

/-- A reference capture of channel 47 after `n` samples, `k` samples after its command. -/
def capturing (n k : Nat) : State := comm.updChan 47 (fun x => { x with refCap := some (3, n, 1, 1), kNext := 3 + k })

theorem wit_ReferenceCapture :
    (∀ s ∈ [oper, comm, capturing 4800 4800, capturing 4799 48000], LinesFollow s ∧ s.portsUp = true) ∧ oper.dev ≠ .comm ∧ comm.dev = .comm
    ∧ ((capturing 4800 4800).chan 47).refCap = some (3, 4800, 1, 1)
    ∧ (((capturing 4799 48000).chan 47).refCap = some (3, 4799, 1, 1) ∧ 3 + 48000 ≤ ((capturing 4799 48000).chan 47).kNext) := by
  unfold LinesFollow; decide +kernel

/-- A snapshot that lacks a channel, and one with every selected channel latched. -/
def latching : State := oper.putSnap (some ⟨7, 0, 2 ^ 5 + 2 ^ 47, [(5, -3, 2)]⟩)
def latched : State := oper.putSnap (some ⟨7, 0, 2 ^ 5 + 2 ^ 47, [(5, -3, 2), (47, 9, 0)]⟩)

theorem wit_Snapshots :
    (∀ s ∈ [oper, latched, latching], LinesFollow s ∧ s.portsUp = true) ∧ oper.snap = none ∧ (2 : BitVec 2).toNat ≠ 3 ∧ latched.snap.isSome = true ∧ (3 : BitVec 2).toNat = 3
    ∧ (latching.snap = some ⟨7, 0, 2 ^ 5 + 2 ^ 47, [(5, -3, 2)]⟩ ∧ bitAt (2 ^ 5 + 2 ^ 47) 47 = true ∧ ∀ v ∈ ([(5, -3, 2)] : List (Nat × Int × Nat)), v.1 ≠ 47)
    ∧ ∀ c, c < 48 → bitAt (2 ^ 5 + 2 ^ 47) c = true → ∃ v ∈ ([(5, -3, 2), (47, 9, 0)] : List (Nat × Int × Nat)), v.1 = c := by
  unfold LinesFollow; decide +kernel

/-! ### Witnesses: sensor supervision, wheel events -/

/-- Point 2 OFF; channel 5 in an episode since tick 9, faulted or not. -/
def pointOff : State := oper.set F.EXC_CARRIER_SPn_MODE 2 mOff
def episode (f : Bool) : State := oper.updChan 5 (fun x => { x with mon := some (9, 5), monFaulted := f })

theorem wit_MonitorEpisodes :
    (∀ s ∈ [oper, episode true, episode false, pointOff], LinesFollow s ∧ s.counting = true)
    ∧ ((oper.chan 5).mon = none ∧ excMode oper 2 ≠ mOff) ∧ ((episode true).chan 5).mon.isSome = true ∧ excMode pointOff 2 = mOff
    ∧ (∀ f ∈ [true, false], ((episode f).chan 5).mon = some (9, 5) ∧ DriveSteady (tagsTo (episode f) 5 (88 / 1250 + 1) (episode f).now)
      ∧ ((tagsTo (episode f) 5 (88 / 1250 + 1) (episode f).now).chan 5).monFaulted = f) := by
  unfold LinesFollow DriveSteady; decide +kernel

/-- The slot of channel 5 with a reference, point 2 in a mode. -/
def visit (mode : Nat) : State :=
  at_ 5 0 ((((((oper.set F.SUP_CHn_ZREF_MAG 5 1000).set F.SUP_CHn_VISIT_STALE 5 1).set F.SUP_TONE_CFG_DEV_LIM 0 10).set F.SUP_TONE_CFG_PH_LIM 0 10).set
    F.SUP_TONE_CFG_XT_LIM 0 10).set F.EXC_CARRIER_SPn_MODE 2 mode)

/-- Point 2 BLIND since the window; a sample of channel 5 flagged in the window. -/
def visitBlind : State := (visit mMatched).updPoint 2 (fun q => { q with blind := true, blindSince := 353999 })
def visitBad : State := (visit mMatched).updChan 5 (fun c => { c with winBad := true })

/-- The state in which the visit of cycle 5 is judged. -/
def visited (s : State) : State := (tagsPass s 354600).advanceTo 354600

theorem wit_ToneVisits :
    (∀ s ∈ [visit mDc, visit mOff, visit mMatched, visit mAlternating, visitBlind, visitBad], LinesFollow s ∧ s.counting = true ∧ s.cycle % 50 = (5 : Fin 48).val ∧ s.tone.visited ≠ s.cycle + 1
      ∧ s.cycleStart + 54600 = 354600
      ∧ let v := visited s
        DriveSteady v ∧ v.flag F.SUP_CHn_FAULT_CLR_ARMED 5 = false ∧ v.flag F.SUP_CHn_VISIT_STALE 5 = true ∧ excMode v 2 = excMode s 2)
    ∧ (∀ m ∈ [mDc, mOff, mMatched, mAlternating], excMode (visit m) 2 = m ∧ calm (visit m) = true)
    ∧ (excMode visitBlind 2 = mMatched ∧ windowBlind (visited visitBlind) 5 = true)
    ∧ (excMode visitBad 2 = mMatched ∧ windowBlind (visited visitBad) 5 = false ∧ windowBad (visited visitBad) 5 = true)
    ∧ (∀ m ∈ [mMatched, mAlternating], ((visit m).point 2).blind = false ∧ ((visit m).point 2).blindEnd ≤ (visit m).cycleStart + 6000
      ∧ ((visit m).chan 5).winBad = false ∧ ((visit m).chan 5).winOn = false ∧ ((visit m).chan 5).on = false
      ∧ ((visit m).chan 5).faulty = false ∧ ((visit m).chan 5).zCap = none ∧ (visit m).flag F.SUP_CHn_FAULT_CLR_ARMED 5 = false
      ∧ toneVerdict (visit m) 5 1010 0 false none true = none) := by
  unfold LinesFollow DriveSteady; decide +kernel

theorem wit_ToneSelfCheckVerdict :
    (∀ k ∈ [48, 49], LinesFollow (at_ k 0 oper) ∧ (at_ k 0 oper).counting = true ∧ (at_ k 0 oper).tone.visited ≠ (at_ k 0 oper).cycle + 1 ∧ (at_ k 0 oper).cycle % 50 = k
      ∧ calm (at_ k 0 oper) = true)
    ∧ (∀ g ∈ [1960, 2040], 1960 ≤ (BitVec.ofNat 16 g).toNat ∧ (BitVec.ofNat 16 g).toNat ≤ 2040) ∧ 360 * (toSigned 16 (182 : BitVec 16).toNat).natAbs ≤ 65536
    ∧ (9 : BitVec 16).toNat < 10 ∧ 10 ≤ (10 : BitVec 16).toNat := by
  unfold LinesFollow; decide +kernel

/-- Channel 5 with an AGE, and FAULTY with four passes at a boundary. -/
def aged (n : Nat) : State := (oper.set F.SUP_TONE_CFG_AGE_LIM 0 1).set F.SUP_CHn_VISIT_AGE 5 n
def passed : State :=
  ((((at_ 9 0 oper).updChan 5 (fun x => { x with faulty := true, lastL := -1 })).set F.SUP_CHn_FAULT_CLR_ARMED 5 1).set F.SUP_CHn_FAULT_PASS_CNT 5 4)

theorem wit_SupervisionAgeAndClear :
    (∀ n ∈ [1200, 1201], LinesFollow (aged n) ∧ (aged n).counting = true ∧ (aged n).portsUp = true ∧ (aged n).get F.SUP_TONE_CFG_AGE_LIM ≠ 0
      ∧ (aged n).flag F.SUP_CHn_VISIT_STALE 5 = false ∧ (aged n).get F.SUP_CHn_VISIT_AGE 5 = n ∧ (aged n).get F.SUP_TONE_CFG_AGE_LIM * 1200 = 1200)
    ∧ (LinesFollow passed ∧ passed.counting = true ∧ atBoundary passed = true ∧ passed.chans.length = 48 ∧ (passed.chan 5).faulty = true
      ∧ passed.flag F.SUP_CHn_FAULT_CLR_ARMED 5 = true ∧ passed.get F.SUP_CHn_FAULT_PASS_CNT 5 = 4 ∧ (passed.chan 5).lastTag = 0
      ∧ (passed.chan 5).lastL < offThr passed 5) := by
  unfold LinesFollow; decide +kernel

/-- A capture of channel 5 since cycle 100 with `n` visits, in cycle `k`. -/
def zcap (n k : Nat) : State := (at_ k 0 comm).updChan 5 (fun x => { x with zCap := some (100, n, 8000, 800) })

theorem wit_ImpedanceReferences :
    (∀ s ∈ [oper, comm, zcap 8 200, zcap 7 900], LinesFollow s ∧ s.portsUp = true) ∧ oper.dev ≠ .comm ∧ comm.dev = .comm
    ∧ ((zcap 8 200).chan 5).zCap = some (100, 8, 8000, 800) ∧ ((zcap 7 900).chan 5).zCap = some (100, 7, 8000, 800) ∧ 100 + 800 ≤ (zcap 7 900).cycle := by
  unfold LinesFollow; decide +kernel

/-- Point 2 in a sequencer state whose hold or window ends in the last tick of the cycle; channel 5 newly parked. -/
def sequenced (q : Seq) : State := (at_ 7 0 oper).updPoint 2 (fun x => { x with seq := q, holdEnd := 8 * 60000 - 1, linkEnd := 8 * 60000 - 1 })
def evaluated (q : Seq) : State := ((sequenced q).updChan 4 (fun c => { c with kNext := 384 })).updChan 5 (fun c => { c with kNext := 384 })
def parkedNow : State := (at_ 7 0 oper).updChan 5 (fun x => { x with met := true, metAt := 8, on := true })

theorem wit_HoldsAndLinkWindows :
    (∀ q ∈ [Seq.holdN, .holdP, .aLeft, .bLeft], LinesFollow (sequenced q) ∧ (sequenced q).counting = true ∧ ((sequenced q).point 2).seq = q
      ∧ ((sequenced q).point 2).holdEnd < (sequenced q).nextBoundary ∧ ((sequenced q).point 2).linkEnd < (sequenced q).nextBoundary)
    ∧ (∀ q ∈ [Seq.holdN, .holdP, .aLeft, .bLeft], evaluatedTo (sequenced q) 2 479999 = false ∧ LinesFollow (evaluated q) ∧ (evaluated q).counting = true ∧ ((evaluated q).point 2).seq = q
      ∧ ((evaluated q).point 2).holdEnd = 479999 ∧ ((evaluated q).point 2).linkEnd = 479999 ∧ 479999 < (evaluated q).nextBoundary ∧ evaluatedTo (evaluated q) 2 479999 = true)
    ∧ (LinesFollow parkedNow ∧ parkedNow.counting = true ∧ (parkedNow.chan 5).met = true ∧ (parkedNow.chan 5).parkRec = false ∧ 2 ≤ chState parkedNow 5
      ∧ chState parkedNow 5 ≤ 4 ∧ (parkedNow.chan 6).met = false) := by
  unfold LinesFollow; decide +kernel

/-! ### Witnesses: sections and restores, speed and position, the axle ledger -/

/-- Section 47 used, with a count, in a section state. -/
def counted (c st : Nat) : State :=
  ((((oper.set F.SECT_n_CFG_NBND 47 1).set F.SECT_n_CNT_COUNT 47 c).set F.SECT_n_STATE_STATE 47 st).set F.SECT_n_STATE_CAUSE 47 1)
def movesOf (ins outs : Nat) : List (Nat × Bool) := List.replicate ins (0, true) ++ List.replicate outs (1, false)

theorem wit_SectionCountLimits :
    (∀ st, st < 4 → ∀ c ∈ [0, 4095], secUsed (counted c st) 47 = true ∧ (counted c st).get F.SECT_n_CNT_COUNT 47 = c ∧ c ≤ 4095
      ∧ (counted c st).get F.SECT_n_STATE_STATE 47 = st)
    ∧ (∀ m ∈ [(0, 1, 0), (4095, 0, 1)], m.2.1 + m.2.2 = ((movesOf m.2.1 m.2.2).length)
      ∧ (((movesOf m.2.1 m.2.2).filter (fun x => !x.2)).length ≤ m.1 + ((movesOf m.2.1 m.2.2).filter (fun x => x.2)).length)
      ∧ m.1 + ((movesOf m.2.1 m.2.2).filter (fun x => x.2)).length - ((movesOf m.2.1 m.2.2).filter (fun x => !x.2)).length ≤ 4095)
    ∧ 0 + ((movesOf 0 1).filter (fun x => x.2)).length < ((movesOf 0 1).filter (fun x => !x.2)).length
    ∧ ((movesOf 1 0).filter (fun x => !x.2)).length + 4095 < 4095 + ((movesOf 1 0).filter (fun x => x.2)).length := by
  decide +kernel

/-- A DIRECT entry of port B for section 47, made at a tick; a carried DISTURB. -/
def direct (k t m : Nat) : State := let s := at_ k t oper; putDirect s 1 (some ⟨47, 9, m⟩)
def carriedDist (k t m : Nat) : State := let s := at_ k t oper; putCarried s 1 (some ⟨3, 47, m⟩)

theorem wit_RestoreCommandsHeld :
    (LinesFollow oper ∧ oper.portsUp = true ∧ oper.restDirect HPort.b.other.toNat = none ∧ oper.restDirect HPort.b.toNat = none)
    ∧ (LinesFollow (direct 7 0 1) ∧ (direct 7 0 1).portsUp = true ∧ (direct 7 0 1).restDirect HPort.b.toNat = some ⟨47, 9, 1⟩)
    ∧ (47 : BitVec 6).toNat < 48 ∧ (1 : BitVec 16) ≠ 0 ∧ 48 ≤ (48 : BitVec 6).toNat := by
  unfold LinesFollow; decide +kernel

/-- The other port's entry of the same section with another token; an image that names the carried command. -/
def paired2 : State := putDirect (direct 5001 0 60000) 0 (some ⟨47, 8, 60000⟩)
/-- Two entries of which one came at the boundary itself. -/
def pairedLate : State := putDirect (direct 5001 0 300060000) 0 (some ⟨47, 9, 60000⟩)
def carriedHere : State :=
  let s := carriedDist 8 0 240000; s.putLink { s.link with image := some { (default : CycleImage) with restores := [{ (default : RestoreImage) with op := 3, sec := 47 }] } }

/-- Section 47 with the evidence of an identity-proven restore at this boundary and the one before. -/
def proven : State :=
  (((((((((((at_ 9 0 oper).set F.SECT_n_CFG_NBND 47 1).set F.SECT_n_BND_VALID 47 1).set F.WEV_CPc_MAP_VALID 0 1).set F.SECT_n_CFG_ID_EN 47 1).set
    F.SECT_n_STATE_STATE 47 2).set F.SECT_n_STATE_CAUSE 47 1).set F.SECT_n_STATE_SINGLE 47 1).set F.LEDG_SECn_EVID 47 1).set F.LEDG_SECn_COVER_LOST 47 0).updSec 47
      (fun x => { x with idPrev := true, idAt := 9, touched := false }))

theorem wit_RestoreDeadlinesAndIdentity :
    (∀ s ∈ [direct 5001 1 60000, direct 5002 0 60000, direct 5001 0 60000, paired2, carriedDist 8 0 240000, carriedDist 8 0 240001, carriedHere, pairedLate, proven], LinesFollow s ∧ coresRun s = true)
    ∧ atBoundary (direct 5001 1 60000) = false
    ∧ (atBoundary paired2 = true ∧ (directPair paired2).restDirect HPort.b.toNat = none)
    ∧ (atBoundary pairedLate = true ∧ pairedLate.restDirect HPort.b.toNat = some ⟨47, 9, 300060000⟩ ∧ (pairedLate.restDirect HPort.b.other.toNat).isSome = true ∧ pairedLate.cycleStart ≤ 300060000)
    ∧ (∀ k ∈ [5001, 5002], let s := direct k 0 60000
      atBoundary s = true ∧ s.restDirect HPort.b.other.toNat = none ∧ (directPair s).restDirect HPort.b.toNat = some ⟨47, 9, 60000⟩)
    ∧ 60000 + 300000000 < (direct 5002 0 60000).now ∧ (direct 5001 0 60000).now ≤ 60000 + 300000000
    ∧ (direct 5001 0 60000).restCarried HPort.b.toNat = none
    ∧ ((carriedDist 8 0 240000).restCarried HPort.b.toNat = some ⟨3, 47, 240000⟩ ∧ 240000 + 240000 ≤ (carriedDist 8 0 240000).now ∧ (carriedDist 8 0 240000).link.image = none)
    ∧ ((carriedDist 8 0 240001).restCarried HPort.b.toNat = some ⟨3, 47, 240001⟩ ∧ (carriedDist 8 0 240001).now < 240001 + 240000)
    ∧ (carriedHere.restCarried HPort.b.toNat = some ⟨3, 47, 240000⟩ ∧ ∃ i, carriedHere.link.image = some i ∧ ∃ r, r ∈ i.restores ∧ r.op = 3 ∧ r.sec = 47)
    ∧ (proven.counting = true ∧ atBoundary proven = true ∧ (proven.sec 47).idAt = proven.cycle ∧ proven.cycle ≠ 0 ∧ (proven.sec 47).idPrev = true ∧ idLocal proven 47 = true
      ∧ partnerAgrees proven 47 = true ∧ restoreDevice proven = true ∧ (proven.sec 47).touched = false) := by
  refine ⟨by unfold LinesFollow; decide +kernel, ?_, ?_, ?_, ?_, ?_, ?_, ?_, ?_, ?_, ⟨by decide +kernel, _, rfl, _, List.mem_singleton.mpr rfl, rfl, rfl⟩, ?_⟩ <;> decide +kernel

/-- Point 23 with a speed of 1,000 set at a tick; quiet since the reset for LULL_TIME. -/
def speedy (st t : Nat) : State :=
  ((((at_ 9 0 oper).set F.SPOS_SPn_SST_SPD_ST 23 st).set40 F.SPOS_SPn_SPEED_L_SPEED 23 60000000).set F.SPOS_SPn_CFG_GAP_NOM 23 1).updPoint 23
    (fun x => { x with spdTick := t })
def quiet : State :=
  ((((at_ 9 0 oper).set F.SPOS_CFG_LULL_TIME 0 9).set F.WEV_CPc_MAP_VALID 0 1).set F.WEV_CPc_MAP_SP 0 23).updPoint 23
    (fun x => { x with lull := false, blind := false, quietSince := 0 })

theorem wit_SpeedStaleAndPointLull :
    (∀ s ∈ [speedy sstOnset 340000, speedy sstFull 340000, speedy sstFull 340001, quiet], LinesFollow s ∧ s.counting = true ∧ atBoundary s = true)
    ∧ (∀ t ∈ [340000, 340001], (speedy sstFull t).getS40 F.SPOS_SPn_SPEED_L_SPEED 23 = 60000000 ∧ (speedy sstFull t).get F.SPOS_SPn_CFG_GAP_NOM 23 = 1
      ∧ spdSt (speedy sstFull t) 23 = sstFull ∧ ((speedy sstFull t).point 23).spdTick = t)
    ∧ spdSt (speedy sstOnset 340000) 23 = sstOnset ∧ 2 * (1 * 100000) * 60000000 ≤ ((speedy sstFull 340000).now - 340000) * 60000000
    ∧ ((speedy sstFull 340001).now - 340001) * 60000000 < 2 * (1 * 100000) * 60000000
    ∧ (coresRun quiet = true ∧ quiet.points.length = 24 ∧ pointUnquiet quiet 23 = false ∧ (quiet.point 23).lull = false ∧ (quiet.point 23).quietSince + quiet.get F.SPOS_CFG_LULL_TIME * cycleTicks ≤ quiet.now
      ∧ pointUsed quiet 23 = true ∧ encRow quiet 23 = false) := by
  unfold LinesFollow; decide +kernel

/-- Port 2 attached with 12 position bits, in a state, its first frame to come; its frame. -/
def encPort2 (st : Nat) : State :=
  ((((at_ 9 500 oper).set F.DENC_PORTn_CFG_ATTACH 2 1).set F.DENC_PORTn_FRAME_POS_WIDTH 2 12).set F.DENC_PORTn_LIM_LATE_LIM 2 2).set F.DENC_PORTn_STAT_STATE 2 st
def encBits : List Bool := [true, false, true, true, false, false, true, true, true, false, false, true]

/-- The same port with a frame behind it, within or beyond MAX_STEP of the next. -/
def jumping (far lim : Nat) : State :=
  (((encPort2 1).set F.DENC_PORTn_CFG_POLL 2 500).set F.DENC_PORTn_LIM_MAX_STEP 2 lim |>.set F.DENC_PORTn_SCALE_SCALE 2 65536).updEnc 2
    (fun e => { e with loaded := true, raw := 2868 - 1000 * far, count := 7, lastPoll := some 100000 })

theorem wit_EncoderFrames :
    (∀ s ∈ [oper, encPort2 0, encPort2 1, encPort2 3, jumping 0 65535, jumping 1 1], LinesFollow s ∧ s.counting = true) ∧ oper.flag F.DENC_PORTn_CFG_ATTACH 2 = false
    ∧ (∀ s ∈ [encPort2 0, encPort2 1, encPort2 3], silentPolls s 2 400000 = 0) ∧ (silentPolls (jumping 1 1) 2 400000 = 9 ∧ silentPolls (jumping 1 1) 2 60001 = 0)
    ∧ (∀ s ∈ [encPort2 0, encPort2 1, encPort2 3], let v := pollsRecord s 2 400000
      s.flag F.DENC_PORTn_CFG_ATTACH 2 = true ∧ ((true :: (v.encPort 2).polls).take 256 |>.filter id).length < 16
        ∧ (v.encPort 2).missed + 1 < lateLimAt v 2 400000 ∧ v.encs.length = 4 ∧ DriveSteady v
        ∧ (v.encPort 2).loaded = false ∧ errBit v 2 encBits = false ∧ parityBad v 2 encBits = false)
    ∧ encState (pollsRecord (encPort2 3) 2 400000) 2 = encFault
    ∧ (let v := pollsRecord (encPort2 0) 2 400000
      encState (frameValid v 2 400000 (rawOf v 2 encBits) (count40 (rawOf v 2 encBits))) 2 ≠ encFault)
    ∧ (∀ j ∈ [(0, 65535), (1, 1)], let v := pollsRecord (jumping j.1 j.2) 2 60001
      let c := extend 12 (v.encPort 2).count (v.encPort 2).raw (rawOf v 2 encBits)
      let step := posUnder (scaleAtTick v 2 60001) c - posUnder (scaleAtTick v 2 60001) (v.encPort 2).count
      (jumping j.1 j.2).flag F.DENC_PORTn_CFG_ATTACH 2 = true ∧ (v.encPort 2).loaded = true ∧ errBit v 2 encBits = false ∧ parityBad v 2 encBits = false ∧ v.encs.length = 4
        ∧ (if j.1 = 0 then step ≤ (maxStepAt v 2 60001 : Int) * 4 ∧ -((maxStepAt v 2 60001 : Int) * 4) ≤ step
            ∧ encState (frameValid v 2 60001 (rawOf v 2 encBits) c) 2 ≠ encFault
          else (maxStepAt v 2 60001 : Int) * 4 < step)) := by
  unfold LinesFollow DriveSteady; decide +kernel

/-- A VALID port whose newest cycle reached a position; a port in FAULT, armed, with 256 faultless polls. -/
def quietPort (hi : Int) : State :=
  ((((at_ 50 0 oper).set F.DENC_PORTn_STAT_STATE 2 1).set F.DENC_PORTn_LULL_LULL_TIME 2 5).set F.DENC_PORTn_LULL_LULL_BAND 2 100).updEnc 2
    (fun e => { e with hist := [⟨49, 1050, 950, hi⟩, ⟨45, 1000, 900, 1000⟩, ⟨44, 0, 0, 0⟩], validSince := 2700000, winFrom := 2700000 })
def healed : State :=
  ((((at_ 50 0 oper).set F.DENC_PORTn_STAT_STATE 2 3).set F.DENC_PORTn_LIM_LATE_LIM 2 2).set F.DENC_PORTn_STAT_CLR_ARMED 2 1).updEnc 2 (fun e => { e with polls := List.replicate 256 false })

theorem wit_EncoderPortStates :
    (LinesFollow (encPort2 1) ∧ (encPort2 1).counting = true ∧ (encPort2 1).flag F.DENC_PORTn_CFG_ATTACH 2 = true ∧ encState (encPort2 1) 2 = encValid ∧ (encPort2 1).portsUp = true)
    ∧ (∀ s ∈ [boot, oper, encPort2 0, encPort2 2, encPort2 3], LinesFollow s) ∧ boot.counting = false ∧ oper.flag F.DENC_PORTn_CFG_ATTACH 2 = false
    ∧ (encState (encPort2 0) 2 = encDetached ∧ encState (encPort2 2) 2 = encLate ∧ encState (encPort2 3) 2 = encFault ∧ (encPort2 3).flag F.DENC_PORTn_STAT_CLR_ARMED 2 = false)
    ∧ (∀ hi ∈ [(1100 : Int), 1101], let s := quietPort hi
      LinesFollow s ∧ s.counting = true ∧ coresRun s = true ∧ atBoundary s = true ∧ s.get F.DENC_PORTn_LULL_LULL_TIME 2 = 5 ∧ s.get F.DENC_PORTn_LULL_LULL_BAND 2 = 100
      ∧ (s.encPort 2).hist.takeWhile (fun c => decide (s.cycle ≤ c.cycle + 5)) = [⟨49, 1050, 950, hi⟩] ++ [⟨45, 1000, 900, 1000⟩]
      ∧ encState s 2 = encValid ∧ s.flag F.DENC_PORTn_STAT_LULL 2 = false ∧ (s.encPort 2).validSince + 5 * cycleTicks ≤ s.now ∧ (s.encPort 2).winFrom + 5 * cycleTicks ≤ s.now)
    ∧ ((∀ f ∈ [(⟨49, 1050, 950, 1100⟩ : LullCell), ⟨45, 1000, 900, 1000⟩], (1000 : Int) - 100 ≤ f.lo ∧ f.hi ≤ (1000 : Int) + 100) ∧ (1000 : Int) + 100 < (⟨49, 1050, 950, 1101⟩ : LullCell).hi)
    ∧ (LinesFollow healed ∧ healed.counting = true ∧ atBoundary healed = true ∧ encState healed 2 = encFault ∧ healed.flag F.DENC_PORTn_STAT_CLR_ARMED 2 = true
      ∧ portMarked healed 2 = false ∧ (∀ x ∈ pollsBy healed 2 healed.now, x = false) ∧ (healed.encPort 2).missed < healed.get F.DENC_PORTn_LIM_LATE_LIM 2) := by
  unfold LinesFollow; decide +kernel

theorem wit_CompareAndQueryCommands : LinesFollow oper ∧ oper.portsUp = true := by unfold LinesFollow; decide +kernel

/-- A job of two sections in a stage, and the ledger with jobs; an observation of station 23. -/
def job (st : Stage) (t : Nat) : Job := ⟨1, 2, false, [1, 47], [1], t, [], false, st, default⟩
def working (jobs : List Job) (k : Nat) : State := let s := at_ k 0 oper; s.putLedger { s.ledger with jobs := jobs }
def sighting (t : Nat) : Obs := { (default : Obs) with sp := 23, neg := true, ts := t, slot := some 5 }
def sighted (t : Nat) : State :=
  let s := (at_ 9 0 oper).set F.LEDG_COST_QUIET 0 9; s.putLedger { s.ledger with obs := [sighting t] }
def q0 : Job := job .queued 0
def quietTurnOf : Job := ⟨0, 23, true, [], [], 0, [], false, .quiet, default⟩
/-- The same with the passage final, or its turn waiting behind a running job. -/
def settledSight (final : Bool) (jobs : List Job) : State :=
  let s := sighted 0; s.putLedger { s.ledger with obs := [{ sighting 0 with final := final }], jobs := jobs }
def apart : Job := { q0 with secs := [0, 2] }

theorem wit_MatchJobs :
    (∀ s ∈ [oper, working [q0] 500, working [job (.running 1) 0, q0] 500, working [job .done 0, q0] 500, working [job (.running 0) 0, apart] 500, working [job (.running 0) 0, job (.running 1) 0, q0] 500,
      sighted 0, sighted 1, working [job .queued 59999] 501], LinesFollow s)
    ∧ (∀ js ∈ [[q0], [job .done 0, q0], [job (.running 0) 0, apart]], queuedJobs (working js 500) = js.drop (js.length - 1) ∧ ([0, 1].find? (fun k => (engineJob (working js 500) k).isNone)).isSome = true
      ∧ ∀ r ∈ [0, 1].filterMap (engineJob (working js 500)), ∀ n ∈ r.secs, ∀ j ∈ js.drop (js.length - 1), n ∉ j.secs)
    ∧ (let s := working [job (.running 1) 0, q0] 500
      queuedJobs s = [q0] ∧ [0, 1].find? (fun k => (engineJob s k).isNone) = some 0 ∧ job (.running 1) 0 ∈ [0, 1].filterMap (engineJob s) ∧ 47 ∈ (job (.running 1) 0).secs ∧ 47 ∈ q0.secs)
    ∧ (∀ s ∈ [settledSight true [], settledSight false [job (.running 0) 0, quietTurnOf]], LinesFollow s ∧ s.counting = true ∧ atBoundary s = true ∧ (s.ledger.obs.filter (fun o => o.sp == 23 && o.neg == true)).length = 1)
    ∧ ((settledSight false [job (.running 0) 0, quietTurnOf]).ledger.jobs.any (fun j => j.stage == .quiet && j.sp == 23 && j.neg == true) = true
      ∧ (sighted 0).ledger.jobs = [] ∧ (sighting 0).final = false)
    ∧ queuedJobs oper = [] ∧ (∀ k ∈ [0, 1], (engineJob (working [job (.running 0) 0, job (.running 1) 0, q0] 500) k).isSome = true) ∧ engineJob oper 1 = none
    ∧ (∀ t ∈ [0, 1], (sighted t).counting = true ∧ atBoundary (sighted t) = true ∧ (sighted t).ledger.obs.filter (fun o => o.sp == 23 && o.neg == true) = sighting t :: [])
    ∧ (sighted 0).ledger.obs.filter (fun o => o.sp == 22 && o.neg == true) = []
    ∧ ((sighting 0).ts + (sighted 0).get F.LEDG_COST_QUIET * cycleTicks ≤ (sighted 0).now) ∧ (sighted 1).now < (sighting 1).ts + (sighted 1).get F.LEDG_COST_QUIET * cycleTicks
    ∧ atBoundary (at_ 7 5 oper) = false ∧ (∀ i ∈ queuedJobs (working [q0] 500), (working [q0] 500).now ≤ i.queued + 30000000)
    ∧ ((working [job .queued 59999] 501).ledger.jobs = [job .queued 59999] ∧ (job .queued 59999).late = false ∧ (working [job .queued 59999] 501).counting = true
      ∧ atBoundary (working [job .queued 59999] 501) = true ∧ (job .queued 59999).queued + 30000000 < (working [job .queued 59999] 501).now) := by
  unfold LinesFollow; decide +kernel

/-! ### Witnesses: safety I/O and the traction link -/

theorem fix_follows (s : State) : LinesFollow (fix s) := rfl

/-- Pair 15 enabled with DISC 5, its run, its fault, the levels of its inputs. -/
def pairIn (run flt : Nat) (a b : Bool) : State :=
  let s := at_ 7 0 ((((((oper.set F.SIO_INj_CFG_EN 15 1).set F.SIO_INj_CFG_DISC 15 5).set F.SIO_INj_STAT_RUN 15 run).set F.SIO_INj_STAT_FAULT 15 flt).set
    F.SIO_INj_STAT_DISAGREE 15 (min run 1)))
  s.putExt { s.ext with sinA := putBit s.ext.sinA 15 a, sinB := putBit s.ext.sinB 15 b }

theorem wit_InputPairs :
    (∀ s ∈ [at_ 7 0 oper, pairIn 0 0 false false, pairIn 1 0 false false, pairIn 3 0 false false, pairIn 4 0 false false, pairIn 5 1 false true, pairIn 5 1 false false],
      LinesFollow s ∧ s.portsUp = true ∧ s.sio.nextSample = s.now / 6000 + 1 ∧ s.due ((s.now / 6000 + 1) * 6000) = true ∧ s.get F.SIO_INj_STAT_RUN 15 < 20000 ∧ calm s = true
      ∧ ∀ v ∈ [(false, false), (true, false), (false, true)],
        DriveSteady ((s.putExt { s.ext with sinA := putBit s.ext.sinA 15 v.1, sinB := putBit s.ext.sinB 15 v.2 }).advanceTo ((s.now / 6000 + 1) * 6000)))
    ∧ (at_ 7 0 oper).flag F.SIO_INj_CFG_EN 15 = false
    ∧ (∀ r ∈ [0, 1, 3, 4], (pairIn r 0 false false).flag F.SIO_INj_CFG_EN 15 = true ∧ (pairIn r 0 false false).flag F.SIO_INj_STAT_FAULT 15 = false
      ∧ (pairIn r 0 false false).get F.SIO_INj_STAT_RUN 15 = r ∧ (pairIn r 0 false false).get F.SIO_INj_CFG_DISC 15 = 5)
    ∧ (let s := pairIn 1 0 false false
      s.flag F.SIO_INj_STAT_DISAGREE 15 = true ∧ bitAt s.ext.sinA 15 = bitAt s.ext.sinB 15 ∧ s.due ((s.sio.nextSample + 5 - 1 - 1) * 6000) = true
      ∧ DriveSteady (s.advanceTo ((s.sio.nextSample + 5 - 1 - 1) * 6000)))
    ∧ ((pairIn 5 1 false true).flag F.SIO_INj_STAT_FAULT 15 = true ∧ bitAt (pairIn 5 1 false true).ext.sinA 15 = (pairIn 5 1 false true).flag F.SIO_INj_CFG_POL 15
      ∧ bitAt (pairIn 5 1 false true).ext.sinB 15 = !(pairIn 5 1 false true).flag F.SIO_INj_CFG_POL 15)
    ∧ ¬ (bitAt (pairIn 5 1 false false).ext.sinB 15 = !(pairIn 5 1 false false).flag F.SIO_INj_CFG_POL 15) := by
  unfold LinesFollow DriveSteady; decide +kernel

/-- A driving unit with the train running at tick `t` of cycle `k`; its output 11 enabled, demanded or not, with a fault. -/
def driving (k t : Nat) (dem flt : Nat) : State :=
  let s := at_ k t (((((((((((oper.set F.SIO_OUTk_CFG_EN 11 1).set F.SIO_OUTk_CFG_PULSE_LEN 11 10).set F.SIO_PULSE_CFG_PERIOD 0 1).set F.FAB_OUTDEM_SOUT 0 (dem * 2 ^ 11)).set
    F.SIO_OUTk_STAT_FAULT_KIND 11 flt).set F.FAB_OUTDEM_TLP 0 dem).set F.FAB_OUTDEM_TLS 0 dem).set F.FAB_OUTSELk_NET_LO 6 (65535 * dem)).set F.FAB_OUTSELk_NET_HI 6 (65535 * dem))).set
    F.SPU_STATUS_HALTED 0 0)
  (s.putSpu { s.spu with grantEnd := s.now + 1000000 }).putExt { s.ext with intlkIn := false, lowSince := 0 }
def drive (k t : Nat) (dem flt : Nat) : State := fix (driving k t dem flt)
def idle (k : Nat) : State := at_ k 5 stby
/-- Output 11 in its pulse, ending at the last tick of the cycle. -/
def pulsing : State := fix ((driving 880 5 1 0).updOut 11 (fun o => { o with pulse := some (880 * 60000 + 59999), openAt := 880 * 60000, pulsed := 881 }))

theorem wit_OutputFaultsOpenTheSwitch :
    (LinesFollow (drive 7 5 1 0) ∧ LinesFollow (drive 7 5 0 0) ∧ LinesFollow (drive 7 5 1 3) ∧ LinesFollow (idle 7) ∧ LinesFollow pulsing) ∧ switchClosed (drive 7 5 1 0) 11 = true
    ∧ (∀ s ∈ [drive 7 5 1 0, drive 7 5 0 0, pulsing], mayDrive s = true ∧ s.flag F.SIO_OUTk_CFG_EN 11 = true ∧ s.get F.SIO_OUTk_STAT_FAULT_KIND 11 = 0)
    ∧ (pulsing.outPort 11).pulse.isSome = true ∧ switchClosed (drive 7 5 0 0) 11 = false ∧ ((drive 7 5 0 0).outPort 11).pulse = none
    ∧ (switchClosed (drive 7 5 1 3) 11 = false ∧ (drive 7 5 1 3).get F.SIO_OUTk_STAT_FAULT_KIND 11 ≠ 0) ∧ (switchClosed (idle 7) 11 = false ∧ mayDrive (idle 7) = false) := by
  exact ⟨⟨fix_follows _, fix_follows _, fix_follows _, fix_follows _, fix_follows _⟩, by decide +kernel⟩

/-- RBSTOP latched. -/
def rbStopped (dem : Nat) : State := fix ((driving 7 5 dem 0).set F.TLNK_PIN_RBSTOP 0 1)

theorem wit_TestPulsesAndClears :
    (∀ s ∈ [drive 880 5 1 0, drive 881 5 1 0, pulsing, drive 7 5 0 3, drive 7 5 1 3, rbStopped 0, rbStopped 1], LinesFollow s)
    ∧ (let s := drive 880 5 1 0
      pulseDue s 11 = true ∧ (s.outPort 11).pulse = none ∧ (s.outPort 11).closeAt ≤ s.cycleStart ∧ (s.outPort 11).pulsed ≠ s.cycle + 1 ∧ s.portsUp = true)
    ∧ pulseDue (drive 881 5 1 0) 11 = false
    ∧ ((pulsing.outPort 11).pulse = some 52859999 ∧ pulsing.due 52859999 = true ∧ pulsing.get F.SIO_OUTk_STAT_FAULT_KIND 11 = 0
      ∧ calm pulsing = true ∧ mayDrive (pulsing.advanceTo 52859999) = true ∧ pulsing.flag F.SIO_OUTk_CFG_EN 11 = true ∧ DriveSteady (pulsing.advanceTo 52859999))
    ∧ (∀ d ∈ [0, 1], (drive 7 5 d 3).get F.SIO_OUTk_STAT_FAULT_KIND 11 ≠ 0 ∧ bitAt ((drive 7 5 d 3).get F.FAB_OUTDEM_SOUT) 11 = (d == 1)
      ∧ (rbStopped d).flag F.TLNK_PIN_RBSTOP = true) := by
  refine ⟨?_, by unfold DriveSteady; decide +kernel⟩
  simp only [List.forall_mem_cons, List.not_mem_nil, false_imp_iff, implies_true, and_true]
  exact ⟨fix_follows _, fix_follows _, fix_follows _, fix_follows _, fix_follows _, fix_follows _, fix_follows _⟩

/-- The link of a listening unit enabled, its exchange of the cycle to come, any sequence taken or RX_SEQ 0; a sealed telegram; a lapsing link. -/
def linked (any : Bool) : State := let s := (idle 7).set F.TLNK_CFG_EN 0 1; fix (s.putTl { s.tl with anySeq := any })
def linkSent (any : Bool) : State := let u := (linked any).advanceTo ((linked any).cycleStart + 33072); tlSend (u.putTl { u.tl with sent := u.cycle + 1 })
def tlBody (seq : Nat) : List Byte := leBytes 1 0x51 ++ leBytes 2 seq ++ leBytes 57 0
def tlSeal (any : Bool) (seq : Nat) : Nat := crc32c (leBytes 4 (cidRx ((linkSent any).get F.TLNK_CONN_ID_CONN_ID)) ++ tlBody seq)
def tlFrame (any : Bool) (seq : Nat) : List Byte := tlBody seq ++ leBytes 4 (tlSeal any seq)
def tlUnsealed (seq : Nat) : List Byte := tlBody seq ++ leBytes 4 (2 ^ 32 - 1 - tlSeal true seq)

/-- Four bytes spell the number they were taken from. -/
theorem ofLeBytes_leBytes4 (v : Nat) (h : v < 2 ^ 32) : ofLeBytes (leBytes 4 v) = v := by
  simp only [leBytes, ofLeBytes, BitVec.toNat_ofNat]; omega

theorem crc32c_lt (bs : List Byte) : crc32c bs < 2 ^ 32 := by simp only [crc32c, cvuOut, if_true]; omega

/-- Sixty bytes followed by a number in four bytes pass the check just when it is their check value. -/
theorem sealed_checks (pre b : List Byte) (v : Nat) (h : b.length = 60) (hv : v < 2 ^ 32) :
    crc32c (pre ++ (pad64 (b ++ leBytes 4 v)).take 60) = ofLeBytes ((pad64 (b ++ leBytes 4 v)).drop 60) ↔ crc32c (pre ++ b) = v := by
  have hl : (leBytes 4 v).length = 4 := rfl
  have hp : pad64 (b ++ leBytes 4 v) = b ++ leBytes 4 v := by simp [pad64, List.take_append, h, hl]
  rw [hp, List.take_left' h, List.drop_left' h, ofLeBytes_leBytes4 _ hv]

def lapsing (stop idle_ : Nat) : State :=
  let s := (((driving 7 5 1 0).set F.TLNK_CFG_EN 0 1).set F.TLNK_CFG_TEXP 0 7).set F.TLNK_CFG_RX_STOP 0 stop
  fix (s.putTl { s.tl with idle := idle_, lapsed := false })
def tlSeqOf (b : List Byte) : Nat := ofLeBytes ((pad64 b |>.drop 1).take 2)

theorem wit_TractionLink :
    (∀ s ∈ [drive 7 5 1 0, drive 7 5 0 0, rbStopped 1, idle 7, linked true, linked false, lapsing 0 7, lapsing 1 7, lapsing 1 6], LinesFollow s)
    ∧ ((drive 7 5 1 0).lines.tlDrive = true ∧ (drive 7 5 1 0).lines.tlp = true ∧ (drive 7 5 1 0).lines.stopN = true ∧ (drive 7 5 1 0).lines.still = true)
    ∧ ((rbStopped 1).lines.tlDrive = true ∧ (rbStopped 1).lines.tlp = false ∧ (rbStopped 1).lines.stopN = false ∧ (rbStopped 1).lines.still = false)
    ∧ (idle 7).lines.tlDrive = false ∧ (idle 7).flag F.TLNK_CFG_EN = false
    ∧ (∀ any ∈ [true, false], (linked any).flag F.TLNK_CFG_EN = true ∧ (linked any).counting = true ∧ (linked any).tl.sent ≠ (linked any).cycle + 1
      ∧ (linkSent any).tl.anySeq = any ∧ (linkSent any).get F.TLNK_SEQ_RX_SEQ = 0)
    ∧ (ofLeBytes ((pad64 []).take 1) ≠ 0x51 ∧ ofLeBytes ((pad64 (tlUnsealed 7)).take 1) = 0x51)
    ∧ (∀ any ∈ [true, false], ∀ q ∈ [0, 1, 4, 5, 65535], ofLeBytes ((pad64 (tlFrame any q)).take 1) = 0x51 ∧ tlSeqOf (tlFrame any q) = q)
    ∧ (∀ st ∈ [0, 1], (lapsing st 7).flag F.TLNK_CFG_EN = true ∧ (lapsing st 7).counting = true ∧ (lapsing st 7).tl.lapsed = false
      ∧ (lapsing st 7).get F.TLNK_CFG_TEXP ≤ (lapsing st 7).tl.idle) ∧ (lapsing 1 6).tl.idle < (lapsing 1 6).get F.TLNK_CFG_TEXP := by
  unfold LinesFollow; decide +kernel

/-- The frames of `wit_TractionLink` carry their check value, or another. -/
theorem wit_TractionLink_checks :
    (∀ any q, crc32c (leBytes 4 (cidRx ((linkSent any).get F.TLNK_CONN_ID_CONN_ID)) ++ (pad64 (tlFrame any q)).take 60) = ofLeBytes ((pad64 (tlFrame any q)).drop 60))
    ∧ ∀ q, crc32c (leBytes 4 (cidRx ((linkSent true).get F.TLNK_CONN_ID_CONN_ID)) ++ (pad64 (tlUnsealed q)).take 60) ≠ ofLeBytes ((pad64 (tlUnsealed q)).drop 60) := by
  refine ⟨fun any q => (sealed_checks _ _ _ rfl (crc32c_lt _)).mpr rfl, fun q h => ?_⟩
  have h1 := crc32c_lt (leBytes 4 (cidRx ((linkSent true).get F.TLNK_CONN_ID_CONN_ID)) ++ tlBody q)
  have h2 := (sealed_checks _ _ _ rfl (by omega)).mp h
  simp only [tlSeal] at h2
  omega

/-! ### Witnesses: CAN, check values, telegrams -/

/-- Controller 1 in use with a bit timing within the limits, its buffer 63 of an owner and direction. -/
def canUnfixed (s : State) (own dir : Nat) : State :=
  ((((((((((((s.set (F.CANx_CFG_EN.can 1) 0 1).set (F.CANx_NBT_NTSEG1.can 1) 0 57).set (F.CANx_NBT_NTSEG2.can 1) 0 20).set (F.CANx_NBT_NSJW.can 1) 0 3).set (F.CANx_DBT_DTSEG1.can 1) 0 12).set
    (F.CANx_DBT_DTSEG2.can 1) 0 5).set (F.CANx_DBT_DSJW.can 1) 0 3).set (F.CANx_DBT_TDC_EN.can 1) 0 1).set (F.CANx_TDC_TDCO.can 1) 0 3).set (F.CANx_BUFCFGb_OWNER.can 1) 63 own).set
    (F.CANx_BUFCFGb_DIR.can 1) 63 dir))
def can (s : State) (own dir : Nat) : State := fix (canUnfixed s own dir)
/-- The same with the buffer locked by a port, pending, or HELD. -/
def canLocked (dir : Nat) (p : HPort) : State :=
  fix (((canUnfixed oper 2 dir).set (F.CANx_BUFCTRLb_LOCKED.can 1) 63 1).set (F.CANx_BUFCTRLb_LOCK_OWNER.can 1) 63 p.toNat)
def canPending : State := fix ((canUnfixed oper 0 1).set (F.CANx_BUFCTRLb_TX_REQ.can 1) 63 1)
def canOn (b : Nat) : State := let s := canPending; s.updCan 1 (fun c => { c with onBus := some b })
def canHeld : State := fix ((canUnfixed oper 0 1).set (F.CANx_BUFCTRLb_HELD.can 1) 63 1)

theorem wit_CanBufferAccess :
    (∀ s ∈ [can oper 0 0, can oper 1 0, can oper 0 1, can oper 2 1, can oper 3 1, can stby 0 1, canLocked 0 .a, canLocked 1 .b, canPending, canOn 63, canOn 62, canHeld], LinesFollow s ∧ s.portsUp = true)
    ∧ (∀ o ∈ [1, 3], portOwns (can oper o 0) .a 1 63 = false) ∧ (bufOwner (can oper 1 0) 1 63 ≠ ownSte ∧ bufOwner (can oper 3 1) 1 63 = ownSte)
    ∧ (bufTx (can oper 0 0) 1 63 = false ∧ portOwns (can oper 0 0) .a 1 63 = true ∧ bufLocked (can oper 0 0) 1 63 = false ∧ portHolds (can oper 0 0) .a 1 63 = false)
    ∧ (bufTx (canLocked 0 .a) 1 63 = false ∧ bufLocked (canLocked 0 .a) 1 63 = true ∧ portHolds (canLocked 0 .a) .a 1 63 = true ∧ portOwns (canLocked 0 .a) .a 1 63 = true)
    ∧ portOwns (canLocked 1 .b) .a 1 63 = false
    ∧ (∀ o ∈ [0, 2], portOwns (can oper o 1) .a 1 63 = true ∧ bufTx (can oper o 1) 1 63 = true ∧ bufPending (can oper o 1) 1 63 = false ∧ canNormal (can oper o 1) 1 = true
      ∧ (can oper o 1).flag (F.CANx_BUFCTRLb_HELD.can 1) 63 = false) ∧ (bufOwner (can oper 2 1) 1 63 = ownEither ∧ bufLocked (can oper 2 1) 1 63 = false)
    ∧ (portOwns canPending .a 1 63 = true ∧ bufTx canPending 1 63 = true ∧ bufPending canPending 1 63 = true)
    ∧ (∀ b ∈ [62, 63], portOwns (canOn b) .a 1 63 = true ∧ bufTx (canOn b) 1 63 = true ∧ bufPending (canOn b) 1 63 = true ∧ ((startSeen (canOn b) 1).canCtl 1).onBus = some b)
    ∧ (portOwns (can stby 0 1) .a 1 63 = true ∧ bufTx (can stby 0 1) 1 63 = true ∧ bufPending (can stby 0 1) 1 63 = false ∧ canNormal (can stby 0 1) 1 = false)
    ∧ (portOwns canHeld .a 1 63 = true ∧ bufTx canHeld 1 63 = true ∧ canNormal canHeld 1 = true ∧ canHeld.flag (F.CANx_BUFCTRLb_HELD.can 1) 63 = true) := by
  unfold LinesFollow; decide +kernel

/-- Filter 31 takes base identifier 0x123 into buffer 63, of an owner and FULL or not; a frame. -/
def filtered (own full rec_ : Nat) : State :=
  fix (((((((canUnfixed oper own 0).set (F.CANx_FLTf_CFG_VALID.can 1) 31 1).set (F.CANx_FLTf_ID_ID.can 1) 31 (0x123 * 2 ^ 18)).set (F.CANx_FLTf_MASK_MASK.can 1) 31 0x1FFFFFFF).set
    (F.CANx_FLTf_CFG_TARGET.can 1) 31 63).set (F.CANx_FLTf_CFG_GROUP_END.can 1) 31 63).set (F.CANx_BUFCTRLb_FULL.can 1) 63 full |>.set (F.CANx_ERR_REC.can 1) 0 rec_)
def frameOf (id : Nat) : CanFrame := ⟨BitVec.ofNat 29 (id * 2 ^ 18), false, false, false, false, false, 1, [1]⟩
/-- Buffer 63 requested, single-shot or not. -/
def sending (one : Nat) : State := fix (((canUnfixed oper 0 1).set (F.CANx_BUFCTRLb_TX_REQ.can 1) 63 1).set (F.CANx_BUFCFGb_SSHOT.can 1) 63 one)
/-- A request of the telegram engine left in a HALT. -/
def sendingSte : State := fix (((canUnfixed (at_ 7 0 (safe.set F.SPU_STATUS_HALTED 0 1)) 3 1).set (F.CANx_BUFCTRLb_TX_REQ.can 1) 63 1).set (F.CANx_BUFCFGb_SSHOT.can 1) 63 0)
def copyOf (s : State) : State :=
  (setBufFlag (((bufPut s 1 63 (frameOf 0x123) 31).set40 (F.CANx_BUFb_TS_L_TS.can 1) 63 (ts40 s.now)).set (F.CANx_BUFCTRLb_FULL.can 1) 63 1)
    F.CANx_RXF0_FLAG F.CANx_RXF1_FLAG 1 63).set (F.CANx_STATUS_RX_NEW.can 1) 0 1

theorem wit_CanFrames :
    (∀ s ∈ [sendingSte, oper, filtered 0 0 1, filtered 3 0 0, filtered 0 1 0, sending 0, sending 1, can stby 0 1], LinesFollow s)
    ∧ (canLive oper 1 = false ∧ busPick oper 1 = none) ∧ (∀ o ∈ [0, 3], canLive (filtered o 0 1) 1 = true ∧ firstFilter (filtered o 0 1) 1 (frameOf 0x123) = some 31
      ∧ groupPlace (filtered o 0 1) 1 31 = some 63 ∧ (bufOwner (copyOf (filtered o 0 1)) 1 63 = ownSte ↔ o = 3))
    ∧ (canLive (filtered 0 1 0) 1 = true ∧ firstFilter (filtered 0 1 0) 1 (frameOf 0x123) = some 31 ∧ groupPlace (filtered 0 1 0) 1 31 = none)
    ∧ (let s := filtered 0 0 1
      firstFilter s 1 (frameOf 0x122) = none ∧ canNormal s 1 = true ∧ canState s 1 = 0 ∧ 0 < s.get (F.CANx_ERR_REC.can 1) ∧ s.flag (F.CANx_ERR_RP.can 1) = false ∧ tecOf s 1 < 128)
    ∧ (canLive (can stby 0 1) 1 = true ∧ canNormal (can stby 0 1) 1 = false ∧ firstFilter (can stby 0 1) 1 (frameOf 0x123) = none)
    ∧ busPick ((sending 0).updCan 1 (fun c => { c with onBus := some 62 })) 1 = some 62
    ∧ (busPick sendingSte 1 = some 63 ∧ sshotAct sendingSte 1 63 = false ∧ sendingSte.flag F.SPU_STATUS_HALTED = true ∧ bufOwner sendingSte 1 63 = ownSte ∧ bufPending sendingSte 1 63 = true)
    ∧ ∀ o ∈ [0, 1], busPick (sending o) 1 = some 63 ∧ sshotAct (sending o) 1 63 = (o == 1) ∧ (sending o).flag F.SPU_STATUS_HALTED = false := by
  unfold LinesFollow; decide +kernel

/-- A controller in an error state with its counters, AUTO_REC as given, buffer 63 requested. -/
def erring (st tec rec_ auto : Nat) : State :=
  fix ((((((canUnfixed oper 0 1).set (F.CANx_BUFCTRLb_TX_REQ.can 1) 63 1).set (F.CANx_ERR_ESTATE.can 1) 0 st).set (F.CANx_ERR_TEC.can 1) 0 tec).set (F.CANx_ERR_REC.can 1) 0 rec_).set
    (F.CANx_CFG_AUTO_REC.can 1) 0 auto)
def errOf (k : CanErrKind) : CanError := ⟨k, .form, true, false, none⟩
def duplicated : State := fix (((canUnfixed oper 0 1).set F.STE_CONNc_CFG_CLASS 63 1).set F.STE_CONNc_CFG_DUP 63 2)
def lostAlready : State := fix ((canUnfixed oper 0 1).set (F.CANx_ERR_LOST.can 1) 0 1)

theorem wit_CanErrorStates :
    (∀ s ∈ [oper, boot, can stby 0 1, erring 0 127 127 0, erring 1 248 0 1, erring 1 247 0 0, erring 2 255 0 0, erring 3 255 0 0, duplicated, lostAlready], LinesFollow s)
    ∧ (canLive (can stby 0 1) 1 = true ∧ canNormal (can stby 0 1) 1 = false) ∧ canLive oper 1 = false ∧ 2 ≤ canState (erring 2 255 0 0) 1
    ∧ (canNormal (can oper 0 1) 1 = true ∧ canState (can oper 0 1) 1 < 2 ∧ busPick (can oper 0 1) 1 = none) ∧ (errOf .txError).kind = .txError ∧ (errOf .txUncounted).kind = .txUncounted
    ∧ (∀ e ∈ [(0, 127, 127, 0), (1, 248, 0, 1), (1, 247, 0, 0)], canNormal (erring e.1 e.2.1 e.2.2.1 e.2.2.2) 1 = true ∧ canState (erring e.1 e.2.1 e.2.2.1 e.2.2.2) 1 < 2
      ∧ (busPick (erring e.1 e.2.1 e.2.2.1 e.2.2.2) 1).isSome = true)
    ∧ tecOf (erring 1 248 0 1) 1 + 8 = 256 ∧ tecOf (erring 1 247 0 0) 1 + 8 = 255 ∧ recOf (erring 0 127 127 0) 1 + 1 = 128
    ∧ (errOf .rxError).kind = .rxError ∧ (errOf .rxFlag).kind = .rxFlag ∧ (errOf .txFlag).kind = .txFlag
    ∧ (canState (erring 3 255 0 0) 1 = 3 ∧ canUp (erring 3 255 0 0) 1 = true ∧ canNormal (erring 3 255 0 0) 1 = true) ∧ canState oper 1 ≠ 3
    ∧ ((erring 2 255 0 0).portsUp = true ∧ canState (erring 2 255 0 0) 1 = 2) ∧ (oper.portsUp = true ∧ canState oper 1 ≠ 2)
    ∧ (oper.flag (F.CANx_CFG_EN.can 1) = false ∧ boot.counting = false ∧ lostAlready.flag (F.CANx_ERR_LOST.can 1) = true)
    ∧ (∀ s ∈ [can oper 0 1, duplicated], s.flag (F.CANx_CFG_EN.can 1) = true ∧ s.counting = true ∧ s.flag (F.CANx_ERR_LOST.can 1) = false ∧ s.dev = .oper)
    ∧ dupConn (can oper 0 1) = false ∧ dupConn duplicated = true ∧ CanLostCause.ram ≠ .busOff := by
  unfold LinesFollow; decide +kernel

/-- Channel 11, of an owner, a width and guards, active or not, its register equal to the expected value. -/
def channel (own w g act : Nat) : State :=
  fix ((((((((at_ 7 0 oper).set F.CVU_CHn_CFG_WIDTH 11 w).set F.CVU_CHn_POLY_VALUE 11 0x1021).set F.CVU_CHn_INIT_VALUE 11 0xFFFF).set F.CVU_CHn_CFG_GUARD 11 g).set F.CVU_CHn_CFG_OWNER 11 own).set
    F.CVU_CHn_STAT_ACTIVE 11 act).set F.CVU_CHn_STAT_CLAIM 11 3 |>.set F.CVU_CHn_CFG_CMP_EN 11 1)

theorem wit_CheckValueChannels :
    (∀ s ∈ [channel 0 16 0 0, channel 0 16 3 1, channel 1 16 0 0, channel 2 16 3 0, channel 0 0 0 0, channel 0 33 0 0], LinesFollow s ∧ s.portsUp = true)
    ∧ cvuOwns (channel 1 16 0 0) .a 11 = false ∧ cvuOwns (channel 0 16 0 0) .a 12 = false
    ∧ (cvuOwns (channel 0 16 3 1) .a 11 = true ∧ cvuActive (channel 0 16 3 1) 11 = true ∧ (channel 0 16 3 1).flag F.CVU_CHn_CFG_CMP_EN 11 = true)
    ∧ (∀ o ∈ [0, 2], cvuOwns (channel o 16 3 0) .a 11 = true ∧ cvuActive (channel o 16 3 0) 11 = false ∧ cvuBad (channel o 16 3 0) 11 = false)
    ∧ ∀ w ∈ [0, 33], cvuOwns (channel 0 w 0 0) .a 11 = true ∧ cvuActive (channel 0 w 0 0) 11 = false ∧ cvuBad (channel 0 w 0 0) 11 = true := by
  unfold LinesFollow; decide +kernel

/-- Connection 63 in a state and class, with a period, its last frame and lapse as given; an announcement of an age. -/
def connected (st cl k per last lapsed : Nat) : State :=
  fix ((((((((((at_ k 0 oper).set F.STE_CONNc_STAT_STATE 63 st).set F.STE_CONNc_CFG_CLASS 63 cl).set F.STE_CONNc_CFG_TEXP 63 10).set F.STE_CONNc_MAP_TX_PERIOD 63 per).set F.STE_CONNc_MAP_RX_FIRST 63 60).set
    F.STE_CONNc_MAP_RX_COUNT 63 8).set F.STE_CFG_DYN_HOLD 0 2).updConn 63 (fun x => { x with last := last, lapsed := lapsed })))
def announced (age : Nat) : State := fix ((oper.set F.STE_ANN_PENDk_VALID 3 1).set F.STE_ANN_PENDk_AGE 3 age)

theorem wit_SafetyTelegrams :
    (∀ s ∈ [oper, connected 2 1 9000 3 0 0, connected 2 1 9000 7 539400000 0, connected 3 2 9000 0 0 8800, connected 3 2 9000 0 0 8801, announced 10000, announced 9999, fix (oper.set F.SPU_STATUS_HALTED 0 1)], LinesFollow s)
    ∧ oper.portsUp = true ∧ coresRun (fix (oper.set F.SPU_STATUS_HALTED 0 1)) = false
    ∧ (let s := connected 2 1 9000 3 0 0
      atBoundary s = true ∧ telDue s 63 = true ∧ s.get F.STE_CONNc_CFG_DUP 63 = 0 ∧ freeSteBuf s 0 = none ∧ canDrives s = true ∧ s.ste.waiting = [] ∧ s.ste.held = []
      ∧ s.counting = true ∧ s.ste.conns.length = 64 ∧ coresRun s = true ∧ connState s 63 = cnValid ∧ s.get F.STE_CONNc_CFG_TEXP 63 * cycleTicks < s.cycleStart - (s.conn 63).last)
    ∧ (let s := connected 2 1 9000 7 539400000 0
      telDue s 63 = false ∧ connState s 63 = cnValid ∧ ¬ s.get F.STE_CONNc_CFG_TEXP 63 * cycleTicks < s.cycleStart - (s.conn 63).last)
    ∧ (∀ l ∈ [8800, 8801], atBoundary (connected 3 2 9000 0 0 l) = true ∧ (connected 3 2 9000 0 0 l).get F.STE_CONNc_CFG_CLASS 63 = 2
      ∧ connState (connected 3 2 9000 0 0 l) 63 = cnLapsed ∧ ((connected 3 2 9000 0 0 l).conn 63).lapsed = l ∧ (connected 3 2 9000 0 0 l).get F.STE_CFG_DYN_HOLD * 100 = 200
      ∧ (connected 3 2 9000 0 0 l).cycle = 9000 ∧ coresRun (connected 3 2 9000 0 0 l) = true)
    ∧ ∀ a ∈ [9999, 10000], (announced a).counting = true ∧ coresRun (announced a) = true ∧ (announced a).flag F.STE_ANN_PENDk_VALID 3 = true ∧ (announced a).get F.STE_ANN_PENDk_AGE 3 = a := by
  unfold LinesFollow; decide +kernel

/-! ### Witnesses: unit pairing -/

/-- A driving unit that asserts INTLK_OUT since a tick, its strap as given, INTLK_IN low. -/
def asserting (rose pref : Nat) : State :=
  let s := driving 7 1000 0 0
  fix ((s.set F.URED_STATE_PREF 0 pref).putLink { s.link with rose := rose })
def lowIn (s : State) : State := s.putExt { s.ext with intlkIn := false, lowSince := 0 }
/-- The unit paired, its link up or not, some frames discarded in the cycle, readiness of the copy set. -/
def highIn : State := fix (let s := at_ 7 5 stby; s.putExt { s.ext with intlkIn := true })
def paired (s : State) (up disc : Nat) : State :=
  fix (((s.set F.URED_CFG_PAIR_EN 0 1).set F.URED_STATE_LINK_UP 0 up).putLink { s.link with discards := disc })
def bytesOk (ok : Bool) (p : LinkPayload) : LinkFrame := ⟨ok, true, true, 0, 9, p⟩
/-- Frame 1 of set 9 received, without the END frame or with one that counts as many frames. -/
def partSet (n : Nat) : State :=
  let s := paired (at_ 7 5 stby) 1 14
  s.putLink { s.link with setCycle := 9, got := [1], setEnd := if n = 0 then none else some (n, 7) }
/-- A claim of an ACTIVE unit made at a tick. -/
def claimedAt (t : Nat) : State := fix (oper.putLink { oper.link with claimAt := some t })

theorem wit_InterlockAndLink :
    (∀ s ∈ [asserting 420399 1, asserting 421000 0, asserting 420400 1, at_ 7 5 stby, highIn, fix (lowIn (at_ 7 5 stby)), boot, fix (oper.set F.CRU_CLK_PLL_LOCK 0 0), paired oper 0 0, paired oper 1 0,
      paired oper 1 15, paired (at_ 7 5 stby) 1 14, fix (oper.set F.URED_STATUS_FORCE_STOP 0 1)], LinesFollow s)
    ∧ (∀ s ∈ [asserting 420399 1, asserting 421000 0], s.ext.intlkIn = false ∧ s.lines.intlkOut = true ∧ (s.link.rose + 600 < s.now ∨ s.flag F.URED_STATE_PREF = false) ∧ follows s = true)
    ∧ ((asserting 420400 1).now ≤ (asserting 420400 1).link.rose + 600 ∧ (asserting 420400 1).flag F.URED_STATE_PREF = true)
    ∧ (∀ t ∈ [0, 600], LinesFollow (claimedAt t) ∧ (claimedAt t).link.claimAt = some t) ∧ (oper.now ≤ 0 + 600 ∧ LinesFollow (at_ 7 5 (claimedAt 0)) ∧ 0 + 600 < (at_ 7 5 (claimedAt 0)).now
      ∧ (at_ 7 5 (claimedAt 0)).link.claimAt = some 0) ∧ (at_ 7 5 stby).lines.intlkOut = false
    ∧ (highIn.ext.intlkIn = true ∧ (fix (lowIn (at_ 7 5 stby))).ext.intlkIn = false)
    ∧ (oper.dev ≠ .comm ∧ comm.dev = .comm ∧ comm.spu.jtag ≠ 3)
    ∧ (oper.portsUp = true ∧ oper.link.claimAt = none) ∧ (fix (oper.set F.CRU_CLK_PLL_LOCK 0 0)).portsUp = false
    ∧ (∀ u ∈ [0, 1], (paired oper u 0).portsUp = true ∧ (paired oper u 0).flag F.URED_CFG_PAIR_EN = true ∧ (paired oper u 0).flag F.URED_STATE_LINK_UP = (u == 1))
    ∧ (oper.flag F.URED_CFG_PAIR_EN = false ∧ oper.flag F.URED_STATE_PREF = false ∧ oper.flag F.URED_STATE_LINK_UP = false)
    ∧ ((0 : BitVec 32).toNat = devRev (paired oper 0 0) ∧ (1 : BitVec 32).toNat ≠ devRev (paired oper 0 0) ∧ (0 : BitVec 256).toNat = digestNum (paired oper 0 0))
    ∧ ((paired (at_ 7 5 stby) 1 14).link.discards + 1 < 16 ∧ 16 ≤ (paired oper 1 15).link.discards + 1)
    ∧ (listens (paired (at_ 7 5 stby) 1 14) = true ∧ listens (paired oper 1 0) = false ∧ (paired (at_ 7 5 stby) 1 14).flag F.URED_STATE_LINK_UP = true
      ∧ (paired (at_ 7 5 stby) 1 14).flag F.URED_CFG_PAIR_EN = true)
    ∧ ((bytesOk false .other).crcOk = false ∧ (bytesOk true (.status default)).payload = .status default ∧ (bytesOk true (.delta [(4095, [1])])).payload = .delta [(4095, [1])]
      ∧ (bytesOk true (.image [1] none)).payload = .image [1] none ∧ (bytesOk true (.endFrame 1 7)).payload = .endFrame 1 7 ∧ ∀ st, LinkPayload.delta [] ≠ .status st)
    ∧ (∀ n ∈ [0, 2, 3], hears (partSet n) = true ∧ setWhole (setBegin (partSet n).link (bytesOk true (.image [1] none))) = (n == 2)
      ∧ (setBegin (partSet n).link (bytesOk true (.image [1] none))).setEnd = if n = 0 then none else some (n, 7))
    ∧ (hears (paired oper 1 0) = false ∧ (∀ i, i < 2 → i ∈ (setBegin (partSet 0).link (bytesOk true (.endFrame 2 7))).got) ∧ 2 ∉ (setBegin (partSet 0).link (bytesOk true (.endFrame 3 7))).got)
    ∧ ((fix (oper.set F.URED_STATUS_FORCE_STOP 0 1)).portsUp = true ∧ (fix (oper.set F.URED_STATUS_FORCE_STOP 0 1)).flag F.URED_STATUS_FORCE_STOP = true
      ∧ oper.flag F.URED_STATUS_FORCE_STOP = false) := by
  refine ⟨by unfold LinesFollow; decide +kernel, ?_, ?_, by unfold LinesFollow; decide +kernel, by unfold LinesFollow; decide +kernel, ?_, ?_, ?_, ?_, ?_, ?_, ?_, ?_, ?_, ?_,
    ⟨rfl, rfl, rfl, rfl, rfl, fun st h => by cases h⟩, ?_, ?_, ?_⟩ <;> decide +kernel

/-- A paired listening unit at a tick of cycle 30 with its interlock input low, its link as given. -/
def listener (t : Nat) (f : Link → Link) : State :=
  let s := lowIn (at_ 30 t (stby.set F.URED_CFG_PAIR_EN 0 1)); fix (s.putLink (f s.link))
/-- A claim made `ago` ticks ago in such a unit, INTLK_IN high or low. -/
def claiming (kind : Nat) (hi : Bool) : State :=
  let s := at_ 30 50000 ((stby.set F.URED_CFG_PAIR_EN 0 1).set F.URED_STATE_CLAIM 0 1)
  fix ((s.putExt { s.ext with intlkIn := hi, lowSince := 1849000 }).putLink { s.link with claimAt := some 1849500, claimKind := kind })
/-- A READY listener with a decided takeover, INTLK_IN risen at a tick, the cores granted. -/
def deciding (rose pref : Nat) : State :=
  let s := (listener 5 (fun l => { l with decided := true, resync := 0 })).set F.URED_STATE_PREF 0 pref
  fix ((s.putExt { s.ext with intlkIn := true, roseIn := rose }).putSpu { s.spu with grantEnd := s.now + 1 })
/-- Section 47 used, in Lull or not. -/
def handing (lull : Nat) : State :=
  fix (((listener 45000 (fun l => { l with handAt := some 30, resync := 0 })).set F.SECT_n_CFG_NBND 47 1).set F.SECT_n_STATE_LULL 47 lull)

theorem wit_TakeoverClaims :
    (∀ s ∈ [listener 5 id, listener 5 (fun l => { l with decided := true }), listener 0 (fun l => { l with lost := false, enteredAt := 10 }), claiming 0 false, claiming 1 false,
      claiming 0 true], LinesFollow s) ∧ LinesFollow (handing 0) ∧ LinesFollow (handing 1)
    ∧ (∀ s ∈ [listener 5 id, listener 5 (fun l => { l with decided := true }), handing 0, handing 1], listens s = true ∧ s.flag F.URED_STATE_CLAIM = false ∧ s.points.length = 24
      ∧ excMode s 3 ≠ mOff)
    ∧ (∀ x ∈ [(1799405, 0), (1799404, 0), (1799405, 1)], let s := deciding x.1 x.2
      LinesFollow s ∧ listens s = true ∧ s.flag F.URED_STATE_CLAIM = false ∧ s.link.decided = true ∧ notReady s = 0 ∧ trainRuns s = true ∧ s.now = 1800005
      ∧ s.ext.intlkIn = true ∧ s.ext.roseIn = x.1 ∧ s.get F.URED_STATE_PREF = x.2)
    ∧ (let s := (deciding 0 0).set F.URED_STATUS_SYNC_LOST 0 1
      notReady s ≠ 0 ∧ s.link.decided = true ∧ listens s = true ∧ s.flag F.URED_STATE_CLAIM = false)
    ∧ (∀ l ∈ [0, 1], calm (handing l) = true ∧ notReady (handing l) = 0 ∧ (handing l).ext.intlkIn = false) ∧ (∀ k ∈ [0, 1], calm (claiming k false) = true)
    ∧ ((listener 5 (fun l => { l with decided := true })).link.decided = true ∧ (listener 5 id).link.decided = false ∧ (listener 5 id).link.handAt = none)
    ∧ (let s := listener 0 (fun l => { l with enteredAt := 30 - 20 })
      let s := s.set F.URED_STATE_PREF 0 1
      atBoundary s = true ∧ s.cycle = s.link.enteredAt + (if s.flag F.URED_STATE_PREF then 20 else 100) ∧ intlkActive s = false ∧ pairBad s = false ∧ s.link.lost = false
      ∧ s.link.lastImage = none ∧ listens s = true ∧ s.flag F.URED_STATE_CLAIM = false)
    ∧ (listener 5 id).cycle ≠ (listener 5 id).link.enteredAt + (if (listener 5 id).flag F.URED_STATE_PREF then 20 else 100)
    ∧ (∀ l ∈ [0, 1], (handing l).link.handAt = some (handing l).cycle ∧ (handing l).now ≤ (handing l).cycleStart + 45000)
    ∧ (∀ n, n < 48 → secUsed (handing 1) n = true → secLull (handing 1) n = true) ∧ (secUsed (handing 0) 47 = true ∧ secLull (handing 0) 47 = false)
    ∧ (∀ k ∈ [0, 1], let s := claiming k false
      s.link.claimAt = some 1849500 ∧ s.flag F.URED_STATE_CLAIM = true ∧ s.ext.intlkIn = false ∧ s.role = .standby ∧ follows s = true ∧ s.due (max 1849500 s.ext.lowSince + 600) = true
        ∧ s.now ≤ max 1849500 s.ext.lowSince + 600 ∧ s.link.claimKind = k)
    ∧ (let s := claiming 0 true
      s.link.claimAt = some 1849500 ∧ s.flag F.URED_STATE_CLAIM = true ∧ s.ext.intlkIn = true ∧ s.due (1849500 + 1800) = true)
    ∧ (listener 5 id).link.claimAt = none := by
  refine ⟨by unfold LinesFollow; decide +kernel, fix_follows _, fix_follows _, by decide +kernel, by unfold LinesFollow; decide +kernel, ?_, ?_, ?_, ?_, ?_, ?_, ?_, ?_, ?_, ?_, ?_⟩ <;> decide +kernel

/-! ### The load of the factory stream leaves the device in BOOT -/

/-- The device state's key and the start-up data are the same in two states. -/
def SameBoot (s t : State) : Prop := storeGet 0 t.regs (F.DEV_STATE_STATE.key 0) = storeGet 0 s.regs (F.DEV_STATE_STATE.key 0) ∧ t.boot = s.boot

theorem SameBoot.refl (s : State) : SameBoot s s := ⟨rfl, rfl⟩
theorem SameBoot.trans {s t u : State} (a : SameBoot s t) (b : SameBoot t u) : SameBoot s u := ⟨b.1.trans a.1, b.2.trans a.2⟩
theorem SameBoot.set {s t : State} (a : SameBoot s t) (f : Fld) (i v : Nat) (h : 0x80000 ≤ f.bit) : SameBoot s (t.set f i v) :=
  ⟨(storeGet_put_ne 0 _ _ (by have : F.DEV_STATE_STATE.key 0 = 0x40 := rfl; simp only [Fld.key] at *; omega)).trans a.1, a.2⟩

theorem SameBoot.foldl {α : Type} (l : List α) (f : State → α → State) (h : ∀ s, ∀ a ∈ l, SameBoot s (f s a)) {s t : State} (b : SameBoot s t) :
    SameBoot s (l.foldl f t) := by
  induction l generalizing t with
  | nil => exact b
  | cons a l ih => exact ih (fun s x hx => h s x (by simp [hx])) (b.trans (h t a (by simp)))

theorem storeGet_filter (l : List (Nat × Nat)) (p : Nat → Bool) (k : Nat) (h : p k = true) : storeGet 0 (l.filter (fun x => p x.1)) k = storeGet 0 l k := by
  induction l with
  | nil => rfl
  | cons x l ih =>
    simp only [List.filter_cons]
    split <;> simp only [storeGet]
    · split <;> simp_all
    · split <;> simp_all

theorem sameBoot_filter (s : State) (p : Nat → Bool) (h : p (F.DEV_STATE_STATE.key 0) = true) (x : List PortState) :
    SameBoot s { s with regs := s.regs.filter (fun x => p x.1), hosts := x } := ⟨storeGet_filter s.regs p _ h, rfl⟩

theorem sameBoot_records (s : State) (recs : List (Nat × Nat × Nat)) (hd : ∀ r ∈ recs, ∀ d ∈ (regAt r.1).toList, ∀ x ∈ d.fields, 0x80000 ≤ (portFld d 0 x.1).bit) :
    SameBoot s (applyRecords s recs) := by
  refine SameBoot.foldl recs _ (fun s r hr => ?_) (sameBoot_filter s (fun k => !loadedKey k) (by decide +kernel) s.hosts)
  split
  · unfold putBootSlot; split
    · exact ⟨storeGet_put_ne 0 _ _ (by decide), rfl⟩
    · exact SameBoot.refl s
  split
  · rename_i d he
    refine SameBoot.foldl d.fields _ (fun s x hx => ?_) (SameBoot.refl s)
    split
    · exact (SameBoot.refl s).set _ _ _ (hd r hr d (by simp [he]) x hx)
    · exact SameBoot.refl s
  · exact SameBoot.refl s

/-- The addresses that the factory stream's records name. -/
def factoryAddrs : List Nat := factoryVals.flatMap (fun v => (List.range v.2.1).map (fun i => v.1.key i / 32 * 4)) ++ (factoryCan 0 ++ factoryCan 1).map (·.1)

theorem factoryAddrs_far : factoryAddrs.all (fun a => (regAt a).toList.all (fun d => d.fields.all (fun x => decide (0x80000 ≤ (portFld d 0 x.1).bit)))) = true := by
  decide +kernel

theorem sameBoot_factoryRegs (s : State) : SameBoot s (factoryRegs s) := by
  refine sameBoot_records s _ (fun r hr d hd x hx => ?_)
  have ha : r.1 ∈ factoryAddrs := by
    rcases List.mem_append.mp hr with h | h
    · obtain ⟨a, m, rfl⟩ := List.mem_map.mp h; exact List.mem_append_left _ m
    · obtain ⟨a, m, rfl⟩ := List.mem_map.mp h; exact List.mem_append_right _ (List.mem_map_of_mem m)
  exact of_decide_eq_true (List.all_eq_true.mp (List.all_eq_true.mp (List.all_eq_true.mp factoryAddrs_far _ ha) d hd) x hx)

theorem sameBoot_putSect (s : State) (n a b : Nat) : SameBoot s (putSect s n a b) := by
  have hb : ∀ f ∈ [F.SECT_n_CFG_EARLY_EN, F.SECT_n_CFG_DIRECT_EN, F.SECT_n_CFG_ID_EN, F.SECT_n_CFG_MOVING, F.SECT_n_CFG_PORT, F.SECT_n_CFG_SWEEP_MIN, F.SECT_n_CFG_NBND,
    F.SECT_n_BND_CP, F.SECT_n_BND_SENSE, F.SECT_n_BND_ALIGNED, F.SECT_n_BND_VALID], 0x80000 ≤ f.bit := by decide
  have hc : ∀ (s : State) (v : Nat), SameBoot s (putSectCfg s n v) := fun s v =>
    (((((((SameBoot.refl s).set _ _ _ (hb _ (by simp))).set _ _ _ (hb _ (by simp))).set _ _ _ (hb _ (by simp))).set _ _ _ (hb _ (by simp))).set _ _ _ (hb _ (by simp))).set _ _ _
      (hb _ (by simp))).set _ _ _ (hb _ (by simp))
  have hd : ∀ (s : State) (h v : Nat), SameBoot s (putSectBnd s n h v) := fun s h v => by
    refine SameBoot.foldl _ _ (fun s j _ => ?_) (SameBoot.refl s)
    refine ((((SameBoot.refl s).set _ _ _ ?_).set _ _ _ ?_).set _ _ _ ?_).set _ _ _ ?_ <;>
      exact Nat.le_trans (hb _ (by simp : _ ∈ _)) (Nat.le_add_right _ _)
  exact ((hc _ _).trans (hd _ _ _)).trans (hd _ _ _)

theorem sameBoot_applyTiles (s : State) : SameBoot s (applyTiles s) := by
  unfold applyTiles
  dsimp only
  generalize usedTiles _ = l
  exact SameBoot.trans (sameBoot_filter s (fun k => !tileHomed (k / 32 * 4)) (by decide +kernel) s.hosts)
    (SameBoot.foldl (l.filter _) _ (fun s _ _ => by split; exacts [sameBoot_putSect _ _ _ _, SameBoot.refl _]) (SameBoot.refl _))

theorem sameBoot_putHeader (s : State) (h : Header) (d : Nat → Nat) : SameBoot s (putHeader s h d) := by
  unfold putHeader State.setFlag
  refine SameBoot.foldl (List.range 8) _ (fun s k _ => (SameBoot.refl s).set _ _ _ (by decide)) ?_
  exact (((((((((((SameBoot.refl s).set _ _ _ (by decide)).set _ _ _ (by decide)).set _ _ _ (by decide)).set _ _ _ (by decide)).set _ _ _ (by decide)).set _ _ _ (by decide)).set _ _ _ (by decide)).set
    _ _ _ (by decide)).set _ _ _ (by decide)).set _ _ _ (by decide))

theorem sameBoot_tiles (n : Nat) (b : List Byte) (s : State) : SameBoot s (forN n s (fun s t => putTile s t b)) :=
  SameBoot.foldl (List.range n) (fun s t => putTile s t b) (fun _ _ _ => ⟨rfl, rfl⟩) (SameBoot.refl s)

/-- A load of the factory stream leaves the device state and the start-up data alone. -/
theorem sameBoot_factory (s : State) (r : Nat) (h : sealMatch 0 r = true) : ∃ n, loadSlot s (some r) none = .ok n ∧ SameBoot s n := by
  simp only [loadSlot, h, if_true]
  exact ⟨_, rfl, (((sameBoot_factoryRegs s).trans (sameBoot_tiles _ _ _)).trans (sameBoot_applyTiles _)).set F.FAB_INFO_SMALL 0 1 (by decide) |>.trans (sameBoot_putHeader _ _ _)⟩

/-- The device in BOOT with the load under way, the factory stream in its slot. -/
def loading : State := fix ((mk 1 0).putBoot { (mk 1 0).boot with stage := 2, sealStart := some 0 })

/-- The factory stream loads into a device in BOOT and leaves it there. -/
theorem wit_factory_load (s : State) (slot : nth s.flash.slots s.flash.boot = none) (start : s.boot.sealStart = some 0) (dev : s.dev = .boot) :
    ∃ n, loadSlot s s.boot.sealStart (nth s.flash.slots s.flash.boot) = .ok n ∧ n.dev = .boot ∧ n.boot = s.boot := by
  rw [slot, start]
  obtain ⟨n, h, a, b⟩ := sameBoot_factory s 0 (by decide)
  refine ⟨n, h, ?_, b⟩
  rw [← dev]
  show (if n.boot.stage = 0 then _ else Dev.ofCode (storeGet 0 n.regs _)) = _
  rw [a, b]; rfl

/-! ### Witnesses: resets, start-up, boundaries -/

/-- Power on or off, and stages of the start-up. -/
def powered (on : Bool) : State := fix (State.reset.putExt { State.reset.ext with powered := on })
def stage (n : Nat) : State := fix ((mk 1 0).putBoot { (mk 1 0).boot with stage := n })
def released : State := fix ((State.reset.putExt { State.reset.ext with powered := true }).putBoot { State.reset.boot with stage := 1 })

def monFailed : State := oper.set (monSt true) 0 2

theorem wit_ResetsAndRelease :
    (∀ s ∈ [powered false, powered true, oper, dark, released, monFailed], LinesFollow s) ∧ ((powered false).ext.powered = false ∧ 950 < (951 : BitVec 16).toNat ∧ (900 : BitVec 16).toNat ≤ 900)
    ∧ ((powered true).ext.powered = true ∧ (50 : Nat) ≤ 50 ∧ (10 : Nat) ≤ 10 ∧ 10 < 11 ∧ 49 < 50) ∧ (oper.portsUp = true ∧ dark.portsUp = false)
    ∧ ((powered true).boot.stage = 0 ∧ (powered true).get F.DEV_STATE_STATE = 1) ∧ oper.boot.stage ≠ 0
    ∧ (released.boot.stage = 1 ∧ released.get F.DEV_STATE_STATE = 1) ∧ oper.boot.stage ≠ 1
    ∧ (∀ b, oper.get (monSt b) ≠ 2 ∧ oper.get (monSt (!b)) = 0) ∧ oper.dev = .oper
    ∧ (monFailed.portsUp = true ∧ monFailed.get (monSt false) ≠ 2 ∧ monFailed.get (monSt true) = 2 ∧ follows monFailed = true)
    ∧ ((6021 : BitVec 16).toNat = 6021 ∧ (6267 : BitVec 16).toNat = 6267 ∧ (6020 : BitVec 16).toNat < 6021 ∧ 6267 < (6268 : BitVec 16).toNat) := by
  unfold LinesFollow; decide +kernel

/-- A device in STARTUP at the boundary of a cycle, point 23 MATCHED and its channels alone with a tone. -/
def starting (k : Nat) (f : Boot → Boot) (offs : Nat) : State :=
  let s := at_ k 0 (forN 23 (mk 3 1) (fun s p => s.set F.EXC_CARRIER_SPn_MODE p 3))
  fix (((s.set F.MEAS_CHn_CFG_OFFS_VALID 46 1).set F.MEAS_CHn_CFG_OFFS_VALID 47 offs).putBoot (f s.boot) |>.updPoint 23 (fun p => { p with calAlt := true }))
def swept : Boot → Boot := fun b => { b with ks := 100, swept := [46, 47], sweepOk48 := true, sweepOk49 := true }
def unswept : Boot → Boot := fun b => { b with ks := 100, swept := [46], sweepOk48 := true, sweepOk49 := true }
/-- Waiting for COMMISSIONING, both commands held or one. -/
def waiting (b : Nat) : State := fix (((at_ 8 0 (stage 4)).set F.DEV_CMD_STAT_ENTER_A 0 1).set F.DEV_CMD_STAT_ENTER_B 0 b)
/-- A RESET of port A held since a tick, 5 s and more before the boundary. -/
def resetHeld (t : Nat) : State := let s := at_ 6000 0 oper; fix (s.updHost 0 (fun h => { h with resetAt := some t }))
def wrapping : State := at_ 18325193 0 oper

theorem wit_LoadAndStartUp :
    (∀ s ∈ [loading, stage 3, at_ 8 0 (stage 3), at_ 8 1 (stage 3), waiting 0, waiting 1, oper, resetHeld 59999999, resetHeld 60000000, wrapping], LinesFollow s)
    ∧ (LinesFollow (starting 30 (fun b => { b with kc := 30 }) 0) ∧ LinesFollow (starting 150 swept 1) ∧ LinesFollow (starting 300 unswept 1))
    ∧ (loading.boot.stage = 2 ∧ loading.dev = .boot ∧ loading.spu.patchBad = false ∧ sealReading (List.replicate 5 0) = (loading.boot.sealStart.getD 0, 0) ∧ loading.boot.sealStart.isSome = true
      ∧ loading.boot.sealStart ≠ some (sealReading (List.replicate 5 1)).1 ∧ (loading.putSpu { loading.spu with patchBad := true }).spu.patchBad = true
      ∧ (oper.boot.stage ≠ 2 ∧ (7 : BitVec 3) ≠ 0))
    ∧ (let s := at_ 8 0 (stage 3)
      s.boot.stage = 3 ∧ atBoundary s = true ∧ s.dev = .boot) ∧ atBoundary (at_ 8 1 (stage 3)) = false
    ∧ (let s := waiting 1
      s.boot.stage = 4 ∧ atBoundary s = true ∧ s.dev = .boot ∧ s.flag F.DEV_CMD_STAT_ENTER_A = true ∧ s.flag F.DEV_CMD_STAT_ENTER_B = true) ∧ (waiting 0).flag F.DEV_CMD_STAT_ENTER_B = false
    ∧ (let s := starting 30 (fun b => { b with kc := 30 }) 0
      s.dev = .startup ∧ atBoundary s = true ∧ s.cycle = s.boot.kc ∧ (s.point 23).calAlt = true ∧ 47 ∈ toneChans s ∧ s.flag F.MEAS_CHn_CFG_OFFS_VALID 47 = false) ∧ oper.dev ≠ .startup
    ∧ (let s := starting 150 swept 1
      s.dev = .startup ∧ atBoundary s = true ∧ s.boot.ks < s.cycle ∧ (s.cycle - s.boot.ks) % 50 = 0 ∧ s.get F.CRU_START_ROTATIONS ≠ (s.cycle - s.boot.ks) / 50 ∧ sweepWhole s = true)
    ∧ (let s := starting 300 unswept 1
      s.dev = .startup ∧ atBoundary s = true ∧ (s.cycle - s.boot.ks) % 50 = 0 ∧ s.get F.CRU_START_ROTATIONS ≠ (s.cycle - s.boot.ks) / 50 ∧ sweepWhole s = false ∧ s.cycle = s.boot.ks + 200)
    ∧ (∀ t ∈ [59999999, 60000000], (resetHeld t).portsUp = true ∧ atBoundary (resetHeld t) = true ∧ resetPair (resetHeld t) = false ∧ ((resetHeld t).host 0).resetAt = some t
      ∧ ((resetHeld t).host 1).resetAt = none ∧ (resetHeld t).now = 60000000 + 300000000)
    ∧ (wrapping.portsUp = true ∧ wrapping.due (2 ^ 40) = true ∧ wrapping.now / 2 ^ 40 + 1 = 1) ∧ oper.due ((oper.now / 2 ^ 40 + 1) * 2 ^ 40) = false := by
  refine ⟨by unfold LinesFollow; decide +kernel, ⟨fix_follows _, fix_follows _, fix_follows _⟩, ?_⟩
  decide +kernel

/-- A slot with bytes that are no stream. -/
def badSlot : State := fix (loading.putFlash { loading.flash with slots := [some [], none] })

/-- A load behind patches that failed. -/
def loadingBad : State := fix (loading.putSpu { loading.spu with patchBad := true })

theorem wit_LoadAndStartUp_files :
    (∃ r, loadSlot badSlot badSlot.boot.sealStart (nth badSlot.flash.slots badSlot.flash.boot) = .error r)
    ∧ (∀ s ∈ [loading, loadingBad], ∃ n, loadSlot s s.boot.sealStart (nth s.flash.slots s.flash.boot) = .ok n ∧ n.dev = .boot ∧ n.boot = s.boot)
    ∧ (LinesFollow badSlot ∧ LinesFollow loadingBad) ∧ badSlot.boot.stage = 2 ∧ badSlot.dev = .boot ∧ loadingBad.boot.stage = 2 ∧ loadingBad.dev = .boot ∧ loadingBad.spu.patchBad = true := by
  refine ⟨⟨_, rfl⟩, ?_, ⟨fix_follows _, fix_follows _⟩, by decide +kernel⟩
  intro s hs
  have h : ∀ s ∈ [loading, loadingBad], nth s.flash.slots s.flash.boot = none ∧ s.boot.sealStart = some 0 ∧ s.dev = .boot := by decide +kernel
  exact wit_factory_load s (h s hs).1 (h s hs).2.1 (h s hs).2.2

/-- The boundary's work up to the dual-port reset and the pins, as `BoundaryWork` composes it. -/
def lowVin : BoundaryInputs := ⟨899, [], 0, 0, 0, false, false, none⟩
def beforePins (s : State) (inp : BoundaryInputs) : State :=
  let v := cycleEnd s
  let v := clockDone v v.nextBoundary
  let w := (v.putNow ((v.cycle + 1) * 60000)).putCycle (v.cycle + 1)
  let a := turnsDue (w.putLink { w.link with step := 0, discards := 0 })
  let b := grantExpire (startBoundary (sensorBoundary (if a.counting then boundaryApply a else bootApply a) inp))
  let c := ledgerBoundary (tlBoundary (keepAliveBoundary (coresWork (if b.flag F.SPU_STATUS_HALTED then b else coresBoundary b) inp.marker)))
  let d := axqAnswer (recCopy (axqAnswer (recCopy c 0) 0) 1) 1
  let e := if inp.bufCe0 then bufCorrected d 0 else d
  pairEnd (if inp.bufCe1 then bufCorrected e 1 else e)
def resetBoth : State := fix ((boot.updHost 0 (fun h => { h with resetAt := some 1 })).updHost 1 (fun h => { h with resetAt := some 2 }))

theorem wit_BoundaryWork :
    (dark.portsUp = false ∧ LinesFollow dark) ∧ (resetBoth.portsUp = true ∧ resetPair (beforePins resetBoth lowVin) = true)
    ∧ (boot.portsUp = true ∧ (stepCount (yieldLate (pinsBoundary (startupEntry (beforePins boot lowVin)) lowVin))).portsUp = true ∧ lowVin.vin % 65536 < 900) := by
  unfold LinesFollow; decide +kernel

/-! ### Witnesses: the safety processor, the fabric and the configuration -/

/-- Cores in three states at the boundary of cycle 50, the device state as given. -/
def cores (st role a b c : Nat) : State :=
  let s := at_ 50 0 (mk st role)
  fix ((((s.set F.SPU_CORE_CORE0_ST 0 a).set (F.SPU_CORE_CORE0_ST.offB 3) 0 b).set (F.SPU_CORE_CORE0_ST.offB 6) 0 c).putSpu
    { s.spu with grantEnd := 0, tests := [0, 0, 0], trans := [[], [], [51]] })
def halted : State := fix ((mk 4 1).set F.SPU_STATUS_HALTED 0 1)
def dueTest (d : Nat) : State := let s := cores 4 1 0 0 0; fix ((s.set F.SPU_PT_NEXT 0 2).putSpu { s.spu with ptDue := some d })
def token (ok : Bool) : State := fix (oper.putSpu { oper.spu with tokenOk := ok })
def dbgHalted : State := fix (oper.set F.SPU_DBG_HALTED 0 1)
/-- A Squall entered at a cycle, with a limit of one minute; lanes of a transaction. -/
def inSquall (entry : Nat) : State := let s := at_ 70000 0 (sqll.set F.SPU_SQ_CFG_SQ_LIMIT 0 1); fix (s.putSpu { s.spu with sqEntry := entry })
def lane (v : Word) : VoterLane := ⟨1, 0x123456, v, 9⟩
def lanes (a b c : Word) : VoterTxn := ⟨lane a, lane b, lane c, none, false⟩

/-- Core 2 in a test, with transients behind it. -/
def testing (kind : Nat) (tr : List Nat) : State := let s := cores 4 1 0 0 2; fix (s.putSpu { s.spu with tests := [0, 0, kind], trans := [[], [], tr] })

theorem wit_VoterAndCores :
    (∀ s ∈ [halted, cores 4 1 0 0 0, cores 4 1 0 0 4, testing 2 [], testing 0 [51, 52], cores 2 0 0 0 0, cores 4 1 0 0 2, cores 4 1 0 2 0, cores 4 1 2 0 0, dueTest 50, dueTest 51, token false, token true, dbgHalted, inSquall 10000, inSquall 10001, oper], LinesFollow s)
    ∧ halted.flag F.SPU_STATUS_HALTED = true ∧ (∀ x ∈ [lanes 1 1 1, lanes 1 1 2, lanes 1 2 1, lanes 2 1 1, lanes 1 2 3], x.fenced = none ∧ x.rejected = false)
    ∧ ({ lanes 1 1 1 with rejected := true }.rejected = true ∧ { lanes 1 1 1 with fenced := some 2 }.fenced = some 2 ∧ coreSt (cores 4 1 0 0 4) 2 = 4)
    ∧ (lane 1 ≠ lane 2 ∧ lane 2 ≠ lane 3 ∧ lane 1 ≠ lane 3 ∧ lane 1 ≠ { lane 1 with check := 8 } ∧ lane 1 ≠ { lane 1 with addr := 0 } ∧ lane 1 ≠ { lane 1 with kind := 0 })
    ∧ (∀ v ∈ [(4, 1), (2, 0)], let s := cores v.1 v.2 0 0 0
      s.flag F.SPU_STATUS_HALTED = false ∧ coreSt s 0 = 0 ∧ coreSt s 1 = 0 ∧ coreSt s 2 = 0) ∧ follows (cores 4 1 0 0 0) = true ∧ (cores 2 0 0 0 0).dev = .comm
    ∧ (coreSt (cores 4 1 0 0 2) 0 = 0 ∧ coreSt (cores 4 1 0 0 2) 1 = 0 ∧ coreSt (cores 4 1 0 0 2) 2 = 2) ∧ (coreSt (cores 4 1 0 2 0) 0 = 0 ∧ coreSt (cores 4 1 0 2 0) 1 ≠ 0 ∧ coreSt (cores 4 1 0 2 0) 2 = 0)
    ∧ (coreSt (cores 4 1 2 0 0) 0 ≠ 0 ∧ coreSt (cores 4 1 2 0 0) 1 = 0 ∧ coreSt (cores 4 1 2 0 0) 2 = 0)
    ∧ (let s := cores 4 1 0 0 2
      calm s = true ∧ DriveSteady (s.advanceTo (max s.now (s.cycleStart + 24000))) ∧ testOf s 2 ≠ 2 ∧ (transWin s 2).length < 2 ∧ s.dev = .oper ∧ s.flag F.SPU_STATUS_HALTED = false)
    ∧ (∀ v ∈ [(2, []), (0, [51, 52])], let s := testing v.1 v.2
      calm s = true ∧ DriveSteady (s.advanceTo (max s.now (s.cycleStart + 24000))) ∧ coreSt s 2 = 2 ∧ s.flag F.SPU_STATUS_HALTED = false ∧ testOf s 2 = v.1 ∧ (transWin s 2).length = v.2.length ∧ s.dev = .oper)
    ∧ (cores 2 0 0 0 0).spu.jtag ≠ 3
    ∧ (∀ d ∈ [50, 51], atBoundary (dueTest d) = true ∧ coresRun (dueTest d) = true ∧ (dueTest d).dev = .oper ∧ (dueTest d).spu.ptDue = some d ∧ (dueTest d).cycle = 50
      ∧ (dueTest d).get F.SPU_PT_NEXT = 2 ∧ ∀ k, k < 3 → coreSt (dueTest d) k = 0)
    ∧ coresRun dbgHalted = false ∧ (∀ ok ∈ [true, false], coresRun (token ok) = true ∧ (token ok).spu.tokenOk = ok) ∧ (cores 4 1 0 0 0).spu.grantEnd ≤ (cores 4 1 0 0 0).now
    ∧ (∀ e ∈ [10000, 10001], atBoundary (inSquall e) = true ∧ (inSquall e).dev = .squall ∧ coresRun (inSquall e) = true ∧ (inSquall e).get F.SPU_SQ_CFG_SQ_LIMIT * 60000 = 60000
      ∧ (inSquall e).cycle - (inSquall e).spu.sqEntry = 70000 - e) ∧ oper.dev ≠ .squall := by
  refine ⟨by unfold LinesFollow; decide +kernel, by decide +kernel, by decide +kernel, ⟨rfl, rfl, by decide +kernel⟩, by decide, ?_⟩
  unfold DriveSteady; decide +kernel

/-- The debugger open in COMMISSIONING, the cores halted or not, its buffer and its held write. -/
def debugged (h : Nat) (replay : List DebugWrite) (st : Option DebugWrite) : State :=
  fix (((comm.set F.SPU_DBG_EN 0 1).set F.SPU_DBG_HALTED 0 h).putSpu { comm.spu with replay := replay, stalled := st })
def poke : DebugWrite := ⟨.memory 0x660FFC, 7⟩

def pokeReg : DebugWrite := ⟨.coreReg 255, 7⟩
def breaking : State := let s := debugged 0 [] none; s.putSpu { s.spu with breaks := upd s.spu.breaks 7 (fun _ => some 5) }

theorem wit_DebugAndTestPort :
    (∀ s ∈ [comm, oper, debugged 0 [] none, debugged 1 [] none, breaking, debugged 0 (List.replicate 63 poke) none, debugged 0 (List.replicate 64 poke) none, debugged 0 (List.replicate 64 pokeReg) (some poke),
      debugged 0 [poke] none, debugged 1 [pokeReg] none], LinesFollow s) ∧ comm.dev = .comm ∧ oper.dev ≠ .comm ∧ debugOpen oper = false ∧ debugOpen comm = false
    ∧ (∀ h ∈ [0, 1], debugOpen (debugged h [] none) = true ∧ (debugged h [] none).flag F.SPU_DBG_HALTED = (h == 1) ∧ (debugged h [] none).spu.stalled = none ∧ (debugged h [] none).spu.replay = []
      ∧ (debugged h [] none).spu.cores.length = 3 ∧ (debugged h [] none).spu.breaks.length = 8 ∧ (debugged h [] none).spu.watches.length = 4)
    ∧ (debugOpen breaking = true ∧ breaking.flag F.SPU_DBG_HALTED = false ∧ some 5 ∈ breaking.spu.breaks ++ breaking.spu.watches)
    ∧ (∀ x ∈ (debugged 0 [] none).spu.breaks ++ (debugged 0 [] none).spu.watches, x = none)
    ∧ ((debugged 0 (List.replicate 63 poke) none).spu.replay.length < 64 ∧ 64 ≤ (debugged 0 (List.replicate 64 poke) none).spu.replay.length)
    ∧ (let s := debugged 0 (List.replicate 64 pokeReg) (some poke)
      debugOpen s = true ∧ s.spu.stalled = some poke ∧ s.spu.replay = pokeReg :: List.replicate 63 pokeReg ∧ (List.replicate 63 pokeReg).length < 64)
    ∧ (debugOpen (debugged 1 [pokeReg] none) = true ∧ (debugged 1 [pokeReg] none).spu.stalled = none ∧ (debugged 1 [pokeReg] none).spu.replay = pokeReg :: []
      ∧ (debugged 1 [pokeReg] none).spu.cores.length = 3)
    ∧ (debugOpen (debugged 0 [poke] none) = true ∧ (debugged 0 [poke] none).spu.stalled = none ∧ (debugged 0 [poke] none).spu.replay = poke :: [] ∧ poke.target = .memory 0x660FFC
      ∧ (0x660FFC : Addr).toNat % 4 = 0 ∧ 0x600000 ≤ (0x660FFC : Addr).toNat ∧ (0x660FFC : Addr).toNat < 0xA00000 ∧ inJournal (0x660FFC : Addr).toNat = false) := by
  unfold LinesFollow; decide +kernel

/-- A FILTER timer of tile 2047 due in the running cycle; the scrubber near the last word; a seal reading due. -/
def timed : State := let s := at_ 7 5 oper; fix (s.putFab { s.fab with timers := [(4 * 2047 + 3, 479999)] })
def scrubbing (st role w : Nat) : State := fix ((mk st role).set F.FAB_SCRUB_WORD 0 w)
def sealed_ (x : Nat) : State := let s := at_ 500 0 oper; fix (s.putBoot { s.boot with sealStart := some x })
def committing : State := fix (oper.set (F.CFG_COMMIT_STAT_STATE.port 1) 0 1)
/-- An upload of port B to a target in a state. -/
def uploading (st tgt : Nat) (cur : List Byte) (parts : List (List Byte)) : State :=
  fix ((((comm.set F.CFG_UP_STAT_STATE 0 st).set F.CFG_UP_STAT_UP_PORT 0 1).set F.CFG_UP_STAT_ACCEPT 0 1).putUp (some ⟨1, tgt, cur, parts⟩))

theorem wit_FabricAndConfiguration :
    (∀ s ∈ [oper, comm, timed, released, scrubbing 4 1 524287, scrubbing 4 1 524286, scrubbing 2 0 0, at_ 501 0 oper, dark, sealed_ 1, committing, uploading 1 0 (List.replicate 251 0) [], uploading 2 2 [] []], LinesFollow s)
    ∧ filterTimer oper 2047 3 = none ∧ (filterTimer timed 2047 3 = some 479999 ∧ timed.due 479999 = true) ∧ released.boot.stage < 3 ∧ dark.portsUp = false
    ∧ (3 ≤ (scrubbing 4 1 524286).boot.stage ∧ (scrubbing 4 1 524287).get F.FAB_SCRUB_WORD + 1 = 524288 ∧ (scrubbing 4 1 524286).portsUp = true ∧ (scrubbing 4 1 524286).get F.FAB_SCRUB_WORD + 1 < 524288 ∧ (scrubbing 4 1 524286).flag F.FAB_UE_ADDR_VALID = false
      ∧ (scrubbing 4 1 524286).dev ≠ .comm ∧ (scrubbing 2 0 0).dev = .comm)
    ∧ (oper.portsUp = true ∧ comm.portsUp = true ∧ oper.dev ≠ .comm ∧ comm.dev = .comm ∧ (0x200001 : Addr).toNat % 4 ≠ 0 ∧ (0x200000 : Addr).toNat % 4 = 0 ∧ 0x200000 ≤ (0x200000 : Addr).toNat
      ∧ (0x5FFFFC : Addr).toNat < 0x600000)
    ∧ ((at_ 501 0 oper).cycle % 100 ≠ 0 ∧ dark.portsUp = false)
    ∧ (let s := sealed_ 1
      s.cycle % 100 = 0 ∧ s.portsUp = true ∧ calm s = true ∧ DriveSteady (s.advanceTo (max s.now (s.cycleStart + 48000))) ∧ s.boot.sealStart = some (sealReading (List.replicate 5 1)).1
        ∧ (sealReading (List.replicate 5 1)).2 = 0 ∧ s.boot.sealStart ≠ some (sealReading (List.replicate 5 0)).1 ∧ (sealReading [0, 1]).2 ≠ 0 ∧ s.dev = .oper)
    ∧ (committing.portsUp = true ∧ commitState committing 1 = 1 ∧ commitState oper 1 ≠ 1) ∧ (comm.up = none ∧ upState comm = 0)
    ∧ (let s := uploading 1 0 (List.replicate 251 0) []
      s.dev = .comm ∧ upState s = 1 ∧ s.get F.CFG_UP_STAT_UP_PORT = 1 ∧ s.up = some ⟨1, 0, List.replicate 251 0, []⟩ ∧ s.flag F.CFG_UP_STAT_ACCEPT = true
        ∧ (List.replicate 251 (0 : Byte)).length + 4 < partLen ⟨1, 0, List.replicate 251 0, []⟩ ∧ upState s ≠ 2)
    ∧ (∀ tg ∈ [1, 2], (uploading 1 tg (List.replicate 251 0) []).up = some ⟨1, tg, List.replicate 251 0, []⟩ ∧ (tg = 1 ∨ tg = 2))
    ∧ (let s := uploading 1 2 (List.replicate 252 0) []
      let v : Upload := ⟨1, 2, List.replicate 4 0 ++ List.replicate 252 0, []⟩
      partLen ⟨1, 2, List.replicate 252 0, []⟩ ≤ (List.replicate 252 (0 : Byte)).length + 4 ∧ (partErr (partProgram (s.counted F.CFG_UP_WORDS_WORDS) v) v v.cur.reverse).isSome = true)
    ∧ ((uploading 1 2 [] []).set F.CFG_UP_STAT_ACCEPT 0 0).flag F.CFG_UP_STAT_ACCEPT = false
    ∧ (upState (uploading 2 2 [] []) = 2 ∧ (2 : Nat) ≠ 0) := by
  unfold LinesFollow DriveSteady; decide +kernel

/-- A slot's contents whose trailer carries their digest and its own check value; all other bytes 0. -/
def trailerBody (main : List Byte) : List Byte := leBytes 4 0x45424650 ++ sha256 main ++ List.replicate 8 0
def trailerOf (main : List Byte) : List Byte := trailerBody main ++ leBytes 4 (crc32c (trailerBody main))

theorem sha256_length (bs : List Byte) : (sha256 bs).length = 32 := by
  simp [sha256, Digest.words, beBytes, leBytes]

theorem trailerOf_ok (main : List Byte) : trailerOk (trailerOf main) (sha256 main) = true := by
  have hl : (trailerBody main).length = 44 := by simp [trailerBody, sha256_length, leBytes]
  have hc : (leBytes 4 (crc32c (trailerBody main))).length = 4 := rfl
  have h4 : (leBytes 4 0x45424650).length = 4 := rfl
  simp only [trailerOk, crcGood, leAt, trailerOf, List.length_append, hl, hc, Bool.and_eq_true, beq_iff_eq]
  refine ⟨⟨?_, ?_⟩, ?_⟩
  · rw [List.drop_zero, List.take_append_of_le_length (by omega), trailerBody, List.append_assoc, List.take_left' h4]; rfl
  · rw [List.take_left' hl, List.drop_left' hl, List.take_of_length_le (by omega), ofLeBytes_leBytes4 _ (crc32c_lt _)]
  · rw [trailerBody, List.append_assoc, List.append_assoc, List.drop_left' h4, List.take_left' (sha256_length _)]

/-- An upload to slot B that passes its checks, whatever comes before its trailer, and one that does not. -/
theorem wit_FabricAndConfiguration_uploads :
    (∀ main, let s := uploading 2 2 [] [trailerOf main, main]
      s.dev = .comm ∧ upState s = 2 ∧ s.up = some ⟨1, 2, [], [trailerOf main, main]⟩ ∧ ∃ v, upSlot s ⟨1, 2, [], [trailerOf main, main]⟩ = .ok v)
    ∧ ∃ r, upSlot (uploading 2 2 [] []) ⟨1, 2, [], []⟩ = .error r := by
  refine ⟨fun main => ⟨?_, ?_, rfl, putSlot (uploading 2 2 [] [trailerOf main, main]) 1 (some (main ++ trailerOf main)) true, ?_⟩, ⟨⟨.digest, noFrame⟩, rfl⟩⟩
  · show (uploading 2 2 [] []).dev = .comm; decide +kernel
  · show upState (uploading 2 2 [] []) = 2; decide +kernel
  · have hl : (trailerOf main).length = 48 := by simp [trailerOf, trailerBody, sha256_length, leBytes]
    simp [upSlot, upBytes, hl, trailerOf_ok]

theorem wit_LinesObeyTheirConditions : ∃ t, step oper = .next t := ⟨_, rfl⟩

/-! ### Witnesses: the further clauses of the statements above -/

/-- Both monitors failed, both controllers lost, a claim blocked with the link and the partner gone. -/
def lasting : State :=
  let s := at_ 30 50000 ((((((stby.set F.CRU_CLK_MONA_ST 0 2).set F.CRU_CLK_MONB_ST 0 2).set (F.CANx_ERR_LOST.can 0) 0 1).set (F.CANx_ERR_LOST.can 1) 0 1).set F.URED_STATUS_FORCE_STOP 0 1).set F.URED_STATE_CLAIM 0 1)
  fix ((s.putExt { s.ext with intlkIn := true }).putLink { s.link with claimAt := some 1000, missed := 2, lost := true })

/-- Each lasting condition of `FlagsClearedByOnes` holds in one state and fails in another. -/
theorem wit_FlagsClearedByOnes_lasting :
    (∀ x ∈ [(lasting, true), (oper, false)], LinesFollow x.1 ∧ x.1.portsUp = true
      ∧ (∀ f ∈ [F.CRU_STATUS_MONA_FAIL, F.CRU_STATUS_MONB_FAIL, F.CANx_STATUS_LOST.can 0, F.CANx_STATUS_LOST.can 1, F.URED_STATUS_HB_LOST, F.URED_STATUS_PARTNER_LOST, F.URED_STATUS_TO_BLOCKED, F.URED_STATUS_DIVERGE],
        x.1.get f ≤ 1 ∧ bitAt (0xFFFFFFFF : Word).toNat (f.bit % 32) = true)
      ∧ (x.1.get F.CRU_CLK_MONA_ST == 2) = x.2 ∧ (x.1.get F.CRU_CLK_MONB_ST == 2) = x.2 ∧ (∀ i, i < 2 → x.1.flag (F.CANx_ERR_LOST.can i) = x.2) ∧ (x.1.role == .standby) = x.2
      ∧ decide (2 ≤ x.1.link.missed) = x.2 ∧ x.1.link.lost = x.2 ∧ claimBlocked x.1 = x.2 ∧ x.1.flag F.URED_STATUS_FORCE_STOP = x.2) := by
  unfold LinesFollow; decide +kernel

/-- Sensor point `p`, its port carried, bounds section 47 through counting point 0. -/
def bounding (p : Nat) (s : State) : State :=
  ((((((s.set F.SECT_n_CFG_NBND 47 1).set F.SECT_n_BND_VALID 47 1).set F.WEV_CPc_MAP_VALID 0 1).set F.WEV_CPc_MAP_SP 0 p).set F.FAB_PPq_k_VALID 0 1).updPoint p (fun x => { x with lull := false }))

/-- Point 3 ALTERNATING and not BLIND at a boundary of an odd or even multiple of 500 cycles. -/
def alternating (k : Nat) : State := at_ k 0 ((bounding 3 oper).set F.EXC_CARRIER_SPn_MODE 3 mAlternating)

theorem wit_PhaseInversionBlindsPoint_ready :
    ∀ k ∈ [500, 1000], let s := alternating k
      LinesFollow s ∧ s.counting = true ∧ atBoundary s = true ∧ s.cycle % 500 = 0 ∧ s.points.length = 24 ∧ s.chans.length = 48 ∧ excMode s 3 = mAlternating ∧ (s.point 3).blind = false
      ∧ (∀ p, p < 24 → excMode s p = mAlternating → (s.point p).altSince ≠ s.now ∧ noHold s p) ∧ clockNow s = []
      ∧ (47, 0) ∈ blindDisturbs s 3 ∧ ∀ p, p < 24 → ∀ x ∈ blindDisturbs s p, x.1 ≠ 46 := by
  unfold LinesFollow noHold; decide +kernel

/-- Point 23 not BLIND with another amplitude pending, forced or not; a boundary of section 47 or of none. -/
def pendRun (force : Bool) (s : State) : State := s.updPoint 23 (fun x => { x with pend := some { pointVals s 23 with amp := 9 }, force := force })

theorem wit_PendingValuesApply_run :
    (∀ x ∈ [(pendRun true (at_ 7 0 (bounding 23 oper)), true), (pendRun false (at_ 7 0 oper), false)], let s := x.1
      LinesFollow s ∧ s.counting = true ∧ atBoundary s = true ∧ (s.point 23).pendAt < s.now ∧ ((s.point 23).force = x.2 ∧ pendReady s 23 = !x.2) ∧ (s.point 23).blind = false
      ∧ s.points.length = 24 ∧ s.chans.length = 48 ∧ clockNow s = [] ∧ noHold s 23 ∧ (((47, 0) ∈ blindDisturbs s 23) ↔ x.2 = true) ∧ (∀ y ∈ blindDisturbs s 23, y.1 ≠ 46)
      ∧ (∀ n ∈ [46, 47], s.get F.SECT_n_STATE_STATE n ≠ 2) ∧ s.get F.EXC_CARRIER_SPn_MODE 23 < 4
      ∧ (s.point 23).pend.isSome = true ∧ ∀ v ∈ (s.point 23).pend.toList, excDiffers (pointVals s 23) v = true
        ∧ (scaleDiffers (pointVals s 23) v 0 || scaleDiffers (pointVals s 23) v 1) = false ∧ v.mode < 4 ∧ v.amp < 64 ∧ v.carrier < 256 ∧ ∀ j, j < 4 → nth v.src j < 64 ∧ nth v.func j < 4)
    ∧ let s := pendCurve true
      let free := s.updPoint 23 (fun x => { x with pend := none, force := false })
      drainHeld free 23 = free := by
  refine ⟨by unfold LinesFollow noHold; decide +kernel, by decide +kernel⟩

/-- The same source with AUTO_SPARE; no source kept for the substitution. -/
def spared : State := fix ((bounding 23 sourced).set F.EXC_MODE_AUTO_SPARE 0 1)
def unspared : State := fix (forN 56 spared (fun s m => s.set F.EXC_SRCn_RETIRE m 1))

theorem wit_SourceFailureWithoutSpare_spare :
    (∀ s ∈ [spared, unspared], LinesFollow s ∧ s.get F.EXC_SRCn_STATUS 55 = 1 ∧ s.lines.src = true ∧ s.get F.EXC_SRCn_PIN 55 < 96 ∧ s.flag F.EXC_MODE_AUTO_SPARE = true ∧ s.srcFails = [])
    ∧ (∀ m, m < 56 → srcFree unspared m = false) ∧ (srcFree spared 0 = true ∧ srcFree (spared.set F.EXC_SRCn_RETIRE 0 1) 0 = false)
    ∧ spared.points.length = 24 ∧ spared.chans.length = 48 ∧ (spared.point 23).blind = false ∧ clockNow spared = [] ∧ noHold spared 23
    ∧ (47, 0) ∈ blindDisturbs spared 23 ∧ ∀ y ∈ blindDisturbs spared 23, y.1 ≠ 46 := by
  unfold LinesFollow noHold; decide +kernel

/-- Point 2 in DC_SUPPLY, its channels on and off as a sequencer state shows, with the other channel's sample 340 waiting at a level. -/
def thr (k : Nat) : Int := (k : Int) * 2 ^ 23
def pairing (q : Seq) (e : Entry) (f l : Int) : State :=
  let s := ((forN 2 (at_ 7 5000 (bounding 2 oper)) (fun s j => ((s.set F.WEV_CHn_THR_ON_THR (4 + j) 1536).set F.WEV_CHn_THR_OFF_THR (4 + j) 1024))).set F.EXC_CARRIER_SPn_MODE 2 mDc).set F.WEV_SPn_CFG_HOLD 2 3
  let s := forN 2 s (fun s j => s.updChan (4 + j) (fun c => { c with last := some (midTick 339, f), on := if j = 0 then (seqShows q).1 else (seqShows q).2, onTick := 412500 }))
  (s.updPoint 2 (fun x => { x with seq := q, entry := e, holdEnd := 1250 * 341, linkEnd := 1250 * 341 })).updChan 5 (fun c => { c with queue := [⟨340, 0, l, 0, 0, 0⟩] })

/-- Samples 340 of both channels evaluated together: the first channel crosses on or off before the middle tick; the second or both cross at the
middle tick; in every state of the sequencer that shows an idle point, a first channel on, or both. -/
theorem wit_DampingSampleTaken_pair :
    (∀ x ∈ [(Seq.idle, Entry.none, thr 1000, thr 1100, 3000, some (true, 0)), (.idle, .none, thr 1000, thr 1100, 1536, some (true, 1)), (.idle, .none, thr 1000, thr 1536, 1536, some (true, 1)),
        (.holdP, .a, thr 1000, thr 1100, 3000, some (true, 0)), (.aLeft, .a, thr 1000, thr 1100, 3000, some (true, 0)), (.bLeft, .unknown, thr 1000, thr 1100, 3000, some (true, 0)),
        (.ab, .a, thr 2000, thr 1800, 0, some (false, 0)), (.aIn, .a, thr 1030, thr 1100, 0, some (false, 0))],
      let s := pairing x.1 x.2.1 x.2.2.1 x.2.2.2.1
      let v := taken s 0
      let i : Int := x.2.2.2.2.1 * 2 ^ 15
      let l := linearise v 4 (damping v 4 340 i 0).1 (damping v 4 340 i 0).2
      LinesFollow s ∧ s.counting = true ∧ v.snap = none ∧ v.points.length = 24 ∧ v.chans.length = 48 ∧ usable v 2 = true ∧ tagOf v 4 340 = (0, 0) ∧ (v.chan 4).queue = []
      ∧ (v.chan 5).queue = [⟨340, 0, x.2.2.2.1, 0, 0, 0⟩] ∧ (v.point 2).seq = x.1 ∧ (v.point 2).entry = x.2.1 ∧ ((v.chan 4).on, (v.chan 5).on) = seqShows x.1
      ∧ (∀ c ∈ [4, 5], (v.chan c).last = some (midTick 339, x.2.2.1)) ∧ (onThr v 4, offThr v 4, onThr v 5, offThr v 5) = (thr 1536, thr 1024, thr 1536, thr 1024)
      ∧ 1250 * 341 - 1 ≤ (v.point 2).holdEnd ∧ midTick 340 < (v.point 2).linkEnd ∧ l = thr x.2.2.2.2.1.toNat ∧ clockNow v = [] ∧ pointCp v 2 = some 0 ∧ portCarries v 0 = true
      ∧ secsOf v 0 = [47] ∧ secUsed v 47 = true)
    ∧ nearest ((thr 1536 - thr 1000) * 1250) (thr 3000 - thr 1000) < 1250 ∧ nearest ((thr 1536 - thr 1000) * 1250) (thr 1536 - thr 1000) = 1250
    ∧ midTick 339 + 1250 = midTick 340 ∧ nearest ((thr 1030 - thr 1024) * 1250) (thr 1030) < 1250 ∧ nearest ((thr 2000 - thr 1024) * 1250) (thr 2000) < 1250 := by
  unfold LinesFollow; decide +kernel

/-- The visit of a channel within or past its AGE limit; of one busy in the window, armed, or with a visit to fail it. -/
def visitAged (n : Nat) (m : Nat) : State := (((visit m).set F.SUP_TONE_CFG_AGE_LIM 0 1).set F.SUP_CHn_VISIT_AGE 5 n).set F.SUP_CHn_VISIT_STALE 5 0
def visitOn : State := (visit mMatched).updChan 5 (fun c => { c with winOn := true })
def visitArmed : State := (visit mMatched).set F.SUP_CHn_FAULT_CLR_ARMED 5 1

theorem wit_ToneVisits_judged :
    (∀ s ∈ [visitAged 1199 mOff, visitAged 1200 mOff, visitOn, visitArmed], LinesFollow s ∧ s.counting = true ∧ s.cycle % 50 = (5 : Fin 48).val ∧ s.tone.visited ≠ s.cycle + 1)
    ∧ (∀ n ∈ [1199, 1200], let v := visited (visitAged n mOff)
      excMode v 2 = mOff ∧ v.get F.SUP_CHn_VISIT_AGE 5 = n ∧ v.flag F.SUP_CHn_VISIT_STALE 5 = false ∧ (visitAged n mOff).get F.SUP_TONE_CFG_AGE_LIM * 1200 = 1200
      ∧ satInc F.SUP_CHn_VISIT_AGE.width n = n + 1)
    ∧ (∀ s ∈ [visit mMatched, visit mAlternating, visitOn, visitArmed], let v := visited s
      (excMode v 2 = mMatched ∨ excMode v 2 = mAlternating) ∧ windowBlind v 5 = false ∧ windowBad v 5 = false ∧ v.chans.length = 48 ∧ (v.chan 5).faulty = false)
    ∧ (∀ x ∈ [(visit mMatched, true, 1010, false, none, none), (visit mMatched, true, 3001, false, none, some 7), (visit mMatched, true, 299, false, none, some 8), (visit mMatched, true, 1010, true, none, some 7),
        (visit mMatched, true, 1010, false, some (9, 60), some 11), (visit mMatched, true, 1200, false, none, some 10), (visitOn, false, 1200, false, none, none), (visitArmed, true, 1010, false, none, none)],
      let v := visited x.1
      let w := ((v.putTone { v.tone with visited := v.cycle + 1 }).set F.SUP_CHn_IMP_MAG 5 x.2.2.1).set F.SUP_CHn_IMP_PHASE 5 0
      (!((v.chan 5).winOn || (v.chan 5).on) && (v.chan 5).zCap.isNone) = x.2.1 ∧ toneVerdict w 5 x.2.2.1 0 x.2.2.2.1 x.2.2.2.2.1 x.2.1 = x.2.2.2.2.2) := by
  unfold LinesFollow; decide +kernel

/-- Samples beyond the end of the link window behind and before both channels. -/
def onsetsPast (q : Seq) : State :=
  (forN 2 (evaluated q) (fun s j => s.updChan (4 + j) (fun c => { c with last := some (480000, 0) })))

theorem wit_HoldsAndLinkWindows_onsets :
    ∀ q ∈ [Seq.aLeft, .bLeft], LinesFollow (onsetsPast q) ∧ (onsetsPast q).counting = true ∧ ((onsetsPast q).point 2).seq = q ∧ ((onsetsPast q).point 2).linkEnd = 479999
      ∧ 479999 < (onsetsPast q).nextBoundary ∧ evaluatedTo (onsetsPast q) 2 479999 = true ∧ onsetsSeen (onsetsPast q) 2 479999 = true
      ∧ onsetsSeen ((onsetsPast q).updChan 5 (fun c => { c with last := some (479998, 0) })) 2 479999 = false := by
  unfold LinesFollow; decide +kernel

/-- Section 47 in a state with the evidence and the points that R171 to R173 ask for, in Lull. -/
def restorable (st : Nat) (s : State) : State :=
  (((bounding 5 s).set F.SECT_n_STATE_STATE 47 st).set F.SECT_n_STATE_LULL 47 1 |>.set F.SECT_n_CFG_DIRECT_EN 47 1).updSec 47 (fun x => { x with touched := false })
def commanded (st op sec : Nat) (s : State) : State := putCmd (restorable st s) 1 (some ⟨op, sec, 5⟩)
def directs (st : Nat) (tok : Nat) (s : State) : State := putDirect (putDirect (restorable st s) 0 (some ⟨47, 8, 5⟩)) 1 (some ⟨47, tok, 6⟩)

theorem wit_RestoreCommandsHeld_evaluated :
    (∀ s ∈ [commanded 2 1 47 (at_ 7 0 oper), commanded 0 1 47 (at_ 7 0 oper), commanded 2 1 46 (at_ 7 0 oper), commanded 2 1 47 (at_ 7 0 safe), commanded 0 3 47 (at_ 7 0 oper), commanded 2 3 48 (at_ 7 0 oper),
        commanded 2 3 46 (at_ 7 0 oper), commanded 2 3 47 (at_ 7 0 stby), commanded 2 3 47 (at_ 7 0 safe), directs 2 8 (at_ 7 0 oper), directs 3 8 (at_ 7 0 oper), directs 1 8 (at_ 7 0 oper), directs 2 9 (at_ 7 0 oper)],
      LinesFollow s ∧ s.portsUp = true ∧ clockNow s = [])
    ∧ (let s := restorable 2 (at_ 7 0 oper)
      restoreDevice s = true ∧ secUsed s 47 = true ∧ secUsed s 46 = false ∧ snapAt s 47 0 = 2 ∧ s.flag F.SECT_n_CFG_DIRECT_EN 47 = true ∧ pointsAll s 47 (fun st => st == 0 || st == 2) = true
      ∧ s.flag F.SECT_n_STATE_LULL 47 = true ∧ (s.sec 47).touched = false)
    ∧ (snapAt (restorable 0 (at_ 7 0 oper)) 47 0 = 0 ∧ snapAt (restorable 1 (at_ 7 0 oper)) 47 0 = 1 ∧ snapAt (restorable 3 (at_ 7 0 oper)) 47 0 = 3 ∧ (restorable 0 (at_ 7 0 oper)).get F.SECT_n_STATE_STATE 47 ≠ 2)
    ∧ (restoreDevice (restorable 2 (at_ 7 0 safe)) = false ∧ restoreDevice (restorable 2 (at_ 7 0 stby)) = false ∧ (at_ 7 0 stby).role = .standby ∧ follows (restorable 2 (at_ 7 0 stby)) = true
      ∧ ((at_ 7 0 safe).role ≠ .standby ∨ follows (restorable 2 (at_ 7 0 safe)) = false))
    ∧ (∀ op ∈ [1, 3], ∀ sec ∈ [46, 47, 48], (commanded 2 op sec (at_ 7 0 oper)).restCmd HPort.b.toNat = some ⟨op, sec, 5⟩)
    ∧ ∀ tok ∈ [8, 9], (directs 2 tok (at_ 7 0 oper)).restDirect 0 = some ⟨47, 8, 5⟩ ∧ (directs 2 tok (at_ 7 0 oper)).restDirect 1 = some ⟨47, tok, 6⟩ ∧ 6 < (at_ 7 0 oper).cycleStart := by
  unfold LinesFollow; decide +kernel

/-- Section 47 in a sweep with a count, the axles of the sweep and SWEEP_MIN 2. -/
def sweeping (c axles : Nat) : State := ((counted c 3).set F.SECT_n_CNT_SWEEP_AXLES 47 axles).set F.SECT_n_CFG_SWEEP_MIN 47 2

theorem wit_RestoreDeadlinesAndIdentity_sweep :
    ∀ x ∈ [(0, 0, 1, 0), (0, 1, 1, 1), (1, 1, 0, 1), (2, 2, 0, 2), (1, 1, 1, 2), (4095, 7, 0, 1)], let s := sweeping x.1 x.2.1
      let m := movesOf x.2.2.1 x.2.2.2
      s.get F.SECT_n_STATE_STATE 47 = 3 ∧ s.get F.SECT_n_CNT_COUNT 47 = x.1 ∧ (m.filter (fun y => y.2)).length = x.2.2.1 ∧ (m.filter (fun y => !y.2)).length = x.2.2.2
      ∧ x.2.2.2 ≤ x.1 + x.2.2.1 ∧ x.1 + x.2.2.1 - x.2.2.2 ≤ 4095 ∧ s.get F.SECT_n_CFG_SWEEP_MIN 47 = 2
      ∧ min 255 ((if x.1 = 0 then 0 else x.2.1) + x.2.2.1) = (if x.1 = 0 then x.2.2.1 else x.2.1 + x.2.2.1) := by
  decide +kernel

/-- The same switch closed for the 7,200 ticks that the rule asks, and for one tick less. -/
def drivenFor (n : Nat) : State := fix ((driving 7 8000 1 0).updOut 11 (fun o => { o with closeAt := 428000 - n }))

theorem wit_OutputFaultsOpenTheSwitch_time :
    (∀ n, LinesFollow (drivenFor n)) ∧ (∀ n ∈ [7200, 7199], switchClosed (drivenFor n) 11 = true)
    ∧ ((drivenFor 7200).outPort 11).closeAt + 7200 ≤ (drivenFor 7200).now ∧ (drivenFor 7199).now < ((drivenFor 7199).outPort 11).closeAt + 7200
    ∧ (∀ s ∈ [drive 7 5 0 3, idle 7], (s.outPort 11).pulse = none) ∧ switchClosed pulsing 11 = false :=
  ⟨fun _ => fix_follows _, by decide +kernel⟩

/-- Both controllers in use, their buffers 63 transmit buffers of the telegram engine. -/
def busReady (s : State) : State :=
  forN 2 s (fun s x => ((((((((((s.set (F.CANx_CFG_EN.can x) 0 1).set (F.CANx_NBT_NTSEG1.can x) 0 57).set (F.CANx_NBT_NTSEG2.can x) 0 20).set (F.CANx_NBT_NSJW.can x) 0 3).set (F.CANx_DBT_DTSEG1.can x) 0 12).set
    (F.CANx_DBT_DTSEG2.can x) 0 5).set (F.CANx_DBT_DSJW.can x) 0 3).set (F.CANx_DBT_TDC_EN.can x) 0 1).set (F.CANx_TDC_TDCO.can x) 0 3).set (F.CANx_BUFCFGb_OWNER.can x) 63 3).set (F.CANx_BUFCFGb_DIR.can x) 63 1)
/-- Connection 63 due, of a duplication, with telegrams waiting, on such controllers or on none. -/
def sendingTel (bus : Bool) (dup : Nat) (w : List SteTx) : State :=
  let s := (connected 2 1 9000 3 0 0).set F.STE_CONNc_CFG_DUP 63 dup
  let s := if bus then busReady s else s
  fix (s.putSte { s.ste with waiting := w })
def telOf (c : Nat) : SteTx := ⟨c, 0, 7, true, true, [1]⟩

theorem wit_SafetyTelegrams_sent :
    (∀ x ∈ [(true, 0, []), (true, 1, []), (true, 2, []), (false, 0, [telOf 3]), (false, 1, [telOf 3]), (true, 0, [telOf 3, telOf 5])], let s := sendingTel x.1 x.2.1 x.2.2
      LinesFollow s ∧ atBoundary s = true ∧ telDue s 63 = true ∧ s.ste.held = [] ∧ s.ste.waiting = x.2.2 ∧ (∀ w ∈ x.2.2, w.conn < 63 ∧ w.x = 0) ∧ s.get F.STE_CONNc_CFG_DUP 63 = x.2.1 ∧ canDrives s = true
      ∧ (∀ i, i < 2 → freeSteBuf s i = if x.1 then some 63 else none))
    ∧ (∀ d, d < 64 → d ≠ 63 → bufTx (sendingTel true 0 [telOf 3]) 0 d = false) ∧ [telOf 3, telOf 5].Pairwise (fun a b => a.conn ≤ b.conn) := by
  unfold LinesFollow; decide +kernel

/-- Connection 63 in a state and class receives identifier 55 with WIN 3, RX_SEQ and a first telegram as given. -/
def receiving (st cl fmt : Nat) (listen : Bool) (ref : Option (Nat × Nat)) : State :=
  let s := (((((connected st cl 9000 0 0 0).set F.STE_CONNc_RXID_ID 63 55).set F.STE_CONNc_RXID_IDE 63 1).set F.STE_CONNc_CFG_FMT 63 fmt).set F.STE_CONNc_CFG_WIN 63 3).set F.STE_CONNc_SEQ_RX_SEQ 63 250
  let s := if listen then (s.set F.DEV_STATE_ROLE 0 2).set F.URED_CFG_PAIR_EN 0 1 else s
  fix (s.updConn 63 (fun x => { x with ref := ref }))
def checkFd (kind seq : Nat) : List Byte := leBytes 1 kind ++ leBytes 2 seq ++ leBytes 57 0
def checkOf (fd : Bool) (b : List Byte) : Nat := (engineCheck oper (if fd then 14 else 15) fd (cidRx 0) b).2
def received (fd : Bool) (b : List Byte) (bad : Nat) : SteFrame :=
  { (default : SteFrame) with x := 0, id := 55, ide := true, fdf := fd, ts := 539999995, data := b ++ leBytes (if fd then 4 else 3) (checkOf fd b + bad) }

/-- Length and check value of a frame for connection 63, as R334 has them. -/
def lenOk (s : State) (f : SteFrame) : Bool := let fd := !s.flag F.STE_CONNc_CFG_FMT 63; f.fdf == fd && f.data.length == (if fd then 64 else 8)
def checkOk (s : State) (f : SteFrame) : Bool :=
  let cid := cidRx (s.get F.STE_CONNc_CID_CID 63)
  if !s.flag F.STE_CONNc_CFG_FMT 63 then (engineCheck s 14 true cid (f.data.take 60)).2 == frameNum f 60 4 else (engineCheck s 15 false cid (f.data.take 5)).2 == frameNum f 5 3
def rxSeq (s : State) (f : SteFrame) : Nat := if s.flag F.STE_CONNc_CFG_FMT 63 then frameNum f 0 1 else frameNum f 1 2

/-- Telegrams of either format: of another length, with a wrong check value, of an unknown type, with every advance that R335 tells apart. -/
theorem wit_SafetyTelegrams_received :
    (∀ s ∈ [receiving 2 1 0 false none, receiving 2 1 1 false none, receiving 2 2 0 false none, receiving 2 2 0 true none, receiving 3 1 0 false none, receiving 3 1 0 false (some (250, 539400000)),
        receiving 1 1 1 false (some (250, 539399995)), receiving 1 1 1 false (some (250, 539399994))],
      LinesFollow s ∧ s.ste.conns.length = 64 ∧ connState s 63 ≠ cnFree ∧ rxName s (received true (checkFd 17 251) 0) = .conn 63)
    ∧ (∀ x ∈ [(receiving 2 1 0 false none, received true (checkFd 17 251) 0, true, true), (receiving 2 1 0 false none, received true (checkFd 17 251) 1, true, false),
        (receiving 2 1 0 false none, received false (checkFd 17 251) 0, false, false), (receiving 2 1 0 false none, received true [] 0, false, false), (receiving 2 1 0 false none, received true (checkFd 18 251) 0, true, true),
        (receiving 2 1 1 false none, received false (leBytes 1 251 ++ leBytes 4 9) 0, true, true), (receiving 2 1 1 false none, received false (leBytes 1 251 ++ leBytes 4 9) 1, true, false)],
      lenOk x.1 x.2.1 = x.2.2.1 ∧ (x.2.2.1 = true → checkOk x.1 x.2.1 = x.2.2.2))
    ∧ (frameNum (received true (checkFd 17 251) 0) 0 1 = 0x11 ∧ frameNum (received true (checkFd 18 251) 0) 0 1 = 0x12 ∧ frameNum (received true (checkFd 65 251) 0) 0 1 = 0x41)
    ∧ (∀ q ∈ [250, 251, 253, 254], let s := receiving 2 1 0 false none
      let f := received true (checkFd 17 q) 0
      lenOk s f = true ∧ checkOk s f = true ∧ rxSeq s f = q ∧ connState s 63 = cnValid ∧ s.get F.STE_CONNc_SEQ_RX_SEQ 63 = 250 ∧ s.get F.STE_CONNc_CFG_WIN 63 = 3)
    ∧ (∀ ls ∈ [true, false], let s := receiving 2 2 0 ls none
      s.get F.STE_CONNc_CFG_CLASS 63 = 2 ∧ listens s = ls ∧ checkOk s (received true (checkFd 65 251) 0) = true)
    ∧ (∀ x ∈ [(receiving 3 1 0 false none, none), (receiving 3 1 0 false (some (250, 539400000)), some (250, 539400000))], (x.1.conn 63).ref = x.2 ∧ connState x.1 63 ≠ cnValid
      ∧ ∀ q ∈ [250, 253, 254], checkOk x.1 (received true (checkFd 17 q) 0) = true)
    ∧ (∀ t ∈ [539399994, 539399995], let s := receiving 1 1 1 false (some (250, t))
      (s.conn 63).ref = some (250, t) ∧ connState s 63 ≠ cnValid ∧ lenOk s (received false (leBytes 1 251 ++ leBytes 4 9) 0) = true ∧ checkOk s (received false (leBytes 1 251 ++ leBytes 4 9) 0) = true
      ∧ 539399995 + s.get F.STE_CONNc_CFG_TEXP 63 * cycleTicks = 539999995) := by
  refine ⟨by unfold LinesFollow; decide +kernel, ?_, ?_, ?_, ?_, ?_, ?_⟩ <;> decide +kernel

/-- A standby listens: an announcement and a held connection wait for its partner's image. -/
theorem wit_SafetyTelegrams_listening :
    let s := fix (((connected 3 2 9000 0 0 0).set F.DEV_STATE_ROLE 0 2).set F.URED_CFG_PAIR_EN 0 1)
    LinesFollow s ∧ listens s = true ∧ atBoundary s = true ∧ s.counting = true ∧ coresRun s = true ∧ s.ste.conns.length = 64 ∧ listens (connected 3 2 9000 0 0 0) = false ∧ listens (announced 9999) = false := by
  unfold LinesFollow; decide +kernel

/-- The last reassertion's start, and a unit in BOOT that loads, with PAIR_EN still 0. -/
def errAt (t : Nat) : State := (at_ 7 5 oper).putLink { (at_ 7 5 oper).link with t0 := some t }

theorem wit_InterlockAndLink_times :
    (∀ t ∈ [419404, 419405], LinesFollow (errAt t) ∧ (errAt t).portsUp = true ∧ (errAt t).link.t0 = some t ∧ (errAt t).now = 419405 + 600) ∧ oper.link.t0 = none
    ∧ (∀ s ∈ [stage 2, oper], LinesFollow s ∧ s.portsUp = true ∧ s.flag F.URED_CFG_PAIR_EN = false) ∧ ((stage 2).dev = .boot ∧ (stage 2).boot.stage = 2)
    ∧ (let s := paired oper 0 0
      s.flag F.URED_CFG_PAIR_EN = true ∧ (1 : BitVec 256).toNat ≠ 0 ∧ (1 : BitVec 256).toNat ≠ digestNum s ∧ true ≠ s.flag F.URED_STATE_PREF ∧ false = s.flag F.URED_STATE_PREF) := by
  unfold LinesFollow; decide +kernel

/-- A test due while every core has run since the last boundary, or not. -/
def dueAfter (ran : Bool) : State := let s := dueTest 50; s.putSpu { s.spu with ranAll := ran }

theorem wit_VoterAndCores_periodic :
    (∀ r ∈ [true, false], LinesFollow (dueAfter r) ∧ atBoundary (dueAfter r) = true ∧ coresRun (dueAfter r) = true ∧ (dueAfter r).dev = .oper ∧ (dueAfter r).spu.ptDue = some 50 ∧ (dueAfter r).cycle = 50
      ∧ (dueAfter r).spu.ranAll = r ∧ (∀ k, k < 3 → coreSt (dueAfter r) k = 0) ∧ (dueAfter r).get F.SPU_PT_NEXT < 3)
    ∧ (let s := (dueAfter true).set F.SPU_CORE_CORE0_ST 0 3
      LinesFollow s ∧ atBoundary s = true ∧ coresRun s = true ∧ s.dev = .oper ∧ s.spu.ptDue = some 50 ∧ coreSt s 0 ≠ 0) := by
  unfold LinesFollow; decide +kernel

/-- A shadow set of port A that waits for its commit, and which of its checks fail. -/
def committed (s : State) (set : List (Nat × Nat)) : State := fix ((s.updHost 0 (fun h => { h with shadow := set })).set (F.CFG_COMMIT_STAT_STATE.port 0) 0 1)
def commitFailing (s : State) : Bool × Bool × Bool :=
  let set := (s.host 0).shadow
  let bad := fun (rs : List Rule) => (firstBad (set.map (·.1)) rs).isSome
  (bad (rangeRules (withSet s set)), bad (missingRules s (withSet s set) (set.map (·.1))), bad (groupRules s (withSet s set) false))
/-- Thresholds of channel 2 in their order, and GQ_LEVEL. -/
def goodSet : List (Nat × Nat) := [(0x40108, 0x20004000), (0xB0010, 1)]

theorem wit_FabricAndConfiguration_commits :
    (∀ x ∈ [(oper, [(0x40304, 0)], true, false, false), (oper, [(0x20108, 3)], false, true, true), (oper, [(0x40108, 0x4000)], false, false, true), (oper, goodSet, false, false, false), (safe, goodSet, false, false, false),
        (stby, goodSet, false, false, false)],
      let s := committed x.1 x.2.1
      LinesFollow s ∧ s.portsUp = true ∧ commitState s 0 = 1 ∧ (s.host 0).shadow = x.2.1 ∧ commitFailing s = x.2.2 ∧ s.points.length = 24 ∧ s.flag F.SPU_STATUS_HALTED = false)
    ∧ safe.dev = .safe ∧ stby.role = .standby ∧ stby.dev = .oper ∧ oper.dev = .oper ∧ oper.role ≠ .standby
    ∧ (goodSet.map (·.1)).Nodup ∧ (∀ j, j < 24 → 0xB0010 ∉ pendRegs j) ∧ (pendRegs 1).any (fun a => (goodSet.map (·.1)).contains a) = true ∧ (pendRegs 2).any (fun a => (goodSet.map (·.1)).contains a) = false
    ∧ (∀ d ∈ (regAt 0xB0010).toList, d.fields.any (fun f => f.2 == .shadow) = true) ∧ (regAt 0xB0010).isSome = true := by
  refine ⟨by unfold LinesFollow; decide +kernel, ?_⟩
  decide +kernel

theorem wit_FabricAndConfiguration_starts :
    (∀ st ∈ [0, 3, 4], let s := fix (comm.set F.CFG_UP_STAT_STATE 0 st)
      LinesFollow s ∧ s.portsUp = true ∧ s.dev = .comm ∧ upState s ≠ 1 ∧ upState s ≠ 2) ∧ (∀ g ∈ [0, 1, 2], (BitVec.ofNat 2 g).toNat < 3)
    ∧ ∀ st ∈ [1, 2], upState (uploading st 0 [] []) = st ∧ (uploading st 0 [] []).get F.CFG_UP_STAT_UP_PORT ≠ HPort.a.toNat ∧ (uploading st 0 [] []).get F.CFG_UP_STAT_UP_PORT = HPort.b.toNat := by
  unfold LinesFollow; decide +kernel

/-! ### Single steps and operations, their results worked out by hand from the rules -/

/-- The queue's front runs first (log entry 1); an empty queue idles one tick (log entry 2). -/
theorem test_step_takes_front :
    (match step (oper.putPending [.semTake .a 31 1, .freeOwn .b]) with | .next t => t.pending == [.freeOwn .b] && t.get F.HPS_SEMk_OWNER 31 == 1 | _ => false) = true := by
  decide +kernel
theorem test_step_idles : (match step (at_ 7 5 oper) with | .next t => t.now == 420006 && t.pending == [] | _ => false) = true := by decide +kernel

/-- R323: 0x07 from a register of 0 and the byte 0x01, or 0x80 reflected; register 0 stays 0 under the byte 0. -/
theorem test_cvuByte : cvuByte 8 0x07 false 0 0x01 = 0x07 ∧ cvuByte 8 0x07 true 0 0x80 = 0x07 ∧ cvuByte 8 0x07 false 0 0 = 0 := by decide +kernel
theorem test_cvu_start_releases : after (.cvuStart .a 11) (channel 2 16 0 0) (fun t => t.get F.CVU_CHn_CTX_CTX 11 == 0xFFFF && t.get F.CVU_CHn_STAT_CLAIM 11 == 0) = true := by
  decide +kernel

/-- R276: twice the base point of P-256, as published with the curve's test points. -/
theorem test_ecMul_two : (ecMul (some g256) 2 2).map (·.1) = some 0x7CF27B188D034F7E8A52380304B51AC3C08969E277F21B35A60B48FC47669978 := by decide +kernel

/-- R191: the same bits plain and in Gray code. -/
theorem test_raw_plain : rawOf (encPort2 1) 2 encBits = 2873 := by decide +kernel
theorem test_raw_gray : rawOf ((encPort2 1).set F.DENC_PORTn_FRAME_CODE 2 1) 2 encBits = 3537 := by decide +kernel

/-- R162: an entering passage, and two at the limit. -/
theorem test_section_counts : (moveSec (counted 3 1) 47 [(0, true)]).1.get F.SECT_n_CNT_COUNT 47 = 4 := by decide +kernel
theorem test_section_overflow :
    let t := (moveSec (counted 4094 1) 47 [(5, true), (2, true)]).1
    t.get F.SECT_n_CNT_COUNT 47 = 4095 ∧ t.get F.SECT_n_STATE_CAUSE 47 = 6 ∧ t.get F.SECT_n_STATE_CAUSE_CP 47 = 2 := by decide +kernel

/-- R278: antivalent levels one sample later. -/
theorem test_pair_antivalent : after (.pairInputChange 15 true false) (pairIn 0 0 false false) (fun t => t.get F.SIO_INj_STAT_VALUE 15 == 1 && t.now == 426000) = true := by
  decide +kernel
/-- R291: an overload of a closed switch opens it. -/
theorem test_overload_opens : after (.overload 11) (drive 7 5 1 0) (fun t => t.lines.sout == 0 && t.get F.SIO_OUTk_STAT_FAULT_KIND 11 == 3) = true := by decide +kernel
/-- R316: an error of a receiver. -/
theorem test_can_rx_error : after (.canError 1 (errOf .rxError)) (can oper 0 1) (fun t => t.get (F.CANx_ERR_REC.can 1) == 1 && t.get (F.CANx_ERR_LEC.can 1) == 2) = true := by
  decide +kernel
/-- R312: a frame of one byte in its buffer, with its identifier. -/
theorem test_can_stores :
    after (.canFrameReceived 1 (frameOf 0x123)) (filtered 0 0 0) (fun t => t.get (F.CANx_BUFb_W0_ID.can 1) 63 == 0x123 * 2 ^ 18 && t.get (F.CANx_BUFb_W1_DLC.can 1) 63 == 1
      && t.flag (F.CANx_BUFCTRLb_FULL.can 1) 63) = true := by decide +kernel
/-- R336: a connection older than TEXP lapses. -/
theorem test_conn_lapses : after (.connLapse 63) (connected 2 1 9000 3 0 0) (fun t => connState t 63 == 3 && t.flag F.STE_STATUS_LAPSE_NEW) = true := by decide +kernel
/-- R344, R345: INTLK_IN rises while INTLK_OUT is asserted. -/
theorem test_intlk_yields : after (.intlkInChange true) (asserting 0 1) (fun t => t.role == .standby && t.get F.URED_STATUS_YIELDED == 1) = true := by decide +kernel
/-- R398, R406: a pulse of 5 us on RESET_N is cause 2. -/
theorem test_reset_pin : after (.resetPin 50) (powered true) (fun t => t.get F.CRU_RST_CAUSE_CAUSE == 2 && t.get F.CRU_RST_CAUSE_RESETS == 1) = true := by decide +kernel
/-- R403: the lowest count in the window, and one below it. -/
theorem test_monitor_in : after (.monitorWindow false 6021 none) oper (fun t => t.get F.CRU_CLK_MONA_ST == 0 && t.get F.CRU_MONA_COUNT == 6021) = true := by decide +kernel
theorem test_monitor_out : after (.monitorWindow false 6020 none) oper (fun t => t.get F.CRU_CLK_MONA_ST == 2 && t.flag F.CRU_CLK_CLK_SQ) = true := by decide +kernel
/-- R255: the odd core of three. -/
theorem test_voter_masks : after (.voterTransaction (lanes 1 2 1)) (cores 4 1 0 0 0) (fun t => coreSt t 1 == 1 && t.get F.SPU_MM_INFO_CORE == 1) = true := by decide +kernel
/-- R224: a corrected word is counted with its place. -/
theorem test_scrub_single :
    after (.scrubWord (.single 71)) (scrubbing 4 1 524286) (fun t => t.get F.FAB_SCRUB_WORD == 524287 && t.get F.FAB_CE_LAST_WORD == 524286 && t.get F.FAB_CE_LAST_BIT == 71) = true := by
  decide +kernel
/-- R227: the configuration memory is written in COMMISSIONING, little-endian. -/
theorem test_cfg_write : after (.cfgMemWrite .a 0x300000 0x11223344) comm (fun t => t.byte 0x300000 == 0x44 && t.byte 0x300003 == 0x11) = true := by decide +kernel
/-- R160: POP of an empty queue leaves everything. -/
theorem test_pop_empty : after (.pop .a) oper (fun t => t.ledger == oper.ledger) = true := by decide +kernel
/-- R368: the bits 7:6 of the first byte spell the command, bits 5:0 the count less 1; a frame of no byte spells none. -/
theorem test_frame_read_fix : frameCommand .b [0x41, 0x20, 0x00, 0x04, 0xAB, 0xCD] true = some (.readFix .b 1 0x200004 0xABCD) := by decide
theorem test_frame_write_inc :
    frameCommand .a [0x80, 0x03, 0x00, 0x00, 0x11, 0x22, 0x33, 0x44, 0x00, 0x01] true = some (.writeInc .a 0 0x30000 [0x11223344] 1 true) := by decide
theorem test_frame_write_fix_cut : frameCommand .a [0xC0, 0x03, 0x00, 0x00, 0x00, 0x01] false = some (.writeFix .a 0 0x30000 [] 1 false) := by decide
theorem test_frame_repeat : frameCommand .a [0x00, 0xFF, 0xFF, 0xFF, 0x00, 0x02] true = some (.repeatResponse .a 0 2) := by decide
theorem test_frame_empty : frameCommand .a [] true = none := by decide
/-- No row of the table has bits. -/
theorem test_no_bits : decodeTableWord 32 0 = none := rfl

end Sys2Proof.Tests
end

section
/-!
SUPPORT. The accesses of a host port that answers, as the meanings of Instr use them: which branch of `writeWord` and `readWord` a register
takes, the response to a read, and the effects of an access that leave the drive steady.
-/

namespace Sys2Proof.Machine

/-! ### Register accesses of a host port that answers -/

/-- A word written by a port that answers to a register below the window. -/
theorem hostWrite_register {s : State} {p : HPort} {a v : Nat} {d : RegDesc} (up : s.portsUp = true) (al : a % 4 = 0)
    (lo : a < 0x1E0000) (reg : regAt a = some d) : hostWrite s p a v = writeRegAt s p a d v := by
  have h1 : ¬(0x200000 ≤ a ∧ a < 0x600000) := by omega
  have h2 : ¬(0x600000 ≤ a ∧ a < 0xA00000) := by omega
  have h3 : ¬(0x1E0000 ≤ a ∧ a < 0x1F0000) := by omega
  simp [hostWrite, gate, writeWord, up, al, h1, h2, h3, reg]

/-- A word read by a port that answers from a register below the window. -/
theorem readWord_register {s : State} {p : HPort} {a : Nat} {d : RegDesc} (al : a % 4 = 0) (lo : a < 0x1E0000)
    (reg : regAt a = some d) : readWord s p a = readRegAt s p a d := by
  have h1 : ¬(0x200000 ≤ a ∧ a < 0x670000) := by omega
  have h2 : ¬(0x680000 ≤ a ∧ a < 0x6C0000) := by omega
  have h3 : ¬(0x670000 ≤ a ∧ a < 0xA00000) := by omega
  have h4 : ¬(0x1E0000 ≤ a ∧ a < 0x1F0000) := by omega
  simp [readWord, al, h1, h2, h3, h4, reg]

theorem State.updHost_updHost (s : State) (n : Nat) (f g : PortState → PortState) :
    (s.updHost n f).updHost n g = s.updHost n (fun h => g (f h)) := by
  simp only [State.updHost, upd, List.modify_modify_eq]
  rfl

/-- The response to one word read by a port that answers, on the state that the read leaves. -/
theorem hostRead_eq {s t : State} {p : HPort} {a w : Nat} (up : s.portsUp = true) (rd : readWord s p a = (t, w)) :
    hostRead s p a = t.readBack p a w := by
  simp [hostRead, respond, up, rd, State.updHost_updHost, State.readBack]

/-! ### Effects that leave the drive steady -/

theorem DriveSteady.updHost {s : State} (h : DriveSteady s) (n : Nat) (f : PortState → PortState) :
    DriveSteady (s.updHost n f) := h

/-- An access error leaves the drive steady. -/
theorem DriveSteady.accErr {s : State} (h : DriveSteady s) (p : HPort) (a : Nat) (w : Bool) (k : AccKind) :
    DriveSteady (s.accErr p a w k) := by
  have e1 := h.set (f := F.HPS_STATUS_ACC_ERR.port p.toNat) (i := 0) (v := 1) (by cases p <;> decide)
  have e2 := fun v => e1.set (f := F.HPS_CNT_ACC_CNT.port p.toNat) (i := 0) (v := v) (by cases p <;> decide)
  unfold State.accErr
  dsimp only
  split
  · exact e2 _
  · exact ((((e2 _).set (by cases p <;> decide)).set (by cases p <;> decide)).set (by cases p <;> decide)).set
      (by cases p <;> decide)

/-- A register that joins a shadow set leaves the drive steady. -/
theorem DriveSteady.shadowPut {s : State} (h : DriveSteady s) (p : HPort) (ws : List (Nat × Nat)) :
    DriveSteady (shadowPut s p.toNat ws) :=
  (h.updHost p.toNat _).set (by cases p <;> decide)

end Sys2Proof.Machine
end

section
/-!
PROOFS. The 40-bit pairs (R10, R11): what a write of either half and a read of NAME_L, POS_L and CRU_TIME_L do. Settles O11 and O12.
-/

namespace Sys2Proof.Machine

/-! ### 40-bit pairs written (R11) -/

theorem writeRegAt_pairHigh {s : State} {p : HPort} {a v : Nat} {d : RegDesc} (cmd : commandWrite s p a d v = none)
    (hi : pairHigh a = true) (wr : pairWritable d = true) : writeRegAt s p a d v = stageHigh s p a v := by
  simp [writeRegAt, cmd, hi, wr]

theorem writeRegAt_pairLow {s : State} {p : HPort} {a v : Nat} {d : RegDesc} (cmd : commandWrite s p a d v = none)
    (hi : pairHigh a = false) (lo : pairLow a = true) (wr : pairWritable d = true) :
    writeRegAt s p a d v = writePair s p a d v := by
  simp [writeRegAt, cmd, hi, lo, wr]

/-- NAME_L without a staged NAME_H. -/
theorem writePair_unstaged {s : State} {p : HPort} {a v : Nat} {d : RegDesc}
    (no : (s.host p.toNat).staged.find? (fun x => x.1 == a + 4) = none) : writePair s p a d v = s.accErr p a true .half := by
  simp [writePair, no]

/-- A word changes no field of a class that the register does not hold. -/
theorem changes_of_not_hasCls {s : State} {d : RegDesc} {c : Cls} {v : Nat} (h : hasCls d c = false) : changes s d c v = false := by
  simp only [hasCls, changes, List.any_eq_false, Bool.and_eq_true, not_and] at h ⊢
  exact fun x hx hc => absurd hc (h x hx)

/-- NAME_L of a SHADOW pair, NAME_H staged. -/
theorem writePair_shadow {s : State} {p : HPort} {a v hi : Nat} {d dh : RegDesc}
    (st : (s.host p.toNat).staged.find? (fun x => x.1 == a + 4) = some (a + 4, hi)) (reg : regAt (a + 4) = some dh)
    (sh : hasCls d .shadow = true) (nd : hasCls d .static = false) (nh : hasCls dh .static = false)
    (idle : commitState s p.toNat ≠ cmWaiting) :
    writePair s p a d v = (shadowPut s p.toNat [(a + 4, hi), (a, v)]).updHost p.toNat
      (fun h => { h with staged := storeErase h.staged (a + 4) }) := by
  simp [writePair, st, reg, sh, idle, changes_of_not_hasCls nd, changes_of_not_hasCls nh]

/-- Settles O11: each write is one branch of `writeRegAt`, and none of the three effects touches the drive. -/
theorem pairWrites : Obligations.PairWrites := by
  intro s p a v d lines up al lo reg wr cmd
  have hw : hostWrite s p a.toNat v.toNat = writeRegAt s p a.toNat d v.toNat := hostWrite_register up al lo reg
  refine ⟨fun hi => ?_, fun low high no => ?_, fun hi dh low high st regH sh nd nh idle => ?_⟩
  · exact answers_of (congrArg (answer s) (hw.trans (writeRegAt_pairHigh cmd hi wr))) (lines.steady.updHost _ _)
  · exact answers_of (congrArg (answer s) (hw.trans ((writeRegAt_pairLow cmd high low wr).trans (writePair_unstaged no))))
      (lines.steady.accErr _ _ _ _)
  · exact answers_of (congrArg (answer s) (hw.trans ((writeRegAt_pairLow cmd high low wr).trans
      (writePair_shadow st regH sh nd nh idle)))) ((lines.steady.shadowPut _ _).updHost _ _)

/-! ### Halves captured by a read (R10) -/

theorem State.captured_captured (s : State) (p : HPort) (l m : List (Nat × Nat)) :
    (s.captured p l).captured p m = s.captured p (l ++ m) := by
  simp only [State.captured, State.updHost_updHost, List.foldl_append]

theorem capture_eq {s : State} {p : HPort} {a : Nat} {d : RegDesc} (reg : regAt a = some d) :
    capture s p a = s.captured p [(a, viewWord s p.toNat a d)] := by
  simp [capture, reg, State.captured]

/-- A read of a NAME_L returns its value and captures what belongs to it. -/
theorem readRegAt_pairLow {s : State} {p : HPort} {a : Nat} {d : RegDesc} (low : pairLow a = true)
    (ts : encAt 0x80128 a = false) : readRegAt s p a d = (captureLow s p a, viewWord s p.toNat a d) := by
  simp [readRegAt, low, ts]

/-- What a read of NAME_L captures, but for POS_L and CRU_TIME_L. -/
theorem captureLow_pair {s : State} {p : HPort} {a : Nat} {dh : RegDesc} (regH : regAt (a + 4) = some dh)
    (time : a ≠ 0x130014) (pos : encAt 0x80120 a = false) :
    captureLow s p a = s.captured p [(a + 4, viewWord s p.toNat (a + 4) dh)] := by
  simp [captureLow, time, pos, capture_eq regH]

/-- A read of a register leaves the drive steady where it captures halves only. -/
theorem DriveSteady.readBack {s : State} (h : DriveSteady s) (p q : HPort) (l : List (Nat × Nat)) (a w : Nat) :
    DriveSteady ((s.captured p l).readBack q a w) := (h.updHost p.toNat _).updHost q.toNat _

/-! ### Registers of one field that fills them from bit 0 -/

/-- The register at `a` whose one field, of `w` bits from bit 0 up, is read-only. -/
def oneField (a w : Nat) : RegDesc := ⟨a, [], false, [(⟨8 * a, 0, w⟩, .ro)]⟩

theorem storedWord_oneField (s : State) (p a w : Nat) : storedWord s p (oneField a w) = s.get ⟨8 * a, 0, w⟩ := by
  simp [storedWord, oneField, portFld]

/-- POS_L, POS_H, TS_L and TS_H of each encoder port. -/
theorem regAt_encoder (n : Fin 4) :
    regAt (0x80120 + 64 * n.val) = some (oneField (0x80120 + 64 * n.val) 32)
    ∧ regAt (0x80124 + 64 * n.val) = some (oneField (0x80124 + 64 * n.val) 8)
    ∧ regAt (0x80128 + 64 * n.val) = some (oneField (0x80128 + 64 * n.val) 32)
    ∧ regAt (0x8012C + 64 * n.val) = some (oneField (0x8012C + 64 * n.val) 8) := by
  revert n; decide +kernel

/-- The address of a POS_L names no other kind of read. -/
theorem posLow_address (n : Fin 4) :
    pairLow (0x80120 + 64 * n.val) = true ∧ encAt 0x80120 (0x80120 + 64 * n.val) = true
    ∧ encAt 0x80128 (0x80120 + 64 * n.val) = false := by
  revert n; decide +kernel

/-- Registers of the encoder block show their stored fields. -/
theorem viewWord_encoder (s : State) (p : Nat) (base w : Nat) (n : Fin 4) (h : 0x80000 ≤ base ∧ base + 256 ≤ 0x90000) :
    viewWord s p (base + 64 * n.val) (oneField (base + 64 * n.val) w) = s.get ⟨base * 8, 512, w⟩ n.val := by
  have block : canFold (base + 64 * n.val) / 0x10000 = 0x08 := by
    have := n.isLt
    unfold canFold
    split <;> omega
  have key : (⟨8 * (base + 64 * n.val), 0, w⟩ : Fld).key 0 = (⟨base * 8, 512, w⟩ : Fld).key n.val := by
    simp only [Fld.key]; omega
  simp only [viewWord, viewed, block, storedWord_oneField, State.get, key]

/-- A read of POS_L captures the other three halves of its frame. -/
theorem captureLow_posLow (s : State) (p : HPort) (n : Fin 4) :
    captureLow s p (0x80120 + 64 * n.val) = s.captured p [(0x80124 + 64 * n.val, s.get F.DENC_PORTn_POS_H_POS n.val),
      (0x80128 + 64 * n.val, s.get F.DENC_PORTn_TS_L_TS n.val), (0x8012C + 64 * n.val, s.get F.DENC_PORTn_TS_H_TS n.val)] := by
  obtain ⟨-, regPosH, regTsL, regTsH⟩ := regAt_encoder n
  obtain ⟨-, pos, -⟩ := posLow_address n
  have time : 0x80120 + 64 * n.val ≠ 0x130014 := by omega
  have e4 : 0x80120 + 64 * n.val + 4 = 0x80124 + 64 * n.val := by omega
  have e8 : 0x80120 + 64 * n.val + 8 = 0x80128 + 64 * n.val := by omega
  have e12 : 0x80120 + 64 * n.val + 12 = 0x8012C + 64 * n.val := by omega
  rw [captureLow, if_neg time, if_pos pos, e4, e8, e12, capture_eq regPosH, capture_eq regTsL, capture_eq regTsH,
    viewWord_encoder _ _ 0x80124 8 n (by decide), viewWord_encoder _ _ 0x80128 32 n (by decide),
    viewWord_encoder _ _ 0x8012C 8 n (by decide), State.captured_captured, State.captured_captured]
  rfl

/-! ### The time (R405) -/

theorem regAt_time : regAt 0x130014 = some (oneField 0x130014 32) ∧ regAt 0x130018 = some (oneField 0x130018 8)
    ∧ regAt 0x13001C = some (oneField 0x13001C 32) := by
  decide +kernel

theorem viewWord_timeLow (s : State) (p : Nat) : viewWord s p 0x130014 (oneField 0x130014 32) = ts40 s.now % 2 ^ 32 := by
  have v : viewed s p 0x130014 = s.set F.CRU_TIME_L_TIME 0 (ts40 s.now % 2 ^ 32) := rfl
  rw [viewWord, v, storedWord_oneField]
  exact (State.get_set_self s F.CRU_TIME_L_TIME 0 _).trans (Nat.mod_mod _ _)

theorem viewWord_timeHigh (s : State) (p : Nat) : viewWord s p 0x130018 (oneField 0x130018 8) = ts40 s.now / 2 ^ 32 := by
  have v : viewed s p 0x130018 = s.set F.CRU_TIME_H_TIME 0 (ts40 s.now / 2 ^ 32) := rfl
  have lt : ts40 s.now / 2 ^ 32 < 2 ^ 8 := by unfold ts40; omega
  rw [viewWord, v, storedWord_oneField]
  exact (State.get_set_self s F.CRU_TIME_H_TIME 0 _).trans (Nat.mod_eq_of_lt lt)

theorem viewWord_epoch (s : State) (p : Nat) : viewWord s p 0x13001C (oneField 0x13001C 32) = epochOf s.now % 2 ^ 32 := by
  have v : viewed s p 0x13001C = s.set F.CRU_EPOCH_EPOCH 0 (epochOf s.now) := rfl
  rw [viewWord, v, storedWord_oneField]
  exact State.get_set_self s F.CRU_EPOCH_EPOCH 0 _

/-- A read of CRU_TIME_L captures the timestamp's high byte and the epoch. -/
theorem captureLow_timeLow (s : State) (p : HPort) :
    captureLow s p 0x130014 = s.captured p [(0x130018, ts40 s.now / 2 ^ 32), (0x13001C, epochOf s.now % 2 ^ 32)] := by
  obtain ⟨-, regH, regE⟩ := regAt_time
  rw [captureLow, if_pos rfl, capture_eq regH, capture_eq regE, State.captured_captured, viewWord_timeHigh, viewWord_epoch]
  rfl

/-- A port's read that captures `l` and returns `w` answers with just that. -/
theorem pairLow_answers {c : Instr} {s : State} {p : HPort} {a w : Nat} {d : RegDesc} {l : List (Nat × Nat)}
    (lines : LinesFollow s) (up : s.portsUp = true) (ex : exec c s = answer s (hostRead s p a)) (al : a % 4 = 0)
    (lo : a < 0x1E0000) (reg : regAt a = some d) (low : pairLow a = true) (ts : encAt 0x80128 a = false)
    (cap : captureLow s p a = s.captured p l) (val : viewWord s p.toNat a d = w) :
    Answers c s ((s.captured p l).readBack p a w) := by
  have rd : readWord s p a = (s.captured p l, w) := by
    rw [readWord_register al lo reg, readRegAt_pairLow low ts, cap, val]
  rw [hostRead_eq up rd] at ex
  exact answers_of ex (lines.steady.readBack _ _ _ _ _)

/-- Settles O12: each read is the branch of `readRegAt` for a NAME_L, whose captures are one update of the reading port. -/
theorem pairReadsCapture : Obligations.PairReadsCapture := by
  intro s p lines up
  refine ⟨fun a d dh al lo reg regH low time pos ts => ?_, fun n => ?_, ?_⟩
  · exact pairLow_answers lines up rfl al lo reg low ts (captureLow_pair regH time pos) rfl
  · obtain ⟨low, -, ts⟩ := posLow_address n
    obtain ⟨reg, -⟩ := regAt_encoder n
    exact pairLow_answers lines up rfl (by omega) (by omega) reg low ts (captureLow_posLow s p n)
      (viewWord_encoder s p.toNat 0x80120 32 n (by decide))
  · exact pairLow_answers lines up rfl (by decide) (by decide) regAt_time.1 (by decide) (by decide) (captureLow_timeLow s p)
      (viewWord_timeLow s p.toNat)

end Sys2Proof.Machine
end

section
/-!
SUPPORT. States that differ in some registers alone, and when such writes leave the drive steady.
-/

namespace Sys2Proof.Machine

/-! ### Writes confined to some bit addresses -/

/-- `t` differs from `s` in registers alone, and there at bit addresses alone that `w` admits. -/
structure WritesOnly (w : Nat → Bool) (s t : State) : Prop where
  regs : ∀ k, w k = false → storeGet 0 t.regs k = storeGet 0 s.regs k
  rest : t = { s with regs := t.regs }

namespace WritesOnly

variable {w v : Nat → Bool} {s t u : State}

theorem refl (w : Nat → Bool) (s : State) : WritesOnly w s s := ⟨fun _ _ => rfl, rfl⟩

theorem trans (a : WritesOnly w s t) (b : WritesOnly w t u) : WritesOnly w s u :=
  ⟨fun k h => (b.regs k h).trans (a.regs k h), b.rest.trans (congrArg (fun x : State => { x with regs := u.regs }) a.rest)⟩

theorem mono (h : WritesOnly v s t) (le : ∀ k, w k = false → v k = false) : WritesOnly w s t :=
  ⟨fun k hk => h.regs k (le k hk), h.rest⟩

theorem set (h : WritesOnly w s t) {f : Fld} {i : Nat} (hf : w (f.key i) = true) (x : Nat) : WritesOnly w s (t.set f i x) :=
  h.trans ⟨fun k hk => State.regs_set_ne t x (fun e => by rw [e, hf] at hk; exact Bool.noConfusion hk), rfl⟩

theorem ite {c : Prop} [Decidable c] (ht : WritesOnly w s t) (hu : WritesOnly w s u) : WritesOnly w s (if c then t else u) := by
  split
  · exact ht
  · exact hu

theorem foldl {α : Type} (l : List α) (g : State → α → State) (h : ∀ t, ∀ x ∈ l, WritesOnly w t (g t x)) (s : State) :
    WritesOnly w s (l.foldl g s) := by
  induction l generalizing s with
  | nil => exact refl w s
  | cons x l ih => exact (h s x (by simp)).trans (ih (fun t y hy => h t y (by simp [hy])) (g s x))

/-- What reads no register reads the same. -/
theorem reads {α : Type} (h : WritesOnly w s t) (g : State → α) (hg : ∀ (x : State) r, g { x with regs := r } = g x) : g t = g s := by
  rw [h.rest, hg]

theorem get (h : WritesOnly w s t) {f : Fld} {i : Nat} (hf : w (f.key i) = false) : t.get f i = s.get f i := h.regs _ hf

theorem flag (h : WritesOnly w s t) {f : Fld} {i : Nat} (hf : w (f.key i) = false) : t.flag f i = s.flag f i := by
  unfold State.flag; rw [h.get hf]

/-- Writes that spare what the conditions of R53 read leave the drive steady. -/
theorem steady (h : WritesOnly w s t) (lines : LinesFollow s) (hw : ∀ k, drivesSource k = true → w k = false) : DriveSteady t := by
  have e (f : Fld) (hf : drivesSource (f.key 0) = true) : t.get f 0 = s.get f 0 := h.get (hw _ hf)
  refine DriveSteady.of_eq lines (h.reads State.lines fun _ _ => rfl) ?_
  unfold srcMay intlkActive trainRuns State.role State.dev State.flag
  rw [e F.DEV_STATE_ROLE (by decide), e F.DEV_STATE_STATE (by decide), e F.SPU_STATUS_HALTED (by decide),
    e F.URED_STATE_LINK_UP (by decide), h.reads State.ext fun _ _ => rfl, h.reads State.now fun _ _ => rfl,
    h.reads State.spu fun _ _ => rfl, h.reads State.boot fun _ _ => rfl]

end WritesOnly

end Sys2Proof.Machine
end

section
/-!
SUPPORT. What a W1C write does (R15): which conditions `reassert` sets again, what the clear leaves, and, for the status registers,
what a flag reads after the command.
-/

namespace Sys2Proof.Machine

/-! ### The conditions that set their flags again (R15, log entry 51) -/

/-- One of `n` flags stands. -/
def anyFlag (s : State) (n : Nat) (f : Fld) : Bool := (List.range n).any (fun i => s.flag f i)

theorem anyFlag_iff {s : State} {n : Nat} {f : Fld} : anyFlag s n f = true ↔ ∃ i, i < n ∧ s.flag f i = true := by
  simp only [anyFlag, List.any_eq_true, List.mem_range]

/-- The flags that stand for a lasting condition, with the conditions as `s` has them. -/
def heldFlags (s : State) : List (Bool × Fld) :=
  [(decide (s.get F.JRN_GQ_LEVEL_GQ_THRESH ≠ 0 ∧ s.get F.JRN_GQ_LEVEL_GQ_THRESH ≤ s.gustCount), F.JRN_STATUS_GQ_LEVEL),
   (anyFlag s 24 F.WEV_SPn_STATE_HYST_LOW_A || anyFlag s 24 F.WEV_SPn_STATE_HYST_LOW_B, F.WEV_STATUS_HYST_LOW),
   (anyFlag s 48 F.MEAS_CHn_CFG_DRIFT, F.MEAS_STATUS_DRIFT), (anyFlag s 48 F.SUP_CHn_VISIT_STALE, F.SUP_STATUS_STALE_ANY),
   (!s.tone.xbar.isEmpty, F.EXC_MON_XBAR_ERR), (s.fab.ue, F.FAB_STATUS_UE)]
  ++ lasting s
  ++ [(s.flag F.CFG_STATUS_SEAL_CHG && sealDiffers s, F.CFG_STATUS_SEAL_CHG),
   (s.flag F.CRU_STATUS_VIN_LOW && decide (s.get F.CRU_VIN_VIN < 900), F.CRU_STATUS_VIN_LOW),
   (s.tl.lapsed && s.flag F.TLNK_CFG_EN, F.TLNK_STATUS_RX_LAPSE)]

/-- Their fields. -/
def heldFields : List Fld :=
  [F.JRN_STATUS_GQ_LEVEL, F.WEV_STATUS_HYST_LOW, F.MEAS_STATUS_DRIFT, F.SUP_STATUS_STALE_ANY, F.EXC_MON_XBAR_ERR, F.FAB_STATUS_UE,
   F.CRU_STATUS_MONA_FAIL, F.CRU_STATUS_MONB_FAIL, F.CANx_STATUS_LOST.can 0, F.CANx_STATUS_LOST.can 1, F.URED_STATUS_HB_LOST,
   F.URED_STATUS_PARTNER_LOST, F.URED_STATUS_TO_BLOCKED, F.URED_STATUS_DIVERGE, F.CFG_STATUS_SEAL_CHG, F.CRU_STATUS_VIN_LOW,
   F.TLNK_STATUS_RX_LAPSE]

theorem heldFlags_fields (s : State) : (heldFlags s).map (·.2) = heldFields := rfl

/-- Some condition of the list that holds stands for the field. -/
def raisedBy (l : List (Bool × Fld)) (f : Fld) : Bool := l.any (fun x => x.2.key 0 == f.key 0 && x.1)

/-- A condition of the list raises its own flag, which stands for no other. -/
theorem raisedBy_heldFlags {s : State} {b : Bool} {f : Fld} (h : (b, f) ∈ heldFlags s) : raisedBy (heldFlags s) f = b := by
  have apart : ((heldFlags s).map (fun x => x.2.key 0)).Nodup := by
    have fields : (heldFlags s).map (fun x => x.2.key 0) = heldFields.map (fun g => g.key 0) := rfl
    rw [fields]; decide
  rw [Bool.eq_iff_iff, raisedBy, List.any_eq_true]
  refine ⟨fun ⟨x, hx, key⟩ => ?_, fun hb => ⟨_, h, by simpa using hb⟩⟩
  obtain ⟨same, holds⟩ := Bool.and_eq_true_iff.mp key
  rwa [List.inj_on_of_nodup_map apart hx h (eq_of_beq same)] at holds

/-- A field that no condition stands for is not raised. -/
theorem raisedBy_heldFlags_other {s : State} {f : Fld} (h : ∀ g ∈ heldFields, g.key 0 ≠ f.key 0) :
    raisedBy (heldFlags s) f = false := by
  rw [← heldFlags_fields s, List.forall_mem_map] at h
  simp only [raisedBy, List.any_eq_false, Bool.and_eq_true, beq_iff_eq, not_and]
  exact fun x hx key => absurd key (h x hx)

/-- The bit addresses beside them that a W1C write may set or clear: the queue's count, clamps, drift checks, announcements,
bit timings, the further clashes of an identifier. -/
def besideHeld : List Nat :=
  [F.JRN_GQ_LEVEL_COUNT.key 0, F.EXC_CLAMPk_CLAMP.key 0, F.EXC_CLAMPk_CLAMP.key 1, F.EXC_CLAMPk_CLAMP.key 2,
   F.DENC_STATUS_DRIFT_FAIL.key 0, F.STE_STATUS_ANN_NEW.key 0, (F.CANx_STATUS_TIMING_ERR.can 0).key 0,
   (F.CANx_STATUS_TIMING_ERR.can 1).key 0, (F.CANx_IDCLASH_MULTI.can 0).key 0, (F.CANx_IDCLASH_MULTI.can 1).key 0]

/-- The bit addresses that the conditions read, and those of R53. -/
def heldReads : List Nat :=
  [F.JRN_GQ_STAT_WR, F.JRN_GQ_STAT_RD, F.JRN_GQ_LEVEL_GQ_THRESH, F.CRU_CLK_MONA_ST, F.CRU_CLK_MONB_ST, F.CANx_ERR_LOST.can 0,
   F.CANx_ERR_LOST.can 1, F.URED_STATE_CLAIM, F.URED_STATUS_FORCE_STOP, F.CFG_SEAL_READ_UNSETTLED, F.CFG_SEAL_READ_SEAL, F.CRU_VIN_VIN,
   F.TLNK_CFG_EN, F.DEV_STATE_ROLE, F.DEV_STATE_STATE, F.SPU_STATUS_HALTED, F.URED_STATE_LINK_UP].map (·.key 0)
  ++ (List.range 24).map F.WEV_SPn_STATE_HYST_LOW_A.key ++ (List.range 24).map F.WEV_SPn_STATE_HYST_LOW_B.key
  ++ (List.range 48).map F.MEAS_CHn_CFG_DRIFT.key ++ (List.range 48).map F.SUP_CHn_VISIT_STALE.key

/-- Writes that spare what the conditions read. -/
def Spares (w : Nat → Bool) : Prop := ∀ k ∈ heldReads, w k = false

namespace WritesOnly

variable {w : Nat → Bool} {s t : State}

theorem gustCount (h : WritesOnly w s t) (hw : Spares w) : t.gustCount = s.gustCount := by
  unfold State.gustCount
  rw [h.get (hw _ (by decide : F.JRN_GQ_STAT_WR.key 0 ∈ heldReads)), h.get (hw _ (by decide : F.JRN_GQ_STAT_RD.key 0 ∈ heldReads))]

theorem anyFlag (h : WritesOnly w s t) (hw : Spares w) {f : Fld} {n : Nat} (hf : ∀ i < n, f.key i ∈ heldReads) :
    Machine.anyFlag t n f = Machine.anyFlag s n f := by
  rw [Bool.eq_iff_iff, anyFlag_iff, anyFlag_iff]
  exact exists_congr fun i => and_congr_right fun hi => by rw [h.flag (hw _ (hf i hi))]

theorem lasting (h : WritesOnly w s t) (hw : Spares w) : Machine.lasting t = Machine.lasting s := by
  have link := h.reads State.link fun _ _ => rfl
  have e {f : Fld} (hf : f.key 0 ∈ heldReads) : t.get f 0 = s.get f 0 := h.get (hw _ hf)
  have ef {f : Fld} (hf : f.key 0 ∈ heldReads) : t.flag f 0 = s.flag f 0 := h.flag (hw _ hf)
  unfold Machine.lasting claimBlocked State.role
  rw [link, e (f := F.CRU_CLK_MONA_ST) (by decide), e (f := F.CRU_CLK_MONB_ST) (by decide), ef (f := F.CANx_ERR_LOST.can 0) (by decide),
    ef (f := F.CANx_ERR_LOST.can 1) (by decide), e (f := F.DEV_STATE_ROLE) (by decide), ef (f := F.URED_STATE_CLAIM) (by decide),
    ef (f := F.URED_STATUS_FORCE_STOP) (by decide), h.reads State.ext fun _ _ => rfl, h.reads State.now fun _ _ => rfl]

theorem sealDiffers (h : WritesOnly w s t) (hw : Spares w) : Machine.sealDiffers t = Machine.sealDiffers s := by
  unfold Machine.sealDiffers
  rw [h.get (hw _ (by decide : F.CFG_SEAL_READ_UNSETTLED.key 0 ∈ heldReads)), h.get (hw _ (by decide : F.CFG_SEAL_READ_SEAL.key 0 ∈ heldReads)),
    h.reads State.boot fun _ _ => rfl]

end WritesOnly

/-! ### What setting them again does -/

/-- Between `s` and `t` the fields that `l` raises have been set and no others but those of `besideHeld`; `t` differs from the state
`o` before the clear in `w` alone. -/
structure RaisedSince (w : Nat → Bool) (o s t : State) (l : List (Bool × Fld)) : Prop where
  writes : WritesOnly w o t
  get : ∀ f : Fld, f.key 0 ∉ besideHeld → t.get f = if raisedBy l f then 1 else s.get f

namespace RaisedSince

variable {w : Nat → Bool} {o s t u : State} {l : List (Bool × Fld)}

/-- A flag set on a condition. -/
theorem raise (h : RaisedSince w o s t l) {c : Prop} [Decidable c] {b : Bool} {f : Fld} (hc : c ↔ b = true)
    (hw : w (f.key 0) = true) (one : f.width = 1) : RaisedSince w o s (if c then t.raise f else t) (l ++ [(b, f)]) := by
  refine ⟨(h.writes.set hw 1).ite h.writes, fun g hg => ?_⟩
  have old := h.get g hg
  have split : raisedBy (l ++ [(b, f)]) g = (raisedBy l g || (f.key 0 == g.key 0 && b)) := by simp [raisedBy]
  rw [split]
  by_cases hb : b = true
  · rw [if_pos (hc.mpr hb)]
    by_cases key : f.key 0 = g.key 0
    · have set : (t.raise f).get g = 1 % 2 ^ f.width := by
        unfold State.get; rw [← key]; exact State.get_set_self t f 0 1
      rw [set, one, key, hb]
      simp
    · rw [State.raise_eq, State.get_set_ne t 1 (Ne.symm key), old]
      simp [key]
  · rw [if_neg fun x => hb (hc.mp x), old]
    simp [hb]

/-- A flag set on a condition that has stayed as it was. -/
theorem raiseOf (h : RaisedSince w o s t l) {c b : Bool} {f : Fld} (e : c = b) (hw : w (f.key 0) = true) (one : f.width = 1) :
    RaisedSince w o s (if c then t.raise f else t) (l ++ [(b, f)]) := h.raise (by rw [e]) hw one

/-- Writes beside the flags. -/
theorem beside (h : RaisedSince w o s t l) (hu : WritesOnly besideHeld.contains t u) (hw : ∀ k ∈ besideHeld, w k = true) :
    RaisedSince w o s u l := by
  refine ⟨h.writes.trans (hu.mono fun k hk => ?_), fun g hg => ?_⟩
  · by_contra hin
    rw [hw k (by simpa using hin)] at hk
    exact Bool.noConfusion hk
  · exact (hu.get (by simpa using hg)).trans (h.get g hg)

/-- Flags set on their conditions, in order. -/
theorem raiseAll (h : RaisedSince w o s t l) (m : List (Bool × Fld)) (hm : ∀ x ∈ m, w (x.2.key 0) = true ∧ x.2.width = 1) :
    RaisedSince w o s (m.foldl (fun s x => if x.1 then s.raise x.2 else s) t) (l ++ m) := by
  induction m generalizing t l with
  | nil => simpa using h
  | cons x m ih =>
    obtain ⟨hw, one⟩ := hm x (by simp)
    have := ih (h.raise (c := x.1 = true) Iff.rfl hw one) fun y hy => hm y (by simp [hy])
    rwa [List.append_assoc, List.singleton_append] at this

end RaisedSince

/-- A bit address that a W1C write of a register may change. -/
def flagWrites (d : RegDesc) (k : Nat) : Bool :=
  heldFields.any (fun f => f.key 0 == k) || besideHeld.contains k || d.fields.any (fun x => x.2 == .w1c && x.1.key 0 == k)

theorem flagWrites_beside (d : RegDesc) : ∀ k ∈ besideHeld, flagWrites d k = true := fun k hk => by
  simp [flagWrites, hk]

theorem flagWrites_held (d : RegDesc) {f : Fld} (hf : f ∈ heldFields) : flagWrites d (f.key 0) = true := by
  have : heldFields.any (fun g => g.key 0 == f.key 0) = true := List.any_eq_true.mpr ⟨f, hf, by simp⟩
  simp [flagWrites, this]

theorem heldFields_width : ∀ f ∈ heldFields, f.width = 1 := by decide

theorem lasting_fields (s : State) : ∀ x ∈ lasting s, x.2 ∈ heldFields := by
  have fields : (lasting s).map (·.2) = (heldFields.drop 6).take 8 := rfl
  intro x hx
  have mem : x.2 ∈ (heldFields.drop 6).take 8 := fields ▸ List.mem_map_of_mem hx
  exact List.mem_of_mem_drop (List.mem_of_mem_take mem)

/-- A clamp's flags lie beside. -/
theorem clampFlag_beside (s : State) {pin : Nat} (h : pin < 96) : WritesOnly besideHeld.contains s (clampFlag s pin) := by
  have key := (by decide : ∀ k < 3, besideHeld.contains (F.EXC_CLAMPk_CLAMP.key k) = true) (pin / 32) (by omega)
  exact (WritesOnly.refl _ s).set key _

/-- The level of the queue is one such condition. -/
theorem gustLevel_raises {d : RegDesc} {o s : State} (h : WritesOnly (flagWrites d) o s) (hw : Spares (flagWrites d)) :
    RaisedSince (flagWrites d) o s s.gustLevel
      [(decide (o.get F.JRN_GQ_LEVEL_GQ_THRESH ≠ 0 ∧ o.get F.JRN_GQ_LEVEL_GQ_THRESH ≤ o.gustCount), F.JRN_STATUS_GQ_LEVEL)] := by
  have h0 : RaisedSince (flagWrites d) o s s [] := ⟨h, fun _ _ => rfl⟩
  have hcount : RaisedSince (flagWrites d) o s (s.set F.JRN_GQ_LEVEL_COUNT 0 s.gustCount) [] :=
    h0.beside ((WritesOnly.refl _ s).set (by decide) _) (flagWrites_beside d)
  have threshold : (s.set F.JRN_GQ_LEVEL_COUNT 0 s.gustCount).get F.JRN_GQ_LEVEL_GQ_THRESH = o.get F.JRN_GQ_LEVEL_GQ_THRESH :=
    hcount.writes.get (hw _ (by decide))
  refine hcount.raise ?_ (flagWrites_held d (by decide)) rfl
  rw [threshold, h.gustCount hw, decide_eq_true_iff]

/-- Conditions that still hold set their flags again, as they held before the clear. -/
theorem reassert_raises {d : RegDesc} {o s : State} (h : WritesOnly (flagWrites d) o s) (hw : Spares (flagWrites d)) :
    RaisedSince (flagWrites d) o s (reassert o s) (heldFlags o) := by
  have fw := flagWrites_beside d
  have held {f : Fld} (hf : f ∈ heldFields) := flagWrites_held d hf
  have other {t u : State} {l} (ht : RaisedSince (flagWrites d) o s t l) (hu : WritesOnly besideHeld.contains t u) := ht.beside hu fw
  unfold reassert
  extract_lets level any hyst drift stale clamp xbar ue last denc sealed vin ann lapse timing
  have h1 : RaisedSince _ o s level _ := gustLevel_raises h hw
  have h2 : RaisedSince _ o s hyst _ := h1.raiseOf (congrArg₂ or (h1.writes.anyFlag hw (by decide +kernel))
    (h1.writes.anyFlag hw (by decide +kernel))) (held (by decide)) rfl
  have h3 : RaisedSince _ o s drift _ := h2.raiseOf (h1.writes.anyFlag hw (by decide +kernel)) (held (by decide)) rfl
  have h4 : RaisedSince _ o s stale _ := h3.raiseOf (h1.writes.anyFlag hw (by decide +kernel)) (held (by decide)) rfl
  have h5 : RaisedSince _ o s clamp _ := other h4 (WritesOnly.foldl _ _ (fun t k hk =>
    (clampFlag_beside t (List.mem_range.mp hk)).ite (WritesOnly.refl _ t)) stale)
  have exbar : xbar = if !clamp.tone.xbar.isEmpty then clamp.raise F.EXC_MON_XBAR_ERR else clamp := by
    simp only [xbar]; cases clamp.tone.xbar.isEmpty <;> rfl
  have h6 : RaisedSince _ o s xbar _ := exbar ▸ h5.raiseOf
    (congrArg (fun x : Tone => !x.xbar.isEmpty) (h5.writes.reads State.tone fun _ _ => rfl)) (held (by decide)) rfl
  have h7 : RaisedSince _ o s ue _ := h6.raiseOf
    (congrArg Fabric.ue (h6.writes.reads State.fab fun _ _ => rfl)) (held (by decide)) rfl
  have h8 : RaisedSince _ o s last _ := h7.raiseAll (lasting ue) fun x hx =>
    have hf := lasting_fields ue x hx
    ⟨held hf, heldFields_width _ hf⟩
  have h9 : RaisedSince _ o s denc _ := other h8 ((WritesOnly.refl _ last).set (by decide) _)
  have h10 : RaisedSince _ o s sealed _ := h9.raiseOf (by rw [h9.writes.sealDiffers hw]) (held (by decide)) rfl
  have h11 : RaisedSince _ o s vin _ := h10.raiseOf
    (by rw [h10.writes.get (f := F.CRU_VIN_VIN) (hw _ (by decide))]) (held (by decide)) rfl
  have h12 : RaisedSince _ o s ann _ := other h11 (((WritesOnly.refl _ vin).set (by decide) 1).ite (WritesOnly.refl _ vin))
  have h13 : RaisedSince _ o s lapse _ := h12.raiseOf
    (by rw [h12.writes.flag (f := F.TLNK_CFG_EN) (hw _ (by decide)), h12.writes.reads State.tl fun _ _ => rfl]) (held (by decide)) rfl
  have h14 : WritesOnly besideHeld.contains lapse (timing (timing lapse 0) 1) :=
    (((WritesOnly.refl _ lapse).set (by decide) 1).ite (WritesOnly.refl _ lapse)).trans
      (((WritesOnly.refl _ _).set (by decide) 1).ite (WritesOnly.refl _ _))
  have h15 := other h13 h14
  rw [h7.writes.lasting hw] at h15
  exact h15

/-! ### The clear itself (R15) -/

/-- The W1C fields of a register cleared where a word has ones. -/
def clearOnes (s : State) (p : Nat) (d : RegDesc) (v : Nat) (l : List (Fld × Cls)) : State :=
  l.foldl (fun s x =>
    if x.2 == .w1c then
      let f := portFld d p x.1
      s.set f 0 (s.get f ^^^ (s.get f &&& fldOf d x.1 v))
    else s) s

/-- MULTI of an identifier clash goes with VALID. -/
def clashesFollow (s : State) : State :=
  let one := fun (s : State) (x : Nat) => if s.flag (F.CANx_IDCLASH_VALID.can x) then s else s.lower (F.CANx_IDCLASH_MULTI.can x)
  one (one s 0) 1

theorem w1cFields_eq {s : State} {p : Nat} {d : RegDesc} {v : Nat} (h : hasCls d .w1c = true) :
    w1cFields s p d v = reassert s (clashesFollow (clearOnes s p d v d.fields)) := by
  unfold w1cFields
  rw [if_neg (by simp [h])]
  rfl

theorem clearOnes_writes (s : State) (p : Nat) {d : RegDesc} (v : Nat) (shared : d.perPort = false) :
    WritesOnly (flagWrites d) s (clearOnes s p d v d.fields) := by
  refine WritesOnly.foldl _ _ (fun t x hx => ?_) s
  split
  · next hc =>
    have key : flagWrites d ((portFld d p x.1).key 0) = true := by
      simp only [flagWrites, portFld, shared, Bool.or_eq_true, List.any_eq_true]
      exact Or.inr ⟨x, hx, by simp [hc]⟩
    exact (WritesOnly.refl _ t).set key _
  · exact WritesOnly.refl _ t

/-- Other fields stay. -/
theorem clearOnes_get_other {p : Nat} {d : RegDesc} {v : Nat} (shared : d.perPort = false) {f : Fld} {l : List (Fld × Cls)}
    (other : ∀ x ∈ l, f.key 0 ≠ x.1.key 0) (s : State) : (clearOnes s p d v l).get f = s.get f := by
  induction l generalizing s with
  | nil => rfl
  | cons x l ih =>
    have hx : f.key 0 ≠ (portFld d p x.1).key 0 := by simpa [portFld, shared] using other x (by simp)
    refine (ih (fun y hy => other y (by simp [hy])) _).trans ?_
    dsimp only
    split
    · exact State.get_set_ne _ _ hx
    · rfl

/-- A W1C field of a register loses its ones where the word has ones. -/
theorem clearOnes_get {p : Nat} {d : RegDesc} {v : Nat} (shared : d.perPort = false) {f : Fld} {l : List (Fld × Cls)}
    (apart : l.Pairwise (fun x y => x.1.key 0 ≠ y.1.key 0)) (hf : (f, Cls.w1c) ∈ l) (s : State) :
    (clearOnes s p d v l).get f = (s.get f ^^^ (s.get f &&& fldOf d f v)) % 2 ^ f.width := by
  induction l generalizing s with
  | nil => simp at hf
  | cons x l ih =>
    obtain ⟨hx, apart⟩ := List.pairwise_cons.mp apart
    rcases List.mem_cons.mp hf with rfl | hf
    · refine (clearOnes_get_other shared hx _).trans ?_
      simp [portFld, shared]
    · refine (ih apart hf _).trans ?_
      have same : (clearOnes s p d v [x]).get f = s.get f :=
        clearOnes_get_other shared (fun y hy => by rw [List.mem_singleton.mp hy]; exact (hx _ hf).symm) s
      exact congrArg (fun n => (n ^^^ (n &&& fldOf d f v)) % 2 ^ f.width) same

/-- One bit cleared by a one. -/
theorem clear_bit {n v lo : Nat} (h : n ≤ 1) : (n ^^^ (n &&& bitsOf v lo 1)) % 2 ^ 1 = if bitAt v lo then 0 else n := by
  have hb : bitAt v lo = decide (bitsOf v lo 1 = 1) := Nat.testBit_eq_decide_div_mod_eq
  have lt : bitsOf v lo 1 < 2 := Nat.mod_lt _ (by decide)
  rw [hb]
  generalize bitsOf v lo 1 = b at lt
  interval_cases n <;> interval_cases b <;> rfl

theorem clashesFollow_writes (s : State) : WritesOnly besideHeld.contains s (clashesFollow s) :=
  ((WritesOnly.refl _ s).ite ((WritesOnly.refl _ s).set (by decide) 0)).trans
    ((WritesOnly.refl _ _).ite ((WritesOnly.refl _ _).set (by decide) 0))

/-! ### Writes of a register of flags -/

/-- A register of W1C and RO fields, one for both ports, each field at a place of its own, no flag of which
a condition reads. -/
def flagRegister (d : RegDesc) : Bool :=
  !d.perPort && d.fields.all (fun x => x.2 == .ro || x.2 == .w1c) && hasCls d .w1c
    && decide (d.fields.Pairwise (fun x y => x.1.key 0 ≠ y.1.key 0))
    && d.fields.all (fun x => !(x.2 == .w1c && heldReads.contains (x.1.key 0)))

/-- The status registers of the blocks, with EXC_MON. -/
def statusRegs : List Nat :=
  [0x14, 0x10004, 0x20000, 0x30004, 0x40000, 0x90000, 0xB0000, 0xC0000, 0xC4000, 0xF0000, 0x120000, 0x130000, 0x140000]

theorem statusRegs_address : ∀ a ∈ statusRegs, a % 4 = 0 ∧ a < 0x1E0000 ∧ a ≠ 0x140010 := by decide

theorem statusRegs_no_command (s : State) (p : HPort) (d : RegDesc) (v : Nat) :
    ∀ a ∈ statusRegs, commandWrite s p a d v = none := by
  simp only [statusRegs, List.forall_mem_cons]
  exact ⟨rfl, rfl, rfl, rfl, rfl, rfl, rfl, rfl, rfl, rfl, rfl, rfl, rfl, fun _ h => absurd h List.not_mem_nil⟩

theorem statusRegs_flags : ∀ a ∈ statusRegs, (regAt a).any (fun d => flagRegister d && d.addr == a) = true := by decide +kernel

/-- What the conditions read is apart from what they set. -/
theorem heldReads_apart : ∀ k ∈ heldReads, (heldFields.any (fun f => f.key 0 == k) || besideHeld.contains k) = false := by
  decide +kernel

theorem spares_flagWrites {d : RegDesc} (h : d.fields.all (fun x => !(x.2 == .w1c && heldReads.contains (x.1.key 0))) = true) :
    Spares (flagWrites d) := by
  intro k hk
  have own : d.fields.any (fun x => x.2 == .w1c && x.1.key 0 == k) = false := by
    rw [List.any_eq_false]
    intro x hx e
    obtain ⟨w1c, key⟩ := Bool.and_eq_true_iff.mp e
    have := List.all_eq_true.mp h x hx
    simp [w1c, eq_of_beq key, hk] at this
  rw [flagWrites, heldReads_apart k hk, own]
  rfl

theorem hasCls_of_flagFields {d : RegDesc} (h : d.fields.all (fun x => x.2 == .ro || x.2 == .w1c) = true) {c : Cls}
    (ro : c ≠ .ro) (w1c : c ≠ .w1c) : hasCls d c = false := by
  simp only [hasCls, List.any_eq_false, List.all_eq_true, Bool.or_eq_true, beq_iff_eq] at h ⊢
  rintro x hx rfl
  exact (h x hx).elim ro w1c

theorem putFields_of_not_hasCls {s : State} {p : Nat} {d : RegDesc} {c : Cls} {v : Nat} (h : hasCls d c = false) :
    putFields s p d (fun x => x == c) v = s := by
  simp only [hasCls, List.any_eq_false] at h
  unfold putFields
  generalize d.fields = l at h
  induction l with
  | nil => rfl
  | cons x l ih =>
    rw [List.foldl_cons, if_neg (h x (by simp))]
    exact ih fun y hy => h y (by simp [hy])

theorem staticChanges_of_not_hasCls {s : State} {p : HPort} {a : Nat} {d : RegDesc} {v : Nat} (h : hasCls d .static = false) :
    staticChanges s p a d v = false := by
  simp only [hasCls, staticChanges, List.any_eq_false, Bool.and_eq_true, not_and] at h ⊢
  exact fun x hx hc => absurd hc.1 (h x hx)

/-- A write of a register of flags is the clear and nothing else. -/
theorem writeRegAt_flags {s : State} {p : HPort} {a v : Nat} {d : RegDesc} (ha : a ∈ statusRegs)
    (h : d.fields.all (fun x => x.2 == .ro || x.2 == .w1c) = true) : writeRegAt s p a d v = w1cFields s p.toNat d v := by
  have cmd := statusRegs_no_command s p d v a ha
  obtain ⟨-, -, level⟩ := statusRegs_address a ha
  have static := hasCls_of_flagFields h (c := .static) (by decide) (by decide)
  have shadow := hasCls_of_flagFields h (c := .shadow) (by decide) (by decide)
  have live := hasCls_of_flagFields h (c := .live) (by decide) (by decide)
  simp [writeRegAt, cmd, level, pairWritable, writeFields, static, shadow, staticChanges_of_not_hasCls static,
    putFields_of_not_hasCls live]

/-- The conditions of R53 are among the addresses read. -/
theorem heldReads_of_drivesSource {k : Nat} (h : drivesSource k = true) : k ∈ heldReads := by
  simp only [drivesSource, Bool.or_eq_true, beq_iff_eq] at h
  rcases h with ((rfl | rfl) | rfl) | rfl <;> decide

/-- A W1C flag of one of the status registers that settling leaves alone and that is none of those beside. -/
def statusFlag (a : Nat) (f : Fld) : Bool :=
  statusRegs.contains a && (regAt a).any (fun d => d.fields.contains (f, .w1c)) && f.width == 1
    && !besideHeld.contains (f.key 0) && quietKey (f.key 0) && f.bit - 8 * a == f.bit % 32

/-- What a W1C write leaves in a flag. -/
theorem settled_w1c_flag {s : State} {p : HPort} {a v : Nat} {f : Fld} (lines : LinesFollow s) (up : s.portsUp = true)
    (hf : statusFlag a f = true) (le : s.get f ≤ 1) :
    (settled s (hostWrite s p a v)).get f
    = if raisedBy (heldFlags s) f then 1 else if bitAt v (f.bit % 32) then 0 else s.get f := by
  simp only [statusFlag, Bool.and_eq_true, List.contains_iff_mem, Option.any_eq_true, beq_iff_eq, Bool.not_eq_true',
    ← Bool.not_eq_true] at hf
  obtain ⟨⟨⟨⟨⟨ha, d, reg, mem⟩, one⟩, beside⟩, quiet⟩, place⟩ := hf
  have isReg := statusRegs_flags a ha
  simp only [reg, Option.any_some, flagRegister, Bool.and_eq_true, Bool.not_eq_true', decide_eq_true_eq, beq_iff_eq] at isReg
  obtain ⟨⟨⟨⟨⟨shared, classes⟩, has⟩, apart⟩, own⟩, addr⟩ := isReg
  obtain ⟨al, lo, -⟩ := statusRegs_address a ha
  have spares := spares_flagWrites own
  have start : RaisedSince (flagWrites d) s (clearOnes s p.toNat d v d.fields) (clashesFollow (clearOnes s p.toNat d v d.fields)) [] :=
    RaisedSince.beside ⟨clearOnes_writes s p.toNat v shared, fun _ _ => rfl⟩ (clashesFollow_writes _) (flagWrites_beside d)
  have raised := reassert_raises start.writes spares
  have steady := raised.writes.steady lines fun k hk => spares k (heldReads_of_drivesSource hk)
  rw [hostWrite_register up al lo reg, writeRegAt_flags ha classes, w1cFields_eq has, settled_get_quiet steady f 0 quiet,
    raised.get f beside, start.get f beside, clearOnes_get shared apart mem, one, fldOf, one, addr, place, clear_bit le]
  rfl

end Sys2Proof.Machine
end

section
/-!
PROOFS. A W1C write clears the flags where it has ones, and a condition that still holds sets its flag again. Settles O13.
-/

namespace Sys2Proof.Machine

/-! ### Statements of R15 -/

/-- A flag whose bit is written 1 stands for its condition alone, the `i`-th of `heldFlags`. -/
theorem w1cClear_held {s : State} {p : HPort} {a : Addr} {m : Word} {f : Fld} {b : Bool} (i : Nat) (lines : LinesFollow s)
    (up : s.portsUp = true) (hf : statusFlag a.toNat f = true) (cond : (heldFlags s)[i]? = some (b, f))
    (one : bitAt m.toNat (f.bit % 32) = true) (le : s.get f ≤ 1) : ∃ t, exec (.w1cClear p a m) s = .next t ∧ t.get f = b2n b := by
  refine ⟨_, rfl, (settled_w1c_flag lines up hf le).trans ?_⟩
  rw [raisedBy_heldFlags (List.mem_of_getElem? cond), one]
  rfl

theorem b2n_le_one (b : Bool) : b2n b ≤ 1 := by cases b <;> decide

theorem b2n_eq_one {b : Bool} : b2n b = 1 ↔ b = true := by cases b <;> decide

theorem b2n_eq_ite {b : Bool} {c : Prop} [Decidable c] (h : b = true ↔ c) : b2n b = if c then 1 else 0 := by
  simp only [b2n, h]

/-- A flag whose bit is written 1 reads 1 or 0 as its condition holds or not. -/
theorem w1cClear_held_iff {s : State} {p : HPort} {a : Addr} {m : Word} {f : Fld} {b : Bool} {holds : Prop} (i : Nat)
    (lines : LinesFollow s) (up : s.portsUp = true) (hf : statusFlag a.toNat f = true) (cond : (heldFlags s)[i]? = some (b, f))
    (iff : b = true ↔ holds) (one : bitAt m.toNat (f.bit % 32) = true) (le : s.get f ≤ 1) :
    ∃ t, exec (.w1cClear p a m) s = .next t ∧ (holds → t.get f = 1) ∧ (¬holds → t.get f = 0) := by
  obtain ⟨t, ht, h⟩ := w1cClear_held (p := p) i lines up hf cond one le
  refine ⟨t, ht, fun hh => ?_, fun hh => ?_⟩
  · rw [h, iff.mpr hh]; rfl
  · rw [h, Bool.eq_false_iff.mpr (fun e => hh (iff.mp e))]; rfl

/-- The flags of DEV_STATUS. -/
def devStatusFlags : List Fld := [F.DEV_STATUS_STATE_CHG, F.DEV_STATUS_ROLE_CHG, F.DEV_STATUS_CMD_REJ, F.DEV_STATUS_CMD_EXPIRED]

theorem devStatusFlags_status :
    ∀ x ∈ devStatusFlags, statusFlag 0x14 x = true ∧ x.bit % 32 = x.bit - 0x14 * 8 ∧ ∀ g ∈ heldFields, g.key 0 ≠ x.key 0 := by
  decide +kernel

theorem flag_iff_eq_one {s : State} {f : Fld} {i : Nat} (le : s.get f i ≤ 1) : s.flag f i = true ↔ s.get f i = 1 := by
  unfold State.flag
  rw [bne_iff_ne]
  omega

/-- Settles O13: a write of a status register clears by its ones (`clearOnes_get`), and `reassert_raises` says which flags stand again. -/
theorem flagsClearedByOnes : Obligations.FlagsClearedByOnes := by
  intro s p m lines up
  have standby : (s.role == .standby && decide (2 ≤ s.link.missed)) = true ↔ s.role = .standby ∧ 2 ≤ s.link.missed := by
    rw [Bool.and_eq_true, beq_iff_eq, decide_eq_true_iff]
  refine ⟨⟨_, rfl, fun x hx le => ?_⟩, fun one le => ?_, fun one le => ?_, fun one le => ?_, fun one le => ?_, fun one le => ?_,
    fun one le => ?_, fun one le => ?_, fun one le => ?_, ?_, fun one le => ?_⟩
  · obtain ⟨hf, place, own⟩ := devStatusFlags_status x hx
    refine (settled_w1c_flag lines up hf le).trans ?_
    rw [raisedBy_heldFlags_other own, place]
    rfl
  · obtain ⟨t, ht, h⟩ := w1cClear_held (p := p) (a := 0x140000) 0 lines up (by decide +kernel) rfl one le
    exact ⟨t, ht, h.trans (b2n_eq_ite decide_eq_true_iff)⟩
  · obtain ⟨t, ht, h⟩ := w1cClear_held (p := p) (a := 0xB0000) 16 lines up (by decide +kernel) rfl one le
    exact ⟨t, ht, h.trans (b2n_eq_ite Bool.and_eq_true_iff)⟩
  · obtain ⟨t, ht, h⟩ := w1cClear_held (p := p) (a := 0x40000) 1 lines up (by decide +kernel) rfl one le
    refine ⟨t, ht, h ▸ b2n_le_one _, h ▸ b2n_eq_one.trans ?_⟩
    rw [Bool.or_eq_true, anyFlag_iff, anyFlag_iff, ← exists_or]
    exact exists_congr fun q => and_or_left.symm
  · obtain ⟨t, ht, h⟩ := w1cClear_held (p := p) (a := 0x20000) 2 lines up (by decide +kernel) rfl one le
    exact ⟨t, ht, h ▸ b2n_le_one _, h ▸ b2n_eq_one.trans anyFlag_iff⟩
  · obtain ⟨t, ht, h⟩ := w1cClear_held (p := p) (a := 0x30004) 3 lines up (by decide +kernel) rfl one le
    exact ⟨t, ht, h ▸ b2n_le_one _, h ▸ b2n_eq_one.trans anyFlag_iff⟩
  · obtain ⟨t, ht, h⟩ := w1cClear_held (p := p) (a := 0x130000) 15 lines up (by decide +kernel) rfl one le
    refine ⟨t, ht, h.trans (b2n_eq_ite ?_)⟩
    rw [Bool.and_eq_true, flag_iff_eq_one le, decide_eq_true_iff]
  · obtain ⟨t, ht, h⟩ := w1cClear_held (p := p) (a := 0x10004) 4 lines up (by decide +kernel) rfl one le
    refine ⟨t, ht, h.trans ?_⟩
    cases s.tone.xbar <;> rfl
  · obtain ⟨t, ht, h⟩ := w1cClear_held (p := p) (a := 0x90000) 5 lines up (by decide +kernel) rfl one le
    exact ⟨t, ht, h.trans (b2n_eq_ite Iff.rfl)⟩
  · exact ⟨w1cClear_held_iff 6 lines up (by decide +kernel) rfl beq_iff_eq, w1cClear_held_iff 7 lines up (by decide +kernel) rfl beq_iff_eq,
      w1cClear_held_iff 8 lines up (by decide +kernel) rfl Iff.rfl, w1cClear_held_iff 9 lines up (by decide +kernel) rfl Iff.rfl,
      w1cClear_held_iff 10 lines up (by decide +kernel) rfl standby, w1cClear_held_iff 11 lines up (by decide +kernel) rfl Iff.rfl,
      w1cClear_held_iff 12 lines up (by decide +kernel) rfl Iff.rfl, w1cClear_held_iff 13 lines up (by decide +kernel) rfl Iff.rfl⟩
  · obtain ⟨t, ht, h⟩ := w1cClear_held (p := p) (a := 0x120000) 14 lines up (by decide +kernel) rfl one le
    refine ⟨t, ht, h.trans (b2n_eq_ite ?_)⟩
    rw [Bool.and_eq_true, flag_iff_eq_one le]

end Sys2Proof.Machine
end

section
/-!
PROOFS. The queue of commands (log entries 1 and 2): a step runs its front. Settles O1.
-/

namespace Sys2Proof.Machine

/-- Settles O1: a queue with a command at its front is the second case of `step`, an empty one the first. -/
theorem queueFrontRuns : Obligations.QueueFrontRuns := by
  refine ⟨fun c rest s => ?_, fun s empty => ?_⟩
  · have front : (s.putPending (c :: rest)).pending = c :: rest := State.putPending_pending s _
    unfold step
    rw [front]
    rfl
  · unfold step
    rw [empty]
    rfl

end Sys2Proof.Machine
end

section
/-!
SUPPORT. What a repeated change of the state leaves alone, and what it writes at one of its indices.
-/

namespace Sys2Proof.Machine

theorem forEach_keeps {α β : Type} (g : State → β) {l : List α} {f : State → α → State}
    (h : ∀ s, ∀ a ∈ l, g (f s a) = g s) (s : State) : g (forEach l s f) = g s := by
  unfold forEach
  induction l generalizing s with
  | nil => rfl
  | cons a l ih =>
    rw [List.foldl_cons, ih fun s b hb => h s b (List.mem_cons_of_mem a hb)]
    exact h s a List.mem_cons_self

theorem forN_keeps {β : Type} (g : State → β) {n : Nat} {f : State → Nat → State} (h : ∀ s i, i < n → g (f s i) = g s)
    (s : State) : g (forN n s f) = g s :=
  forEach_keeps g (fun s i hi => h s i (List.mem_range.mp hi)) s

/-- What index `k` alone writes reads as `k` has written it. -/
theorem forN_writes {β : Type} (g : State → β) {n k : Nat} {f : State → Nat → State} {v : β} (lt : k < n)
    (own : ∀ s, g (f s k) = v) (other : ∀ s i, i < n → i ≠ k → g (f s i) = g s) (s : State) : g (forN n s f) = v := by
  induction n with
  | zero => omega
  | succ n ih =>
    have last : forN (n + 1) s f = f (forN n s f) n := by simp [forN, List.range_succ]
    rw [last]
    by_cases e : n = k
    · rw [e]; exact own _
    · rw [other _ n (by omega) e]
      exact ih (by omega) fun s i hi => other s i (by omega)

end Sys2Proof.Machine
end

section
/-!
PROOFS. The safety-cycle boundary (R42): what it shows of its pins (R293, R399) after the last of its work. Settles O55.
-/

namespace Sys2Proof.Machine

/-! ### What the pins show stays -/

/-- The bit addresses of the lock of the PLL, of VIN with VIN_LOW, and of the levels read at SOUT. -/
def pinKeys : List Nat :=
  [F.CRU_CLK_PLL_LOCK.key 0, F.CRU_VIN_VIN.key 0, F.CRU_STATUS_VIN_LOW.key 0]
  ++ (List.range 12).map F.SIO_OUTk_STAT_SENSE_HI.key ++ (List.range 12).map F.SIO_OUTk_STAT_SENSE_LO.key

theorem pinKeys_quiet : ∀ k ∈ pinKeys, quietKey k = true := by decide +kernel

/-- `t` shows at its pins, and of the PLL, what `s` shows. -/
structure PinsKept (s t : State) : Prop where
  balls : t.balls = s.balls
  regs : ∀ k ∈ pinKeys, storeGet 0 t.regs k = storeGet 0 s.regs k

namespace PinsKept

variable {s t u : State}

theorem refl (s : State) : PinsKept s s := ⟨rfl, fun _ _ => rfl⟩

theorem trans (a : PinsKept s t) (b : PinsKept t u) : PinsKept s u :=
  ⟨b.balls.trans a.balls, fun k h => (b.regs k h).trans (a.regs k h)⟩

theorem ite {c : Prop} [Decidable c] (a : PinsKept s t) (b : PinsKept s u) : PinsKept s (if c then t else u) := by
  split
  · exact a
  · exact b

theorem of_keeps (h : Keeps s t) : PinsKept s t :=
  ⟨h.reads State.balls fun _ => rfl, fun k hk => h.regs k (pinKeys_quiet k hk)⟩

theorem note (h : PinsKept s t) (a b c d e : Nat) : PinsKept s (t.note a b c d e) := h.trans (of_keeps (keeps_note t a b c d e))

theorem set (h : PinsKept s t) {f : Fld} {i v : Nat} (hf : f.key i ∉ pinKeys) : PinsKept s (t.set f i v) :=
  ⟨h.balls, fun k hk => (State.regs_set_ne t v fun e => hf (e ▸ hk)).trans (h.regs k hk)⟩

theorem get (h : PinsKept s t) {f : Fld} {i : Nat} (hf : f.key i ∈ pinKeys) : t.get f i = s.get f i := h.regs _ hf

theorem portsUp (h : PinsKept s t) : t.portsUp = s.portsUp := by
  unfold State.portsUp State.flag
  rw [h.get (by decide)]

end PinsKept

theorem setRole_pins (s : State) (r : Role) : PinsKept s (setRole s r) :=
  (PinsKept.refl s).ite (((((PinsKept.refl s).set (by decide)).set (by decide)).set (by decide)).note _ _ _ _ _)

theorem readyBoundary_pins (s : State) : PinsKept s (readyBoundary s) :=
  ((PinsKept.refl s).set (by decide)).set (by decide)

/-- The unit yields (R345). -/
theorem yieldRole_pins (s : State) : PinsKept s (yieldRole s) := by
  have marks : PinsKept s ((ured (s.raise F.URED_STATUS_YIELDED) 1).lower F.URED_STATE_CLAIM) :=
    (((PinsKept.refl s).set (by decide)).note _ _ _ _ _).set (by decide)
  have drop (l : Link) : PinsKept s (((ured (s.raise F.URED_STATUS_YIELDED) 1).lower F.URED_STATE_CLAIM).putLink l) :=
    marks.trans ⟨rfl, fun _ _ => rfl⟩
  exact ((drop _).trans ((setRole_pins _ _).trans (readyBoundary_pins _))).ite (drop _)

theorem yieldLate_pins (s : State) : PinsKept s (yieldLate s) := (yieldRole_pins s).ite (PinsKept.refl s)

theorem putLines_pins (s : State) : PinsKept s (putLines s) := ⟨rfl, fun _ _ => rfl⟩

theorem clockDone_pins (s : State) (t : Nat) : PinsKept s (clockDone s t) := by
  have ended : Keeps s (outStep (fabOver s)) := (keeps_fab s _).trans ((keeps_fabSettle _).trans (keeps_outStep _))
  exact (PinsKept.refl s).ite ((PinsKept.of_keeps ended).trans (putLines_pins _))

theorem stepCount_pins (s : State) : PinsKept s (stepCount s) :=
  (clockDone_pins s _).trans ⟨rfl, fun _ _ => rfl⟩

/-! ### What the pins show -/

/-- The reading of VIN (R399). -/
theorem vinBoundary_shows (s : State) (v : Nat) :
    (vinBoundary s v).get F.CRU_VIN_VIN = v % 65536 ∧ (v % 65536 < 900 → (vinBoundary s v).get F.CRU_STATUS_VIN_LOW = 1)
    ∧ (vinBoundary s v).portsUp = s.portsUp := by
  have read (x : Nat) : ((s.set F.CRU_VIN_VIN 0 (v % 65536)).set F.CRU_VIN_VIN_MIN 0 x).get F.CRU_VIN_VIN = v % 65536 :=
    (State.get_set_ne _ x (by decide)).trans ((State.get_set_self s F.CRU_VIN_VIN 0 _).trans (Nat.mod_mod v 65536))
  have lock (x : Nat) : ((s.set F.CRU_VIN_VIN 0 (v % 65536)).set F.CRU_VIN_VIN_MIN 0 x).get F.CRU_CLK_PLL_LOCK = s.get F.CRU_CLK_PLL_LOCK :=
    (State.get_set_ne _ x (by decide)).trans (State.get_set_ne s _ (by decide))
  unfold vinBoundary
  extract_lets w t
  have low : PinsKept (t.set F.CRU_STATUS_VIN_LOW 0 1) ((t.raise F.CRU_STATUS_VIN_LOW).note 0 0x13 4 0xFF 0) :=
    PinsKept.of_keeps (keeps_note _ _ _ _ _ _)
  split
  · refine ⟨?_, fun _ => ?_, ?_⟩
    · rw [low.get (by decide), State.get_set_ne t 1 (by decide)]; exact read _
    · rw [low.get (by decide)]; exact State.get_set_self t F.CRU_STATUS_VIN_LOW 0 1
    · rw [low.portsUp]; unfold State.portsUp State.flag; rw [State.get_set_ne t 1 (by decide)]; exact congrArg (· != 0) (lock _)
  · next high =>
    exact ⟨read _, fun h => absurd h high, congrArg (· != 0) (lock _)⟩

/-- The bit addresses of the levels read at SOUT are apart. -/
theorem senseKeys_apart : ∀ k < 12, ∀ i < 12, F.SIO_OUTk_STAT_SENSE_HI.key k ≠ F.SIO_OUTk_STAT_SENSE_LO.key i
    ∧ (i ≠ k → F.SIO_OUTk_STAT_SENSE_HI.key k ≠ F.SIO_OUTk_STAT_SENSE_HI.key i
      ∧ F.SIO_OUTk_STAT_SENSE_LO.key k ≠ F.SIO_OUTk_STAT_SENSE_LO.key i) := by
  decide +kernel

/-- The reading of the balls of SOUT (R293). -/
def senseOuts (s : State) (hi lo : Nat) : State :=
  forN 12 s (fun s k => (s.setFlag F.SIO_OUTk_STAT_SENSE_HI k (bitAt hi k)).setFlag F.SIO_OUTk_STAT_SENSE_LO k (bitAt lo k))

theorem senseOuts_get (s : State) (hi lo : Nat) {k : Nat} (h : k < 12) :
    (senseOuts s hi lo).get F.SIO_OUTk_STAT_SENSE_HI k = b2n (bitAt hi k)
    ∧ (senseOuts s hi lo).get F.SIO_OUTk_STAT_SENSE_LO k = b2n (bitAt lo k) := by
  have bit (b : Bool) : b2n b % 2 ^ 1 = b2n b := by cases b <;> rfl
  constructor
  · refine forN_writes (fun s => s.get F.SIO_OUTk_STAT_SENSE_HI k) h (fun s => ?_) (fun s i hi' ne => ?_) s
    · exact (State.get_set_ne _ _ (senseKeys_apart k h k h).1).trans ((State.get_set_self s F.SIO_OUTk_STAT_SENSE_HI k _).trans (bit _))
    · obtain ⟨cross, same⟩ := senseKeys_apart k h i hi'
      exact (State.get_set_ne _ _ cross).trans (State.get_set_ne s _ (same ne).1)
  · refine forN_writes (fun s => s.get F.SIO_OUTk_STAT_SENSE_LO k) h (fun s => ?_) (fun s i hi' ne => ?_) s
    · exact (State.get_set_self _ F.SIO_OUTk_STAT_SENSE_LO k _).trans (bit _)
    · exact (State.get_set_ne _ _ ((senseKeys_apart k h i hi').2 ne).2).trans (State.get_set_ne s _ (senseKeys_apart i hi' k h).1.symm)

theorem senseOuts_get_other (s : State) (hi lo : Nat) {f : Fld}
    (h : ∀ k < 12, f.key 0 ≠ F.SIO_OUTk_STAT_SENSE_HI.key k ∧ f.key 0 ≠ F.SIO_OUTk_STAT_SENSE_LO.key k) :
    (senseOuts s hi lo).get f = s.get f :=
  forN_keeps (fun s => s.get f) (fun s k lt => (State.get_set_ne _ _ (h k lt).2).trans (State.get_set_ne s _ (h k lt).1)) s

/-- A field apart from the cells of the traction link's balls reads the same after the balls of the link. -/
theorem ballsBoundary_get (s : State) (inp : BoundaryInputs) {f : Fld} {k : Nat} (stop : f.key k ≠ F.TLNK_PIN_STOP_N.key 0)
    (still : f.key k ≠ F.TLNK_PIN_STILL.key 0) :
    (ballsBoundary s inp).get f k = (senseOuts s inp.soutHigh.toNat inp.soutLow.toNat).get f k :=
  (State.get_set_ne _ _ still).trans (State.get_set_ne _ _ stop)

/-- The balls and VIN as `u` shows them are those of `inp`. -/
def ShowsPins (u : State) (inp : BoundaryInputs) : Prop :=
  u.balls = (inp.soutHigh.toNat, inp.soutLow.toNat, inp.tlBalls.toNat) ∧ u.get F.CRU_VIN_VIN = inp.vin % 65536
    ∧ (inp.vin % 65536 < 900 → u.get F.CRU_STATUS_VIN_LOW = 1)
    ∧ ∀ k, k < 12 → u.get F.SIO_OUTk_STAT_SENSE_HI k = b2n (bitAt inp.soutHigh.toNat k)
      ∧ u.get F.SIO_OUTk_STAT_SENSE_LO k = b2n (bitAt inp.soutLow.toNat k)

theorem PinsKept.shows {s t : State} {inp : BoundaryInputs} (h : PinsKept s t) (shown : ShowsPins s inp) : ShowsPins t inp := by
  obtain ⟨balls, vin, low, sense⟩ := shown
  have key := (by decide +kernel : ∀ k < 12, F.SIO_OUTk_STAT_SENSE_HI.key k ∈ pinKeys ∧ F.SIO_OUTk_STAT_SENSE_LO.key k ∈ pinKeys)
  refine ⟨h.balls.trans balls, (h.get (by decide)).trans vin, fun lt => (h.get (by decide)).trans (low lt), fun k lt => ?_⟩
  obtain ⟨hi, lo⟩ := sense k lt
  exact ⟨(h.get (key k lt).1).trans hi, (h.get (key k lt).2).trans lo⟩

/-- What a unit whose ports answer reads at the boundary, it shows. -/
theorem pinsBoundary_shows {s : State} (up : s.portsUp = true) (inp : BoundaryInputs) : ShowsPins (pinsBoundary s inp) inp := by
  obtain ⟨vin, low, -⟩ := vinBoundary_shows s inp.vin
  have stops := (by decide +kernel : ∀ k < 12, F.SIO_OUTk_STAT_SENSE_HI.key k ≠ F.TLNK_PIN_STOP_N.key 0
    ∧ F.SIO_OUTk_STAT_SENSE_HI.key k ≠ F.TLNK_PIN_STILL.key 0 ∧ F.SIO_OUTk_STAT_SENSE_LO.key k ≠ F.TLNK_PIN_STOP_N.key 0
    ∧ F.SIO_OUTk_STAT_SENSE_LO.key k ≠ F.TLNK_PIN_STILL.key 0)
  unfold pinsBoundary
  rw [if_pos up]
  refine ⟨rfl, ?_, fun lt => ?_, fun k lt => ?_⟩
  · rw [ballsBoundary_get _ _ (by decide) (by decide), senseOuts_get_other _ _ _ (by decide +kernel)]; exact vin
  · rw [ballsBoundary_get _ _ (by decide) (by decide), senseOuts_get_other _ _ _ (by decide +kernel)]; exact low lt
  · obtain ⟨hiStop, hiStill, loStop, loStill⟩ := stops k lt
    rw [ballsBoundary_get _ _ hiStop hiStill, ballsBoundary_get _ _ loStop loStill]
    exact senseOuts_get _ _ _ lt

/-- The PLL's lock is none of what the boundary reads at its pins. -/
theorem pinsBoundary_portsUp (s : State) (inp : BoundaryInputs) : (pinsBoundary s inp).portsUp = s.portsUp := by
  obtain ⟨-, -, lock⟩ := vinBoundary_shows s inp.vin
  unfold pinsBoundary
  split
  · rw [← lock]
    unfold State.portsUp State.flag
    rw [ballsBoundary_get _ _ (by decide) (by decide), senseOuts_get_other _ _ _ (by decide +kernel)]
  · rfl

/-! ### The end of the boundary's work -/

/-- The step after the partner's count, with the yield before it, leaves the pins as they were read. -/
theorem boundaryEnd_pins (s : State) : PinsKept s (stepCount (yieldLate s)) := (yieldLate_pins s).trans (stepCount_pins _)

/-- After a reset no port answers. -/
theorem enterReset_portsUp (s : State) (cause : Nat) : (enterReset s cause).portsUp = false := by
  have dark : State.reset.get F.CRU_CLK_PLL_LOCK = 0 := by decide +kernel
  unfold State.portsUp State.flag enterReset
  rw [State.get_set_ne _ _ (by decide), State.get_set_ne _ _ (by decide)]
  exact congrArg (· != 0) dark

/-- The boundary of a unit whose ports answer, in the order of R42. -/
theorem boundary_eq {s : State} (up : s.portsUp = true) (inp : BoundaryInputs) : boundary s inp =
    (let v := cycleEnd s
      let v := clockDone v v.nextBoundary
      let w := (v.putNow ((v.cycle + 1) * 60000)).putCycle (v.cycle + 1)
      let a := turnsDue (w.putLink { w.link with step := 0, discards := 0 })
      let b := grantExpire (startBoundary (sensorBoundary (if a.counting then boundaryApply a else bootApply a) inp))
      let c := ledgerBoundary (tlBoundary (keepAliveBoundary (coresWork (if b.flag F.SPU_STATUS_HALTED then b else coresBoundary b) inp.marker)))
      let d := axqAnswer (recCopy (axqAnswer (recCopy c 0) 0) 1) 1
      let e := if inp.bufCe0 then bufCorrected d 0 else d
      let f := pairEnd (if inp.bufCe1 then bufCorrected e 1 else e)
      stepCount (yieldLate (pinsBoundary (if resetPair f then enterReset f 3 else startupEntry f) inp))) := by
  have work : ¬(!s.portsUp) = true := by simp [up]
  unfold boundary cycleTicks
  rw [if_neg work]
  extract_lets ended clocked stepped begun applied judged cores worked served copied buf0 buf1 paired begins link begun' judged' served' copied' buf0' paired'
  obtain hbegun : begun = begun' := rfl
  clear_value begun begun'
  subst hbegun
  obtain hjudged : judged = judged' := rfl
  clear_value judged judged'
  subst hjudged
  obtain hserved : served = served' := rfl
  clear_value served served'
  subst hserved
  obtain hcopied : copied = copied' := rfl
  clear_value copied copied'
  subst hcopied
  rfl

/-- Settles O55: the boundary is the composition of R42 as `boundary` has it, and what its pins show outlasts the yield and the step. -/
theorem boundaryWork : Obligations.BoundaryWork := by
  intro s inp
  refine ⟨fun down lines => ?_, fun up => ⟨?_, fun reset => ?_, fun answers => ?_⟩⟩
  · have still : boundary s inp = s := by unfold boundary; rw [down]; rfl
    exact answers_of (congrArg (answer s) still) lines.steady
  · exact congrArg (answer s) (boundary_eq up inp)
  · rw [(boundaryEnd_pins _).portsUp, pinsBoundary_portsUp, if_pos reset]
    exact enterReset_portsUp _ _
  · rw [(boundaryEnd_pins _).portsUp, pinsBoundary_portsUp] at answers
    exact (boundaryEnd_pins _).shows (pinsBoundary_shows answers inp)

end Sys2Proof.Machine
end

section
/-!
SUPPORT. What a change of a section, a count, a speed or the journal leaves alone: the tick, the points, the channels and the
excitation. Each lemma says it of one operation, as an equation of the parts; `simp only` with such lemmas does not touch the
conditions in between.
-/

namespace Sys2Proof.Machine

/-- The register fields of a state at the bit addresses that `w` admits. -/
def State.seen (s : State) (w : Nat → Bool) : Nat → Nat := fun k => if w k then storeGet 0 s.regs k else 0

theorem seen_set (s : State) {w : Nat → Bool} {f : Fld} {i : Nat} (h : w (f.key i) = false) (v : Nat) : (s.set f i v).seen w = s.seen w := by
  funext k
  unfold State.seen
  split
  next at_ => exact State.regs_set_ne s v fun e => by rw [e, h] at at_; exact Bool.noConfusion at_
  next => rfl

theorem get_of_seen {s t : State} {w : Nat → Bool} (h : t.seen w = s.seen w) {f : Fld} {i : Nat} (at_ : w (f.key i) = true) :
    t.get f i = s.get f i := by
  have read (u : State) : u.seen w (f.key i) = u.get f i := if_pos at_
  rw [← read, ← read, h]

theorem flag_of_seen {s t : State} {w : Nat → Bool} (h : t.seen w = s.seen w) {f : Fld} {i : Nat} (at_ : w (f.key i) = true) :
    t.flag f i = s.flag f i := by
  unfold State.flag
  rw [get_of_seen h at_]

theorem seen_mono {s t : State} {w v : Nat → Bool} (h : t.seen w = s.seen w) (le : ∀ k, v k = true → w k = true) : t.seen v = s.seen v := by
  have read (u : State) (k : Nat) (hk : w k = true) : u.seen w k = storeGet 0 u.regs k := if_pos hk
  funext k
  unfold State.seen
  split
  next at_ => rw [← read t k (le k at_), ← read s k (le k at_), h]
  next => rfl

/-- The bit addresses below the sensor points' blocks, where the excitation lies. -/
def lowKey (k : Nat) : Bool := decide (k < 0x100000)

/-- The present tick, the points and the channels of a state, and its register fields below the sensor points' blocks: what no
section, no count, no speed, no encoder, no journal and no ledger changes. -/
structure Part where
  now : Nat
  points : List Point
  chans : List Chan
  low : Nat → Nat

def State.part (s : State) : Part := ⟨s.now, s.points, s.chans, s.seen lowKey⟩

theorem part_set (s : State) {f : Fld} (h : 0x100000 ≤ f.bit) (i v : Nat) : (s.set f i v).part = s.part :=
  congrArg (Part.mk s.now s.points s.chans) (seen_set s (decide_eq_false (by unfold Fld.key; omega)) v)

theorem part_set40 (s : State) {f : Fld} (h : 0x100000 ≤ f.bit) (i v : Nat) : (s.set40 f i v).part = s.part :=
  (part_set _ (show 0x100000 ≤ f.bit + 32 by omega) _ _).trans (part_set s h _ _)

/-- What a write of a field does, whatever it writes there. -/
theorem part_write : (∀ (s : State) (f : Fld) (i v : Nat), 0x100000 ≤ f.bit → (s.set f i v).part = s.part)
    ∧ (∀ (s : State) (f : Fld) (i : Nat), 0x100000 ≤ f.bit → (s.raise f i).part = s.part)
    ∧ (∀ (s : State) (f : Fld) (i : Nat), 0x100000 ≤ f.bit → (s.lower f i).part = s.part)
    ∧ (∀ (s : State) (f : Fld) (i : Nat) (b : Bool), 0x100000 ≤ f.bit → (s.setFlag f i b).part = s.part)
    ∧ (∀ (s : State) (f : Fld) (i : Nat), 0x100000 ≤ f.bit → (s.bump f i).part = s.part)
    ∧ (∀ (s : State) (f : Fld) (i : Nat), 0x100000 ≤ f.bit → (s.bumpWrap f i).part = s.part)
    ∧ (∀ (s : State) (f : Fld) (i v : Nat), 0x100000 ≤ f.bit → (s.set40 f i v).part = s.part)
    ∧ (∀ (s : State) (f : Fld) (i : Nat) (v : Int), 0x100000 ≤ f.bit → (s.setS40 f i v).part = s.part) :=
  ⟨fun s _ _ _ h => part_set s h _ _, fun s _ _ h => part_set s h _ _, fun s _ _ h => part_set s h _ _, fun s _ _ _ h => part_set s h _ _,
    fun s _ _ h => part_set s h _ _, fun s _ _ h => part_set s h _ _, fun s _ _ _ h => part_set40 s h _ _, fun s _ _ _ h => part_set40 s h _ _⟩

theorem part_if {c : Prop} [Decidable c] (t u : State) : (if c then t else u).part = if c then t.part else u.part :=
  apply_ite State.part c t u

/-- What a change outside the part does. -/
theorem part_put : (∀ (s : State) (x : Ledger), (s.putLedger x).part = s.part) ∧ (∀ (s : State) (x : Bcw), (s.putBcw x).part = s.part)
    ∧ (∀ (s : State) (x : Fabric), (s.putFab x).part = s.part) ∧ (∀ (s : State) (x : List AxleEst), (s.putEsts x).part = s.part)
    ∧ (∀ (s : State) (a : Nat) (bs : List Byte), (s.putBytes a bs).part = s.part)
    ∧ (∀ (s : State) (n : Nat) (g : Sec → Sec), (s.updSec n g).part = s.part)
    ∧ (∀ (s : State) (n : Nat) (g : EncPort → EncPort), (s.updEnc n g).part = s.part)
    ∧ (∀ (s : State) (n : Nat) (g : BoundaryUnit → BoundaryUnit), (s.updUnit n g).part = s.part)
    ∧ (∀ (s : State) (n : Nat) (g : CmpUnit → CmpUnit), (s.updCmp n g).part = s.part) :=
  ⟨fun _ _ => rfl, fun _ _ => rfl, fun _ _ => rfl, fun _ _ => rfl, fun _ _ _ => rfl, fun _ _ _ => rfl, fun _ _ _ => rfl, fun _ _ _ => rfl,
    fun _ _ _ => rfl⟩

/-! ### Journal and Gust queue -/

theorem part_journalPut (s : State) (e : JEntry) : (s.journalPut e).part = s.part := by
  unfold State.journalPut clockKeep
  simp (disch := decide) only [part_write, part_put, part_if, ite_self]

theorem part_journal (s : State) (e : JEntry) : (s.journal e).part = s.part := by
  unfold State.journal
  rw [part_if, part_journalPut, ite_self]

theorem part_note (s : State) (a b c d e : Nat) : (s.note a b c d e).part = s.part := part_journal s _

theorem part_gustAppend (s : State) (bs : List Byte) : (s.gustAppend bs).part = s.part := by
  unfold State.gustAppend State.gustLevel
  simp (disch := decide) only [part_write, part_put, part_if, ite_self]

theorem part_gust (s : State) (ts : Nat) (bs : List Byte) : (s.gust ts bs).part = s.part := by
  unfold State.gust State.gustDrop
  simp (disch := decide) only [part_write, part_put, part_if, part_gustAppend, ite_self]

theorem part_gustKind (s : State) (k obj ts : Nat) (rest : List Byte) : (s.gustKind k obj ts rest).part = s.part := by
  unfold State.gustKind
  rw [part_if, part_gust, ite_self]

/-! ### Sections and the fabric clock -/

theorem part_secNote (s : State) (n flag : Nat) : (secNote s n flag).part = s.part := part_journal s _

theorem part_distApply (s : State) (n : Nat) (d : Dist) : (distApply s n d).part = s.part := by
  unfold distApply
  simp (disch := decide) only [part_write, part_put, part_if, part_secNote, ite_self]

theorem part_clearEpisode (s : State) (n : Nat) : (clearEpisode s n).part = s.part := by
  unfold clearEpisode evidEnd
  simp (disch := decide) only [part_write, part_put]

theorem part_stepSec (s : State) (n c0 c1 ins : Nat) : (stepSec s n c0 c1 ins).1.part = s.part := by
  unfold stepSec
  extract_lets ax t marked t' code stepped
  have same : t.part = s.part := by simp (disch := decide) only [t, part_write, part_if, ite_self]
  split
  · exact same
  · split
    · simp (disch := decide) only [marked, part_write, part_secNote, part_clearEpisode]
    · exact same
  · split
    · exact same
    · simp (disch := decide) only [stepped, t', part_write, part_if, part_secNote, ite_self, same]

theorem part_moveSec (s : State) (n : Nat) (moves : List (Nat × Bool)) : (moveSec s n moves).1.part = s.part := by
  unfold moveSec
  extract_lets ins outs c0 t low full limit c1
  split_ifs <;> simp (disch := decide) only [t, low, full, limit, part_write, part_put, part_distApply, part_stepSec]

/-- Every field that a fabric clock rewrites lies above the excitation. -/
theorem clock_high (n : Nat) : (∀ x ∈ clockOwn n, 0x100000 ≤ x.1.bit) ∧ (∀ x ∈ clockSticky n, 0x100000 ≤ x.1.bit)
    ∧ ∀ x ∈ clockShared, 0x100000 ≤ x.1.bit := by
  refine ⟨?_, ?_, by decide⟩ <;> simp +decide [clockOwn, clockSticky]

theorem part_clockBack (s : State) (e : TickSec) : (clockBack s e).part = s.part := by
  obtain ⟨own, sticky, -⟩ := clock_high e.sec
  unfold clockBack writeAll
  refine (forEach_keeps State.part (fun t x hx => part_set t (sticky _ (List.of_mem_zip hx).1) _ _) _).trans ?_
  exact forEach_keeps State.part (fun t x hx => part_set t (own _ (List.of_mem_zip hx).1) _ _) _

theorem part_clockRun (s : State) (e : TickSec) : (clockRun s e).1.part = s.part := by
  unfold clockRun
  refine (forEach_keeps State.part (fun t d _ => part_distApply t _ d) _).trans ?_
  split
  · rfl
  · exact part_moveSec s _ _

theorem part_clockRuns (s : State) (es : List TickSec) : (clockRuns s es).part = s.part := by
  have runs (es : List TickSec) (acc : State × List TickSec) :
      (es.foldl (fun (acc : State × List TickSec) e => let r := clockRun acc.1 e; (r.1, acc.2 ++ [r.2])) acc).1.part = acc.1.part := by
    induction es generalizing acc with
    | nil => rfl
    | cons e es ih => exact (ih _).trans (part_clockRun _ e)
  exact runs es _

theorem part_clockJournal (s : State) : (clockJournal s).part = s.part := by
  unfold clockJournal
  extract_lets log kept new t fab u
  have out (t : State) (e : ClockEntry) : (jrnBack t e).part = t.part := by
    unfold jrnBack
    simp (disch := decide) only [part_write, part_put]
  have back : t.part = s.part := forEach_keeps State.part (fun t e _ => out t e) s
  have redo : u.part = t.part := forEach_keeps State.part (fun t e _ => part_journalPut t _) _
  exact (part_set _ (by decide : 0x100000 ≤ F.JRN_STATUS_JRN_NEW.bit) _ _).trans (redo.trans back)

theorem part_clockFlags (s : State) : (clockFlags s).part = s.part :=
  forEach_keeps State.part (fun t _ hx => part_set t ((clock_high 0).2.2 _ (List.mem_of_mem_take (List.of_mem_zip hx).1)) _ _) s

theorem part_clockTake (s : State) (add : List TickSec) : (clockTake s add).part = s.part := by
  unfold clockTake
  have opened : (clockOpen s).part = s.part := by
    unfold clockOpen
    simp only [part_put, part_if, ite_self]
  rw [part_clockRuns, part_clockFlags, part_clockJournal, forEach_keeps State.part (fun t e _ => part_clockBack t e), opened]

theorem part_distSecs (s : State) (l : List Nat) (c : Cause) (cp : Nat) (w : Option (Nat × Nat)) : (distSecs s l c cp w).part = s.part := by
  unfold distSecs
  rw [part_if, part_clockTake, ite_self]

theorem part_distCp (s : State) (cp : Nat) (c : Cause) (w : Option (Nat × Nat)) : (distCp s cp c w).part = s.part :=
  part_distSecs s _ _ _ _

theorem part_countPassage (s : State) (c : Nat) (pos : Bool) (lat : List (Nat × Int)) : (countPassage s c pos lat).part = s.part := by
  unfold countPassage
  simp (disch := decide) only [part_write, part_if, part_distSecs, part_clockTake, ite_self]

theorem part_endWatches (s : State) (f : Nat × Nat → Option Bool) : (endWatches s f).part = s.part := by
  unfold endWatches
  extract_lets t
  have all : t.part = s.part := forN_keeps State.part (fun u n _ => by
    split
    · simp (disch := decide) only [part_write, part_put, part_if, ite_self]
    · rfl) s
  rw [part_if]
  simp only [part_put, all, ite_self]

theorem part_endSingleOf (s : State) (y : Nat) : (endSingleOf s y).part = s.part := part_endWatches s _

theorem part_reviewSingle (s : State) : (reviewSingle s).part = s.part := part_endWatches s _

theorem part_secLeaveLull (s : State) (n : Nat) : (secLeaveLull s n).part = s.part := by
  unfold secLeaveLull
  simp (disch := decide) only [part_write, part_put, part_if, part_reviewSingle, ite_self]

theorem part_syncEarly (s : State) : (syncEarly s).part = s.part :=
  forN_keeps State.part (fun t n _ => part_set t (by decide) _ _) s

/-! ### Speed -/

theorem part_setSpd (s : State) (p st : Nat) (v : Int) : (setSpd s p st v).part = s.part := by
  unfold setSpd
  simp (disch := decide) only [part_write]

theorem part_setDir (s : State) (p : Nat) (neg valid force : Bool) : (setDir s p neg valid force).part = s.part := by
  unfold setDir
  simp (disch := decide) only [part_write, part_if, ite_self]

theorem part_spdHard (s : State) (p : Nat) : (spdHard s p).1.part = s.part := by
  unfold spdHard
  extract_lets a b q v
  split_ifs <;> simp (disch := decide) only [part_write, part_setDir, part_setSpd]

theorem part_spdRows (s : State) (p : Nat) : (spdRows s p).part = s.part := by
  unfold spdRows
  have hard := part_spdHard s p
  split
  next t b e =>
    rw [e] at hard
    simp only [part_if, part_setDir, part_setSpd, hard, ite_self]

theorem part_spdPort (s : State) (q : Nat) : (spdPort s q).part = s.part :=
  forN_keeps State.part (fun t p _ => by rw [part_if, part_spdRows, ite_self]) s

end Sys2Proof.Machine
end

section
/-!
SUPPORT. The same of the encoders, the boundary units and the axle ledger.
-/

namespace Sys2Proof.Machine

/-! ### Virtual counting points and encoders -/

theorem part_vcpJudge (s : State) (k : Nat) : (vcpJudge s k).1.part = s.part := by
  unfold vcpJudge
  simp (disch := decide) only [part_write]

theorem part_vcpEval (s : State) (k : Nat) : (vcpEval s k).part = s.part := by
  have judged := part_vcpJudge s k
  unfold vcpEval vcpSides
  split
  · exact part_set s (by decide) _ _
  · split
    next t new e =>
      rw [e] at judged
      simp only [part_if, part_note, part_put, part_distCp, judged, ite_self]

theorem part_vcpEvalPort (s : State) (q : Nat) : (vcpEvalPort s q).part = s.part :=
  forN_keeps State.part (fun t k _ => by rw [part_if, part_vcpEval, ite_self]) s

theorem part_denc1 (s : State) {f : Fld} (h : 0x100000 ≤ f.bit) (q : Nat) : (denc1 s f q).part = s.part := part_set s h _ _

theorem part_portLeaveLull (s : State) (q : Nat) : (portLeaveLull s q).part = s.part := by
  unfold portLeaveLull
  split
  · refine (forN_keeps State.part (fun t n _ => by rw [part_if, part_secLeaveLull, ite_self]) _).trans ?_
    simp (disch := decide) only [part_write, part_denc1]
  · rfl

theorem part_portFault (s : State) (q : Nat) : (portFault s q).part = s.part := by
  unfold portFault
  simp (disch := decide) only [part_if, part_write, part_spdPort, part_vcpEvalPort, part_note, part_portLeaveLull, part_denc1, ite_self]

theorem part_portRelease (s : State) (q : Nat) : (portRelease s q).part = s.part := by
  have published (t : State) : (portPublish t q).part = t.part := by
    unfold portPublish
    split
    · rfl
    · simp (disch := decide) only [part_write]
  unfold portRelease portLate portValid
  simp (disch := decide) only [part_if, part_write, part_put, part_spdPort, part_vcpEvalPort, part_note, part_portLeaveLull, part_denc1,
    published, ite_self]

theorem part_driftCheck (s : State) (m p : Nat) (neg : Bool) : (driftCheck s m p neg).part = s.part := by
  unfold driftCheck
  simp (disch := decide) only [part_if, part_write, part_denc1, part_portFault, part_portRelease, ite_self]

theorem part_driftAt (s : State) (p : Nat) (neg : Bool) : (driftAt s p neg).part = s.part :=
  forN_keeps State.part (fun t m _ => by rw [part_if, part_driftCheck, ite_self]) s

/-! ### Boundary units, counts and bounds of a passage -/

theorem part_unitInsert (s : State) (k serial p : Nat) (fix : Int) (lat : List (Nat × Int)) :
    (unitInsert s k serial p fix lat).part = s.part := by
  unfold unitInsert
  simp only [part_if, part_put, part_vcpEval, ite_self]

theorem part_unitRemove (s : State) (k p : Nat) : (unitRemove s k p).part = s.part := by
  unfold unitRemove
  extract_lets q
  split
  · rfl
  · rw [part_vcpEval]; rfl

theorem part_unitRefix (s : State) (k p : Nat) (fix : Int) (lat : List (Nat × Int)) : (unitRefix s k p fix lat).part = s.part := by
  unfold unitRefix
  extract_lets q x
  split
  · rfl
  · rfl

theorem part_unitsPassage (s : State) (p serial : Nat) (fix : Int) (lat : List (Nat × Int)) (moves : List (Nat × Bool)) :
    (unitsPassage s p serial fix lat moves).part = s.part := by
  have moved : (forEach moves s (fun s m =>
      forEach (unitsOf s m.1) s (fun s k => if m.2 then unitInsert s k serial p fix lat else unitRemove s k p))).part = s.part :=
    forEach_keeps State.part (fun t m _ => forEach_keeps State.part (fun u k _ => by
      rw [part_if, part_unitInsert, part_unitRemove, ite_self]) t) s
  unfold unitsPassage
  extract_lets t
  split
  · exact (forEach_keeps State.part (fun u k _ => part_unitRefix u k p fix lat) t).trans moved
  · exact moved

theorem part_bcwCount (s : State) (c : Nat) (neg : Bool) : (bcwCount s c neg).part = s.part := by
  unfold bcwCount bcwStep
  simp (disch := decide) only [part_if, part_write, part_put, ite_self]

theorem part_boundOfPassage (s : State) (c : Nat) (v : Int) : (boundOfPassage s c v).part = s.part := by
  unfold boundOfPassage
  simp (disch := decide) only [part_write]

/-! ### The axle ledger -/

theorem part_rec : (∀ (s : State) (i off n v : Nat), (recPut s i off n v).part = s.part)
    ∧ ∀ (s : State) (i b : Nat) (v : Bool), (recSetFlag s i b v).part = s.part :=
  ⟨fun _ _ _ _ _ => rfl, fun _ _ _ _ => rfl⟩

theorem part_cmpStep (s : State) (k t : Nat) (x : Int) (e : Bool) : (cmpStep s k t x e).part = s.part := by
  unfold cmpStep cmpFire
  split
  · rfl
  · split
    · rfl
    · simp (disch := decide) only [part_if, part_write, part_put, part_gustKind, ite_self]

theorem part_cmpLost (s : State) (k : Nat) : (cmpLost s k).part = s.part := by
  unfold cmpLost
  simp (disch := decide) only [part_write]

theorem part_setMembers (s : State) (i new : Nat) : (setMembers s i new).part = s.part := by
  unfold setMembers
  extract_lets old t u
  have lapsed : t.part = s.part := by
    unfold t
    split
    · exact forN_keeps State.part (fun v n _ => by simp (disch := decide) only [part_if, part_write, ite_self]) s
    · rfl
  have counts (v : State) : (forN 48 v (fun s n =>
      if bitAt old n = bitAt new n then s
      else if bitAt new n then s.set F.LEDG_SECn_LCOUNT n (s.get F.LEDG_SECn_LCOUNT n + 1)
      else s.set F.LEDG_SECn_LCOUNT n (s.get F.LEDG_SECn_LCOUNT n - 1))).part = v.part :=
    forN_keeps State.part (fun v n _ => by simp (disch := decide) only [part_if, part_write, ite_self]) v
  exact (counts u).trans lapsed

theorem part_moveMembers (s : State) (i : Nat) (dep arr : List Nat) : (moveMembers s i dep arr).part = s.part := part_setMembers s i _

theorem part_freeSlot (s : State) (i : Nat) : (freeSlot s i).part = s.part := by
  unfold freeSlot
  split
  · rfl
  · have lost : (forEach (cmpsOf s (axleId s i)) s cmpLost).part = s.part := forEach_keeps State.part (fun t k _ => part_cmpLost t k) s
    simp (disch := decide) only [part_write, part_put, part_setMembers, lost]

theorem part_giveFix (s : State) (id : Nat) (e : AxleEst) (old : Option (Nat × Int)) : (giveFix s id e old).part = s.part := by
  unfold giveFix
  extract_lets lim t u
  have told : t.part = s.part := by
    unfold t
    split
    · simp (disch := decide) only [part_if, part_write, part_note, ite_self]
    · rfl
  exact (forEach_keeps State.part (fun v k _ => part_cmpStep v k _ _ _) u).trans told

theorem part_fixObs (s : State) (o : Obs) (id : Nat) (old : Option (Nat × Int)) : (fixObs s o id old).part = s.part :=
  part_giveFix s _ _ _

theorem part_heldFrom (o s : State) (id t : Nat) (po ps : List (Nat × Int)) : (heldFrom o s id t po ps).part = s.part := by
  unfold heldFrom
  rw [part_if]
  exact ite_self _

theorem part_syncLedger (s : State) : (syncLedger s).part = s.part :=
  forN_keeps State.part (fun t n _ => by simp (disch := decide) only [part_if, part_write, ite_self]) s

theorem part_setBad (s : State) {f : Fld} (h : 0x100000 ≤ f.bit) (l : List Nat) : (setBad s f l).part = s.part :=
  forEach_keeps State.part (fun t n _ => by simp (disch := exact h) only [part_if, part_write, ite_self]) s

theorem part_coverLost (s : State) (l : List Nat) : (coverLost s l).part = s.part :=
  forEach_keeps State.part (fun t n _ => part_set t (by decide : 0x100000 ≤ F.LEDG_SECn_COVER_LOST.bit) n 1) s

theorem part_lapse (s : State) (i : Nat) : (lapse s i).part = s.part := by
  unfold lapse
  simp (disch := decide) only [part_if, part_write, part_rec, ite_self]

theorem part_lapseSecs (s : State) (l : List Nat) : (lapseSecs s l).part = s.part :=
  forEach_keeps State.part (fun t i _ => by rw [part_if, part_lapse, ite_self]) s

theorem part_ledgerClearSec (s : State) (n t : Nat) (ps : List (Nat × Int)) : (ledgerClearSec s n t ps).part = s.part := by
  unfold ledgerClearSec
  refine (forEach_keeps State.part (fun v i _ => ?_) _).trans (part_put.1 s _)
  simp only [part_if, part_note, part_freeSlot, part_heldFrom, part_setMembers, ite_self]

theorem part_issue (s : State) (v : Verdict) : (issue s v).part = s.part := by
  unfold issue
  simp (disch := decide) only [part_if, part_write, part_put, part_coverLost, part_journal, part_gustKind, ite_self]

theorem part_loose : (∀ (s : State) (id : Nat) (b : Bool), (dropLoose s id b).part = s.part)
    ∧ (∀ (s : State) (o : Obs) (id : Nat), (noteTaken s o id).part = s.part) ∧ ∀ (s : State) (o : Obs), (putObs s o).part = s.part :=
  ⟨fun _ _ _ => rfl, fun _ _ _ => rfl, fun _ _ => rfl⟩

theorem part_localise (s : State) (o : Obs) (id : Nat) : (localise s o id).part = s.part := by
  unfold localise
  extract_lets here t
  have all : t.part = s.part := forEach_keeps State.part (fun u l _ => by
    split
    · split
      · rw [part_loose.1, part_issue]
      · rw [part_loose.1]
    · rw [part_if, part_issue, ite_self]) _
  rw [part_if, part_loose.1, all, ite_self]

theorem part_passedOver (s : State) (look : Nat) (o : Obs) : (passedOver s look o).part = s.part := by
  unfold passedOver
  refine (forEach_keeps State.part (fun u l _ => ?_) _).trans (part_put.1 s _)
  split
  · rw [part_issue, part_loose.1]
  · rfl

theorem part_insertFinal (s : State) (o : Obs) : (insertFinal s o).part = s.part := by
  unfold insertFinal
  extract_lets t
  refine (part_put.1 t _).trans ?_
  unfold t
  split
  · exact part_issue s _
  · rfl

theorem part_finalSkip (s : State) (o : Obs) (sk : Nat × Nat) : (finalSkip s o sk).part = s.part := by
  unfold finalSkip
  split
  · rfl
  · simp only [part_put, part_rec, part_loose]
    split
    · simp only [part_if, part_issue, part_loose, ite_self]
    · rfl

theorem part_slip (s : State) (v : LedgVals) (o : Obs) (i : Nat) : (slip s v o i).part = s.part := by
  unfold slip
  simp (disch := decide) only [part_if, part_write, part_put, part_rec, part_journal, part_gustKind, ite_self]

theorem part_linkAhead (s : State) (i : Nat) (o : Obs) : (linkAhead s i o).part = s.part := by
  unfold linkAhead
  split
  · rfl
  · rfl

theorem part_unlink (s : State) (o : Obs) : (unlink s o).part = s.part := by
  unfold unlink
  split
  · rw [part_if]; exact ite_self _
  · rfl

theorem part_writePassage (s : State) (i : Nat) (o : Obs) : (writePassage s i o).part = s.part := by
  unfold writePassage
  simp only [part_linkAhead, part_rec, part_put]

theorem part_createRec (s : State) (o : Obs) (b : Bool) : (createRec s o b).1.part = s.part := by
  unfold createRec
  split
  · simp (disch := decide) only [part_write, part_coverLost]
  · simp (disch := decide) only [part_write, part_put, part_rec, part_writePassage, part_setMembers]

theorem part_nameEntries (s : State) (serial id : Nat) : (nameEntries s serial id).part = s.part := rfl

theorem part_virtualMove (s : State) (i : Nat) (m : VMove) : (virtualMove s i m).part = s.part := by
  unfold virtualMove
  simp (disch := decide) only [part_if, part_rec, part_freeSlot, part_heldFrom, part_moveMembers, part_setBad, ite_self]

theorem part_virtualWaiting (s : State) (o : Obs) : (virtualWaiting s o).part = s.part := by
  unfold virtualWaiting
  refine (forEach_keeps State.part (fun u v _ => ?_) _).trans (part_put.1 s _)
  split
  · exact part_virtualMove u _ v
  · rfl

theorem part_freeMade (s : State) (o : Obs) : (freeMade s o).part = s.part := by
  unfold freeMade
  split
  · rw [part_if, part_freeSlot, ite_self]
  · rfl

theorem part_syncProv (s : State) (i : Nat) : (syncProv s i).part = s.part := rfl

theorem part_finalise (s : State) (v : LedgVals) (o : Obs) : (finalise s v o).part = s.part := by
  have skipped (t : State) (o : Obs) (l : List (Nat × Nat)) : (forEach l t (fun s sk => finalSkip s o sk)).part = t.part :=
    forEach_keeps State.part (fun u sk _ => part_finalSkip u o sk) t
  unfold finalise
  extract_lets o t u w passed skip placed named
  have begun : u.part = s.part := by
    simp (disch := decide) only [u, t, part_if, part_setBad, part_freeMade, part_loose, ite_self]
  have slipped : w.part = s.part := by
    unfold w
    split
    · simp only [part_if, part_slip, part_put, part_syncProv, begun, ite_self]
    · exact begun
  have done : named.part = s.part := by
    simp only [named, placed, skip, passed, part_if, part_virtualWaiting, part_nameEntries, part_insertFinal, part_localise, skipped,
      part_passedOver, slipped, ite_self]
  split
  · rw [part_if, part_freeSlot, done, ite_self]
  · exact done

theorem part_assign (s : State) (o : Obs) (i dist margin : Nat) (tol late : Bool) : (assign s o i dist margin tol late).part = s.part := by
  unfold assign
  extract_lets id saved old shadow mapped moved coded prov cleared withDist withMargin made o' written lapsed bad
  have before : withMargin.part = s.part := by
    simp only [withMargin, withDist, cleared, prov, coded, moved, part_if, part_rec, part_moveMembers, ite_self]
  have remade : made.part = s.part := by
    unfold made
    split
    · rw [part_if, part_setMembers, before, ite_self]
    · exact before
  simp (disch := decide) only [bad, lapsed, written, part_fixObs, part_if, part_setBad, part_lapse, part_writePassage, part_loose, remade,
    ite_self]

theorem part_putMade (s : State) (o : Obs) (i : Nat) (late : Bool) : (putMade s o i late).part = s.part := by
  unfold putMade
  simp only [part_fixObs, part_if, part_lapse, part_loose, part_rec, ite_self]

theorem part_insertObs (s : State) (o : Obs) (late : Bool) : (insertObs s o late).part = s.part := by
  unfold insertObs
  extract_lets t again
  have bad : t.part = s.part := part_setBad s (by decide) _
  clear_value again
  split
  · rw [part_putMade, part_linkAhead, part_rec.1, part_setMembers, bad]
  · have made := part_createRec t o true
    split
    next e => rw [e] at made; exact made.trans bad
    next e => rw [e] at made; rw [part_putMade]; exact made.trans bad

theorem part_takeBack (s : State) (i : Nat) (saved : List Byte) : (takeBack s i saved).part = s.part := by
  have fields (t : State) : (forEach assignFields t (fun s f => s.putBytes (recAddr i + f.1) ((saved.drop f.1).take f.2))).part = t.part :=
    forEach_keeps State.part (fun u f _ => part_put.2.2.2.2.1 u _ _) t
  unfold takeBack
  simp only [part_if, part_put, part_rec, part_setMembers, fields, ite_self]

theorem part_undo (s : State) (own o : Obs) : (undo s own o).part = s.part := by
  unfold undo
  split
  · rfl
  · simp only [part_if, part_put, part_loose, part_syncProv, part_heldFrom, part_takeBack, part_unlink, ite_self]

theorem part_applySteps (v : LedgVals) (late : Bool) (os : List (Obs × Int)) (cs : List Cand) (best : Rat) (s0 : State) (l : List AStep)
    (s : State) (prev : Nat × Int) (pend : List Cand) : (applySteps v late os cs best s0 l s prev pend).part = s.part := by
  induction l generalizing s prev pend with
  | nil => rfl
  | cons x l ih =>
    cases x with
    | skip j =>
      unfold applySteps
      split
      · rw [ih, part_if, part_setBad _ (by decide), ite_self]
      · exact ih s _ _
    | ins i =>
      unfold applySteps
      split
      · rw [ih, part_insertObs]
      · exact ih s _ _
    | hit i j =>
      unfold applySteps
      split
      · rw [ih, part_assign]
      · exact ih s _ _

theorem part_syncWaiting (s : State) : (syncWaiting s).part = s.part := by
  unfold syncWaiting
  extract_lets deps
  split
  · rfl
  · exact forEach_keeps State.part (fun t i _ => by simp only [part_if, part_put, part_rec, ite_self]) s

theorem part_finaliseJob (s : State) (v : LedgVals) (j : Job) (exhausted : Bool) : (finaliseJob s v j exhausted).part = s.part :=
  forEach_keeps State.part (fun t o _ => part_finalise t v o) s

theorem part_runJob (s : State) (j : Job) : (runJob s j).part = s.part := by
  have undone (own : Obs) (l : List Obs) : (forEach l s (fun s o => undo s own o)).part = s.part :=
    forEach_keeps State.part (fun t o _ => part_undo t own o) s
  unfold runJob
  extract_lets v
  split
  split
  · rfl
  · extract_lets t later cs base os
    split
    rw [part_finaliseJob, part_applySteps]
    exact undone _ _

theorem part_syncQueue (s : State) : (syncQueue s).part = s.part := by
  unfold syncQueue
  simp (disch := decide) only [part_if, part_write, ite_self]

theorem part_createFor (s : State) (look : Nat) (o : Obs) : (createFor s look o).part = s.part := by
  have made := part_createRec s o false
  unfold createFor
  split
  next e => rw [e] at made; exact made
  next e =>
    rw [e] at made
    rw [part_virtualWaiting, part_passedOver, part_nameEntries, part_fixObs]
    exact made

theorem part_quietTurn (s : State) (j : Job) : (quietTurn s j).part = s.part :=
  forEach_keeps State.part (fun t o _ => part_finalise t j.vals o) s

theorem part_virtualTurn (s : State) (id : Nat) (m : VMove) : (virtualTurn s id m).part = s.part := by
  unfold virtualTurn
  split
  · rfl
  · split
    · exact part_virtualMove s _ m
    · rfl

theorem part_applyTurns (fuel : Nat) (s : State) : (applyTurns fuel s).part = s.part := by
  induction fuel generalizing s with
  | zero => rfl
  | succ fuel ih =>
    unfold applyTurns
    split
    · rfl
    · next j rest _ =>
      extract_lets t
      split
      · rw [ih, part_runJob]; rfl
      · rw [ih]
        split
        · rw [part_createFor]; rfl
        · rfl
      · rw [ih, part_quietTurn]; rfl
      · rw [ih, part_virtualTurn]; rfl
      · rw [part_if, ih, part_ledgerClearSec]; exact ite_self _
      · rfl

theorem part_syncTurns (s : State) : (syncTurns s).part = s.part := by
  unfold syncTurns
  rw [part_syncLedger, part_syncWaiting, part_syncQueue, part_applyTurns]

theorem part_ledgerSweeps (s : State) : (ledgerSweeps s).part = s.part := by
  unfold ledgerSweeps
  rw [part_if]
  exact ite_self _

theorem part_ledgerPassage (s : State) (o : Obs) : (ledgerPassage s o).part = s.part := by
  unfold ledgerPassage
  simp (disch := decide) only [part_syncTurns, part_if, part_write, part_put, part_loose, part_coverLost, part_lapseSecs, ite_self]

end Sys2Proof.Machine
end

section
/-!
SUPPORT. What the events and the samples of a sensor point leave alone: besides the tick and the excitation, what its points hold.
-/

namespace Sys2Proof.Machine

/-- What no event of a sensor point changes there: its pending values with their mark, and whether it is BLIND. -/
abbrev Point.held (q : Point) : Option PendVals × Bool × Bool := (q.pend, q.force, q.blind)

/-- What no event of a sensor point changes: the tick, what its points hold, how many channels there are, and the excitation. -/
def Part.still (a : Part) : Nat × List (Option PendVals × Bool × Bool) × Nat × (Nat → Nat) :=
  (a.now, a.points.map Point.held, a.chans.length, a.low)

theorem map_upd {α β : Type} (h : α → β) (l : List α) (n : Nat) {g : α → α} (eq : ∀ a, h (g a) = h a) : (upd l n g).map h = l.map h := by
  unfold upd
  refine List.ext_getElem (by simp) fun i _ _ => ?_
  simp only [List.getElem_map, List.getElem_modify]
  split
  · exact eq _
  · rfl

theorem still_updPoint (s : State) (n : Nat) {g : Point → Point} (h : ∀ q, (g q).held = q.held) :
    (s.updPoint n g).part.still = s.part.still :=
  congrArg (fun l => (s.now, l, s.chans.length, s.part.low)) (map_upd Point.held s.points n h)

theorem still_updChan (s : State) (n : Nat) (g : Chan → Chan) : (s.updChan n g).part.still = s.part.still :=
  congrArg (fun l => (s.now, s.points.map Point.held, l, s.part.low)) (List.length_modify g s.chans n)

theorem still_if {c : Prop} [Decidable c] (t u : State) :
    (if c then t else u).part.still = if c then t.part.still else u.part.still :=
  apply_ite (fun s : State => s.part.still) c t u

/-! ### Events of a point -/

theorem still_dropEarly (s : State) (p : Nat) : (dropEarly s p).part.still = s.part.still := by
  unfold dropEarly
  simp (disch := exact fun _ => rfl) only [part_syncEarly, still_updPoint]

theorem still_raiseEarly (s : State) (p : Nat) (neg : Bool) (lat : List (Nat × Int)) :
    (raiseEarly s p neg lat).part.still = s.part.still := by
  unfold raiseEarly
  split
  · rfl
  · simp (disch := exact fun _ => rfl) only [part_syncEarly, still_updPoint]

theorem still_setSeq (s : State) (p : Nat) (q : Seq) (e : Entry) : (setSeq s p q e).part.still = s.part.still :=
  still_updPoint s p fun _ => rfl

theorem still_pointLeaveLull (s : State) (p : Nat) : (pointLeaveLull s p).part.still = s.part.still := by
  have secs (t : State) : (forEach (secsOnPoint t p) t secLeaveLull).part = t.part :=
    forEach_keeps State.part (fun u n _ => part_secLeaveLull u n) t
  unfold pointLeaveLull
  extract_lets t u v
  have quiet : t.part.still = s.part.still := still_updPoint s p fun _ => rfl
  have out : v.part = u.part := part_set u (by decide) _ _
  have left : u.part.still = t.part.still := still_updPoint t p fun _ => rfl
  rw [still_if, secs, out, left, quiet, ite_self]

theorem still_emit (s : State) (p : Nat) (i : EvInfo) (ts : Nat) (lat : List (Nat × Int)) : (emit s p i ts lat).part.still = s.part.still := by
  unfold emit
  extract_lets t bytes u fault v
  have queued : u.part = s.part := by simp (disch := decide) only [u, t, part_if, part_write, part_gust, ite_self]
  have counted : v.part = s.part := by
    unfold v
    split <;> simp (disch := decide) only [fault, part_if, part_write, part_journal, queued, ite_self]
  split
  · simp (disch := exact fun _ => rfl) only [still_updPoint, counted]
  · rw [still_pointLeaveLull, counted]

theorem still_rec0 (s : State) (p : Nat) (k : EvKind) (sys : Bool) (ts : Nat) : (rec0 s p k sys ts).part.still = s.part.still :=
  still_emit s p _ _ _

theorem still_passage (s : State) (p : Nat) (neg : Bool) : (passage s p neg).part.still = s.part.still := by
  unfold passage
  extract_lets pt ts lat t serial u tn d1 d2 v vt ca cb sin centre tc fix moves w w1 w2 w3 host station da
  split
  next g part _ =>
  extract_lets w4
  have told : u.part.still = s.part.still := (congrArg Part.still (part_set t (by decide) _ _)).trans (still_emit s p _ _ _)
  have counted : w.part.still = s.part.still := by
    unfold w
    split
    · simp only [part_bcwCount, part_ledgerSweeps, still_dropEarly, part_countPassage, told]
    · exact (still_dropEarly u p).trans told
  have entered : w4.part = w.part := by
    simp only [w4, w3, w2, w1, part_if, part_ledgerPassage, part_unitsPassage, part_boundOfPassage, part_driftAt, ite_self]
  unfold keepRaw
  simp (disch := exact fun _ => rfl) only [still_updPoint, entered, counted]

/-! ### The sequencer -/

theorem still_seqFaultOf (s : State) (p reason ts : Nat) (e : Entry) : (seqFaultOf s p reason ts e).part.still = s.part.still := by
  unfold seqFaultOf disturbPoint
  extract_lets t
  have told : t.part.still = s.part.still := still_emit s p _ _ _
  split
  · rw [part_distCp, still_dropEarly, told]
  · rw [still_dropEarly, told]

theorem still_spdEvent (s : State) (p : Nat) (e : SpdEvent) : (spdEvent s p e).part.still = s.part.still := by
  have hard := part_spdHard s p
  unfold spdEvent
  split
  next t b eq =>
    rw [eq] at hard
    have same : t.part.still = s.part.still := congrArg Part.still hard
    have tick (u : State) (p v : Nat) : (u.updPoint p (fun x => { x with spdTick := v })).part.still = u.part.still :=
      still_updPoint u p fun _ => rfl
    split
    · exact same
    · split <;> simp only [still_if, part_setDir, part_setSpd, tick, same, ite_self]

theorem still_spdOnset (s : State) (p : Nat) (e : SpdEvent) : (spdOnset s p e).part.still = s.part.still := still_spdEvent s p _

theorem still_firstOnset (s : State) (p t : Nat) : (firstOnset s p t).part.still = s.part.still := by
  unfold firstOnset
  simp (disch := exact fun _ => rfl) only [still_updChan, still_updPoint]

theorem still_enterOn (s : State) (p : Nat) (sysB : Bool) (t : Nat) : (enterOn s p sysB t).part.still = s.part.still := by
  unfold enterOn
  simp (disch := exact fun _ => rfl) only [still_spdEvent, still_rec0, still_updPoint, still_raiseEarly, still_setSeq, still_firstOnset]

theorem still_enterBoth (s : State) (p t : Nat) : (enterBoth s p t).part.still = s.part.still := by
  unfold enterBoth seqFault
  rw [still_spdEvent, still_seqFaultOf, still_rec0, still_rec0, still_setSeq, still_firstOnset]

theorem still_noOverlap (s : State) (p : Nat) (sysB : Bool) (t : Nat) : (noOverlap s p sysB t).part.still = s.part.still := by
  unfold noOverlap seqFault
  rw [still_spdEvent, still_seqFaultOf, still_rec0, still_setSeq, still_firstOnset]

theorem still_secondOnset (s : State) (p : Nat) (sysB : Bool) (t : Nat) : (secondOnset s p sysB t).part.still = s.part.still := by
  unfold secondOnset
  simp (disch := exact fun _ => rfl) only [still_if, still_spdOnset, still_spdEvent, ite_self, still_rec0, still_updPoint]

theorem still_backToAb (s : State) (p : Nat) (sysB : Bool) (t : Nat) : (backToAb s p sysB t).part.still = s.part.still := by
  unfold backToAb
  simp (disch := exact fun _ => rfl) only [still_spdOnset, still_rec0, still_updPoint]

theorem still_startHold (s : State) (p : Nat) (neg : Bool) (t : Nat) : (startHold s p neg t).part.still = s.part.still := by
  unfold startHold
  simp (disch := exact fun _ => rfl) only [still_spdEvent, still_updPoint, still_rec0]

theorem still_eddy (s : State) (p : Nat) (sysB : Bool) (t : Nat) : (eddy s p sysB t).part.still = s.part.still := by
  unfold eddy
  simp (disch := exact fun _ => rfl) only [still_spdEvent, still_updPoint, still_dropEarly, still_emit, still_rec0]

theorem still_unresolved (s : State) (p : Nat) (sysB : Bool) (t : Nat) : (unresolved s p sysB t).part.still = s.part.still := by
  unfold unresolved
  rw [still_setSeq, still_dropEarly, still_emit, still_rec0]

theorem still_holdCancel (s : State) (p : Nat) (sysB : Bool) (t : Nat) : (holdCancel s p sysB t).part.still = s.part.still := by
  unfold holdCancel
  simp (disch := exact fun _ => rfl) only [still_spdOnset, still_updPoint, still_rec0, still_setSeq]

theorem still_endHold (s : State) (p : Nat) : (endHold s p).part.still = s.part.still := by
  unfold endHold
  rw [still_setSeq, still_passage]

theorem still_expireBy (s : State) (p t : Nat) : (expireBy s p t).part.still = s.part.still := by
  unfold expireBy
  extract_lets pt
  split
  · rw [still_if, still_setSeq, ite_self]
  · rw [still_if, still_setSeq, ite_self]
  · rfl

theorem still_expireHold (s : State) (p k : Nat) : (expireHold s p k).part.still = s.part.still := by
  unfold expireHold
  rw [still_if, still_endHold, ite_self]

theorem still_seqOn (s : State) (p : Nat) (sysB : Bool) (t : Nat) : (seqOn s p sysB t).part.still = s.part.still := by
  unfold seqOn
  extract_lets u
  have begun : u.part.still = s.part.still := still_expireBy s p t
  split <;> simp only [still_enterOn, still_secondOnset, still_backToAb, still_holdCancel, still_endHold, still_noOverlap, begun]

theorem still_seqOff (s : State) (p : Nat) (sysB : Bool) (t : Nat) : (seqOff s p sysB t).part.still = s.part.still := by
  have off (b : Bool) (q : Seq) (neg : Bool) : ((rec0 s p .offset b t).updPoint p
      (fun x => { x with seq := q, off1 := t, goingNeg := neg })).part.still = s.part.still :=
    by simp (disch := exact fun _ => rfl) only [still_updPoint, still_rec0]
  unfold seqOff
  extract_lets pt
  split <;> simp only [still_if, still_eddy, still_unresolved, still_startHold, off, ite_self]

theorem still_seqBothOn (s : State) (p t : Nat) : (seqBothOn s p t).part.still = s.part.still := by
  unfold seqBothOn
  extract_lets u
  have begun : u.part.still = s.part.still := still_expireBy s p t
  split <;> simp only [still_enterBoth, still_endHold, begun]

theorem still_seqBothOff (s : State) (p t : Nat) : (seqBothOff s p t).part.still = s.part.still := by
  unfold seqBothOff
  rw [still_seqFaultOf, still_setSeq, still_rec0, still_rec0]

/-! ### The samples of a point -/

theorem still_setOn (s : State) (c : Nat) (on : Bool) (t : Nat) : (setOn s c on t).part.still = s.part.still := by
  unfold setOn
  rw [still_if, part_endSingleOf, still_updChan, still_updChan, ite_self]

theorem still_crossings (s : State) (p : Nat) (ca cb : Option (Bool × Nat)) : (crossings s p ca cb).part.still = s.part.still := by
  unfold crossings
  extract_lets one
  have each (t : State) (b : Bool) (x : Bool × Nat) : (one t b x).part.still = t.part.still := by
    simp only [one, still_if, still_seqOn, still_seqOff, still_setOn, ite_self]
  split
  · rfl
  · exact each s _ _
  · exact each s _ _
  · simp only [still_if, each, still_seqBothOn, still_seqBothOff, still_setOn, ite_self]

theorem still_parkRecord (s : State) (c : Nat) : (parkRecord s c).part.still = s.part.still := by
  unfold parkRecord
  simp (disch := exact fun _ => rfl) only [still_if, still_rec0, still_updPoint, still_updChan, ite_self]

theorem still_parkSample (s : State) (c k : Nat) (l : Int) : (parkSample s c k l).part.still = s.part.still := by
  unfold parkSample
  extract_lets p ch m sum n band need cnt newly step was t u
  split
  · exact still_updChan s c _
  · simp (disch := exact fun _ => rfl) only [step, u, t, still_if, still_rec0, still_updPoint, still_updChan, ite_self]

theorem still_readySample (s : State) (c : Nat) (x : Sample) : (readySample s c x).part.still = s.part.still := by
  unfold readySample
  simp (disch := decide) only [part_if, part_write, part_note, still_updChan, ite_self]

theorem still_calSample (s : State) (c : Nat) (x : Sample) : (calSample s c x).part.still = s.part.still := by
  unfold calSample
  simp only [still_if, still_updChan, ite_self]

theorem still_refSample (s : State) (c : Nat) (x : Sample) : (refSample s c x).part.still = s.part.still := by
  unfold refSample refFail syncRefBusy
  split
  · rfl
  · simp (disch := decide) only [still_if, part_write, still_updChan, ite_self]

theorem still_firstValid (s : State) (c : Nat) (l : Int) : (firstValid s c l).part.still = s.part.still := by
  unfold firstValid
  split
  · rfl
  · extract_lets p y t
    split
    · simp only [t, still_if, part_distCp, still_updChan, ite_self]
    · exact still_updChan s c _

theorem still_sampleDone (s : State) (c : Nat) (x : Sample) : (sampleDone s c x).part.still = s.part.still := by
  unfold sampleDone keepSample
  simp only [still_if, still_readySample, still_firstValid, still_parkSample, still_updChan, still_calSample, still_refSample, ite_self]

theorem still_pairCrossings (s : State) (p : Nat) (xa xb ya yb : Option Sample) (k : Nat) :
    (pairCrossings s p xa xb ya yb k).part.still = s.part.still := by
  unfold pairCrossings
  extract_lets ca cb
  split
  · exact still_crossings s p _ _
  · split
    · split <;> simp only [still_crossings]
    · split <;> simp only [still_crossings]

theorem still_evalPair (s : State) (p : Nat) (xa xb ya yb : Option Sample) : (evalPair s p xa xb ya yb).part.still = s.part.still := by
  unfold evalPair
  extract_lets k t one
  have each (u : State) (c : Nat) (x : Option Sample) : (one u c x).part.still = u.part.still := by
    cases x with
    | none => rfl
    | some x => exact still_sampleDone u c x
  unfold t parkRecords
  simp only [still_if, part_reviewSingle, still_parkRecord, each, still_pairCrossings, still_expireHold, ite_self]

theorem still_drainPair (fuel : Nat) (s : State) (p : Nat) : (drainPair fuel s p).part.still = s.part.still := by
  induction fuel generalizing s with
  | zero => rfl
  | succ fuel ih =>
    unfold drainPair
    split
    · simp only [still_if, ih, still_evalPair, still_updChan, ite_self]
    · rfl

theorem still_drainHeld (s : State) (p : Nat) : (drainHeld s p).part.still = s.part.still := by
  unfold drainHeld drain
  split
  · simp only [still_if, still_drainPair, still_evalPair, still_updChan, ite_self]
  · rfl

/-! ### A point becomes BLIND -/

theorem still_abandon (s : State) (p : Nat) : (abandon s p).part.still = s.part.still := by
  unfold abandon
  rw [still_setSeq, still_dropEarly]
  split
  · exact still_passage s p _
  · exact still_passage s p _
  · rfl

end Sys2Proof.Machine
end

section
/-!
SUPPORT. What a point's becoming BLIND leaves at the point (R30, R55, R56).
-/

namespace Sys2Proof.Machine

/-! ### Points and channels as they are read -/

theorem nth_map {α β : Type} [Inhabited α] [Inhabited β] (f : α → β) (l : List α) (n : Nat) (d : f default = default) :
    nth (l.map f) n = f (nth l n) := by
  unfold nth
  rw [← d, List.getD_map]

theorem nth_upd_self {α : Type} [Inhabited α] {l : List α} {n : Nat} (h : n < l.length) (f : α → α) : nth (upd l n f) n = f (nth l n) := by
  unfold nth upd
  rw [List.getD_eq_getElem _ _ (by rw [List.length_modify]; exact h), List.getD_eq_getElem _ _ h, List.getElem_modify_eq]

theorem nth_upd_ne {α : Type} [Inhabited α] (l : List α) {n m : Nat} (h : n ≠ m) (f : α → α) : nth (upd l n f) m = nth l m := by
  simp [nth, upd, h]

theorem point_updPoint {s : State} {p : Nat} (h : p < s.points.length) (g : Point → Point) : (s.updPoint p g).point p = g (s.point p) :=
  nth_upd_self h g

theorem chan_updChan {s : State} {c : Nat} (h : c < s.chans.length) (g : Chan → Chan) : (s.updChan c g).chan c = g (s.chan c) :=
  nth_upd_self h g

theorem chan_updChan_ne (s : State) {c d : Nat} (h : c ≠ d) (g : Chan → Chan) : (s.updChan c g).chan d = s.chan d :=
  nth_upd_ne s.chans h g

theorem chans_updChan_length (s : State) (c : Nat) (g : Chan → Chan) : (s.updChan c g).chans.length = s.chans.length :=
  List.length_modify g s.chans c

theorem held_of_still {s t : State} (h : t.part.still = s.part.still) (p : Nat) : (t.point p).held = (s.point p).held := by
  have maps : t.points.map Point.held = s.points.map Point.held := congrArg (fun x => x.2.1) h
  have at_ (u : State) : nth (u.points.map Point.held) p = (u.point p).held := nth_map Point.held u.points p rfl
  rw [← at_, ← at_, maps]

theorem still_sizes {s t : State} (h : t.part.still = s.part.still) : t.points.length = s.points.length ∧ t.chans.length = s.chans.length := by
  have maps : t.points.map Point.held = s.points.map Point.held := congrArg (fun x => x.2.1) h
  exact ⟨by simpa using congrArg List.length maps, congrArg (fun x => x.2.2.1) h⟩

/-! ### A point becomes BLIND (R30, R55, R56) -/

/-- A channel whose point becomes BLIND (R56, R113). -/
def blindChan (t : State) (c : Chan) : Chan := { c with bad := [], causes := [], tagK := t.now / 1250, firstDue := false }

/-- The marks of a point that becomes BLIND, its sequencer abandoned before where it was usable. -/
def blindMarks (s : State) (p : Nat) (cause : Cause) : State :=
  let a := if usable s p then abandon s p else s
  let b := a.updPoint p (fun q => { q with blind := true, blindSince := a.now, blindExc := blindExempt s p, blindTo := cause == .takeover })
  let c := b.updChan (2 * p) (blindChan b)
  c.updChan (2 * p + 1) (blindChan c)

/-- A point that has become BLIND, its speed and SINGLE reviewed and the change journaled, before its sections are judged. -/
def blindTold (s : State) (p : Nat) (cause : Cause) : State :=
  let t := (spdHard (blindMarks s p cause) p).1
  reviewSingle (t.note 0 0x04 0xFF p (pointWord t p))

theorem enterBlind_blind {s : State} {p : Nat} (h : (s.point p).blind = true) (cause : Cause) : enterBlind s p cause = s := by
  unfold enterBlind
  exact if_pos h

/-- A point that is not BLIND becomes BLIND; its sections are disturbed unless it meets the exception of R30 or is FAULTY. -/
theorem enterBlind_eq {s : State} {p : Nat} (h : (s.point p).blind = false) (cause : Cause) : ∃ watch,
    enterBlind s p cause = if blindExempt s p || ((s.chan (2 * p)).faulty || (s.chan (2 * p + 1)).faulty) then blindTold s p cause
      else match pointCp s p with
        | some c => distCp (blindTold s p cause) c cause watch
        | none => blindTold s p cause := by
  unfold enterBlind
  rw [if_neg (by rw [h]; exact Bool.noConfusion)]
  exact ⟨_, rfl⟩

theorem part_blindTold (s : State) (p : Nat) (cause : Cause) : (blindTold s p cause).part = (blindMarks s p cause).part := by
  unfold blindTold
  rw [part_reviewSingle, part_note, part_spdHard]

theorem part_enterBlind {s : State} {p : Nat} (h : (s.point p).blind = false) (cause : Cause) :
    (enterBlind s p cause).part = (blindMarks s p cause).part := by
  obtain ⟨watch, eq⟩ := enterBlind_eq h cause
  rw [eq]
  split
  · exact part_blindTold s p cause
  · split
    · rw [part_distCp, part_blindTold]
    · exact part_blindTold s p cause

theorem abandon_idle {s : State} {p : Nat} (pts : p < s.points.length) :
    ((abandon s p).point p).seq = .idle ∧ ((abandon s p).point p).entry = .none := by
  have all (t : State) (h : t.part.still = s.part.still) :
      ((setSeq (dropEarly t p) p .idle .none).point p).seq = .idle ∧ ((setSeq (dropEarly t p) p .idle .none).point p).entry = .none := by
    have len : p < (dropEarly t p).points.length := by
      rw [(still_sizes ((still_dropEarly t p).trans h)).1]
      exact pts
    unfold setSeq
    rw [point_updPoint len]
    exact ⟨rfl, rfl⟩
  unfold abandon
  split
  · exact all _ (still_passage s p _)
  · exact all _ (still_passage s p _)
  · exact all s rfl

/-- What `blindMarks` leaves of `s` at its point and its channels. -/
structure Marked (s t : State) (p : Nat) : Prop where
  size : t.points.length = s.points.length
  blind : (t.point p).blind = true
  exc : (t.point p).blindExc = blindExempt s p
  pend : (t.point p).pend = (s.point p).pend
  force : (t.point p).force = (s.point p).force
  idle : usable s p = true → (t.point p).seq = .idle ∧ (t.point p).entry = .none
  countA : (t.chan (2 * p)).bad = []
  countB : (t.chan (2 * p + 1)).bad = []
  low : t.part.low = s.part.low

theorem blindMarks_marked {s : State} {p : Nat} (pts : p < s.points.length) (chs : 2 * p + 1 < s.chans.length) (cause : Cause) :
    Marked s (blindMarks s p cause) p := by
  have still : (if usable s p then abandon s p else s).part.still = s.part.still := by rw [still_if, still_abandon, ite_self]
  have idle : usable s p = true → ((if usable s p then abandon s p else s).point p).seq = .idle
      ∧ ((if usable s p then abandon s p else s).point p).entry = .none := by
    intro use
    rw [if_pos use]
    exact abandon_idle pts
  obtain ⟨lenP, lenC⟩ := still_sizes still
  have held := held_of_still still p
  unfold blindMarks
  generalize (if usable s p then abandon s p else s) = a at *
  extract_lets start b c
  have at_ : (c.updChan (2 * p + 1) (blindChan c)).point p =
    { a.point p with blind := true, blindSince := a.now, blindExc := blindExempt s p, blindTo := cause == .takeover } :=
    point_updPoint (lenP ▸ pts) _
  have lenB : b.chans.length = s.chans.length := lenC
  have first : (c.updChan (2 * p + 1) (blindChan c)).chan (2 * p) = blindChan b (b.chan (2 * p)) :=
    (chan_updChan_ne c (by omega) _).trans (chan_updChan (by omega) _)
  have second : (c.updChan (2 * p + 1) (blindChan c)).chan (2 * p + 1) = blindChan c (c.chan (2 * p + 1)) :=
    chan_updChan (by unfold c; rw [chans_updChan_length]; omega) _
  exact
    { size := (List.length_modify _ a.points p).trans lenP
      blind := by rw [at_]
      exc := by rw [at_]
      pend := by rw [at_]; exact congrArg (·.1) held
      force := by rw [at_]; exact congrArg (·.2.1) held
      idle := by rw [at_]; exact idle
      countA := by rw [first]; rfl
      countB := by rw [second]; rfl
      low := congrArg (·.2.2.2) still }

end Sys2Proof.Machine
end

section
/-!
SUPPORT. What a point's becoming BLIND leaves at the sections (R30, R164, R167).
-/

namespace Sys2Proof.Machine

/-! ### What the count tiles show, and what reads it -/

/-- The bit addresses of the counting points' maps, of STATE, LULL, CAUSE and CAUSE_CP of the sections, of what configures them, and of
the passage ports. -/
def tileKey (k : Nat) : Bool :=
  decide (0x40700 * 8 ≤ k ∧ k < 0x40780 * 8) || decide (0x60100 * 8 ≤ k ∧ k < 0x60200 * 8 ∧ (k % 32 = 0 ∨ k % 32 = 4 ∨ k % 32 = 8 ∨ k % 32 = 12))
    || decide (0x60300 * 8 ≤ k ∧ k < 0x60600 * 8) || decide (0x90500 * 8 ≤ k ∧ k < 0x90600 * 8)

/-- The registers of `tileKey`. -/
def State.tiles (s : State) : Nat → Nat := s.seen tileKey

theorem tiles_set (s : State) {f : Fld} {i : Nat} (h : tileKey (f.key i) = false) (v : Nat) : (s.set f i v).tiles = s.tiles := seen_set s h v

theorem tiles_if {c : Prop} [Decidable c] (t u : State) : (if c then t else u).tiles = if c then t.tiles else u.tiles :=
  apply_ite State.tiles c t u

/-- What a write of a field that is none of them does. -/
theorem tiles_write : (∀ (s : State) (f : Fld) (i v : Nat), tileKey (f.key i) = false → (s.set f i v).tiles = s.tiles)
    ∧ (∀ (s : State) (f : Fld) (i : Nat), tileKey (f.key i) = false → (s.raise f i).tiles = s.tiles)
    ∧ (∀ (s : State) (f : Fld) (i : Nat), tileKey (f.key i) = false → (s.lower f i).tiles = s.tiles)
    ∧ (∀ (s : State) (f : Fld) (i : Nat) (b : Bool), tileKey (f.key i) = false → (s.setFlag f i b).tiles = s.tiles)
    ∧ ∀ (s : State) (f : Fld) (i : Nat), tileKey (f.key i) = false → (s.bumpWrap f i).tiles = s.tiles :=
  ⟨fun s _ _ _ h => tiles_set s h _, fun s _ _ h => tiles_set s h _, fun s _ _ h => tiles_set s h _, fun s _ _ _ h => tiles_set s h _,
    fun s _ _ h => tiles_set s h _⟩

theorem tiles_put : (∀ (s : State) (x : Fabric), (s.putFab x).tiles = s.tiles)
    ∧ (∀ (s : State) (a : Nat) (bs : List Byte), (s.putBytes a bs).tiles = s.tiles)
    ∧ ∀ (s : State) (n : Nat) (g : Sec → Sec), (s.updSec n g).tiles = s.tiles :=
  ⟨fun _ _ => rfl, fun _ _ _ => rfl, fun _ _ _ => rfl⟩

theorem tile_section : ∀ n < 48, tileKey (F.SECT_n_STATE_STATE.key n) = true ∧ tileKey (F.SECT_n_STATE_CAUSE.key n) = true
    ∧ tileKey (F.SECT_n_STATE_CAUSE_CP.key n) = true ∧ tileKey (F.SECT_n_STATE_LULL.key n) = true
    ∧ tileKey (F.SECT_n_CFG_NBND.key n) = true := by
  decide +kernel

theorem tile_boundary : ∀ n < 48, ∀ k < 8, tileKey ((F.SECT_n_BND_VALID.offB (8 * k)).key n) = true
    ∧ tileKey ((F.SECT_n_BND_CP.offB (8 * k)).key n) = true ∧ tileKey ((F.SECT_n_BND_SENSE.offB (8 * k)).key n) = true
    ∧ tileKey ((F.SECT_n_BND_ALIGNED.offB (8 * k)).key n) = true := by
  decide +kernel

theorem tile_port : ∀ q < 4, ∀ k < 16, tileKey ((F.FAB_PPq_k_VALID.offB (0x40 * 8 * q)).key k) = true
    ∧ tileKey ((F.FAB_PPq_k_CP.offB (0x40 * 8 * q)).key k) = true := by
  decide +kernel

theorem tile_map : ∀ c < 24, tileKey (F.WEV_CPc_MAP_VALID.key c) = true ∧ tileKey (F.WEV_CPc_MAP_SP.key c) = true := by
  decide +kernel

/-- The fields of a section that stand beside the tiles' own. -/
theorem tile_beside : ∀ n < 48, tileKey (F.SECT_n_STATE_MULTI.key n) = false ∧ tileKey (F.SECT_n_STATE_SINGLE.key n) = false
    ∧ tileKey (F.SECT_n_STATE_EARLY.key n) = false ∧ tileKey (F.LEDG_SECn_EVID.key n) = false
    ∧ tileKey (F.LEDG_SECn_BAD_LAPSED.key n) = false := by
  decide +kernel

theorem any_congr_mem {α : Type} {l : List α} {f g : α → Bool} (h : ∀ x ∈ l, f x = g x) : l.any f = l.any g := by
  rw [Bool.eq_iff_iff, List.any_eq_true, List.any_eq_true]
  exact exists_congr fun x => and_congr_right fun hx => by rw [h x hx]

theorem all_congr_mem {α : Type} {l : List α} {f g : α → Bool} (h : ∀ x ∈ l, f x = g x) : l.all f = l.all g := by
  rw [Bool.eq_iff_iff, List.all_eq_true, List.all_eq_true]
  exact forall₂_congr fun x hx => by rw [h x hx]

section
variable {s t : State} (h : t.tiles = s.tiles)
include h

theorem secUsed_of_tiles {n : Nat} (lt : n < 48) : secUsed t n = secUsed s n := by
  unfold secUsed
  rw [get_of_seen h (tile_section n lt).2.2.2.2]

theorem bndAt_of_tiles {n : Nat} (lt : n < 48) (c : Nat) : bndAt t n c = bndAt s n c := by
  have each : (List.range 8).map (bnd t n) = (List.range 8).map (bnd s n) := List.map_congr_left fun k hk => by
    obtain ⟨valid, cp, sense, aligned⟩ := tile_boundary n lt k (List.mem_range.mp hk)
    unfold bnd
    rw [flag_of_seen h valid, get_of_seen h cp, flag_of_seen h sense, flag_of_seen h aligned]
  unfold bndAt bnds
  rw [each]

theorem secsOf_of_tiles (c : Nat) : secsOf t c = secsOf s c :=
  List.filter_congr fun n hn => by rw [bndAt_of_tiles h (List.mem_range.mp hn)]

theorem portCarries_of_tiles (c : Nat) : portCarries t c = portCarries s c :=
  any_congr_mem fun q hq => any_congr_mem fun k hk => by
    obtain ⟨valid, cp⟩ := tile_port q (List.mem_range.mp hq) k (List.mem_range.mp hk)
    rw [flag_of_seen h valid, get_of_seen h cp]

theorem pointCp_of_tiles (p : Nat) : pointCp t p = pointCp s p :=
  List.find?_congr fun c hc => by
    obtain ⟨valid, sp⟩ := tile_map c (List.mem_range.mp hc)
    rw [flag_of_seen h valid, get_of_seen h sp]

theorem cpLull_of_tiles (c : Nat) : cpLull t c = cpLull s c := by
  unfold cpLull
  rw [secsOf_of_tiles h]
  refine all_congr_mem fun n hn => ?_
  obtain ⟨-, -, -, lull, -⟩ := tile_section n (List.mem_range.mp (List.mem_of_mem_filter hn))
  exact flag_of_seen h lull

end

/-! ### Disturbances of a fabric clock in which nothing has reached a tile (R164, R167) -/

/-- STATE, CAUSE and CAUSE_CP of a section. -/
def tileOf (s : State) (n : Nat) : Nat × Nat × Nat :=
  (s.get F.SECT_n_STATE_STATE n, s.get F.SECT_n_STATE_CAUSE n, s.get F.SECT_n_STATE_CAUSE_CP n)

/-- A disturbance as these show it: the first one of an episode (R167). -/
def stained (d : Dist) (x : Nat × Nat × Nat) : Nat × Nat × Nat := if x.1 = 2 then x else (2, d.cause % 16, d.cp % 64)

theorem stained_idem (d : Dist) (x : Nat × Nat × Nat) : stained d (stained d x) = stained d x := by
  unfold stained
  split
  · rfl
  · rfl

theorem tileOf_of_tiles {s t : State} (h : t.tiles = s.tiles) {n : Nat} (lt : n < 48) : tileOf t n = tileOf s n := by
  obtain ⟨state, cause, cp, -, -⟩ := tile_section n lt
  unfold tileOf
  rw [get_of_seen h state, get_of_seen h cause, get_of_seen h cp]

theorem tiles_journal (s : State) (e : JEntry) : (s.journal e).tiles = s.tiles := by
  unfold State.journal State.journalPut clockKeep
  simp (disch := decide) only [tiles_if, tiles_write, tiles_put, ite_self]

/-- What a disturbance writes of `tileKey`: the first one of an episode sets STATE, CAUSE and CAUSE_CP, a later one nothing (R167). -/
theorem tiles_distApply (s : State) {n : Nat} (lt : n < 48) (d : Dist) : (distApply s n d).tiles =
    (if s.get F.SECT_n_STATE_STATE n = 2 then s
      else ((s.set F.SECT_n_STATE_STATE n 2).set F.SECT_n_STATE_CAUSE n d.cause).set F.SECT_n_STATE_CAUSE_CP n d.cp).tiles := by
  obtain ⟨multi, single, -, evid, lapsed⟩ := tile_beside n lt
  have new : tileKey (F.SECT_STATUS_DIST_NEW.key 0) = false := by decide
  unfold distApply secNote
  simp (disch := assumption) only [tiles_journal, tiles_if, tiles_write, tiles_put, ite_self]
  rfl

theorem tile_fields_apart : ∀ n < 48, ∀ m < 48, (n ≠ m → F.SECT_n_STATE_STATE.key n ≠ F.SECT_n_STATE_STATE.key m
      ∧ F.SECT_n_STATE_CAUSE.key n ≠ F.SECT_n_STATE_CAUSE.key m ∧ F.SECT_n_STATE_CAUSE_CP.key n ≠ F.SECT_n_STATE_CAUSE_CP.key m)
    ∧ F.SECT_n_STATE_STATE.key n ≠ F.SECT_n_STATE_CAUSE.key m ∧ F.SECT_n_STATE_STATE.key n ≠ F.SECT_n_STATE_CAUSE_CP.key m
    ∧ F.SECT_n_STATE_CAUSE.key n ≠ F.SECT_n_STATE_CAUSE_CP.key m := by
  decide +kernel

theorem tileOf_distApply (s : State) {m n : Nat} (ltm : m < 48) (ltn : n < 48) (d : Dist) :
    tileOf (distApply s m d) n = if m = n then stained d (tileOf s n) else tileOf s n := by
  rw [tileOf_of_tiles (tiles_distApply s ltm d) ltn]
  obtain ⟨same, sc, sp, cp⟩ := tile_fields_apart n ltn m ltm
  obtain ⟨-, sc', sp', cp'⟩ := tile_fields_apart m ltm n ltn
  by_cases e : m = n
  · subst e
    rw [if_pos rfl]
    unfold stained
    show tileOf _ m = if s.get F.SECT_n_STATE_STATE m = 2 then _ else _
    split
    · rfl
    · unfold tileOf
      rw [State.get_set_ne _ _ sp, State.get_set_ne _ _ sc, State.get_set_self, State.get_set_ne _ _ cp, State.get_set_self, State.get_set_self]
      rfl
  · rw [if_neg e]
    obtain ⟨ss, cc, pp⟩ := same (Ne.symm e)
    split
    · rfl
    · unfold tileOf
      rw [State.get_set_ne _ _ sp, State.get_set_ne _ _ sc, State.get_set_ne _ _ ss, State.get_set_ne _ _ cp, State.get_set_ne _ _ cc,
        State.get_set_ne _ _ sc'.symm, State.get_set_ne _ _ pp, State.get_set_ne _ _ cp'.symm, State.get_set_ne _ _ sp'.symm]

/-- What has reached a section's tile is the disturbance `d` alone. -/
structure Stains (d : Dist) (e : TickSec) : Prop where
  sec : e.sec < 48
  moves : e.moves = []
  some : e.dists ≠ []
  all : ∀ x ∈ e.dists, x = d

theorem tileOf_clockRun {d : Dist} {e : TickSec} (h : Stains d e) (s : State) {n : Nat} (lt : n < 48) :
    tileOf (clockRun s e).1 n = if e.sec = n then stained d (tileOf s n) else tileOf s n := by
  obtain ⟨sec, moves, some, all⟩ := h
  have run (l : List Dist) (all : ∀ x ∈ l, x = d) (t : State) : tileOf (forEach l t (fun s x => distApply s e.sec x)) n
      = if l ≠ [] ∧ e.sec = n then stained d (tileOf t n) else tileOf t n := by
    unfold forEach
    induction l generalizing t with
    | nil => rw [if_neg fun h => h.1 rfl]; rfl
    | cons x l ih =>
      obtain rfl : x = d := all x List.mem_cons_self
      rw [List.foldl_cons, ih (fun y hy => all y (List.mem_cons_of_mem x hy)), tileOf_distApply t sec lt]
      by_cases e' : e.sec = n
      · simp only [e', if_true, and_true, stained_idem, ite_self, ne_eq, List.cons_ne_nil, not_false_eq_true]
      · simp only [e', if_false, and_false]
  have still : (if e.moves.isEmpty then (s, false) else moveSec s e.sec e.moves).1 = s := by rw [moves]; rfl
  show tileOf (forEach e.dists _ _) n = _
  rw [run e.dists all, still]
  simp only [some, ne_eq, not_false_eq_true, true_and]

theorem tileOf_clockRuns {d : Dist} {es : List TickSec} (h : ∀ e ∈ es, Stains d e) (s : State) {n : Nat} (lt : n < 48) :
    tileOf (clockRuns s es) n = if ∃ e ∈ es, e.sec = n then stained d (tileOf s n) else tileOf s n := by
  have runs (es : List TickSec) (h : ∀ e ∈ es, Stains d e) (acc : State × List TickSec) :
      tileOf (es.foldl (fun (acc : State × List TickSec) e => let r := clockRun acc.1 e; (r.1, acc.2 ++ [r.2])) acc).1 n
      = if ∃ e ∈ es, e.sec = n then stained d (tileOf acc.1 n) else tileOf acc.1 n := by
    induction es generalizing acc with
    | nil => simp
    | cons e es ih =>
      rw [List.foldl_cons, ih (fun x hx => h x (List.mem_cons_of_mem e hx))]
      show (if _ then stained d (tileOf (clockRun acc.1 e).1 n) else tileOf (clockRun acc.1 e).1 n) = _
      rw [tileOf_clockRun (h e List.mem_cons_self) acc.1 lt]
      by_cases e' : e.sec = n
      · simp [e', stained_idem]
      · simp [e']
  exact runs es h _

/-- One disturbance that reaches one section's tile, joined to what has reached tiles before. -/
def joinOne (s : State) (d : Dist) (l : List TickSec) (m : Nat) : List TickSec :=
  let e := tickSec s l m
  let e := { e with moves := e.moves ++ [], dists := e.dists ++ [d] }
  if l.any (fun x => x.sec == m) then l.map (fun x => if x.sec = m then e else x) else l ++ [e]

theorem joinOne_stains (s : State) {d : Dist} {l : List TickSec} (h : ∀ e ∈ l, Stains d e) {m : Nat} (lt : m < 48) :
    (∀ e ∈ joinOne s d l m, Stains d e) ∧ ∀ n, (∃ e ∈ joinOne s d l m, e.sec = n) ↔ (∃ e ∈ l, e.sec = n) ∨ n = m := by
  have part : (tickSec s l m).sec = m ∧ (tickSec s l m).moves = [] ∧ ∀ x ∈ (tickSec s l m).dists, x = d := by
    unfold tickSec
    cases found : l.find? (fun e => e.sec == m) with
    | none => exact ⟨rfl, rfl, fun x hx => absurd hx List.not_mem_nil⟩
    | some e =>
      have stain := h e (List.mem_of_find?_eq_some found)
      exact ⟨by simpa using List.find?_some found, stain.moves, stain.all⟩
  obtain ⟨sec, moves, dists⟩ := part
  unfold joinOne
  extract_lets e0 e
  have new : Stains d e := by
    refine ⟨lt_of_eq_of_lt sec lt, by show e0.moves ++ [] = []; rw [moves]; rfl, by simp [e], fun x hx => ?_⟩
    rcases List.mem_append.mp hx with hx | hx
    · exact dists x hx
    · exact List.mem_singleton.mp hx
  have own : e.sec = m := sec
  split
  next old =>
    obtain ⟨y, hy, hm⟩ := List.any_eq_true.mp old
    have ym : y.sec = m := by simpa using hm
    refine ⟨fun x hx => ?_, fun n => ⟨fun ⟨x, hx, hn⟩ => ?_, fun hn => ?_⟩⟩
    · obtain ⟨z, hz, rfl⟩ := List.mem_map.mp hx
      split
      · exact new
      · exact h z hz
    · obtain ⟨z, hz, rfl⟩ := List.mem_map.mp hx
      split at hn
      · exact Or.inr (hn.symm.trans own)
      · exact Or.inl ⟨z, hz, hn⟩
    · have at_ : ∀ z ∈ l, z.sec = n → ∃ x ∈ l.map (fun x => if x.sec = m then e else x), x.sec = n := fun z hz zn => by
        refine ⟨_, List.mem_map_of_mem hz, ?_⟩
        split
        next zm => exact own.trans (zm.symm.trans zn)
        next => exact zn
      rcases hn with ⟨z, hz, zn⟩ | rfl
      · exact at_ z hz zn
      · exact at_ y hy ym
  next =>
    refine ⟨fun x hx => ?_, fun n => ?_⟩
    · rcases List.mem_append.mp hx with hx | hx
      · exact h x hx
      · rw [List.mem_singleton.mp hx]; exact new
    · simp only [List.mem_append, List.mem_singleton, or_and_right, exists_or, exists_eq_left, own, eq_comm]

/-- One disturbance joined to what has reached each of its sections' tiles. -/
theorem clockJoin_stains (s : State) (d : Dist) {add : List Nat} (lt : ∀ m ∈ add, m < 48) (old : List TickSec) (h : ∀ e ∈ old, Stains d e) :
    (∀ e ∈ clockJoin s old (add.map (fun n => ⟨n, [], [d], [], none, false⟩)), Stains d e)
    ∧ ∀ n, (∃ e ∈ clockJoin s old (add.map (fun n => ⟨n, [], [d], [], none, false⟩)), e.sec = n) ↔ (∃ e ∈ old, e.sec = n) ∨ n ∈ add := by
  induction add generalizing old with
  | nil => exact ⟨h, fun n => by simp [clockJoin]⟩
  | cons m add ih =>
    obtain ⟨stains, secs⟩ := joinOne_stains s h (lt m List.mem_cons_self)
    obtain ⟨all, mem⟩ := ih (fun k hk => lt k (List.mem_cons_of_mem m hk)) (joinOne s d old m) stains
    refine ⟨all, fun n => (mem n).trans ?_⟩
    rw [secs n, List.mem_cons, or_assoc]

theorem tiles_clockJournal (s : State) : (clockJournal s).tiles = s.tiles := by
  unfold clockJournal
  extract_lets log kept new t fab u
  have out (t : State) (e : ClockEntry) : (jrnBack t e).tiles = t.tiles := by
    unfold jrnBack
    simp (disch := decide) only [tiles_write, tiles_put]
  have write (t : State) (e : JEntry) : (t.journalPut e).tiles = t.tiles := by
    unfold State.journalPut clockKeep
    simp (disch := decide) only [tiles_if, tiles_write, tiles_put, ite_self]
  have back : t.tiles = s.tiles := forEach_keeps State.tiles (fun t e _ => out t e) s
  have redo : u.tiles = t.tiles := forEach_keeps State.tiles (fun t e _ => write t _) _
  exact (tiles_set _ (by decide : tileKey (F.JRN_STATUS_JRN_NEW.key 0) = false) _).trans (redo.trans back)

theorem tiles_clockFlags (s : State) : (clockFlags s).tiles = s.tiles := by
  have shared : ∀ x ∈ clockShared, tileKey (x.1.key x.2) = false := by decide
  exact forEach_keeps State.tiles (fun t _ hx => tiles_set t (shared _ (List.mem_of_mem_take (List.of_mem_zip hx).1)) _) s

/-- Sections disturbed where nothing has reached a tile in the fabric clock: those in use, each by the first cause of its episode. -/
theorem tileOf_distSecs {s : State} (clean : clockNow s = []) {l : List Nat} (inUse : ∀ m ∈ l, m < 48) (c : Cause) (cp : Nat)
    (w : Option (Nat × Nat)) {n : Nat} (lt : n < 48) :
    tileOf (distSecs s l c cp w) n = if n ∈ l ∧ secUsed s n = true then stained ⟨c.code, cp, w⟩ (tileOf s n) else tileOf s n := by
  have mem : n ∈ l.filter (secUsed s) ↔ n ∈ l ∧ secUsed s n = true := List.mem_filter
  unfold distSecs
  extract_lets used
  split
  next none =>
    have out : n ∉ used := by rw [List.isEmpty_iff.mp none]; exact List.not_mem_nil
    rw [if_neg fun h => out (mem.mpr h)]
  next =>
    have opened : clockNow (clockOpen s) = [] ∧ (clockOpen s).tiles = s.tiles := by
      unfold clockOpen
      rw [if_pos (by rw [clean]; rfl)]
      exact ⟨ite_self _, rfl⟩
    obtain ⟨empty, same⟩ := opened
    unfold clockTake
    extract_lets o es
    obtain ⟨stains, secs⟩ := clockJoin_stains o ⟨c.code, cp, w⟩ (add := used) (fun m hm => inUse m (List.mem_of_mem_filter hm)) [] (by simp)
    have joined : es = clockJoin o [] (used.map (fun n => ⟨n, [], [⟨c.code, cp, w⟩], [], none, false⟩)) := by unfold es; rw [empty]
    have before : (clockFlags (clockJournal (forEach (clockNow o) o clockBack))).tiles = s.tiles := by
      rw [tiles_clockFlags, tiles_clockJournal, empty]
      exact same
    rw [tileOf_clockRuns (joined ▸ stains) _ lt, tileOf_of_tiles before lt]
    have hit : (∃ e ∈ es, e.sec = n) ↔ n ∈ l ∧ secUsed s n = true := by
      rw [joined, secs n, ← mem]
      simp [used]
    simp only [hit]

/-! ### The sections of a point that becomes BLIND -/

/-- What the count tiles show, with what has reached them in the running fabric clock. -/
structure Front where
  tiles : Nat → Nat
  clock : List TickSec

def State.front (s : State) : Front := ⟨s.tiles, clockNow s⟩

theorem clockNow_of_front {s t : State} (h : t.front = s.front) : clockNow t = clockNow s := congrArg Front.clock h

theorem tiles_of_front {s t : State} (h : t.front = s.front) : t.tiles = s.tiles := congrArg Front.tiles h

theorem front_if {c : Prop} [Decidable c] (t u : State) : (if c then t else u).front = if c then t.front else u.front :=
  apply_ite State.front c t u

theorem front_write : (∀ (s : State) (f : Fld) (i v : Nat), tileKey (f.key i) = false → (s.set f i v).front = s.front)
    ∧ (∀ (s : State) (f : Fld) (i : Nat), tileKey (f.key i) = false → (s.raise f i).front = s.front)
    ∧ (∀ (s : State) (f : Fld) (i : Nat), tileKey (f.key i) = false → (s.lower f i).front = s.front)
    ∧ (∀ (s : State) (f : Fld) (i : Nat) (b : Bool), tileKey (f.key i) = false → (s.setFlag f i b).front = s.front)
    ∧ (∀ (s : State) (n : Nat) (g : Sec → Sec), (s.updSec n g).front = s.front)
    ∧ (∀ (s : State) (n : Nat) (g : Point → Point), (s.updPoint n g).front = s.front)
    ∧ ∀ (s : State) (n : Nat) (g : Chan → Chan), (s.updChan n g).front = s.front :=
  ⟨fun s _ _ v h => congrArg (Front.mk · (clockNow s)) (tiles_set s h v), fun s _ _ h => congrArg (Front.mk · (clockNow s)) (tiles_set s h 1),
    fun s _ _ h => congrArg (Front.mk · (clockNow s)) (tiles_set s h 0), fun s _ _ b h => congrArg (Front.mk · (clockNow s)) (tiles_set s h (b2n b)),
    fun _ _ _ => rfl, fun _ _ _ => rfl, fun _ _ _ => rfl⟩

theorem front_dropEarly (s : State) (p : Nat) : (dropEarly s p).front = s.front := by
  unfold dropEarly syncEarly
  refine (forN_keeps State.front (fun t n lt => ?_) _).trans (front_write.2.2.2.2.2.1 s p _)
  obtain ⟨-, -, early, -⟩ := tile_beside n lt
  simp (disch := assumption) only [front_write]

theorem tile_speed : tileKey (F.SPOS_STATUS_DIRCHG.key 0) = false ∧ ∀ p < 24, tileKey (F.SPOS_SPn_SST_SPD_ST.key p) = false
    ∧ tileKey (F.SPOS_SPn_SST_AGE.key p) = false ∧ tileKey (F.SPOS_SPn_SST_DIR.key p) = false
    ∧ tileKey (F.SPOS_SPn_SST_DIR_VALID.key p) = false ∧ tileKey (F.SPOS_SPn_SPEED_L_SPEED.key p) = false
    ∧ tileKey (({ F.SPOS_SPn_SPEED_L_SPEED with bit := F.SPOS_SPn_SPEED_L_SPEED.bit + 32, width := 8 } : Fld).key p) = false := by
  decide +kernel

theorem front_spdHard (s : State) {p : Nat} (lt : p < 24) : (spdHard s p).1.front = s.front := by
  obtain ⟨chg, each⟩ := tile_speed
  obtain ⟨st, age, dir, valid, speed, high⟩ := each p lt
  have spd (t : State) (c : Nat) (v : Int) : (setSpd t p c v).front = t.front := by
    unfold setSpd State.set40
    simp (disch := assumption) only [front_write]
  have way (t : State) (neg ok force : Bool) : (setDir t p neg ok force).front = t.front := by
    unfold setDir
    simp (disch := assumption) only [front_if, front_write, ite_self]
  unfold spdHard
  extract_lets a b q v
  split_ifs <;> simp (disch := assumption) only [front_write, way, spd]

theorem front_note (s : State) (a b c d e : Nat) : (s.note a b c d e).front = s.front := by
  have keep (e : JEntry) : (clockKeep s e).front = s.front := by
    unfold clockKeep
    split
    · rfl
    · rfl
  have put (t : State) (a : Nat) (bs : List Byte) : (t.putBytes a bs).front = t.front := rfl
  unfold State.note State.journal State.journalPut
  simp (disch := decide) only [front_if, State.bumpWrap_eq, front_write, put, keep, ite_self]

theorem front_reviewSingle {s : State} (clean : clockNow s = []) : (reviewSingle s).front = s.front := by
  unfold reviewSingle endWatches
  extract_lets t
  have all : t.front = s.front := forN_keeps State.front (fun u n lt => by
    obtain ⟨-, single, -⟩ := tile_beside n lt
    split
    · simp (disch := assumption) only [front_if, front_write, ite_self]
    · rfl) s
  have empty : clockNow t = [] := (clockNow_of_front all).trans clean
  rw [if_pos (by rw [empty]; rfl), all]

theorem front_blindTold {s : State} {p : Nat} (lt : p < 24) (quiet : noHold s p) (clean : clockNow s = []) (cause : Cause) :
    (blindTold s p cause).front = s.front := by
  have left : (abandon s p).front = s.front := by
    obtain ⟨noP, noN⟩ := quiet
    unfold abandon
    split
    next e => exact absurd e noP
    next e => exact absurd e noN
    · exact front_dropEarly s p
  have marks : (blindMarks s p cause).front = s.front := by
    unfold blindMarks
    simp only [front_write, front_if, left, ite_self]
  have sped : (spdHard (blindMarks s p cause) p).1.front = s.front := (front_spdHard _ lt).trans marks
  have noted (w : Nat) : ((spdHard (blindMarks s p cause) p).1.note 0 0x04 0xFF p w).front = s.front :=
    (front_note _ _ _ _ _ _).trans sped
  exact (front_reviewSingle ((clockNow_of_front (noted _)).trans clean)).trans (noted _)

theorem mem_blindDisturbs (s : State) (p n c : Nat) : (n, c) ∈ blindDisturbs s p ↔
    ((s.point p).blind = false ∧ blindExempt s p = false ∧ (s.chan (2 * p)).faulty = false ∧ (s.chan (2 * p + 1)).faulty = false)
      ∧ pointCp s p = some c ∧ portCarries s c = true ∧ n ∈ secsOf s c ∧ secUsed s n = true := by
  unfold blindDisturbs
  split
  next out =>
    simp only [Bool.or_eq_true] at out
    simp only [List.not_mem_nil, false_iff]
    rintro ⟨⟨blind, exempt, a, b⟩, -⟩
    simp [blind, exempt, a, b] at out
  next out =>
    simp only [Bool.or_eq_true, not_or, Bool.not_eq_true] at out
    obtain ⟨⟨⟨blind, exempt⟩, a⟩, b⟩ := out
    simp only [blind, exempt, a, b, true_and]
    cases pointCp s p with
    | none => simp
    | some d =>
      by_cases e : d = c
      · subst e
        by_cases carries : portCarries s d = true
        · simp [carries]
        · simp [carries]
      · show (n, c) ∈ (if portCarries s d = true then _ else _) ↔ _
        split
        · simp [e]
        · simp [e]

/-- A point without a pending hold that becomes BLIND disturbs in a clean fabric clock what `blindDisturbs` names, and nothing else. -/
theorem tileOf_enterBlind {s : State} {p : Nat} (lt : p < 24) (seen : (s.point p).blind = false) (quiet : noHold s p)
    (clean : clockNow s = []) (cause : Cause) {n : Nat} (ltn : n < 48) :
    (∀ c, (n, c) ∈ blindDisturbs s p → ∃ w, tileOf (enterBlind s p cause) n = stained ⟨cause.code, c, w⟩ (tileOf s n))
    ∧ ((∀ c, (n, c) ∉ blindDisturbs s p) → tileOf (enterBlind s p cause) n = tileOf s n) := by
  have front := front_blindTold lt quiet clean cause
  have tiles : (blindTold s p cause).tiles = s.tiles := tiles_of_front front
  have told : clockNow (blindTold s p cause) = [] := (clockNow_of_front front).trans clean
  have same := tileOf_of_tiles tiles ltn
  obtain ⟨watch, eq⟩ := enterBlind_eq seen cause
  rw [eq]
  split
  next out =>
    refine ⟨fun c hc => ?_, fun _ => same⟩
    obtain ⟨⟨-, exempt, a, b⟩, -⟩ := (mem_blindDisturbs s p n c).mp hc
    simp [exempt, a, b] at out
  next out =>
    simp only [Bool.or_eq_true, not_or, Bool.not_eq_true] at out
    obtain ⟨exempt, a, b⟩ := out
    split
    next d cp =>
      have dist : tileOf (distCp (blindTold s p cause) d cause watch) n
          = if (n, d) ∈ blindDisturbs s p then stained ⟨cause.code, d, watch⟩ (tileOf s n) else tileOf s n := by
        unfold distCp
        rw [tileOf_distSecs told (fun m hm => ?_) cause d watch ltn, same]
        · refine if_congr ?_ rfl rfl
          rw [mem_blindDisturbs, portCarries_of_tiles tiles, secsOf_of_tiles tiles, secUsed_of_tiles tiles ltn]
          by_cases carries : portCarries s d = true <;> simp [carries, seen, exempt, a, b, cp]
        · split at hm
          · exact List.mem_range.mp (List.mem_of_mem_filter hm)
          · exact absurd hm List.not_mem_nil
      rw [dist]
      refine ⟨fun c hc => ?_, fun h => if_neg (h d)⟩
      obtain ⟨-, cp', -⟩ := (mem_blindDisturbs s p n c).mp hc
      obtain rfl : c = d := Option.some.inj (cp'.symm.trans cp)
      exact ⟨watch, if_pos hc⟩
    next cp =>
      refine ⟨fun c hc => ?_, fun _ => same⟩
      obtain ⟨-, cp', -⟩ := (mem_blindDisturbs s p n c).mp hc
      rw [cp] at cp'
      cases cp'

end Sys2Proof.Machine
end

section
/-!
SUPPORT. Pending values written into force (R54, R58, R73, R87): what they read as afterwards, and what they leave alone.
-/

namespace Sys2Proof.Machine

/-! ### Values written into force (R54, R58, R73, R87) -/

/-- What the states of R28 read of a channel. -/
def Chan.core (c : Chan) : Bool × Bool × Bool := (c.on, c.met, c.faulty)

/-- `t` differs from `s` in its channels and in registers alone: in the channels in nothing that the states of R28 read, in the registers
at bit addresses alone that `w` admits. -/
structure Revalued (w : Nat → Bool) (s t : State) : Prop where
  regs : ∀ k, w k = false → storeGet 0 t.regs k = storeGet 0 s.regs k
  core : ∀ c, (t.chan c).core = (s.chan c).core
  size : t.chans.length = s.chans.length
  rest : t = { s with regs := t.regs, chans := t.chans }

namespace Revalued

variable {w v : Nat → Bool} {s t u : State}

theorem refl (w : Nat → Bool) (s : State) : Revalued w s s := ⟨fun _ _ => rfl, fun _ => rfl, rfl, rfl⟩

theorem trans (a : Revalued w s t) (b : Revalued w t u) : Revalued w s u :=
  ⟨fun k h => (b.regs k h).trans (a.regs k h), fun c => (b.core c).trans (a.core c), b.size.trans a.size,
    b.rest.trans (congrArg (fun x : State => { x with regs := u.regs, chans := u.chans }) a.rest)⟩

theorem mono (h : Revalued v s t) (le : ∀ k, w k = false → v k = false) : Revalued w s t :=
  ⟨fun k hk => h.regs k (le k hk), h.core, h.size, h.rest⟩

theorem set (h : Revalued w s t) {f : Fld} {i : Nat} (hf : w (f.key i) = true) (x : Nat) : Revalued w s (t.set f i x) :=
  h.trans ⟨fun k hk => State.regs_set_ne t x (fun e => by rw [e, hf] at hk; exact Bool.noConfusion hk), fun _ => rfl, rfl, rfl⟩

theorem updChan (h : Revalued w s t) (n : Nat) {g : Chan → Chan} (hg : ∀ c, (g c).core = c.core) : Revalued w s (t.updChan n g) := by
  refine h.trans ⟨fun _ _ => rfl, fun c => ?_, chans_updChan_length t n g, rfl⟩
  have at_ (x : State) : nth (x.chans.map Chan.core) c = (x.chan c).core := nth_map Chan.core x.chans c rfl
  rw [← at_, ← at_]
  exact congrArg (nth · c) (map_upd Chan.core t.chans n hg)

theorem ite {c : Prop} [Decidable c] (a : Revalued w s t) (b : Revalued w s u) : Revalued w s (if c then t else u) := by
  split
  · exact a
  · exact b

theorem forN {n : Nat} {f : State → Nat → State} (h : ∀ t i, i < n → Revalued w t (f t i)) (s : State) : Revalued w s (forN n s f) := by
  have each (l : List Nat) (lt : ∀ i ∈ l, i < n) (s : State) : Revalued w s (l.foldl f s) := by
    induction l generalizing s with
    | nil => exact refl w s
    | cons i l ih => exact (h s i (lt i List.mem_cons_self)).trans (ih (fun j hj => lt j (List.mem_cons_of_mem i hj)) _)
  exact each _ (fun i hi => List.mem_range.mp hi) s

/-- What reads no register and no channel reads the same. -/
theorem reads {α : Type} (h : Revalued w s t) (g : State → α) (hg : ∀ (x : State) r c, g { x with regs := r, chans := c } = g x) : g t = g s := by
  rw [h.rest, hg]

theorem seen (h : Revalued w s t) {v : Nat → Bool} (hv : ∀ k, v k = true → w k = false) : t.seen v = s.seen v := by
  funext k
  unfold State.seen
  split
  next at_ => exact h.regs k (hv k at_)
  next => rfl

end Revalued

/-- The bit addresses of the excitation, the measurement and the thresholds. -/
def valueKey (k : Nat) : Bool := decide (0x80000 ≤ k ∧ k < 0x201000)

/-- Those of routes, carriers, amplitudes and modes. -/
def drivenKey (k : Nat) : Bool := decide (0x80800 ≤ k ∧ k < 0x100000 ∧ k % 32 ≠ 20)

/-- Those of values beside what is driven. -/
def besideKey (k : Nat) : Bool := valueKey k && !drivenKey k

theorem valueKey_of_besideKey : ∀ k, valueKey k = false → besideKey k = false := fun k h => by unfold besideKey; rw [h]; rfl

/-- Where the values of a point lie. -/
theorem key_driven : ∀ p < 24, (valueKey (F.EXC_CARRIER_SPn_CARRIER.key p) = true ∧ valueKey (F.EXC_CARRIER_SPn_AMP.key p) = true
      ∧ valueKey (F.EXC_CARRIER_SPn_MODE.key p) = true ∧ besideKey (F.EXC_CARRIER_SPn_ALT_PHASE.key p) = true)
    ∧ (∀ j < 4, valueKey (F.EXC_ROUTEp_SRC.key (4 * p + j)) = true ∧ valueKey (F.EXC_ROUTEp_FUNC.key (4 * p + j)) = true)
    ∧ ∀ j < 2, besideKey (F.MEAS_CHn_CFG_CURVE.key (2 * p + j)) = true ∧ besideKey (F.WEV_CHn_THR_ON_THR.key (2 * p + j)) = true
      ∧ besideKey (F.WEV_CHn_THR_OFF_THR.key (2 * p + j)) = true ∧ besideKey (F.MEAS_CHn_OFFS_I_OFFS.key (2 * p + j)) = true := by
  decide +kernel

theorem key_source : ∀ n < nSources, besideKey (F.EXC_SRCn_STATUS.key n) = true ∧ besideKey (F.EXC_SRCn_PIN.key n) = true := by
  decide +kernel

theorem putScale_revalued (s : State) {p : Nat} (lt : p < 24) (v : PendVals) : Revalued besideKey s (forN 2 s (fun s j =>
    ((s.set F.MEAS_CHn_CFG_CURVE (2 * p + j) (nth v.curve j)).set F.WEV_CHn_THR_ON_THR (2 * p + j) (nth v.onThr j)).set
      F.WEV_CHn_THR_OFF_THR (2 * p + j) (nth v.offThr j))) :=
  Revalued.forN (fun t j hj => by
    obtain ⟨-, -, chan⟩ := key_driven p lt
    obtain ⟨curve, on, off, -⟩ := chan j hj
    exact (((Revalued.refl _ t).set curve _).set on _).set off _) s

theorem putVals_revalued (s : State) {p : Nat} (lt : p < 24) (v : PendVals) : Revalued valueKey s (putVals s p v) := by
  obtain ⟨⟨carrier, amp, mode, -⟩, route, -⟩ := key_driven p lt
  unfold putVals
  refine Revalued.trans ?_ ((putScale_revalued _ lt v).mono valueKey_of_besideKey)
  refine Revalued.trans ((((Revalued.refl _ s).set carrier _).set amp _).set mode _) (Revalued.forN (fun t j hj => ?_) _)
  obtain ⟨src, func⟩ := route j hj
  exact ((Revalued.refl _ t).set src _).set func _

/-- A channel whose scale differs starts on the new one (R87, R428). -/
def newScale (old v : PendVals) (p : Nat) (s : State) : State :=
  forN 2 s (fun s j =>
    if scaleDiffers old v j then s.updChan (2 * p + j) (fun x => { x with last := none, mean := [], parkRef := none }) else s)

theorem newScale_revalued (old v : PendVals) (p : Nat) (s : State) : Revalued besideKey s (newScale old v p s) :=
  Revalued.forN (fun t _ _ => ((Revalued.refl _ t).updChan _ (by intro c; rfl)).ite (Revalued.refl _ t)) s

/-- A change of mode (R73, R79). -/
def newMode (old v : PendVals) (p : Nat) (s : State) : State := if old.mode = v.mode then s else dcTrim (calReset s p) p

theorem newMode_revalued (old v : PendVals) {p : Nat} (lt : p < 24) (s : State) : Revalued besideKey s (newMode old v p s) := by
  obtain ⟨⟨-, -, -, phase⟩, -, chan⟩ := key_driven p lt
  have reset : Revalued besideKey s (calReset s p) :=
    ((((Revalued.refl _ s).updChan _ (by intro c; rfl)).updChan _ (by intro c; rfl))).set phase _
  have trim (t : State) : Revalued besideKey t (dcTrim t p) := by
    unfold dcTrim
    refine Revalued.forN (fun u j hj => ?_) t
    obtain ⟨-, -, -, offs⟩ := chan j hj
    dsimp only
    split
    · exact ((Revalued.refl _ u).updChan _ (by intro c; rfl)).set offs _
    · exact ((Revalued.refl _ u).updChan _ (by intro c; rfl)).set offs _
    · exact Revalued.refl _ u
  exact (Revalued.refl _ s).ite (reset.trans (trim _))

theorem syncSources_revalued (s : State) : Revalued besideKey s (syncSources s) :=
  Revalued.forN (fun t n lt => by
    obtain ⟨status, pin⟩ := key_source n lt
    refine ((Revalued.refl _ t).set pin _).ite ?_
    split
    · exact ((Revalued.refl _ t).set status _).set pin _
    · exact ((Revalued.refl _ t).set status _).set pin _) s

/-- The values of a point in force, on their new scale. -/
def scaled (s : State) (p : Nat) (v : PendVals) (t : State) : State := newScale (pointVals s p) v p (putVals t p v)

/-- The values of a point in force, with what a change of mode and the sources make of them. -/
def driven (s : State) (p : Nat) (v : PendVals) (t : State) : State := syncSources (newMode (pointVals s p) v p (scaled s p v t))

theorem scaled_revalued (s : State) {p : Nat} (lt : p < 24) (v : PendVals) (t : State) : Revalued valueKey t (scaled s p v t) :=
  (putVals_revalued t lt v).trans ((newScale_revalued _ v p _).mono valueKey_of_besideKey)

theorem driven_beside (s : State) {p : Nat} (lt : p < 24) (v : PendVals) (t : State) : Revalued besideKey (putVals t p v) (driven s p v t) :=
  (newScale_revalued _ v p _).trans ((newMode_revalued _ v lt _).trans (syncSources_revalued _))

theorem driven_revalued (s : State) {p : Nat} (lt : p < 24) (v : PendVals) (t : State) : Revalued valueKey t (driven s p v t) :=
  (putVals_revalued t lt v).trans ((driven_beside s lt v t).mono valueKey_of_besideKey)

/-- The values as they stand in force. -/
structure InForce (p : Nat) (v : PendVals) (t : State) : Prop where
  mode : v.mode < 4 → t.get F.EXC_CARRIER_SPn_MODE p = v.mode
  amp : v.amp < 64 → t.get F.EXC_CARRIER_SPn_AMP p = v.amp
  carrier : v.carrier < 256 → t.get F.EXC_CARRIER_SPn_CARRIER p = v.carrier
  route : ∀ j, j < 4 → nth v.src j < 64 → nth v.func j < 4 →
    t.get F.EXC_ROUTEp_SRC (4 * p + j) = nth v.src j ∧ t.get F.EXC_ROUTEp_FUNC (4 * p + j) = nth v.func j

theorem key_shown : ∀ p < 24, (drivenKey (F.EXC_CARRIER_SPn_CARRIER.key p) = true ∧ drivenKey (F.EXC_CARRIER_SPn_AMP.key p) = true
      ∧ drivenKey (F.EXC_CARRIER_SPn_MODE.key p) = true)
    ∧ ∀ j < 4, drivenKey (F.EXC_ROUTEp_SRC.key (4 * p + j)) = true ∧ drivenKey (F.EXC_ROUTEp_FUNC.key (4 * p + j)) = true := by
  decide +kernel

theorem InForce.of_seen {p : Nat} (lt : p < 24) {v : PendVals} {s t : State} (h : InForce p v s) (same : t.seen drivenKey = s.seen drivenKey) :
    InForce p v t := by
  obtain ⟨⟨carrier, amp, mode⟩, route⟩ := key_shown p lt
  refine ⟨fun x => (get_of_seen same mode).trans (h.mode x), fun x => (get_of_seen same amp).trans (h.amp x),
    fun x => (get_of_seen same carrier).trans (h.carrier x), fun j hj x y => ?_⟩
  obtain ⟨src, func⟩ := route j hj
  obtain ⟨hs, hf⟩ := h.route j hj x y
  exact ⟨(get_of_seen same src).trans hs, (get_of_seen same func).trans hf⟩

theorem key_carrier_apart : ∀ p < 24, (F.EXC_CARRIER_SPn_CARRIER.key p ≠ F.EXC_CARRIER_SPn_AMP.key p
      ∧ F.EXC_CARRIER_SPn_CARRIER.key p ≠ F.EXC_CARRIER_SPn_MODE.key p ∧ F.EXC_CARRIER_SPn_AMP.key p ≠ F.EXC_CARRIER_SPn_MODE.key p)
    ∧ ∀ i < 4, ∀ f ∈ [F.EXC_CARRIER_SPn_CARRIER, F.EXC_CARRIER_SPn_AMP, F.EXC_CARRIER_SPn_MODE],
      f.key p ≠ F.EXC_ROUTEp_SRC.key (4 * p + i) ∧ f.key p ≠ F.EXC_ROUTEp_FUNC.key (4 * p + i) := by
  decide +kernel

theorem key_route_apart (a b : Nat) : F.EXC_ROUTEp_SRC.key a ≠ F.EXC_ROUTEp_FUNC.key b
    ∧ (a ≠ b → F.EXC_ROUTEp_SRC.key a ≠ F.EXC_ROUTEp_SRC.key b ∧ F.EXC_ROUTEp_FUNC.key a ≠ F.EXC_ROUTEp_FUNC.key b) := by
  simp only [Fld.key, F.EXC_ROUTEp_SRC, F.EXC_ROUTEp_FUNC]
  omega

theorem putVals_inForce (s : State) {p : Nat} (lt : p < 24) (v : PendVals) : InForce p v (putVals s p v) := by
  obtain ⟨⟨ca, cm, am⟩, carrier⟩ := key_carrier_apart p lt
  unfold putVals
  extract_lets s1 s2 s3 s4
  have rest := putScale_revalued s4 lt v
  refine InForce.of_seen lt ?_ (rest.seen fun k hk => by unfold besideKey; rw [hk]; exact Bool.and_false _)
  have own (f : Fld) (hf : f ∈ [F.EXC_CARRIER_SPn_CARRIER, F.EXC_CARRIER_SPn_AMP, F.EXC_CARRIER_SPn_MODE]) : s4.get f p = s3.get f p :=
    forN_keeps (fun s => s.get f p) (fun t i hi => by
      obtain ⟨src, func⟩ := carrier i hi f hf
      exact (State.get_set_ne _ _ func).trans (State.get_set_ne t _ src)) s3
  refine ⟨fun x => ?_, fun x => ?_, fun x => ?_, fun j hj x y => ⟨?_, ?_⟩⟩
  · rw [own _ (by simp)]
    exact (State.get_set_self _ _ _ _).trans (Nat.mod_eq_of_lt x)
  · rw [own _ (by simp)]
    exact (State.get_set_ne _ _ am).trans ((State.get_set_self _ _ _ _).trans (Nat.mod_eq_of_lt x))
  · rw [own _ (by simp)]
    exact (State.get_set_ne _ _ cm).trans ((State.get_set_ne _ _ ca).trans ((State.get_set_self _ _ _ _).trans (Nat.mod_eq_of_lt x)))
  · refine forN_writes (fun s => s.get F.EXC_ROUTEp_SRC (4 * p + j)) hj (fun t => ?_) (fun t i hi ne => ?_) s3
    · exact (State.get_set_ne _ _ (key_route_apart _ _).1).trans ((State.get_set_self _ _ _ _).trans (Nat.mod_eq_of_lt x))
    · exact (State.get_set_ne _ _ (key_route_apart _ _).1).trans (State.get_set_ne t _ ((key_route_apart _ _).2 (by omega)).1)
  · refine forN_writes (fun s => s.get F.EXC_ROUTEp_FUNC (4 * p + j)) hj (fun t => ?_) (fun t i hi ne => ?_) s3
    · exact (State.get_set_self _ _ _ _).trans (Nat.mod_eq_of_lt y)
    · exact (State.get_set_ne _ _ ((key_route_apart _ _).2 (by omega)).2).trans (State.get_set_ne t _ (key_route_apart _ _).1.symm)

theorem driven_inForce (s : State) {p : Nat} (lt : p < 24) (v : PendVals) (t : State) : InForce p v (driven s p v t) :=
  (putVals_inForce t lt v).of_seen lt ((driven_beside s lt v t).seen fun k hk => by unfold besideKey; rw [hk]; exact Bool.and_false _)

end Sys2Proof.Machine
end

section
/-!
PROOFS. Pending values at a boundary (R58, R60). Settles O18.
-/

namespace Sys2Proof.Machine

/-! ### Pending values at a boundary (R58, R60) -/

/-- A point without its pending values, the samples evaluated that still wait on a scale which ends (R428, log entry 83). -/
def evaluated (s : State) (p : Nat) (v : PendVals) : State :=
  if scaleDiffers (pointVals s p) v 0 || scaleDiffers (pointVals s p) v 1 then drainHeld (pendDrop s p) p else pendDrop s p

theorem evaluated_still (s : State) (p : Nat) (v : PendVals) : (evaluated s p v).part.still = (pendDrop s p).part.still := by
  unfold evaluated
  rw [still_if, still_drainHeld, ite_self]

theorem evaluated_eq {s : State} {p : Nat} (h : drainHeld (pendDrop s p) p = pendDrop s p) (v : PendVals) : evaluated s p v = pendDrop s p := by
  unfold evaluated
  rw [h, ite_self]

theorem applyVals_scaled {s : State} {p : Nat} {v : PendVals} (h : excDiffers (pointVals s p) v = false) :
    applyVals (pendDrop s p) p v = scaled s p v (evaluated s p v) := by
  unfold applyVals
  exact if_neg (by show ¬excDiffers (pointVals s p) v = true; rw [h]; exact Bool.noConfusion)

theorem applyVals_driven {s : State} {p : Nat} (lt : p < 24) {v : PendVals} (h : excDiffers (pointVals s p) v = true) :
    applyVals (pendDrop s p) p v = excChange (driven s p v (evaluated s p v)) p s.now .cpBlind := by
  have values := (scaled_revalued s lt v (evaluated s p v)).trans ((newMode_revalued (pointVals s p) v lt _).mono valueKey_of_besideKey)
  have now : (newMode (pointVals s p) v p (scaled s p v (evaluated s p v))).now = s.now :=
    (values.reads State.now fun _ _ _ => rfl).trans (congrArg (·.1) (evaluated_still s p v))
  rw [← now]
  unfold applyVals
  exact if_pos h

theorem pendApply_none {s : State} {p : Nat} (h : (s.point p).pend = none) : pendApply s p = s := by
  unfold pendApply
  rw [h]

theorem pendApply_some {s : State} {p : Nat} {v : PendVals} (h : (s.point p).pend = some v) : pendApply s p =
    if (s.point p).pendAt < s.now ∧ ((s.point p).force || pendReady s p) then applyVals (pendDrop s p) p v else s := by
  unfold pendApply
  rw [h]

/-- Writing values into force leaves the drive steady. -/
theorem Revalued.steady {s t : State} (h : Revalued valueKey s t) (lines : LinesFollow s) : DriveSteady t := by
  have e (f : Fld) (hf : valueKey (f.key 0) = false) : t.get f 0 = s.get f 0 := h.regs _ hf
  refine DriveSteady.of_eq lines (h.reads State.lines fun _ _ _ => rfl) ?_
  unfold srcMay intlkActive trainRuns State.role State.dev State.flag
  rw [e F.DEV_STATE_ROLE (by decide), e F.DEV_STATE_STATE (by decide), e F.SPU_STATUS_HALTED (by decide),
    e F.URED_STATE_LINK_UP (by decide), h.reads State.ext fun _ _ _ => rfl, h.reads State.now fun _ _ _ => rfl,
    h.reads State.spu fun _ _ _ => rfl, h.reads State.boot fun _ _ _ => rfl]

theorem DriveSteady.updPoint {s : State} (h : DriveSteady s) (n : Nat) (g : Point → Point) : DriveSteady (s.updPoint n g) := h

/-- What a point's becoming BLIND is judged by reads the same on both. -/
structure SameLook (s t : State) : Prop where
  core : ∀ c, (t.chan c).core = (s.chan c).core
  blind : ∀ q, (t.point q).blind = (s.point q).blind
  tiles : t.tiles = s.tiles

namespace SameLook

variable {s t : State} (h : SameLook s t)
include h

theorem faulty (c : Nat) : (t.chan c).faulty = (s.chan c).faulty := congrArg (·.2.2) (h.core c)

theorem chState (c : Nat) : chState t c = chState s c := by
  have on (c : Nat) : (t.chan c).on = (s.chan c).on := congrArg (·.1) (h.core c)
  have met (c : Nat) : (t.chan c).met = (s.chan c).met := congrArg (·.2.1) (h.core c)
  unfold Machine.chState
  simp only [on, met, h.faulty, h.blind]

theorem blindExempt (p : Nat) : blindExempt t p = blindExempt s p := by
  unfold Machine.blindExempt
  rw [h.chState, h.chState, pointCp_of_tiles h.tiles]
  cases pointCp s p with
  | none => rfl
  | some c => exact congrArg (decide _ && ·) (cpLull_of_tiles h.tiles c)

theorem usable (p : Nat) : usable t p = usable s p := by
  unfold Machine.usable
  rw [h.blind, h.faulty, h.faulty]

theorem mem_blindDisturbs (p : Nat) {n : Nat} (lt : n < 48) (c : Nat) : (n, c) ∈ blindDisturbs t p ↔ (n, c) ∈ blindDisturbs s p := by
  rw [Machine.mem_blindDisturbs, Machine.mem_blindDisturbs, h.blind, h.blindExempt, h.faulty, h.faulty, pointCp_of_tiles h.tiles,
    portCarries_of_tiles h.tiles, secsOf_of_tiles h.tiles, secUsed_of_tiles h.tiles lt]

end SameLook

/-- A point that is not BLIND, changed in its excitation. -/
theorem excChange_marked {s : State} {p : Nat} (seen : (s.point p).blind = false) (pts : p < s.points.length)
    (chs : 2 * p + 1 < s.chans.length) (t : Nat) (cause : Cause) :
    Marked s (excChange s p t cause) p ∧ settling ((excChange s p t cause).point p) (t / 1250) = true := by
  have part := part_enterBlind seen cause
  have marks := blindMarks_marked pts chs cause
  have points : (enterBlind s p cause).points = (blindMarks s p cause).points := congrArg Part.points part
  have chans : (enterBlind s p cause).chans = (blindMarks s p cause).chans := congrArg Part.chans part
  have at_ : (enterBlind s p cause).point p = (blindMarks s p cause).point p := congrArg (nth · p) points
  have chan (c : Nat) : (excChange s p t cause).chan c = (blindMarks s p cause).chan c := congrArg (nth · c) chans
  have len : p < (enterBlind s p cause).points.length := by rw [points, marks.size]; exact pts
  have own : (excChange s p t cause).point p = { (blindMarks s p cause).point p with
      settle := settleFrom t :: settleLeft ((blindMarks s p cause).point p) t } := by
    rw [← at_]
    exact point_updPoint len _
  refine ⟨?_, ?_⟩
  · exact
      { size := (List.length_modify _ _ p).trans (by rw [points]; exact marks.size)
        blind := by rw [own]; exact marks.blind
        exc := by rw [own]; exact marks.exc
        pend := by rw [own]; exact marks.pend
        force := by rw [own]; exact marks.force
        idle := by rw [own]; exact marks.idle
        countA := by rw [chan]; exact marks.countA
        countB := by rw [chan]; exact marks.countB
        low := (congrArg Part.low part).trans marks.low }
  · rw [own]
    simp [settling, settleFrom]
    omega

/-- A BLIND point holds no samples back for the next (R124). -/
theorem drainHeld_blind {s : State} {p : Nat} (h : (s.point p).blind = true) : drainHeld s p = s := by
  have waits (x y : Sample) (xs ys : List Sample) : pairWaits s p x y xs ys = false := by
    have still : ((expireHold s p x.k).point p).blind = true := (congrArg (·.2.2) (held_of_still (still_expireHold s p x.k) p)).trans h
    unfold pairWaits
    dsimp only
    split
    · rw [still]; rfl
    · rfl
  unfold drainHeld
  split
  · rw [if_neg fun h => by rw [waits] at h; exact Bool.noConfusion h.2]
  · rfl

theorem cpPoint_of_pointCp {s : State} {p c : Nat} (h : pointCp s p = some c) : c < 24 ∧ cpPoint s c = some p := by
  have lt : c < 24 := List.mem_range.mp (List.mem_of_find?_eq_some h)
  have mapped := List.find?_some h
  simp only [Bool.and_eq_true, beq_iff_eq] at mapped
  obtain ⟨valid, sp⟩ := mapped
  unfold cpPoint
  rw [if_pos ⟨lt, valid⟩, sp]
  exact ⟨lt, rfl⟩

/-- A counting point is READY when both its channels are (R29). -/
theorem chState_of_cpState {s : State} {p c : Nat} (h : pointCp s p = some c) (ready : cpState s c = 0) :
    chState s (2 * p) = 0 ∧ chState s (2 * p + 1) = 0 := by
  have top (c : Nat) : chState s c ≤ 6 := by
    unfold chState
    dsimp only
    split_ifs <;> omega
  obtain ⟨lt, at_⟩ := cpPoint_of_pointCp h
  unfold cpState at ready
  rw [if_pos lt, at_] at ready
  have a := top (2 * p)
  have b := top (2 * p + 1)
  dsimp only at ready
  split_ifs at ready
  omega

/-- The condition of R58 meets the exception of R30. -/
theorem blindExempt_of_pendReady {s : State} {p : Nat} (h : pendReady s p = true) : blindExempt s p = true := by
  unfold pendReady at h
  unfold blindExempt
  cases cp : pointCp s p with
  | none =>
    rw [cp] at h
    simpa using h
  | some c =>
    rw [cp] at h
    simp only [Bool.and_eq_true, beq_iff_eq] at h
    obtain ⟨ready, lull⟩ := h
    simp only [chState_of_cpState cp ready, lull, and_self, decide_true, Bool.and_self]

/-! ### The statement -/

theorem execPendingExcApply_eq {s : State} (sp : Fin 24) (counting : s.counting = true) (at_ : atBoundary s = true) :
    exec (.pendingExcApply sp) s = answer s (pendApply s sp.val) := by
  show answer s (if atBoundary s && s.counting then pendApply s sp.val else s) = _
  rw [at_, counting]
  rfl

/-- Values in force on a state in which its point still holds none of them. -/
theorem driven_still (s : State) {p : Nat} (lt : p < 24) (v : PendVals) {w : State} (still : w.part.still = (pendDrop s p).part.still) :
    (driven s p v w).points.length = s.points.length ∧ (driven s p v w).chans.length = s.chans.length
      ∧ ((driven s p v w).point p).held = ((pendDrop s p).point p).held := by
  have values := driven_revalued s lt v w
  have points : (driven s p v w).points = w.points := values.reads State.points fun _ _ _ => rfl
  obtain ⟨pts, chs⟩ := still_sizes still
  refine ⟨?_, values.size.trans chs, ?_⟩
  · rw [points, pts]
    exact List.length_modify _ s.points p
  · rw [← held_of_still still p]
    exact congrArg (fun l => (nth l p).held) points

theorem pendDrop_held {s : State} {p : Nat} (pts : p < s.points.length) : ((pendDrop s p).point p).held = (none, false, (s.point p).blind) := by
  unfold pendDrop
  rw [point_updPoint pts]

/-- What the excitation change of a point that was not BLIND leaves there. -/
theorem excApplied {s : State} {p : Nat} (lt : p < 24) (v : PendVals) (seen : (s.point p).blind = false)
    (pts : s.points.length = 24) (chs : s.chans.length = 48) {w : State} (still : w.part.still = (pendDrop s p).part.still) :
    let u := excChange (driven s p v w) p s.now .cpBlind
    (u.point p).pend = none ∧ (u.point p).force = false ∧ InForce p v u ∧ (u.point p).blind = true
      ∧ settling (u.point p) (s.now / 1250) = true := by
  intro u
  obtain ⟨sizeP, sizeC, held⟩ := driven_still s lt v still
  rw [pendDrop_held (by omega), seen] at held
  simp only [Point.held, Prod.mk.injEq] at held
  obtain ⟨pend, force, blind⟩ := held
  obtain ⟨marked, settled⟩ := excChange_marked blind (by omega) (by omega) s.now .cpBlind
  refine ⟨marked.pend.trans pend, marked.force.trans force, ?_, marked.blind, settled⟩
  exact (driven_inForce s lt v w).of_seen lt (seen_mono marked.low fun k hk => by
    simp only [drivenKey, lowKey, decide_eq_true_eq] at hk ⊢
    omega)

theorem pendDrop_blind (s : State) (p q : Nat) : ((pendDrop s p).point q).blind = (s.point q).blind := by
  have at_ (x : State) : nth (x.points.map Point.blind) q = (x.point q).blind := nth_map Point.blind x.points q rfl
  rw [← at_, ← at_]
  exact congrArg (nth · q) (map_upd Point.blind s.points p fun _ => rfl)

/-- The look of a state on which values are put into force without a new scale. -/
theorem driven_look (s : State) {p : Nat} (lt : p < 24) (v : PendVals) : SameLook s (driven s p v (pendDrop s p)) := by
  have values := driven_revalued s lt v (pendDrop s p)
  refine ⟨values.core, fun q => ?_, values.seen fun k hk => ?_⟩
  · exact (values.reads (fun x => (x.point q).blind) fun _ _ _ => rfl).trans (pendDrop_blind s p q)
  · simp only [tileKey, valueKey, Bool.or_eq_true, decide_eq_true_eq, decide_eq_false_iff_not] at hk ⊢
    omega

theorem tileOf_excChange (s : State) (p t : Nat) (cause : Cause) (n : Nat) :
    tileOf (excChange s p t cause) n = tileOf (enterBlind s p cause) n := rfl

/-- On an unchanged scale the point becomes BLIND as `BlindPoint` says, and in a clean fabric clock without a hold its sections as
`blindDisturbs` says (R30, R167). -/
theorem excApplied_unscaled {s : State} {p : Nat} (lt : p < 24) (v : PendVals) (seen : (s.point p).blind = false)
    (pts : s.points.length = 24) (chs : s.chans.length = 48) :
    let u := excChange (driven s p v (pendDrop s p)) p s.now .cpBlind
    BlindPoint s u p ∧ (clockNow s = [] → noHold s p → ∀ n, n < 48 →
      (∀ c, (n, c) ∈ blindDisturbs s p → u.get F.SECT_n_STATE_STATE n = 2
        ∧ (s.get F.SECT_n_STATE_STATE n ≠ 2 → u.get F.SECT_n_STATE_CAUSE n = 3 ∧ u.get F.SECT_n_STATE_CAUSE_CP n = c))
      ∧ ((∀ c, (n, c) ∉ blindDisturbs s p) → u.get F.SECT_n_STATE_STATE n = s.get F.SECT_n_STATE_STATE n)) := by
  intro u
  have look := driven_look s lt v
  have seen' : ((driven s p v (pendDrop s p)).point p).blind = false := (look.blind p).trans seen
  obtain ⟨sizeP, sizeC, -⟩ := driven_still s lt v (w := pendDrop s p) rfl
  obtain ⟨marked, settled⟩ := excChange_marked seen' (by omega) (by omega) s.now .cpBlind
  refine ⟨⟨marked.blind, marked.exc.trans (look.blindExempt p), settled, fun use => marked.idle ((look.usable p).trans use), ?_⟩,
    fun clean quiet n ltn => ?_⟩
  · rintro c (rfl | rfl)
    · exact marked.countA
    · exact marked.countB
  · have values := driven_revalued s lt v (pendDrop s p)
    have clean' : clockNow (driven s p v (pendDrop s p)) = [] := (values.reads clockNow fun _ _ _ => rfl).trans clean
    have quiet' : noHold (driven s p v (pendDrop s p)) p := by
      have seq : ((driven s p v (pendDrop s p)).point p).seq = (s.point p).seq := by
        rw [values.reads (fun x => (x.point p).seq) fun _ _ _ => rfl]
        unfold pendDrop
        rw [point_updPoint (by omega)]
      unfold noHold
      rw [seq]
      exact quiet
    have own : tileOf u n = tileOf (enterBlind (driven s p v (pendDrop s p)) p .cpBlind) n := tileOf_excChange _ _ _ _ _
    obtain ⟨hit, miss⟩ := tileOf_enterBlind lt seen' quiet' clean' .cpBlind ltn
    have before : tileOf (driven s p v (pendDrop s p)) n = tileOf s n := tileOf_of_tiles look.tiles ltn
    rw [before, ← own] at hit miss
    refine ⟨fun c hc => ?_, fun out => ?_⟩
    · obtain ⟨watch, tile⟩ := hit c ((look.mem_blindDisturbs p ltn c).mpr hc)
      have top : c % 64 = c := Nat.mod_eq_of_lt (by
        have := (cpPoint_of_pointCp ((mem_blindDisturbs s p n c).mp hc).2.1).1
        omega)
      unfold stained tileOf at tile
      by_cases was : s.get F.SECT_n_STATE_STATE n = 2
      · rw [if_pos was] at tile
        simp only [Prod.mk.injEq] at tile
        exact ⟨tile.1.trans was, fun h => absurd was h⟩
      · rw [if_neg was, top] at tile
        simp only [Prod.mk.injEq] at tile
        exact ⟨tile.1, fun _ => tile.2⟩
    · have tile := miss fun c hc => out c ((look.mem_blindDisturbs p ltn c).mp hc)
      simp only [tileOf, Prod.mk.injEq] at tile
      exact tile.1

/-- Settles O18: values put into force leave all that a change is judged by as it was, evaluating samples or abandoning a hold leaves
the tick and what the points hold, and in a clean fabric clock a point that becomes BLIND disturbs what `blindDisturbs` names. -/
theorem pendingValuesApply : Obligations.PendingValuesApply := by
  intro s sp lines counting at_
  have lt := sp.isLt
  have run := execPendingExcApply_eq sp counting at_
  generalize Instr.pendingExcApply sp = i at *
  generalize sp.val = p at *
  have steady {w : State} (h : Revalued valueKey (pendDrop s p) w) : DriveSteady w := h.steady (show LinesFollow (pendDrop s p) from lines)
  refine ⟨fun none => answers_of (run.trans (congrArg (answer s) (pendApply_none none))) lines.steady,
    fun v pend => ⟨fun wait => ?_, fun past go => ?_⟩⟩
  · refine answers_of (run.trans (congrArg (answer s) ?_)) lines.steady
    rw [pendApply_some pend, if_neg]
    rintro ⟨past, go⟩
    rcases wait with early | ⟨unforced, unready⟩
    · omega
    · simp [unforced, unready] at go
  · intro free scale fresh moded
    have applied : exec i s = answer s (applyVals (pendDrop s p) p v) := by
      rw [run, pendApply_some pend, if_pos ⟨past, by rcases go with h | h <;> simp [h]⟩]
    have onScale : fresh = scaled s p v (evaluated s p v) := rfl
    have onDrive : syncSources moded = driven s p v (evaluated s p v) := rfl
    have changed (on : excDiffers (pointVals s p) v = true) : exec i s = answer s (excChange (syncSources moded) p s.now .cpBlind) := by
      rw [applied, applyVals_driven lt on, onDrive]
    refine ⟨fun off => ?_, fun off held => ?_, fun on seen => ⟨changed on, fun pts chs => ?_⟩, fun on blind => ?_⟩
    · rw [applied, applyVals_scaled off, onScale]
      rfl
    · refine answers_of (applied.trans (congrArg (answer s) (applyVals_scaled off))) ?_
      rw [onScale, evaluated_eq held]
      exact steady (scaled_revalued s lt v _)
    · have unscaled (h : scale = false) : evaluated s p v = pendDrop s p := if_neg (by show ¬scale = true; rw [h]; exact Bool.noConfusion)
      obtain ⟨none, unforced, values, blind, settled⟩ := excApplied lt v seen pts chs (evaluated_still s p v)
      refine ⟨none, unforced, values.mode, values.amp, values.carrier, values.route, blind, settled, fun h => ?_, blindExempt_of_pendReady,
        fun h => ?_⟩
      · rw [onDrive, unscaled h]
        exact (excApplied_unscaled lt v seen pts chs).1
      · rw [onDrive, unscaled h]
        exact (excApplied_unscaled lt v seen pts chs).2
    · have heldBlind : ((pendDrop s p).point p).blind = true := (pendDrop_blind s p p).trans blind
      have noDrain := evaluated_eq (drainHeld_blind heldBlind) v
      have values := driven_revalued s lt v (pendDrop s p)
      have blind' : ((driven s p v (pendDrop s p)).point p).blind = true :=
        (values.reads (fun x => (x.point p).blind) fun _ _ _ => rfl).trans heldBlind
      refine answers_of ((changed on).trans (congrArg (answer s) ?_)) ?_
      · rw [onDrive, noDrain]
        unfold excChange
        rw [enterBlind_blind blind']
        rfl
      · rw [onDrive, noDrain]
        exact (steady values).updPoint p _

end Sys2Proof.Machine
end

section
/-!
PROOFS. The lines after a step (R53, R284, R294 to R296, R344): every command settles, so the next state's lines are those its
conditions command. Settles O59.
-/

namespace Sys2Proof.Machine

/-! ### Masks -/

theorem maskOf_succ (n : Nat) (p : Nat → Bool) : maskOf (n + 1) p = if p n then maskOf n p + 2 ^ n else maskOf n p := by
  unfold maskOf
  rw [List.range_succ, List.foldl_append]
  rfl

theorem maskOf_lt (n : Nat) (p : Nat → Bool) : maskOf n p < 2 ^ n := by
  induction n with
  | zero => exact Nat.one_pos
  | succ n ih =>
    rw [maskOf_succ, Nat.pow_succ]
    split <;> omega

/-- The bits of a mask are the indices that satisfy its test. -/
theorem bitAt_maskOf (n : Nat) (p : Nat → Bool) (k : Nat) : bitAt (maskOf n p) k = (decide (k < n) && p k) := by
  unfold bitAt
  induction n with
  | zero => exact Nat.zero_testBit k
  | succ n ih =>
    have top : (maskOf n p).testBit n = false := Nat.testBit_lt_two_pow (maskOf_lt n p)
    rw [maskOf_succ]
    rcases Nat.lt_trichotomy k n with lt | rfl | gt
    · have below : (if p n then maskOf n p + 2 ^ n else maskOf n p).testBit k = (maskOf n p).testBit k := by
        split
        · rw [Nat.add_comm, Nat.testBit_two_pow_add_gt lt]
        · rfl
      rw [below, ih]
      simp [lt, Nat.lt_succ_of_lt lt]
    · split
      next on => rw [Nat.add_comm, Nat.testBit_two_pow_add_eq, top, on]; simp
      next off => rw [top]; simp [off]
    · have out : (if p n then maskOf n p + 2 ^ n else maskOf n p) < 2 ^ k := by
        have room : 2 ^ (n + 1) ≤ 2 ^ k := Nat.pow_le_pow_right Nat.two_pos gt
        rw [← maskOf_succ]
        exact lt_of_lt_of_le (maskOf_lt (n + 1) p) room
      rw [Nat.testBit_lt_two_pow out, decide_eq_false (by omega), Bool.false_and]

/-! ### Every step settles -/

theorem exec_answers (c : Instr) (s : State) : ∃ u, exec c s = answer s u := by
  cases c
  case canError x e =>
    show ∃ u, execCanError x e s = answer s u
    unfold execCanError
    cases e.kind <;> exact ⟨_, rfl⟩
  all_goals exact ⟨_, rfl⟩

theorem step_answers (s : State) : ∃ r u, step s = answer r u := by
  unfold step
  split
  · exact ⟨_, _, rfl⟩
  next c rest _ =>
    obtain ⟨u, h⟩ := exec_answers c (s.putPending rest)
    exact ⟨_, u, h⟩

theorem step_lines {s t : State} (h : step s = .next t) : LinesFollow t := by
  obtain ⟨r, u, e⟩ := step_answers s
  obtain rfl : settled r u = t := Host.Outcome.next.inj (e.symm.trans h)
  exact settled_lines r u

/-! ### The conditions of the lines (R53, R284, R294, R344) -/

theorem intlkActive_eq_false {t : State} : intlkActive t = false ↔ t.ext.intlkIn = false ∧ t.ext.lowSince + 600 ≤ t.now := by
  unfold intlkActive
  simp

theorem trainRuns_iff {t : State} : trainRuns t = true ↔ t.now < t.spu.grantEnd ∧ t.get F.SPU_STATUS_HALTED = 0 := by
  unfold trainRuns State.flag
  simp

theorem follows_iff {t : State} : follows t = true ↔ t.dev = .startup ∨ t.dev = .oper ∨ t.dev = .squall := by
  unfold follows
  cases t.dev <;> simp

theorem mayDrive_iff {t : State} : mayDrive t = true ↔ t.role = .active ∧ (t.dev = .startup ∨ t.dev = .oper ∨ t.dev = .squall)
    ∧ t.ext.intlkIn = false ∧ t.ext.lowSince + 600 ≤ t.now := by
  unfold mayDrive
  rw [Bool.and_eq_true, Bool.and_eq_true, follows_iff, Bool.not_eq_true', intlkActive_eq_false, beq_iff_eq]
  tauto

/-- What a line that permits motion needs of the unit: the role, the device state, the interlock, the grant and the cores. -/
def Live (t : State) : Prop :=
  t.role = .active ∧ (t.dev = .startup ∨ t.dev = .oper ∨ t.dev = .squall) ∧ t.ext.intlkIn = false ∧ t.ext.lowSince + 600 ≤ t.now
    ∧ t.now < t.spu.grantEnd ∧ t.get F.SPU_STATUS_HALTED = 0

theorem live_iff {t : State} : (mayDrive t && trainRuns t) = true ↔ Live t := by
  rw [Bool.and_eq_true, mayDrive_iff, trainRuns_iff]
  unfold Live
  tauto

theorem tlClear_iff {t : State} : tlClear t = true ↔
    t.flag F.TLNK_PIN_FSTOP = false ∧ t.flag F.TLNK_PIN_RSTOP = false ∧ t.flag F.TLNK_PIN_RBSTOP = false := by
  unfold tlClear
  simp only [Bool.and_eq_true, Bool.not_eq_true', and_assoc]

theorem srcMay_iff {t : State} : srcMay t = true ↔ t.ext.intlkIn = false ∧ t.ext.lowSince + 600 ≤ t.now ∧ (t.role = .active ∨ t.dev = .comm
    ∨ (t.dev = .safe ∧ t.now < t.spu.grantEnd ∧ t.get F.SPU_STATUS_HALTED = 0 ∧ t.flag F.URED_STATE_LINK_UP = false)) := by
  unfold srcMay
  simp only [Bool.and_eq_true, Bool.or_eq_true, Bool.not_eq_true', intlkActive_eq_false, trainRuns_iff, beq_iff_eq]
  tauto

section
variable {t : State} (h : LinesFollow t)
include h

theorem LinesFollow.switch (k : Nat) : switchClosed t k = true ↔
    k < 12 ∧ outBase t k = true ∧ (t.outPort k).pulse = none := by
  unfold switchClosed
  rw [h]
  show bitAt (maskOf 12 (fun k => outBase t k && (t.outPort k).pulse.isNone)) k = true ↔ _
  rw [bitAt_maskOf]
  simp only [Bool.and_eq_true, decide_eq_true_eq, Option.isNone_iff_eq_none]

theorem LinesFollow.tlp : t.lines.tlp = (mayDrive t && trainRuns t && tlClear t && t.flag F.FAB_OUTDEM_TLP) := by rw [h]; rfl

theorem LinesFollow.still : t.lines.still = (mayDrive t && trainRuns t && tlClear t && t.flag F.FAB_OUTDEM_TLS) := by rw [h]; rfl

theorem LinesFollow.stopN : t.lines.stopN =
    if t.spu.jtag == 3 && t.dev == .comm then bitAt t.spu.preload 0 else mayDrive t && trainRuns t && tlClear t := by rw [h]; rfl

theorem LinesFollow.src : t.lines.src = srcMay t := by rw [h]; rfl

theorem LinesFollow.encTerm : t.lines.encTerm = true → srcMay t = true := by
  rw [h]
  exact fun on => (Bool.and_eq_true_iff.mp on).1

/-- A closed switch (R284). -/
theorem LinesFollow.closed {k : Nat} (on : switchClosed t k = true) : k < 12 ∧ Live t ∧ bitAt (t.get F.FAB_OUTDEM_SOUT) k = true
    ∧ t.flag F.SIO_OUTk_CFG_EN k = true ∧ t.get F.SIO_OUTk_STAT_FAULT_KIND k = 0 ∧ (t.outPort k).pulse = none := by
  obtain ⟨lt, base, pulse⟩ := (h.switch k).mp on
  unfold outBase at base
  simp only [Bool.and_eq_true, beq_iff_eq] at base
  obtain ⟨⟨⟨drive, demand⟩, enabled⟩, sound⟩ := base
  exact ⟨lt, live_iff.mp (Bool.and_eq_true_iff.mpr drive), demand, enabled, sound, pulse⟩

/-- TL_PERMIT and TL_STILL driven, each on its demand, and TL_STOP_N, also by its cell (R273, R294, R295). -/
theorem LinesFollow.link :
    (t.lines.tlp = true → Live t ∧ tlClear t = true ∧ t.flag F.FAB_OUTDEM_TLP = true)
    ∧ (t.lines.stopN = true → Live t ∧ tlClear t = true ∨ t.dev = .comm ∧ t.spu.jtag = 3)
    ∧ (t.lines.still = true → Live t ∧ tlClear t = true ∧ t.flag F.FAB_OUTDEM_TLS = true) := by
  rw [h.tlp, h.stopN, h.still]
  refine ⟨fun on => ?_, fun on => ?_, fun on => ?_⟩
  · rw [Bool.and_eq_true, Bool.and_eq_true, live_iff, and_assoc] at on
    exact on
  · split at on
    next cell =>
      rw [Bool.and_eq_true, beq_iff_eq, beq_iff_eq] at cell
      exact Or.inr cell.symm
    next =>
      rw [Bool.and_eq_true, live_iff] at on
      exact Or.inl on
  · rw [Bool.and_eq_true, Bool.and_eq_true, live_iff, and_assoc] at on
    exact on

/-- A unit that is not live drives no switch, no edges and no TL_STILL, and no TL_STOP_N but by its cell. -/
theorem LinesFollow.dead (no : ¬Live t) : (∀ k, k < 12 → switchClosed t k = false) ∧ t.lines.tlp = false ∧ t.lines.still = false
    ∧ ((t.dev = .comm → t.spu.jtag ≠ 3) → Restrictive t) := by
  obtain ⟨permit, stop, still⟩ := h.link
  have open_ : ∀ k, k < 12 → switchClosed t k = false := fun k _ => Bool.eq_false_iff.mpr fun on => no (h.closed on).2.1
  have edges : t.lines.tlp = false := Bool.eq_false_iff.mpr fun on => no (permit on).1
  have low : t.lines.still = false := Bool.eq_false_iff.mpr fun on => no (still on).1
  refine ⟨open_, edges, low, fun noCell => ⟨open_, edges, Bool.eq_false_iff.mpr fun on => ?_, low⟩⟩
  rcases stop on with ⟨live, -⟩ | ⟨comm, cell⟩
  · exact no live
  · exact noCell comm cell

end

/-- Settles O59: whatever the command, the lines of the next state are those that its conditions command, and these are read off line by
line. -/
theorem linesObeyTheirConditions : Obligations.LinesObeyTheirConditions := by
  intro s t next
  have h := step_lines next
  obtain ⟨permit, stop, still⟩ := h.link
  refine ⟨fun k on => h.closed on, fun on => ?_, fun on => ?_, fun on => ?_, fun on => ?_, fun dead => h.dead ?_⟩
  · obtain ⟨live, clear, demand⟩ := permit on
    exact ⟨live, tlClear_iff.mp clear, demand⟩
  · exact (stop on).imp_left fun ⟨live, clear⟩ => ⟨live, tlClear_iff.mp clear⟩
  · obtain ⟨live, clear, demand⟩ := still on
    exact ⟨live, tlClear_iff.mp clear, demand⟩
  · exact srcMay_iff.mp (on.elim (fun src => h.src ▸ src) h.encTerm)
  · rintro ⟨active, -, intlk, -, grant, running⟩
    rcases dead with on | halted | lapsed | other
    · rw [intlk] at on
      exact Bool.noConfusion on
    · exact halted running
    · omega
    · exact other active

end Sys2Proof.Machine
end

section
/-!
PROOFS. Commands and events of the excitation that leave their point's sections alone: FORCE and CANCEL (R59, R60), pin clamps (R67), the
carrier of a BLIND point (R429). Settles O20, O22 and O23.
-/

namespace Sys2Proof.Machine

/-! ### FORCE and CANCEL (R59, R60) -/

/-- What every round of a repeated change keeps, the whole keeps. -/
theorem forEach_holds {α : Type} {P : State → Prop} {f : State → α → State} (h : ∀ t x, P t → P (f t x)) (l : List α) {s : State}
    (start : P s) : P (forEach l s f) := by
  induction l generalizing s with
  | nil => exact start
  | cons x l ih => exact ih (h s x start)

theorem DriveSteady.ite {c : Prop} [Decidable c] {t u : State} (a : DriveSteady t) (b : DriveSteady u) : DriveSteady (if c then t else u) := by
  split
  · exact a
  · exact b

theorem gate_up {s : State} (up : s.portsUp = true) (t : State) : gate s t = t := if_pos up

/-- Settles O20: the ports answer, and marks of pending values are no condition of R53. -/
theorem forceAndCancel : Obligations.ForceAndCancel := by
  intro s p pts lines up
  refine ⟨answers_of (congrArg (answer s) (gate_up up _)) ?_, answers_of (congrArg (answer s) (gate_up up _)) ?_⟩
  · exact forEach_holds (fun t q h => (h.updPoint q _).ite h) _ lines.steady
  · exact forEach_holds (fun t q h => h.updPoint q _) _ lines.steady

/-! ### Pin clamps (R67) -/

/-- An update reads its list at its own index alone. -/
theorem upd_congr {α : Type} [Inhabited α] {l : List α} {n : Nat} {f g : α → α} (h : f (nth l n) = g (nth l n)) : upd l n f = upd l n g := by
  unfold upd
  refine List.ext_getElem (by simp) fun i hi _ => ?_
  have lt : i < l.length := by simpa using hi
  rw [List.getElem_modify, List.getElem_modify]
  split
  next e =>
    subst e
    have own : nth l n = l[n] := List.getD_eq_getElem _ _ lt
    rw [← own, h]
  next => rfl

theorem counting_set (s : State) {f : Fld} {i : Nat} (h : f.key i ≠ F.DEV_STATE_STATE.key 0) (v : Nat) : (s.set f i v).counting = s.counting := by
  have dev : (s.set f i v).dev = s.dev := by
    unfold State.dev
    rw [State.get_set_ne s v h.symm]
    rfl
  unfold State.counting
  rw [dev]

theorem key_clamp : ∀ p < 96, drivesSource (F.EXC_CLAMPk_CLAMP.key (p / 32)) = false
    ∧ F.EXC_CLAMPk_CLAMP.key (p / 32) ≠ F.DEV_STATE_STATE.key 0 := by
  decide +kernel

/-- A conduction outside an episode: the flag and the conduction, and what they tag. -/
theorem clampConduct_idle {s : State} {pin : Nat} (idle : (s.pin pin).from_ = none) (onset last : Nat) : clampConduct s pin onset last =
    tagsAgain ((clampFlag s pin).updPin pin (fun x => { from_ := some onset, last := last, ivs := x.ivs })) (pin / 2) onset := by
  have kept : (clampFlag s pin).updPin pin (fun x =>
      { from_ := some onset, last := last, ivs := match x.from_ with | some t => (t, x.last) :: x.ivs | none => x.ivs })
      = (clampFlag s pin).updPin pin (fun x => { from_ := some onset, last := last, ivs := x.ivs }) := by
    refine congrArg (fun l => { clampFlag s pin with pins := l }) (upd_congr ?_)
    have same : nth (clampFlag s pin).pins pin = s.pin pin := rfl
    rw [same, idle]
  unfold clampConduct
  rw [if_neg (by rw [idle]; exact fun h => Bool.noConfusion h.1)]
  exact congrArg (tagsAgain · (pin / 2) onset) kept

theorem tagsAgain_off {s : State} (off : s.counting = false) (c onset : Nat) : tagsAgain s c onset = s := by
  unfold tagsAgain
  rw [off]
  rfl

/-- An episode that ends in the running cycle. -/
theorem clampEnd_due {s : State} {pin t : Nat} (on : (s.pin pin).from_ = some t) (due : (s.pin pin).last + 1250 < s.nextBoundary) : clampEnd s pin =
    clampCount ((s.putNow (max s.now ((s.pin pin).last + 1250))).updPin pin
      (fun x => { x with from_ := none, ivs := (t, x.last) :: x.ivs })) pin := by
  have late : min ((s.pin pin).last + 1250) (s.nextBoundary - 1) = (s.pin pin).last + 1250 := by omega
  unfold clampEnd
  simp only [on, State.due, due, decide_true, Bool.not_true, Bool.false_eq_true, if_false, State.advanceTo_eq, late]

/-- Settles O22: outside an episode a conduction begins one at once, and an episode that ends in the running cycle ends 1,250 ticks after its
last conduction or, where that has passed, now. -/
theorem clampEpisodes : Obligations.ClampEpisodes := by
  intro s pin lines
  obtain ⟨spare, apart⟩ := key_clamp _ pin.isLt
  refine ⟨fun onset last idle => ?_, fun t m on due at_ => ?_⟩
  · intro u
    have run : exec (.clampConduction pin onset last) s = answer s (tagsAgain u (pin.val / 2) onset) :=
      congrArg (answer s) (clampConduct_idle idle onset last)
    refine ⟨fun off => ?_, run⟩
    have off' : u.counting = false := (counting_set s apart _).trans off
    rw [tagsAgain_off off'] at run
    exact answers_of run (lines.steady.set spare)
  · intro u
    have ends : clampEnd s pin.val = u.countNote 0x01 0xFF pin.val 0 (u.get F.EXC_ROUTEp_CLAMP_CNT pin.val) := by
      rw [clampEnd_due on due, ← at_]
      rfl
    refine ⟨rfl, ends, fun still => ?_⟩
    have now : timed (clampEnd · pin.val) s = clampEnd s pin.val := by
      unfold timed
      exact if_pos (by show (clampEnd s pin.val).now = s.now ∨ _; rw [ends]; exact still)
    have run : exec (.clampEpisodeEnd pin) s = answer s (u.countNote 0x01 0xFF pin.val 0 (u.get F.EXC_ROUTEp_CLAMP_CNT pin.val)) :=
      (congrArg (answer s) now).trans (congrArg (answer s) ends)
    exact ⟨run, answers_of run⟩

/-! ### The carrier of a BLIND point (R429) -/

theorem carrierGone_blind {s : State} {p : Nat} (blind : (s.point p).blind = true) (used : excMode s p ≠ mOff) (t : Nat) :
    carrierGone s p t = s.updPoint p (fun q => { q with noCarrier := some (q.noCarrier.getD t) }) := by
  unfold carrierGone
  rw [if_neg used]
  simp only [enterBlind_blind blind, blind, if_true]

/-- Settles O23: at a point that is BLIND already nothing enters BLIND anew, so the loss and the return only mark it. -/
theorem carrierLossAndReturn : Obligations.CarrierLossAndReturn := by
  intro s sp onset lines counting blind used
  refine ⟨fun listens => answers_of (congrArg (answer s) ?_) (lines.steady.updPoint _ _),
    fun gone => answers_of (congrArg (answer s) ?_) (lines.steady.updPoint _ _)⟩
  · unfold carrierLoss
    rw [if_neg (by simp [listens, counting]), carrierGone_blind blind used]
  · unfold carrierReturn carrierBack
    rw [if_pos ⟨gone, counting⟩, if_neg fun h => used h.1, enterBlind_blind blind]
    rfl

end Sys2Proof.Machine
end

section
/-!
SUPPORT. What the events of a sensor point, and its becoming BLIND, leave alone at the other points and at every channel.
-/

namespace Sys2Proof.Machine

/-- A part without what its point `q` holds. -/
def Part.beside (a : Part) (q : Nat) : Part := { a with points := upd a.points q (fun _ => default) }

theorem beside_updPoint (s : State) (q : Nat) (g : Point → Point) : (s.updPoint q g).part.beside q = s.part.beside q := by
  have last : upd (upd s.points q g) q (fun _ => default) = upd s.points q (fun _ => default) := List.modify_modify_eq g _ q s.points
  exact congrArg (fun l => { s.part with points := l }) last

theorem beside_if {c : Prop} [Decidable c] (t u : State) (q : Nat) :
    (if c then t else u).part.beside q = if c then t.part.beside q else u.part.beside q :=
  apply_ite (fun s : State => s.part.beside q) c t u

/-- Another point reads the same. -/
theorem point_of_beside {s t : State} {p q : Nat} (h : t.part.beside q = s.part.beside q) (ne : q ≠ p) : t.point p = s.point p := by
  have at_ (u : State) : nth (u.part.beside q).points p = u.point p := nth_upd_ne u.points ne _
  rw [← at_, ← at_, h]

theorem chans_of_beside {s t : State} {q : Nat} (h : t.part.beside q = s.part.beside q) : t.chans = s.chans := congrArg Part.chans h

theorem beside_pointLeaveLull (s : State) (q : Nat) : (pointLeaveLull s q).part.beside q = s.part.beside q := by
  have secs (t : State) : (forEach (secsOnPoint t q) t secLeaveLull).part = t.part :=
    forEach_keeps State.part (fun u n _ => part_secLeaveLull u n) t
  unfold pointLeaveLull
  simp (disch := decide) only [beside_if, secs, part_write, beside_updPoint, ite_self]

theorem beside_dropEarly (s : State) (q : Nat) : (dropEarly s q).part.beside q = s.part.beside q := by
  unfold dropEarly
  rw [part_syncEarly, beside_updPoint]

theorem beside_emit (s : State) (q : Nat) (i : EvInfo) (ts : Nat) (lat : List (Nat × Int)) :
    (emit s q i ts lat).part.beside q = s.part.beside q := by
  unfold emit
  extract_lets t bytes u fault v
  have queued : u.part = s.part := by simp (disch := decide) only [u, t, part_if, part_write, part_gust, ite_self]
  have counted : v.part = s.part := by
    unfold v
    split <;> simp (disch := decide) only [fault, part_if, part_write, part_journal, queued, ite_self]
  split
  · rw [beside_updPoint, counted]
  · rw [beside_pointLeaveLull, counted]

theorem beside_passage (s : State) (q : Nat) (neg : Bool) : (passage s q neg).part.beside q = s.part.beside q := by
  unfold passage
  extract_lets pt ts lat t serial u tn d1 d2 v vt ca cb sin centre tc fix moves w w1 w2 w3 host station da
  split
  next g part _ =>
  extract_lets w4
  have told : u.part.beside q = s.part.beside q :=
    (congrArg (Part.beside · q) (part_set t (by decide) _ _)).trans (beside_emit s q _ _ _)
  have counted : w.part.beside q = s.part.beside q := by
    unfold w
    split
    · rw [part_bcwCount, part_ledgerSweeps, beside_dropEarly, part_countPassage, told]
    · rw [beside_dropEarly, told]
  have entered : w4.part = w.part := by
    simp only [w4, w3, w2, w1, part_if, part_ledgerPassage, part_unitsPassage, part_boundOfPassage, part_driftAt, ite_self]
  unfold keepRaw
  rw [beside_updPoint, entered, counted]

theorem beside_abandon (s : State) (q : Nat) : (abandon s q).part.beside q = s.part.beside q := by
  unfold abandon setSeq
  rw [beside_updPoint, beside_dropEarly]
  split
  · exact beside_passage s q _
  · exact beside_passage s q _
  · rfl

/-- A point that becomes BLIND leaves the other points as they are. -/
theorem point_enterBlind_ne (s : State) {p q : Nat} (ne : q ≠ p) (cause : Cause) : (enterBlind s q cause).point p = s.point p := by
  cases seen : (s.point q).blind with
  | true => rw [enterBlind_blind seen]
  | false =>
    have left : (if usable s q then abandon s q else s).part.beside q = s.part.beside q := by rw [beside_if, beside_abandon, ite_self]
    refine (congrArg (fun a : Part => nth a.points p) (part_enterBlind seen cause)).trans ?_
    exact (nth_upd_ne _ ne _).trans (point_of_beside left ne)

end Sys2Proof.Machine
end

section
/-!
PROOFS. The phase inversion (R51): points are inverted one after the other, so a hold that one of them ends takes sections out of Lull
before the exception of R30 is judged at the next. Settles O17.
-/

namespace Sys2Proof.Machine

/-! ### The exception of a BLIND point outlasts the settling of a command -/

/-- Whether a point is BLIND, and under the exception of R30. -/
abbrev Point.exempted (q : Point) : Bool × Bool := (q.blind, q.blindExc)

theorem exempted_updPoint (s : State) (n p : Nat) {g : Point → Point} (h : ∀ q, (g q).exempted = q.exempted) :
    ((s.updPoint n g).point p).exempted = (s.point p).exempted := by
  have at_ (u : State) : nth (u.points.map Point.exempted) p = (u.point p).exempted := nth_map Point.exempted u.points p rfl
  rw [← at_, ← at_]
  exact congrArg (nth · p) (map_upd Point.exempted s.points n h)

theorem exempted_enterBlind {s : State} {p : Nat} (blind : (s.point p).blind = true) (q : Nat) (cause : Cause) :
    ((enterBlind s q cause).point p).exempted = (s.point p).exempted := by
  by_cases e : q = p
  · rw [e, enterBlind_blind blind]
  · rw [point_enterBlind_ne s e cause]

theorem exempted_carrierGone {s : State} {p : Nat} (blind : (s.point p).blind = true) (q t : Nat) :
    ((carrierGone s q t).point p).exempted = (s.point p).exempted := by
  unfold carrierGone
  split
  · rfl
  · refine (exempted_updPoint (enterBlind s q (carrierCause s)) q p ?_).trans (exempted_enterBlind blind q _)
    exact fun _ => rfl

theorem exempted_carrierBack {s : State} {p : Nat} (blind : (s.point p).blind = true) (q t : Nat) :
    ((carrierBack s q t).point p).exempted = (s.point p).exempted := by
  unfold carrierBack
  split
  · rfl
  · refine (exempted_updPoint (enterBlind s q (carrierCause s)) q p ?_).trans (exempted_enterBlind blind q _)
    exact fun _ => rfl

theorem exempted_syncDrive {s : State} {p : Nat} {e : Bool} (h : (s.point p).exempted = (true, e)) :
    ((syncDrive s).point p).exempted = (true, e) := by
  have blind {t : State} (h : (t.point p).exempted = (true, e)) : (t.point p).blind = true := congrArg Prod.fst h
  unfold syncDrive
  extract_lets on t
  split
  · exact h
  · split
    · exact forEach_holds (P := fun t => (t.point p).exempted = (true, e)) (fun u q hu => (exempted_carrierBack (blind hu) q _).trans hu) _ h
    · exact forEach_holds (P := fun t => (t.point p).exempted = (true, e)) (fun u q hu => (exempted_carrierGone (blind hu) q _).trans hu) _ h

theorem settled_points (s u : State) : (settled s u).points = (settle u).points := by
  rw [settled_eq]
  generalize settle u = w
  obtain ⟨l, h, -⟩ := putLines_eq w
  rw [h]
  rfl

/-- Settling leaves a BLIND point's exception as it was judged. -/
theorem exempted_settled (s : State) {u : State} {p : Nat} {e : Bool} (h : (u.point p).exempted = (true, e)) :
    ((settled s u).point p).exempted = (true, e) := by
  have same {v w : State} (k : Keeps v w) : (w.point p).exempted = (v.point p).exempted :=
    k.reads (fun x => (x.point p).exempted) fun _ => rfl
  have rest (v : State) : Keeps v (outStep (fabSettle (canSync v))) :=
    ((keeps_canSync v).trans (keeps_fabSettle _)).trans (keeps_outStep _)
  unfold State.point
  rw [settled_points]
  exact (same (rest _)).trans (exempted_syncDrive ((same (keeps_sampleInputs u)).trans h))

/-! ### The counterexample -/

/-- The boundary of cycle 500 in an OPERATIONAL unit: counting points 0 and 1, at the ALTERNATING points 0 and 1, bound section 0, which
is in Lull; a hold is pending at point 0, whose channels are off. -/
def holdBeside : State :=
  let s := { State.reset with regs := [], boot := { State.reset.boot with stage := 5 }, cycle := 500, now := 30000000 }
  let s := (s.set F.DEV_STATE_STATE 0 4).set F.DEV_STATE_ROLE 0 1
  let s := forN 2 s (fun s p => ((s.set F.EXC_CARRIER_SPn_MODE p mAlternating).set F.WEV_CPc_MAP_VALID p 1).set F.WEV_CPc_MAP_SP p p)
  let s := forN 2 s (fun s k => (s.set (F.SECT_n_BND_VALID.offB (8 * k)) 0 1).set (F.SECT_n_BND_CP.offB (8 * k)) 0 k)
  let s := s.set F.SECT_n_STATE_LULL 0 1
  let s := (s.updChan 0 (fun c => { c with peak := 1 })).updChan 1 (fun c => { c with peak := 1 })
  let s := s.updPoint 0 (fun x => { x with seq := .holdP, lull := true, on2 := 1000, off2 := 1000 })
  s.putLines (computeLines s)

theorem holdBeside_meets : LinesFollow holdBeside ∧ holdBeside.counting = true ∧ atBoundary holdBeside = true ∧ holdBeside.cycle % 500 = 0
    ∧ holdBeside.points.length = 24 ∧ holdBeside.chans.length = 48
    ∧ ∀ p, p < 24 → excMode holdBeside p = mAlternating → (holdBeside.point p).altSince ≠ holdBeside.now := by
  unfold LinesFollow
  decide +kernel

/-- Point 1 meets the exception of R30 before the command. -/
theorem holdBeside_exempt : excMode holdBeside 1 = mAlternating ∧ (holdBeside.point 1).blind = false ∧ blindExempt holdBeside 1 = true := by
  decide +kernel

/-- The passage that completes at point 0 has taken section 0 out of Lull when point 1 is judged. -/
theorem holdBeside_judged : ((altInvert holdBeside).point 1).exempted = (true, false) := by decide +kernel

/-- Refutes O17: the exception of R30 is judged at each point after the points before it have been inverted, and a hold that one of these
ends takes the sections that it shares with the next out of Lull (R187). -/
theorem not_phaseInversionBlindsPoint : ¬Obligations.PhaseInversionBlindsPoint := by
  rintro ⟨-, all⟩
  obtain ⟨lines, counting, at_, multiple, pts, chs, before⟩ := holdBeside_meets
  obtain ⟨mode, seen, exempt⟩ := holdBeside_exempt
  obtain ⟨u, run, points, -⟩ := all holdBeside lines counting at_ multiple pts chs before
  obtain ⟨-, -, -, -, becomes⟩ := (points 1 (by decide)).1 mode
  have entered := becomes seen
  have model : exec .altPhaseInversion holdBeside = .next (settled holdBeside (altInvert holdBeside)) := by
    show answer holdBeside (if atBoundary holdBeside && holdBeside.counting then altInvert holdBeside else holdBeside) = _
    rw [at_, counting]
    rfl
  have same : settled holdBeside u = settled holdBeside (altInvert holdBeside) := Host.Outcome.next.inj (run.symm.trans model)
  have claimed : ((settled holdBeside u).point 1).exempted = (true, true) :=
    exempted_settled _ (Prod.ext entered.blind (entered.exc.trans exempt))
  rw [same, exempted_settled _ holdBeside_judged] at claimed
  exact absurd claimed (by decide)

end Sys2Proof.Machine
end

section
/-!
SUPPORT. What the samples of a sensor point and its leaving BLIND leave alone outside the point: what drives the sources, the thresholds,
and every block of the state that no event of a point reaches.
-/

namespace Sys2Proof.Machine

/-- A state without the blocks that the events of a sensor point write: the registers and the memory, the points, the channels and the
sections, the fabric clock, the encoders, the boundary units, the compare units, the axles, the ledger and the Bamdon window. -/
def State.outer (s : State) : State :=
  { s with regs := [], mem := [], points := [], chans := [], secs := [], fab := default, encs := [], units := [], cmps := [], ests := [],
           ledger := default, bcw := default }

/-- The bit addresses that the conditions of R53 read, and those of the thresholds. -/
def driveKey (k : Nat) : Bool := drivesSource k || decide (0x40100 * 8 ≤ k ∧ k < 0x40200 * 8)

def State.drive (s : State) : State × (Nat → Nat) := (s.outer, s.seen driveKey)

theorem drive_set (s : State) {f : Fld} {i : Nat} (h : driveKey (f.key i) = false) (v : Nat) : (s.set f i v).drive = s.drive :=
  congrArg (Prod.mk s.outer) (seen_set s h v)

/-- What a write of a field that is none of them does. -/
theorem drive_write : (∀ (s : State) (f : Fld) (i v : Nat), driveKey (f.key i) = false → (s.set f i v).drive = s.drive)
    ∧ (∀ (s : State) (f : Fld) (i : Nat), driveKey (f.key i) = false → (s.raise f i).drive = s.drive)
    ∧ (∀ (s : State) (f : Fld) (i : Nat), driveKey (f.key i) = false → (s.lower f i).drive = s.drive)
    ∧ (∀ (s : State) (f : Fld) (i : Nat) (b : Bool), driveKey (f.key i) = false → (s.setFlag f i b).drive = s.drive)
    ∧ (∀ (s : State) (f : Fld) (i : Nat), driveKey (f.key i) = false → (s.bump f i).drive = s.drive)
    ∧ ∀ (s : State) (f : Fld) (i : Nat), driveKey (f.key i) = false → (s.bumpWrap f i).drive = s.drive :=
  ⟨fun s _ _ _ h => drive_set s h _, fun s _ _ h => drive_set s h _, fun s _ _ h => drive_set s h _, fun s _ _ _ h => drive_set s h _,
    fun s _ _ h => drive_set s h _, fun s _ _ h => drive_set s h _⟩

theorem drive_put : (∀ (s : State) (x : Fabric), (s.putFab x).drive = s.drive)
    ∧ (∀ (s : State) (a : Nat) (bs : List Byte), (s.putBytes a bs).drive = s.drive)
    ∧ (∀ (s : State) (n : Nat) (g : Sec → Sec), (s.updSec n g).drive = s.drive)
    ∧ (∀ (s : State) (n : Nat) (g : Point → Point), (s.updPoint n g).drive = s.drive)
    ∧ ∀ (s : State) (n : Nat) (g : Chan → Chan), (s.updChan n g).drive = s.drive :=
  ⟨fun _ _ => rfl, fun _ _ _ => rfl, fun _ _ _ => rfl, fun _ _ _ => rfl, fun _ _ _ => rfl⟩

theorem drive_if {c : Prop} [Decidable c] (t u : State) : (if c then t else u).drive = if c then t.drive else u.drive :=
  apply_ite State.drive c t u

/-! ### Journal and Gust queue -/

theorem drive_journal (s : State) (e : JEntry) : (s.journal e).drive = s.drive := by
  unfold State.journal State.journalPut clockKeep
  simp (disch := decide) only [drive_if, drive_write, drive_put, ite_self]

theorem drive_note (s : State) (a b c d e : Nat) : (s.note a b c d e).drive = s.drive := drive_journal s _

theorem drive_gust (s : State) (ts : Nat) (bs : List Byte) : (s.gust ts bs).drive = s.drive := by
  unfold State.gust State.gustDrop State.gustAppend State.gustLevel
  simp (disch := decide) only [drive_if, drive_write, drive_put, ite_self]

/-! ### Sections -/

theorem driveKey_section : ∀ n < 48, driveKey (F.SECT_n_STATE_SINGLE.key n) = false ∧ driveKey (F.SECT_n_STATE_LULL.key n) = false := by
  decide +kernel

theorem drive_endWatches (s : State) (f : Nat × Nat → Option Bool) : (endWatches s f).drive = s.drive := by
  unfold endWatches
  extract_lets t
  have all : t.drive = s.drive := forN_keeps State.drive (fun u n lt => by
    obtain ⟨single, -⟩ := driveKey_section n lt
    split
    · simp (disch := exact single) only [drive_put, drive_if, drive_write, ite_self]
    · rfl) s
  simp only [drive_if, drive_put, all, ite_self]

theorem drive_endSingleOf (s : State) (y : Nat) : (endSingleOf s y).drive = s.drive := drive_endWatches s _

theorem drive_reviewSingle (s : State) : (reviewSingle s).drive = s.drive := drive_endWatches s _

theorem drive_secLeaveLull (s : State) {n : Nat} (lt : n < 48) : (secLeaveLull s n).drive = s.drive := by
  obtain ⟨-, lull⟩ := driveKey_section n lt
  have off : driveKey (F.SPOS_STATUS_LULL_OFF.key 0) = false := by decide
  unfold secLeaveLull
  simp (disch := assumption) only [drive_if, drive_reviewSingle, drive_put, drive_write, ite_self]

/-! ### Speed and events of a point -/

theorem driveKey_point : ∀ p < 24, driveKey (F.SPOS_SPn_SST_SPD_ST.key p) = false ∧ driveKey (F.SPOS_SPn_SST_AGE.key p) = false
    ∧ driveKey (F.SPOS_SPn_SST_DIR.key p) = false ∧ driveKey (F.SPOS_SPn_SST_DIR_VALID.key p) = false
    ∧ driveKey (F.SPOS_SPn_SPEED_L_SPEED.key p) = false
    ∧ driveKey (({ F.SPOS_SPn_SPEED_L_SPEED with bit := F.SPOS_SPn_SPEED_L_SPEED.bit + 32, width := 8 } : Fld).key p) = false
    ∧ driveKey (F.SPOS_SPn_SST_LULL.key p) = false := by
  decide +kernel

theorem driveKey_counters : ∀ p < 24, driveKey (F.WEV_SPn_XCNT_SEQ_FAULT.key p) = false ∧ driveKey (F.WEV_SPn_XCNT_EDDY.key p) = false
    ∧ driveKey (F.WEV_SPn_XCNT_HOLD_CANCEL.key p) = false ∧ driveKey (F.WEV_SPn_XCNT_UNRESOLVED.key p) = false
    ∧ driveKey (F.WEV_SPn_PCNT_NEG.key p) = false ∧ driveKey (F.WEV_SPn_PCNT_POS.key p) = false := by
  decide +kernel

theorem drive_pointLeaveLull (s : State) {p : Nat} (lt : p < 24) : (pointLeaveLull s p).drive = s.drive := by
  obtain ⟨-, -, -, -, -, -, lull⟩ := driveKey_point p lt
  have secs (t : State) : (forEach (secsOnPoint t p) t secLeaveLull).drive = t.drive :=
    forEach_keeps State.drive (fun u n hn => drive_secLeaveLull u (List.mem_range.mp (List.mem_of_mem_filter hn))) t
  unfold pointLeaveLull
  simp (disch := exact lull) only [drive_if, secs, drive_write, drive_put, ite_self]

theorem drive_emit (s : State) {p : Nat} (lt : p < 24) (i : EvInfo) (ts : Nat) (lat : List (Nat × Int)) : (emit s p i ts lat).drive = s.drive := by
  obtain ⟨seqFault, eddy, cancel, unresolved, neg, pos⟩ := driveKey_counters p lt
  have serial : driveKey (F.WEV_STATUS_SERIAL.key 0) = false := by decide
  have fault : driveKey (F.WEV_STATUS_SEQ_FAULT.key 0) = false := by decide
  have park : driveKey (F.WEV_STATUS_PARK_NEW.key 0) = false := by decide
  unfold emit
  extract_lets t bytes u faulted v
  have queued : u.drive = s.drive := by simp (disch := exact serial) only [u, t, drive_if, drive_write, drive_gust, ite_self]
  have counted : v.drive = s.drive := by
    unfold v
    split <;> simp (disch := assumption) only [faulted, drive_if, drive_write, drive_journal, queued, ite_self]
  split
  · exact counted
  · exact (drive_pointLeaveLull v lt).trans counted

theorem drive_setSpd (s : State) {p : Nat} (lt : p < 24) (st : Nat) (v : Int) : (setSpd s p st v).drive = s.drive := by
  obtain ⟨status, age, -, -, speed, high, -⟩ := driveKey_point p lt
  unfold setSpd State.set40
  simp (disch := assumption) only [drive_write]

theorem drive_setDir (s : State) {p : Nat} (lt : p < 24) (neg valid force : Bool) : (setDir s p neg valid force).drive = s.drive := by
  obtain ⟨-, -, dir, ok, -⟩ := driveKey_point p lt
  have chg : driveKey (F.SPOS_STATUS_DIRCHG.key 0) = false := by decide
  unfold setDir
  simp (disch := assumption) only [drive_if, drive_write, ite_self]

theorem drive_spdReview (s : State) {p : Nat} (lt : p < 24) : (spdReview s p).drive = s.drive := by
  obtain ⟨-, -, dir, -⟩ := driveKey_point p lt
  have hard : (spdHard s p).1.drive = s.drive := by
    unfold spdHard
    extract_lets a b q v
    split_ifs <;> simp (disch := assumption) only [drive_write, drive_setDir, drive_setSpd]
  have rows : (spdRows s p).drive = s.drive := by
    unfold spdRows
    split
    next t b e =>
      rw [e] at hard
      simp (disch := exact lt) only [drive_if, drive_setDir, drive_setSpd, hard, ite_self]
  unfold spdReview
  simp only [drive_if, rows, ite_self]

/-! ### Samples of a point -/

theorem drive_setOn (s : State) (c : Nat) (on : Bool) (t : Nat) : (setOn s c on t).drive = s.drive := by
  unfold setOn
  simp only [drive_if, drive_endSingleOf, drive_put, ite_self]

theorem drive_adopt (s : State) (p : Nat) : (adopt s p).drive = s.drive := rfl

theorem drive_parkRecord (s : State) {c : Nat} (lt : c < 48) : (parkRecord s c).drive = s.drive := by
  have point : c / 2 < 24 := by omega
  unfold parkRecord rec0
  simp (disch := exact point) only [drive_if, drive_emit, drive_put, ite_self]

theorem drive_parkSample (s : State) {c : Nat} (lt : c < 48) (k : Nat) (l : Int) : (parkSample s c k l).drive = s.drive := by
  have point : c / 2 < 24 := by omega
  unfold parkSample rec0
  extract_lets p ch m sum n band need cnt newly step was t u
  split
  · rfl
  · simp (disch := exact point) only [step, u, t, p, drive_if, drive_emit, drive_put, ite_self]

theorem drive_keepSample (s : State) {c : Nat} (lt : c < 48) (k : Nat) (l : Int) : (keepSample s c k l).drive = s.drive := by
  unfold keepSample
  simp (disch := exact lt) only [drive_if, drive_parkSample, drive_put, ite_self]

theorem driveKey_channel : ∀ c < 48, driveKey (F.MEAS_CHn_CFG_B_VALID.key c) = false ∧ driveKey (F.MEAS_CHn_CFG_DRIFT.key c) = false := by
  decide +kernel

theorem drive_readySample (s : State) {c : Nat} (lt : c < 48) (x : Sample) : (readySample s c x).drive = s.drive := by
  obtain ⟨valid, drift⟩ := driveKey_channel c lt
  have any : driveKey (F.MEAS_STATUS_DRIFT.key 0) = false := by decide
  unfold readySample
  simp (disch := assumption) only [drive_if, drive_write, drive_note, drive_put, ite_self]

theorem drive_calSample (s : State) (c : Nat) (x : Sample) : (calSample s c x).drive = s.drive := by
  unfold calSample
  simp only [drive_if, drive_put, ite_self]

theorem drive_refSample (s : State) (c : Nat) (x : Sample) : (refSample s c x).drive = s.drive := by
  unfold refSample refFail syncRefBusy
  split
  · rfl
  · simp (disch := decide) only [drive_if, drive_write, drive_put, ite_self]

end Sys2Proof.Machine
end
section
/-!
PROOFS. A point leaves BLIND with the states that its samples show (R55, R128). Settles O19.
-/

namespace Sys2Proof.Machine

/-! ### What the samples of a point leave of its sequencer and of its channels' states -/

/-- What a point's leaving BLIND is judged by: whether it is BLIND, and under the exception of R30, and its sequencer. -/
abbrev Point.told (q : Point) : Bool × Bool × Seq × Entry := (q.blind, q.blindExc, q.seq, q.entry)

/-- The same of a channel: its state, whether it is FAULTY, its waiting samples, and whether its first valid one is still due. -/
abbrev Chan.told (c : Chan) : Bool × Bool × List Sample × Bool := (c.on, c.faulty, c.queue, c.firstDue)

def Part.told (a : Part) : List (Bool × Bool × Seq × Entry) × List (Bool × Bool × List Sample × Bool) :=
  (a.points.map Point.told, a.chans.map Chan.told)

theorem point_told {s t : State} (h : t.part.told = s.part.told) (p : Nat) : (t.point p).told = (s.point p).told := by
  have at_ (u : State) : nth u.part.told.1 p = (u.point p).told := nth_map Point.told u.points p rfl
  rw [← at_, ← at_, h]

theorem chan_told {s t : State} (h : t.part.told = s.part.told) (c : Nat) : (t.chan c).told = (s.chan c).told := by
  have at_ (u : State) : nth u.part.told.2 c = (u.chan c).told := nth_map Chan.told u.chans c rfl
  rw [← at_, ← at_, h]

theorem told_updPoint (s : State) (n : Nat) {g : Point → Point} (h : ∀ q, (g q).told = q.told) : (s.updPoint n g).part.told = s.part.told :=
  congrArg (·, s.chans.map Chan.told) (map_upd Point.told s.points n h)

theorem told_updChan (s : State) (n : Nat) {g : Chan → Chan} (h : ∀ c, (g c).told = c.told) : (s.updChan n g).part.told = s.part.told :=
  congrArg (s.points.map Point.told, ·) (map_upd Chan.told s.chans n h)

theorem told_if {c : Prop} [Decidable c] (t u : State) : (if c then t else u).part.told = if c then t.part.told else u.part.told :=
  apply_ite (fun s : State => s.part.told) c t u

theorem told_pointLeaveLull (s : State) (p : Nat) : (pointLeaveLull s p).part.told = s.part.told := by
  have secs (t : State) : (forEach (secsOnPoint t p) t secLeaveLull).part = t.part :=
    forEach_keeps State.part (fun u n _ => part_secLeaveLull u n) t
  unfold pointLeaveLull
  extract_lets t u v
  have quiet : t.part.told = s.part.told := told_updPoint s p fun _ => rfl
  have out : v.part = u.part := part_set u (by decide) _ _
  have left : u.part.told = t.part.told := told_updPoint t p fun _ => rfl
  rw [told_if, secs, out, left, quiet, ite_self]

theorem told_emit (s : State) (p : Nat) (i : EvInfo) (ts : Nat) (lat : List (Nat × Int)) : (emit s p i ts lat).part.told = s.part.told := by
  unfold emit
  extract_lets t bytes u fault v
  have queued : u.part = s.part := by simp (disch := decide) only [u, t, part_if, part_write, part_gust, ite_self]
  have counted : v.part = s.part := by
    unfold v
    split <;> simp (disch := decide) only [fault, part_if, part_write, part_journal, queued, ite_self]
  split
  · refine Eq.trans (told_updPoint v p fun _ => rfl) (congrArg Part.told counted)
  · rw [told_pointLeaveLull, counted]

theorem told_rec0 (s : State) (p : Nat) (k : EvKind) (sys : Bool) (ts : Nat) : (rec0 s p k sys ts).part.told = s.part.told :=
  told_emit s p _ _ _

theorem told_parkRecord (s : State) (c : Nat) : (parkRecord s c).part.told = s.part.told := by
  unfold parkRecord
  simp (disch := exact fun _ => rfl) only [told_if, told_rec0, told_updPoint, told_updChan, ite_self]

theorem told_keepSample (s : State) (c k : Nat) (l : Int) : (keepSample s c k l).part.told = s.part.told := by
  have parked (s : State) : (parkSample s c k l).part.told = s.part.told := by
    unfold parkSample
    extract_lets p ch m sum n band need cnt newly step was t u
    split
    · exact told_updChan s c fun _ => rfl
    · simp (disch := exact fun _ => rfl) only [step, u, t, told_if, told_rec0, told_updPoint, told_updChan, ite_self]
  unfold keepSample
  simp (disch := exact fun _ => rfl) only [told_if, parked, told_updChan, ite_self]

theorem told_readySample (s : State) (c : Nat) (x : Sample) : (readySample s c x).part.told = s.part.told := by
  unfold readySample
  simp (disch := decide) only [part_if, part_write, part_note, ite_self]
  exact told_updChan s c fun _ => rfl

theorem told_calSample (s : State) (c : Nat) (x : Sample) : (calSample s c x).part.told = s.part.told := by
  unfold calSample
  extract_lets p inv st
  split
  · rfl
  · split
    · simp (disch := exact fun _ => rfl) only [told_if, told_updChan, ite_self]
    · split
      · rfl
      · refine told_updChan s c fun ch => ?_
        extract_lets mixed own
        split_ifs <;> rfl

theorem told_refSample (s : State) (c : Nat) (x : Sample) : (refSample s c x).part.told = s.part.told := by
  have failed : (refFail s c).part.told = s.part.told := by
    unfold refFail syncRefBusy
    simp (disch := decide) only [part_write]
    exact told_updChan s c fun _ => rfl
  unfold refSample
  split
  · rfl
  · simp (disch := exact fun _ => rfl) only [told_if, failed, told_updChan, ite_self]

/-- With no first valid sample due a sample changes none of it, nor what drives the sources. -/
theorem firstValid_due {s : State} {c : Nat} (due : (s.chan c).firstDue = false) (l : Int) : firstValid s c l = s := by
  unfold firstValid
  rw [due]
  rfl

theorem sampleDone_keeps {s : State} {c : Nat} (lt : c < 48) (due : (s.chan c).firstDue = false) (x : Sample) :
    (sampleDone s c x).part.told = s.part.told ∧ (sampleDone s c x).drive = s.drive := by
  unfold sampleDone
  extract_lets t idle low u w
  have begun : t.part.told = s.part.told ∧ t.drive = s.drive :=
    ⟨(told_calSample _ c x).trans (told_refSample s c x), (drive_calSample _ c x).trans (drive_refSample s c x)⟩
  split
  · exact ⟨Eq.trans (told_updChan t c fun _ => rfl) begun.1, begun.2⟩
  · have pre : u.part.told = t.part.told := told_updChan t c fun ch => by
      cases idle <;> rfl
    have kept : (keepSample u c x.k x.l).part.told = s.part.told := (told_keepSample u c _ _).trans (pre.trans begun.1)
    have steady : (keepSample u c x.k x.l).drive = s.drive := (drive_keepSample u lt _ _).trans begun.2
    have none_ : ((keepSample u c x.k x.l).chan c).firstDue = false :=
      (congrArg (fun v : Bool × Bool × List Sample × Bool => v.2.2.2) (chan_told kept c)).trans due
    have same : w = keepSample u c x.k x.l := firstValid_due none_ x.l
    rw [told_if, drive_if, told_readySample, drive_readySample _ lt, same, kept, steady, ite_self, ite_self]
    exact ⟨rfl, rfl⟩

/-! ### Thresholds and what drives the sources -/

/-- The thresholds of a channel lie among the fields of `driveKey`. -/
theorem driveKey_threshold : ∀ c < 48, driveKey (F.WEV_CHn_THR_ON_THR.key c) = true ∧ driveKey (F.WEV_CHn_THR_OFF_THR.key c) = true := by
  decide +kernel

theorem thresholds_of_drive {s t : State} (h : t.drive = s.drive) {c : Nat} (lt : c < 48) : onThr t c = onThr s c ∧ offThr t c = offThr s c := by
  have seen : t.seen driveKey = s.seen driveKey := congrArg Prod.snd h
  obtain ⟨on, off⟩ := driveKey_threshold c lt
  unfold onThr offThr
  rw [get_of_seen seen on, get_of_seen seen off]
  exact ⟨rfl, rfl⟩

theorem outer_reads {s t : State} (h : t.outer = s.outer) :
    t.lines = s.lines ∧ t.now = s.now ∧ t.ext = s.ext ∧ t.spu = s.spu ∧ t.boot = s.boot := by
  have read {α : Type} (f : State → α) : f t.outer = f s.outer := congrArg f h
  exact ⟨read State.lines, read State.now, read State.ext, read State.spu, read State.boot⟩

theorem steady_of_drive {s t : State} (lines : LinesFollow s) (h : t.drive = s.drive) : DriveSteady t := by
  have seen : t.seen driveKey = s.seen driveKey := congrArg Prod.snd h
  obtain ⟨same, now, ext, spu, boot⟩ := outer_reads (congrArg Prod.fst h)
  refine DriveSteady.of_eq lines same ?_
  unfold srcMay intlkActive trainRuns State.role State.dev
  rw [now, ext, spu, boot, get_of_seen seen (by decide : driveKey (F.DEV_STATE_ROLE.key 0) = true),
    get_of_seen seen (by decide : driveKey (F.DEV_STATE_STATE.key 0) = true), flag_of_seen seen (by decide : driveKey (F.SPU_STATUS_HALTED.key 0) = true),
    flag_of_seen seen (by decide : driveKey (F.URED_STATE_LINK_UP.key 0) = true)]

/-! ### A channel's state judged by its sample -/

/-- The state of a channel after a sample: a tagged one tells nothing, a valid one is judged against the state that held. -/
def onAfter (s : State) (c : Nat) (x : Sample) : Bool :=
  if x.tag = 0 then decide ((if (s.chan c).on then offThr s c else onThr s c) ≤ x.l) else (s.chan c).on

/-- What a point's leaving BLIND does first with the sample of a channel. -/
def judge (s : State) (c : Nat) (x : Sample) : State :=
  if x.tag ≠ 0 then s
  else match crossing s c x.k x.l with | some y => setOn s c y.1 y.2 | none => s

/-- An untagged sample shows a crossing where it takes the channel to another state. -/
theorem crossing_state (s : State) (c k : Nat) (l : Int) : (crossing s c k l).map Prod.fst
    = if decide ((if (s.chan c).on then offThr s c else onThr s c) ≤ l) = (s.chan c).on then none else some !(s.chan c).on := by
  unfold crossing crossingFrom
  cases (s.chan c).on with
  | true => by_cases h : offThr s c ≤ l <;> simp [h]
  | false => by_cases h : onThr s c ≤ l <;> simp [h]

theorem drive_judge (s : State) (c : Nat) (x : Sample) : (judge s c x).drive = s.drive := by
  unfold judge
  split
  · rfl
  · split
    · exact drive_setOn s c _ _
    · rfl

/-- A change at one channel that shows there as another does. -/
theorem upd_map_congr {α β : Type} [Inhabited α] (h : α → β) (l : List α) (n : Nat) {f g : α → α} (eq : h (f (nth l n)) = h (g (nth l n))) :
    (upd l n f).map h = (upd l n g).map h := by
  unfold upd
  refine List.ext_getElem (by simp) fun i lt _ => ?_
  simp only [List.getElem_map, List.getElem_modify]
  split
  next e =>
    have at_ : nth l n = l[i]'(by simpa using lt) := by subst e; exact List.getD_eq_getElem _ _ (by simpa using lt)
    rw [← at_, eq]
  next => rfl

theorem told_judge (s : State) (c : Nat) (x : Sample) :
    (judge s c x).part.told = (s.updChan c (fun ch => { ch with on := onAfter s c x })).part.told := by
  have at_ {f g : Chan → Chan} (eq : (f (s.chan c)).told = (g (s.chan c)).told) : (s.updChan c f).part.told = (s.updChan c g).part.told :=
    congrArg (s.points.map Point.told, ·) (upd_map_congr Chan.told s.chans c eq)
  have same : (s.updChan c fun ch => ch).part.told = s.part.told := told_updChan s c fun _ => rfl
  have kept (e : onAfter s c x = (s.chan c).on) :
      s.part.told = (s.updChan c (fun ch => { ch with on := onAfter s c x })).part.told := by
    rw [← same]
    exact at_ (by rw [e])
  have moved (v : Bool) (t : Nat) : (setOn s c v t).part.told = (s.updChan c (fun ch => { ch with on := v })).part.told := by
    unfold setOn
    cases v with
    | true => rw [if_pos rfl, part_endSingleOf]; exact at_ rfl
    | false => exact at_ rfl
  have shown := crossing_state s c x.k x.l
  unfold judge
  split
  next tagged => exact kept (if_neg tagged)
  next valid =>
    have after : onAfter s c x = decide ((if (s.chan c).on then offThr s c else onThr s c) ≤ x.l) := if_pos (not_not.mp valid)
    rw [← after] at shown
    split
    next y e =>
      rw [e] at shown
      rw [moved]
      refine congrArg (fun v => (s.updChan c (fun ch => { ch with on := v })).part.told) ?_
      by_cases eq : onAfter s c x = (s.chan c).on
      · rw [if_pos eq] at shown; exact absurd shown (by simp)
      · rw [if_neg eq] at shown
        rw [Option.some.inj shown]
        exact (Bool.eq_not.mpr eq).symm
    next e =>
      rw [e] at shown
      refine kept (Decidable.byContradiction fun ne => ?_)
      rw [if_neg ne] at shown
      exact absurd shown (by simp)

/-! ### The next sample of a channel -/

/-- What a point's leaving BLIND does with the next sample of a channel. -/
def takeNext (s : State) (c : Nat) : State :=
  match (s.chan c).queue with
  | x :: xs => sampleDone (s.updChan c (fun ch => { ch with queue := xs })) c x
  | [] => let x := nextSample (s.chan c); if x.tag = 0 then keepSample s c x.k x.l else s

theorem takeNext_keeps {s : State} {c : Nat} (lt : c < 48) (len : s.chans.length = 48) (due : (s.chan c).firstDue = false) :
    (takeNext s c).part.told = (s.updChan c (fun ch => { ch with queue := ch.queue.tail })).part.told ∧ (takeNext s c).drive = s.drive := by
  unfold takeNext
  split
  next x xs e =>
    have still : ((s.updChan c (fun ch => { ch with queue := xs })).chan c).firstDue = false := by
      rw [chan_updChan (len ▸ lt)]; exact due
    obtain ⟨told, drive⟩ := sampleDone_keeps lt still x
    refine ⟨told.trans ?_, drive⟩
    refine congrArg (s.points.map Point.told, ·) (upd_map_congr Chan.told s.chans c ?_)
    have tail : xs = (nth s.chans c).queue.tail := by rw [show (nth s.chans c).queue = x :: xs from e]; rfl
    rw [tail]
  next e =>
    have none_ : s.part.told = (s.updChan c (fun ch => { ch with queue := ch.queue.tail })).part.told := by
      rw [← told_updChan s c (g := fun ch => ch) fun _ => rfl]
      refine congrArg (s.points.map Point.told, ·) (upd_map_congr Chan.told s.chans c ?_)
      show (s.chan c).told = _
      unfold Chan.told
      rw [show (nth s.chans c).queue = [] from e]
      exact congrArg (fun q => ((s.chan c).on, (s.chan c).faulty, q, (s.chan c).firstDue)) e
    extract_lets x
    rw [told_if, drive_if, told_keepSample, drive_keepSample s lt, ite_self, ite_self]
    exact ⟨none_, rfl⟩

/-! ### Leaving BLIND -/

/-- The state of the sequencer that two channels' states imply (R128). -/
def impliedSeq (a b : Bool) : Seq × Entry :=
  match a, b with
  | true, true => (.ab, .unknown)
  | true, false => (.aIn, .unknown)
  | false, true => (.bIn, .unknown)
  | false, false => (.idle, .none)

/-- What a point and its two channels show of it. -/
structure Shown (s : State) (p : Nat) (point : Bool × Bool × Seq × Entry) (a b : Bool × Bool × List Sample × Bool) : Prop where
  pts : s.points.length = 24
  chs : s.chans.length = 48
  at_ : (s.point p).told = point
  own : (s.chan (2 * p)).told = a
  other : (s.chan (2 * p + 1)).told = b

section
variable {s t : State} {p : Nat} {q : Bool × Bool × Seq × Entry} {a b : Bool × Bool × List Sample × Bool}

theorem Shown.of_told (k : Shown s p q a b) (h : t.part.told = s.part.told) : Shown t p q a b := by
  have pts : t.part.told.1.length = s.part.told.1.length := by rw [h]
  have chs : t.part.told.2.length = s.part.told.2.length := by rw [h]
  simp only [Part.told, List.length_map] at pts chs
  exact ⟨pts.trans k.pts, chs.trans k.chs, (point_told h p).trans k.at_, (chan_told h _).trans k.own, (chan_told h _).trans k.other⟩

theorem Shown.states (k : Shown s p q a b) : (s.chan (2 * p)).on = a.1 ∧ (s.chan (2 * p + 1)).on = b.1 :=
  ⟨congrArg Prod.fst k.own, congrArg Prod.fst k.other⟩

theorem Shown.updPoint (k : Shown s p q a b) (lt : p < 24) (g : Point → Point) : Shown (s.updPoint p g) p (g (s.point p)).told a b :=
  ⟨(List.length_modify _ _ _).trans k.pts, k.chs, congrArg Point.told (point_updPoint (k.pts.symm ▸ lt) g), k.own, k.other⟩

theorem Shown.updOwn (k : Shown s p q a b) (lt : p < 24) (g : Chan → Chan) :
    Shown (s.updChan (2 * p) g) p q (g (s.chan (2 * p))).told b := by
  have below : 2 * p < s.chans.length := by have := k.chs; omega
  refine ⟨k.pts, (List.length_modify _ _ _).trans k.chs, k.at_, congrArg Chan.told (chan_updChan below g), ?_⟩
  rw [chan_updChan_ne _ (by omega : 2 * p ≠ 2 * p + 1)]
  exact k.other

theorem Shown.updOther (k : Shown s p q a b) (lt : p < 24) (g : Chan → Chan) :
    Shown (s.updChan (2 * p + 1) g) p q a (g (s.chan (2 * p + 1))).told := by
  have below : 2 * p + 1 < s.chans.length := by have := k.chs; omega
  refine ⟨k.pts, (List.length_modify _ _ _).trans k.chs, k.at_, ?_, congrArg Chan.told (chan_updChan below g)⟩
  rw [chan_updChan_ne _ (by omega : 2 * p + 1 ≠ 2 * p)]
  exact k.own

end

theorem shown_adopt {s : State} {p : Nat} {q : Bool × Bool × Seq × Entry} {a b : Bool × Bool × List Sample × Bool} (k : Shown s p q a b)
    (lt : p < 24) : Shown (adopt s p) p (q.1, q.2.1, impliedSeq a.1 b.1) a b := by
  unfold adopt setSeq
  extract_lets a' b' q' own u v
  have chans : u.part.told = s.part.told :=
    Eq.trans (told_updChan _ (2 * p + 1) fun _ => rfl) (told_updChan s (2 * p) fun _ => rfl)
  have begun : Shown v p q a b := (k.of_told chans).of_told (told_updPoint u p fun _ => rfl)
  have entered := begun.updPoint lt (fun x => { x with seq := q', entry := if a' || b' then .unknown else .none })
  have implied : (q', if a' || b' then Entry.unknown else Entry.none) = impliedSeq a' b' := by
    unfold q'
    cases a' <;> cases b' <;> rfl
  have ha : a' = a.1 := congrArg Prod.fst k.own
  have hb : b' = b.1 := congrArg Prod.fst k.other
  rw [← ha, ← hb, ← implied, ← begun.at_]
  exact entered

/-- A point's leaving BLIND, without what it reports of it: BLIND no longer, no first valid sample due. -/
def unblind (s : State) (p : Nat) : State :=
  ((s.updPoint p (fun q => { q with blind := false, blindEnd := s.now, blindExc := false, quietSince := s.now })).updChan (2 * p)
    (fun c => { c with firstDue := false })).updChan (2 * p + 1) (fun c => { c with firstDue := false })

theorem leaveBlind_plain {s : State} {p : Nat} (exc : (s.point p).blindExc = false) (la lb : Option Int) (cause : Cause) :
    leaveBlind s p la lb cause =
      (let u := (unblind s p).note 0 0x04 0xFF p (pointWord (unblind s p) p)
      spdReview (reviewSingle (if usable u p then adopt u p else u)) p) := by
  unfold leaveBlind unblind
  extract_lets ha hb e left offA offB told settled
  have off : e = false := exc
  clear_value e
  subst off
  exact if_neg (by simp)

section
variable {s : State} {p : Nat} {blind onA onB : Bool} {sq : Seq × Entry} {qa qb : List Sample} {da db : Bool}

theorem shown_unblind (k : Shown s p (blind, false, sq) (onA, false, qa, da) (onB, false, qb, db)) (lt : p < 24) :
    Shown (unblind s p) p (false, false, sq) (onA, false, qa, false) (onB, false, qb, false) := by
  have first := (k.updPoint lt (fun q => { q with blind := false, blindEnd := s.now, blindExc := false, quietSince := s.now })).updOwn lt
    (fun c => { c with firstDue := false })
  have left := first.updOther lt (fun c => { c with firstDue := false })
  refine ⟨left.pts, left.chs, left.at_.trans ?_, left.own.trans ?_, left.other.trans ?_⟩
  · exact congrArg (fun v => (false, false, v)) (congrArg (·.2.2) k.at_)
  · exact congrArg (fun v : Bool × Bool × List Sample × Bool => (v.1, v.2.1, v.2.2.1, false)) k.own
  · exact congrArg (fun v : Bool × Bool × List Sample × Bool => (v.1, v.2.1, v.2.2.1, false)) first.other

/-- A point that is not under the exception of R30 leaves BLIND with its channels as they are, and its sequencer follows them. -/
theorem shown_leaveBlind (k : Shown s p (blind, false, sq) (onA, false, qa, da) (onB, false, qb, db)) (lt : p < 24) (la lb : Option Int)
    (cause : Cause) : (leaveBlind s p la lb cause).drive = s.drive
      ∧ Shown (leaveBlind s p la lb cause) p (false, false, impliedSeq onA onB) (onA, false, qa, false) (onB, false, qb, false) := by
  rw [leaveBlind_plain (congrArg (·.2.1) k.at_)]
  extract_lets u
  have noted : u.part = (unblind s p).part := part_note _ _ _ _ _ _
  have quiet : u.drive = s.drive := drive_note _ _ _ _ _ _
  clear_value u
  have left := (shown_unblind k lt).of_told (congrArg Part.told noted)
  have open_ : (u.point p).blind = false := congrArg Prod.fst left.at_
  have okA : (u.chan (2 * p)).faulty = false := congrArg (·.2.1) left.own
  have okB : (u.chan (2 * p + 1)).faulty = false := congrArg (·.2.1) left.other
  have use : usable u p = true := by
    unfold usable
    rw [open_, okA, okB]
    rfl
  have reported : (spdReview (reviewSingle (adopt u p)) p).part = (adopt u p).part := by
    unfold spdReview
    simp only [part_if, part_spdRows, part_reviewSingle, ite_self]
  rw [if_pos use]
  exact ⟨(drive_spdReview _ lt).trans ((drive_reviewSingle _).trans ((drive_adopt u p).trans quiet)),
    (shown_adopt left lt).of_told (congrArg Part.told reported)⟩

end

/-! ### The samples after the settling windows -/

theorem settlingEnd_still {s : State} {p : Nat}
    (h : (s.point p).blind = false ∨ ∃ c, (c = 2 * p ∨ c = 2 * p + 1)
      ∧ ¬(0 < (s.chan c).kNext ∧ pastSettling (s.point p) (nextSample (s.chan c)).k = true)) : settlingEnd s p = s := by
  refine if_neg fun ⟨blind, a, b⟩ => ?_
  have split (c : Nat) (past : (decide (0 < (s.chan c).kNext) && pastSettling (s.point p) (nextSample (s.chan c)).k) = true) :
      0 < (s.chan c).kNext ∧ pastSettling (s.point p) (nextSample (s.chan c)).k = true := by
    simpa only [Bool.and_eq_true, decide_eq_true_eq] using past
  rcases h with seen | ⟨c, rfl | rfl, no⟩
  · exact absurd (seen.symm.trans blind) Bool.false_ne_true
  · exact no (split _ a)
  · exact no (split _ b)

/-- A point leaves BLIND: both samples are judged, the sequencer follows, and the samples are taken. -/
theorem settlingEnd_past {s : State} {p : Nat} (blind : (s.point p).blind = true)
    (past : ∀ c, c = 2 * p ∨ c = 2 * p + 1 → 0 < (s.chan c).kNext ∧ pastSettling (s.point p) (nextSample (s.chan c)).k = true) :
    ∃ la lb cause, settlingEnd s p =
      (let u := judge (judge s (2 * p) (nextSample (s.chan (2 * p)))) (2 * p + 1) (nextSample (s.chan (2 * p + 1)))
      drain (reviewSingle (parkRecords (takeNext (takeNext (leaveBlind u p la lb cause) (2 * p)) (2 * p + 1)) p)) p) := by
  have join (c : Nat) (own : c = 2 * p ∨ c = 2 * p + 1) :
      (decide (0 < (s.chan c).kNext) && pastSettling (s.point p) (nextSample (s.chan c)).k) = true := by
    simpa only [Bool.and_eq_true, decide_eq_true_eq] using past c own
  exact ⟨_, _, _, if_pos ⟨blind, join _ (.inl rfl), join _ (.inr rfl)⟩⟩

/-- Both samples judged, each against the state that its channel held. -/
theorem shown_judge {s : State} {p : Nat} (pts : s.points.length = 24) (chs : s.chans.length = 48) (lt : p < 24) (xa xb : Sample) :
    (judge (judge s (2 * p) xa) (2 * p + 1) xb).drive = s.drive
    ∧ Shown (judge (judge s (2 * p) xa) (2 * p + 1) xb) p (s.point p).told
      (onAfter s (2 * p) xa, (s.chan (2 * p)).faulty, (s.chan (2 * p)).queue, (s.chan (2 * p)).firstDue)
      (onAfter s (2 * p + 1) xb, (s.chan (2 * p + 1)).faulty, (s.chan (2 * p + 1)).queue, (s.chan (2 * p + 1)).firstDue) := by
  have begun : Shown s p (s.point p).told (s.chan (2 * p)).told (s.chan (2 * p + 1)).told := ⟨pts, chs, rfl, rfl, rfl⟩
  have first := (begun.updOwn lt (fun ch => { ch with on := onAfter s (2 * p) xa })).of_told (told_judge s (2 * p) xa)
  have steady := drive_judge s (2 * p) xa
  generalize judge s (2 * p) xa = u at first steady
  have second := (first.updOther lt (fun ch => { ch with on := onAfter u (2 * p + 1) xb })).of_told (told_judge u (2 * p + 1) xb)
  have after : onAfter u (2 * p + 1) xb = onAfter s (2 * p + 1) xb := by
    obtain ⟨on, off⟩ := thresholds_of_drive steady (by omega : 2 * p + 1 < 48)
    unfold onAfter
    rw [on, off, show (u.chan (2 * p + 1)).on = (s.chan (2 * p + 1)).on from congrArg Prod.fst first.other]
  refine ⟨(drive_judge u _ xb).trans steady, second.pts, second.chs, second.at_, second.own, second.other.trans ?_⟩
  rw [← after]
  exact congrArg (fun v : Bool × Bool × List Sample × Bool => (onAfter u (2 * p + 1) xb, v.2.1, v.2.2.1, v.2.2.2)) first.other

theorem parkRecords_keeps (s : State) {p : Nat} (lt : p < 24) : (reviewSingle (parkRecords s p)).part.told = s.part.told
    ∧ (reviewSingle (parkRecords s p)).drive = s.drive := by
  unfold parkRecords
  rw [part_reviewSingle, told_parkRecord, told_parkRecord, drive_reviewSingle, drive_parkRecord _ (by omega), drive_parkRecord _ (by omega)]
  exact ⟨rfl, rfl⟩

/-- The samples of both channels taken, none waits. -/
theorem shown_takeNext {s : State} {p : Nat} {q : Bool × Bool × Seq × Entry} {a b : Bool} {qa qb : List Sample}
    (k : Shown s p q (a, false, qa, false) (b, false, qb, false)) (lt : p < 24) (la : qa.length ≤ 1) (lb : qb.length ≤ 1) :
    (takeNext (takeNext s (2 * p)) (2 * p + 1)).drive = s.drive
    ∧ Shown (takeNext (takeNext s (2 * p)) (2 * p + 1)) p q (a, false, [], false) (b, false, [], false) := by
  have emptied {l : List Sample} (h : l.length ≤ 1) : l.tail = [] := List.length_eq_zero_iff.mp (by rw [List.length_tail]; omega)
  obtain ⟨told, drive⟩ := takeNext_keeps (c := 2 * p) (by omega) k.chs (congrArg (·.2.2.2) k.own)
  have first := (k.updOwn lt (fun ch => { ch with queue := ch.queue.tail })).of_told told
  generalize takeNext s (2 * p) = u at first drive
  obtain ⟨told', drive'⟩ := takeNext_keeps (c := 2 * p + 1) (by omega) first.chs (congrArg (·.2.2.2) first.other)
  have second := (first.updOther lt (fun ch => { ch with queue := ch.queue.tail })).of_told told'
  have tail {v : Bool} {l : List Sample} {ch : Chan} (h : ch.told = (v, false, l, false)) (le : l.length ≤ 1) :
      (ch.on, ch.faulty, ch.queue.tail, ch.firstDue) = (v, false, [], false) := by
    rw [← emptied le]
    exact congrArg (fun v : Bool × Bool × List Sample × Bool => (v.1, v.2.1, v.2.2.1.tail, v.2.2.2)) h
  exact ⟨drive'.trans drive, second.pts, second.chs, second.at_, second.own.trans (tail k.own la), second.other.trans (tail first.other lb)⟩

/-- What the samples after its settling windows leave at a point that was not blinded under the exception of R30. -/
theorem settlingEnd_keeps {s : State} {p : Nat} (pts : s.points.length = 24) (chs : s.chans.length = 48) (lt : p < 24)
    (blind : (s.point p).blind = true) (exc : (s.point p).blindExc = false)
    (own : ∀ c, c = 2 * p ∨ c = 2 * p + 1 → (0 < (s.chan c).kNext ∧ pastSettling (s.point p) (nextSample (s.chan c)).k = true)
      ∧ (s.chan c).queue.length ≤ 1 ∧ (s.chan c).faulty = false) :
    let on := fun c => onAfter s c (nextSample (s.chan c))
    (settlingEnd s p).drive = s.drive
    ∧ ((settlingEnd s p).point p).told = (false, false, impliedSeq (on (2 * p)) (on (2 * p + 1)))
    ∧ ∀ c, c = 2 * p ∨ c = 2 * p + 1 → ((settlingEnd s p).chan c).on = on c := by
  intro on
  obtain ⟨la, lb, cause, run⟩ := settlingEnd_past blind fun c h => (own c h).1
  obtain ⟨-, queueA, okA⟩ := own _ (.inl rfl)
  obtain ⟨-, queueB, okB⟩ := own _ (.inr rfl)
  obtain ⟨driveJ, judged⟩ := shown_judge pts chs lt (nextSample (s.chan (2 * p))) (nextSample (s.chan (2 * p + 1)))
  rw [okA, okB, show (s.point p).told = (true, false, (s.point p).seq, (s.point p).entry) by unfold Point.told; rw [blind, exc]] at judged
  obtain ⟨driveL, left⟩ := shown_leaveBlind judged lt la lb cause
  obtain ⟨driveT, taken⟩ := shown_takeNext left lt queueA queueB
  obtain ⟨toldR, driveR⟩ := parkRecords_keeps _ lt
  have shown := taken.of_told toldR
  have drained {u : State} {v : Bool × Bool × Seq × Entry} {a b : Bool} (k : Shown u p v (a, false, [], false) (b, false, [], false)) :
      drain u p = u := by
    unfold drain
    rw [show (u.chan (2 * p)).queue = [] from congrArg (·.2.2.1) k.own, show (u.chan (2 * p + 1)).queue = [] from congrArg (·.2.2.1) k.other]
    rfl
  rw [run, drained shown]
  obtain ⟨onA, onB⟩ := shown.states
  refine ⟨driveR.trans (driveT.trans (driveL.trans driveJ)), shown.at_, fun c h => ?_⟩
  rcases h with rfl | rfl
  · exact onA
  · exact onB

theorem settled_chans (s u : State) : (settled s u).chans = (settle u).chans := by
  rw [settled_eq]
  generalize settle u = w
  obtain ⟨l, h, -⟩ := putLines_eq w
  rw [h]
  rfl

/-- Settles O19. -/
theorem settlingEnds : Obligations.SettlingEnds := by
  intro s sp lines counting pts chs x past on
  have run : exec (.settlingEnd sp) s = answer s (settlingEnd s sp.val) :=
    congrArg (answer s) (if_pos counting)
  refine ⟨fun idle => answers_of (run.trans (congrArg (answer s) (settlingEnd_still idle))) lines.steady, fun blind exc own => ?_⟩
  obtain ⟨drive, point, chans⟩ := settlingEnd_keeps pts chs sp.isLt blind exc own
  have kept := settle_keeps _ (steady_of_drive lines drive)
  have points : (settled s (settlingEnd s sp.val)).points = (settlingEnd s sp.val).points :=
    (settled_points s _).trans (kept.reads State.points fun _ => rfl)
  have channels : (settled s (settlingEnd s sp.val)).chans = (settlingEnd s sp.val).chans :=
    (settled_chans s _).trans (kept.reads State.chans fun _ => rfl)
  refine ⟨_, run, ?_, fun c h => ?_, ?_⟩
  · unfold State.point
    rw [points]
    exact congrArg Prod.fst point
  · unfold State.chan
    rw [channels]
    exact chans c h
  · unfold State.point
    rw [points]
    exact congrArg (·.2.2) point

end Sys2Proof.Machine
end

section
/-!
SUPPORT. Nothing that a passage or a disturbance reaches lies outside the blocks that `State.outer` blanks: the hosts' shadow copies, the
lines, the safety processor and the rest stay as they are. Journal, count tiles and speed.
-/

namespace Sys2Proof.Machine

/-- A change of one of the blanked blocks. -/
theorem outer_put : (∀ (s : State) (f : Fld) (i v : Nat), (s.set f i v).outer = s.outer)
    ∧ (∀ (s : State) (f : Fld) (i : Nat), (s.raise f i).outer = s.outer) ∧ (∀ (s : State) (f : Fld) (i : Nat), (s.lower f i).outer = s.outer)
    ∧ (∀ (s : State) (f : Fld) (i : Nat) (b : Bool), (s.setFlag f i b).outer = s.outer)
    ∧ (∀ (s : State) (f : Fld) (i : Nat), (s.bump f i).outer = s.outer) ∧ (∀ (s : State) (f : Fld) (i : Nat), (s.bumpWrap f i).outer = s.outer)
    ∧ (∀ (s : State) (f : Fld) (i v : Nat), (s.set40 f i v).outer = s.outer)
    ∧ (∀ (s : State) (f : Fld) (i : Nat) (v : Int), (s.setS40 f i v).outer = s.outer)
    ∧ (∀ (s : State) (x : Ledger), (s.putLedger x).outer = s.outer) ∧ (∀ (s : State) (x : Bcw), (s.putBcw x).outer = s.outer)
    ∧ (∀ (s : State) (x : Fabric), (s.putFab x).outer = s.outer) ∧ (∀ (s : State) (x : List AxleEst), (s.putEsts x).outer = s.outer)
    ∧ (∀ (s : State) (a : Nat) (bs : List Byte), (s.putBytes a bs).outer = s.outer)
    ∧ (∀ (s : State) (n : Nat) (g : Sec → Sec), (s.updSec n g).outer = s.outer)
    ∧ (∀ (s : State) (n : Nat) (g : Point → Point), (s.updPoint n g).outer = s.outer)
    ∧ (∀ (s : State) (n : Nat) (g : Chan → Chan), (s.updChan n g).outer = s.outer)
    ∧ (∀ (s : State) (n : Nat) (g : EncPort → EncPort), (s.updEnc n g).outer = s.outer)
    ∧ (∀ (s : State) (n : Nat) (g : BoundaryUnit → BoundaryUnit), (s.updUnit n g).outer = s.outer)
    ∧ (∀ (s : State) (n : Nat) (g : CmpUnit → CmpUnit), (s.updCmp n g).outer = s.outer)
    ∧ (∀ (s : State) (i off n v : Nat), (recPut s i off n v).outer = s.outer)
    ∧ ∀ (s : State) (i b : Nat) (v : Bool), (recSetFlag s i b v).outer = s.outer :=
  ⟨fun _ _ _ _ => rfl, fun _ _ _ => rfl, fun _ _ _ => rfl, fun _ _ _ _ => rfl, fun _ _ _ => rfl, fun _ _ _ => rfl, fun _ _ _ _ => rfl,
    fun _ _ _ _ => rfl, fun _ _ => rfl, fun _ _ => rfl, fun _ _ => rfl, fun _ _ => rfl, fun _ _ _ => rfl, fun _ _ _ => rfl, fun _ _ _ => rfl,
    fun _ _ _ => rfl, fun _ _ _ => rfl, fun _ _ _ => rfl, fun _ _ _ => rfl, fun _ _ _ _ _ => rfl, fun _ _ _ _ => rfl⟩

theorem outer_if {c : Prop} [Decidable c] (t u : State) : (if c then t else u).outer = if c then t.outer else u.outer :=
  apply_ite State.outer c t u

theorem outer_forEach {α : Type} (l : List α) (s : State) {f : State → α → State} (h : ∀ t x, (f t x).outer = t.outer) :
    (forEach l s f).outer = s.outer := forEach_keeps State.outer (fun t x _ => h t x) s

theorem outer_forN (n : Nat) (s : State) {f : State → Nat → State} (h : ∀ t i, (f t i).outer = t.outer) :
    (forN n s f).outer = s.outer := forN_keeps State.outer (fun t i _ => h t i) s

/-! ### Journal and Gust queue -/

theorem outer_journalPut (s : State) (e : JEntry) : (s.journalPut e).outer = s.outer := by
  unfold State.journalPut clockKeep
  simp only [outer_if, outer_put, ite_self]

theorem outer_journal (s : State) (e : JEntry) : (s.journal e).outer = s.outer := congrArg Prod.fst (drive_journal s e)

theorem outer_note (s : State) (a b c d e : Nat) : (s.note a b c d e).outer = s.outer := outer_journal s _

theorem outer_gust (s : State) (ts : Nat) (bs : List Byte) : (s.gust ts bs).outer = s.outer := congrArg Prod.fst (drive_gust s ts bs)

theorem outer_gustKind (s : State) (k obj ts : Nat) (rest : List Byte) : (s.gustKind k obj ts rest).outer = s.outer := by
  unfold State.gustKind
  rw [outer_if, outer_gust, ite_self]

/-! ### Sections and the fabric clock -/

theorem outer_secNote (s : State) (n flag : Nat) : (secNote s n flag).outer = s.outer := outer_journal s _

theorem outer_distApply (s : State) (n : Nat) (d : Dist) : (distApply s n d).outer = s.outer := by
  unfold distApply
  simp only [outer_if, outer_put, outer_secNote, ite_self]

theorem outer_stepSec (s : State) (n c0 c1 ins : Nat) : (stepSec s n c0 c1 ins).1.outer = s.outer := by
  have cleared (t : State) : (clearEpisode t n).outer = t.outer := by
    unfold clearEpisode evidEnd
    simp only [outer_put]
  unfold stepSec
  extract_lets ax t marked t' code stepped
  have same : t.outer = s.outer := by simp only [t, outer_if, outer_put, ite_self]
  split
  · exact same
  · split
    · simp only [marked, outer_put, outer_secNote, cleared]
    · exact same
  · split
    · exact same
    · simp only [stepped, t', outer_if, outer_put, outer_secNote, ite_self, same]

theorem outer_moveSec (s : State) (n : Nat) (moves : List (Nat × Bool)) : (moveSec s n moves).1.outer = s.outer := by
  unfold moveSec
  extract_lets ins outs c0 t low full limit c1
  split_ifs <;> simp only [t, low, full, limit, outer_put, outer_distApply, outer_stepSec]

theorem outer_clockRun (s : State) (e : TickSec) : (clockRun s e).1.outer = s.outer := by
  unfold clockRun
  refine (outer_forEach _ _ fun t d => outer_distApply t _ d).trans ?_
  split
  · rfl
  · exact outer_moveSec s _ _

theorem outer_clockRuns (s : State) (es : List TickSec) : (clockRuns s es).outer = s.outer := by
  have runs (es : List TickSec) (acc : State × List TickSec) :
      (es.foldl (fun (acc : State × List TickSec) e => let r := clockRun acc.1 e; (r.1, acc.2 ++ [r.2])) acc).1.outer = acc.1.outer := by
    induction es generalizing acc with
    | nil => rfl
    | cons e es ih => exact (ih _).trans (outer_clockRun _ e)
  exact runs es _

theorem outer_clockBack (s : State) (e : TickSec) : (clockBack s e).outer = s.outer := by
  unfold clockBack writeAll
  exact (outer_forEach _ _ fun t x => outer_put.1 t _ _ _).trans (outer_forEach _ _ fun t x => outer_put.1 t _ _ _)

theorem outer_clockJournal (s : State) : (clockJournal s).outer = s.outer := by
  unfold clockJournal
  extract_lets log kept new t fab u
  have back : t.outer = s.outer := outer_forEach _ _ fun v e => by
    unfold jrnBack
    simp only [outer_put]
  have redo : u.outer = t.outer := outer_forEach _ _ fun v e => outer_journalPut v _
  exact redo.trans back

theorem outer_clockFlags (s : State) : (clockFlags s).outer = s.outer :=
  outer_forEach _ _ fun t _ => outer_put.1 t _ _ _

theorem outer_clockTake (s : State) (add : List TickSec) : (clockTake s add).outer = s.outer := by
  have opened : (clockOpen s).outer = s.outer := by
    unfold clockOpen
    simp only [outer_put, outer_if, ite_self]
  unfold clockTake
  rw [outer_clockRuns, outer_clockFlags, outer_clockJournal, outer_forEach _ _ outer_clockBack, opened]

theorem outer_distSecs (s : State) (l : List Nat) (c : Cause) (cp : Nat) (w : Option (Nat × Nat)) : (distSecs s l c cp w).outer = s.outer := by
  unfold distSecs
  rw [outer_if, outer_clockTake, ite_self]

theorem outer_distCp (s : State) (cp : Nat) (c : Cause) (w : Option (Nat × Nat)) : (distCp s cp c w).outer = s.outer :=
  outer_distSecs s _ _ _ _

theorem outer_countPassage (s : State) (c : Nat) (pos : Bool) (lat : List (Nat × Int)) : (countPassage s c pos lat).outer = s.outer := by
  unfold countPassage
  simp only [outer_put, outer_if, outer_distSecs, outer_clockTake, ite_self]

theorem outer_reviewSingle (s : State) : (reviewSingle s).outer = s.outer := congrArg Prod.fst (drive_reviewSingle s)

theorem outer_secLeaveLull (s : State) (n : Nat) : (secLeaveLull s n).outer = s.outer := by
  unfold secLeaveLull
  simp only [outer_put, outer_if, outer_reviewSingle, ite_self]

theorem outer_dropEarly (s : State) (p : Nat) : (dropEarly s p).outer = s.outer := by
  unfold dropEarly syncEarly
  exact outer_forN _ _ fun _ _ => rfl

/-! ### Speed -/

theorem outer_setDir (s : State) (p : Nat) (neg valid force : Bool) : (setDir s p neg valid force).outer = s.outer := by
  unfold setDir
  simp only [outer_put, outer_if, ite_self]

theorem outer_spdHard (s : State) (p : Nat) : (spdHard s p).1.outer = s.outer := by
  have spd (t : State) (st : Nat) (v : Int) : (setSpd t p st v).outer = t.outer := rfl
  unfold spdHard
  extract_lets a b q v
  split_ifs <;> simp only [outer_put, outer_setDir, spd]

theorem outer_spdPort (s : State) (q : Nat) : (spdPort s q).outer = s.outer := by
  have rows (t : State) (p : Nat) : (spdRows t p).outer = t.outer := by
    have hard := outer_spdHard t p
    unfold spdRows
    split
    next v b e =>
      rw [e] at hard
      have spd (w : State) (st : Nat) (x : Int) : (setSpd w p st x).outer = w.outer := rfl
      simp only [outer_if, outer_setDir, spd, hard, ite_self]
  exact outer_forN _ _ fun t p => by rw [outer_if, rows, ite_self]

end Sys2Proof.Machine
end

section
/-!
SUPPORT. The same of the encoders, the boundary units and the axle ledger.
-/

namespace Sys2Proof.Machine

/-! ### Virtual counting points and encoders -/

theorem outer_vcpEval (s : State) (k : Nat) : (vcpEval s k).outer = s.outer := by
  have judged : (vcpJudge s k).1.outer = s.outer := rfl
  unfold vcpEval vcpSides
  split
  · rfl
  · split
    next t new e =>
      rw [e] at judged
      simp only [outer_if, outer_note, outer_put, outer_distCp, judged, ite_self]

theorem outer_vcpEvalPort (s : State) (q : Nat) : (vcpEvalPort s q).outer = s.outer :=
  outer_forN _ _ fun t k => by rw [outer_if, outer_vcpEval, ite_self]

theorem outer_portLeaveLull (s : State) (q : Nat) : (portLeaveLull s q).outer = s.outer := by
  unfold portLeaveLull
  split
  · exact (outer_forN _ _ fun t n => by rw [outer_if, outer_secLeaveLull, ite_self]).trans rfl
  · rfl

theorem outer_denc1 (s : State) (f : Fld) (q : Nat) : (denc1 s f q).outer = s.outer := rfl

theorem outer_portFault (s : State) (q : Nat) : (portFault s q).outer = s.outer := by
  unfold portFault
  simp only [outer_if, outer_put, outer_spdPort, outer_vcpEvalPort, outer_note, outer_portLeaveLull, outer_denc1, ite_self]

theorem outer_portRelease (s : State) (q : Nat) : (portRelease s q).outer = s.outer := by
  have published (t : State) : (portPublish t q).outer = t.outer := by
    unfold portPublish
    split
    · rfl
    · rfl
  unfold portRelease portLate portValid
  simp only [outer_if, outer_put, outer_spdPort, outer_vcpEvalPort, outer_note, outer_portLeaveLull, outer_denc1, published, ite_self]

theorem outer_driftAt (s : State) (p : Nat) (neg : Bool) : (driftAt s p neg).outer = s.outer := by
  have check (t : State) (m : Nat) : (driftCheck t m p neg).outer = t.outer := by
    unfold driftCheck
    simp only [outer_if, outer_put, outer_denc1, outer_portFault, outer_portRelease, ite_self]
  exact outer_forN _ _ fun t m => by rw [outer_if, check, ite_self]

/-! ### Boundary units, counts and bounds of a passage -/

theorem outer_unitsPassage (s : State) (p serial : Nat) (fix : Int) (lat : List (Nat × Int)) (moves : List (Nat × Bool)) :
    (unitsPassage s p serial fix lat moves).outer = s.outer := by
  have insert (t : State) (k : Nat) : (unitInsert t k serial p fix lat).outer = t.outer := by
    unfold unitInsert
    simp only [outer_if, outer_put, outer_vcpEval, ite_self]
  have remove (t : State) (k : Nat) : (unitRemove t k p).outer = t.outer := by
    unfold unitRemove
    extract_lets q
    split
    · rfl
    · rw [outer_vcpEval]; rfl
  have refix (t : State) (k : Nat) : (unitRefix t k p fix lat).outer = t.outer := by
    unfold unitRefix
    extract_lets q x
    split
    · rfl
    · rfl
  unfold unitsPassage
  extract_lets t
  have moved : t.outer = s.outer :=
    outer_forEach _ _ fun t m => outer_forEach _ _ fun u k => by rw [outer_if, insert, remove, ite_self]
  split
  · exact (outer_forEach _ _ refix).trans moved
  · exact moved

theorem outer_bcwCount (s : State) (c : Nat) (neg : Bool) : (bcwCount s c neg).outer = s.outer := by
  unfold bcwCount bcwStep
  simp only [outer_if, outer_put, ite_self]

theorem outer_boundOfPassage (s : State) (c : Nat) (v : Int) : (boundOfPassage s c v).outer = s.outer := by
  unfold boundOfPassage
  simp only [outer_put]

/-! ### The axle ledger -/

theorem outer_setMembers (s : State) (i new : Nat) : (setMembers s i new).outer = s.outer := by
  unfold setMembers
  extract_lets old t u
  have lapsed : t.outer = s.outer := by
    unfold t
    split
    · exact outer_forN _ _ fun v n => by simp only [outer_if, outer_put, ite_self]
    · rfl
  exact (outer_forN _ u fun v n => by simp only [outer_if, outer_put, ite_self]).trans lapsed

theorem outer_moveMembers (s : State) (i : Nat) (dep arr : List Nat) : (moveMembers s i dep arr).outer = s.outer := outer_setMembers s i _

theorem outer_freeSlot (s : State) (i : Nat) : (freeSlot s i).outer = s.outer := by
  unfold freeSlot
  split
  · rfl
  · have lost : (forEach (cmpsOf s (axleId s i)) s cmpLost).outer = s.outer := outer_forEach _ _ fun _ _ => rfl
    simp only [outer_put, outer_setMembers, lost]

theorem outer_fixObs (s : State) (o : Obs) (id : Nat) (old : Option (Nat × Int)) : (fixObs s o id old).outer = s.outer := by
  have step (t : State) (k at_ : Nat) (x : Int) (e : Bool) : (cmpStep t k at_ x e).outer = t.outer := by
    unfold cmpStep cmpFire
    split
    · rfl
    · split
      · rfl
      · simp only [outer_if, outer_put, outer_gustKind, ite_self]
  unfold fixObs giveFix
  extract_lets lim t u
  have told : t.outer = s.outer := by
    unfold t
    split
    · simp only [outer_if, outer_put, outer_note, ite_self]
    · rfl
  exact (outer_forEach _ u fun v k => step v k _ _ _).trans told

theorem outer_heldFrom (o s : State) (id t : Nat) (po ps : List (Nat × Int)) : (heldFrom o s id t po ps).outer = s.outer := by
  unfold heldFrom
  rw [outer_if]
  exact ite_self _

theorem outer_setBad (s : State) (f : Fld) (l : List Nat) : (setBad s f l).outer = s.outer :=
  outer_forEach _ _ fun t n => by simp only [outer_if, outer_put, ite_self]

theorem outer_coverLost (s : State) (l : List Nat) : (coverLost s l).outer = s.outer := outer_forEach _ _ fun _ _ => rfl

theorem outer_lapse (s : State) (i : Nat) : (lapse s i).outer = s.outer := by
  unfold lapse
  simp only [outer_if, outer_put, ite_self]

theorem outer_lapseSecs (s : State) (l : List Nat) : (lapseSecs s l).outer = s.outer :=
  outer_forEach _ _ fun t i => by rw [outer_if, outer_lapse, ite_self]

theorem outer_ledgerClearSec (s : State) (n t : Nat) (ps : List (Nat × Int)) : (ledgerClearSec s n t ps).outer = s.outer := by
  unfold ledgerClearSec
  exact (outer_forEach _ _ fun v i => by
    simp only [outer_if, outer_note, outer_freeSlot, outer_heldFrom, outer_setMembers, ite_self]).trans rfl

theorem outer_issue (s : State) (v : Verdict) : (issue s v).outer = s.outer := by
  unfold issue
  simp only [outer_if, outer_put, outer_coverLost, outer_journal, outer_gustKind, ite_self]

theorem outer_loose : (∀ (s : State) (id : Nat) (b : Bool), (dropLoose s id b).outer = s.outer)
    ∧ (∀ (s : State) (o : Obs) (id : Nat), (noteTaken s o id).outer = s.outer) ∧ ∀ (s : State) (o : Obs), (putObs s o).outer = s.outer :=
  ⟨fun _ _ _ => rfl, fun _ _ _ => rfl, fun _ _ => rfl⟩

theorem outer_localise (s : State) (o : Obs) (id : Nat) : (localise s o id).outer = s.outer := by
  unfold localise
  extract_lets here t
  have all : t.outer = s.outer := outer_forEach _ _ fun u l => by
    split
    · split
      · rw [outer_loose.1, outer_issue]
      · rw [outer_loose.1]
    · rw [outer_if, outer_issue, ite_self]
  rw [outer_if, outer_loose.1, all, ite_self]

theorem outer_passedOver (s : State) (look : Nat) (o : Obs) : (passedOver s look o).outer = s.outer := by
  unfold passedOver
  refine (outer_forEach _ _ fun u l => ?_).trans rfl
  split
  · rw [outer_issue, outer_loose.1]
  · rfl

theorem outer_finalSkip (s : State) (o : Obs) (sk : Nat × Nat) : (finalSkip s o sk).outer = s.outer := by
  unfold finalSkip
  split
  · rfl
  · simp only [outer_put, outer_loose]
    split
    · simp only [outer_if, outer_issue, outer_loose, ite_self]
    · rfl

theorem outer_linkAhead (s : State) (i : Nat) (o : Obs) : (linkAhead s i o).outer = s.outer := by
  unfold linkAhead
  split
  · rfl
  · rfl

theorem outer_writePassage (s : State) (i : Nat) (o : Obs) : (writePassage s i o).outer = s.outer := by
  unfold writePassage
  simp only [outer_linkAhead, outer_put]

theorem outer_createRec (s : State) (o : Obs) (b : Bool) : (createRec s o b).1.outer = s.outer := by
  unfold createRec
  split
  · simp only [outer_put, outer_coverLost]
  · simp only [outer_put, outer_writePassage, outer_setMembers]

theorem outer_virtualMove (s : State) (i : Nat) (m : VMove) : (virtualMove s i m).outer = s.outer := by
  unfold virtualMove
  simp only [outer_if, outer_put, outer_freeSlot, outer_heldFrom, outer_moveMembers, outer_setBad, ite_self]

theorem outer_virtualWaiting (s : State) (o : Obs) : (virtualWaiting s o).outer = s.outer := by
  unfold virtualWaiting
  refine (outer_forEach _ _ fun u v => ?_).trans rfl
  split
  · exact outer_virtualMove u _ v
  · rfl

theorem outer_finalise (s : State) (v : LedgVals) (o : Obs) : (finalise s v o).outer = s.outer := by
  have made (t : State) (o : Obs) : (freeMade t o).outer = t.outer := by
    unfold freeMade
    split
    · rw [outer_if, outer_freeSlot, ite_self]
    · rfl
  have slipped (t : State) (o : Obs) (i : Nat) : (slip t v o i).outer = t.outer := by
    unfold slip
    simp only [outer_if, outer_put, outer_journal, outer_gustKind, ite_self]
  have inserted (t : State) (o : Obs) : (insertFinal t o).outer = t.outer := by
    unfold insertFinal
    extract_lets u
    have : u.outer = t.outer := by
      unfold u
      split
      · exact outer_issue t _
      · rfl
    exact this
  have named (t : State) (serial id : Nat) : (nameEntries t serial id).outer = t.outer := rfl
  have prov (t : State) (i : Nat) : (syncProv t i).outer = t.outer := rfl
  have skipped (t : State) (o : Obs) (l : List (Nat × Nat)) : (forEach l t (fun s sk => finalSkip s o sk)).outer = t.outer :=
    outer_forEach _ _ fun u sk => outer_finalSkip u o sk
  unfold finalise
  extract_lets o' t u w passed skip placed known
  have begun : u.outer = s.outer := by simp only [u, t, outer_if, outer_setBad, made, outer_loose, ite_self]
  have after : w.outer = s.outer := by
    unfold w
    split
    · simp only [outer_if, slipped, outer_put, prov, begun, ite_self]
    · exact begun
  have done : known.outer = s.outer := by
    simp only [known, placed, skip, passed, outer_if, outer_virtualWaiting, named, inserted, outer_localise, skipped, outer_passedOver, after,
      ite_self]
  split
  · rw [outer_if, outer_freeSlot, done, ite_self]
  · exact done

theorem outer_assign (s : State) (o : Obs) (i dist margin : Nat) (tol late : Bool) : (assign s o i dist margin tol late).outer = s.outer := by
  unfold assign
  extract_lets id saved old shadow mapped moved coded prov cleared withDist withMargin made o' written lapsed bad
  have before : withMargin.outer = s.outer := by
    simp only [withMargin, withDist, cleared, prov, coded, moved, outer_if, outer_put, outer_moveMembers, ite_self]
  have remade : made.outer = s.outer := by
    unfold made
    split
    · rw [outer_if, outer_setMembers, before, ite_self]
    · exact before
  simp only [bad, lapsed, written, outer_fixObs, outer_if, outer_setBad, outer_lapse, outer_writePassage, outer_loose, remade, ite_self]

theorem outer_insertObs (s : State) (o : Obs) (late : Bool) : (insertObs s o late).outer = s.outer := by
  have put (t : State) (i : Nat) : (putMade t o i late).outer = t.outer := by
    unfold putMade
    simp only [outer_fixObs, outer_if, outer_lapse, outer_loose, outer_put, ite_self]
  unfold insertObs
  extract_lets t again
  have bad : t.outer = s.outer := outer_setBad s _ _
  clear_value again
  split
  · rw [put, outer_linkAhead]
    exact (outer_setMembers t _ _).trans bad
  · have made := outer_createRec t o true
    split
    next e => rw [e] at made; exact made.trans bad
    next e => rw [e] at made; rw [put]; exact made.trans bad

theorem outer_undo (s : State) (own o : Obs) : (undo s own o).outer = s.outer := by
  have taken (t : State) (i : Nat) (saved : List Byte) : (takeBack t i saved).outer = t.outer := by
    have fields (u : State) : (forEach assignFields u (fun s f => s.putBytes (recAddr i + f.1) ((saved.drop f.1).take f.2))).outer = u.outer :=
      outer_forEach _ _ fun _ _ => rfl
    unfold takeBack
    simp only [outer_if, outer_put, outer_setMembers, fields, ite_self]
  have unlinked (t : State) (o : Obs) : (unlink t o).outer = t.outer := by
    unfold unlink
    split
    · rw [outer_if]; exact ite_self _
    · rfl
  have prov (t : State) (i : Nat) : (syncProv t i).outer = t.outer := rfl
  unfold undo
  split
  · rfl
  · simp only [outer_if, outer_put, outer_loose, prov, outer_heldFrom, taken, unlinked, ite_self]

theorem outer_applySteps (v : LedgVals) (late : Bool) (os : List (Obs × Int)) (cs : List Cand) (best : Rat) (s0 : State) (l : List AStep)
    (s : State) (prev : Nat × Int) (pend : List Cand) : (applySteps v late os cs best s0 l s prev pend).outer = s.outer := by
  induction l generalizing s prev pend with
  | nil => rfl
  | cons x l ih =>
    cases x with
    | skip j =>
      unfold applySteps
      split
      · rw [ih, outer_if, outer_setBad, ite_self]
      · exact ih s _ _
    | ins i =>
      unfold applySteps
      split
      · rw [ih, outer_insertObs]
      · exact ih s _ _
    | hit i j =>
      unfold applySteps
      split
      · rw [ih, outer_assign]
      · exact ih s _ _

theorem outer_runJob (s : State) (j : Job) : (runJob s j).outer = s.outer := by
  unfold runJob finaliseJob
  extract_lets v
  split
  split
  · rfl
  · extract_lets t later cs base os
    split
    rw [outer_forEach _ _ fun u o => outer_finalise u v o, outer_applySteps]
    exact outer_forEach _ _ fun u o => outer_undo u _ o

theorem outer_createFor (s : State) (look : Nat) (o : Obs) : (createFor s look o).outer = s.outer := by
  have made := outer_createRec s o false
  have named (t : State) (serial id : Nat) : (nameEntries t serial id).outer = t.outer := rfl
  unfold createFor
  split
  next e => rw [e] at made; exact made
  next e =>
    rw [e] at made
    rw [outer_virtualWaiting, outer_passedOver, named, outer_fixObs]
    exact made

theorem outer_virtualTurn (s : State) (id : Nat) (m : VMove) : (virtualTurn s id m).outer = s.outer := by
  unfold virtualTurn
  split
  · rfl
  · split
    · exact outer_virtualMove s _ m
    · rfl

theorem outer_applyTurns (fuel : Nat) (s : State) : (applyTurns fuel s).outer = s.outer := by
  induction fuel generalizing s with
  | zero => rfl
  | succ fuel ih =>
    unfold applyTurns
    split
    · rfl
    · next j rest _ =>
      extract_lets t
      split
      · rw [ih, outer_runJob]; rfl
      · rw [ih]
        split
        · rw [outer_createFor]; rfl
        · rfl
      · rw [ih]; exact outer_forEach _ _ fun u o => outer_finalise u _ o
      · rw [ih, outer_virtualTurn]; rfl
      · rw [outer_if, ih, outer_ledgerClearSec]; exact ite_self _
      · rfl

theorem outer_syncTurns (s : State) : (syncTurns s).outer = s.outer := by
  have waiting (t : State) : (syncWaiting t).outer = t.outer := by
    unfold syncWaiting
    extract_lets deps
    split
    · rfl
    · exact outer_forEach _ _ fun u i => by simp only [outer_if, outer_put, ite_self]
  have queue (t : State) : (syncQueue t).outer = t.outer := by
    unfold syncQueue
    simp only [outer_if, outer_put, ite_self]
  have ledger (t : State) : (syncLedger t).outer = t.outer := outer_forN _ _ fun u n => by simp only [outer_if, outer_put, ite_self]
  unfold syncTurns
  rw [ledger, waiting, queue, outer_applyTurns]

theorem outer_ledgerPassage (s : State) (o : Obs) : (ledgerPassage s o).outer = s.outer := by
  unfold ledgerPassage
  simp only [outer_syncTurns, outer_if, outer_put, outer_loose, outer_coverLost, outer_lapseSecs, ite_self]

/-! ### A passage, and a point that becomes BLIND -/

theorem outer_emit (s : State) (p : Nat) (i : EvInfo) (ts : Nat) (lat : List (Nat × Int)) : (emit s p i ts lat).outer = s.outer := by
  have left (t : State) : (pointLeaveLull t p).outer = t.outer := by
    have secs (u : State) : (forEach (secsOnPoint u p) u secLeaveLull).outer = u.outer := outer_forEach _ _ outer_secLeaveLull
    unfold pointLeaveLull
    simp only [outer_if, secs, outer_put, ite_self]
  unfold emit
  extract_lets t bytes u fault v
  have queued : u.outer = s.outer := by simp only [u, t, outer_if, outer_put, outer_gust, ite_self]
  have counted : v.outer = s.outer := by
    unfold v
    split <;> simp only [fault, outer_if, outer_put, outer_journal, queued, ite_self]
  split
  · exact counted
  · exact (left v).trans counted

theorem outer_passage (s : State) (p : Nat) (neg : Bool) : (passage s p neg).outer = s.outer := by
  have sweeps (t : State) : (ledgerSweeps t).outer = t.outer := by
    unfold ledgerSweeps
    rw [outer_if]
    exact ite_self _
  unfold passage
  extract_lets pt ts lat t serial u tn d1 d2 v vt ca cb sin centre tc fix moves w w1 w2 w3 host station da
  split
  next g part _ =>
  extract_lets w4
  have told : u.outer = s.outer := outer_emit s p _ _ _
  have counted : w.outer = s.outer := by
    unfold w
    split
    · rw [outer_bcwCount, sweeps, outer_dropEarly, outer_countPassage, told]
    · rw [outer_dropEarly, told]
  have entered : w4.outer = w.outer := by
    simp only [w4, w3, w2, w1, outer_if, outer_ledgerPassage, outer_unitsPassage, outer_boundOfPassage, outer_driftAt, ite_self]
  unfold keepRaw
  simp only [outer_put, entered, counted]

theorem outer_abandon (s : State) (p : Nat) : (abandon s p).outer = s.outer := by
  unfold abandon setSeq
  simp only [outer_put, outer_dropEarly]
  split
  · exact outer_passage s p _
  · exact outer_passage s p _
  · rfl

theorem outer_enterBlind (s : State) (p : Nat) (cause : Cause) : (enterBlind s p cause).outer = s.outer := by
  have marks : (blindMarks s p cause).outer = s.outer := by
    unfold blindMarks
    simp only [outer_put, outer_if, outer_abandon, ite_self]
  have told : (blindTold s p cause).outer = s.outer := by
    unfold blindTold
    rw [outer_reviewSingle, outer_note, outer_spdHard, marks]
  cases seen : (s.point p).blind with
  | true => rw [enterBlind_blind seen]
  | false =>
    obtain ⟨watch, eq⟩ := enterBlind_eq seen cause
    rw [eq]
    split
    · exact told
    · split
      · rw [outer_distCp, told]
      · exact told

theorem outer_excChange (s : State) (p t : Nat) (cause : Cause) : (excChange s p t cause).outer = s.outer := outer_enterBlind s p cause

end Sys2Proof.Machine
end

section
/-!
PROOFS. A failed source (R62 to R65): the failure itself touches nothing that a change of excitation is judged by, and the point of a
substituted source becomes BLIND as by a forced change. Settles O21.
-/

namespace Sys2Proof.Machine

/-! ### A source declared FAILED (R62, R65) -/

/-- A source is FAILED without a pin, the failure flagged and journaled, the pending values that name it discarded. -/
def failed (s : State) (n : Nat) : State :=
  dropFailed ((((((s.set F.EXC_SRCn_STATUS n 2).set F.EXC_SRCn_PIN n 127).indicate).set F.EXC_MON_SRC_FAIL 0 1).firstErr
    F.URED_FIRST_SRC 2400).note 0 0x01 8 n (2 + 127 * 256)) n

/-- The bit addresses of the excitation beside SRC_FAIL and PEND_DROP. -/
def sparedKey (k : Nat) : Bool := lowKey k && k != F.EXC_MON_SRC_FAIL.key 0 && k != F.EXC_MON_PEND_DROP.key 0

/-- A point without its pending values and their mark. -/
def Point.bare (q : Point) : Point := { q with pend := none, force := false }

/-- What flagging a failure leaves alone: the rest of the excitation, the points but for their pending values, the channels, the count
tiles, and all beyond the blocks of a sensor point. -/
structure Spared where
  seen : Nat → Nat
  points : List Point
  chans : List Chan
  front : Front
  outer : State

def State.spared (s : State) : Spared := ⟨s.seen sparedKey, s.points.map Point.bare, s.chans, s.front, s.outer⟩

theorem spared_set (s : State) {f : Fld} {i : Nat} (low : sparedKey (f.key i) = false) (tile : tileKey (f.key i) = false) (v : Nat) :
    (s.set f i v).spared = s.spared := by
  unfold State.spared
  rw [seen_set s low, front_write.1 s f i v tile]
  rfl

theorem spared_note (s : State) (a b c d e : Nat) : (s.note a b c d e).spared = s.spared := by
  have part := part_note s a b c d e
  have seen : (s.note a b c d e).seen sparedKey = s.seen sparedKey := seen_mono (congrArg Part.low part) fun k h => by
    unfold sparedKey at h
    simp only [Bool.and_eq_true] at h
    exact h.1.1
  have points : (s.note a b c d e).points = s.points := congrArg Part.points part
  have chans : (s.note a b c d e).chans = s.chans := congrArg Part.chans part
  unfold State.spared
  rw [seen, points, chans, front_note, outer_note]

theorem spared_firstErr (s : State) (latency : Nat) : (s.firstErr F.URED_FIRST_SRC latency).spared = s.spared := by
  unfold State.firstErr State.firstErrFrom
  split
  · split
    · exact (spared_set _ (by decide) (by decide) 1).trans (spared_set s (by decide) (by decide) 1)
    · rfl
  · rfl

theorem spared_dropFailed (s : State) (n : Nat) : (dropFailed s n).spared = s.spared :=
  forN_keeps State.spared (fun t p _ => by
    have dropped : (pendDrop t p).spared = t.spared :=
      congrArg (Spared.mk (t.seen sparedKey) · t.chans t.front t.outer) (map_upd Point.bare t.points p fun _ => rfl)
    split
    · split
      · exact (spared_set _ (by decide) (by decide) 1).trans dropped
      · rfl
    · rfl) s

/-- Of the source itself STATUS and PIN are written, and the tick at which the unit indicates. -/
theorem spared_failed (s : State) (n : Nat) : (failed s n).spared = ((s.set F.EXC_SRCn_STATUS n 2).set F.EXC_SRCn_PIN n 127).indicate.spared := by
  unfold failed
  rw [spared_dropFailed, spared_note, spared_firstErr, spared_set _ (by decide) (by decide)]

section
variable (s : State) (n : Nat)

theorem failed_seen : (failed s n).seen sparedKey = ((s.set F.EXC_SRCn_STATUS n 2).set F.EXC_SRCn_PIN n 127).seen sparedKey := by
  have read (u : State) : u.spared.seen = u.seen sparedKey := rfl
  rw [← read, spared_failed]
  rfl

theorem failed_get {f : Fld} {i : Nat} (h : sparedKey (f.key i) = true) :
    (failed s n).get f i = ((s.set F.EXC_SRCn_STATUS n 2).set F.EXC_SRCn_PIN n 127).get f i :=
  get_of_seen (failed_seen s n) h

theorem failed_chans : (failed s n).chans = s.chans := by
  have read (u : State) : u.spared.chans = u.chans := rfl
  rw [← read, spared_failed]
  rfl

theorem failed_bare (p : Nat) : ((failed s n).point p).bare = (s.point p).bare := by
  have read (u : State) : nth u.spared.points p = (u.point p).bare := nth_map Point.bare u.points p rfl
  rw [← read, spared_failed, read]
  rfl

/-- What a point's becoming BLIND reads of it. -/
theorem failed_point (p : Nat) : ((failed s n).point p).blind = (s.point p).blind ∧ ((failed s n).point p).seq = (s.point p).seq := by
  have blind (q : Point) : q.bare.blind = q.blind := rfl
  have seq (q : Point) : q.bare.seq = q.seq := rfl
  rw [← blind, ← seq, failed_bare, blind, seq]
  exact ⟨rfl, rfl⟩

theorem failed_length : (failed s n).points.length = s.points.length := by
  have read (u : State) : u.spared.points.length = u.points.length := List.length_map _
  rw [← read, spared_failed, read]
  rfl

theorem failed_front (lt : n < 56) : (failed s n).front = s.front := by
  have apart := (by decide +kernel : ∀ n < 56, tileKey (F.EXC_SRCn_STATUS.key n) = false ∧ tileKey (F.EXC_SRCn_PIN.key n) = false)
  obtain ⟨status, pin⟩ := apart n lt
  have read (u : State) : u.spared.front = u.front := rfl
  rw [← read, spared_failed]
  exact Eq.trans (front_write.1 _ _ _ 127 pin) (front_write.1 s _ _ 2 status)

theorem failed_outer : (failed s n).outer = s.indicate.outer := by
  have read (u : State) : u.spared.outer = u.outer := rfl
  rw [← read, spared_failed]
  rfl

end

/-! ### The registers of the sources -/

/-- The registers of sources, routes and counters that a failure reads lie among those that it leaves. -/
theorem sparedKey_source : ∀ m < 56, sparedKey (F.EXC_SRCn_STATUS.key m) = true ∧ sparedKey (F.EXC_SRCn_PIN.key m) = true
    ∧ sparedKey (F.EXC_SRCn_RETIRE.key m) = true := by
  decide +kernel

/-- No two of these registers share a bit address. -/
theorem source_keys_apart {n m pin : Nat} (ltn : n < 56) (_ : m < 56) (ltp : pin < 96) :
    (n ≠ m → F.EXC_SRCn_STATUS.key n ≠ F.EXC_SRCn_STATUS.key m ∧ F.EXC_SRCn_PIN.key n ≠ F.EXC_SRCn_PIN.key m)
    ∧ F.EXC_SRCn_STATUS.key n ≠ F.EXC_SRCn_PIN.key m ∧ F.EXC_SRCn_RETIRE.key n ≠ F.EXC_SRCn_STATUS.key m
    ∧ F.EXC_SRCn_RETIRE.key n ≠ F.EXC_SRCn_PIN.key m ∧ F.EXC_SRCn_STATUS.key n ≠ F.EXC_ROUTEp_SRC.key pin
    ∧ F.EXC_SRCn_PIN.key n ≠ F.EXC_ROUTEp_SRC.key pin ∧ F.EXC_MON_SUBST_CNT.key 0 ≠ F.EXC_SRCn_STATUS.key n
    ∧ F.EXC_MON_SUBST_CNT.key 0 ≠ F.EXC_SRCn_PIN.key n ∧ F.EXC_MON_SUBST_CNT.key 0 ≠ F.EXC_ROUTEp_SRC.key pin
    ∧ F.EXC_MON_NO_SPARE.key 0 ≠ F.EXC_SRCn_STATUS.key n ∧ F.EXC_MON_NO_SPARE.key 0 ≠ F.EXC_SRCn_PIN.key n
    ∧ F.EXC_MON_NO_SPARE.key 0 ≠ F.EXC_ROUTEp_SRC.key pin ∧ F.EXC_MODE_AUTO_SPARE.key 0 ≠ F.EXC_SRCn_STATUS.key n
    ∧ F.EXC_MODE_AUTO_SPARE.key 0 ≠ F.EXC_SRCn_PIN.key n := by
  simp only [Fld.key, F.EXC_SRCn_STATUS, F.EXC_SRCn_PIN, F.EXC_SRCn_RETIRE, F.EXC_ROUTEp_SRC, F.EXC_MON_SUBST_CNT, F.EXC_MON_NO_SPARE,
    F.EXC_MODE_AUTO_SPARE]
  omega

section
variable {s : State} {n : Nat} (ltn : n < 56)
include ltn

/-- The failed source itself. -/
theorem failed_own : (failed s n).get F.EXC_SRCn_STATUS n = 2 ∧ (failed s n).get F.EXC_SRCn_PIN n = 127 := by
  obtain ⟨status, pin, -⟩ := sparedKey_source n ltn
  obtain ⟨-, apart, -⟩ := source_keys_apart ltn ltn (pin := 0) (by omega)
  rw [failed_get s n status, failed_get s n pin, State.get_set_ne _ _ apart, State.get_set_self, State.get_set_self]
  exact ⟨rfl, rfl⟩

/-- The other sources, the counter of substitutions and NO_SPARE, and AUTO_SPARE. -/
theorem failed_others : (∀ m < 56, m ≠ n → srcFree (failed s n) m = srcFree s m)
    ∧ (failed s n).get F.EXC_MON_SUBST_CNT = s.get F.EXC_MON_SUBST_CNT ∧ (failed s n).get F.EXC_MON_NO_SPARE = s.get F.EXC_MON_NO_SPARE
    ∧ (failed s n).flag F.EXC_MODE_AUTO_SPARE = s.flag F.EXC_MODE_AUTO_SPARE := by
  obtain ⟨-, -, -, -, -, -, cntStatus, cntPin, -, noStatus, noPin, -, modeStatus, modePin⟩ := source_keys_apart ltn ltn (pin := 0) (by omega)
  refine ⟨fun m ltm ne => ?_, ?_, ?_, ?_⟩
  · obtain ⟨status, -, retire⟩ := sparedKey_source m ltm
    obtain ⟨same, statusPin, retireStatus, retirePin, -⟩ := source_keys_apart ltm ltn (pin := 0) (by omega)
    unfold srcFree State.flag
    rw [failed_get s n status, failed_get s n retire, State.get_set_ne _ _ statusPin, State.get_set_ne _ _ (same ne).1,
      State.get_set_ne _ _ retirePin, State.get_set_ne _ _ retireStatus]
  · rw [failed_get s n (by decide), State.get_set_ne _ _ cntPin, State.get_set_ne _ _ cntStatus]
  · rw [failed_get s n (by decide), State.get_set_ne _ _ noPin, State.get_set_ne _ _ noStatus]
  · unfold State.flag
    rw [failed_get s n (by decide), State.get_set_ne _ _ modePin, State.get_set_ne _ _ modeStatus]

/-- A failed source was ASSIGNED, and is not free after either. -/
theorem failed_free (assigned : s.get F.EXC_SRCn_STATUS n = 1) {m : Nat} (ltm : m < 56) : srcFree (failed s n) m = srcFree s m := by
  by_cases e : m = n
  · subst e
    unfold srcFree
    rw [(failed_own ltn).1, assigned]
    exact (Bool.false_and _).trans (Bool.false_and _).symm
  · exact (failed_others ltn).1 m ltm e

end

theorem outer_fails {s t : State} (h : t.outer = s.outer) : t.now = s.now ∧ t.srcFails = s.srcFails ∧ t.hosts = s.hosts := by
  have read {α : Type} (f : State → α) : f t.outer = f s.outer := congrArg f h
  exact ⟨read State.now, read State.srcFails, read State.hosts⟩

theorem failed_reads (s : State) (n : Nat) : (failed s n).now = s.now ∧ (failed s n).srcFails = s.srcFails := by
  obtain ⟨now, fails, -⟩ := outer_fails (failed_outer s n)
  exact ⟨now, fails⟩

theorem sourceFail_driven {s : State} {n : Nat} (assigned : s.get F.EXC_SRCn_STATUS n = 1) (driven : s.lines.src = true)
    (lt : s.get F.EXC_SRCn_PIN n < 96) (onset : Nat) : sourceFail s n onset =
      if (failed s n).flag F.EXC_MODE_AUTO_SPARE then substitute (failed s n) ⟨(failed s n).now, n, s.get F.EXC_SRCn_PIN n, onset, none⟩
      else monStart (failed s n) (s.get F.EXC_SRCn_PIN n / 2) onset 2 := by
  have go : ¬(s.get F.EXC_SRCn_STATUS n ≠ 1 ∨ (!s.lines.src) = true ∨ 96 ≤ s.get F.EXC_SRCn_PIN n) := by
    rw [assigned, driven]
    simpa using lt
  unfold sourceFail failed
  extract_lets pin t u v
  rw [if_neg go]
  rfl

theorem sourceFail_idle {s : State} {n : Nat} (h : s.get F.EXC_SRCn_STATUS n ≠ 1 ∨ s.lines.src = false) (onset : Nat) :
    sourceFail s n onset = s := by
  have stop : s.get F.EXC_SRCn_STATUS n ≠ 1 ∨ (!s.lines.src) = true ∨ 96 ≤ s.get F.EXC_SRCn_PIN n := by
    rcases h with h | h
    · exact .inl h
    · exact .inr (.inl (by rw [h]; rfl))
  unfold sourceFail
  rw [if_pos stop]

/-! ### The one failure of its tick (R63) -/

/-- The free sources, lowest first. -/
def freeList (w : State) : List Nat := (List.range nSources).filter (srcFree w)

/-- A source in another's place: routed to its pin in force and in the shadow copies, ASSIGNED, and counted; the samples since the onset
are INVALID. -/
def spareIn (w : State) (x : SrcFail) (m : Nat) : State :=
  let t := ((routeSrc (w.putSrcFails [{ x with spare := some m }]) x.pin m).set F.EXC_SRCn_STATUS m 1).set F.EXC_SRCn_PIN m x.pin
  (t.bump F.EXC_MON_SUBST_CNT).updChan (x.pin / 2) (fun c => { c with inval := (x.onset, w.now, 2) :: c.inval })

section
variable {w : State} {x : SrcFail} (alone : ∀ y ∈ w.srcFails, y.at_ ≠ w.now)
include alone

/-- No other failure of the tick shares the free sources. -/
theorem prior_none : w.srcFails.filter (fun y => y.at_ == w.now) = [] :=
  List.filter_eq_nil_iff.mpr fun y hy => by simpa using alone y hy

theorem substitute_spare {m : Nat} {ms : List Nat} (pool : freeList w = m :: ms) :
    substitute w x = excChange (spareIn w x m) (x.pin / 4) w.now .cpBlind := by
  have list : (List.range nSources).filter (fun k => srcFree w k || ([] : List SrcFail).any (fun y => y.spare == some k)) = m :: ms := by
    simpa only [List.any_nil, Bool.or_false, freeList] using pool
  unfold substitute
  rw [prior_none alone]
  dsimp only
  rw [list]
  have now (t : State) (pin k : Nat) : (routeSrc t pin k).now = t.now := rfl
  simp [failInsert, sparesGiven, forEach, spareIn, now]

theorem substitute_none (pool : freeList w = []) (plain : x.spare = none) :
    substitute w x = monStart ((w.putSrcFails [x]).set F.EXC_MON_NO_SPARE 0 1) (x.pin / 2) x.onset 2 := by
  have list : (List.range nSources).filter (fun k => srcFree w k || ([] : List SrcFail).any (fun y => y.spare == some k)) = [] := by
    simpa only [List.any_nil, Bool.or_false, freeList] using pool
  obtain ⟨tick, src, pin, onset, spare⟩ := x
  obtain rfl : spare = none := plain
  unfold substitute
  rw [prior_none alone]
  dsimp only
  rw [list]
  simp [failInsert, sparesGiven, forEach]

end

/-! ### What an excitation change leaves alone -/

theorem low_excChange (v : State) (p t : Nat) (cause : Cause) : (excChange v p t cause).seen lowKey = v.seen lowKey := by
  have entered : (enterBlind v p cause).part.low = v.part.low := by
    cases seen : (v.point p).blind with
    | true => rw [enterBlind_blind seen]
    | false =>
      rw [part_enterBlind seen]
      unfold blindMarks
      exact congrArg (·.2.2.2) (show (if usable v p then abandon v p else v).part.still = v.part.still by rw [still_if, still_abandon, ite_self])
  exact entered

theorem inval_excChange (v : State) (p t : Nat) (cause : Cause) (c : Nat) : ((excChange v p t cause).chan c).inval = (v.chan c).inval := by
  have maps : (excChange v p t cause).chans.map Chan.inval = v.chans.map Chan.inval := by
    cases seen : (v.point p).blind with
    | true =>
      unfold excChange
      rw [enterBlind_blind seen]
      rfl
    | false =>
      have left : (if usable v p then abandon v p else v).chans = v.chans :=
        chans_of_beside (q := p) (show (if usable v p then abandon v p else v).part.beside p = v.part.beside p by rw [beside_if, beside_abandon, ite_self])
      refine (congrArg (fun a : Part => a.chans.map Chan.inval) (part_enterBlind seen cause)).trans ?_
      rw [← left]
      unfold blindMarks
      exact Eq.trans (map_upd Chan.inval _ (2 * p + 1) fun _ => rfl) (map_upd Chan.inval _ (2 * p) fun _ => rfl)
  have at_ (u : State) : nth (u.chans.map Chan.inval) c = (u.chan c).inval := nth_map Chan.inval u.chans c rfl
  rw [← at_, ← at_, maps]

/-- After an excitation change the point is BLIND, and the present sample SETTLING, whether it was BLIND before or not. -/
theorem excChange_settling {v : State} {p : Nat} (pts : p < v.points.length) (chs : 2 * p + 1 < v.chans.length) (t : Nat) (cause : Cause) :
    ((excChange v p t cause).point p).blind = true ∧ settling ((excChange v p t cause).point p) (t / 1250) = true := by
  cases seen : (v.point p).blind with
  | true =>
    unfold excChange
    rw [enterBlind_blind seen, point_updPoint pts]
    refine ⟨seen, ?_⟩
    simp [settling, settleFrom]
    omega
  | false =>
    obtain ⟨marked, settled⟩ := excChange_marked seen pts chs t cause
    exact ⟨marked.blind, settled⟩

/-- What an excitation change on `v` leaves, judged on a state `s` that looks the same. -/
theorem excChange_looked {s v : State} {p : Nat} (lt : p < 24) (look : SameLook s v) (seq : (v.point p).seq = (s.point p).seq)
    (clock : clockNow v = clockNow s) (pts : v.points.length = 24) (chs : v.chans.length = 48) (cause : Cause) :
    ((s.point p).blind = false → BlindPoint s (excChange v p s.now cause) p)
    ∧ (clockNow s = [] → noHold s p → ∀ n, n < 48 →
      (∀ c, (n, c) ∈ blindDisturbs s p → (excChange v p s.now cause).get F.SECT_n_STATE_STATE n = 2)
      ∧ ((∀ c, (n, c) ∉ blindDisturbs s p) → (excChange v p s.now cause).get F.SECT_n_STATE_STATE n = s.get F.SECT_n_STATE_STATE n)) := by
  refine ⟨fun seen => ?_, fun clean quiet n ltn => ?_⟩
  · obtain ⟨marked, settled⟩ := excChange_marked ((look.blind p).trans seen) (by omega) (by omega) s.now cause
    refine ⟨marked.blind, marked.exc.trans (look.blindExempt p), settled, fun use => marked.idle ((look.usable p).trans use), ?_⟩
    rintro c (rfl | rfl)
    · exact marked.countA
    · exact marked.countB
  · have before : tileOf v n = tileOf s n := tileOf_of_tiles look.tiles ltn
    have state {t : State} : (tileOf t n).1 = t.get F.SECT_n_STATE_STATE n := rfl
    rw [← state, ← state, tileOf_excChange]
    cases seen : (s.point p).blind with
    | true =>
      rw [enterBlind_blind ((look.blind p).trans seen), before]
      exact ⟨fun c hc => absurd seen (by rw [((mem_blindDisturbs s p n c).mp hc).1.1]; exact Bool.false_ne_true), fun _ => rfl⟩
    | false =>
      have quiet' : noHold v p := by
        unfold noHold
        rw [seq]
        exact quiet
      obtain ⟨hit, miss⟩ := tileOf_enterBlind lt ((look.blind p).trans seen) quiet' (clock.trans clean) cause ltn
      rw [before] at hit miss
      refine ⟨fun c hc => ?_, fun out => ?_⟩
      · obtain ⟨watch, tile⟩ := hit c ((look.mem_blindDisturbs p ltn c).mpr hc)
        rw [tile]
        unfold stained
        split
        next was => exact was
        next => rfl
      · rw [miss fun c hc => out c ((look.mem_blindDisturbs p ltn c).mp hc)]

/-! ### What a spare in its place leaves -/

section
variable (w : State) (x : SrcFail) (m : Nat)

theorem spareIn_points : (spareIn w x m).points = w.points := rfl

theorem spareIn_point (p : Nat) : (spareIn w x m).point p = w.point p := by
  unfold State.point
  rw [spareIn_points]

/-- Every shadow copy of the pin's route names the spare (R63). -/
theorem spareIn_shadow (lt : m < 56) : ∀ h ∈ (spareIn w x m).hosts, ∀ e ∈ h.shadow, e.1 = 0x10100 + 4 * x.pin → e.2 % 64 = m := by
  have hosts : (spareIn w x m).hosts = w.hosts.map (fun h => { h with shadow := h.shadow.map (fun e =>
      if e.1 = 0x10100 + 4 * x.pin then (e.1, e.2 / 64 * 64 + m) else e) }) := rfl
  rw [hosts]
  intro h hh e he at_
  obtain ⟨g, -, rfl⟩ := List.mem_map.mp hh
  obtain ⟨f, -, rfl⟩ := List.mem_map.mp he
  split at at_
  next own =>
    rw [if_pos own]
    show (f.2 / 64 * 64 + m) % 64 = m
    omega
  next other => exact absurd at_ other

theorem spareIn_look : (∀ c, ((spareIn w x m).chan c).core = (w.chan c).core) ∧ (spareIn w x m).chans.length = w.chans.length := by
  refine ⟨fun c => ?_, List.length_modify _ _ _⟩
  have at_ (u : State) : nth (u.chans.map Chan.core) c = (u.chan c).core := nth_map Chan.core u.chans c rfl
  rw [← at_, ← at_]
  exact congrArg (nth · c) (map_upd Chan.core w.chans (x.pin / 2) fun _ => rfl)

theorem spareIn_inval (lt : x.pin / 2 < w.chans.length) : (x.onset, w.now, 2) ∈ ((spareIn w x m).chan (x.pin / 2)).inval := by
  have own : (spareIn w x m).chan (x.pin / 2) = { w.chan (x.pin / 2) with inval := (x.onset, w.now, 2) :: (w.chan (x.pin / 2)).inval } :=
    nth_upd_self lt _
  rw [own]
  exact List.mem_cons_self

theorem spareIn_front (ltm : m < 56) (ltp : x.pin < 96) : (spareIn w x m).front = w.front := by
  have sources := (by decide +kernel : ∀ m < 56, tileKey (F.EXC_SRCn_STATUS.key m) = false ∧ tileKey (F.EXC_SRCn_PIN.key m) = false)
  have routes := (by decide +kernel : ∀ p < 96, tileKey (F.EXC_ROUTEp_SRC.key p) = false)
  obtain ⟨status, pin⟩ := sources m ltm
  have routed : (routeSrc (w.putSrcFails [{ x with spare := some m }]) x.pin m).front = w.front :=
    front_write.1 w F.EXC_ROUTEp_SRC x.pin m (routes x.pin ltp)
  unfold spareIn State.bump
  rw [front_write.2.2.2.2.2.2, front_write.1 _ _ _ _ (by decide), front_write.1 _ _ _ _ pin, front_write.1 _ _ _ _ status, routed]

/-- The registers of the spare, the route and the counter, and those of another source. -/
theorem spareIn_gets {n : Nat} (ltn : n < 56) (ltm : m < 56) (ltp : x.pin < 96) (ne : n ≠ m) :
    ((spareIn w x m).get F.EXC_SRCn_STATUS n = w.get F.EXC_SRCn_STATUS n ∧ (spareIn w x m).get F.EXC_SRCn_PIN n = w.get F.EXC_SRCn_PIN n)
    ∧ ((spareIn w x m).get F.EXC_ROUTEp_SRC x.pin = m ∧ (spareIn w x m).get F.EXC_SRCn_STATUS m = 1
      ∧ (spareIn w x m).get F.EXC_SRCn_PIN m = x.pin)
    ∧ (spareIn w x m).get F.EXC_MON_SUBST_CNT = satInc F.EXC_MON_SUBST_CNT.width (w.get F.EXC_MON_SUBST_CNT)
    ∧ (spareIn w x m).get F.EXC_MON_NO_SPARE = w.get F.EXC_MON_NO_SPARE := by
  have read (f : Fld) (i : Nat) : (spareIn w x m).get f i = ((((w.set F.EXC_ROUTEp_SRC x.pin m).set F.EXC_SRCn_STATUS m 1).set
      F.EXC_SRCn_PIN m x.pin).bump F.EXC_MON_SUBST_CNT).get f i := rfl
  have counter : F.EXC_MON_NO_SPARE.key 0 ≠ F.EXC_MON_SUBST_CNT.key 0 := by decide
  have top : satInc F.EXC_MON_SUBST_CNT.width (w.get F.EXC_MON_SUBST_CNT) < 2 ^ F.EXC_MON_SUBST_CNT.width := by
    unfold satInc
    split
    · assumption
    · exact Nat.sub_lt (by decide) (by decide)
  obtain ⟨same, statusPin, -, -, statusRoute, pinRoute, cnt, cnt', cntRoute, no, no', noRoute, -⟩ := source_keys_apart ltm ltm ltp
  obtain ⟨other, otherPin, -, -, otherRoute, otherPinRoute, otherCnt, otherCnt', -⟩ := source_keys_apart ltn ltm ltp
  obtain ⟨-, pinStatus, -⟩ := source_keys_apart ltm ltn ltp
  simp only [read, State.bump]
  refine ⟨⟨?_, ?_⟩, ⟨?_, ?_, ?_⟩, ?_, ?_⟩
  · rw [State.get_set_ne _ _ otherCnt.symm, State.get_set_ne _ _ otherPin, State.get_set_ne _ _ (other ne).1, State.get_set_ne _ _ otherRoute]
  · rw [State.get_set_ne _ _ otherCnt'.symm, State.get_set_ne _ _ (other ne).2, State.get_set_ne _ _ pinStatus.symm,
      State.get_set_ne _ _ otherPinRoute]
  · rw [State.get_set_ne _ _ cntRoute.symm, State.get_set_ne _ _ pinRoute.symm, State.get_set_ne _ _ statusRoute.symm, State.get_set_self]
    exact Nat.mod_eq_of_lt (show m < 64 by omega)
  · rw [State.get_set_ne _ _ cnt.symm, State.get_set_ne _ _ statusPin, State.get_set_self]
    rfl
  · rw [State.get_set_ne _ _ cnt'.symm, State.get_set_self]
    exact Nat.mod_eq_of_lt (show x.pin < 128 by omega)
  · rw [State.get_set_self, State.get_set_ne _ _ cnt', State.get_set_ne _ _ cnt, State.get_set_ne _ _ cntRoute]
    exact Nat.mod_eq_of_lt top
  · rw [State.get_set_ne _ _ counter, State.get_set_ne _ _ no', State.get_set_ne _ _ no, State.get_set_ne _ _ noRoute]

end

/-! ### The statement -/

/-- The lowest free source heads the list. -/
theorem freeList_head {w : State} {m : Nat} (lt : m < 56) (free : srcFree w m = true) (least : ∀ j < m, srcFree w j = false) :
    ∃ ms, freeList w = m :: ms := by
  have mem : m ∈ freeList w := List.mem_filter.mpr ⟨List.mem_range.mpr lt, free⟩
  have sorted : (freeList w).Pairwise (· < ·) := List.pairwise_lt_range.filter _
  have own : ∀ j ∈ freeList w, srcFree w j = true := fun j hj => (List.mem_filter.mp hj).2
  cases e : freeList w with
  | nil => rw [e] at mem; exact absurd mem List.not_mem_nil
  | cons a ms =>
    rw [e] at mem sorted own
    rcases List.mem_cons.mp mem with rfl | later
    · exact ⟨ms, rfl⟩
    · have below : a < m := (List.pairwise_cons.mp sorted).1 m later
      exact absurd (own a List.mem_cons_self) (by rw [least a below]; exact Bool.false_ne_true)

theorem lowKey_source : (∀ m < 56, lowKey (F.EXC_SRCn_STATUS.key m) = true ∧ lowKey (F.EXC_SRCn_PIN.key m) = true)
    ∧ (∀ p < 96, lowKey (F.EXC_ROUTEp_SRC.key p) = true) ∧ lowKey (F.EXC_MON_SUBST_CNT.key 0) = true
    ∧ lowKey (F.EXC_MON_NO_SPARE.key 0) = true := by
  decide +kernel

/-- A spare in a failed source's place looks as the state before the failure did. -/
theorem spareIn_failed_look (s : State) {n m : Nat} (x : SrcFail) (ltn : n < 56) (ltm : m < 56) (ltp : x.pin < 96) :
    SameLook s (spareIn (failed s n) x m) := by
  have front := (spareIn_front (failed s n) x m ltm ltp).trans (failed_front s n ltn)
  refine ⟨fun c => ((spareIn_look (failed s n) x m).1 c).trans ?_, fun q => ?_, tiles_of_front front⟩
  · unfold State.chan
    rw [failed_chans]
  · rw [spareIn_point]
    exact (failed_point s n q).1

section
variable {s : State} {n m : Nat} {x : SrcFail} (ltn : n < 56) (ltm : m < 56) (ltp : x.pin < 96) (ne : n ≠ m)
include ltn ltm ltp ne

/-- The registers after a substitution. -/
theorem substituted_gets : let u := excChange (spareIn (failed s n) x m) (x.pin / 4) s.now .cpBlind
    u.get F.EXC_SRCn_STATUS n = 2 ∧ u.get F.EXC_SRCn_PIN n = 127 ∧ u.get F.EXC_ROUTEp_SRC x.pin = m ∧ u.get F.EXC_SRCn_STATUS m = 1
    ∧ u.get F.EXC_SRCn_PIN m = x.pin ∧ u.get F.EXC_MON_SUBST_CNT = satInc F.EXC_MON_SUBST_CNT.width (s.get F.EXC_MON_SUBST_CNT)
    ∧ u.get F.EXC_MON_NO_SPARE = s.get F.EXC_MON_NO_SPARE := by
  intro u
  have low {f : Fld} {i : Nat} (h : lowKey (f.key i) = true) : u.get f i = (spareIn (failed s n) x m).get f i :=
    get_of_seen (low_excChange _ _ _ _) h
  obtain ⟨sources, routes, counter, none_⟩ := lowKey_source
  obtain ⟨⟨status, pin⟩, ⟨route, spare, sparePin⟩, count, noSpare⟩ := spareIn_gets (failed s n) x m ltn ltm ltp ne
  obtain ⟨two, off⟩ := failed_own (s := s) ltn
  obtain ⟨-, cnt, no, -⟩ := failed_others (s := s) ltn
  rw [low (sources n ltn).1, low (sources n ltn).2, low (routes _ ltp), low (sources m ltm).1, low (sources m ltm).2, low counter, low none_,
    status, pin, route, spare, sparePin, count, noSpare, two, off, cnt, no]
  exact ⟨rfl, rfl, rfl, rfl, rfl, rfl, rfl⟩

end

/-- The shadow copies after a substitution. -/
theorem substituted_shadow (s : State) {n m : Nat} (x : SrcFail) (ltm : m < 56) (t : Nat) :
    ∀ h ∈ (excChange (spareIn (failed s n) x m) (x.pin / 4) t .cpBlind).hosts, ∀ e ∈ h.shadow, e.1 = 0x10100 + 4 * x.pin → e.2 % 64 = m := by
  obtain ⟨-, -, hosts⟩ := outer_fails (outer_excChange (spareIn (failed s n) x m) (x.pin / 4) t .cpBlind)
  rw [hosts]
  exact spareIn_shadow (failed s n) x m ltm

/-- The channel, the point and the sections after a substitution. -/
theorem substituted_point {s : State} {n m : Nat} {x : SrcFail} (ltn : n < 56) (ltm : m < 56) (ltp : x.pin < 96)
    (pts : s.points.length = 24) (chs : s.chans.length = 48) :
    let u := excChange (spareIn (failed s n) x m) (x.pin / 4) s.now .cpBlind
    (x.onset, s.now, 2) ∈ (u.chan (x.pin / 2)).inval ∧ (u.point (x.pin / 4)).blind = true
    ∧ settling (u.point (x.pin / 4)) (s.now / 1250) = true
    ∧ ((s.point (x.pin / 4)).blind = false → BlindPoint s u (x.pin / 4))
    ∧ (clockNow s = [] → noHold s (x.pin / 4) → ∀ k, k < 48 →
      (∀ c, (k, c) ∈ blindDisturbs s (x.pin / 4) → u.get F.SECT_n_STATE_STATE k = 2)
      ∧ ((∀ c, (k, c) ∉ blindDisturbs s (x.pin / 4)) → u.get F.SECT_n_STATE_STATE k = s.get F.SECT_n_STATE_STATE k)) := by
  intro u
  obtain ⟨now, -⟩ := failed_reads s n
  have points : (spareIn (failed s n) x m).points.length = 24 := by rw [spareIn_points, failed_length, pts]
  have chans : (failed s n).chans.length = 48 := by rw [failed_chans, chs]
  have chans' : (spareIn (failed s n) x m).chans.length = 48 := (spareIn_look (failed s n) x m).2.trans chans
  have lt : x.pin / 4 < 24 := by omega
  have seq : ((spareIn (failed s n) x m).point (x.pin / 4)).seq = (s.point (x.pin / 4)).seq := by
    rw [spareIn_point]
    exact (failed_point s n _).2
  have clock : clockNow (spareIn (failed s n) x m) = clockNow s :=
    clockNow_of_front ((spareIn_front (failed s n) x m ltm ltp).trans (failed_front s n ltn))
  have look := spareIn_failed_look s x ltn ltm ltp
  have told := spareIn_inval (failed s n) x m (by omega)
  rw [now] at told
  have kept := inval_excChange (spareIn (failed s n) x m) (x.pin / 4) s.now .cpBlind (x.pin / 2)
  unfold u
  clear u
  generalize spareIn (failed s n) x m = v at *
  obtain ⟨blind, settled⟩ := excChange_settling (v := v) (p := x.pin / 4) (by omega) (by omega) s.now .cpBlind
  obtain ⟨entered, sections⟩ := excChange_looked lt look seq clock points chans' .cpBlind
  exact ⟨by rw [kept]; exact told, blind, settled, entered, sections⟩

/-- Settles O21. -/
theorem sourceFailureWithoutSpare : Obligations.SourceFailureWithoutSpare := by
  intro s src onset lines
  have ltn := src.isLt
  have run : exec (.sourceFailure src onset) s = .next (settled s (sourceFail s src.val onset)) := rfl
  obtain ⟨now, fails⟩ := failed_reads s src.val
  have auto := (failed_others (s := s) ltn).2.2.2
  refine ⟨fun assigned driven ltp off => ?_,
    fun idle => answers_of (run.trans (congrArg (answer s) (sourceFail_idle idle onset))) lines.steady, fun assigned driven ltp on => ?_⟩
  · rw [run, sourceFail_driven assigned driven ltp, auto, off, if_neg Bool.false_ne_true]
    unfold failed
    rfl
  · intro pin w x
    have own : w = failed s src.val := rfl
    have shared : exec (.sourceFailure src onset) s = .next (settled s (substitute w x)) := by
      rw [run, sourceFail_driven assigned driven ltp, auto, on, if_pos rfl, now, own]
    refine ⟨shared, fun alone => ?_⟩
    clear_value w
    rw [own] at shared
    have alone' : ∀ y ∈ (failed s src.val).srcFails, y.at_ ≠ (failed s src.val).now := by
      rw [now, fails]
      exact alone
    refine ⟨fun none_ => ?_, fun m ltm free least => ?_⟩
    · have pool : freeList (failed s src.val) = [] := List.filter_eq_nil_iff.mpr fun k hk => by
        rw [failed_free ltn assigned (List.mem_range.mp hk), none_ k (List.mem_range.mp hk)]
        exact Bool.false_ne_true
      rw [shared, own, substitute_none alone' pool rfl]
    · have ne : src.val ≠ m := by
        rintro rfl
        unfold srcFree at free
        rw [assigned] at free
        exact absurd free (by simp)
      obtain ⟨ms, pool⟩ := freeList_head ltm ((failed_free ltn assigned ltm).trans free) fun j lt =>
        (failed_free ltn assigned (by omega)).trans (least j lt)
      have spared := substitute_spare (x := x) alone' pool
      rw [now] at spared
      obtain ⟨status, off, route, spare, sparePin, count, noSpare⟩ := substituted_gets (s := s) (x := x) ltn ltm ltp ne
      exact ⟨excChange (spareIn (failed s src.val) x m) (x.pin / 4) s.now .cpBlind, by rw [shared, spared], status, off, route, spare, sparePin,
        substituted_shadow s x ltm s.now, count, noSpare, fun pts chs => substituted_point (x := x) ltn ltm ltp pts chs⟩

end Sys2Proof.Machine
end

section
/-!
PROOFS. Calibration pairs (R78, R79), reference captures (R80, R81) and snapshots (R88 to R90). Settles O25, O26 and O27.
-/

namespace Sys2Proof.Machine

/-! ### Calibration pairs (R78, R79) -/

theorem key_calibration : ∀ c < 48,
    (drivesSource (F.MEAS_CHn_OFFS_I_OFFS.key c) = false ∧ drivesSource (F.MEAS_CHn_OFFS_Q_OFFS.key c) = false
      ∧ drivesSource (F.MEAS_CHn_CFG_OFFS_VALID.key c) = false ∧ drivesSource (F.MEAS_CHn_CFG_CAL_BAD.key c) = false)
    ∧ (quietKey (F.MEAS_CHn_OFFS_I_OFFS.key c) = true ∧ quietKey (F.MEAS_CHn_OFFS_Q_OFFS.key c) = true
      ∧ quietKey (F.MEAS_CHn_CFG_OFFS_VALID.key c) = true ∧ quietKey (F.MEAS_CHn_CFG_CAL_BAD.key c) = true) := by
  decide +kernel

/-- The fields that an accepted pair writes lie apart. -/
theorem key_offsets_apart (c d : Nat) : F.MEAS_CHn_OFFS_I_OFFS.key c ≠ F.MEAS_CHn_OFFS_Q_OFFS.key d
    ∧ (c ≠ d → F.MEAS_CHn_OFFS_I_OFFS.key c ≠ F.MEAS_CHn_OFFS_I_OFFS.key d) := by
  simp only [Fld.key, F.MEAS_CHn_OFFS_I_OFFS, F.MEAS_CHn_OFFS_Q_OFFS]
  omega

theorem key_flags_apart : ∀ c < 48, ∀ d < 48,
    F.MEAS_CHn_OFFS_I_OFFS.key c ≠ F.MEAS_CHn_CFG_OFFS_VALID.key d ∧ F.MEAS_CHn_OFFS_I_OFFS.key c ≠ F.MEAS_CHn_CFG_CAL_BAD.key d
    ∧ F.MEAS_CHn_OFFS_Q_OFFS.key c ≠ F.MEAS_CHn_CFG_OFFS_VALID.key d ∧ F.MEAS_CHn_OFFS_Q_OFFS.key c ≠ F.MEAS_CHn_CFG_CAL_BAD.key d
    ∧ F.MEAS_CHn_CFG_OFFS_VALID.key c ≠ F.MEAS_CHn_CFG_CAL_BAD.key d := by
  decide +kernel

/-- A pair accepted: the offsets it leaves, with its running sums. -/
def pairAccepted (s : State) (c : Nat) (sum : Int × Int × Nat) : State :=
  let t := s.updChan c (fun x => { x with calSum := sum })
  (((t.set F.MEAS_CHn_OFFS_I_OFFS c (fitS 32 (qdiv sum.1 sum.2.2))).set F.MEAS_CHn_OFFS_Q_OFFS c (fitS 32 (qdiv sum.2.1 sum.2.2))).set
    F.MEAS_CHn_CFG_OFFS_VALID c 1).set F.MEAS_CHn_CFG_CAL_BAD c 0

theorem pairAccepted_steady {s : State} (h : DriveSteady s) {c : Nat} (lt : c < 48) (sum : Int × Int × Nat) :
    DriveSteady (pairAccepted s c sum) := by
  obtain ⟨⟨i, q, valid, bad⟩, -⟩ := key_calibration c lt
  have begun : DriveSteady (s.updChan c (fun x => { x with calSum := sum })) := h
  exact (((begun.set i).set q).set valid).set bad

/-- The registers of the channel after an accepted pair. -/
theorem pairAccepted_get (s : State) {c : Nat} (lt : c < 48) (sum : Int × Int × Nat) :
    (pairAccepted s c sum).get F.MEAS_CHn_OFFS_I_OFFS c = fitS 32 (qdiv sum.1 sum.2.2) % 2 ^ 32
    ∧ (pairAccepted s c sum).get F.MEAS_CHn_OFFS_Q_OFFS c = fitS 32 (qdiv sum.2.1 sum.2.2) % 2 ^ 32
    ∧ (pairAccepted s c sum).get F.MEAS_CHn_CFG_OFFS_VALID c = 1 ∧ (pairAccepted s c sum).get F.MEAS_CHn_CFG_CAL_BAD c = 0 := by
  obtain ⟨iv, ib, qv, qb, vb⟩ := key_flags_apart c lt c lt
  obtain ⟨iq, -⟩ := key_offsets_apart c c
  unfold pairAccepted
  refine ⟨?_, ?_, ?_, ?_⟩
  · rw [State.get_set_ne _ _ ib, State.get_set_ne _ _ iv, State.get_set_ne _ _ iq]
    exact State.get_set_self _ _ _ _
  · rw [State.get_set_ne _ _ qb, State.get_set_ne _ _ qv]
    exact State.get_set_self _ _ _ _
  · rw [State.get_set_ne _ _ vb]
    exact State.get_set_self _ _ _ _
  · exact State.get_set_self _ _ _ _

theorem pairAccepted_get_ne (s : State) {c d : Nat} (lt : c < 48) (ltd : d < 48) (ne : d ≠ c) (sum : Int × Int × Nat) :
    (pairAccepted s c sum).get F.MEAS_CHn_OFFS_I_OFFS d = s.get F.MEAS_CHn_OFFS_I_OFFS d := by
  obtain ⟨iv, ib, -⟩ := key_flags_apart d ltd c lt
  obtain ⟨iq, ii⟩ := key_offsets_apart d c
  unfold pairAccepted
  rw [State.get_set_ne _ _ ib, State.get_set_ne _ _ iv, State.get_set_ne _ _ iq, State.get_set_ne _ _ (ii ne)]
  rfl

/-- The frames of a channel's pair are over. -/
def pairOver (s : State) (c : Nat) : State :=
  s.updChan c (fun x => { x with calP := none, calN := none, calState := none, calMixed := false })

/-- The channel held one of the states READY or parked throughout, and both frames hold quiet samples (R78). -/
def pairGood (ch : Chan) (a b : CalFrame) : Bool :=
  let st := ch.calState.getD 7
  !ch.calMixed && (st == 0 || st == 2 || st == 3 || st == 4) && a.n != 0 && b.n != 0 && !a.noisy && !b.noisy

/-- The running sums with the offsets of one more pair (R79). -/
def pairSums (ch : Chan) (a b : CalFrame) : Int × Int × Nat :=
  (ch.calSum.1 + qdiv (a.si * b.n + b.si * a.n) (2 * a.n * b.n), ch.calSum.2.1 + qdiv (a.sq * b.n + b.sq * a.n) (2 * a.n * b.n),
    ch.calSum.2.2 + 1)

theorem calPairEnd_eq {s : State} {c : Nat} {a b : CalFrame} (p : (s.chan c).calP = some a) (n : (s.chan c).calN = some b) :
    calPairEnd s c = if pairGood (s.chan c) a b then pairAccepted (pairOver s c) c (pairSums (s.chan c) a b)
      else ((pairOver s c).set F.MEAS_CHn_CFG_CAL_BAD c 1).set F.MEAS_STATUS_OFFS_ERR 0 1 := by
  unfold calPairEnd
  simp only [p, n]
  rfl

theorem chan_pairAccepted_ne (s : State) {c d : Nat} (ne : d ≠ c) (sum : Int × Int × Nat) : (pairAccepted (pairOver s c) c sum).chan d = s.chan d :=
  (chan_updChan_ne (pairOver s c) ne.symm _).trans (chan_updChan_ne s ne.symm _)

/-- Settles O25: the pair is accepted or not as `pairGood` says, and what either writes settling leaves alone. -/
theorem calibrationPairs : Obligations.CalibrationPairs := by
  intro s ch a b lines counting at_ even p n st good oi oq count idle
  have lt := ch.isLt
  have run : exec (.calPairEnd ch) s = answer s (if pairGood (s.chan ch.val) a b then pairAccepted (pairOver s ch.val) ch.val (pairSums (s.chan ch.val) a b)
      else ((pairOver s ch.val).set F.MEAS_CHn_CFG_CAL_BAD ch.val 1).set F.MEAS_STATUS_OFFS_ERR 0 1) := by
    refine (congrArg (answer s) (if_pos ?_)).trans (congrArg (answer s) (calPairEnd_eq p n))
    rw [at_, counting, even]
    rfl
  have ended : DriveSteady (pairOver s ch.val) := lines.steady
  obtain ⟨⟨-, -, -, bad⟩, quiet⟩ := key_calibration ch.val lt
  refine ⟨fun accepted => ?_, fun refused => ?_⟩
  · rw [if_pos (show pairGood (s.chan ch.val) a b = true from accepted)] at run
    have steady := pairAccepted_steady ended lt (pairSums (s.chan ch.val) a b)
    obtain ⟨i, q, valid, clean⟩ := pairAccepted_get (pairOver s ch.val) lt (pairSums (s.chan ch.val) a b)
    refine ⟨_, run, ?_, ?_, ?_, ?_, fun d ltd ne => ⟨?_, ?_⟩⟩
    · exact (settled_get_quiet steady _ _ quiet.1).trans i
    · exact (settled_get_quiet steady _ _ quiet.2.1).trans q
    · exact (settled_get_quiet steady _ _ quiet.2.2.1).trans valid
    · exact (settled_get_quiet steady _ _ quiet.2.2.2).trans clean
    · exact (settled_get_quiet steady _ _ (key_calibration d ltd).2.1).trans (pairAccepted_get_ne _ lt ltd ne _)
    · have channels : (settled s (pairAccepted (pairOver s ch.val) ch.val (pairSums (s.chan ch.val) a b))).chans
          = (pairAccepted (pairOver s ch.val) ch.val (pairSums (s.chan ch.val) a b)).chans :=
        (settled_chans s _).trans ((settle_keeps _ steady).reads State.chans fun _ => rfl)
      exact (congrArg (nth · d) channels).trans (chan_pairAccepted_ne s ne _)
  · rw [if_neg (show ¬pairGood (s.chan ch.val) a b = true from fun h => Bool.noConfusion (refused.symm.trans h))] at run
    exact answers_of run ((ended.set bad).set (by decide))

/-! ### Reference captures (R80, R81) -/

theorem syncRefBusy_steady {s : State} (h : DriveSteady s) : DriveSteady (syncRefBusy s) := h.set (by decide)

theorem key_reference : ∀ c < 48, drivesSource (F.MEAS_CHn_REF_REF_AMP.key c) = false ∧ drivesSource (F.MEAS_CHn_REF_REF_PHASE.key c) = false := by
  decide +kernel

theorem refDone_complete {s : State} {c k0 : Nat} {i q : Int} (h : (s.chan c).refCap = some (k0, 4800, i, q)) : refDone s c =
    syncRefBusy (((s.updChan c (fun x => { x with refCap := none })).set F.MEAS_CHn_REF_REF_AMP c
      (fitU 16 (ratRoot (((i * i + q * q : Int) : Rat) / ((4800 * 4800 * 2 ^ 30 : Nat) : Rat)) : Nat))).set F.MEAS_CHn_REF_REF_PHASE c
        (Config.phaseOf i q)) := by
  unfold refDone
  rw [h]
  rfl

theorem refLate_late {s : State} {c k0 n : Nat} {i q : Int} (h : (s.chan c).refCap = some (k0, n, i, q)) (short : n ≠ 4800)
    (late : k0 + 48000 ≤ (s.chan c).kNext) : refLate s c = refFail s c := by
  unfold refLate
  rw [h]
  exact if_pos ⟨short, late⟩

/-- Settles O26: the command starts captures in COMMISSIONING alone, and a capture ends complete or late. -/
theorem referenceCapture : Obligations.ReferenceCapture := by
  intro s lines
  refine ⟨fun p ch all up => ⟨fun other => ?_, fun comm => ?_⟩, fun ch k0 i q complete => ?_, fun ch k0 n i q run short late => ?_⟩
  · exact answers_of (congrArg (answer s) ((gate_up up _).trans (if_pos other))) (lines.steady.accErr _ _ _ _)
  · refine answers_of (congrArg (answer s) ((gate_up up _).trans (if_neg (not_not.mpr comm)))) ?_
    exact forEach_holds (P := DriveSteady) (fun t c h => syncRefBusy_steady (s := t.updChan c _) h) _ lines.steady
  · obtain ⟨amp, phase⟩ := key_reference ch.val ch.isLt
    have begun : DriveSteady (s.updChan ch.val (fun x => { x with refCap := none })) := lines.steady
    exact answers_of (congrArg (answer s) (refDone_complete complete)) (syncRefBusy_steady ((begun.set amp).set phase))
  · have begun : DriveSteady (s.updChan ch.val (fun x => { x with refCap := none })) := lines.steady
    exact answers_of (congrArg (answer s) (refLate_late run short late)) ((syncRefBusy_steady begun).set (by decide))

/-! ### Snapshots (R88 to R90) -/

section
variable {s u t : State}

/-- A field that settling leaves alone reads as the command's own effect has it. -/
theorem Result.get (h : Result s u t) (f : Fld) (i : Nat) (q : quietKey (f.key i) = true) : t.get f i = u.get f i := h.keeps.get f i q

theorem Result.snap (h : Result s u t) : t.snap = u.snap := h.keeps.reads State.snap fun _ => rfl

end

/-- The command spells GO, with its source. -/
theorem snapReq_word (src : BitVec 2) :
    inWord F.MEAS_SNAP_REQ_SRC (16 * src.toNat + 1) = src.toNat ∧ inWord F.MEAS_SNAP_REQ_GO (16 * src.toNat + 1) = 1 := by
  revert src
  decide

/-- A snapshot begun for a port (R88). -/
def snapStart (s : State) (p : HPort) (src : Nat) : State :=
  ((((s.set F.MEAS_SNAP_REQ_SRC 0 src).set F.MEAS_STATUS_SNAP_DONE 0 0).set F.MEAS_STATUS_SNAP_BUSY 0 1).set F.MEAS_STATUS_SNAP_PORT 0 p.toNat).putSnap
    (some ⟨(s.now + 1249) / 1250, src, s.get F.MEAS_SNAP_MASK0_MASK + 2 ^ 32 * s.get F.MEAS_SNAP_MASK1_MASK, []⟩)

theorem snapReq_runs {s : State} (h : s.snap.isSome = true) (p : HPort) (src : BitVec 2) :
    snapReq s p (16 * src.toNat + 1) = s.set F.MEAS_STATUS_SNAP_REFUSED 0 1 := by
  obtain ⟨source, go⟩ := snapReq_word src
  simp [snapReq, snapGo, source, go, h]

theorem snapReq_refused {s : State} (h : s.snap = none) (p : HPort) {src : BitVec 2} (three : src.toNat = 3) :
    snapReq s p (16 * src.toNat + 1) = (s.set F.MEAS_SNAP_REQ_SRC 0 src.toNat).set F.MEAS_STATUS_SNAP_REFUSED 0 1 := by
  obtain ⟨source, go⟩ := snapReq_word src
  simp only [snapReq, snapGo, source, go, h]
  simp [three]

theorem snapReq_starts {s : State} (h : s.snap = none) (p : HPort) {src : BitVec 2} (known : src.toNat ≠ 3) :
    snapReq s p (16 * src.toNat + 1) = snapStart s p src.toNat := by
  obtain ⟨source, go⟩ := snapReq_word src
  have mask {f : Fld} (h : f.key 0 ≠ F.MEAS_SNAP_REQ_SRC.key 0) : (s.set F.MEAS_SNAP_REQ_SRC 0 src.toNat).get f = s.get f :=
    State.get_set_ne s _ h
  simp [snapReq, snapGo, snapStart, source, go, h, known, mask (f := F.MEAS_SNAP_MASK0_MASK) (by decide), mask (f := F.MEAS_SNAP_MASK1_MASK) (by decide)]

theorem snapStart_steady {s : State} (h : DriveSteady s) (p : HPort) (src : Nat) : DriveSteady (snapStart s p src) :=
  show DriveSteady ((((s.set F.MEAS_SNAP_REQ_SRC 0 src).set F.MEAS_STATUS_SNAP_DONE 0 0).set F.MEAS_STATUS_SNAP_BUSY 0 1).set
    F.MEAS_STATUS_SNAP_PORT 0 p.toNat) from
  (((h.set (by decide)).set (by decide)).set (by decide)).set (by decide)

theorem snapStart_get (s : State) (p : HPort) (src : BitVec 2) :
    (snapStart s p src.toNat).get F.MEAS_STATUS_SNAP_BUSY = 1 ∧ (snapStart s p src.toNat).get F.MEAS_STATUS_SNAP_DONE = 0
    ∧ (snapStart s p src.toNat).get F.MEAS_STATUS_SNAP_PORT = p.toNat ∧ (snapStart s p src.toNat).get F.MEAS_SNAP_REQ_SRC = src.toNat := by
  unfold snapStart
  simp only [State.get_putSnap]
  refine ⟨?_, ?_, ?_, ?_⟩
  · rw [State.get_set_ne _ _ (by decide)]
    exact State.get_set_self _ _ _ _
  · rw [State.get_set_ne _ _ (by decide), State.get_set_ne _ _ (by decide)]
    exact State.get_set_self _ _ _ _
  · refine (State.get_set_self _ _ _ _).trans ?_
    cases p <;> rfl
  · rw [State.get_set_ne _ _ (by decide), State.get_set_ne _ _ (by decide), State.get_set_ne _ _ (by decide)]
    exact (State.get_set_self _ _ _ _).trans (Nat.mod_eq_of_lt src.isLt)

/-! A 40-bit pair reads back what was written. -/

theorem get40_set40 (s : State) {f : Fld} (wide : f.width = 32) (i : Nat) {v : Nat} (lt : v < 2 ^ 40) : (s.set40 f i v).get40 f i = v := by
  have apart : f.key i ≠ ({ f with bit := f.bit + 32, width := 8 } : Fld).key i := by
    simp only [Fld.key]
    omega
  unfold State.get40 State.set40
  rw [State.get_set_ne _ _ apart, State.get_set_self, State.get_set_self, wide]
  show v % 2 ^ 32 % 2 ^ 32 + 2 ^ 32 * (v / 2 ^ 32 % 2 ^ 8) = v
  omega

/-- A write elsewhere leaves a 40-bit pair. -/
theorem get40_set_ne (s : State) {f g : Fld} {i j : Nat} (v : Nat) (low : g.key j ≠ f.key i)
    (high : ({ g with bit := g.bit + 32, width := 8 } : Fld).key j ≠ f.key i) : (s.set f i v).get40 g j = s.get40 g j := by
  unfold State.get40
  rw [State.get_set_ne _ _ low, State.get_set_ne _ _ high]

/-- What a snapshot writes of a channel (R90): its latched value with its tag, or 0 with tag NOT SELECTED. -/
def snapShown (vals : List (Nat × Int × Nat)) (c : Nat) : Nat × Nat :=
  match vals.find? (fun v => v.1 == c) with
  | some v => (ofSigned 40 v.2.1, v.2.2)
  | none => (0, 8)

theorem snapShown_some {vals : List (Nat × Int × Nat)} {c : Nat} {v : Nat × Int × Nat} (found : vals.find? (fun v => v.1 == c) = some v) :
    snapShown vals c = (ofSigned 40 v.2.1, v.2.2) := by
  unfold snapShown
  rw [found]

theorem snapShown_none {vals : List (Nat × Int × Nat)} {c : Nat} (found : vals.find? (fun v => v.1 == c) = none) :
    snapShown vals c = (0, 8) := by
  unfold snapShown
  rw [found]

/-- A channel of a snapshot written out. -/
def snapPut (vals : List (Nat × Int × Nat)) (s : State) (c : Nat) : State :=
  (s.set40 F.MEAS_SNAP_CHn_L_VALUE c (snapShown vals c).1).set F.MEAS_SNAP_TAGk_TAG c (snapShown vals c).2

/-- A snapshot written out (R88). -/
def snapOut (s : State) (sn : Snap) : State :=
  ((((forN 48 s (snapPut sn.vals)).set40 F.MEAS_SNAP_TS_L_TS 0 (ts40 (1250 * sn.k))).set F.MEAS_STATUS_SNAP_DONE 0 1).set
    F.MEAS_STATUS_SNAP_BUSY 0 0).putSnap none

theorem snapShown_lt (vals : List (Nat × Int × Nat)) (c : Nat) : (snapShown vals c).1 < 2 ^ 40 := by
  unfold snapShown
  split
  · unfold ofSigned
    omega
  · decide

theorem snapDone_none {s : State} (h : s.snap = none) : Sys2Proof.Machine.snapDone s = s := by
  unfold Sys2Proof.Machine.snapDone
  rw [h]

theorem snapDone_lacks {s : State} {sn : Snap} (h : s.snap = some sn)
    (lacks : ∃ c, c < 48 ∧ bitAt sn.mask c = true ∧ ∀ v, v ∈ sn.vals → v.1 ≠ c) : Sys2Proof.Machine.snapDone s = s := by
  obtain ⟨c, lt, selected, none_⟩ := lacks
  unfold Sys2Proof.Machine.snapDone
  rw [h]
  refine if_neg fun all => ?_
  obtain ⟨v, hv, own⟩ := List.any_eq_true.mp (List.all_eq_true.mp all c (List.mem_filter.mpr ⟨List.mem_range.mpr lt, selected⟩))
  exact none_ v hv (eq_of_beq own)

theorem snapDone_full {s : State} {sn : Snap} (h : s.snap = some sn)
    (full : ∀ c, c < 48 → bitAt sn.mask c = true → ∃ v, v ∈ sn.vals ∧ v.1 = c) : Sys2Proof.Machine.snapDone s = snapOut s sn := by
  have write : (fun (s : State) (c : Nat) =>
      match sn.vals.find? (fun v => v.1 == c) with
      | some v => (s.setS40 F.MEAS_SNAP_CHn_L_VALUE c v.2.1).set F.MEAS_SNAP_TAGk_TAG c v.2.2
      | none => (s.set40 F.MEAS_SNAP_CHn_L_VALUE c 0).set F.MEAS_SNAP_TAGk_TAG c 8) = snapPut sn.vals := by
    funext t c
    unfold snapPut snapShown
    cases sn.vals.find? (fun v => v.1 == c) with
    | none => rfl
    | some v => rfl
  unfold Sys2Proof.Machine.snapDone
  rw [h]
  refine (if_pos (List.all_eq_true.mpr fun c hc => ?_)).trans (congrArg (fun f => ((((forN 48 s f).set40 F.MEAS_SNAP_TS_L_TS 0
    (ts40 (1250 * sn.k))).set F.MEAS_STATUS_SNAP_DONE 0 1).set F.MEAS_STATUS_SNAP_BUSY 0 0).putSnap none) write)
  obtain ⟨lt, selected⟩ := List.mem_filter.mp hc
  obtain ⟨v, hv, own⟩ := full c (List.mem_range.mp lt) selected
  exact List.any_eq_true.mpr ⟨v, hv, beq_iff_eq.mpr own⟩

/-- The high half of a snapshot's pair. -/
def snapHigh : Fld := { F.MEAS_SNAP_CHn_L_VALUE with bit := F.MEAS_SNAP_CHn_L_VALUE.bit + 32, width := 8 }

/-- The values and tags of a snapshot lie apart. -/
theorem key_snap {c d : Nat} (lt : c < 48) : F.MEAS_SNAP_CHn_L_VALUE.key d ≠ F.MEAS_SNAP_TAGk_TAG.key c ∧ snapHigh.key d ≠ F.MEAS_SNAP_TAGk_TAG.key c
    ∧ (d ≠ c → F.MEAS_SNAP_CHn_L_VALUE.key d ≠ F.MEAS_SNAP_CHn_L_VALUE.key c ∧ snapHigh.key d ≠ snapHigh.key c
      ∧ F.MEAS_SNAP_TAGk_TAG.key d ≠ F.MEAS_SNAP_TAGk_TAG.key c)
    ∧ F.MEAS_SNAP_CHn_L_VALUE.key d ≠ snapHigh.key c := by
  simp only [Fld.key, snapHigh, F.MEAS_SNAP_CHn_L_VALUE, F.MEAS_SNAP_TAGk_TAG]
  omega

/-- The values and tags of a snapshot lie apart from its stamp and its flags. -/
theorem key_snap_own : ∀ c < 48, ∀ f ∈ [F.MEAS_STATUS_SNAP_DONE, F.MEAS_STATUS_SNAP_BUSY, F.MEAS_SNAP_TS_L_TS,
      { F.MEAS_SNAP_TS_L_TS with bit := F.MEAS_SNAP_TS_L_TS.bit + 32, width := 8 }],
    F.MEAS_SNAP_CHn_L_VALUE.key c ≠ f.key 0 ∧ snapHigh.key c ≠ f.key 0 ∧ F.MEAS_SNAP_TAGk_TAG.key c ≠ f.key 0 := by
  decide +kernel

theorem key_snap_quiet : ∀ c < 48, (quietKey (F.MEAS_SNAP_CHn_L_VALUE.key c) = true ∧ quietKey (snapHigh.key c) = true
      ∧ quietKey (F.MEAS_SNAP_TAGk_TAG.key c) = true)
    ∧ drivesSource (F.MEAS_SNAP_CHn_L_VALUE.key c) = false ∧ drivesSource (snapHigh.key c) = false
      ∧ drivesSource (F.MEAS_SNAP_TAGk_TAG.key c) = false := by
  decide +kernel

theorem snapOut_value (s : State) (sn : Snap) {c : Nat} (lt : c < 48) :
    (snapOut s sn).get40 F.MEAS_SNAP_CHn_L_VALUE c = (snapShown sn.vals c).1 := by
  have apart := key_snap_own c lt
  simp only [List.forall_mem_cons] at apart
  obtain ⟨⟨done, done', -⟩, ⟨busy, busy', -⟩, ⟨ts, ts', -⟩, ⟨tsH, tsH', -⟩, -⟩ := apart
  show ((((forN 48 s (snapPut sn.vals)).set40 F.MEAS_SNAP_TS_L_TS 0 (ts40 (1250 * sn.k))).set F.MEAS_STATUS_SNAP_DONE 0 1).set
    F.MEAS_STATUS_SNAP_BUSY 0 0).get40 F.MEAS_SNAP_CHn_L_VALUE c = _
  rw [get40_set_ne _ _ busy busy', get40_set_ne _ _ done done']
  unfold State.set40
  rw [get40_set_ne _ _ tsH tsH', get40_set_ne _ _ ts ts']
  refine forN_writes (fun t => t.get40 F.MEAS_SNAP_CHn_L_VALUE c) lt (fun t => ?_) (fun t d ltd ne => ?_) s
  · obtain ⟨low, high, -⟩ := key_snap (d := c) lt
    exact (get40_set_ne _ _ low high).trans (get40_set40 t rfl c (snapShown_lt _ c))
  · obtain ⟨low, high, other, cross⟩ := key_snap (d := c) ltd
    obtain ⟨vv, hh, -⟩ := other ne.symm
    obtain ⟨-, -, -, cross'⟩ := key_snap (c := c) (d := d) lt
    refine (get40_set_ne _ _ low high).trans ?_
    unfold State.set40
    exact (get40_set_ne _ _ cross hh).trans (get40_set_ne t _ vv cross'.symm)

theorem snapOut_tag (s : State) (sn : Snap) {c : Nat} (lt : c < 48) :
    (snapOut s sn).get F.MEAS_SNAP_TAGk_TAG c = (snapShown sn.vals c).2 % 2 ^ F.MEAS_SNAP_TAGk_TAG.width := by
  have apart := key_snap_own c lt
  simp only [List.forall_mem_cons] at apart
  obtain ⟨⟨-, -, done⟩, ⟨-, -, busy⟩, ⟨-, -, ts⟩, ⟨-, -, tsH⟩, -⟩ := apart
  unfold snapOut State.set40
  rw [State.get_putSnap, State.get_set_ne _ _ busy, State.get_set_ne _ _ done, State.get_set_ne _ _ tsH, State.get_set_ne _ _ ts]
  refine forN_writes (fun t => t.get F.MEAS_SNAP_TAGk_TAG c) lt (fun t => ?_) (fun t d ltd ne => ?_) s
  · exact State.get_set_self _ F.MEAS_SNAP_TAGk_TAG c _
  · obtain ⟨-, -, other, -⟩ := key_snap (c := d) (d := c) ltd
    obtain ⟨-, -, apart⟩ := other ne.symm
    obtain ⟨low, high, -, -⟩ := key_snap (c := c) (d := d) lt
    refine (State.get_set_ne _ _ apart).trans ?_
    unfold State.set40
    exact (State.get_set_ne _ _ high.symm).trans (State.get_set_ne t _ low.symm)

theorem snapOut_flags (s : State) (sn : Snap) : (snapOut s sn).get F.MEAS_STATUS_SNAP_DONE = 1 ∧ (snapOut s sn).get F.MEAS_STATUS_SNAP_BUSY = 0
    ∧ (snapOut s sn).get40 F.MEAS_SNAP_TS_L_TS = ts40 (1250 * sn.k) := by
  refine ⟨?_, ?_, ?_⟩
  · unfold snapOut
    rw [State.get_putSnap, State.get_set_ne _ _ (by decide)]
    exact State.get_set_self _ _ _ _
  · unfold snapOut
    rw [State.get_putSnap]
    exact State.get_set_self _ _ _ _
  · show ((((forN 48 s (snapPut sn.vals)).set40 F.MEAS_SNAP_TS_L_TS 0 (ts40 (1250 * sn.k))).set F.MEAS_STATUS_SNAP_DONE 0 1).set
      F.MEAS_STATUS_SNAP_BUSY 0 0).get40 F.MEAS_SNAP_TS_L_TS = _
    rw [get40_set_ne _ _ (by decide) (by decide), get40_set_ne _ _ (by decide) (by decide)]
    exact get40_set40 _ rfl 0 (Nat.mod_lt _ (by decide))

theorem forN_holds {P : State → Prop} {n : Nat} {f : State → Nat → State} (h : ∀ t i, i < n → P t → P (f t i)) {s : State} (start : P s) :
    P (forN n s f) := by
  unfold forN
  exact List.foldlRecOn _ _ start fun t ht i hi => h t i (List.mem_range.mp hi) ht

theorem snapOut_steady {s : State} (h : DriveSteady s) (sn : Snap) : DriveSteady (snapOut s sn) := by
  have written : DriveSteady (forN 48 s (snapPut sn.vals)) := forN_holds (fun t c lt h => by
    obtain ⟨-, low, high, tag⟩ := key_snap_quiet c lt
    exact ((h.set low).set high).set tag) h
  have stamped : DriveSteady ((forN 48 s (snapPut sn.vals)).set40 F.MEAS_SNAP_TS_L_TS 0 (ts40 (1250 * sn.k))) :=
    (written.set (by decide)).set (by decide)
  show DriveSteady ((((forN 48 s (snapPut sn.vals)).set40 F.MEAS_SNAP_TS_L_TS 0 (ts40 (1250 * sn.k))).set F.MEAS_STATUS_SNAP_DONE 0 1).set
    F.MEAS_STATUS_SNAP_BUSY 0 0)
  exact (stamped.set (by decide)).set (by decide)

/-- Settles O27: a request is one branch of `snapReq`, and a complete snapshot is written out channel by channel. -/
theorem snapshots : Obligations.Snapshots := by
  intro s lines
  have steady := lines.steady
  have done {u : State} (h : Sys2Proof.Machine.snapDone s = u) (d : DriveSteady u) : Answers .snapDone s u :=
    answers_of (congrArg (answer s) h) d
  refine ⟨fun p src up => ?_, fun none_ => done (snapDone_none none_) steady, fun sn some_ =>
    ⟨fun lacks => done (snapDone_lacks some_ lacks) steady, fun full => ?_⟩⟩
  · have go {u : State} (h : snapReq s p (16 * src.toNat + 1) = u) (d : DriveSteady u) : Answers (.snapGo p src) s u :=
      answers_of (congrArg (answer s) ((gate_up up _).trans h)) d
    refine ⟨fun runs => go (snapReq_runs runs p src) (steady.set (by decide)), fun none_ three => ?_, fun none_ known => ?_⟩
    · exact go (snapReq_refused none_ p three) ((steady.set (by decide)).set (by decide))
    · obtain ⟨t, run, result⟩ := go (snapReq_starts none_ p known) (snapStart_steady steady p _)
      obtain ⟨busy, done_, port, source⟩ := snapStart_get s p src
      exact ⟨t, run, (result.get _ _ (by decide)).trans busy, (result.get _ _ (by decide)).trans done_,
        (result.get _ _ (by decide)).trans port, (result.get _ _ (by decide)).trans source, result⟩
  · obtain ⟨t, run, result⟩ := done (snapDone_full some_ full) (snapOut_steady steady sn)
    obtain ⟨isDone, idle, stamp⟩ := snapOut_flags s sn
    have pair {f : Fld} {i : Nat} (low : quietKey (f.key i) = true)
        (high : quietKey (({ f with bit := f.bit + 32, width := 8 } : Fld).key i) = true) : t.get40 f i = (snapOut s sn).get40 f i := by
      unfold State.get40
      rw [result.get _ _ low, result.get _ _ high]
    refine ⟨t, run, result.snap, (result.get _ _ (by decide)).trans isDone, (result.get _ _ (by decide)).trans idle,
      (pair (by decide) (by decide)).trans stamp, fun c lt => ?_⟩
    obtain ⟨⟨low, high, tag⟩, -⟩ := key_snap_quiet c lt
    have value := (pair low high).trans (snapOut_value s sn lt)
    have tagged := (result.get _ _ tag).trans (snapOut_tag s sn lt)
    cases found : sn.vals.find? (fun v => v.1 == c) with
    | some v =>
      rw [snapShown_some found] at value tagged
      exact ⟨value, tagged⟩
    | none =>
      rw [snapShown_none found] at value tagged
      exact ⟨value, tagged⟩

end Sys2Proof.Machine
end

section
/-!
PROOFS. A pair of samples without a crossing (R119, R129) in a state whose outcome counter holds more than its field. Refutes O24.
-/

namespace Sys2Proof.Machine

/-! ### A point that is not BLIND after a command shows that the sources' drive is steady -/

/-- The numbers of points and channels and the mode of a point: what no loss or return of a carrier changes. -/
def State.framed (s : State) (p : Nat) : Nat × Nat × Nat := (s.points.length, s.chans.length, s.get F.EXC_CARRIER_SPn_MODE p)

theorem key_mode : ∀ p < 24, lowKey (F.EXC_CARRIER_SPn_MODE.key p) = true ∧ quietKey (F.EXC_CARRIER_SPn_MODE.key p) = true
    ∧ F.EXC_CARRIER_SPn_MODE.key p ≠ F.EXC_MODE_DRIVE_EN.key 0 := by
  decide +kernel

theorem framed_updPoint (s : State) (q p : Nat) (g : Point → Point) : (s.updPoint q g).framed p = s.framed p :=
  congrArg (fun n => (n, s.chans.length, s.get F.EXC_CARRIER_SPn_MODE p)) (List.length_modify g s.points q)

section
variable {p : Nat} (lt : p < 24)
include lt

theorem framed_of_keeps {s t : State} (h : Keeps s t) : t.framed p = s.framed p := by
  obtain ⟨-, quiet, -⟩ := key_mode p lt
  unfold State.framed
  rw [h.get _ _ quiet, h.reads State.points fun _ => rfl, h.reads State.chans fun _ => rfl]

theorem framed_of_still {s t : State} (h : t.part.still = s.part.still) : t.framed p = s.framed p := by
  obtain ⟨low, -⟩ := key_mode p lt
  obtain ⟨points, chans⟩ := still_sizes h
  have seen : t.seen lowKey = s.seen lowKey := congrArg (·.2.2.2) h
  unfold State.framed
  rw [points, chans, get_of_seen seen low]

theorem framed_blindMarks (s : State) (q : Nat) (cause : Cause) : (blindMarks s q cause).framed p = s.framed p := by
  have left : (if usable s q then abandon s q else s).framed p = s.framed p :=
    framed_of_still lt (by rw [still_if, still_abandon, ite_self])
  unfold blindMarks
  extract_lets a b c
  exact ((framed_of_still lt (still_updChan c _ _)).trans (framed_of_still lt (still_updChan b _ _))).trans
    ((framed_updPoint a q p _).trans left)

theorem framed_enterBlind (s : State) (q : Nat) (cause : Cause) : (enterBlind s q cause).framed p = s.framed p := by
  cases seen : (s.point q).blind with
  | true => rw [enterBlind_blind seen]
  | false => exact (framed_of_still lt (congrArg Part.still (part_enterBlind seen cause))).trans (framed_blindMarks lt s q cause)

theorem framed_carrierGone (s : State) (q t : Nat) : (carrierGone s q t).framed p = s.framed p := by
  unfold carrierGone
  split
  · rfl
  · exact (framed_updPoint _ q p _).trans (framed_enterBlind lt s q _)

theorem framed_carrierBack (s : State) (q t : Nat) : (carrierBack s q t).framed p = s.framed p := by
  unfold carrierBack
  split
  · rfl
  · exact (framed_updPoint _ q p _).trans (framed_enterBlind lt s q _)

theorem framed_syncDrive (s : State) : (syncDrive s).framed p = s.framed p := by
  obtain ⟨-, -, apart⟩ := key_mode p lt
  have driven : (s.setFlag F.EXC_MODE_DRIVE_EN 0 (srcMay s)).framed p = s.framed p :=
    congrArg (fun n => (s.points.length, s.chans.length, n)) (State.get_set_ne s _ apart)
  unfold syncDrive
  extract_lets on t
  split
  · exact driven
  · split
    · exact forEach_holds (P := fun t => t.framed p = s.framed p) (fun u q hu => (framed_carrierBack lt u q _).trans hu) _ driven
    · exact forEach_holds (P := fun t => t.framed p = s.framed p) (fun u q hu => (framed_carrierGone lt u q _).trans hu) _ driven

end

/-- A point whose mode is not OFF. -/
theorem excMode_ne_off {s : State} {p : Nat} (h : s.get F.EXC_CARRIER_SPn_MODE p ≠ mOff) : excMode s p ≠ mOff := by
  unfold excMode
  split
  · decide
  · exact h

/-- What makes a change of the carrier reach a point: it exists with its channels and is not OFF. -/
def Reached (x : Nat × Nat × Nat) (p : Nat) : Prop := p < x.1 ∧ 2 * p + 1 < x.2.1 ∧ x.2.2 ≠ mOff

theorem blind_enterBlind {s : State} {p : Nat} (pts : p < s.points.length) (chs : 2 * p + 1 < s.chans.length) (cause : Cause) :
    ((enterBlind s p cause).point p).blind = true := by
  obtain ⟨blind, -⟩ := excChange_settling pts chs 0 cause
  have same : ((excChange s p 0 cause).point p).exempted = ((enterBlind s p cause).point p).exempted := exempted_updPoint _ p p fun _ => rfl
  exact (congrArg Prod.fst same).symm.trans blind

theorem blind_carrierGone {s : State} {p : Nat} (h : Reached (s.framed p) p) (t : Nat) : ((carrierGone s p t).point p).blind = true := by
  obtain ⟨pts, chs, mode⟩ := h
  unfold carrierGone
  rw [if_neg (excMode_ne_off mode)]
  have same := exempted_updPoint (enterBlind s p (carrierCause s)) p p
    (g := fun q => { q with noCarrier := some ((q.noCarrier).getD t), blindSince := if (s.point p).blind then q.blindSince else t }) fun _ => rfl
  exact (congrArg Prod.fst same).trans (blind_enterBlind pts chs _)

theorem blind_carrierBack {s : State} {p : Nat} (h : Reached (s.framed p) p) (t : Nat) : ((carrierBack s p t).point p).blind = true := by
  obtain ⟨pts, chs, mode⟩ := h
  unfold carrierBack
  rw [if_neg fun off => excMode_ne_off mode off.1]
  have same := exempted_updPoint (enterBlind s p (carrierCause s)) p p
    (g := fun q => { q with noCarrier := none, settle := ((q.noCarrier.getD t) / 1250, (settleFrom t).2) :: settleLeft q t }) fun _ => rfl
  exact (congrArg Prod.fst same).trans (blind_enterBlind pts chs _)

/-- What a round brings about and every round keeps holds after all of them. -/
theorem forEach_reaches {α : Type} {I P : State → Prop} {f : State → α → State} {a : α} (earlier : ∀ t x, I t → I (f t x))
    (later : ∀ t x, P t → P (f t x)) (own : ∀ t, I t → P (f t a)) {l : List α} (mem : a ∈ l) {s : State} (start : I s) : P (forEach l s f) := by
  induction l generalizing s with
  | nil => exact absurd mem List.not_mem_nil
  | cons x l ih =>
    rcases List.mem_cons.mp mem with rfl | mem
    · exact forEach_holds later l (own s start)
    · exact ih mem (earlier s x start)

theorem blind_syncDrive {s : State} {p : Nat} (lt : p < 24) (h : Reached (s.framed p) p) (moves : ¬DriveSteady s) :
    ((syncDrive s).point p).blind = true := by
  have mem : p ∈ List.range 24 := List.mem_range.mpr lt
  obtain ⟨-, -, apart⟩ := key_mode p lt
  have driven : Reached ((s.setFlag F.EXC_MODE_DRIVE_EN 0 (srcMay s)).framed p) p := by
    have same : (s.setFlag F.EXC_MODE_DRIVE_EN 0 (srcMay s)).framed p = s.framed p :=
      congrArg (fun n => (s.points.length, s.chans.length, n)) (State.get_set_ne s _ apart)
    exact same.symm ▸ h
  have k : Keeps s (s.setFlag F.EXC_MODE_DRIVE_EN 0 (srcMay s)) := keeps_set s _ _ _ (by decide)
  unfold syncDrive
  extract_lets on t
  split
  next still =>
    refine absurd ?_ moves
    rw [k.counting, k.lines] at still
    rcases still with still | still
    · exact Or.inr still
    · exact Or.inl (by simpa using still)
  next =>
    split
    · exact forEach_reaches (I := fun t => Reached (t.framed p) p) (P := fun t => (t.point p).blind = true)
        (fun u q hu => (framed_carrierBack lt u q _).symm ▸ hu) (fun u q hu => (congrArg Prod.fst (exempted_carrierBack hu q _)).trans hu)
        (fun u hu => blind_carrierBack hu _) mem driven
    · exact forEach_reaches (I := fun t => Reached (t.framed p) p) (P := fun t => (t.point p).blind = true)
        (fun u q hu => (framed_carrierGone lt u q _).symm ▸ hu) (fun u q hu => (congrArg Prod.fst (exempted_carrierGone hu q _)).trans hu)
        (fun u hu => blind_carrierGone hu _) mem driven

/-- A point that a change of the carrier would reach and that is not BLIND after a command: the command's effect did not move the drive. -/
theorem steady_of_seen {s u : State} {p : Nat} (lt : p < 24) (h : Reached ((settle u).framed p) p) (seen : ((settled s u).point p).blind = false) :
    DriveSteady u := by
  have inputs := keeps_sampleInputs u
  have rest : Keeps (syncDrive (sampleInputs u)) (settle u) :=
    ((keeps_canSync _).trans (keeps_fabSettle _)).trans (keeps_outStep _)
  by_contra moves
  have moves' : ¬DriveSteady (sampleInputs u) := by
    unfold DriveSteady
    rw [inputs.counting, inputs.srcMay, inputs.lines]
    exact moves
  have reached : Reached ((sampleInputs u).framed p) p := by
    rw [← framed_syncDrive lt, ← framed_of_keeps lt rest]
    exact h
  have blind : ((settle u).point p).blind = true :=
    (rest.reads (fun x => (x.point p).blind) fun _ => rfl).trans (blind_syncDrive lt reached moves')
  have same : (settled s u).point p = (settle u).point p := congrArg (nth · p) (settled_points s u)
  rw [same, blind] at seen
  exact Bool.noConfusion seen

/-! ### The counterexample -/

/-- Tick 5,000 of cycle 7 in an OPERATIONAL unit with point 2 on DC_SUPPLY and its channels off, sample 339 of both judged at 0 and sample
340 of the second waiting at 0; the cell of the EDDY outcomes of the point holds 256, one above what its eight bits hold. -/
def counterWide : State :=
  let s := { State.reset with
    regs := [(F.WEV_SPn_XCNT_EDDY.key 2, 256)], boot := { State.reset.boot with stage := 5 }, cycle := 7, now := 425000
    sio := { State.reset.sio with nextSample := 71 } }
  let s := (((s.set F.DEV_STATE_STATE 0 4).set F.DEV_STATE_ROLE 0 1).set F.CRU_CLK_PLL_LOCK 0 1).set F.EXC_CARRIER_SPn_MODE 2 mDc
  let s := forN 2 s (fun s j => (s.set F.WEV_CHn_THR_ON_THR (4 + j) 1536).set F.WEV_CHn_THR_OFF_THR (4 + j) 1024)
  let s := forN 2 s (fun s j => s.updChan (4 + j) (fun c => { c with last := some (midTick 339, 0) }))
  let s := s.updChan 5 (fun c => { c with queue := [⟨340, 0, 0, 0, 0, 0⟩] })
  s.putLines (computeLines s)

/-- The state that completes the sample: the tags fixed and the overranges told. -/
def counterWideDue : State := tellOver (turnsDue ((tagsPass counterWide 429850).advanceTo 429850)) 4 340 0

/-- What the sample leaves before the machine settles. -/
def counterWideTaken : State := takeSample counterWide 4 340 0 0 0


theorem counterWide_meets : LinesFollow counterWide ∧ counterWide.counting = true := by
  unfold LinesFollow
  decide +kernel

theorem counterWideDue_meets : counterWideDue.snap = none ∧ counterWideDue.points.length = 24 ∧ counterWideDue.chans.length = 48
    ∧ usable counterWideDue 2 = true ∧ tagOf counterWideDue 4 340 = (0, 0) ∧ (counterWideDue.chan 4).queue = []
    ∧ (counterWideDue.chan 5).queue = [⟨340, 0, 0, 0, 0, 0⟩] ∧ (counterWideDue.point 2).seq = .idle
    ∧ (counterWideDue.chan 4).on = false ∧ (counterWideDue.chan 5).on = false
    ∧ (counterWideDue.chan 4).last = some (midTick 339, 0) ∧ (counterWideDue.chan 5).last = some (midTick 339, 0)
    ∧ 0 < onThr counterWideDue 4 ∧ 0 < onThr counterWideDue 5 := by
  decide +kernel

/-- The sample leaves the counter as it stands, and the drive and the point too. -/
theorem counterWideTaken_leaves : counterWideTaken.get F.WEV_SPn_XCNT_EDDY 2 = 256 ∧ srcMay counterWideTaken = counterWideTaken.lines.src
    ∧ (counterWideTaken.point 2).blind = false ∧ counterWideTaken.framed 2 = (24, 48, mDc) := by
  decide +kernel

/-- Whatever effect settles to what the sample settles to holds 256 in the counter. -/
theorem counterWide_kept {u : State} (same : settled counterWide u = settled counterWide counterWideTaken) : u.get F.WEV_SPn_XCNT_EDDY 2 = 256 := by
  obtain ⟨count, drive, seen, frame⟩ := counterWideTaken_leaves
  have taken := settle_keeps _ (Or.inr drive : DriveSteady counterWideTaken)
  have quiet : quietKey (F.WEV_SPn_XCNT_EDDY.key 2) = true := by decide
  have points : (settle u).points = (settle counterWideTaken).points := by
    rw [← settled_points counterWide, same, settled_points]
  have channels : (settle u).chans = (settle counterWideTaken).chans := by
    rw [← settled_chans counterWide, same, settled_chans]
  have get (f : Fld) : (settle u).get f 2 = (settle counterWideTaken).get f 2 := by
    rw [← settled_get counterWide, same, settled_get]
  have frames : (settle u).framed 2 = (24, 48, mDc) := by
    have at_ : (settle u).framed 2 = (settle counterWideTaken).framed 2 := by
      unfold State.framed
      rw [points, channels, get]
    rw [at_, framed_of_keeps (by decide) taken, frame]
  have steady : DriveSteady u := by
    refine steady_of_seen (s := counterWide) (p := 2) (by decide) (by rw [frames]; unfold Reached; decide) ?_
    rw [same]
    unfold State.point
    rw [settled_points]
    exact (taken.reads (fun x => (x.point 2).blind) fun _ => rfl).trans seen
  calc u.get F.WEV_SPn_XCNT_EDDY 2 = (settle u).get F.WEV_SPn_XCNT_EDDY 2 := ((settle_keeps u steady).get _ _ quiet).symm
    _ = (settle counterWideTaken).get F.WEV_SPn_XCNT_EDDY 2 := get _
    _ = counterWideTaken.get F.WEV_SPn_XCNT_EDDY 2 := taken.get _ _ quiet
    _ = 256 := count

/-- Refutes O24: an outcome counter that a pair does not step stays as its cell holds it, while the statement clips every counter to the
eight bits of its field. `State.set` leaves no cell above its field's width, but the statement has no premise that the register store is
of that form. -/
theorem not_dampingSampleTaken : ¬Obligations.DampingSampleTaken := by
  intro all
  obtain ⟨lines, counting⟩ := counterWide_meets
  obtain ⟨snap, pts, chs, use, tag, empty, waits, idle, offA, offB, lastA, lastB, belowA, belowB⟩ := counterWideDue_meets
  obtain ⟨-, -, pair, -⟩ := all counterWide 4 340 0 0 0 lines
  have below : ∀ c, c = 4 ∨ c = 5 → (counterWideDue.chan c).last = some (midTick (340 - 1), 0)
      ∧ (if (counterWideDue.chan c).on then offThr counterWideDue c ≤ 0 else 0 < onThr counterWideDue c) := by
    rintro c (rfl | rfl)
    · exact ⟨lastA, by rw [offA]; exact belowA⟩
    · exact ⟨lastB, by rw [offB]; exact belowB⟩
  have shown : seqShows (counterWideDue.point 2).seq = ((counterWideDue.chan 4).on, (counterWideDue.chan 5).on) := by
    rw [idle, offA, offB]
    rfl
  have free : noHold counterWideDue 2 := by
    unfold noHold
    rw [idle]
    decide
  have unlinked : ¬((counterWideDue.point 2).seq = .aLeft ∨ (counterWideDue.point 2).seq = .bLeft) := by
    rw [idle]
    decide
  obtain ⟨-, judged⟩ := pair counting snap pts chs ⟨340, 0, 0, 0, 0, 0⟩ (fun _ => 0) (by decide) use tag empty waits rfl rfl
    shown below (Or.inl free) fun link => absurd link unlinked
  obtain ⟨u, run, -, -, -, -, -, -, clipped, -⟩ := judged (Or.inr (by decide +kernel))
  have model : exec (.dampingSample 4 340 0 0 0) counterWide = .next (settled counterWide counterWideTaken) :=
    congrArg (answer counterWide) (if_pos counting)
  have kept := counterWide_kept (Host.Outcome.next.inj (run.symm.trans model))
  have claimed : u.get F.WEV_SPn_XCNT_EDDY 2 = 255 := (clipped _ (Or.inl rfl)).trans (by decide +kernel)
  rw [kept] at claimed
  exact absurd claimed (by decide)

end Sys2Proof.Machine
end

section
/-!
SUPPORT. What the events of a sensor point never write, whatever reads it: a reading of the state that depends on none of the blocks which a
passage, a disturbance, a speed, the journal or the ledger write stays the same over all of them. Journal, count tiles and speed.
-/

namespace Sys2Proof.Machine

/-- `g` reads nothing that an event reaches beside the points and channels: no register field from the sensor points' block up, no memory, no
section, encoder, boundary unit, compare unit or axle, and neither the fabric, the ledger nor the Bamdon window. -/
structure Unreached {β : Type} (g : State → β) : Prop where
  set : ∀ (s : State) {f : Fld}, 0x200000 ≤ f.bit → ∀ i v, g (s.set f i v) = g s
  mem : ∀ (s : State) x, g { s with mem := x } = g s
  secs : ∀ (s : State) x, g { s with secs := x } = g s
  encs : ∀ (s : State) x, g { s with encs := x } = g s
  units : ∀ (s : State) x, g { s with units := x } = g s
  cmps : ∀ (s : State) x, g { s with cmps := x } = g s
  ests : ∀ (s : State) x, g { s with ests := x } = g s
  fab : ∀ (s : State) x, g { s with fab := x } = g s
  ledger : ∀ (s : State) x, g { s with ledger := x } = g s
  bcw : ∀ (s : State) x, g { s with bcw := x } = g s

/-- Every field that a fabric clock rewrites lies in the sensor points' block or above it. -/
theorem clock_above (n : Nat) : (∀ x ∈ clockOwn n, 0x200000 ≤ x.1.bit) ∧ (∀ x ∈ clockSticky n, 0x200000 ≤ x.1.bit)
    ∧ ∀ x ∈ clockShared, 0x200000 ≤ x.1.bit := by
  refine ⟨?_, ?_, by decide⟩ <;> simp +decide [clockOwn, clockSticky]

section
variable {β : Type} {g : State → β} (h : Unreached g)
include h

theorem Unreached.set40 (s : State) {f : Fld} (high : 0x200000 ≤ f.bit) (i v : Nat) : g (s.set40 f i v) = g s :=
  (h.set _ (show 0x200000 ≤ f.bit + 32 by omega) _ _).trans (h.set s high _ _)

/-- What a write of a field does, whatever it writes there. -/
theorem Unreached.write : (∀ (s : State) (f : Fld) (i v : Nat), 0x200000 ≤ f.bit → g (s.set f i v) = g s)
    ∧ (∀ (s : State) (f : Fld) (i : Nat), 0x200000 ≤ f.bit → g (s.raise f i) = g s)
    ∧ (∀ (s : State) (f : Fld) (i : Nat), 0x200000 ≤ f.bit → g (s.lower f i) = g s)
    ∧ (∀ (s : State) (f : Fld) (i : Nat) (b : Bool), 0x200000 ≤ f.bit → g (s.setFlag f i b) = g s)
    ∧ (∀ (s : State) (f : Fld) (i : Nat), 0x200000 ≤ f.bit → g (s.bump f i) = g s)
    ∧ (∀ (s : State) (f : Fld) (i : Nat), 0x200000 ≤ f.bit → g (s.bumpWrap f i) = g s)
    ∧ (∀ (s : State) (f : Fld) (i v : Nat), 0x200000 ≤ f.bit → g (s.set40 f i v) = g s)
    ∧ (∀ (s : State) (f : Fld) (i : Nat) (v : Int), 0x200000 ≤ f.bit → g (s.setS40 f i v) = g s) :=
  ⟨fun s _ i v high => h.set s high i v, fun s _ i high => h.set s high i _, fun s _ i high => h.set s high i _,
    fun s _ i _ high => h.set s high i _, fun s _ i high => h.set s high i _, fun s _ i high => h.set s high i _,
    fun s _ i v high => h.set40 s high i v, fun s _ i _ high => h.set40 s high i _⟩

/-- What a change of one of the blocks does. -/
theorem Unreached.put : (∀ (s : State) (x : Ledger), g (s.putLedger x) = g s) ∧ (∀ (s : State) (x : Bcw), g (s.putBcw x) = g s)
    ∧ (∀ (s : State) (x : Fabric), g (s.putFab x) = g s) ∧ (∀ (s : State) (x : List AxleEst), g (s.putEsts x) = g s)
    ∧ (∀ (s : State) (a : Nat) (bs : List Byte), g (s.putBytes a bs) = g s)
    ∧ (∀ (s : State) (n : Nat) (f : Sec → Sec), g (s.updSec n f) = g s)
    ∧ (∀ (s : State) (n : Nat) (f : EncPort → EncPort), g (s.updEnc n f) = g s)
    ∧ (∀ (s : State) (n : Nat) (f : BoundaryUnit → BoundaryUnit), g (s.updUnit n f) = g s)
    ∧ (∀ (s : State) (n : Nat) (f : CmpUnit → CmpUnit), g (s.updCmp n f) = g s) :=
  ⟨fun s _ => h.ledger s _, fun s _ => h.bcw s _, fun s _ => h.fab s _, fun s _ => h.ests s _, fun s _ _ => h.mem s _, fun s _ _ => h.secs s _,
    fun s _ _ => h.encs s _, fun s _ _ => h.units s _, fun s _ _ => h.cmps s _⟩

/-! ### Journal and Gust queue -/

theorem Unreached.over_journalPut (s : State) (e : JEntry) : g (s.journalPut e) = g s := by
  unfold State.journalPut clockKeep
  simp (disch := decide) only [h.write, h.put, apply_ite g, ite_self]

theorem Unreached.over_journal (s : State) (e : JEntry) : g (s.journal e) = g s := by
  unfold State.journal
  rw [apply_ite g, h.over_journalPut, ite_self]

theorem Unreached.over_note (s : State) (a b c d e : Nat) : g (s.note a b c d e) = g s := h.over_journal s _

theorem Unreached.over_gustAppend (s : State) (bs : List Byte) : g (s.gustAppend bs) = g s := by
  unfold State.gustAppend State.gustLevel
  simp (disch := decide) only [h.write, h.put, apply_ite g, ite_self]

theorem Unreached.over_gust (s : State) (ts : Nat) (bs : List Byte) : g (s.gust ts bs) = g s := by
  unfold State.gust State.gustDrop
  simp (disch := decide) only [h.write, h.put, apply_ite g, h.over_gustAppend, ite_self]

theorem Unreached.over_gustKind (s : State) (k obj ts : Nat) (rest : List Byte) : g (s.gustKind k obj ts rest) = g s := by
  unfold State.gustKind
  rw [apply_ite g, h.over_gust, ite_self]

/-! ### Sections and the fabric clock -/

theorem Unreached.over_secNote (s : State) (n flag : Nat) : g (secNote s n flag) = g s := h.over_journal s _

theorem Unreached.over_distApply (s : State) (n : Nat) (d : Dist) : g (distApply s n d) = g s := by
  unfold distApply
  simp (disch := decide) only [h.write, h.put, apply_ite g, h.over_secNote, ite_self]

theorem Unreached.over_clearEpisode (s : State) (n : Nat) : g (clearEpisode s n) = g s := by
  unfold clearEpisode evidEnd
  simp (disch := decide) only [h.write, h.put]

theorem Unreached.over_stepSec (s : State) (n c0 c1 ins : Nat) : g (stepSec s n c0 c1 ins).1 = g s := by
  unfold stepSec
  extract_lets ax t marked t' code stepped
  have same : g t = g s := by simp (disch := decide) only [t, h.write, apply_ite g, ite_self]
  split
  · exact same
  · split
    · simp (disch := decide) only [marked, h.write, h.over_secNote, h.over_clearEpisode]
    · exact same
  · split
    · exact same
    · simp (disch := decide) only [stepped, t', h.write, apply_ite g, h.over_secNote, ite_self, same]

theorem Unreached.over_moveSec (s : State) (n : Nat) (moves : List (Nat × Bool)) : g (moveSec s n moves).1 = g s := by
  unfold moveSec
  extract_lets ins outs c0 t low full limit c1
  split_ifs <;> simp (disch := decide) only [t, low, full, limit, h.write, h.put, h.over_distApply, h.over_stepSec]

theorem Unreached.over_clockBack (s : State) (e : TickSec) : g (clockBack s e) = g s := by
  obtain ⟨own, sticky, -⟩ := clock_above e.sec
  unfold clockBack writeAll
  refine (h.secs _ _).trans ((forEach_keeps g (fun t x hx => h.set t (sticky _ (List.of_mem_zip hx).1) _ _) _).trans ?_)
  exact forEach_keeps g (fun t x hx => h.set t (own _ (List.of_mem_zip hx).1) _ _) _

theorem Unreached.over_clockRun (s : State) (e : TickSec) : g (clockRun s e).1 = g s := by
  unfold clockRun
  refine (forEach_keeps g (fun t d _ => h.over_distApply t _ d) _).trans ?_
  split
  · rfl
  · exact h.over_moveSec s _ _

theorem Unreached.over_clockRuns (s : State) (es : List TickSec) : g (clockRuns s es) = g s := by
  have runs (es : List TickSec) (acc : State × List TickSec) :
      g (es.foldl (fun (acc : State × List TickSec) e => let r := clockRun acc.1 e; (r.1, acc.2 ++ [r.2])) acc).1 = g acc.1 := by
    induction es generalizing acc with
    | nil => rfl
    | cons e es ih => exact (ih _).trans (h.over_clockRun _ e)
  exact (h.fab _ _).trans ((runs es _).trans (h.fab s _))

theorem Unreached.over_clockJournal (s : State) : g (clockJournal s) = g s := by
  unfold clockJournal
  extract_lets log kept new t fab u
  have out (t : State) (e : ClockEntry) : g (jrnBack t e) = g t := by
    unfold jrnBack
    simp (disch := decide) only [h.write, h.put]
  have back : g t = g s := forEach_keeps g (fun t e _ => out t e) s
  have redo : g u = g t := (forEach_keeps g (fun t e _ => h.over_journalPut t _) _).trans (h.fab t _)
  exact (h.set _ (by decide : 0x200000 ≤ F.JRN_STATUS_JRN_NEW.bit) _ _).trans (redo.trans back)

theorem Unreached.over_clockFlags (s : State) : g (clockFlags s) = g s :=
  forEach_keeps g (fun t _ hx => h.set t ((clock_above 0).2.2 _ (List.mem_of_mem_take (List.of_mem_zip hx).1)) _ _) s

theorem Unreached.over_clockTake (s : State) (add : List TickSec) : g (clockTake s add) = g s := by
  unfold clockTake
  have opened : g (clockOpen s) = g s := by
    unfold clockOpen
    simp only [h.put, apply_ite g, ite_self]
  rw [h.over_clockRuns, h.over_clockFlags, h.over_clockJournal, forEach_keeps g (fun t e _ => h.over_clockBack t e), opened]

theorem Unreached.over_distSecs (s : State) (l : List Nat) (c : Cause) (cp : Nat) (w : Option (Nat × Nat)) : g (distSecs s l c cp w) = g s := by
  unfold distSecs
  rw [apply_ite g, h.over_clockTake, ite_self]

theorem Unreached.over_distCp (s : State) (cp : Nat) (c : Cause) (w : Option (Nat × Nat)) : g (distCp s cp c w) = g s :=
  h.over_distSecs s _ _ _ _

theorem Unreached.over_countPassage (s : State) (c : Nat) (pos : Bool) (lat : List (Nat × Int)) : g (countPassage s c pos lat) = g s := by
  unfold countPassage
  simp (disch := decide) only [h.write, apply_ite g, h.over_distSecs, h.over_clockTake, ite_self]

theorem Unreached.over_endWatches (s : State) (f : Nat × Nat → Option Bool) : g (endWatches s f) = g s := by
  unfold endWatches
  extract_lets t
  have all : g t = g s := forN_keeps g (fun u n _ => by
    split
    · simp (disch := decide) only [h.write, h.put, apply_ite g, ite_self]
    · rfl) s
  rw [apply_ite g]
  simp only [h.put, all, ite_self]

theorem Unreached.over_reviewSingle (s : State) : g (reviewSingle s) = g s := h.over_endWatches s _

theorem Unreached.over_secLeaveLull (s : State) (n : Nat) : g (secLeaveLull s n) = g s := by
  unfold secLeaveLull
  simp (disch := decide) only [h.write, h.put, apply_ite g, h.over_reviewSingle, ite_self]

theorem Unreached.over_syncEarly (s : State) : g (syncEarly s) = g s :=
  forN_keeps g (fun t n _ => h.set t (by decide) _ _) s

/-! ### Speed -/

theorem Unreached.over_setSpd (s : State) (p st : Nat) (v : Int) : g (setSpd s p st v) = g s := by
  unfold setSpd
  simp (disch := decide) only [h.write]

theorem Unreached.over_setDir (s : State) (p : Nat) (neg valid force : Bool) : g (setDir s p neg valid force) = g s := by
  unfold setDir
  simp (disch := decide) only [h.write, apply_ite g, ite_self]

theorem Unreached.over_spdHard (s : State) (p : Nat) : g (spdHard s p).1 = g s := by
  unfold spdHard
  extract_lets a b q v
  split_ifs <;> simp (disch := decide) only [h.write, h.over_setDir, h.over_setSpd]

theorem Unreached.over_spdRows (s : State) (p : Nat) : g (spdRows s p) = g s := by
  unfold spdRows
  have hard := h.over_spdHard s p
  split
  next t b e =>
    rw [e] at hard
    simp only [apply_ite g, h.over_setDir, h.over_setSpd, hard, ite_self]

theorem Unreached.over_spdPort (s : State) (q : Nat) : g (spdPort s q) = g s :=
  forN_keeps g (fun t p _ => by rw [apply_ite g, h.over_spdRows, ite_self]) s

end

end Sys2Proof.Machine
end

section
/-!
SUPPORT. The same of the encoders, the boundary units and the axle ledger.
-/

namespace Sys2Proof.Machine

section
variable {β : Type} {g : State → β} (h : Unreached g)
include h

/-! ### Virtual counting points and encoders -/

theorem Unreached.over_vcpJudge (s : State) (k : Nat) : g (vcpJudge s k).1 = g s := by
  unfold vcpJudge
  simp (disch := decide) only [h.write]

theorem Unreached.over_vcpEval (s : State) (k : Nat) : g (vcpEval s k) = g s := by
  have judged := h.over_vcpJudge s k
  unfold vcpEval vcpSides
  split
  · exact h.set s (by decide) _ _
  · split
    next t new e =>
      rw [e] at judged
      simp only [apply_ite g, h.over_note, h.put, h.over_distCp, judged, ite_self]

theorem Unreached.over_vcpEvalPort (s : State) (q : Nat) : g (vcpEvalPort s q) = g s :=
  forN_keeps g (fun t k _ => by rw [apply_ite g, h.over_vcpEval, ite_self]) s

theorem Unreached.over_denc1 (s : State) {f : Fld} (high : 0x200000 ≤ f.bit) (q : Nat) : g (denc1 s f q) = g s := h.set s high _ _

theorem Unreached.over_portLeaveLull (s : State) (q : Nat) : g (portLeaveLull s q) = g s := by
  unfold portLeaveLull
  split
  · refine (forN_keeps g (fun t n _ => by rw [apply_ite g, h.over_secLeaveLull, ite_self]) _).trans ?_
    simp (disch := decide) only [h.write, h.over_denc1]
  · rfl

theorem Unreached.over_portFault (s : State) (q : Nat) : g (portFault s q) = g s := by
  unfold portFault
  simp (disch := decide) only [apply_ite g, h.write, h.over_spdPort, h.over_vcpEvalPort, h.over_note, h.over_portLeaveLull, h.over_denc1, ite_self]

theorem Unreached.over_portRelease (s : State) (q : Nat) : g (portRelease s q) = g s := by
  have published (t : State) : g (portPublish t q) = g t := by
    unfold portPublish
    split
    · rfl
    · simp (disch := decide) only [h.write]
  unfold portRelease portLate portValid
  simp (disch := decide) only [apply_ite g, h.write, h.put, h.over_spdPort, h.over_vcpEvalPort, h.over_note, h.over_portLeaveLull, h.over_denc1,
    published, ite_self]

theorem Unreached.over_driftCheck (s : State) (m p : Nat) (neg : Bool) : g (driftCheck s m p neg) = g s := by
  unfold driftCheck
  simp (disch := decide) only [apply_ite g, h.write, h.over_denc1, h.over_portFault, h.over_portRelease, ite_self]

theorem Unreached.over_driftAt (s : State) (p : Nat) (neg : Bool) : g (driftAt s p neg) = g s :=
  forN_keeps g (fun t m _ => by rw [apply_ite g, h.over_driftCheck, ite_self]) s

/-! ### Boundary units, counts and bounds of a passage -/

theorem Unreached.over_unitInsert (s : State) (k serial p : Nat) (fix : Int) (lat : List (Nat × Int)) :
    g (unitInsert s k serial p fix lat) = g s := by
  unfold unitInsert
  simp only [apply_ite g, h.put, h.over_vcpEval, ite_self]

theorem Unreached.over_unitRemove (s : State) (k p : Nat) : g (unitRemove s k p) = g s := by
  unfold unitRemove
  extract_lets q
  split
  · rfl
  · rw [h.over_vcpEval]; exact h.units s _

theorem Unreached.over_unitRefix (s : State) (k p : Nat) (fix : Int) (lat : List (Nat × Int)) : g (unitRefix s k p fix lat) = g s := by
  unfold unitRefix
  extract_lets q x
  split
  · rfl
  · exact h.units s _

theorem Unreached.over_unitsPassage (s : State) (p serial : Nat) (fix : Int) (lat : List (Nat × Int)) (moves : List (Nat × Bool)) :
    g (unitsPassage s p serial fix lat moves) = g s := by
  have moved : g (forEach moves s (fun s m =>
      forEach (unitsOf s m.1) s (fun s k => if m.2 then unitInsert s k serial p fix lat else unitRemove s k p))) = g s :=
    forEach_keeps g (fun t m _ => forEach_keeps g (fun u k _ => by
      rw [apply_ite g, h.over_unitInsert, h.over_unitRemove, ite_self]) t) s
  unfold unitsPassage
  extract_lets t
  split
  · exact (forEach_keeps g (fun u k _ => h.over_unitRefix u k p fix lat) t).trans moved
  · exact moved

theorem Unreached.over_bcwCount (s : State) (c : Nat) (neg : Bool) : g (bcwCount s c neg) = g s := by
  unfold bcwCount bcwStep
  simp (disch := decide) only [apply_ite g, h.write, h.put, ite_self]

/-! ### The axle ledger -/

theorem Unreached.recs : (∀ (s : State) (i off n v : Nat), g (recPut s i off n v) = g s)
    ∧ ∀ (s : State) (i b : Nat) (v : Bool), g (recSetFlag s i b v) = g s :=
  ⟨fun s _ _ _ _ => h.mem s _, fun s _ _ _ => h.mem s _⟩

theorem Unreached.over_cmpStep (s : State) (k t : Nat) (x : Int) (e : Bool) : g (cmpStep s k t x e) = g s := by
  unfold cmpStep cmpFire
  split
  · rfl
  · split
    · exact h.cmps s _
    · simp (disch := decide) only [apply_ite g, h.write, h.put, h.over_gustKind, ite_self]

theorem Unreached.over_cmpLost (s : State) (k : Nat) : g (cmpLost s k) = g s := by
  unfold cmpLost
  simp (disch := decide) only [h.write]

theorem Unreached.over_setMembers (s : State) (i new : Nat) : g (setMembers s i new) = g s := by
  unfold setMembers
  extract_lets old t u
  have lapsed : g t = g s := by
    unfold t
    split
    · exact forN_keeps g (fun v n _ => by simp (disch := decide) only [apply_ite g, h.write, ite_self]) s
    · rfl
  have counts (v : State) : g (forN 48 v (fun s n =>
      if bitAt old n = bitAt new n then s
      else if bitAt new n then s.set F.LEDG_SECn_LCOUNT n (s.get F.LEDG_SECn_LCOUNT n + 1)
      else s.set F.LEDG_SECn_LCOUNT n (s.get F.LEDG_SECn_LCOUNT n - 1))) = g v :=
    forN_keeps g (fun v n _ => by simp (disch := decide) only [apply_ite g, h.write, ite_self]) v
  exact (counts u).trans ((h.recs.1 t _ _ _ _).trans lapsed)

theorem Unreached.over_moveMembers (s : State) (i : Nat) (dep arr : List Nat) : g (moveMembers s i dep arr) = g s := h.over_setMembers s i _

theorem Unreached.over_freeSlot (s : State) (i : Nat) : g (freeSlot s i) = g s := by
  unfold freeSlot
  split
  · rfl
  · have lost : g (forEach (cmpsOf s (axleId s i)) s cmpLost) = g s := forEach_keeps g (fun t k _ => h.over_cmpLost t k) s
    simp (disch := decide) only [h.write, h.put, h.over_setMembers, lost]

theorem Unreached.over_giveFix (s : State) (id : Nat) (e : AxleEst) (old : Option (Nat × Int)) : g (giveFix s id e old) = g s := by
  unfold giveFix
  extract_lets lim t u
  have told : g t = g s := by
    unfold t
    split
    · simp (disch := decide) only [apply_ite g, h.write, h.over_note, ite_self]
    · rfl
  exact (forEach_keeps g (fun v k _ => h.over_cmpStep v k _ _ _) u).trans ((h.ests t _).trans told)

theorem Unreached.over_fixObs (s : State) (o : Obs) (id : Nat) (old : Option (Nat × Int)) : g (fixObs s o id old) = g s :=
  h.over_giveFix s _ _ _

theorem Unreached.over_heldFrom (o s : State) (id t : Nat) (po ps : List (Nat × Int)) : g (heldFrom o s id t po ps) = g s := by
  unfold heldFrom
  simp only [apply_ite g, h.put, ite_self]

theorem Unreached.over_syncLedger (s : State) : g (syncLedger s) = g s :=
  forN_keeps g (fun t n _ => by simp (disch := decide) only [apply_ite g, h.write, ite_self]) s

theorem Unreached.over_setBad (s : State) {f : Fld} (high : 0x200000 ≤ f.bit) (l : List Nat) : g (setBad s f l) = g s :=
  forEach_keeps g (fun t n _ => by simp (disch := exact high) only [apply_ite g, h.write, ite_self]) s

theorem Unreached.over_coverLost (s : State) (l : List Nat) : g (coverLost s l) = g s :=
  forEach_keeps g (fun t n _ => h.set t (by decide : 0x200000 ≤ F.LEDG_SECn_COVER_LOST.bit) n 1) s

theorem Unreached.over_lapse (s : State) (i : Nat) : g (lapse s i) = g s := by
  unfold lapse
  simp (disch := decide) only [apply_ite g, h.write, h.recs, ite_self]

theorem Unreached.over_lapseSecs (s : State) (l : List Nat) : g (lapseSecs s l) = g s :=
  forEach_keeps g (fun t i _ => by rw [apply_ite g, h.over_lapse, ite_self]) s

theorem Unreached.over_ledgerClearSec (s : State) (n t : Nat) (ps : List (Nat × Int)) : g (ledgerClearSec s n t ps) = g s := by
  unfold ledgerClearSec
  refine (forEach_keeps g (fun v i _ => ?_) _).trans (h.put.1 s _)
  simp only [apply_ite g, h.over_note, h.over_freeSlot, h.over_heldFrom, h.over_setMembers, ite_self]

theorem Unreached.over_issue (s : State) (v : Verdict) : g (issue s v) = g s := by
  unfold issue
  simp (disch := decide) only [apply_ite g, h.write, h.put, h.over_coverLost, h.over_journal, h.over_gustKind, ite_self]

theorem Unreached.loose : (∀ (s : State) (id : Nat) (b : Bool), g (dropLoose s id b) = g s)
    ∧ (∀ (s : State) (o : Obs) (id : Nat), g (noteTaken s o id) = g s) ∧ ∀ (s : State) (o : Obs), g (putObs s o) = g s :=
  ⟨fun s _ _ => h.ledger s _, fun s _ _ => h.ledger s _, fun s _ => h.ledger s _⟩

theorem Unreached.over_localise (s : State) (o : Obs) (id : Nat) : g (localise s o id) = g s := by
  unfold localise
  extract_lets here t
  have all : g t = g (noteTaken s o id) := forEach_keeps g (fun u l _ => by
    split
    · split
      · rw [h.loose.1, h.over_issue]
      · rw [h.loose.1]
    · rw [apply_ite g, h.over_issue, ite_self]) _
  rw [apply_ite g, h.loose.1, all, h.loose.2.1, ite_self]

theorem Unreached.over_passedOver (s : State) (look : Nat) (o : Obs) : g (passedOver s look o) = g s := by
  unfold passedOver
  refine (forEach_keeps g (fun u l _ => ?_) _).trans (h.put.1 s _)
  split
  · rw [h.over_issue, h.loose.1]
  · rfl

theorem Unreached.over_insertFinal (s : State) (o : Obs) : g (insertFinal s o) = g s := by
  unfold insertFinal
  extract_lets t
  refine (h.put.1 t _).trans ?_
  unfold t
  split
  · exact h.over_issue s _
  · rfl

theorem Unreached.over_finalSkip (s : State) (o : Obs) (sk : Nat × Nat) : g (finalSkip s o sk) = g s := by
  unfold finalSkip
  split
  · rfl
  · simp only [h.put, h.recs, h.loose]
    split
    · simp only [apply_ite g, h.over_issue, h.loose, ite_self]
    · rfl

theorem Unreached.over_slip (s : State) (v : LedgVals) (o : Obs) (i : Nat) : g (slip s v o i) = g s := by
  unfold slip
  simp (disch := decide) only [apply_ite g, h.write, h.put, h.recs, h.over_journal, h.over_gustKind, ite_self]

theorem Unreached.over_linkAhead (s : State) (i : Nat) (o : Obs) : g (linkAhead s i o) = g s := by
  unfold linkAhead
  split <;> simp only [h.recs, h.put]

theorem Unreached.over_unlink (s : State) (o : Obs) : g (unlink s o) = g s := by
  unfold unlink
  split
  · simp only [apply_ite g, h.recs, ite_self]
  · rfl

theorem Unreached.over_writePassage (s : State) (i : Nat) (o : Obs) : g (writePassage s i o) = g s := by
  unfold writePassage
  simp only [h.over_linkAhead, h.recs, h.put]

theorem Unreached.over_createRec (s : State) (o : Obs) (b : Bool) : g (createRec s o b).1 = g s := by
  unfold createRec
  split
  · simp (disch := decide) only [h.write, h.over_coverLost]
  · simp (disch := decide) only [h.write, h.put, h.recs, h.over_writePassage, h.over_setMembers]

theorem Unreached.over_nameEntries (s : State) (serial id : Nat) : g (nameEntries s serial id) = g s :=
  (h.ledger _ _).trans (h.units s _)

theorem Unreached.over_virtualMove (s : State) (i : Nat) (m : VMove) : g (virtualMove s i m) = g s := by
  unfold virtualMove
  simp (disch := decide) only [apply_ite g, h.recs, h.over_freeSlot, h.over_heldFrom, h.over_moveMembers, h.over_setBad, ite_self]

theorem Unreached.over_virtualWaiting (s : State) (o : Obs) : g (virtualWaiting s o) = g s := by
  unfold virtualWaiting
  refine (forEach_keeps g (fun u v _ => ?_) _).trans (h.put.1 s _)
  split
  · exact h.over_virtualMove u _ v
  · rfl

theorem Unreached.over_freeMade (s : State) (o : Obs) : g (freeMade s o) = g s := by
  unfold freeMade
  split
  · rw [apply_ite g, h.over_freeSlot, ite_self]
  · rfl

theorem Unreached.over_syncProv (s : State) (i : Nat) : g (syncProv s i) = g s := h.recs.2 s i _ _

theorem Unreached.over_finalise (s : State) (v : LedgVals) (o : Obs) : g (finalise s v o) = g s := by
  have skipped (t : State) (o : Obs) (l : List (Nat × Nat)) : g (forEach l t (fun s sk => finalSkip s o sk)) = g t :=
    forEach_keeps g (fun u sk _ => h.over_finalSkip u o sk) t
  unfold finalise
  extract_lets o t u w passed skip placed named
  have begun : g u = g s := by
    simp (disch := decide) only [u, t, apply_ite g, h.over_setBad, h.over_freeMade, h.loose, ite_self]
  have slipped : g w = g s := by
    unfold w
    split
    · simp only [apply_ite g, h.over_slip, h.put, h.over_syncProv, begun, ite_self]
    · exact begun
  have done : g named = g s := by
    simp only [named, placed, skip, passed, apply_ite g, h.over_virtualWaiting, h.over_nameEntries, h.over_insertFinal, h.over_localise, skipped,
      h.over_passedOver, slipped, ite_self]
  split
  · rw [apply_ite g, h.over_freeSlot, done, ite_self]
  · exact done

theorem Unreached.over_assign (s : State) (o : Obs) (i dist margin : Nat) (tol late : Bool) : g (assign s o i dist margin tol late) = g s := by
  unfold assign
  extract_lets id saved old shadow mapped moved coded prov cleared withDist withMargin made o' written lapsed bad
  have before : g withMargin = g s := by
    simp only [withMargin, withDist, cleared, prov, coded, moved, apply_ite g, h.recs, h.over_moveMembers, ite_self]
  have remade : g made = g s := by
    unfold made
    split
    · rw [apply_ite g, h.over_setMembers, before, ite_self]
    · exact before
  simp (disch := decide) only [bad, lapsed, written, h.over_fixObs, apply_ite g, h.over_setBad, h.over_lapse, h.over_writePassage, h.loose, remade,
    ite_self]

theorem Unreached.over_putMade (s : State) (o : Obs) (i : Nat) (late : Bool) : g (putMade s o i late) = g s := by
  unfold putMade
  simp only [h.over_fixObs, apply_ite g, h.over_lapse, h.loose, h.recs, ite_self]

theorem Unreached.over_insertObs (s : State) (o : Obs) (late : Bool) : g (insertObs s o late) = g s := by
  unfold insertObs
  extract_lets t again
  have bad : g t = g s := h.over_setBad s (by decide) _
  clear_value again
  split
  · rw [h.over_putMade, h.over_linkAhead, h.recs.1, h.over_setMembers, bad]
  · have made := h.over_createRec t o true
    split
    next e => rw [e] at made; exact made.trans bad
    next e => rw [e] at made; rw [h.over_putMade]; exact made.trans bad

theorem Unreached.over_takeBack (s : State) (i : Nat) (saved : List Byte) : g (takeBack s i saved) = g s := by
  have fields (t : State) : g (forEach assignFields t (fun s f => s.putBytes (recAddr i + f.1) ((saved.drop f.1).take f.2))) = g t :=
    forEach_keeps g (fun u f _ => h.put.2.2.2.2.1 u _ _) t
  unfold takeBack
  simp only [apply_ite g, h.put, h.recs, h.over_setMembers, fields, ite_self]

theorem Unreached.over_undo (s : State) (own o : Obs) : g (undo s own o) = g s := by
  unfold undo
  split
  · rfl
  · simp only [apply_ite g, h.put, h.loose, h.over_syncProv, h.over_heldFrom, h.over_takeBack, h.over_unlink, ite_self]

theorem Unreached.over_applySteps (v : LedgVals) (late : Bool) (os : List (Obs × Int)) (cs : List Cand) (best : Rat) (s0 : State) (l : List AStep)
    (s : State) (prev : Nat × Int) (pend : List Cand) : g (applySteps v late os cs best s0 l s prev pend) = g s := by
  induction l generalizing s prev pend with
  | nil => rfl
  | cons x l ih =>
    cases x with
    | skip j =>
      unfold applySteps
      split
      · rw [ih, apply_ite g, h.over_setBad _ (by decide), ite_self]
      · exact ih s _ _
    | ins i =>
      unfold applySteps
      split
      · rw [ih, h.over_insertObs]
      · exact ih s _ _
    | hit i j =>
      unfold applySteps
      split
      · rw [ih, h.over_assign]
      · exact ih s _ _

theorem Unreached.over_syncWaiting (s : State) : g (syncWaiting s) = g s := by
  unfold syncWaiting
  extract_lets deps
  split
  · rfl
  · exact forEach_keeps g (fun t i _ => by simp only [apply_ite g, h.put, h.recs, ite_self]) s

theorem Unreached.over_finaliseJob (s : State) (v : LedgVals) (j : Job) (exhausted : Bool) : g (finaliseJob s v j exhausted) = g s :=
  forEach_keeps g (fun t o _ => h.over_finalise t v o) s

theorem Unreached.over_runJob (s : State) (j : Job) : g (runJob s j) = g s := by
  have undone (own : Obs) (l : List Obs) : g (forEach l s (fun s o => undo s own o)) = g s :=
    forEach_keeps g (fun t o _ => h.over_undo t own o) s
  unfold runJob
  extract_lets v
  split
  split
  · rfl
  · extract_lets t later cs base os
    split
    rw [h.over_finaliseJob, h.over_applySteps]
    exact undone _ _

theorem Unreached.over_syncQueue (s : State) : g (syncQueue s) = g s := by
  unfold syncQueue
  simp (disch := decide) only [apply_ite g, h.write, ite_self]

theorem Unreached.over_createFor (s : State) (look : Nat) (o : Obs) : g (createFor s look o) = g s := by
  have made := h.over_createRec s o false
  unfold createFor
  split
  next e => rw [e] at made; exact (h.loose.2.2 _ _).trans made
  next e =>
    rw [e] at made
    rw [h.over_virtualWaiting, h.over_passedOver, h.over_nameEntries, h.over_fixObs]
    exact (h.loose.2.2 _ _).trans made

theorem Unreached.over_quietTurn (s : State) (j : Job) : g (quietTurn s j) = g s :=
  forEach_keeps g (fun t o _ => h.over_finalise t j.vals o) s

theorem Unreached.over_virtualTurn (s : State) (id : Nat) (m : VMove) : g (virtualTurn s id m) = g s := by
  unfold virtualTurn
  split
  · exact h.ledger s _
  · split
    · exact h.over_virtualMove s _ m
    · rfl

theorem Unreached.over_applyTurns (fuel : Nat) (s : State) : g (applyTurns fuel s) = g s := by
  induction fuel generalizing s with
  | zero => rfl
  | succ fuel ih =>
    unfold applyTurns
    split
    · rfl
    · next j rest _ =>
      extract_lets _ t
      have taken : g t = g s := h.ledger s _
      split
      · rw [ih, h.over_runJob, taken]
      · rw [ih]
        split
        · rw [h.over_createFor, taken]
        · exact taken
      · rw [ih, h.over_quietTurn, taken]
      · rw [ih, h.over_virtualTurn, taken]
      · rw [apply_ite g, ih, h.over_ledgerClearSec, taken, ite_self]
      · rfl

theorem Unreached.over_syncTurns (s : State) : g (syncTurns s) = g s := by
  unfold syncTurns
  rw [h.over_syncLedger, h.over_syncWaiting, h.over_syncQueue, h.over_applyTurns]

theorem Unreached.over_ledgerSweeps (s : State) : g (ledgerSweeps s) = g s := by
  unfold ledgerSweeps
  simp only [apply_ite g, h.put, ite_self]

theorem Unreached.over_ledgerPassage (s : State) (o : Obs) : g (ledgerPassage s o) = g s := by
  unfold ledgerPassage
  simp (disch := decide) only [h.over_syncTurns, apply_ite g, h.write, h.put, h.loose, h.over_coverLost, h.over_lapseSecs, ite_self]

end

end Sys2Proof.Machine
end

section
/-!
SUPPORT. The same of a passage, of a point that becomes BLIND, and of the drive of the sources as it begins or ends, for what reads neither points
nor channels.
-/

namespace Sys2Proof.Machine

/-- `g` reads nothing that an event of a sensor point reaches, its points and channels and the bound of a channel's passage among them. -/
structure Aloof {β : Type} (g : State → β) : Prop extends Unreached g where
  bound : ∀ (s : State) {f : Fld}, f ∈ [F.MEAS_CHn_BPASS_B, F.MEAS_CHn_BPASS_VALID] → ∀ c, c < 48 → ∀ v, g (s.set f c v) = g s
  points : ∀ (s : State) x, g { s with points := x } = g s
  chans : ∀ (s : State) x, g { s with chans := x } = g s

section
variable {β : Type} {g : State → β} (h : Aloof g)
include h

theorem Aloof.upds : (∀ (s : State) (n : Nat) (f : Point → Point), g (s.updPoint n f) = g s)
    ∧ ∀ (s : State) (n : Nat) (f : Chan → Chan), g (s.updChan n f) = g s :=
  ⟨fun s _ _ => h.points s _, fun s _ _ => h.chans s _⟩

/-! ### A passage -/

theorem Aloof.over_dropEarly (s : State) (p : Nat) : g (dropEarly s p) = g s := (h.over_syncEarly _).trans (h.points s _)

theorem Aloof.over_pointLeaveLull (s : State) (p : Nat) : g (pointLeaveLull s p) = g s := by
  have secs (t : State) : g (forEach (secsOnPoint t p) t secLeaveLull) = g t := forEach_keeps g (fun u n _ => h.over_secLeaveLull u n) t
  unfold pointLeaveLull
  simp (disch := decide) only [apply_ite g, secs, h.write, h.upds, ite_self]

theorem Aloof.over_emit (s : State) (p : Nat) (i : EvInfo) (ts : Nat) (lat : List (Nat × Int)) : g (emit s p i ts lat) = g s := by
  unfold emit
  extract_lets t bytes u fault v
  have queued : g u = g s := by simp (disch := decide) only [u, t, apply_ite g, h.write, h.over_gust, ite_self]
  have counted : g v = g s := by
    unfold v
    split <;> simp (disch := decide) only [fault, apply_ite g, h.write, h.over_journal, queued, ite_self]
  split
  · exact (h.points v _).trans counted
  · exact (h.over_pointLeaveLull v p).trans counted

theorem Aloof.over_boundOfPassage (s : State) {c : Nat} (lt : c < 48) (v : Int) : g (boundOfPassage s c v) = g s := by
  unfold boundOfPassage
  exact (h.bound _ (by decide) c lt _).trans (h.bound s (by decide) c lt _)

theorem Aloof.over_passage (s : State) {p : Nat} (lt : p < 24) (neg : Bool) : g (passage s p neg) = g s := by
  unfold passage
  obtain ⟨ltA, ltB⟩ : 2 * p < 48 ∧ 2 * p + 1 < 48 := by omega
  extract_lets pt ts lat t serial u tn d1 d2 v vt ca cb sin centre tc fix moves w w1 w2 w3 host station da
  split
  next sig part _ =>
  extract_lets w4
  have told : g u = g s := (h.set t (by decide) _ _).trans (h.over_emit s p _ _ _)
  have counted : g w = g s := by
    unfold w
    split
    · rw [h.over_bcwCount, h.over_ledgerSweeps, h.over_dropEarly, h.over_countPassage, told]
    · rw [h.over_dropEarly, told]
  have entered : g w4 = g w := by
    simp only [w4, w3, w2, w1, apply_ite g, h.over_ledgerPassage, h.over_unitsPassage, h.over_boundOfPassage _ ltA,
      h.over_boundOfPassage _ ltB, h.over_driftAt, ite_self]
  exact (h.points w4 _).trans (entered.trans counted)

theorem Aloof.over_abandon (s : State) {p : Nat} (lt : p < 24) : g (abandon s p) = g s := by
  unfold abandon
  refine (h.points _ _).trans ((h.over_dropEarly _ p).trans ?_)
  split
  · exact h.over_passage s lt _
  · exact h.over_passage s lt _
  · rfl

/-! ### A point becomes BLIND -/

theorem Aloof.over_enterBlind (s : State) {p : Nat} (lt : p < 24) (cause : Cause) : g (enterBlind s p cause) = g s := by
  have marks : g (blindMarks s p cause) = g s := by
    unfold blindMarks
    simp only [h.upds, apply_ite g, h.over_abandon _ lt, ite_self]
  have told : g (blindTold s p cause) = g s := by
    unfold blindTold
    rw [h.over_reviewSingle, h.over_note, h.over_spdHard, marks]
  cases seen : (s.point p).blind with
  | true => rw [enterBlind_blind seen]
  | false =>
    obtain ⟨watch, eq⟩ := enterBlind_eq seen cause
    rw [eq]
    split
    · exact told
    · split
      · rw [h.over_distCp, told]
      · exact told

/-! ### The drive of the sources begins or ends -/

theorem Aloof.over_carrierGone (s : State) {p : Nat} (lt : p < 24) (t : Nat) : g (carrierGone s p t) = g s := by
  unfold carrierGone
  rw [apply_ite g, h.upds.1, h.over_enterBlind _ lt, ite_self]

theorem Aloof.over_carrierBack (s : State) {p : Nat} (lt : p < 24) (t : Nat) : g (carrierBack s p t) = g s := by
  unfold carrierBack
  rw [apply_ite g, h.upds.1, h.over_enterBlind _ lt, ite_self]

/-- Of the sources' drive such a reading sees DRIVE_EN alone. -/
theorem Aloof.over_syncDrive (s : State) : g (syncDrive s) = g (s.setFlag F.EXC_MODE_DRIVE_EN 0 (srcMay s)) := by
  unfold syncDrive
  extract_lets on t
  rw [apply_ite g, apply_ite g, forN_keeps g fun u p lt => h.over_carrierBack u lt _, forN_keeps g fun u p lt => h.over_carrierGone u lt _,
    ite_self, ite_self]

end

end Sys2Proof.Machine
end

section
/-!
SUPPORT. What the supervision of the channels shows (SUP_* and the sweep of start-up): settling never touches it, whether or not the drive of
the sources begins or ends.
-/

namespace Sys2Proof.Machine

/-- The bit addresses of the supervision's registers. -/
def supKey (k : Nat) : Bool := decide (0x180000 ≤ k ∧ k < 0x200000)

/-- What the supervision shows: its registers, the sweep, the state of the tone path, and the tick. -/
def State.supervised (s : State) : (Nat → Nat) × Boot × Tone × Nat := (s.seen supKey, s.boot, s.tone, s.now)

theorem quietKey_of_supKey {k : Nat} (h : supKey k = true) : quietKey k = true := by
  have apart : ∀ x ∈ loudFields, supKey x = false := by decide
  have single : k ∉ loudFields := fun mem => Bool.noConfusion ((apart k mem).symm.trans h)
  simp only [supKey, decide_eq_true_eq] at h
  simp only [quietKey, Bool.not_eq_true', Bool.or_eq_false_iff, decide_eq_false_iff_not, List.contains_eq_mem, single, decide_false, true_and]
  omega

theorem supervised_set (s : State) {f : Fld} {i : Nat} (h : supKey (f.key i) = false) (v : Nat) : (s.set f i v).supervised = s.supervised :=
  congrArg (·, s.boot, s.tone, s.now) (seen_set s h v)

theorem key_bound : ∀ f ∈ [F.MEAS_CHn_BPASS_B, F.MEAS_CHn_BPASS_VALID], ∀ c < 48, supKey (f.key c) = false := by
  decide

theorem supervised_aloof : Aloof State.supervised where
  set s f high i v := supervised_set s (decide_eq_false (by unfold Fld.key; omega)) v
  mem _ _ := rfl
  secs _ _ := rfl
  encs _ _ := rfl
  units _ _ := rfl
  cmps _ _ := rfl
  ests _ _ := rfl
  fab _ _ := rfl
  ledger _ _ := rfl
  bcw _ _ := rfl
  bound s f mem c lt v := supervised_set s (key_bound f mem c lt) v
  points _ _ := rfl
  chans _ _ := rfl

theorem supervised_of_keeps {s t : State} (h : Keeps s t) : t.supervised = s.supervised := by
  have regs : t.seen supKey = s.seen supKey := by
    funext k
    unfold State.seen
    split
    next at_ => exact h.regs k (quietKey_of_supKey at_)
    next => rfl
  have tone : t.tone = s.tone := h.reads State.tone fun _ => rfl
  unfold State.supervised
  rw [regs, h.boot, tone, h.now]

theorem supervised_settled (s u : State) : (settled s u).supervised = u.supervised := by
  have lines : (settled s u).supervised = (settle u).supervised := by
    rw [settled_eq]
    generalize settle u = w
    obtain ⟨l, eq, -⟩ := putLines_eq w
    rw [eq]
    rfl
  have drive (v : State) : (v.setFlag F.EXC_MODE_DRIVE_EN 0 (srcMay v)).supervised = v.supervised := supervised_set v (by decide) _
  have rest : Keeps (syncDrive (sampleInputs u)) (settle u) := ((keeps_canSync _).trans (keeps_fabSettle _)).trans (keeps_outStep _)
  calc (settled s u).supervised = (settle u).supervised := lines
    _ = (syncDrive (sampleInputs u)).supervised := supervised_of_keeps rest
    _ = (sampleInputs u).supervised := (supervised_aloof.over_syncDrive _).trans (drive _)
    _ = u.supervised := supervised_of_keeps (keeps_sampleInputs u)

section
variable {s t : State} (h : t.supervised = s.supervised)
include h

/-- A register of the supervision, read alike. -/
theorem get_of_supervised (f : Fld) (i : Nat) (at_ : supKey (f.key i) = true) : t.get f i = s.get f i :=
  get_of_seen (congrArg Prod.fst h) at_

theorem boot_of_supervised : t.boot = s.boot := congrArg (fun x => x.2.1) h

theorem tone_of_supervised : t.tone = s.tone := congrArg (fun x => x.2.2.1) h

theorem now_of_supervised : t.now = s.now := congrArg (fun x => x.2.2.2) h

end

end Sys2Proof.Machine
end

section
/-!
PROOFS. The self-check of the tone path (R109): O30.
-/

namespace Sys2Proof.Machine

/-! ### Effects at a tick of their own -/

theorem timed_now {f : State → State} {s : State} (h : (f s).now = s.now ∨ calm s = true) : timed f s = f s := if_pos h

/-- A command that answers a timed effect. -/
theorem answersTimed_of {c : Instr} {f : State → State} {s u : State} (run : exec c s = answer s (timed f s)) (eq : f s = u) :
    AnswersTimed c f s u := by
  subst eq
  refine ⟨run, rfl, fun still => ?_⟩
  have now := run.trans (congrArg (answer s) (timed_now still))
  exact ⟨now, answers_of now⟩

/-! ### The check in its slot -/

/-- The self-check of the running slot begun at tick 54,600. -/
def selfBegun (s : State) : State := (s.advanceTo (s.cycleStart + 54600)).putTone { s.tone with visited := s.cycle + 1 }

/-- A failed self-check told: TONE_ERR, its journal entry, and the failure kept for the next rotation. -/
def selfTold (s : State) : State :=
  let t := ((s.raise F.SUP_STATUS_TONE_ERR).firstErr F.URED_FIRST_TONE 3000000).note 0 0x03 8 0xFF 0
  t.putTone { t.tone with fail48 := true }

/-- A self-check that fails, its slot's own results written: after a second failed rotation SAFE is held for the boundary. -/
def selfFailed (s : State) : State :=
  if (selfTold s).tone.fails != 0 && (selfTold s).dev != .comm then safeLater (selfTold s) 7 else selfTold s

section
variable {s : State} (counting : s.counting = true) (fresh : s.tone.visited ≠ s.cycle + 1)
include counting fresh

theorem toneSelf_pass48 (slot : s.cycle % 50 = 48) {mag ph : Nat} (low : 1960 ≤ mag) (high : mag ≤ 2040)
    (phase : 360 * (toSigned 16 ph).natAbs ≤ 65536) (residual : Nat) : toneSelf s mag ph residual =
      ((((selfBegun s).set F.SUP_SELF_MAG 0 mag).set F.SUP_SELF_PASS48 0 1).putBoot { s.boot with sweepOk48 := true }).putTone
        { s.tone with visited := s.cycle + 1, fails := b2n s.tone.fail48, fail48 := false } := by
  simp only [toneSelf, slot, counting, fresh, low, high, phase]
  rfl

theorem toneSelf_pass49 (slot : s.cycle % 50 = 49) {residual : Nat} (low : residual < 10) (mag ph : Nat) : toneSelf s mag ph residual =
    ((selfBegun s).set F.SUP_SELF_PASS49 0 1).putBoot { s.boot with sweepOk49 := true } := by
  simp only [toneSelf, slot, counting, fresh, low]
  rfl

theorem toneSelf_fail49 (slot : s.cycle % 50 = 49) {residual : Nat} (high : ¬residual < 10) (mag ph : Nat) : toneSelf s mag ph residual =
    selfFailed (((selfBegun s).set F.SUP_SELF_PASS49 0 0).putBoot { s.boot with sweepOk49 := false }) := by
  simp only [toneSelf, slot, counting, fresh, high]
  rfl

end

theorem supervised_firstErr (s : State) {f : Fld} (high : 0x200000 ≤ f.bit) (n : Nat) : (s.firstErr f n).supervised = s.supervised := by
  unfold State.firstErr State.firstErrFrom
  split
  · split
    · exact (supervised_aloof.set _ (by decide) 0 1).trans (supervised_aloof.set s high 0 1)
    · rfl
  · rfl

/-- What a failed self-check leaves of the supervision: TONE_ERR, and the failure for the next rotation. -/
theorem supervised_selfFailed (s : State) : (selfFailed s).supervised
    = ((s.set F.SUP_STATUS_TONE_ERR 0 1).putTone { s.tone with fail48 := true }).supervised := by
  have noted : (((s.raise F.SUP_STATUS_TONE_ERR).firstErr F.URED_FIRST_TONE 3000000).note 0 0x03 8 0xFF 0).supervised
      = (s.set F.SUP_STATUS_TONE_ERR 0 1).supervised :=
    (supervised_aloof.over_note _ _ _ _ _ _).trans (supervised_firstErr _ (by decide) _)
  have told : (selfTold s).supervised = ((s.set F.SUP_STATUS_TONE_ERR 0 1).putTone { s.tone with fail48 := true }).supervised :=
    congrArg (fun x => (x.1, x.2.1, { x.2.2.1 with fail48 := true }, x.2.2.2)) noted
  have later (t : State) : (safeLater t 7).supervised = t.supervised := rfl
  unfold selfFailed
  rw [apply_ite State.supervised, later, ite_self, told]

/-- What stands wherever the supervision is as a failed self-check leaves it. -/
theorem failed_shows {s t : State} (h : t.supervised = (selfFailed s).supervised) : t.get F.SUP_STATUS_TONE_ERR = 1
    ∧ t.get F.SUP_SELF_PASS49 = s.get F.SUP_SELF_PASS49 ∧ t.boot = s.boot ∧ t.tone.fail48 = true ∧ t.now = s.now := by
  have shown := h.trans (supervised_selfFailed s)
  refine ⟨?_, ?_, (boot_of_supervised shown).trans rfl, congrArg Tone.fail48 (tone_of_supervised shown), (now_of_supervised shown).trans rfl⟩
  · rw [get_of_supervised shown F.SUP_STATUS_TONE_ERR 0 (by decide), State.get_putTone]
    exact State.get_set_self s _ _ _
  · rw [get_of_supervised shown F.SUP_SELF_PASS49 0 (by decide), State.get_putTone]
    exact State.get_set_ne s _ (by decide)

theorem advanceTo_eq {s : State} {t m : Nat} (h : m = max s.now (min t (s.nextBoundary - 1))) : s.advanceTo t = s.putNow m := by rw [h]; rfl

/-- Settles O30: a check that passes writes its slot's results, and one that fails keeps them over all that settling does. -/
theorem toneSelfCheckVerdict : Obligations.ToneSelfCheckVerdict := by
  intro s mag ph residual m lines counting fresh tick
  have begun : selfBegun s = (s.putNow m).putTone { s.tone with visited := s.cycle + 1 } :=
    congrArg (State.putTone · _) (advanceTo_eq tick)
  refine ⟨fun slot low high phase => ?_, fun slot low => ?_, fun slot high still => ?_⟩
  · refine answersTimed_of rfl ((toneSelf_pass48 counting fresh slot low high phase _).trans ?_)
    rw [begun]
  · refine answersTimed_of rfl ((toneSelf_pass49 counting fresh slot low _ _).trans ?_)
    rw [begun]
  · have failed := toneSelf_fail49 counting fresh slot (Nat.not_lt.mpr high) mag.toNat ph.toNat
    have now : (toneSelf s mag.toNat ph.toNat residual.toNat).now = m := by
      obtain ⟨-, -, -, -, now⟩ := failed_shows (congrArg State.supervised failed)
      exact now.trans (congrArg State.now begun)
    have acts := (timed_now (f := (toneSelf · mag.toNat ph.toNat residual.toNat)) (still.symm.imp_left now.trans)).trans failed
    obtain ⟨err, pass, boot, fail, -⟩ := failed_shows (supervised_settled s _)
    refine ⟨_, congrArg (answer s) acts, pass.trans ?_, err, congrArg Boot.sweepOk49 boot, fail⟩
    exact (State.get_set_self (selfBegun s) F.SUP_SELF_PASS49 0 0).trans rfl

end Sys2Proof.Machine
end

section
/-!
PROOFS. Tone visits (R103 to R107): O29.
-/

namespace Sys2Proof.Machine

/-- Cycle 5 of an OPERATIONAL unit, the slot of channel 5: its point is OFF, AGE_LIM is 1 and its AGE 1,200, so that the visit is SKIPPED and
AGE passes its limit; the cell of the channel's STALE bit holds 2, which one bit does not hold. -/
def staleWide : State :=
  let s := { State.reset with
    regs := [(F.SUP_CHn_VISIT_STALE.key 5, 2)], boot := { State.reset.boot with stage := 5 }, cycle := 5, now := 300000
    sio := { State.reset.sio with nextSample := 50 } }
  let s := ((s.set F.DEV_STATE_STATE 0 4).set F.DEV_STATE_ROLE 0 1).set F.CRU_CLK_PLL_LOCK 0 1
  let s := ((s.set F.EXC_CARRIER_SPn_MODE 2 mOff).set F.SUP_TONE_CFG_AGE_LIM 0 1).set F.SUP_CHn_VISIT_AGE 5 1200
  s.putLines (computeLines s)

/-- The state that the visit finds at tick 54,600. -/
def staleWideDue : State := (tagsPass staleWide (staleWide.cycleStart + 54600)).advanceTo (staleWide.cycleStart + 54600)

theorem staleWide_meets : LinesFollow staleWide ∧ staleWide.counting = true ∧ staleWide.cycle % 50 = 5
    ∧ staleWide.tone.visited ≠ staleWide.cycle + 1 ∧ staleWide.get F.SUP_TONE_CFG_AGE_LIM * 1200 ≠ 0 := by
  unfold LinesFollow
  decide +kernel

theorem staleWideDue_meets : excMode staleWideDue 2 = mOff
    ∧ staleWide.get F.SUP_TONE_CFG_AGE_LIM * 1200 < satInc F.SUP_CHn_VISIT_AGE.width (staleWideDue.get F.SUP_CHn_VISIT_AGE 5) := by
  decide +kernel

/-- The visit leaves the cell as it is: a value other than 0 counts as STALE already. -/
theorem staleWide_leaves : (toneVisit staleWide 5 0 0 false none).get F.SUP_CHn_VISIT_STALE 5 = 2 := by
  decide +kernel

/-- Refutes O29: STALE of a channel whose AGE passes its limit reads 1 in the statement, but the check writes it only where the bit reads 0,
and a cell that holds 2 stays. `State.set` leaves no cell above its field's width, but the statement has no premise that the register store
is of that form. -/
theorem not_toneVisits : ¬Obligations.ToneVisits := by
  intro all
  obtain ⟨lines, counting, slot, fresh, limit⟩ := staleWide_meets
  obtain ⟨off, passed⟩ := staleWideDue_meets
  obtain ⟨-, -, skipped, -⟩ := all staleWide 5 0 0 false none _ lines counting slot fresh rfl
  obtain ⟨u, run, -, -, -, stale, -⟩ := skipped _ (Or.inr (Or.inl off)) rfl
  have model : exec (.toneVisitVerdict 5 0 0 false none) staleWide = .next (settled staleWide (toneVisit staleWide 5 0 0 false none)) := rfl
  have same := Host.Outcome.next.inj (run.symm.trans model)
  have kept : u.get F.SUP_CHn_VISIT_STALE 5 = 2 := by
    have shown : u.supervised = (toneVisit staleWide 5 0 0 false none).supervised := by
      rw [← supervised_settled staleWide u, same, supervised_settled]
    exact (get_of_supervised shown _ _ (by decide)).trans staleWide_leaves
  exact absurd (kept.symm.trans (stale limit passed)) (by decide)

end Sys2Proof.Machine
end

section
/-!
PROOFS. Episodes of the deviation monitor (R96, R97): O28.
-/

namespace Sys2Proof.Machine

theorem key_monitor : ∀ c < 48, drivesSource (F.SUP_CHn_FAULT_FLAG_CNT.key c) = false ∧ drivesSource (F.SUP_CHn_FAULT_GLITCH_CNT.key c) = false
    ∧ quietKey (F.SUP_CHn_FAULT_FLAG_CNT.key c) = true := by
  decide +kernel

theorem monitorFlag_begins {s : State} {c : Nat} (counting : s.counting = true) (free : (s.chan c).mon = none) (on : excMode s (c / 2) ≠ mOff)
    (onset : Nat) (k : MonClass) : monitorFlag s c onset k = monStart s c onset (monReason k) :=
  if_neg (by simp [counting, free, on])

theorem monitorFlag_idle {s : State} {c : Nat} (h : (s.chan c).mon.isSome = true ∨ excMode s (c / 2) = mOff) (onset : Nat) (k : MonClass) :
    monitorFlag s c onset k = s :=
  if_pos (h.elim Or.inl fun off => Or.inr (Or.inr off))

theorem monitorEnd_idle {s : State} {c : Nat} (free : (s.chan c).mon = none) (last : Nat) : monitorEnd s c last = s := by
  simp only [monitorEnd, free]

/-- The episode of a channel ended, its interval kept. -/
def monOver (s : State) (c onset last reason : Nat) : State :=
  s.updChan c (fun x => { x with mon := none, inval := (onset, last, reason) :: x.inval })

/-- An episode that made no channel FAULTY counted and journaled. -/
def monCounted (s : State) (c : Nat) : State :=
  let t := s.counted F.SUP_CHn_FAULT_FLAG_CNT c
  t.countNote 0x03 0xFF c (supFaultWord t c) (t.get F.SUP_CHn_FAULT_FLAG_CNT c)

theorem monitorEnd_running {s : State} {c onset reason : Nat} (run : (s.chan c).mon = some (onset, reason)) (last : Nat) :
    monitorEnd s c last =
      let t := tagsTo s c (last / 1250 + 1) s.now
      if (t.chan c).monFaulted then monOver t c onset last reason else monCounted (monOver t c onset last reason) c := by
  simp only [monitorEnd, run]
  rfl

/-- What only a loud field or the journal changes keeps the drive steady. -/
theorem DriveSteady.keeps {s t : State} (h : DriveSteady s) (k : Keeps s t) : DriveSteady t := by
  unfold DriveSteady
  rw [k.counting, k.srcMay, k.lines]
  exact h

theorem monCounted_steady {s : State} (h : DriveSteady s) {c : Nat} (lt : c < 48) : DriveSteady (monCounted s c) :=
  (h.set (key_monitor c lt).1).keeps (keeps_countNote _ _ _ _ _ _)

/-- A saturating count fits the bits it counts in. -/
theorem satInc_mod (w v : Nat) : satInc w v % 2 ^ w = satInc w v := by
  have pos : 0 < 2 ^ w := Nat.two_pow_pos w
  unfold satInc
  split <;> exact Nat.mod_eq_of_lt (by omega)

theorem monCounted_regs (s : State) {c k : Nat} (quiet : quietKey k = true) (other : k ≠ F.SUP_CHn_FAULT_FLAG_CNT.key c) :
    storeGet 0 (monCounted s c).regs k = storeGet 0 s.regs k :=
  ((keeps_countNote _ _ _ _ _ _).regs k quiet).trans (State.regs_set_ne s _ other)

theorem monCounted_count (s : State) {c : Nat} (lt : c < 48) :
    (monCounted s c).get F.SUP_CHn_FAULT_FLAG_CNT c = satInc 8 (s.get F.SUP_CHn_FAULT_FLAG_CNT c) :=
  ((keeps_countNote _ _ _ _ _ _).get _ c (key_monitor c lt).2.2).trans ((State.get_set_self s _ c _).trans (satInc_mod 8 _))

theorem monCounted_chans (s : State) (c : Nat) : (monCounted s c).chans = s.chans :=
  (keeps_countNote _ _ _ _ _ _).reads State.chans fun _ => rfl

/-- Settles O28: a flag begins an episode or nothing, and the end of one is counted unless it made the channel FAULTY. -/
theorem monitorEpisodes : Obligations.MonitorEpisodes := by
  intro s ch lines counting
  have lt := ch.isLt
  refine ⟨fun onset c free on => ?_, fun onset c idle => ?_, fun onset reason last run => ?_, fun free last => ?_, ?_⟩
  · exact congrArg (answer s) (monitorFlag_begins counting free on onset c)
  · exact answers_of (congrArg (answer s) (monitorFlag_idle idle onset c)) lines.steady
  · intro v u steady
    have whole : DriveSteady u := steady
    have ended := congrArg (answer s) (monitorEnd_running run last)
    refine ⟨fun faulted => ?_, fun clear => ?_⟩
    · exact answers_of (ended.trans (congrArg (answer s) (if_pos faulted))) whole
    · have counted := monCounted_steady whole lt
      have same := settle_keeps _ counted
      refine ⟨_, ended.trans (congrArg (answer s) (if_neg (Bool.eq_false_iff.mp clear))), ?_, ?_, fun k quiet other => ?_⟩
      · exact (settled_chans s _).trans ((same.reads State.chans fun _ => rfl).trans (monCounted_chans u _))
      · exact (settled_get_quiet counted _ _ (key_monitor _ lt).2.2).trans (monCounted_count u lt)
      · exact (congrArg (storeGet 0 · k) (settled_regs s _)).trans ((same.regs k quiet).trans (monCounted_regs u quiet other))
  · exact answers_of (congrArg (answer s) (monitorEnd_idle free last)) lines.steady
  · exact answers_of (congrArg (answer s) (if_pos counting)) (lines.steady.set (key_monitor _ lt).2.1)

end Sys2Proof.Machine
end

section
/-!
PROOFS. CLEAR and the release from FAULTY (R113): O31.
-/

namespace Sys2Proof.Machine

/-- Cycle 1 of an OPERATIONAL unit at its boundary with channel 5 FAULTY, armed and after its fourth PASS, its last sample valid and below
the off-threshold; the list of the sensor points is empty. -/
def releasePointless : State :=
  let s := { State.reset with points := [], boot := { State.reset.boot with stage := 5 }, cycle := 1, now := 60000 }
  let s := ((s.set F.DEV_STATE_STATE 0 4).set F.DEV_STATE_ROLE 0 1).set F.CRU_CLK_PLL_LOCK 0 1
  let s := (s.set F.SUP_CHn_FAULT_CLR_ARMED 5 1).set F.SUP_CHn_FAULT_PASS_CNT 5 4
  let s := s.updChan 5 (fun c => { c with faulty := true, lastTag := 0, lastL := -1 })
  s.putLines (computeLines s)

theorem releasePointless_meets : LinesFollow releasePointless ∧ releasePointless.counting = true ∧ atBoundary releasePointless = true
    ∧ releasePointless.chans.length = 48 ∧ (releasePointless.chan 5).faulty = true ∧ releasePointless.flag F.SUP_CHn_FAULT_CLR_ARMED 5 = true
    ∧ releasePointless.get F.SUP_CHn_FAULT_PASS_CNT 5 = 4 ∧ (releasePointless.chan 5).lastTag = 0
    ∧ (releasePointless.chan 5).lastL < offThr releasePointless 5 := by
  unfold LinesFollow
  decide +kernel

/-- The release leaves no point with the tick of the boundary: there is none to write it to. -/
theorem releasePointless_leaves : releasePointless.now = 60000
    ∧ ((settled releasePointless (faultyRelease releasePointless 5)).point 2).quietSince = 0 := by
  decide +kernel

/-- Refutes O31: the release stamps the channel's sensor point with its tick, which no list without that point can keep; the statement has
the premise that there are 48 channels and none that there are 24 points. -/
theorem not_supervisionAgeAndClear : ¬Obligations.SupervisionAgeAndClear := by
  intro all
  obtain ⟨lines, counting, boundary, channels, faulty, armed, passes, tag, below⟩ := releasePointless_meets
  obtain ⟨now, stamp⟩ := releasePointless_leaves
  obtain ⟨-, -, -, release⟩ := all releasePointless 5 lines
  obtain ⟨t, run, -, -, -, -, -, quiet, -⟩ := release counting boundary channels faulty armed passes tag below
  have model : exec (.faultyRelease 5) releasePointless = .next (settled releasePointless (faultyRelease releasePointless 5)) :=
    congrArg (answer releasePointless) (if_pos (by rw [boundary, counting]; rfl))
  have same : t = settled releasePointless (faultyRelease releasePointless 5) := Host.Outcome.next.inj (run.symm.trans model)
  rw [same, now] at quiet
  exact absurd (stamp.symm.trans quiet) (by decide)

end Sys2Proof.Machine
end

section
/-!
PROOFS. Reference impedances (R115): O32.
-/

namespace Sys2Proof.Machine

theorem syncZrefBusy_steady {s : State} (h : DriveSteady s) : DriveSteady (syncZrefBusy s) := h.set (by decide)

theorem key_zref : ∀ c < 48, drivesSource (F.SUP_CHn_ZREF_MAG.key c) = false ∧ drivesSource (F.SUP_CHn_ZREF_PHASE.key c) = false := by
  decide +kernel

/-- The capture of a channel ended, one way or the other. -/
def zCapOver (s : State) (c : Nat) : State := s.updChan c (fun x => { x with zCap := none })

theorem zCapOver_steady {s : State} (h : DriveSteady s) (c : Nat) : DriveSteady (zCapOver s c) := h

theorem zrefDone_complete {s : State} {c k0 : Nat} {re im : Int} (h : (s.chan c).zCap = some (k0, 8, re, im)) : zrefDone s c =
    syncZrefBusy (zCapOver ((s.set F.SUP_CHn_ZREF_MAG c
      (fitU 16 (ratRoot (((re * re + im * im : Int) : Rat) / ((8 * 2 ^ 62 * (8 * 2 ^ 62) : Nat) : Rat)) : Nat))).set F.SUP_CHn_ZREF_PHASE c
        (Config.phaseOf re im % 65536)) c) := by
  unfold zrefDone
  rw [h]
  rfl

theorem zrefLate_late {s : State} {c k0 n : Nat} {re im : Int} (h : (s.chan c).zCap = some (k0, n, re, im)) (short : n ≠ 8)
    (late : k0 + 800 ≤ s.cycle) : zrefLate s c = (syncZrefBusy (zCapOver s c)).raise F.SUP_STATUS_ZREF_ERR := by
  unfold zrefLate
  rw [h]
  exact if_pos ⟨short, late⟩

/-- Settles O32: the command starts captures in COMMISSIONING alone, and a capture ends complete or late. -/
theorem impedanceReferences : Obligations.ImpedanceReferences := by
  intro s lines
  refine ⟨fun p ch all up => ⟨fun other => ?_, fun comm => ?_⟩, fun ch k0 re im complete => ?_, fun ch k0 n re im run short late => ?_⟩
  · exact answers_of (congrArg (answer s) ((gate_up up _).trans (if_pos other))) (lines.steady.accErr _ _ _ _)
  · refine answers_of (congrArg (answer s) ((gate_up up _).trans (if_neg (not_not.mpr comm)))) ?_
    exact forEach_holds (P := DriveSteady) (fun t c h => syncZrefBusy_steady (s := t.updChan c _) h) _ lines.steady
  · obtain ⟨mag, phase⟩ := key_zref ch.val ch.isLt
    exact answers_of (congrArg (answer s) (zrefDone_complete complete)) (syncZrefBusy_steady (zCapOver_steady ((lines.steady.set mag).set phase) _))
  · exact answers_of (congrArg (answer s) (zrefLate_late run short late))
      ((syncZrefBusy_steady (zCapOver_steady lines.steady _)).set (by decide))

end Sys2Proof.Machine
end

section
/-!
PROOFS. Holds and link windows that expire, PARKED records (R126, R127, R131): O33.
-/

namespace Sys2Proof.Machine

/-- A command whose timed effect changes nothing yet. -/
theorem answers_waiting {c : Instr} {f : State → State} {s : State} (run : exec c s = answer s (timed f s)) (waits : f s = s)
    (lines : LinesFollow s) : Answers c s s :=
  answers_of (run.trans (congrArg (answer s) ((timed_now (Or.inl (congrArg State.now waits))).trans waits))) lines.steady

section
variable {s : State}

/-- Nothing that falls in the running cycle is cut off at its end. -/
theorem advanceTo_due {t : Nat} (due : t < s.nextBoundary) : s.advanceTo t = s.putNow (max s.now t) :=
  advanceTo_eq (by rw [Nat.min_eq_left (Nat.le_sub_one_of_lt due)])

/-! ### A hold (R126) -/

theorem holdExpire_waits {p : Nat} (h : evaluatedTo s p (s.point p).holdEnd = false) : holdExpire s p = s :=
  if_neg (by simp [h])

theorem endHold_eq {p : Nat} {neg : Bool} (h : (s.point p).seq = if neg then .holdN else .holdP) :
    endHold s p = setSeq (passage s p neg) p .idle .none := by
  have dir : ((s.point p).seq == .holdN) = neg := by
    rw [h]
    cases neg <;> rfl
  unfold endHold
  rw [dir]

theorem holdExpire_ends {p : Nat} {neg : Bool} (h : (s.point p).seq = if neg then .holdN else .holdP)
    (due : (s.point p).holdEnd < s.nextBoundary) (told : evaluatedTo s p (s.point p).holdEnd = true) :
    holdExpire s p = setSeq (passage (s.putNow (max s.now (s.point p).holdEnd)) p neg) p .idle .none := by
  have holds : ((s.point p).seq == .holdP || (s.point p).seq == .holdN) = true := by
    rw [h]
    cases neg <;> rfl
  have ends : holdExpire s p = endHold (s.advanceTo (s.point p).holdEnd) p := if_pos (by simp [holds, told, State.due, due])
  rw [ends, advanceTo_due due]
  exact endHold_eq h

/-! ### A link window (R127) -/

theorem linkExpire_waits {p : Nat} (h : evaluatedTo s p (s.point p).linkEnd = false ∨ onsetsSeen s p (s.point p).linkEnd = false) :
    linkExpire s p = s :=
  if_neg (by rcases h with h | h <;> simp [h])

theorem linkExpire_ends {p : Nat} (h : (s.point p).seq = .aLeft ∨ (s.point p).seq = .bLeft) (due : (s.point p).linkEnd < s.nextBoundary)
    (told : evaluatedTo s p (s.point p).linkEnd = true) (seen : onsetsSeen s p (s.point p).linkEnd = true) :
    linkExpire s p = setSeq (s.putNow (max s.now (s.point p).linkEnd)) p .idle .none := by
  rw [← advanceTo_due due]
  exact if_pos (by simp [h, told, seen, State.due, due])

/-! ### A parked channel (R131) -/

theorem parkRecord_parks {c : Nat} (met : (s.chan c).met = true) (fresh : (s.chan c).parkRec = false) (lo : 2 ≤ chState s c)
    (hi : chState s c ≤ 4) : parkRecord s c =
      rec0 ((s.updChan c (fun x => { x with parkRec := true })).updPoint (c / 2) (fun x => { x with parkedIn := true })) (c / 2) .parked
        (c % 2 == 1) (1250 * ((s.chan c).metAt + 1) - 1) :=
  if_pos ⟨met, by rw [fresh]; rfl, lo, hi⟩

theorem parkRecord_idle {c : Nat} (h : (s.chan c).met = false ∨ (s.chan c).parkRec = true) : parkRecord s c = s :=
  if_neg (by rcases h with h | h <;> simp [h])

end

/-- Settles O33: a hold and a link window end once the samples they wait for have been evaluated, and a channel that has newly met the
condition is recorded as parked. -/
theorem holdsAndLinkWindows : Obligations.HoldsAndLinkWindows := by
  intro s sp lines counting
  have holds : exec (.holdExpiry sp) s = answer s (timed (holdExpire · sp.val) s) := congrArg (answer s) (if_pos counting)
  have links : exec (.linkWindowExpiry sp) s = answer s (timed (linkExpire · sp.val) s) := congrArg (answer s) (if_pos counting)
  have parks (ch : Fin 48) : exec (.parked ch) s = answer s (parkRecord s ch.val) := congrArg (answer s) (if_pos counting)
  refine ⟨fun neg seq due => ⟨fun early => ?_, fun told => ?_⟩, fun seq due => ⟨fun early => ?_, fun told seen => ?_⟩,
    fun ch met fresh lo hi => ?_, fun ch idle => ?_⟩
  · exact answers_waiting holds (holdExpire_waits early) lines
  · exact answersTimed_of holds (holdExpire_ends seq due told)
  · exact answers_waiting links (linkExpire_waits early) lines
  · exact answersTimed_of links (linkExpire_ends seq due told seen)
  · exact (parks ch).trans (congrArg (answer s) (parkRecord_parks met fresh lo hi))
  · exact answers_of ((parks ch).trans (congrArg (answer s) (parkRecord_idle idle))) lines.steady

end Sys2Proof.Machine
end

section
/-!
PROOFS. QUIET finality of a station and direction (R152) where no passage there can still be assigned: O41.
-/

namespace Sys2Proof.Machine

/-! ### Turns behind a running job -/

/-- What drives the sources, and the turns of the ledger. -/
def State.turns (s : State) : (State × (Nat → Nat)) × List Job := (s.drive, s.ledger.jobs)

theorem turns_if {c : Prop} [Decidable c] (t u : State) : (if c then t else u).turns = if c then t.turns else u.turns :=
  apply_ite State.turns c t u

/-- What a write of a field that drives no source does. -/
theorem turns_write : (∀ (s : State) (f : Fld) (i v : Nat), driveKey (f.key i) = false → (s.set f i v).turns = s.turns)
    ∧ (∀ (s : State) (f : Fld) (i : Nat), driveKey (f.key i) = false → (s.raise f i).turns = s.turns)
    ∧ ∀ (s : State) (f : Fld) (i : Nat) (b : Bool), driveKey (f.key i) = false → (s.setFlag f i b).turns = s.turns :=
  have set (s : State) (f : Fld) (i v : Nat) (h : driveKey (f.key i) = false) : (s.set f i v).turns = s.turns :=
    congrArg (·, s.ledger.jobs) (drive_set s h v)
  ⟨set, fun s f i h => set s f i _ h, fun s f i _ h => set s f i _ h⟩

theorem driveKey_ledgerSec : ∀ n < 48, driveKey (F.LEDG_SECn_PENDING.key n) = false
    ∧ driveKey (F.LEDG_SECn_BAD_LAPSED.key n) = false ∧ driveKey (F.LEDG_SECn_ID_OK.key n) = false := by
  decide

theorem turns_syncLedger (s : State) : (syncLedger s).turns = s.turns := by
  unfold syncLedger
  refine forN_keeps State.turns (fun t n lt => ?_) s
  obtain ⟨pending, lapsed, ok⟩ := driveKey_ledgerSec n lt
  simp only [turns_if, turns_write, pending, lapsed, ok, ite_self]

theorem turns_syncQueue (s : State) : (syncQueue s).turns = s.turns := by
  unfold syncQueue
  simp (disch := decide) only [turns_if, turns_write, ite_self]

theorem turns_syncWaiting (s : State) : (syncWaiting s).turns = s.turns := by
  have status (t : State) (i st : Nat) (l : List (Nat × Nat)) :
      ((recPut t i 4 1 st).putLedger { t.ledger with rests := l }).turns = t.turns := rfl
  unfold syncWaiting
  extract_lets deps
  split
  · rfl
  · exact forEach_keeps State.turns (fun t i _ => by simp only [turns_if, status, ite_self]) s

theorem applyTurns_running {s : State} {j : Job} {rest : List Job} {k : Nat} (head : s.ledger.jobs = j :: rest)
    (run : j.stage = .running k) (fuel : Nat) : applyTurns fuel s = s := by
  cases fuel with
  | zero => rfl
  | succ fuel => simp only [applyTurns, head, run]

/-- While the oldest turn is a job that runs, every turn waits. -/
theorem syncTurns_running {s : State} {j : Job} {rest : List Job} {k : Nat} (head : s.ledger.jobs = j :: rest)
    (run : j.stage = .running k) : (syncTurns s).drive = s.drive ∧ (syncTurns s).ledger.jobs = s.ledger.jobs := by
  have kept : (syncTurns s).turns = s.turns := by
    unfold syncTurns
    rw [turns_syncLedger, turns_syncWaiting, turns_syncQueue, applyTurns_running head run]
  exact Prod.mk.inj kept

/-- Settling leaves the ledger that a steady effect leaves. -/
theorem settled_ledger (s : State) {u : State} (h : DriveSteady u) : (settled s u).ledger = u.ledger := by
  have kept : (settle u).ledger = u.ledger := (settle_keeps u h).reads State.ledger fun _ => rfl
  rw [settled_eq, ← kept]
  generalize settle u = w
  obtain ⟨l, e, -⟩ := putLines_eq w
  rw [e]
  rfl

/-- A turn appended while the oldest one is a job that runs is seen after the command: it waits at the end of the ledger's turns. -/
theorem settled_appended_ne {s : State} {j : Job} {rest : List Job} {k : Nat} (lines : LinesFollow s)
    (head : s.ledger.jobs = j :: rest) (run : j.stage = .running k) (x : Job) :
    settled s (syncTurns (s.putLedger { s.ledger with jobs := s.ledger.jobs ++ [x] })) ≠ settled s s := by
  intro same
  obtain ⟨drive, jobs⟩ := syncTurns_running (s := s.putLedger { s.ledger with jobs := s.ledger.jobs ++ [x] }) (congrArg (· ++ [x]) head) run
  have waits := congrArg State.ledger same
  rw [settled_ledger s (steady_of_drive lines drive), settled_ledger s lines.steady] at waits
  rw [waits] at jobs
  exact List.cons_ne_nil x [] (List.append_right_eq_self.mp jobs.symm)

/-! ### QUIET finality with nothing to make final -/

/-- Where no passage of a station and direction that is not final has a record or a turn outstanding, QUIET finality has nothing to do. -/
theorem quietFinal_idle {s : State} {p : Nat} {neg : Bool}
    (h : (s.ledger.obs.filter (fun o => o.sp == p && o.neg == neg)).any
      (fun o => !o.final && (o.slot.isSome || s.ledger.jobs.any (fun j => j.serial == o.serial && j.sp == p))) = false) :
    quietFinal s p neg = s := by
  unfold quietFinal
  extract_lets here
  split
  · rfl
  · exact if_neg fun due => Bool.false_ne_true (h.symm.trans due.2.1)

/-! ### The counterexample -/

/-- The boundary of cycle 10 in an OPERATIONAL unit, QUIET 9 cycles: a passage of cycle 1 at station 23 in the negative direction that found
the queue full and so got no job (R156), and a job of station 2 that runs on engine 0. -/
def sightJobless : State :=
  let s := { State.reset with
    boot := { State.reset.boot with stage := 5 }, cycle := 10, now := 600000, sio := { State.reset.sio with nextSample := 101 } }
  let s := ((s.set F.DEV_STATE_STATE 0 4).set F.DEV_STATE_ROLE 0 1).set F.LEDG_COST_QUIET 0 9
  let s := s.putLedger { s.ledger with
    obs := [{ (default : Obs) with sp := 23, neg := true, serial := 7, ts := 60000, dep := [3], arr := [4] }]
    jobs := [{ (default : Job) with serial := 9, sp := 2, secs := [1], dep := [1], queued := 590000, stage := .running 0 }] }
  s.putLines (computeLines s)

/-- The premises of the clause of QUIET_FINAL that appends a turn. -/
theorem sightJobless_meets : LinesFollow sightJobless ∧ sightJobless.counting = true ∧ atBoundary sightJobless = true
    ∧ ∃ o, sightJobless.ledger.obs.filter (fun o => o.sp == 23 && o.neg == true) = [o] ∧ o.final = false
      ∧ o.ts + sightJobless.get F.LEDG_COST_QUIET * cycleTicks ≤ sightJobless.now
      ∧ sightJobless.ledger.jobs.any (fun j => j.stage == .quiet && j.sp == 23 && j.neg == true) = false :=
  ⟨rfl, by decide +kernel, by decide +kernel, _, rfl, rfl, by decide +kernel, rfl⟩

theorem sightJobless_idle : quietFinal sightJobless 23 true = sightJobless := quietFinal_idle rfl

/-- Refutes O41: a passage that is not final but has neither a record nor a turn outstanding, as one that found the queue full (R156), gives
QUIET_FINAL nothing to make final, and no turn is appended; the statement asks only that a passage there is not final. -/
theorem not_matchJobs : ¬Obligations.MatchJobs := by
  intro all
  obtain ⟨lines, counting, boundary, o, here, opened, due, waits⟩ := sightJobless_meets
  obtain ⟨-, -, -, quiet, -⟩ := all sightJobless lines
  obtain ⟨appends, -⟩ := (quiet 23 true counting boundary).2 o [] here
  obtain ⟨claimed, -⟩ := appends due ⟨o, here ▸ List.mem_singleton_self o, opened⟩ waits
  have model : exec (.quietFinal 23 true) sightJobless = .next (settled sightJobless sightJobless) :=
    congrArg (answer sightJobless) ((if_pos (by rw [boundary, counting]; rfl)).trans sightJobless_idle)
  exact settled_appended_ne lines rfl rfl _ (Host.Outcome.next.inj (claimed.symm.trans model))

end Sys2Proof.Machine
end

section
/-!
SUPPORT. The register fields of the ledger's and the sections' blocks: which of them lie apart, and that neither settling nor what drives
the sources reaches them.
-/

namespace Sys2Proof.Machine

/-- No index of one field has a bit address that an index below 48 of the other has. -/
def Fld.apart (f g : Fld) : Bool :=
  decide (f.bit + 47 * f.stride < g.bit) || decide (g.bit + 47 * g.stride < f.bit)
    || (f.stride == g.stride && f.bit % f.stride != g.bit % f.stride)

theorem key_ne_of_apart {f g : Fld} (h : f.apart g = true) {n m : Nat} (ltn : n < 48) (ltm : m < 48) : g.key m ≠ f.key n := by
  have reach (x : Fld) {i : Nat} (lt : i < 48) : x.bit ≤ x.key i ∧ x.key i ≤ x.bit + 47 * x.stride := by
    have : x.stride * i ≤ x.stride * 47 := Nat.mul_le_mul_left _ (by omega)
    unfold Fld.key
    omega
  have reachF := reach f ltn
  have reachG := reach g ltm
  simp only [Fld.apart, Bool.or_eq_true, decide_eq_true_eq, Bool.and_eq_true, beq_iff_eq, bne_iff_ne] at h
  rcases h with (below | above) | ⟨stride, bits⟩
  · omega
  · omega
  · intro same
    have residues := congrArg (· % f.stride) same
    simp only [Fld.key, ← stride, Nat.add_mul_mod_self_left] at residues
    exact bits residues.symm

theorem get_write_self (s : State) (f : Fld) (i : Nat) : (∀ v, (s.set f i v).get f i = v % 2 ^ f.width)
    ∧ (s.raise f i).get f i = 1 % 2 ^ f.width ∧ (s.lower f i).get f i = 0
    ∧ (s.bump f i).get f i = satInc f.width (s.get f i) :=
  have self := State.get_set_self s f i
  ⟨self, self 1, (self 0).trans (Nat.zero_mod _), (self _).trans (satInc_mod _ _)⟩

theorem get_write_apart {f g : Fld} {n m : Nat} (ltn : n < 48) (ltm : m < 48) (h : f.apart g = true) (s : State) :
    (∀ v, (s.set f n v).get g m = s.get g m) ∧ (s.raise f n).get g m = s.get g m ∧ (s.lower f n).get g m = s.get g m
    ∧ (∀ b, (s.setFlag f n b).get g m = s.get g m) ∧ (s.bump f n).get g m = s.get g m :=
  have apart (v : Nat) : (s.set f n v).get g m = s.get g m := State.get_set_ne s v (key_ne_of_apart h ltn ltm)
  ⟨apart, apart 1, apart 0, fun _ => apart _, apart _⟩

theorem get_set_index (s : State) {f : Fld} {n m : Nat} (ne : m ≠ n) (strides : f.stride ≠ 0) (v : Nat) :
    (s.set f n v).get f m = s.get f m :=
  State.get_set_ne s v fun e => ne (Nat.eq_of_mul_eq_mul_left (Nat.pos_of_ne_zero strides) (Nat.add_left_cancel e))

theorem get_if {c : Prop} [Decidable c] (t u : State) (f : Fld) (i : Nat) :
    (if c then t else u).get f i = if c then t.get f i else u.get f i :=
  apply_ite (fun x => x.get f i) c t u

/-- The field lies at 48 indices in the blocks of the ledger and of the sections. -/
def Fld.inSections (f : Fld) : Bool := decide (0x50000 * 8 ≤ f.bit ∧ f.bit + 47 * f.stride < 0x70000 * 8)

theorem key_inSections {f : Fld} (h : f.inSections = true) {n : Nat} (lt : n < 48) : 0x50000 * 8 ≤ f.key n ∧ f.key n < 0x70000 * 8 := by
  obtain ⟨low, high⟩ := of_decide_eq_true h
  have : f.stride * n ≤ f.stride * 47 := Nat.mul_le_mul_left _ (by omega)
  unfold Fld.key
  omega

theorem loudFields_outside : ∀ k ∈ loudFields, ¬(0x50000 * 8 ≤ k ∧ k < 0x70000 * 8) := by
  decide

theorem quietKey_inSections {f : Fld} (h : f.inSections = true) {n : Nat} (lt : n < 48) : quietKey (f.key n) = true := by
  have block := key_inSections h lt
  have silent : loudFields.contains (f.key n) = false := by
    rw [List.contains_eq_mem, decide_eq_false_iff_not]
    exact fun loud => loudFields_outside _ loud block
  unfold quietKey
  rw [silent]
  simp only [Bool.false_or, Bool.not_eq_true', Bool.or_eq_false_iff, decide_eq_false_iff_not]
  omega

theorem driveKey_inSections {f : Fld} (h : f.inSections = true) {n : Nat} (lt : n < 48) : driveKey (f.key n) = false := by
  have block := key_inSections h lt
  have sources : drivesSource (f.key n) = false := by
    simp only [drivesSource, F.DEV_STATE_ROLE, F.DEV_STATE_STATE, F.SPU_STATUS_HALTED, F.URED_STATE_LINK_UP, Fld.key, Bool.or_eq_false_iff,
      beq_eq_false_iff_ne] at block ⊢
    omega
  unfold driveKey
  rw [sources, Bool.false_or, decide_eq_false_iff_not]
  omega

theorem drive_set_inSections (s : State) {f : Fld} {n : Nat} (lt : n < 48) (h : f.inSections = true) (v : Nat) :
    (s.set f n v).drive = s.drive :=
  drive_set s (driveKey_inSections h lt) v

/-- A field of the blocks after a command whose effect leaves the drive steady. -/
theorem settled_get_inSections {s u : State} (steady : DriveSteady u) {f : Fld} (h : f.inSections = true) {n : Nat} (lt : n < 48) :
    (settled s u).get f n = u.get f n :=
  settled_get_quiet steady f n (quietKey_inSections h lt)

end Sys2Proof.Machine
end

section
/-!
SUPPORT. What the operations on a section write: an entry in the journal, a disturbance (R166 to R168), the end of an episode (R168).
-/

namespace Sys2Proof.Machine

theorem get_updSec (s : State) (n : Nat) (g : Sec → Sec) (f : Fld) (i : Nat) : (s.updSec n g).get f i = s.get f i := rfl

theorem get_secNote (s : State) {f : Fld} {m : Nat} (lt : m < 48) (h : f.inSections = true) (n flag : Nat) :
    (secNote s n flag).get f m = s.get f m :=
  (keeps_journal s _).get f m (quietKey_inSections h lt)

/-- An entry of CLASS 0 is written whatever JRN_FILTER selects. -/
theorem head_secNote (s : State) (n flag : Nat) : (secNote s n flag).get F.JRN_HEAD_HEAD = (s.get F.JRN_HEAD_HEAD + 1) % 2 ^ 32 := by
  have kept (e : JEntry) : (clockKeep s e).get F.JRN_HEAD_HEAD = s.get F.JRN_HEAD_HEAD := by
    unfold clockKeep
    rw [get_if, State.get_putFab, ite_self]
  have new (t : State) (v : Nat) : (t.set F.JRN_STATUS_JRN_NEW 0 v).get F.JRN_HEAD_HEAD = t.get F.JRN_HEAD_HEAD :=
    State.get_set_ne t v (by decide)
  unfold secNote State.journal
  rw [if_pos (show jrnWanted s 0 = true from rfl)]
  unfold State.journalPut
  simp only [if_true, State.raise_eq, State.bumpWrap_eq, new, State.get_set_self, State.get_putBytes, kept]
  rfl

section
variable (s : State) {n : Nat} (lt : n < 48)
include lt

/-- What a disturbance writes beside STATE, CAUSE and CAUSE_CP: MULTI, and one journal entry. -/
theorem distApply_beside (d : Dist) :
    (distApply s n d).get F.SECT_n_CNT_COUNT n = s.get F.SECT_n_CNT_COUNT n
    ∧ (distApply s n d).get F.SECT_n_CNT_LIMIT_CNT n = s.get F.SECT_n_CNT_LIMIT_CNT n
    ∧ (distApply s n d).get F.JRN_HEAD_HEAD = (s.get F.JRN_HEAD_HEAD + 1) % 2 ^ 32
    ∧ (distApply s n d).get F.SECT_n_STATE_MULTI n = if s.get F.SECT_n_STATE_STATE n = 2 then 1 else 0 := by
  have zero : 0 < 48 := by decide
  have old (g : Sec → Sec) : (s.updSec n g).get F.SECT_n_STATE_STATE n = s.get F.SECT_n_STATE_STATE n := rfl
  unfold distApply
  by_cases episode : s.get F.SECT_n_STATE_STATE n = 2
  · simp (disch := decide) only [old, if_pos episode, head_secNote, get_secNote _ lt, get_updSec, get_if, get_write_self,
      get_write_apart lt lt, get_write_apart lt zero, ite_self]
    trivial
  · simp (disch := decide) only [old, if_neg episode, head_secNote, get_secNote _ lt, get_updSec, get_if, get_write_self,
      get_write_apart lt lt, get_write_apart lt zero, get_write_apart zero lt, get_write_apart zero zero, ite_self]
    trivial

theorem distApply_state (d : Dist) : (distApply s n d).get F.SECT_n_STATE_STATE n = 2
    ∧ (s.get F.SECT_n_STATE_STATE n ≠ 2 → (distApply s n d).get F.SECT_n_STATE_CAUSE n = d.cause % 16)
    ∧ (s.get F.SECT_n_STATE_STATE n = 2 → (distApply s n d).get F.SECT_n_STATE_CAUSE n = s.get F.SECT_n_STATE_CAUSE n
      ∧ (distApply s n d).get F.SECT_n_STATE_CAUSE_CP n = s.get F.SECT_n_STATE_CAUSE_CP n) := by
  have shown : tileOf (distApply s n d) n = stained d (tileOf s n) := (tileOf_distApply s lt lt d).trans (if_pos rfl)
  by_cases episode : s.get F.SECT_n_STATE_STATE n = 2
  · obtain ⟨state, rest⟩ := Prod.mk.inj (shown.trans (if_pos episode))
    obtain ⟨cause, cp⟩ := Prod.mk.inj rest
    exact ⟨state.trans episode, fun first => absurd episode first, fun _ => ⟨cause, cp⟩⟩
  · obtain ⟨state, rest⟩ := Prod.mk.inj (shown.trans (if_neg episode))
    obtain ⟨cause, -⟩ := Prod.mk.inj rest
    exact ⟨state, fun _ => cause, fun later => absurd later episode⟩

theorem clearEpisode_clears : (clearEpisode s n).get F.SECT_n_STATE_STATE n = 0 ∧ (clearEpisode s n).get F.SECT_n_STATE_CAUSE n = 0
    ∧ (clearEpisode s n).get F.SECT_n_STATE_CAUSE_CP n = 63 ∧ (clearEpisode s n).get F.SECT_n_STATE_SINGLE n = 0
    ∧ (clearEpisode s n).get F.SECT_n_STATE_MULTI n = 0
    ∧ (clearEpisode s n).get F.SECT_n_CNT_COUNT n = s.get F.SECT_n_CNT_COUNT n
    ∧ (clearEpisode s n).get F.SECT_n_CNT_LIMIT_CNT n = s.get F.SECT_n_CNT_LIMIT_CNT n := by
  unfold clearEpisode evidEnd
  simp (disch := decide) only [get_updSec, get_write_self, get_write_apart lt lt]
  trivial

theorem clearEpisode_others {k : Nat} (ltk : k < 48) (ne : k ≠ n) :
    (clearEpisode s n).get F.SECT_n_STATE_STATE k = s.get F.SECT_n_STATE_STATE k
    ∧ (clearEpisode s n).get F.SECT_n_CNT_COUNT k = s.get F.SECT_n_CNT_COUNT k := by
  unfold clearEpisode evidEnd
  simp (disch := decide) only [get_updSec, get_set_index _ ne, get_write_apart lt ltk]
  trivial

theorem drive_clearEpisode : (clearEpisode s n).drive = s.drive := by
  unfold clearEpisode evidEnd
  simp (disch := decide) only [State.lower_eq, drive_put, drive_set_inSections _ lt]

end

end Sys2Proof.Machine
end

section
/-!
PROOFS. A section's count and its limits (R162): O34.
-/

namespace Sys2Proof.Machine

/-- The count and SWEEP_AXLES as a sum past a limit leaves them, with LIMIT_CNT stepped and LIMIT raised. -/
def limited (s : State) (n count axles : Nat) : State :=
  (((s.set F.SECT_n_CNT_COUNT n count).set F.SECT_n_CNT_SWEEP_AXLES n axles).bump F.SECT_n_CNT_LIMIT_CNT n).raise F.SECT_STATUS_LIMIT

/-- The mark of what has reached a count tile since the last snapshot (R170). -/
def touchSec (s : State) (n : Nat) : State := s.updSec n (fun x => { x with touched := true })

/-- The passages inward and outward of one fabric clock. -/
def insOf (moves : List (Nat × Bool)) : Nat := (moves.filter (fun m => m.2)).length
def outsOf (moves : List (Nat × Bool)) : Nat := (moves.filter (fun m => !m.2)).length

/-- The passages of one fabric clock by their sum: below 0, above 4,095, or the new count. -/
theorem moveSec_eq (s : State) (n : Nat) (moves : List (Nat × Bool)) : moveSec s n moves =
    let c0 := s.get F.SECT_n_CNT_COUNT n
    let c1 := c0 + insOf moves - outsOf moves
    let t := touchSec s n
    if c0 + insOf moves < outsOf moves then (distApply (limited t n 0 0) n ⟨Cause.underflow.code, lowestCp moves false, none⟩, false)
    else if 4095 < c1 then
      (distApply (limited t n 4095 (sweepAxles t n c0 (insOf moves))) n ⟨Cause.overflow.code, lowestCp moves true, none⟩, false)
    else stepSec (t.set F.SECT_n_CNT_COUNT n c1) n c0 c1 (insOf moves) := by
  have outward : outsOf moves = moves.length - insOf moves := by
    have := List.length_eq_length_filter_add (l := moves) (fun m => m.2)
    unfold insOf outsOf
    omega
  rw [outward]
  rfl

section
variable {s : State} {n : Nat} {moves : List (Nat × Bool)}

theorem moveSec_below (h : s.get F.SECT_n_CNT_COUNT n + insOf moves < outsOf moves) : (moveSec s n moves).1 =
    distApply (limited (touchSec s n) n 0 0) n ⟨Cause.underflow.code, lowestCp moves false, none⟩ :=
  congrArg Prod.fst ((moveSec_eq s n moves).trans (if_pos h))

theorem moveSec_above (h : outsOf moves + 4095 < s.get F.SECT_n_CNT_COUNT n + insOf moves) : ∃ axles, (moveSec s n moves).1 =
    distApply (limited (touchSec s n) n 4095 axles) n ⟨Cause.overflow.code, lowestCp moves true, none⟩ :=
  ⟨_, congrArg Prod.fst ((moveSec_eq s n moves).trans ((if_neg (by omega)).trans (if_pos (by omega))))⟩

theorem moveSec_within (low : outsOf moves ≤ s.get F.SECT_n_CNT_COUNT n + insOf moves)
    (high : s.get F.SECT_n_CNT_COUNT n + insOf moves - outsOf moves ≤ 4095) : moveSec s n moves =
      let c1 := s.get F.SECT_n_CNT_COUNT n + insOf moves - outsOf moves
      stepSec ((touchSec s n).set F.SECT_n_CNT_COUNT n c1) n (s.get F.SECT_n_CNT_COUNT n) c1 (insOf moves) :=
  (moveSec_eq s n moves).trans ((if_neg (Nat.not_lt.mpr low)).trans (if_neg (Nat.not_lt.mpr high)))

end

section
variable {s : State} {n : Nat} (lt : n < 48)
include lt

/-- A disturbance applied at a limit (R162, R167), on a section that a passage has touched. -/
theorem distApply_limited (count axles : Nat) (d : Dist) :
    let t := distApply (limited (touchSec s n) n count axles) n d
    t.get F.SECT_n_CNT_COUNT n = count % 2 ^ 12
    ∧ t.get F.SECT_n_CNT_LIMIT_CNT n = satInc F.SECT_n_CNT_LIMIT_CNT.width (s.get F.SECT_n_CNT_LIMIT_CNT n)
    ∧ t.get F.SECT_n_STATE_STATE n = 2
    ∧ t.get F.JRN_HEAD_HEAD = (s.get F.JRN_HEAD_HEAD + 1) % 2 ^ 32
    ∧ (s.get F.SECT_n_STATE_STATE n ≠ 2 → t.get F.SECT_n_STATE_CAUSE n = d.cause % 16 ∧ t.get F.SECT_n_STATE_MULTI n = 0)
    ∧ (s.get F.SECT_n_STATE_STATE n = 2 → t.get F.SECT_n_STATE_CAUSE n = s.get F.SECT_n_STATE_CAUSE n
      ∧ t.get F.SECT_n_STATE_CAUSE_CP n = s.get F.SECT_n_STATE_CAUSE_CP n ∧ t.get F.SECT_n_STATE_MULTI n = 1) := by
  have zero : 0 < 48 := by decide
  obtain ⟨count', limits, head, multi⟩ := distApply_beside (limited (touchSec s n) n count axles) lt d
  obtain ⟨state, first, later⟩ := distApply_state (limited (touchSec s n) n count axles) lt d
  unfold limited touchSec at *
  simp (disch := decide) only [get_updSec, get_write_self, get_write_apart lt lt, get_write_apart lt zero, get_write_apart zero lt,
    get_write_apart zero zero] at count' limits head multi first later
  refine ⟨count', limits, state, head, fun fresh => ⟨first fresh, multi.trans (if_neg fresh)⟩, fun running => ?_⟩
  obtain ⟨cause, cp⟩ := later running
  exact ⟨cause, cp, multi.trans (if_pos running)⟩

/-- A count within its limits: the step of STATE and of the sweep leaves the count and LIMIT_CNT. -/
theorem stepSec_count (c0 c1 ins : Nat) : (stepSec s n c0 c1 ins).1.get F.SECT_n_CNT_COUNT n = s.get F.SECT_n_CNT_COUNT n
    ∧ (stepSec s n c0 c1 ins).1.get F.SECT_n_CNT_LIMIT_CNT n = s.get F.SECT_n_CNT_LIMIT_CNT n := by
  have zero : 0 < 48 := by decide
  have cleared (t : State) : (clearEpisode t n).get F.SECT_n_CNT_COUNT n = t.get F.SECT_n_CNT_COUNT n
      ∧ (clearEpisode t n).get F.SECT_n_CNT_LIMIT_CNT n = t.get F.SECT_n_CNT_LIMIT_CNT n := by
    obtain ⟨-, -, -, -, -, count, limits⟩ := clearEpisode_clears t lt
    exact ⟨count, limits⟩
  unfold stepSec
  extract_lets ax t swept t' code stepped
  have marked : t.get F.SECT_n_CNT_COUNT n = s.get F.SECT_n_CNT_COUNT n ∧ t.get F.SECT_n_CNT_LIMIT_CNT n = s.get F.SECT_n_CNT_LIMIT_CNT n := by
    simp (disch := decide) only [t, get_if, get_write_apart lt lt, ite_self]
    trivial
  split
  · exact marked
  · split
    · simp (disch := decide) only [get_secNote _ lt, swept, get_write_apart zero lt, cleared, get_write_apart lt lt]
      trivial
    · exact marked
  · split
    · exact marked
    · simp (disch := decide) only [get_secNote _ lt, stepped, t', get_if, get_write_apart lt lt, marked, ite_self]
      trivial

theorem moveSec_count {moves : List (Nat × Bool)} (low : outsOf moves ≤ s.get F.SECT_n_CNT_COUNT n + insOf moves)
    (high : s.get F.SECT_n_CNT_COUNT n + insOf moves - outsOf moves ≤ 4095) :
    (moveSec s n moves).1.get F.SECT_n_CNT_COUNT n = s.get F.SECT_n_CNT_COUNT n + insOf moves - outsOf moves
    ∧ (moveSec s n moves).1.get F.SECT_n_CNT_LIMIT_CNT n = s.get F.SECT_n_CNT_LIMIT_CNT n := by
  rw [moveSec_within low high]
  extract_lets c1
  obtain ⟨count, limits⟩ := stepSec_count (s := (touchSec s n).set F.SECT_n_CNT_COUNT n c1) lt (s.get F.SECT_n_CNT_COUNT n) c1 (insOf moves)
  have counted : ((touchSec s n).set F.SECT_n_CNT_COUNT n c1).get F.SECT_n_CNT_COUNT n = c1 % 2 ^ 12 := State.get_set_self _ _ _ _
  exact ⟨count.trans (counted.trans (Nat.mod_eq_of_lt (Nat.lt_succ_of_le high))), limits.trans ((get_write_apart lt lt (by decide) _).1 _)⟩

end

/-- Settles O34: the passages are applied as one sum (`moveSec_eq`), and past a limit its disturbance begins an episode or joins the one that
runs (`distApply_limited`). -/
theorem sectionCountLimits : Obligations.SectionCountLimits := by
  intro s n moves lt _ _
  refine ⟨fun low high => moveSec_count lt low high, fun below => ?_, fun above => ?_⟩
  · rw [moveSec_below below]
    exact distApply_limited lt 0 0 _
  · obtain ⟨axles, applied⟩ := moveSec_above above
    rw [applied]
    exact distApply_limited lt 4095 axles _

end Sys2Proof.Machine
end

section
/-!
SUPPORT. The commands of SECT_RESTORE_CMD (R169, R174, R180): the entries the ports hold, what a rejection leaves, the section that a
restore makes CLEAR.
-/

namespace Sys2Proof.Machine

/-! ### What the ports hold -/

theorem Result.restores {s u t : State} (h : Result s u t) : t.restores = u.restores := h.keeps.reads State.restores fun _ => rfl

theorem restDirect_of_restores {s t : State} (h : t.restores = s.restores) (p : Nat) : t.restDirect p = s.restDirect p :=
  congrArg (fun r : Restores => nth r.direct p) h

theorem restDirect_putDirect_none (s : State) (q p : Nat) : (putDirect s q none).restDirect p = if q = p then none else s.restDirect p := by
  show nth (s.restores.direct.modify q fun _ => none) p = if q = p then none else nth s.restores.direct p
  unfold nth
  rw [List.getD_eq_getElem?_getD, List.getElem?_modify, List.getD_eq_getElem?_getD]
  split
  · cases s.restores.direct[p]? <;> rfl
  · rw [id_map']

/-! ### A rejection -/

theorem restores_rejectRes (s : State) (p sec op : Nat) (r : RReason) : (rejectRes s p sec op r).restores = s.restores :=
  (keeps_journal _ _).reads State.restores fun _ => rfl

theorem DriveSteady.rejectRes {s : State} (h : DriveSteady s) (p : HPort) (sec op : Nat) (r : RReason) :
    DriveSteady (rejectRes s p.toNat sec op r) := by
  have res (t : State) (h : DriveSteady t) : DriveSteady (setRes t p.toNat sec op 3 r) :=
    (((h.set (by cases p <;> decide)).set (by cases p <;> decide)).set (by cases p <;> decide)).set (by cases p <;> decide)
  exact ((res s h).set (by decide)).keeps (keeps_journal _ _)

theorem rejectRes_shows (s : State) (p : HPort) (sec op : Nat) (r : RReason) :
    (rejectRes s p.toNat sec op r).get (F.SECT_RESTORE_RES_RESULT.port p.toNat) = 3
    ∧ (rejectRes s p.toNat sec op r).get (F.SECT_RESTORE_RES_REASON.port p.toNat) = r.code := by
  have noted {f : Fld} (q : quietKey (f.key 0) = true) : (rejectRes s p.toNat sec op r).get f =
      ((setRes s p.toNat sec op 3 r).raise F.SECT_STATUS_REJECT).get f := (keeps_journal _ _).get f 0 q
  have code : r.code % 16 = r.code := by cases r <;> rfl
  have apart {f g : Fld} (h : g.key 0 ≠ f.key 0) (t : State) (v : Nat) : (t.set f 0 v).get g = t.get g := State.get_set_ne t v h
  refine ⟨(noted (by cases p <;> decide)).trans ?_, (noted (by cases p <;> decide)).trans ?_⟩
  · exact (apart (by cases p <;> decide) _ _).trans ((apart (by cases p <;> decide) _ _).trans (State.get_set_self _ _ _ _))
  · exact (apart (by cases p <;> decide) _ _).trans ((State.get_set_self _ _ _ _).trans code)

theorem settled_rejectRes {s u : State} (h : DriveSteady u) (p : HPort) (sec op : Nat) (r : RReason) :
    let t := settled s (rejectRes u p.toNat sec op r)
    t.restores = u.restores ∧ t.get (F.SECT_RESTORE_RES_RESULT.port p.toNat) = 3
    ∧ t.get (F.SECT_RESTORE_RES_REASON.port p.toNat) = r.code := by
  have steady := h.rejectRes p sec op r
  obtain ⟨result, reason⟩ := rejectRes_shows u p sec op r
  refine ⟨(settled_result steady).restores.trans (restores_rejectRes _ _ _ _ _), ?_, ?_⟩
  · exact (settled_get_quiet steady _ 0 (by cases p <;> decide)).trans result
  · exact (settled_get_quiet steady _ 0 (by cases p <;> decide)).trans reason

/-! ### A section made CLEAR -/

section
variable (s : State) {n : Nat} (lt : n < 48)
include lt

theorem restoreClear_clears : (restoreClear s n).get F.SECT_n_STATE_STATE n = 0 ∧ (restoreClear s n).get F.SECT_n_CNT_COUNT n = 0
    ∧ (restoreClear s n).get F.SECT_n_STATE_CAUSE n = 0 ∧ (restoreClear s n).get F.SECT_n_STATE_CAUSE_CP n = 63
    ∧ (restoreClear s n).get F.SECT_n_STATE_SINGLE n = 0 ∧ (restoreClear s n).get F.SECT_STATUS_RESTORED = 1 := by
  have zero : 0 < 48 := by decide
  unfold restoreClear raiseShared snapWrite
  simp (disch := decide) only [get_secNote _ lt, get_secNote _ zero, get_updSec, State.get_putFab, get_write_apart zero lt, get_write_self,
    clearEpisode_clears _ lt]
  trivial

theorem restoreClear_others {k : Nat} (ltk : k < 48) (ne : k ≠ n) :
    (restoreClear s n).get F.SECT_n_STATE_STATE k = s.get F.SECT_n_STATE_STATE k
    ∧ (restoreClear s n).get F.SECT_n_CNT_COUNT k = s.get F.SECT_n_CNT_COUNT k := by
  have zero : 0 < 48 := by decide
  unfold restoreClear raiseShared snapWrite
  simp (disch := decide) only [get_secNote _ ltk, get_updSec, State.get_putFab, get_write_apart zero ltk, clearEpisode_others _ lt ltk ne,
    get_write_apart lt ltk, get_set_index _ ne]
  exact ⟨rfl, rfl⟩

theorem drive_restoreClear : (restoreClear s n).drive = s.drive := by
  have zero : 0 < 48 := by decide
  unfold restoreClear raiseShared snapWrite secNote clockForget
  simp (disch := decide) only [drive_journal, drive_put, State.raise_eq, drive_set_inSections _ zero, drive_set_inSections _ lt,
    drive_clearEpisode _ lt]

end

end Sys2Proof.Machine
end

section
/-!
PROOFS. DIRECT entries and carried commands that grow old, the identity-proven restore and the sweep (R171 to R176, R180): O36.
-/

namespace Sys2Proof.Machine

/-! ### The pair of DIRECT entries (R174) -/

section
variable {s : State}

theorem directPair_alone {p : HPort} (h : s.restDirect p.other.toNat = none ∨ s.restDirect p.toNat = none) : directPair s = s := by
  have alone : s.restDirect 0 = none ∨ s.restDirect 1 = none := by
    cases p with
    | a => exact h.symm
    | b => exact h
  unfold directPair
  rcases alone with e | e
  · rw [e]
  · rw [e]
    cases s.restDirect 0 <;> rfl

theorem directPair_late {p : HPort} {a b : DirectEntry} (own : s.restDirect p.toNat = some a) (other : s.restDirect p.other.toNat = some b)
    (late : s.cycleStart ≤ a.tick ∨ s.cycleStart ≤ b.tick) : directPair s = s := by
  unfold directPair
  cases p with
  | a =>
    have e0 : s.restDirect 0 = some a := own
    have e1 : s.restDirect 1 = some b := other
    rw [e0, e1]
    exact if_pos (Or.inr late)
  | b =>
    have e0 : s.restDirect 0 = some b := other
    have e1 : s.restDirect 1 = some a := own
    rw [e0, e1]
    exact if_pos (Or.inr late.symm)

theorem restores_setRes (s : State) (p sec op result : Nat) (r : RReason) : (setRes s p sec op result r).restores = s.restores := rfl

theorem restores_carry (s : State) (op sec : Nat) : (carry s op sec).restores = s.restores := rfl

theorem restores_of_outer {s t : State} (h : t.outer = s.outer) : t.restores = s.restores := by
  have read : t.outer.restores = s.outer.restores := congrArg State.restores h
  exact read

theorem restores_restoreClear (s : State) (n : Nat) : (restoreClear s n).restores = s.restores := by
  refine restores_of_outer ?_
  unfold restoreClear raiseShared snapWrite clockForget clearEpisode evidEnd
  simp only [outer_put, outer_secNote]

theorem restores_ledgerClear (s : State) (n : Nat) : (ledgerClear s n).restores = s.restores := by
  refine restores_of_outer ?_
  unfold ledgerClear addTurn
  simp only [outer_syncTurns, outer_put]

/-- The pair is left where it is, or neither port has an entry after it. -/
theorem directPair_eq_or (s : State) : directPair s = s ∨ ∀ p : HPort, (directPair s).restDirect p.toNat = none := by
  have dropped (p : HPort) : (putDirect (putDirect s 0 none) 1 none).restDirect p.toNat = none := by
    rw [restDirect_putDirect_none, restDirect_putDirect_none]
    cases p <;> rfl
  unfold directPair
  split
  case h_2 => exact Or.inl rfl
  case h_1 a b _ _ =>
    extract_lets drop cleared
    have gone {t : State} (h : t.restores = drop.restores) (p : HPort) : t.restDirect p.toNat = none :=
      (restDirect_of_restores h _).trans (dropped p)
    have refused (r : RReason) : (rejectRes (rejectRes drop 0 a.sec opDirect r) 1 a.sec opDirect r).restores = drop.restores :=
      (restores_rejectRes _ _ _ _ _).trans (restores_rejectRes _ _ _ _ _)
    split
    · exact Or.inl rfl
    · refine Or.inr ?_
      split
      · exact gone (refused _)
      · split
        · refine gone ?_
          rw [restores_setRes, restores_setRes, restores_carry, restores_ledgerClear, restores_restoreClear]
        · exact gone (refused _)

theorem directPair_of_entry {p : HPort} {d : DirectEntry} (h : (directPair s).restDirect p.toNat = some d) : directPair s = s :=
  (directPair_eq_or s).resolve_right fun gone => Option.some_ne_none d (h.symm.trans (gone p))

/-! ### Entries and commands that grow old (R174, R180) -/

theorem directExpire_none {p : Nat} (h : s.restDirect p = none) : directExpire s p = s := by
  unfold directExpire
  rw [h]

theorem directExpire_some {p : Nat} {d : DirectEntry} (h : s.restDirect p = some d) : directExpire s p =
    if d.tick + 300000000 < s.now then rejectRes (putDirect s p none) p d.sec 2 .expired else s := by
  unfold directExpire
  rw [h]
  rfl

/-- An image that names the carried DISTURB has arrived. -/
def carriedBack (s : State) (c : RestoreCmd) : Bool :=
  match s.link.image with
  | some i => i.restores.any (fun r => r.op == opDisturb && r.sec == c.sec)
  | none => false

theorem carriedBack_iff (s : State) (c : RestoreCmd) :
    carriedBack s c = true ↔ ∃ i, s.link.image = some i ∧ ∃ r, r ∈ i.restores ∧ r.op = 3 ∧ r.sec = c.sec := by
  unfold carriedBack
  cases s.link.image with
  | none => simp
  | some i => simp [List.any_eq_true, opDisturb]

theorem carriedLate_none {p : Nat} (h : s.restCarried p = none) : carriedLate s p = s := by
  unfold carriedLate
  rw [h]

theorem carriedLate_some {p : Nat} {c : RestoreCmd} (h : s.restCarried p = some c) : carriedLate s p =
    if c.tick + 240000 ≤ s.now ∧ !carriedBack s c then rejectRes (putCarried s p none) p c.sec c.op .device else s := by
  unfold carriedLate
  rw [h]
  rfl

/-! ### The identity-proven restore (R176) -/

/-- The evidence of a boundary noted. -/
def idNoted (s : State) (n : Nat) : State :=
  (s.setFlag F.SECT_n_STATE_ID_READY n true).updSec n (fun x => { x with idPrev := true, idAt := s.cycle + 1 })

theorem identityEval_restores {n : Nat} (last : (s.sec n).idAt = s.cycle) (prev : (s.sec n).idPrev = true) (now : idLocal s n = true)
    (agrees : partnerAgrees s n = true) (device : restoreDevice s = true) (quiet : (s.sec n).touched = false) : identityEval s n =
      ((carry (restoreClear (idNoted s n) n) opIdentity n).lower F.SECT_n_STATE_ID_READY n).updSec n (fun x => { x with idPrev := false }) := by
  unfold identityEval
  rw [if_neg (by omega)]
  simp only [now, prev, last, agrees, device, quiet]
  exact if_pos (by simp)

theorem drive_idNoted {n : Nat} (lt : n < 48) : (idNoted s n).drive = s.drive := by
  unfold idNoted
  simp (disch := decide) only [drive_put, State.setFlag_eq, drive_set_inSections _ lt]

theorem get_idNoted {n k : Nat} (lt : n < 48) (ltk : k < 48) {f : Fld} (h : F.SECT_n_STATE_ID_READY.apart f = true) :
    (idNoted s n).get f k = s.get f k := by
  unfold idNoted
  rw [get_updSec, (get_write_apart lt ltk h s).2.2.2.1]

theorem DriveSteady.carry {t : State} (h : DriveSteady t) (op n : Nat) : DriveSteady (carry t op n) := h

theorem DriveSteady.updSec {t : State} (h : DriveSteady t) (n : Nat) (g : Sec → Sec) : DriveSteady (t.updSec n g) := h

theorem get_carry (t : State) (op n : Nat) (f : Fld) (i : Nat) : (carry t op n).get f i = t.get f i := rfl

theorem identityEval_proven {n : Nat} (lt : n < 48) (lines : LinesFollow s) (last : (s.sec n).idAt = s.cycle) (prev : (s.sec n).idPrev = true)
    (now : idLocal s n = true) (agrees : partnerAgrees s n = true) (device : restoreDevice s = true) (quiet : (s.sec n).touched = false) :
    let u := identityEval s n
    DriveSteady u ∧ u.get F.SECT_n_STATE_STATE n = 0 ∧ u.get F.SECT_n_CNT_COUNT n = 0 ∧ u.get F.SECT_n_STATE_CAUSE n = 0
      ∧ u.get F.SECT_n_STATE_CAUSE_CP n = 63 ∧ u.get F.SECT_n_STATE_SINGLE n = 0 ∧ u.get F.SECT_STATUS_RESTORED = 1
      ∧ ∀ k, k < 48 → k ≠ n → u.get F.SECT_n_STATE_STATE k = s.get F.SECT_n_STATE_STATE k
        ∧ u.get F.SECT_n_CNT_COUNT k = s.get F.SECT_n_CNT_COUNT k := by
  have zero : 0 < 48 := by decide
  have cleared : DriveSteady (restoreClear (idNoted s n) n) := steady_of_drive lines ((drive_restoreClear _ lt).trans (drive_idNoted lt))
  have source : drivesSource (F.SECT_n_STATE_ID_READY.key n) = false :=
    (Bool.or_eq_false_iff.mp (driveKey_inSections (by decide) lt)).1
  rw [identityEval_restores last prev now agrees device quiet]
  refine ⟨((cleared.carry _ _).set source).updSec _ _, ?_⟩
  simp (disch := decide) only [get_updSec, get_write_apart lt lt, get_write_apart lt zero, get_carry, restoreClear_clears _ lt, true_and]
  intro k ltk ne
  simp (disch := decide) only [get_write_apart lt ltk, get_carry, restoreClear_others _ lt ltk ne, get_idNoted lt ltk]
  trivial

/-! ### The sweep (R173) -/

theorem sweepAxles_eq (s : State) (n c0 ins : Nat) :
    sweepAxles s n c0 ins = min 255 ((if c0 = 0 then 0 else s.get F.SECT_n_CNT_SWEEP_AXLES n) + ins) := by
  unfold sweepAxles satAdd
  generalize (if c0 = 0 then 0 else s.get F.SECT_n_CNT_SWEEP_AXLES n) + ins = sum
  split <;> omega

/-- The step of a SWEEP_PENDING section: the sweep completes, or its passages are counted on. -/
theorem stepSec_sweeping {n : Nat} (pending : s.get F.SECT_n_STATE_STATE n = 3) (c0 c1 ins : Nat) : (stepSec s n c0 c1 ins).1 =
    if c0 ≠ 0 ∧ c1 = 0 ∧ s.get F.SECT_n_CFG_SWEEP_MIN n ≤ sweepAxles s n c0 ins then
      secNote ((clearEpisode (s.set F.SECT_n_CNT_SWEEP_AXLES n (sweepAxles s n c0 ins)) n).raise F.SECT_STATUS_RESTORED) n 1
    else if c0 = 0 ∧ c1 = 0 then s
    else s.set F.SECT_n_CNT_SWEEP_AXLES n (if c1 = 0 then 0 else sweepAxles s n c0 ins) := by
  unfold stepSec
  simp only [pending]
  split <;> rfl

theorem stepSec_sweep {n : Nat} (lt : n < 48) (pending : s.get F.SECT_n_STATE_STATE n = 3) (c0 c1 ins : Nat) :
    let t := (stepSec s n c0 c1 ins).1
    let axles := sweepAxles s n c0 ins
    (c1 ≠ 0 → t.get F.SECT_n_STATE_STATE n = 3 ∧ t.get F.SECT_n_CNT_SWEEP_AXLES n = axles)
    ∧ (c1 = 0 → c0 = 0 → t.get F.SECT_n_STATE_STATE n = 3 ∧ t.get F.SECT_n_CNT_SWEEP_AXLES n = s.get F.SECT_n_CNT_SWEEP_AXLES n)
    ∧ (c1 = 0 → c0 ≠ 0 → axles < s.get F.SECT_n_CFG_SWEEP_MIN n → t.get F.SECT_n_STATE_STATE n = 3 ∧ t.get F.SECT_n_CNT_SWEEP_AXLES n = 0)
    ∧ (c1 = 0 → c0 ≠ 0 → s.get F.SECT_n_CFG_SWEEP_MIN n ≤ axles → t.get F.SECT_n_STATE_STATE n = 0 ∧ t.get F.SECT_n_STATE_CAUSE n = 0
      ∧ t.get F.SECT_n_STATE_MULTI n = 0 ∧ t.get F.SECT_STATUS_RESTORED = 1) := by
  have zero : 0 < 48 := by decide
  have marked (v : Nat) : (s.set F.SECT_n_CNT_SWEEP_AXLES n v).get F.SECT_n_STATE_STATE n = 3
      ∧ (s.set F.SECT_n_CNT_SWEEP_AXLES n v).get F.SECT_n_CNT_SWEEP_AXLES n = v % 256 :=
    ⟨((get_write_apart lt lt (by decide) s).1 v).trans pending, State.get_set_self _ _ _ _⟩
  have fits : sweepAxles s n c0 ins % 256 = sweepAxles s n c0 ins := Nat.mod_eq_of_lt (by rw [sweepAxles_eq]; omega)
  rw [stepSec_sweeping pending]
  extract_lets t axles
  refine ⟨fun left => ?_, fun back still => ?_, fun back begun few => ?_, fun back begun enough => ?_⟩
  · have eq : t = s.set F.SECT_n_CNT_SWEEP_AXLES n axles :=
      (if_neg fun h => left h.2.1).trans ((if_neg fun h => left h.2).trans (by rw [if_neg left]))
    rw [eq]
    exact ⟨(marked _).1, (marked _).2.trans fits⟩
  · have eq : t = s := (if_neg fun h => h.1 still).trans (if_pos ⟨still, back⟩)
    rw [eq]
    exact ⟨pending, rfl⟩
  · have eq : t = s.set F.SECT_n_CNT_SWEEP_AXLES n 0 :=
      (if_neg fun h => Nat.not_le.mpr few h.2.2).trans ((if_neg fun h => begun h.1).trans (by rw [if_pos back]))
    rw [eq]
    exact marked 0
  · have eq : t = _ := if_pos ⟨begun, back, enough⟩
    rw [eq]
    simp (disch := decide) only [get_secNote _ lt, get_secNote _ zero, get_write_self, get_write_apart zero lt, clearEpisode_clears _ lt]
    trivial

theorem moveSec_sweep {n : Nat} {moves : List (Nat × Bool)} (lt : n < 48) (pending : s.get F.SECT_n_STATE_STATE n = 3)
    (low : outsOf moves ≤ s.get F.SECT_n_CNT_COUNT n + insOf moves) (high : s.get F.SECT_n_CNT_COUNT n + insOf moves - outsOf moves ≤ 4095) :
    let c0 := s.get F.SECT_n_CNT_COUNT n
    let c1 := c0 + insOf moves - outsOf moves
    let axles := min 255 ((if c0 = 0 then 0 else s.get F.SECT_n_CNT_SWEEP_AXLES n) + insOf moves)
    let t := (moveSec s n moves).1
    (c1 ≠ 0 → t.get F.SECT_n_STATE_STATE n = 3 ∧ t.get F.SECT_n_CNT_SWEEP_AXLES n = axles)
    ∧ (c1 = 0 → c0 = 0 → t.get F.SECT_n_STATE_STATE n = 3 ∧ t.get F.SECT_n_CNT_SWEEP_AXLES n = s.get F.SECT_n_CNT_SWEEP_AXLES n)
    ∧ (c1 = 0 → c0 ≠ 0 → axles < s.get F.SECT_n_CFG_SWEEP_MIN n → t.get F.SECT_n_STATE_STATE n = 3 ∧ t.get F.SECT_n_CNT_SWEEP_AXLES n = 0)
    ∧ (c1 = 0 → c0 ≠ 0 → s.get F.SECT_n_CFG_SWEEP_MIN n ≤ axles → t.get F.SECT_n_STATE_STATE n = 0 ∧ t.get F.SECT_n_STATE_CAUSE n = 0
      ∧ t.get F.SECT_n_STATE_MULTI n = 0 ∧ t.get F.SECT_STATUS_RESTORED = 1) := by
  rw [moveSec_within low high]
  extract_lets c0 c1
  have before {f : Fld} (h : F.SECT_n_CNT_COUNT.apart f = true) : ((touchSec s n).set F.SECT_n_CNT_COUNT n c1).get f n = s.get f n :=
    (get_write_apart lt lt h (touchSec s n)).1 c1
  have stepped := stepSec_sweep lt ((before (by decide)).trans pending) c0 c1 (insOf moves)
  simpa (disch := decide) only [sweepAxles_eq, before] using stepped

/-! ### The commands -/

variable {p : HPort}

/-- An entry that the pairing leaves, once it is older than 5 s (R174). -/
theorem directExpired_discards {d : DirectEntry} (lines : LinesFollow s) (alone : directPair s = s) (entry : s.restDirect p.toNat = some d)
    (old : d.tick + 300000000 < s.now) :
    let t := settled s (directExpire (directPair s) p.toNat)
    t.restDirect p.toNat = none ∧ t.get (F.SECT_RESTORE_RES_RESULT.port p.toNat) = 3
      ∧ t.get (F.SECT_RESTORE_RES_REASON.port p.toNat) = 9 ∧ t = settled s (rejectRes (putDirect s p.toNat none) p.toNat d.sec 2 .expired) := by
  have dropped : DriveSteady (putDirect s p.toNat none) := lines.steady
  obtain ⟨kept, result, reason⟩ := settled_rejectRes (s := s) dropped p d.sec 2 .expired
  rw [alone, directExpire_some entry, if_pos old]
  exact ⟨(restDirect_of_restores kept _).trans ((restDirect_putDirect_none _ _ _).trans (if_pos rfl)), result, reason, rfl⟩

/-- A carried DISTURB of 4 cycles that no image has brought back (R180). -/
theorem carriedLate_rejects {c : RestoreCmd} (held : s.restCarried p.toNat = some c) (old : c.tick + 240000 ≤ s.now)
    (absent : ¬carriedBack s c = true) : carriedLate s p.toNat = rejectRes (putCarried s p.toNat none) p.toNat c.sec c.op .device :=
  (carriedLate_some held).trans (if_pos ⟨old, by simp [absent]⟩)

theorem carriedLate_waits {c : RestoreCmd} (held : s.restCarried p.toNat = some c) (h : s.now < c.tick + 240000 ∨ carriedBack s c = true) :
    carriedLate s p.toNat = s := by
  refine (carriedLate_some held).trans (if_neg fun late => ?_)
  rcases h with young | back
  · omega
  · simp [back] at late

end

/-- Settles O36: the pairing either leaves the entries as they are or takes both out (`directPair_eq_or`), the evidence of two boundaries
makes the section CLEAR (`identityEval_proven`), and a sweep is one step of its count (`moveSec_sweep`). -/
theorem restoreDeadlinesAndIdentity : Obligations.RestoreDeadlinesAndIdentity := by
  refine ⟨fun s lines run => ⟨fun p apart => ?_, fun p boundary => ⟨directPair_alone, fun a b => directPair_late, fun gone => ?_,
    fun d entry => ?_⟩, fun p free => ?_, fun p c held => ?_, fun n counting boundary last _ prev now agrees device quiet => ?_⟩,
    fun s n moves lt pending => ?_⟩
  · exact answers_of (congrArg (answer s) (if_neg (by simp [apart]))) lines.steady
  · have expires : exec (.directExpired p) s = .next (settled s (directExpire (directPair s) p.toNat)) :=
      congrArg (answer s) (if_pos (by simp [boundary, run]))
    exact ⟨_, expires, by rw [directExpire_none gone]⟩
  · have expires : exec (.directExpired p) s = .next (settled s (directExpire (directPair s) p.toNat)) :=
      congrArg (answer s) (if_pos (by simp [boundary, run]))
    have alone := directPair_of_entry entry
    rw [alone] at entry
    refine ⟨fun old => ⟨_, expires, ?_⟩, fun young => ⟨_, expires, ?_⟩⟩
    · simpa only [alone] using directExpired_discards lines alone entry old
    · rw [alone, directExpire_some entry, if_neg (Nat.not_lt.mpr young)]
  · exact answers_of (congrArg (answer s) ((if_pos run).trans (carriedLate_none free))) lines.steady
  · intro arrived
    have dropped : DriveSteady (putCarried s p.toNat none) := lines.steady
    refine ⟨fun old absent => ?_, fun waits => ?_⟩
    · have rejected := carriedLate_rejects held old (absent ∘ (carriedBack_iff s c).mp)
      exact answers_of (congrArg (answer s) ((if_pos run).trans rejected)) (dropped.rejectRes _ _ _ _)
    · have kept := carriedLate_waits held (waits.imp_right (carriedBack_iff s c).mpr)
      exact answers_of (congrArg (answer s) ((if_pos run).trans kept)) lines.steady
  · obtain ⟨steady, state, count, cause, cp, single, restored, others⟩ := identityEval_proven n.isLt lines last prev now agrees device quiet
    have shown {f : Fld} (h : f.inSections = true) {k : Nat} (lt : k < 48) := settled_get_inSections (s := s) steady h lt
    refine ⟨_, congrArg (answer s) (if_pos (by simp [boundary, counting, run])), (shown (by decide) n.isLt).trans state,
      (shown (by decide) n.isLt).trans count, (shown (by decide) n.isLt).trans cause, (shown (by decide) n.isLt).trans cp,
      (shown (by decide) n.isLt).trans single, (shown (by decide) (by decide)).trans restored, fun k lt ne => ?_⟩
    obtain ⟨state', count'⟩ := others k lt ne
    exact ⟨(shown (by decide) lt).trans state', (shown (by decide) lt).trans count'⟩
  · intro ins outs c0 axles t low high
    have empty : c0 + ins = outs ↔ c0 + ins - outs = 0 := by omega
    rw [ne_eq, empty]
    exact ⟨(moveSec_count lt low high).1, moveSec_sweep lt pending low high⟩

end Sys2Proof.Machine
end

section
/-!
PROOFS. A rejected DIRECT and the command that waits for the boundary (R169, R174): O35.
-/

namespace Sys2Proof.Machine

theorem restores_settled {s u : State} (h : DriveSteady u) : (settled s u).restores = u.restores := (settled_result h).restores

/-- A DIRECT of a section that there is not is a later write of the port all the same: it replaces the command that waits (R169). -/
theorem directWrite_section (s : State) (p tok : Nat) {sec : Nat} (beyond : 48 ≤ sec) :
    directWrite s p sec tok = rejectRes (putCmd s p none) p sec 2 .section_ :=
  if_pos beyond

/-- An OPERATIONAL unit in which a SUPERVISED of port A for section 5 waits for the boundary. -/
def supervisedWaits : State :=
  let s := { State.reset with boot := { State.reset.boot with stage := 5 }, cycle := 7, now := 420000 }
  let s := ((s.set F.DEV_STATE_STATE 0 4).set F.DEV_STATE_ROLE 0 1).set F.CRU_CLK_PLL_LOCK 0 1
  let s := putCmd s 0 (some ⟨1, 5, 420000⟩)
  s.putLines (computeLines s)

theorem supervisedWaits_meets : LinesFollow supervisedWaits ∧ supervisedWaits.portsUp = true
    ∧ supervisedWaits.restCmd 0 = some ⟨1, 5, 420000⟩ ∧ (putCmd supervisedWaits 0 none).restCmd 0 = none :=
  ⟨rfl, by decide +kernel, rfl, rfl⟩

/-- Refutes O35: a DIRECT that is rejected with SECTION or TOKEN takes the port's waiting command out, as every later write does (R169, log
entry 35), while the statement's clauses for these rejections have the command still wait. -/
theorem not_restoreCommandsHeld : ¬Obligations.RestoreCommandsHeld := by
  intro all
  obtain ⟨lines, up, waits, replaced⟩ := supervisedWaits_meets
  obtain ⟨-, -, -, rejected, -⟩ := all supervisedWaits .a 48 lines up
  obtain ⟨t, run, claimed⟩ := rejected 7 (by decide)
  have dropped : DriveSteady (putCmd supervisedWaits 0 none) := lines.steady
  have steady : DriveSteady (rejectRes (putCmd supervisedWaits 0 none) 0 48 2 .section_) := dropped.rejectRes .a 48 2 .section_
  have model : exec (.direct .a 48 7) supervisedWaits
      = .next (settled supervisedWaits (rejectRes (putCmd supervisedWaits 0 none) 0 48 2 .section_)) :=
    congrArg (answer supervisedWaits) ((gate_up up _).trans (directWrite_section _ _ _ (by decide)))
  have same : t = settled supervisedWaits (rejectRes (putCmd supervisedWaits 0 none) 0 48 2 .section_) := Host.Outcome.next.inj (run.symm.trans model)
  have kept : t.restores = supervisedWaits.restores := claimed.restores.trans (restores_rejectRes _ _ _ _ _)
  have gone : t.restores = (putCmd supervisedWaits 0 none).restores := by rw [same, restores_settled steady, restores_rejectRes]
  have both : (putCmd supervisedWaits 0 none).restCmd 0 = supervisedWaits.restCmd 0 :=
    congrArg (fun r : Restores => nth r.cmd 0) (gone.symm.trans kept)
  rw [waits, replaced] at both
  exact absurd both (by decide)

end Sys2Proof.Machine
end

section
/-!
SUPPORT. Commands and events of the speeds and the encoders: their registers are none that the sources' drive or the settling touch, the speed
table writes its own (R183), and which port states a frame or a boundary leaves as they were.
-/

namespace Sys2Proof.Machine

/-! ### The blocks of the speeds and of the encoders -/

/-- A bit address in the speed block. -/
def spdBlock (k : Nat) : Bool := decide (0x70000 * 8 ≤ k ∧ k < 0x80000 * 8)

/-- A bit address in the speed block or the encoder block. -/
def posBlock (k : Nat) : Bool := decide (0x70000 * 8 ≤ k ∧ k < 0x90000 * 8)

theorem spdBlock_out {k : Nat} (h : posBlock k = false) : spdBlock k = false := by
  have out := of_decide_eq_false h
  exact decide_eq_false (by omega)

theorem posBlock_sourceless : ∀ k, drivesSource k = true → posBlock k = false := by
  intro k h
  simp only [drivesSource, Bool.or_eq_true, beq_iff_eq] at h
  rcases h with ((rfl | rfl) | rfl) | rfl <;> decide

theorem drivesSource_of_posBlock {k : Nat} (h : posBlock k = true) : drivesSource k = false :=
  Bool.eq_false_iff.mpr fun drives => by simp [posBlock_sourceless k drives] at h

theorem loudFields_elsewhere : ∀ k ∈ loudFields, posBlock k = false := by
  decide

theorem quietKey_of_posBlock {k : Nat} (h : posBlock k = true) : quietKey k = true := by
  have silent : loudFields.contains k = false := by
    rw [List.contains_eq_mem, decide_eq_false_iff_not]
    exact fun loud => by simp [loudFields_elsewhere k loud] at h
  obtain ⟨low, high⟩ := of_decide_eq_true h
  unfold quietKey
  rw [silent]
  simp only [Bool.false_or, Bool.not_eq_true', Bool.or_eq_false_iff, decide_eq_false_iff_not]
  omega

theorem driveKey_of_posBlock {k : Nat} (h : posBlock k = true) : driveKey k = false := by
  obtain ⟨low, high⟩ := of_decide_eq_true h
  unfold driveKey
  rw [drivesSource_of_posBlock h, Bool.false_or, decide_eq_false_iff_not]
  omega

theorem DriveSteady.set_posBlock {s : State} (h : DriveSteady s) {f : Fld} {i : Nat} (at_ : posBlock (f.key i) = true) (v : Nat) :
    DriveSteady (s.set f i v) :=
  h.set (drivesSource_of_posBlock at_)

/-- Writes within the blocks leave the drive steady. -/
theorem WritesOnly.steady_posBlock {w : Nat → Bool} {s t : State} (h : WritesOnly w s t) (lines : LinesFollow s)
    (within : ∀ k, posBlock k = false → w k = false) : DriveSteady t :=
  h.steady lines fun k drives => within k (posBlock_sourceless k drives)

/-- Their fields after a command whose effect leaves the drive steady. -/
theorem settled_get_posBlock (s : State) {u : State} (steady : DriveSteady u) {f : Fld} {i : Nat} (h : posBlock (f.key i) = true) :
    (settled s u).get f i = u.get f i :=
  settled_get_quiet steady f i (quietKey_of_posBlock h)

/-- What a command's whole effect leaves of points and ports. -/
theorem Result.point {s u t : State} (h : Result s u t) (p : Nat) : t.point p = u.point p :=
  h.keeps.reads (fun x => x.point p) fun _ => rfl

theorem Result.encPort {s u t : State} (h : Result s u t) (q : Nat) : t.encPort q = u.encPort q :=
  h.keeps.reads (fun x => x.encPort q) fun _ => rfl

theorem mem_bitsSet_lt {v n k : Nat} (h : k ∈ bitsSet v n) : k < n := List.mem_range.mp (List.mem_of_mem_filter h)

theorem key_cmpStat : ∀ k < 16, posBlock (F.DENC_CMPk_STAT_ARMED.key k) = true ∧ posBlock (F.DENC_CMPk_STAT_FIRED.key k) = true := by
  decide +kernel

theorem key_portStat : ∀ q < 4, posBlock (F.DENC_PORTn_STAT_LULL.key q) = true ∧ posBlock (F.DENC_PORTn_STAT_DIR_VALID.key q) = true
    ∧ posBlock (F.DENC_PORTn_STAT_CLR_ARMED.key q) = true ∧ posBlock (F.DENC_PORTn_STAT_ERR_CNT.key q) = true
    ∧ posBlock (F.DENC_PORTn_STAT_LAST_ERR.key q) = true := by
  decide +kernel

theorem key_pointStat : ∀ p < 24, posBlock (F.SPOS_SPn_SST_SPD_ST.key p) = true ∧ posBlock (F.SPOS_SPn_SST_LULL.key p) = true
    ∧ posBlock (F.SPOS_SPn_SST_DIR_VALID.key p) = true ∧ posBlock (F.SPOS_SPn_SPEED_L_SPEED.key p) = true
    ∧ posBlock (({ F.SPOS_SPn_SPEED_L_SPEED with bit := F.SPOS_SPn_SPEED_L_SPEED.bit + 32, width := 8 } : Fld).key p) = true := by
  decide +kernel

end Sys2Proof.Machine
end

section
/-!
PROOFS. Commands to the compares, the axle query, the ledger copy and the verdict queue (R143, R160, R199, R203). Settles O40.
-/

namespace Sys2Proof.Machine

theorem drive_cmpRearm (s : State) (cmps : Nat) : (cmpRearm s cmps).drive = s.drive :=
  forEach_keeps State.drive (f := fun t k => t.updCmp k fun c => { c with rearm := true }) (fun _ _ _ => rfl) s

theorem drive_cmpDisarm (s : State) (cmps : Nat) : (cmpDisarm s cmps).drive = s.drive :=
  forEach_keeps State.drive (fun t k hk => by
    obtain ⟨armed, fired⟩ := key_cmpStat k (mem_bitsSet_lt hk)
    exact (drive_set _ (driveKey_of_posBlock fired) 0).trans (drive_set t (driveKey_of_posBlock armed) 0)) s

/-- Settles O40: each command is its own effect behind a port that answers, and none of the effects touches what drives the sources. -/
theorem compareAndQueryCommands : Obligations.CompareAndQueryCommands := by
  intro s p lines up
  have gated {c : Instr} {u : State} (run : exec c s = answer s (gate s u)) (steady : DriveSteady u) : Answers c s u :=
    answers_of (run.trans (congrArg (answer s) (gate_up up u))) steady
  refine ⟨fun cmps => ⟨?_, ?_⟩, ?_, fun slot => ?_, ?_⟩
  · exact gated rfl (steady_of_drive lines (drive_cmpRearm s _))
  · exact gated rfl (steady_of_drive lines (drive_cmpDisarm s _))
  · have lowered : DriveSteady (s.set (F.SPOS_AXQ_STAT_DONE.port p.toNat) 0 0) := lines.steady.set (by cases p <;> decide)
    exact gated rfl lowered
  · have asked : DriveSteady ((s.set (F.LEDG_REC_REQ_SLOT.port p.toNat) 0 slot.toNat).set (F.LEDG_REC_STAT_DONE.port p.toNat) 0 0) :=
      (lines.steady.set (by cases p <;> decide)).set (by cases p <;> decide)
    exact gated rfl asked
  · exact gated rfl lines.steady

end Sys2Proof.Machine
end

section
/-!
SUPPORT. What the speed status table writes (R183), and what it decides of a point that enters Lull.
-/

namespace Sys2Proof.Machine

/-! ### What it writes -/

/-- The bit addresses that the table writes at a point. -/
def speedKey (p k : Nat) : Bool :=
  ([F.SPOS_SPn_SST_SPD_ST, F.SPOS_SPn_SST_DIR, F.SPOS_SPn_SST_DIR_VALID, F.SPOS_SPn_SST_AGE, F.SPOS_SPn_SPEED_L_SPEED,
    { F.SPOS_SPn_SPEED_L_SPEED with bit := F.SPOS_SPn_SPEED_L_SPEED.bit + 32, width := 8 }].map (fun f : Fld => f.key p)).contains k
    || k == F.SPOS_STATUS_DIRCHG.key 0

theorem speedKey_spdBlock {p : Nat} (lt : p < 24) (k : Nat) (h : spdBlock k = false) : speedKey p k = false := by
  have own := (by decide +kernel : ∀ p < 24, ∀ f ∈ [F.SPOS_SPn_SST_SPD_ST, F.SPOS_SPn_SST_DIR, F.SPOS_SPn_SST_DIR_VALID, F.SPOS_SPn_SST_AGE,
    F.SPOS_SPn_SPEED_L_SPEED, { F.SPOS_SPn_SPEED_L_SPEED with bit := F.SPOS_SPn_SPEED_L_SPEED.bit + 32, width := 8 }],
    spdBlock (f.key p) = true) p lt
  rw [Bool.eq_false_iff]
  intro at_
  unfold speedKey at at_
  rw [Bool.or_eq_true, List.contains_eq_mem, decide_eq_true_iff, List.mem_map, beq_iff_eq] at at_
  rcases at_ with ⟨f, hf, rfl⟩ | rfl
  · exact absurd (h.symm.trans (own f hf)) (by decide)
  · exact absurd h (by decide)

theorem setSpd_writes (s : State) (p st : Nat) (v : Int) : WritesOnly (speedKey p) s (setSpd s p st v) :=
  ((((WritesOnly.refl _ s).set (by simp [speedKey]) st).set (by simp [speedKey]) _).set (by simp [speedKey]) _).set (by simp [speedKey]) 0

theorem setDir_writes (s : State) (p : Nat) (neg valid force : Bool) : WritesOnly (speedKey p) s (setDir s p neg valid force) := by
  unfold setDir
  extract_lets was chg t u
  have told : WritesOnly (speedKey p) s u :=
    ((((WritesOnly.refl _ s).set (by simp [speedKey]) _).ite (WritesOnly.refl _ s))).set (by simp [speedKey]) _
  exact (told.set (by simp [speedKey]) 1).ite told

theorem spdHard_writes (s : State) (p : Nat) : WritesOnly (speedKey p) s (spdHard s p).1 := by
  unfold spdHard
  extract_lets a b q v
  split_ifs
  · exact (setSpd_writes s p _ _).trans (setDir_writes _ p _ _ _)
  · exact ((setSpd_writes s p _ _).trans (setDir_writes _ p _ _ _)).set (by simp [speedKey]) _
  · exact WritesOnly.refl _ s

theorem spdRows_writes (s : State) (p : Nat) : WritesOnly (speedKey p) s (spdRows s p) := by
  have hard := spdHard_writes s p
  unfold spdRows
  split
  next t b e =>
    rw [e] at hard
    have row (st : Nat) : WritesOnly (speedKey p) s (setDir (setSpd t p st 0) p false false false) :=
      hard.trans ((setSpd_writes t p st 0).trans (setDir_writes _ p _ _ _))
    exact hard.ite (((row _).ite (row _)).ite hard)

theorem spdPort_writes (s : State) (q : Nat) : WritesOnly spdBlock s (spdPort s q) := by
  unfold spdPort forN
  refine WritesOnly.foldl _ _ (fun t p hp => ?_) s
  have rows := (spdRows_writes t p).mono (speedKey_spdBlock (List.mem_range.mp hp))
  exact rows.ite (WritesOnly.refl _ t)

/-! ### Status and speed as they are read -/

theorem fitS_lt (w : Nat) (x : Int) : fitS w x < 2 ^ w := by
  have pos : (0 : Int) < (2 ^ w : Nat) := by exact_mod_cast Nat.two_pow_pos w
  unfold fitS
  split
  · have top := Int.emod_lt_of_pos x pos
    have low := Int.emod_nonneg x (Int.ne_of_gt pos)
    unfold ofSigned
    omega
  · exact Nat.mod_lt _ (Nat.two_pow_pos w)

/-- The cells of a point's speed status are apart. -/
theorem key_speed_apart : ∀ p < 24,
    let high : Fld := { F.SPOS_SPn_SPEED_L_SPEED with bit := F.SPOS_SPn_SPEED_L_SPEED.bit + 32, width := 8 }
    (∀ f ∈ [F.SPOS_SPn_SPEED_L_SPEED, high, F.SPOS_SPn_SST_AGE, F.SPOS_SPn_SST_DIR_VALID], F.SPOS_SPn_SST_SPD_ST.key p ≠ f.key p)
    ∧ ∀ f ∈ [F.SPOS_SPn_SST_AGE, F.SPOS_SPn_SST_DIR_VALID], F.SPOS_SPn_SPEED_L_SPEED.key p ≠ f.key p ∧ high.key p ≠ f.key p := by
  decide +kernel

theorem spdSt_setSpd (s : State) {p : Nat} (lt : p < 24) (st : Nat) (v : Int) : spdSt (setSpd s p st v) p = st % 8 := by
  obtain ⟨apart, -⟩ := key_speed_apart p lt
  unfold spdSt setSpd State.set40
  rw [State.get_set_ne _ _ (apart _ (by simp)), State.get_set_ne _ _ (apart _ (by simp)), State.get_set_ne _ _ (apart _ (by simp))]
  exact State.get_set_self s F.SPOS_SPn_SST_SPD_ST p st

theorem speed_setSpd (s : State) {p : Nat} (lt : p < 24) (st : Nat) (v : Int) :
    (setSpd s p st v).getS40 F.SPOS_SPn_SPEED_L_SPEED p = toSigned 40 (fitS 40 v) := by
  obtain ⟨-, apart⟩ := key_speed_apart p lt
  obtain ⟨low, high⟩ := apart F.SPOS_SPn_SST_AGE (by simp)
  unfold State.getS40 setSpd
  rw [get40_set_ne _ _ low high, get40_set40 _ rfl p (fitS_lt 40 v)]

/-- A direction that is not valid is only marked so. -/
theorem setDir_invalid (s : State) (p : Nat) (neg : Bool) : setDir s p neg false false = s.set F.SPOS_SPn_SST_DIR_VALID p 0 := by
  simp [setDir, State.setFlag, b2n]

/-! ### The rows of a point that is neither INVALID nor on its encoder (R183) -/

theorem spdHard_passes {s : State} {p : Nat} (quiet : pointUnquiet s p = false) (used : pointUsed s p = true) (apart : encRow s p = false) :
    spdHard s p = (s, false) := by
  simp only [pointUnquiet, Bool.or_eq_false_iff, beq_eq_false_iff_ne, ne_eq] at quiet
  obtain ⟨⟨⟨-, blindA⟩, faultyA⟩, ⟨-, blindB⟩, faultyB⟩ := quiet
  unfold spdHard
  simp [blindA, faultyA, blindB, faultyB, used, apart]

end Sys2Proof.Machine
end

section
/-!
PROOFS. A held speed goes STALE, and a quiet point enters Lull (R183, R185, R186). Settles O37.
-/

namespace Sys2Proof.Machine

/-! ### A held speed (R185) -/

theorem speedStale_aged {s : State} {p : Nat} (held : spdSt s p = sstOnset ∨ spdSt s p = sstFull)
    (moves : s.getS40 F.SPOS_SPn_SPEED_L_SPEED p ≠ 0)
    (aged : gapDist s p * 60000000 ≤ (s.now - (s.point p).spdTick) * (s.getS40 F.SPOS_SPn_SPEED_L_SPEED p).natAbs) :
    speedStale s p = (s.set F.SPOS_SPn_SST_SPD_ST p sstStale).set F.SPOS_STATUS_STALE 0 1 :=
  if_pos ⟨held, by simp [gapAged, aged, moves]⟩

theorem speedStale_young {s : State} {p : Nat} (young : s.getS40 F.SPOS_SPn_SPEED_L_SPEED p = 0
      ∨ (s.now - (s.point p).spdTick) * (s.getS40 F.SPOS_SPn_SPEED_L_SPEED p).natAbs < gapDist s p * 60000000) :
    speedStale s p = s := by
  refine if_neg fun ⟨_, aged⟩ => ?_
  simp only [gapAged, Bool.and_eq_true, decide_eq_true_eq, bne_iff_ne, ne_eq] at aged
  obtain ⟨covered, moves⟩ := aged
  exact young.elim moves (Nat.not_lt.mpr covered)

theorem speedStale_answers {s : State} {sp : Fin 24} {u : State} (counting : s.counting = true) (boundary : atBoundary s = true)
    (eq : speedStale s sp.val = u) (steady : DriveSteady u) : Answers (.speedStale sp) s u :=
  answers_of (congrArg (answer s) ((if_pos (by simp [counting, boundary])).trans eq)) steady

/-! ### A quiet point (R186) -/

/-- A point marked as in Lull, before its speed follows. -/
def lullMarked (s : State) (p : Nat) : State := (s.updPoint p (fun x => { x with lull := true })).raise F.SPOS_SPn_SST_LULL p

/-- What Lull makes of its speed (R183). -/
def lullSpeed (s : State) (p : Nat) : State := (setSpd (lullMarked s p) p sstLull 0).set F.SPOS_SPn_SST_DIR_VALID p 0

/-- The mark of Lull is none of the fields that the first rows of R183 read. -/
theorem lullMarked_get (s : State) {p : Nat} (lt : p < 24) {f : Fld} {i : Nat} (h : f.key i < 0x70180 * 8 ∨ 0x80000 * 8 ≤ f.key i) :
    (lullMarked s p).get f i = s.get f i := by
  refine (State.get_set_ne _ 1 fun e => ?_ : _ = (s.updPoint p _).get f i)
  rw [e] at h
  simp only [F.SPOS_SPn_SST_LULL, Fld.key] at h
  omega

theorem lullMarked_flag (s : State) {p : Nat} (lt : p < 24) {f : Fld} {i : Nat} (h : f.key i < 0x70180 * 8 ∨ 0x80000 * 8 ≤ f.key i) :
    (lullMarked s p).flag f i = s.flag f i :=
  congrArg (· != 0) (lullMarked_get s lt h)

theorem lullMarked_point {s : State} {p : Nat} (pts : p < s.points.length) : (lullMarked s p).point p = { s.point p with lull := true } :=
  point_updPoint pts _

theorem lullMarked_point_ne (s : State) {p q : Nat} (ne : q ≠ p) : (lullMarked s p).point q = s.point q :=
  nth_upd_ne s.points ne.symm _

theorem lullMarked_blind {s : State} {p : Nat} (pts : p < s.points.length) (q : Nat) :
    ((lullMarked s p).point q).blind = (s.point q).blind := by
  rcases eq_or_ne q p with rfl | ne
  · rw [lullMarked_point pts]
  · rw [lullMarked_point_ne s ne]

theorem lullMarked_unquiet {s : State} {p : Nat} (pts : p < s.points.length) : pointUnquiet (lullMarked s p) p = pointUnquiet s p := by
  have same (c : Nat) : chState (lullMarked s p) c = chState s c := by
    unfold chState
    rw [lullMarked_blind pts]
    rfl
  unfold pointUnquiet
  rw [same, same]

theorem lullMarked_tiles (s : State) {p : Nat} (lt : p < 24) : (lullMarked s p).tiles = s.tiles :=
  tiles_set _ ((by decide +kernel : ∀ p < 24, tileKey (F.SPOS_SPn_SST_LULL.key p) = false) p lt) 1

theorem key_marks : ∀ m < 8, (0x80000 * 8 ≤ F.DENC_REFm_CFG_VALID.key m) ∧ 0x80000 * 8 ≤ F.DENC_REFm_CFG_SP.key m := by
  decide

theorem lullMarked_used (s : State) {p : Nat} (lt : p < 24) : pointUsed (lullMarked s p) p = pointUsed s p := by
  have station : F.LEDG_SPn_CFG_STATION.key p < 0x70180 * 8 := by
    simp only [F.LEDG_SPn_CFG_STATION, Fld.key]
    omega
  unfold pointUsed
  rw [pointCp_of_tiles (lullMarked_tiles s lt), lullMarked_flag s lt (.inl station)]
  refine congrArg _ (any_congr_mem fun m hm => ?_)
  obtain ⟨valid, sp⟩ := key_marks m (List.mem_range.mp hm)
  rw [lullMarked_flag s lt (.inr valid), lullMarked_get s lt (.inr sp)]

theorem lullMarked_encRow (s : State) {p : Nat} (lt : p < 24) : encRow (lullMarked s p) p = encRow s p := by
  have cfg : F.SPOS_SPn_CFG_SPD_PORT.key p < 0x70180 * 8 ∧ F.SPOS_SPn_CFG_SPD_EN.key p < 0x70180 * 8 := by
    simp only [F.SPOS_SPn_CFG_SPD_PORT, F.SPOS_SPn_CFG_SPD_EN, Fld.key]
    omega
  have port (q : Nat) : 0x80000 * 8 ≤ F.DENC_PORTn_STAT_STATE.key q ∧ 0x80000 * 8 ≤ F.DENC_PORTn_STAT_LULL.key q := by
    simp only [F.DENC_PORTn_STAT_STATE, F.DENC_PORTn_STAT_LULL, Fld.key]
    omega
  obtain ⟨named, enabled⟩ := cfg
  unfold encRow encState
  rw [lullMarked_get s lt (.inl named), lullMarked_flag s lt (.inl enabled)]
  extract_lets q
  rw [lullMarked_get s lt (.inr (port q).1), lullMarked_flag s lt (.inr (port q).2)]

/-- A used point off its encoder row that has been quiet for LULL_TIME enters Lull. -/
theorem pointEnterLull_enters {s : State} {p : Nat} (lt : p < 24) (pts : p < s.points.length) (quiet : pointUnquiet s p = false)
    (out : (s.point p).lull = false) (long : (s.point p).quietSince + s.get F.SPOS_CFG_LULL_TIME * cycleTicks ≤ s.now)
    (used : pointUsed s p = true) (apart : encRow s p = false) : pointEnterLull s p = lullSpeed s p := by
  have passes : spdHard (lullMarked s p) p = (lullMarked s p, false) :=
    spdHard_passes ((lullMarked_unquiet pts).trans quiet) ((lullMarked_used s lt).trans used) ((lullMarked_encRow s lt).trans apart)
  have told : spdEvent (lullMarked s p) p .lull = lullSpeed s p := by
    unfold spdEvent
    rw [passes]
    exact setDir_invalid _ p false
  rw [← told]
  unfold pointEnterLull
  rw [if_neg (by simp [quiet]), if_pos ⟨by simp [out], long⟩]
  rfl

/-- Lull writes the point's own speed cells alone. -/
theorem lullSpeed_writes (s : State) (p : Nat) :
    WritesOnly (fun k => speedKey p k || k == F.SPOS_SPn_SST_LULL.key p) (s.updPoint p (fun x => { x with lull := true })) (lullSpeed s p) := by
  have marked : WritesOnly (fun k => speedKey p k || k == F.SPOS_SPn_SST_LULL.key p) (s.updPoint p (fun x => { x with lull := true }))
      (lullMarked s p) := (WritesOnly.refl _ _).set (by simp) 1
  have spd := (setSpd_writes (lullMarked s p) p sstLull 0).mono (w := fun k => speedKey p k || k == F.SPOS_SPn_SST_LULL.key p)
    fun k h => (Bool.or_eq_false_iff.mp h).1
  exact (marked.trans spd).set (by simp [speedKey]) 0

theorem lullSpeed_shows (s : State) {p : Nat} (lt : p < 24) : spdSt (lullSpeed s p) p = sstLull
    ∧ (lullSpeed s p).getS40 F.SPOS_SPn_SPEED_L_SPEED p = 0 ∧ (lullSpeed s p).get F.SPOS_SPn_SST_DIR_VALID p = 0 := by
  obtain ⟨status, speed⟩ := key_speed_apart p lt
  obtain ⟨low, high⟩ := speed F.SPOS_SPn_SST_DIR_VALID (by simp)
  refine ⟨?_, ?_, State.get_set_self _ F.SPOS_SPn_SST_DIR_VALID p 0⟩
  · exact (State.get_set_ne _ 0 (status _ (by simp))).trans (spdSt_setSpd _ lt sstLull 0)
  · have zero : toSigned 40 (fitS 40 0) = 0 := by decide
    exact (congrArg (toSigned 40) (get40_set_ne _ 0 low high)).trans ((speed_setSpd _ lt sstLull 0).trans zero)

theorem lullSpeed_steady {s : State} (lines : LinesFollow s) {p : Nat} (lt : p < 24) : DriveSteady (lullSpeed s p) := by
  have own := (by decide +kernel : ∀ p < 24, spdBlock (F.SPOS_SPn_SST_LULL.key p) = true) p lt
  refine (lullSpeed_writes s p).steady_posBlock lines fun k out => ?_
  have off := spdBlock_out out
  rw [speedKey_spdBlock lt k off, Bool.false_or, beq_eq_false_iff_ne]
  rintro rfl
  exact absurd (own.symm.trans off) (by decide)

/-- The status of another point is none of the cells that Lull writes. -/
theorem spdSt_outside : ∀ p < 24, ∀ q < 24, q ≠ p →
    (speedKey p (F.SPOS_SPn_SST_SPD_ST.key q) || F.SPOS_SPn_SST_SPD_ST.key q == F.SPOS_SPn_SST_LULL.key p) = false := by
  decide +kernel

/-- Settles O37: the speed has covered twice the gap or not, and Lull passes the first rows of R183 as the point passed them before it. -/
theorem speedStaleAndPointLull : Obligations.SpeedStaleAndPointLull := by
  intro s sp lines counting boundary
  have lt := sp.isLt
  refine ⟨fun held => ⟨fun moves aged => ?_, fun young => ?_⟩, fun run size quiet out long used apart => ?_⟩
  · refine speedStale_answers counting boundary (speedStale_aged held moves aged) ?_
    exact (lines.steady.set_posBlock (key_pointStat _ lt).1 _).set_posBlock (by decide) 1
  · exact speedStale_answers counting boundary (speedStale_young young) lines.steady
  · have pts : sp.val < s.points.length := lt.trans_eq size.symm
    have enters : exec (.pointLullEntry sp) s = .next (settled s (lullSpeed s sp.val)) :=
      congrArg (answer s) ((if_pos (by simp [boundary, counting, run])).trans (pointEnterLull_enters lt pts quiet out long used apart))
    have steady := lullSpeed_steady lines lt
    have result := settled_result (s := s) steady
    obtain ⟨keySt, keyLull, keyValid, keyLow, keyHigh⟩ := key_pointStat sp.val lt
    obtain ⟨status, speed, direction⟩ := lullSpeed_shows s lt
    have writes := lullSpeed_writes s sp.val
    have points (q : Nat) : (settled s (lullSpeed s sp.val)).point q = (lullMarked s sp.val).point q :=
      (result.point q).trans (writes.reads (fun x => x.point q) fun _ _ => rfl)
    refine ⟨_, enters, ?_, (settled_get_posBlock s steady keySt).trans status, ?_, (settled_get_posBlock s steady keyValid).trans direction,
      fun q ltq ne => ⟨?_, ?_⟩⟩
    · rw [points, lullMarked_point pts]
    · rw [← speed]
      unfold State.getS40 State.get40
      rw [settled_get_posBlock s steady keyLow, settled_get_posBlock s steady keyHigh]
    · rw [points, lullMarked_point_ne s ne]
    · exact (settled_get_posBlock s steady (key_pointStat q ltq).1).trans (writes.get (spdSt_outside _ lt q ltq ne))

end Sys2Proof.Machine
end

section
/-!
PROOFS. Encoder frames and the polls before them (R191, R192, R195, R197). Settles O38.
-/

namespace Sys2Proof.Machine

/-! ### The silent polls before a frame (R192) -/

theorem updEnc_congr {s : State} {q : Nat} {f g : EncPort → EncPort} (h : f (s.encPort q) = g (s.encPort q)) : s.updEnc q f = s.updEnc q g := by
  unfold State.updEnc
  rw [upd_congr h]

theorem pollsRecord_none {s : State} {q t : Nat} (silent : silentPolls s q t = 0) :
    pollsRecord s q t = s.updEnc q (fun e => { e with polls := e.polls.take 256, lastPoll := some t }) := by
  have polls : pollsBy s q t = (s.encPort q).polls.take 256 := by simp [pollsBy, silent]
  unfold pollsRecord
  rw [silent, polls]
  refine (if_neg fun h => h.1 rfl).trans ?_
  exact updEnc_congr rfl

/-! ### A frame judged -/

section
variable {s : State} {q edge : Nat} {bits : List Bool}

/-- A frame before which DAT was not high (R192). -/
theorem takeFrame_idle : takeFrame s q edge false bits
    = (frameFaulty (pollsRecord s q edge) q (edge + s.get F.DENC_PORTn_TIMING_LAT_COMP q) 1, false) := rfl

/-- The count of a frame: the first as it is, a later one extended from the last (R191). -/
def frameCount (v : State) (q : Nat) (bits : List Bool) : Int :=
  if (v.encPort q).loaded then extend (v.get F.DENC_PORTn_FRAME_POS_WIDTH q) (v.encPort q).count (v.encPort q).raw (rawOf v q bits)
  else count40 (rawOf v q bits)

/-- How far a frame of a sample tick lies from the last one, in µm (R192). -/
def frameStep (v : State) (q t : Nat) (bits : List Bool) : Int :=
  posUnder (scaleAtTick v q t) (frameCount v q bits) - posUnder (scaleAtTick v q t) (v.encPort q).count

/-- A frame without error bit and with its parity is valid unless it lies beyond MAX_STEP of the last. -/
theorem takeFrame_decoded {v : State} (polls : pollsRecord s q edge = v) {t : Nat} (at_ : edge + s.get F.DENC_PORTn_TIMING_LAT_COMP q = t)
    (sound : errBit v q bits = false) (even : parityBad v q bits = false) : takeFrame s q edge true bits =
      if (v.encPort q).loaded ∧ ((maxStepAt v q t : Int) * 4 < frameStep v q t bits ∨ frameStep v q t bits < -((maxStepAt v q t : Int) * 4)) then
        (frameFaulty (v.updEnc q (fun e => { e with raw := rawOf v q bits, count := frameCount v q bits })) q t 4, false)
      else (frameValid v q t (rawOf v q bits) (frameCount v q bits), true) := by
  unfold takeFrame
  rw [polls, at_]
  simp only [sound, even]
  rfl

theorem takeFrame_valid {v : State} (polls : pollsRecord s q edge = v) {t : Nat} (at_ : edge + s.get F.DENC_PORTn_TIMING_LAT_COMP q = t)
    (sound : errBit v q bits = false) (even : parityBad v q bits = false)
    (near : (v.encPort q).loaded = false
      ∨ frameStep v q t bits ≤ (maxStepAt v q t : Int) * 4 ∧ -((maxStepAt v q t : Int) * 4) ≤ frameStep v q t bits) :
    takeFrame s q edge true bits = (frameValid v q t (rawOf v q bits) (frameCount v q bits), true) := by
  rw [takeFrame_decoded polls at_ sound even]
  refine if_neg fun ⟨loaded, far⟩ => ?_
  rcases near with first | within
  · rw [first] at loaded; exact Bool.noConfusion loaded
  · omega

theorem takeFrame_jump {v : State} (polls : pollsRecord s q edge = v) {t : Nat} (at_ : edge + s.get F.DENC_PORTn_TIMING_LAT_COMP q = t)
    (sound : errBit v q bits = false) (even : parityBad v q bits = false) (loaded : (v.encPort q).loaded = true)
    (far : (maxStepAt v q t : Int) * 4 < frameStep v q t bits ∨ frameStep v q t bits < -((maxStepAt v q t : Int) * 4)) :
    takeFrame s q edge true bits
      = (frameFaulty (v.updEnc q (fun e => { e with raw := rawOf v q bits, count := frameCount v q bits })) q t 4, false) := by
  rw [takeFrame_decoded polls at_ sound even]
  exact if_pos ⟨loaded, far⟩

/-! ### What a command does with it -/

theorem encFrame_detached {hi : Bool} (off : s.flag F.DENC_PORTn_CFG_ATTACH q = false) : encFrame s q edge hi bits = s :=
  if_pos (.inr (by rw [off]; rfl))

/-- Behind an attached port a valid frame of a port that is not in FAULT reaches what rests on the position, any other stops there. -/
theorem encFrame_attached {hi : Bool} (counting : s.counting = true) (on : s.flag F.DENC_PORTn_CFG_ATTACH q = true) {r : State} {ok : Bool}
    (judged : takeFrame s q edge hi bits = (r, ok)) {t : Nat} (at_ : edge + s.get F.DENC_PORTn_TIMING_LAT_COMP q = t) : encFrame s q edge hi bits =
      if ok ∧ encState r q ≠ encFault then spdPort (cmpFrame (forN 8 (unitsFrame r q t) vcpEval) q t) q else r := by
  unfold encFrame
  rw [if_neg (by simp [counting, on]), judged, at_]

end

/-! ### A faulty frame that is only counted (R192) -/

/-- A faulty poll and its cause noted. -/
def faultNoted (v : State) (q err : Nat) : State :=
  ((v.updEnc q (fun e => { e with polls := (true :: e.polls).take 256 })).indicate.counted F.DENC_PORTn_STAT_ERR_CNT q).set
    F.DENC_PORTn_STAT_LAST_ERR q err

/-- A poll without a valid frame counted. -/
def missCounted (v : State) (q : Nat) : State := v.updEnc q (fun e => { e with missed := e.missed + 1, goodRun := 0 })

theorem encPort_updEnc {s : State} {q : Nat} (h : q < s.encs.length) (g : EncPort → EncPort) : (s.updEnc q g).encPort q = g (s.encPort q) :=
  nth_upd_self h g

theorem encPort_updEnc_ne (s : State) {q r : Nat} (h : r ≠ q) (g : EncPort → EncPort) : (s.updEnc q g).encPort r = s.encPort r :=
  nth_upd_ne s.encs h.symm g

/-- The limits of a port and its cells of ERR_CNT and LAST_ERR are apart. -/
theorem key_limits_apart : ∀ q < 4, ∀ g ∈ [F.DENC_PORTn_STAT_ERR_CNT, F.DENC_PORTn_STAT_LAST_ERR], F.DENC_PORTn_LIM_MAX_STEP.key q ≠ g.key q
    ∧ F.DENC_PORTn_LIM_DIR_HYST.key q ≠ g.key q ∧ F.DENC_PORTn_LULL_LULL_BAND.key q ≠ g.key q ∧ F.DENC_PORTn_LIM_LATE_LIM.key q ≠ g.key q := by
  decide +kernel

theorem lateLimAt_set (s : State) {q : Nat} (lt : q < 4) {g : Fld} (h : g ∈ [F.DENC_PORTn_STAT_ERR_CNT, F.DENC_PORTn_STAT_LAST_ERR])
    (v t : Nat) : lateLimAt (s.set g q v) q t = lateLimAt s q t := by
  obtain ⟨step, hyst, band, late⟩ := key_limits_apart q lt g h
  have lims : portLims (s.set g q v) q = portLims s q := by
    unfold portLims
    rw [State.get_set_ne s v step, State.get_set_ne s v hyst, State.get_set_ne s v band, State.get_set_ne s v late]
  unfold lateLimAt limsAtTick
  rw [lims]
  rfl

theorem lateLimAt_updEnc {s : State} {q : Nat} (h : q < s.encs.length) {g : EncPort → EncPort}
    (same : ∀ e, (g e).limAt = e.limAt ∧ (g e).limWas = e.limWas) (t : Nat) : lateLimAt (s.updEnc q g) q t = lateLimAt s q t := by
  obtain ⟨at_, was⟩ := same (s.encPort q)
  unfold lateLimAt limsAtTick
  rw [encPort_updEnc h]
  dsimp only
  rw [at_, was]
  rfl

theorem lateLimAt_missCounted {s : State} {q : Nat} (h : q < s.encs.length) (t : Nat) : lateLimAt (missCounted s q) q t = lateLimAt s q t :=
  lateLimAt_updEnc h (by exact fun _ => ⟨rfl, rfl⟩) t

theorem lateLimAt_faultNoted {s : State} {q : Nat} (lt : q < 4) (h : q < s.encs.length) (err t : Nat) :
    lateLimAt (faultNoted s q err) q t = lateLimAt s q t := by
  have polled : lateLimAt (s.updEnc q (fun e => { e with polls := (true :: e.polls).take 256 })) q t = lateLimAt s q t :=
    lateLimAt_updEnc h (by exact fun _ => ⟨rfl, rfl⟩) t
  exact (lateLimAt_set _ lt (by simp) err t).trans ((lateLimAt_set _ lt (by simp) _ t).trans polled)

theorem encPort_faultNoted {s : State} {q : Nat} (h : q < s.encs.length) (err : Nat) :
    (faultNoted s q err).encPort q = { s.encPort q with polls := (true :: (s.encPort q).polls).take 256 } :=
  encPort_updEnc h _

/-- A port short of 16 faulty polls and of LATE_LIM misses keeps its state over a faulty frame that is no jump. -/
theorem frameFaulty_counted {v : State} {q t err : Nat} (lt : q < 4) (size : v.encs.length = 4) (step : err ≠ 4)
    (few : ((true :: (v.encPort q).polls).take 256 |>.filter id).length < 16) (early : (v.encPort q).missed + 1 < lateLimAt v q t) :
    frameFaulty v q t err = missCounted (faultNoted v q err) q := by
  have len : q < v.encs.length := lt.trans_eq size.symm
  have lens : q < (faultNoted v q err).encs.length := len.trans_eq (List.length_modify _ v.encs q).symm
  have stays : (if err = 4 ∨ 16 ≤ (((faultNoted v q err).encPort q).polls.filter id).length then portFault (faultNoted v q err) q
      else faultNoted v q err) = faultNoted v q err := by
    rw [encPort_faultNoted len]
    exact if_neg fun h => h.elim step (Nat.not_le.mpr few)
  have missed : ((missCounted (faultNoted v q err) q).encPort q).missed = (v.encPort q).missed + 1 := by
    unfold missCounted
    rw [encPort_updEnc lens, encPort_faultNoted len]
  have intime : ¬lateLimAt (missCounted (faultNoted v q err) q) q t ≤ ((missCounted (faultNoted v q err) q).encPort q).missed := by
    rw [lateLimAt_missCounted lens, lateLimAt_faultNoted lt len, missed]
    exact Nat.not_le.mpr early
  have late : pollMissed (faultNoted v q err) q t = missCounted (faultNoted v q err) q := if_neg fun h => intime h.1
  exact (congrArg (pollMissed · q t) stays).trans late

theorem missCounted_steady {v : State} (steady : DriveSteady v) {q : Nat} (lt : q < 4) (err : Nat) :
    DriveSteady (missCounted (faultNoted v q err) q) := by
  obtain ⟨-, -, -, count, last⟩ := key_portStat q lt
  have polled : DriveSteady (v.updEnc q (fun e => { e with polls := (true :: e.polls).take 256 })).indicate := steady
  have noted : DriveSteady (faultNoted v q err) := (polled.set_posBlock count _).set_posBlock last err
  exact noted

/-! ### A valid frame of a port in FAULT (R197) -/

theorem encState_holdsLatch (s : State) (q r : Nat) : encState (holdsLatch s q) r = encState s r :=
  forN_keeps (fun t => encState t r) (fun t p _ => by
    dsimp only
    split
    · rfl
    · rfl) s

theorem holdsLatch_steady {s : State} (h : DriveSteady s) (q : Nat) : DriveSteady (holdsLatch s q) :=
  forEach_holds (fun _ p ht => DriveSteady.ite (ht.updPoint p _) ht) _ h

/-- A port in FAULT takes a frame for decoding only: the frame is latched for the holds that run, and no register changes. -/
theorem frameValid_fault {s : State} {q : Nat} (fault : encState s q = encFault) (t raw : Nat) (count : Int) :
    frameValid s q t raw count = holdsLatch (s.updEnc q (fun e =>
      { e with loaded := true, raw := raw, count := count, frames := keepFrames (latchHorizon s) ((t, framePos s q t count) :: e.frames),
               polls := (false :: e.polls).take 256, missed := 0, goodRun := e.goodRun + 1,
               lullPos := if (s.encPort q).loaded then e.lullPos else framePos s q t count,
               extreme := if (s.encPort q).loaded then e.extreme else framePos s q t count })) q := by
  unfold frameValid
  extract_lets pos first taken latched
  rw [if_pos ((encState_holdsLatch taken q q).trans fault)]
  refine congrArg (holdsLatch · q) (updEnc_congr ?_)
  cases seen : (s.encPort q).loaded <;> simp [first, pos, seen]

theorem frameValid_fault_state {s : State} {q : Nat} (fault : encState s q = encFault) (t raw : Nat) (count : Int) :
    encState (frameValid s q t raw count) q = encFault := by
  rw [frameValid_fault fault, encState_holdsLatch]
  exact fault

/-! ### The statement -/

/-- Settles O38: the silent polls are recorded first, and what is then judged of the frame says which of the model's branches it takes. -/
theorem encoderFrames : Obligations.EncoderFrames := by
  intro s port edge hi bits lines counting q v t
  have lt : q < 4 := port.isLt
  refine ⟨fun off => ?_, pollsRecord_none, fun on few early size steady => ?_, fun on sound even size => ?_⟩
  · exact answers_of (congrArg (answer s) (encFrame_detached off)) lines.steady
  · have stops : encFrame s q edge false bits = frameFaulty v q t 1 := encFrame_attached counting on takeFrame_idle rfl
    exact answers_of (congrArg (answer s) (stops.trans (frameFaulty_counted lt size (by decide) few early))) (missCounted_steady steady lt 1)
  intro e0 raw count step lim pos
  refine ⟨fun near => ?_, fun loaded far => ?_⟩
  · have judged : takeFrame s q edge true bits = (frameValid v q t raw count, true) := takeFrame_valid (v := v) (t := t) rfl rfl sound even near
    refine ⟨fun fault steady => ?_, fun working => ?_⟩
    · have stops : encFrame s q edge true bits = frameValid v q t raw count :=
        (encFrame_attached counting on judged rfl).trans (if_neg fun h => h.2 (frameValid_fault_state fault t raw count))
      refine answers_of (congrArg (answer s) (stops.trans (frameValid_fault fault t raw count))) (holdsLatch_steady ?_ q)
      exact steady
    · exact congrArg (answer s) ((encFrame_attached counting on judged rfl).trans (if_pos ⟨rfl, working⟩))
  · have judged := takeFrame_jump (v := v) (t := t) rfl rfl sound even loaded far
    exact congrArg (answer s) (encFrame_attached counting on judged rfl)

end Sys2Proof.Machine
end

section
/-!
PROOFS. A port becomes LATE, enters Lull, is armed and leaves FAULT (R192, R196, R197). Settles O39.
-/

namespace Sys2Proof.Machine

/-! ### LATE (R192) -/

/-- The polls up to LATE_LIM recorded as polls without a valid frame. -/
def pollsAsserted (s : State) (q : Nat) : State :=
  s.updEnc q (fun e =>
    { e with missed := max e.missed (s.get F.DENC_PORTn_LIM_LATE_LIM q),
             polls := (List.replicate (s.get F.DENC_PORTn_LIM_LATE_LIM q - e.missed) false ++ e.polls).take 256,
             lastPoll := e.lastPoll.map (fun t => t + (s.get F.DENC_PORTn_LIM_LATE_LIM q - e.missed) * pollTicks s q) })

theorem encLateNow_late {s : State} {q : Nat} (counting : s.counting = true) (on : s.flag F.DENC_PORTn_CFG_ATTACH q = true)
    (may : encState s q = encValid ∨ encState s q = encDetached) : encLateNow s q = portLate (pollsAsserted s q) q :=
  if_pos ⟨counting, on, may⟩

theorem encLateNow_stays {s : State} {q : Nat} (h : s.counting = false ∨ s.flag F.DENC_PORTn_CFG_ATTACH q = false ∨ encState s q = encLate
    ∨ encState s q = encFault) : encLateNow s q = s := by
  refine if_neg fun ⟨counting, on, may⟩ => ?_
  rcases h with off | off | late | fault
  · rw [off] at counting; exact Bool.noConfusion counting
  · rw [off] at on; exact Bool.noConfusion on
  · rw [late] at may; exact absurd may (by decide)
  · rw [fault] at may; exact absurd may (by decide)

/-! ### Lull (R196) -/

/-- The window of LULL_TIME in force, newest cell first. -/
def lullWindow (s : State) (q : Nat) : List LullCell :=
  (s.encPort q).hist.takeWhile (fun c => decide (s.cycle ≤ c.cycle + s.get F.DENC_PORTn_LULL_LULL_TIME q))

/-- A cell that stays within a band of a position. -/
def LullCell.within (c : LullCell) (x band : Int) : Bool := decide (x - band ≤ c.lo) && decide (c.hi ≤ x + band)

theorem LullCell.within_iff {c : LullCell} {x band : Int} : c.within x band = true ↔ x - band ≤ c.lo ∧ c.hi ≤ x + band := by
  rw [LullCell.within, Bool.and_eq_true, decide_eq_true_iff, decide_eq_true_iff]

/-- A port in Lull, its Lull position that of now (R196). -/
def portLulled (s : State) (q : Nat) : State :=
  let t := (s.raise F.DENC_PORTn_STAT_LULL q).lower F.DENC_PORTn_STAT_DIR_VALID q
  denc1 (t.updEnc q (fun e => { e with lullPos := t.getS40 F.DENC_PORTn_POS_L_POS q })) F.DENC_STATUS_LULL_CHG q

theorem portEnterLull_eq {s : State} {q : Nat} {rest : List LullCell} {f0 : LullCell} (win : lullWindow s q = rest ++ [f0]) :
    portEnterLull s q =
      if encState s q = encValid ∧ !s.flag F.DENC_PORTn_STAT_LULL q
          ∧ (s.encPort q).validSince + s.get F.DENC_PORTn_LULL_LULL_TIME q * cycleTicks ≤ s.now
          ∧ (s.encPort q).winFrom + s.get F.DENC_PORTn_LULL_LULL_TIME q * cycleTicks ≤ s.now
          ∧ (rest ++ [f0]).all (fun c => c.within f0.first (s.get F.DENC_PORTn_LULL_LULL_BAND q)) then spdPort (portLulled s q) q
      else s := by
  have last : (lullWindow s q).getLast? = some f0 := by rw [win, List.getLast?_concat]
  unfold lullWindow at win last
  unfold portEnterLull
  dsimp only
  rw [last, win]
  rfl

/-- The bit addresses of LULL and DIR_VALID of a port and of the ports' LULL_CHG: what its entry to Lull writes before the speeds follow. -/
def portLullKey (q k : Nat) : Bool :=
  k == F.DENC_PORTn_STAT_LULL.key q || k == F.DENC_PORTn_STAT_DIR_VALID.key q || k == F.DENC_STATUS_LULL_CHG.key 0

theorem portLulled_writes (s : State) (q : Nat) :
    ∃ x, WritesOnly (portLullKey q) (s.updEnc q (fun e => { e with lullPos := x })) (portLulled s q) :=
  ⟨_, (((WritesOnly.refl _ _).set (by simp [portLullKey]) 1).set (by simp [portLullKey]) 0).set (by simp [portLullKey]) _⟩

theorem key_portLull_apart : ∀ q < 4, F.DENC_PORTn_STAT_LULL.key q ≠ F.DENC_PORTn_STAT_DIR_VALID.key q
    ∧ F.DENC_PORTn_STAT_LULL.key q ≠ F.DENC_STATUS_LULL_CHG.key 0 ∧ F.DENC_PORTn_STAT_DIR_VALID.key q ≠ F.DENC_STATUS_LULL_CHG.key 0
    ∧ spdBlock (F.DENC_PORTn_STAT_LULL.key q) = false ∧ spdBlock (F.DENC_PORTn_STAT_DIR_VALID.key q) = false
    ∧ ∀ r < 4, r ≠ q → portLullKey q (F.DENC_PORTn_STAT_LULL.key r) = false := by
  decide +kernel

theorem portLulled_shows (s : State) {q : Nat} (lt : q < 4) :
    (portLulled s q).get F.DENC_PORTn_STAT_LULL q = 1 ∧ (portLulled s q).get F.DENC_PORTn_STAT_DIR_VALID q = 0 := by
  obtain ⟨apart, lullChg, validChg, -⟩ := key_portLull_apart q lt
  refine ⟨(State.get_set_ne _ _ lullChg).trans ?_, (State.get_set_ne _ _ validChg).trans ?_⟩
  · exact (State.get_set_ne _ 0 apart).trans (State.get_set_self s F.DENC_PORTn_STAT_LULL q 1)
  · exact State.get_set_self _ F.DENC_PORTn_STAT_DIR_VALID q 0

/-- What a port's entry to Lull leaves once settled. -/
theorem portLulled_settled {s : State} (lines : LinesFollow s) {q : Nat} (lt : q < 4) :
    let t := settled s (spdPort (portLulled s q) q)
    t.get F.DENC_PORTn_STAT_LULL q = 1 ∧ t.get F.DENC_PORTn_STAT_DIR_VALID q = 0
    ∧ ∀ r, r < 4 → r ≠ q → t.get F.DENC_PORTn_STAT_LULL r = s.get F.DENC_PORTn_STAT_LULL r ∧ t.encPort r = s.encPort r := by
  obtain ⟨x, writes⟩ := portLulled_writes s q
  have speeds := spdPort_writes (portLulled s q) q
  obtain ⟨lull, valid⟩ := portLulled_shows s lt
  obtain ⟨-, -, -, lullOut, validOut, others⟩ := key_portLull_apart q lt
  have within := (by decide +kernel : ∀ q < 4, ∀ k ∈ [F.DENC_PORTn_STAT_LULL.key q, F.DENC_PORTn_STAT_DIR_VALID.key q,
    F.DENC_STATUS_LULL_CHG.key 0], posBlock k = true) q lt
  have all : WritesOnly posBlock (s.updEnc q (fun e => { e with lullPos := x })) (spdPort (portLulled s q) q) := by
    refine (writes.mono fun k out => ?_).trans (speeds.mono fun k => spdBlock_out)
    rw [Bool.eq_false_iff]
    intro own
    simp only [portLullKey, Bool.or_eq_true, beq_iff_eq] at own
    exact absurd (within k (by simpa [or_assoc] using own)) (by simp [out])
  have steady : DriveSteady (spdPort (portLulled s q) q) := all.steady_posBlock lines fun _ h => h
  have shown {f : Fld} {r : Nat} (at_ : posBlock (f.key r) = true) (out : spdBlock (f.key r) = false) :
      (settled s (spdPort (portLulled s q) q)).get f r = (portLulled s q).get f r :=
    (settled_get_posBlock s steady at_).trans (speeds.get out)
  refine ⟨(shown (within _ (by simp)) lullOut).trans lull, (shown (within _ (by simp)) validOut).trans valid, fun r ltr ne => ⟨?_, ?_⟩⟩
  · exact (shown (key_portStat r ltr).1 (key_portLull_apart r ltr).2.2.2.1).trans (writes.get (others r ltr ne))
  · refine ((settled_result steady).encPort r).trans ((all.reads (fun u => u.encPort r) fun _ _ => rfl).trans ?_)
    exact encPort_updEnc_ne s ne _

/-! ### FAULT left (R197) -/

theorem portFaultBoundary_unarmed {s : State} {q : Nat} (unarmed : s.flag F.DENC_PORTn_STAT_CLR_ARMED q = false) : portFaultBoundary s q = s := by
  refine if_neg fun ⟨_, armed, _⟩ => ?_
  rw [unarmed] at armed
  exact Bool.noConfusion armed

/-- An armed port without a mark, with 256 faultless polls and in time, is released with its last decoded frame. -/
theorem portFaultBoundary_releases {s : State} {q : Nat} (lt : q < 4) (fault : encState s q = encFault)
    (armed : s.flag F.DENC_PORTn_STAT_CLR_ARMED q = true) (unmarked : portMarked s q = false)
    (clean : ∀ x, x ∈ pollsBy s q s.now → x = false) (early : (s.encPort q).missed < s.get F.DENC_PORTn_LIM_LATE_LIM q) :
    portFaultBoundary s q = spdPort (vcpEvalPort (portPublish (portValid
      ((s.set F.DENC_PORTn_STAT_CLR_ARMED q 0).set F.DENC_PORTn_STAT_DRIFT_FAIL q 0) q) q) q) q := by
  have faultless : (pollsBy s q s.now).any id = false := by
    rw [List.any_eq_false]
    intro x hx
    rw [clean x hx]
    exact Bool.noConfusion
  have apart := (by decide +kernel : ∀ q < 4, F.DENC_PORTn_LIM_LATE_LIM.key q ≠ F.DENC_PORTn_STAT_CLR_ARMED.key q
    ∧ F.DENC_PORTn_LIM_LATE_LIM.key q ≠ F.DENC_PORTn_STAT_DRIFT_FAIL.key q) q lt
  have limit : ((s.set F.DENC_PORTn_STAT_CLR_ARMED q 0).set F.DENC_PORTn_STAT_DRIFT_FAIL q 0).get F.DENC_PORTn_LIM_LATE_LIM q
      = s.get F.DENC_PORTn_LIM_LATE_LIM q := (State.get_set_ne _ 0 apart.2).trans (State.get_set_ne s 0 apart.1)
  have released : portFaultBoundary s q = portRelease s q := if_pos ⟨fault, armed, by simp [unmarked], by simp only [faultless]; rfl⟩
  rw [released]
  exact if_neg (by rw [State.lower, State.lower, limit]; exact Nat.not_le.mpr early)

theorem drive_portArm (s : State) (ports : Nat) : (portArm s ports).drive = s.drive :=
  forEach_keeps State.drive (f := fun t q => if encState t q = encFault then t.raise F.DENC_PORTn_STAT_CLR_ARMED q else t) (fun t q hq => by
    obtain ⟨-, -, armed, -⟩ := key_portStat q (mem_bitsSet_lt hq)
    rw [drive_if, drive_write.2.1 t _ q (driveKey_of_posBlock armed), ite_self]) s

/-! ### The statement -/

/-- Settles O39: the port is LATE, in Lull or released on exactly the conditions that the statement names, and stays on the others. -/
theorem encoderPortStates : Obligations.EncoderPortStates := by
  intro s lines
  refine ⟨fun port counting on may => ?_, fun port stays => ?_, fun port f0 rest counting run boundary => ?_,
    fun port counting boundary fault armed unmarked clean early => ?_, fun port unarmed => ?_, fun p ports up => ?_⟩
  · exact congrArg (answer s) (encLateNow_late counting on may)
  · exact answers_of (congrArg (answer s) (encLateNow_stays stays)) lines.steady
  · intro time band win
    have works : (if (atBoundary s && s.counting && coresRun s) = true then portEnterLull s port.val else s) = portEnterLull s port.val :=
      if_pos (by simp [counting, run, boundary])
    have judged := works.trans (portEnterLull_eq win)
    refine ⟨fun ⟨f, hf, beyond⟩ => ?_, fun within valid out since whole => ?_⟩
    · have strays : ¬(rest ++ [f0]).all (fun c => c.within f0.first band) = true := fun all => by
        have inside := LullCell.within_iff.mp (List.all_eq_true.mp all f hf)
        omega
      exact answers_of (congrArg (answer s) (judged.trans (if_neg fun ⟨_, _, _, _, all⟩ => strays all))) lines.steady
    · have all : (rest ++ [f0]).all (fun c => c.within f0.first band) = true :=
        List.all_eq_true.mpr fun f hf => LullCell.within_iff.mpr (within f hf)
      have enters := judged.trans (if_pos ⟨valid, by rw [out]; rfl, since, whole, all⟩)
      exact ⟨_, congrArg (answer s) enters, portLulled_settled lines port.isLt⟩
  · exact congrArg (answer s) ((if_pos (by simp [counting, boundary])).trans
      (portFaultBoundary_releases port.isLt fault armed unmarked clean early))
  · have stays : (if (atBoundary s && s.counting) = true then portFaultBoundary s port.val else s) = s := by
      rw [portFaultBoundary_unarmed unarmed, ite_self]
    exact answers_of (congrArg (answer s) stays) lines.steady
  · exact answers_of (congrArg (answer s) (gate_up up _)) (steady_of_drive lines (drive_portArm s _))

end Sys2Proof.Machine
end

section
/-!
PROOFS. A word written to the configuration memory while the log of the running fabric clock holds more than a journal slot (R211, R227). Refutes O58.
-/

namespace Sys2Proof.Machine

/-- A unit in COMMISSIONING whose section 5 is bounded by the virtual counting point 24 alone. The point is in use on a port that is DETACHED,
and its state has not been judged since; a passage port carries it. Every other register is 0. -/
def unjudgedPoint : State :=
  let s := { State.reset with regs := [], boot := { State.reset.boot with stage := 5 } }
  let s := (s.set F.DEV_STATE_STATE 0 2).set F.CRU_CLK_PLL_LOCK 0 1
  let s := ((s.set F.SECT_n_CFG_NBND 5 1).set F.SECT_n_BND_VALID 5 1).set F.SECT_n_BND_CP 5 24
  let s := (s.set F.FAB_PPq_k_VALID 0 1).set F.FAB_PPq_k_CP 0 24
  s.set F.SECT_VCPk_CFG_VALID 0 1

/-- An entry of a count tile logged with 33 bytes for its slot of 32, the last of them not 0. -/
def overlongEntry : ClockEntry := ⟨true, default, List.replicate 32 0 ++ [1]⟩

/-- The same unit while a fabric clock runs that has reached section 5, with that entry in the clock's log. -/
def overlongLog : State :=
  let s := unjudgedPoint
  let s := s.putFab { s.fab with clockAt := clockOf s.now, clock := [⟨5, [], [], [], none, false⟩], clockLog := [overlongEntry] }
  s.putLines (computeLines s)

/-- A write of word 1 of tile 0, which no view of a section holds. -/
def overlongWritten : State := hostWrite overlongLog .a 0x200008 0

theorem overlongLog_meets : LinesFollow overlongLog ∧ overlongLog.portsUp = true ∧ overlongLog.dev = .comm := by
  unfold LinesFollow
  decide +kernel

/-- The byte after the journal ring is no byte of the ring. -/
theorem ringEnd_outside : inJournal 0x6C0000 = false := by
  decide

/-- What follows the write judges the point, which becomes BLIND and disturbs its section within the running clock: the clock is taken
back and run again, and the entry's 33 bytes, put back at the ring's last slot, end one byte after the ring. -/
theorem overlongWritten_spills : overlongLog.byte 0x6C0000 = 0 ∧ overlongWritten.byte 0x6C0000 = 1
    ∧ srcMay overlongWritten = overlongWritten.lines.src := by
  decide +kernel

/-- Settling writes no byte outside the ring. -/
theorem settled_byte (s : State) {u : State} (steady : DriveSteady u) {a : Nat} (out : inJournal a = false) :
    (settled s u).byte a = u.byte a := by
  have kept := (settled_result (s := s) steady).keeps.byte a out
  rwa [State.byte_putPending, State.byte_putLink, State.byte_putLines] at kept

/-- Refutes O58: a write to the configuration memory has the virtual points judged again, and the disturbance of one takes back the
journal entries of the running fabric clock (R211), each by as many bytes as its log entry holds. `clockKeep` logs the 32 bytes of a slot,
but the statement has no premise that the log is of that form, and its frame then fails: a longer entry in the ring's last slot writes
over the byte after the ring. -/
theorem not_fabricAndConfiguration : ¬Obligations.FabricAndConfiguration := by
  intro all
  obtain ⟨lines, up, comm⟩ := overlongLog_meets
  obtain ⟨before, spilt, drive⟩ := overlongWritten_spills
  obtain ⟨-, -, -, -, -, window, -⟩ := all overlongLog lines
  obtain ⟨-, -, written⟩ := window .a 0x200008 0 up (by decide) (by decide)
  obtain ⟨t, run, -, -, frame⟩ := written (by decide) comm
  have model : exec (.cfgMemWrite .a 0x200008 0) overlongLog = .next (settled overlongLog overlongWritten) := rfl
  have same : t = settled overlongLog overlongWritten := Host.Outcome.next.inj (run.symm.trans model)
  have kept : t.byte 0x6C0000 = overlongLog.byte 0x6C0000 := frame 0x6C0000 ringEnd_outside (Or.inr (by decide))
  rw [same, settled_byte _ (Or.inr drive) ringEnd_outside, spilt, before] at kept
  exact absurd kept (by decide)

end Sys2Proof.Machine
end

section
/-!
PROOFS. Writes of registers of one field (R12, R16): O10.
-/

namespace Sys2Proof.Machine

/-- Outside COMMISSIONING a word that changes no field of a register of STATIC fields does nothing. -/
theorem writeFields_unchanged {s : State} {p : HPort} {a v : Nat} {d : RegDesc} (same : staticChanges s p a d v = false)
    (dev : s.dev ≠ .comm) (shadow : hasCls d .shadow = false) (live : hasCls d .live = false) (w1c : hasCls d .w1c = false) :
    writeFields s p a d v = s := by
  simp [writeFields, same, dev, shadow, putFields_of_not_hasCls live, w1cFields, w1c]

/-- TLNK_CONN_ID, whose one field is STATIC. -/
def connIdReg : RegDesc := ⟨0xB000C, [], false, [(F.TLNK_CONN_ID_CONN_ID, .static)]⟩

theorem connIdReg_meets : regAt 0xB000C = some connIdReg ∧ (∀ s, commandWrite s .a 0xB000C connIdReg 0 = none)
    ∧ pairLow 0xB000C = false ∧ pairHigh 0xB000C = false :=
  ⟨rfl, fun _ => rfl, by decide, by decide⟩

/-- An OPERATIONAL unit whose cell of CONN_ID holds 2^32, one above what its 32 bits hold, so that the register reads 0. -/
def connIdWide : State :=
  let s := { State.reset with regs := [(F.TLNK_CONN_ID_CONN_ID.key 0, 2 ^ 32)], boot := { State.reset.boot with stage := 5 } }
  let s := ((s.set F.DEV_STATE_STATE 0 4).set F.DEV_STATE_ROLE 0 1).set F.CRU_CLK_PLL_LOCK 0 1
  s.putLines (computeLines s)

theorem connIdWide_meets : LinesFollow connIdWide ∧ connIdWide.portsUp = true ∧ connIdWide.dev ≠ .comm
    ∧ connIdWide.get F.TLNK_CONN_ID_CONN_ID ≠ fldOf connIdReg F.TLNK_CONN_ID_CONN_ID 0 :=
  ⟨rfl, rfl, by decide, by decide⟩

/-- The word 0 is the one that the register reads as, and so no change. -/
theorem connIdWide_reads_zero : staticChanges connIdWide .a 0xB000C connIdReg 0 = false :=
  rfl

/-- ACC_ERR of port A is clear in the unit, and an access error sets it. -/
theorem connIdWide_accErr : connIdWide.get (F.HPS_STATUS_ACC_ERR.port 0) = 0
    ∧ (connIdWide.accErr .a 0xB000C true .static_).get (F.HPS_STATUS_ACC_ERR.port 0) = 1 :=
  ⟨rfl, rfl⟩

/-- Refutes O10: a write of the word that a STATIC register reads as changes nothing and is no access error (R16), and where the cell of
the field holds more than its width the word read differs from the cell, which alone the statement compares. `State.set` leaves no
cell above its field's width, but the statement has no premise that the register store is of that form. -/
theorem not_registerWriteByClass : ¬Obligations.RegisterWriteByClass := by
  intro all
  obtain ⟨reg, cmd, low, high⟩ := connIdReg_meets
  obtain ⟨lines, up, dev, differs⟩ := connIdWide_meets
  obtain ⟨clear, set⟩ := connIdWide_accErr
  obtain ⟨fields, -⟩ := all connIdWide .a 0xB000C 0 lines up
  obtain ⟨-, -, -, -, refused⟩ := fields connIdReg _ .static (by decide) (by decide) reg rfl (cmd _) low high (by decide)
  obtain ⟨t, run, claimed⟩ := refused rfl dev differs
  have ignored : writeRegAt connIdWide .a 0xB000C connIdReg 0 = connIdWide := by
    simpa [writeRegAt, cmd, low, high] using writeFields_unchanged connIdWide_reads_zero dev rfl rfl rfl
  have model : exec (.registerWrite .a 0xB000C 0) connIdWide = .next (settled connIdWide connIdWide) :=
    congrArg (answer connIdWide) ((hostWrite_register up (by decide) (by decide) reg).trans ignored)
  have same : t = settled connIdWide connIdWide := Host.Outcome.next.inj (run.symm.trans model)
  have flag : t.get (F.HPS_STATUS_ACC_ERR.port 0) = 1 := (claimed.get _ 0 (by decide)).trans set
  rw [same, settled_get_quiet lines.steady _ 0 (by decide), clear] at flag
  exact absurd flag (by decide)

end Sys2Proof.Machine
end

section
/-!
PROOFS. The entry to OPERATIONAL (R269, R414): O54.
-/

namespace Sys2Proof.Machine

/-! ### Settling leaves the safety processor -/

theorem spu_aloof : Aloof State.spu where
  set _ _ _ _ _ := rfl
  mem _ _ := rfl
  secs _ _ := rfl
  encs _ _ := rfl
  units _ _ := rfl
  cmps _ _ := rfl
  ests _ _ := rfl
  fab _ _ := rfl
  ledger _ _ := rfl
  bcw _ _ := rfl
  bound _ _ _ _ _ _ := rfl
  points _ _ := rfl
  chans _ _ := rfl

/-- Whether or not the drive of the sources begins or ends. -/
theorem spu_settled (s u : State) : (settled s u).spu = u.spu := by
  have lines : (settled s u).spu = (settle u).spu := by
    rw [settled_eq]
    generalize settle u = w
    obtain ⟨l, eq, -⟩ := putLines_eq w
    rw [eq]
    rfl
  have rest : Keeps (syncDrive (sampleInputs u)) (settle u) := ((keeps_canSync _).trans (keeps_fabSettle _)).trans (keeps_outStep _)
  calc (settled s u).spu = (settle u).spu := lines
    _ = (syncDrive (sampleInputs u)).spu := rest.spu
    _ = (sampleInputs u).spu := spu_aloof.over_syncDrive _
    _ = u.spu := (keeps_sampleInputs u).spu

/-! ### The sweep's end under a Squall cause -/

/-- While a Squall cause raised in STARTUP waits to be judged, the sweep's boundary enters nothing (R269). -/
theorem sweepBoundary_raised {s : State} (raised : s.spu.raised.isEmpty = false) : sweepBoundary s = s :=
  if_pos (Or.inr (Or.inl (by simp [raised])))

theorem operationalEntry_raised {s : State} (raised : s.spu.raised.isEmpty = false) : operationalEntry s = s := by
  unfold operationalEntry
  rw [sweepBoundary_raised raised, ite_self]

/-- A unit in STARTUP at the boundary that ends the first rotation of its sweep, which has measured every channel and the tone path; the
Squall cause of a fenced core has been raised and waits to be judged. Every register that is not written here is 0. -/
def sweptRaised : State :=
  let boot := { State.reset.boot with stage := 5, ks := 100, swept := List.range 48, sweepOk48 := true, sweepOk49 := true }
  let s := { State.reset with regs := [], boot := boot, cycle := 150, now := 9000000, sio := { State.reset.sio with nextSample := 1501 } }
  let s := raiseSquall (((s.set F.DEV_STATE_STATE 0 3).set F.DEV_STATE_ROLE 0 1).set F.CRU_CLK_PLL_LOCK 0 1) 1
  s.putLines (computeLines s)

theorem sweptRaised_meets : LinesFollow sweptRaised ∧ sweptRaised.dev = .startup ∧ atBoundary sweptRaised = true
    ∧ sweptRaised.boot.ks < sweptRaised.cycle ∧ (sweptRaised.cycle - sweptRaised.boot.ks) % 50 = 0
    ∧ sweptRaised.get F.CRU_START_ROTATIONS ≠ (sweptRaised.cycle - sweptRaised.boot.ks) / 50 ∧ sweepWhole sweptRaised = true :=
  ⟨rfl, rfl, rfl, by decide, rfl, by decide, rfl⟩

theorem sweptRaised_spu : sweptRaised.spu.raised.isEmpty = false ∧ sweptRaised.spu.ptDue = none :=
  ⟨rfl, rfl⟩

/-- Refutes O54: a Squall cause raised in STARTUP takes the device to SAFE in place of OPERATIONAL (R269), so that a complete sweep enters
nothing while one waits to be judged; the statement has no premise that none does. -/
theorem not_loadAndStartUp : ¬Obligations.LoadAndStartUp := by
  intro all
  obtain ⟨lines, dev, boundary, later, rotation, fresh, swept⟩ := sweptRaised_meets
  obtain ⟨raised, undue⟩ := sweptRaised_spu
  obtain ⟨-, -, -, -, -, -, -, sweep, -, -⟩ := all sweptRaised lines
  obtain ⟨enters, -, -⟩ := sweep dev boundary later rotation fresh
  obtain ⟨u, run, -, -, due, -⟩ := enters swept
  have model : exec .operationalEntry sweptRaised = .next (settled sweptRaised sweptRaised) :=
    congrArg (answer sweptRaised) (operationalEntry_raised raised)
  have same : u.spu = sweptRaised.spu := by
    rw [← spu_settled sweptRaised u, Host.Outcome.next.inj (run.symm.trans model), spu_settled]
  rw [same, undue] at due
  exact Option.some_ne_none _ due.symm

end Sys2Proof.Machine
end

section
/-!
PROOFS. Every command answers a next state whose lines follow it (O2), and the state after reset (O60).
-/

namespace Sys2Proof.Machine

set_option Elab.async false

/-- Settles O2: every command settles its own effect, and settling keeps the queue and computes the lines last. -/
theorem everyCommandAnswers : Obligations.EveryCommandAnswers := by
  intro c s
  obtain ⟨u, run⟩ := exec_answers c s
  exact ⟨settled s u, run, settled_pending s u, settled_lines s u⟩

/-! ### The state after reset -/

theorem reset_lines : LinesFollow State.reset := by
  unfold LinesFollow
  decide +kernel

theorem reset_faultless : ∀ k < 12, State.reset.get F.SIO_OUTk_STAT_FAULT_KIND k = 0 := by decide +kernel

theorem resetRegs_wf : Registers.wf State.reset.regs = true := by decide +kernel

/-- Settles O60: the reset registers are one closed store, of which each claim is read off. -/
theorem resetIsRestrictive : Obligations.ResetIsRestrictive := by
  refine ⟨reset_lines, ⟨fun k _ => ?_, rfl, rfl, rfl⟩, rfl, rfl, ?_, ?_, rfl, ?_, reset_faultless, rfl, rfl, resetRegs_wf⟩
  · exact Nat.zero_testBit k
  all_goals decide +kernel

end Sys2Proof.Machine
end

section
/-!
PROOFS. Semaphores (R378, R379), device commands (R380 to R382) and frees of the Gust queue (R383, R384). Settles O6, O7, O8 and O9.
-/

namespace Sys2Proof.Machine

set_option Elab.async false

/-- A command that a port writes, while the ports answer, has the effect of what is written. -/
theorem answers_gated {c : Instr} {s u : State} (up : s.portsUp = true) (run : exec c s = answer s (gate s u)) (d : DriveSteady u) :
    Answers c s u := answers_of (run.trans (congrArg (answer s) (gate_up up u))) d

/-! ### Semaphores (R378) -/

theorem portId_cases (p : HPort) : portId p ≠ 0 ∧ portId p < 4 ∧ portId p.other ≠ portId p ∧ portId p.other ≠ 0 := by
  cases p <;> decide

section
variable (s : State) (p : HPort) (k : Nat)

theorem semWrite_other : semWrite s p k (portId p.other) = s.accErr p (0x110100 + 4 * k) true .owner := by
  have h : portId p.other % 4 = portId p.other := by cases p <;> rfl
  simp [semWrite, h]

theorem semWrite_own : semWrite s p k (portId p) = if s.get F.HPS_SEMk_OWNER k = 0 then s.set F.HPS_SEMk_OWNER k (portId p) else s := by
  have h : portId p % 4 = portId p := by cases p <;> rfl
  obtain ⟨-, -, ne, -⟩ := portId_cases p
  simp [semWrite, h, ne.symm]

theorem semWrite_zero : semWrite s p k 0 = if s.get F.HPS_SEMk_OWNER k = portId p then s.set F.HPS_SEMk_OWNER k 0 else s := by
  obtain ⟨own, -, -, other⟩ := portId_cases p
  simp [semWrite, own.symm, other.symm]

end

theorem key_semaphore : ∀ k < 32, drivesSource (F.HPS_SEMk_OWNER.key k) = false ∧ quietKey (F.HPS_SEMk_OWNER.key k) = true := by decide +kernel

/-- Settles O6: `semWrite` by the identity written. -/
theorem semaphores : Obligations.Semaphores := by
  intro s p k lines up
  have steady := lines.steady
  obtain ⟨drive, -⟩ := key_semaphore k k.isLt
  have taken {c : Instr} {v : Nat} {u : State} (run : exec c s = answer s (gate s (semWrite s p k v))) (eq : semWrite s p k v = u)
      (d : DriveSteady u) : Answers c s u := answers_gated up (eq ▸ run) d
  refine ⟨fun id own free => ?_, fun id own held => ?_, fun id other => ?_, fun own => ?_, fun other => ?_⟩
  · exact taken rfl (by rw [own, semWrite_own, if_pos free]) (steady.set drive)
  · exact taken rfl (by rw [own, semWrite_own, if_neg held]) steady
  · exact taken rfl (by rw [other, semWrite_other]) (steady.accErr _ _ _ _)
  · exact taken rfl (by rw [semWrite_zero, if_pos own]) (steady.set drive)
  · exact taken rfl (by rw [semWrite_zero, if_neg other]) steady

/-! ### FREE_OWN (R379) -/

/-- What index `k` alone changes reads as `k` changes it. -/
theorem forN_maps {β : Type} (g : State → β) {n k : Nat} {f : State → Nat → State} {φ : β → β} (lt : k < n)
    (own : ∀ s, g (f s k) = φ (g s)) (other : ∀ s i, i < n → i ≠ k → g (f s i) = g s) (s : State) :
    g (forN n s f) = φ (g s) := by
  induction n with
  | zero => omega
  | succ n ih =>
    have last : forN (n + 1) s f = f (forN n s f) n := by simp [forN, List.range_succ]
    rw [last]
    by_cases e : n = k
    · rw [e, own, forN_keeps g (fun t i hi => other t i (by omega) (by omega)) s]
    · rw [other _ n (by omega) e]
      exact ih (by omega) fun s i hi => other s i (by omega)

/-- The semaphores of a port freed, without the journal entry. -/
def semsFreed (s : State) (p : HPort) : State :=
  forN 32 s (fun s k => if s.get F.HPS_SEMk_OWNER k = portId p then s.set F.HPS_SEMk_OWNER k 0 else s)

theorem semKey_ne {i k : Nat} (ne : i ≠ k) : F.HPS_SEMk_OWNER.key k ≠ F.HPS_SEMk_OWNER.key i := by
  simp only [Fld.key, F.HPS_SEMk_OWNER]
  omega

theorem semsFreed_owner (s : State) (p : HPort) {k : Nat} (lt : k < 32) :
    (semsFreed s p).get F.HPS_SEMk_OWNER k = if s.get F.HPS_SEMk_OWNER k = portId p then 0 else s.get F.HPS_SEMk_OWNER k :=
  forN_maps (fun s => s.get F.HPS_SEMk_OWNER k) (φ := fun v => if v = portId p then 0 else v) lt
    (fun t => by
      split
      · exact State.get_set_self _ _ _ _
      · rfl)
    (fun t i _ ne => by
      split
      · exact State.get_set_ne _ _ (semKey_ne ne)
      · rfl) s

/-- The bit addresses of the semaphores. -/
def semKey (k : Nat) : Bool := (List.range 32).any (fun j => k == F.HPS_SEMk_OWNER.key j)

theorem semKey_iff {k : Nat} : semKey k = true ↔ ∃ j, j < 32 ∧ k = F.HPS_SEMk_OWNER.key j := by
  simp [semKey]

theorem semsFreed_writes (s : State) (p : HPort) : WritesOnly semKey s (semsFreed s p) := by
  unfold semsFreed forN
  exact WritesOnly.foldl _ _ (fun t j mem =>
    ((WritesOnly.refl _ t).set (semKey_iff.mpr ⟨j, List.mem_range.mp mem, rfl⟩) 0).ite (WritesOnly.refl _ t)) s

/-- Settles O7: the loop over the semaphores, of which each index writes its own; the journal entry and settling keep them. -/
theorem freeOwnReleasesOwn : Obligations.FreeOwnReleasesOwn := by
  refine ⟨fun s p lines up => ?_, by decide +kernel⟩
  have writes := semsFreed_writes s p
  have noted : Keeps (semsFreed s p) (freeOwn s p) := keeps_note _ _ _ _ _ _
  have steady : DriveSteady (freeOwn s p) := DriveSteady.keeps
    (writes.steady lines fun k drive => Bool.eq_false_iff.mpr fun sem => by
      obtain ⟨j, lt, rfl⟩ := semKey_iff.mp sem
      exact Bool.false_ne_true ((key_semaphore j lt).1.symm.trans drive))
    noted
  have keeps : Keeps (semsFreed s p) (settle (freeOwn s p)) := noted.trans (settle_keeps _ steady)
  refine ⟨settled s (freeOwn s p), congrArg (answer s) (gate_up up _), fun k lt => ?_, fun k quiet other => ?_, fun a out => ?_⟩
  · rw [settled_get, keeps.get _ _ (key_semaphore k lt).2, semsFreed_owner s p lt]
  · rw [settled_regs, keeps.regs k quiet]
    refine writes.regs k (Bool.eq_false_iff.mpr fun sem => ?_)
    obtain ⟨j, lt, eq⟩ := semKey_iff.mp sem
    exact other j lt eq
  · have mem : (semsFreed s p).mem = s.mem := writes.reads State.mem fun _ _ => rfl
    rw [settled_byte s steady out, noted.byte a out, State.byte, mem, State.byte]

/-! ### DEV_CMD (R380 to R382) -/

theorem keyed_right (s : State) (p : HPort) (t : State) : keyed s p (0xA55A : BitVec 16).toNat t = t := if_pos rfl

theorem keyed_wrong (s : State) (p : HPort) {key : BitVec 16} (ne : key ≠ 0xA55A) (t : State) :
    keyed s p key.toNat t = s.accErr p 0xC true .protected_ :=
  if_neg fun eq => ne (BitVec.eq_of_toNat_eq eq)

/-- Settles O8: each command of DEV_CMD behind its key. -/
theorem deviceCommands : Obligations.DeviceCommands := by
  intro s p lines up
  have steady := lines.steady
  have right {c : Instr} {u v : State} (run : exec c s = answer s (gate s (keyed s p (0xA55A : BitVec 16).toNat v))) (eq : v = u)
      (d : DriveSteady u) : Answers c s u := answers_gated up (run.trans (by rw [keyed_right, eq])) d
  have wrong {c : Instr} {key : BitVec 16} {v : State} (ne : key ≠ 0xA55A) (run : exec c s = answer s (gate s (keyed s p key.toNat v))) :
      Answers c s (s.accErr p 0xC true .protected_) := answers_gated up (run.trans (by rw [keyed_wrong s p ne])) (steady.accErr _ _ _ _)
  refine ⟨fun boot => ?_, fun later => ?_, ?_, fun may => ?_, fun not => ?_, ?_, fun key ne => ⟨?_, ?_, ?_, ?_⟩⟩
  · exact right rfl (if_pos boot) (steady.set (by cases p <;> decide))
  · exact right rfl (if_neg later) (steady.set (by decide))
  · exact right rfl rfl ((steady.updHost _ _).set (by cases p <;> decide))
  · exact right rfl (if_pos may) steady
  · exact right rfl (if_neg (by rw [not]; exact Bool.false_ne_true)) steady
  · exact right rfl rfl (((steady.set (by cases p <;> decide)).set (by cases p <;> decide)).updHost _ _)
  all_goals exact wrong ne rfl

/-! ### Frees of the Gust queue (R383, R384) -/

theorem gustLevel_writes (s : State) :
    WritesOnly [F.JRN_GQ_LEVEL_COUNT.key 0, F.JRN_STATUS_GQ_LEVEL.key 0].contains s s.gustLevel := by
  unfold State.gustLevel
  have count := fun v => (WritesOnly.refl [F.JRN_GQ_LEVEL_COUNT.key 0, F.JRN_STATUS_GQ_LEVEL.key 0].contains s).set
    (f := F.JRN_GQ_LEVEL_COUNT) (i := 0) (by decide) v
  exact ((count _).set (f := F.JRN_STATUS_GQ_LEVEL) (i := 0) (by decide) 1).ite (count _)

/-- What a free of `k` entries writes before the level follows it. -/
def gustFreed (s : State) (k : Nat) (kept : Bool) : State :=
  let t := (s.set F.JRN_GQ_STAT_RD 0 ((s.get F.JRN_GQ_STAT_RD + k) % 4096)).set F.JRN_GQ_STAT_GAP_OPEN 0 0
  if kept then t.set F.JRN_STATUS_GAP_KEPT 0 1 else t

theorem gqFree_owner {s : State} {p : HPort} (own : s.get F.JRN_CFG_GQ_OWNER = p.toNat) {n : Nat} (some : n ≠ 0) (held : n ≤ s.gustCount) :
    gqFree s p n = (if s.flag F.JRN_GQ_STAT_GAP_OPEN && n == s.gustCount then gustFreed s (n - 1) true else gustFreed s n false).gustLevel := by
  unfold gqFree gustFreed
  rw [if_neg (not_not.mpr own), if_neg (by omega)]
  cases s.flag F.JRN_GQ_STAT_GAP_OPEN && n == s.gustCount <;> rfl

theorem gustFreed_steady {s : State} (h : DriveSteady s) (k : Nat) (kept : Bool) : DriveSteady (gustFreed s k kept).gustLevel := by
  have freed : DriveSteady (gustFreed s k kept) :=
    (((h.set (by decide)).set (by decide)).set (by decide)).ite ((h.set (by decide)).set (by decide))
  unfold State.gustLevel
  exact ((freed.set (by decide)).set (by decide)).ite (freed.set (by decide))

/-- A field of the journal's block, that is none of the level's, after a free and settling. -/
theorem settled_gustFreed {s : State} (lines : LinesFollow s) (k : Nat) (kept : Bool) (f : Fld) (quiet : quietKey (f.key 0) = true)
    (apart : [F.JRN_GQ_LEVEL_COUNT.key 0, F.JRN_STATUS_GQ_LEVEL.key 0].contains (f.key 0) = false) :
    (settled s (gustFreed s k kept).gustLevel).get f = (gustFreed s k kept).get f := by
  rw [settled_get_quiet (gustFreed_steady lines.steady k kept) f 0 quiet, (gustLevel_writes _).get apart]

theorem gustFreed_fields (s : State) (k : Nat) (kept : Bool) :
    (gustFreed s k kept).get F.JRN_GQ_STAT_RD = (s.get F.JRN_GQ_STAT_RD + k) % 4096 ∧ (gustFreed s k kept).get F.JRN_GQ_STAT_GAP_OPEN = 0
    ∧ (gustFreed s k kept).get F.JRN_GQ_STAT_WR = s.get F.JRN_GQ_STAT_WR
    ∧ (gustFreed s k kept).get F.JRN_STATUS_GAP_KEPT = if kept then 1 else s.get F.JRN_STATUS_GAP_KEPT := by
  have fits : (s.get F.JRN_GQ_STAT_RD + k) % 4096 % 2 ^ F.JRN_GQ_STAT_RD.width = (s.get F.JRN_GQ_STAT_RD + k) % 4096 := Nat.mod_mod _ 4096
  cases kept <;> refine ⟨?_, ?_, ?_, ?_⟩ <;>
    simp (disch := decide) only [gustFreed, State.get_set_ne, State.get_set_self, fits, if_true, Bool.false_eq_true, if_false] <;> rfl

/-- Settles O9: `gqFree` by its owner and its count, the open GAP entry kept. -/
theorem gustQueueFree : Obligations.GustQueueFree := by
  intro s p n lines up
  have gated : ∀ u, gqFree s p n.toNat = u → exec (.gqFree p n) s = answer s u := fun u eq => congrArg (answer s) ((gate_up up _).trans eq)
  refine ⟨fun own some held => ⟨fun clear => ?_, fun gap whole => ?_⟩, fun other => ?_, fun own bad => ?_⟩
  · have kept : (s.flag F.JRN_GQ_STAT_GAP_OPEN && n.toNat == s.gustCount) = false := by
      rcases clear with h | h
      · rw [h, Bool.false_and]
      · rw [beq_false_of_ne (Nat.ne_of_lt h), Bool.and_false]
    obtain ⟨rd, -, wr, gapKept⟩ := gustFreed_fields s n.toNat false
    refine ⟨_, gated (gustFreed s n.toNat false).gustLevel ?_, ?_, ?_, ?_⟩
    · rw [gqFree_owner own some held, kept]; rfl
    · rw [settled_gustFreed lines _ _ _ (by decide) (by decide), rd]
    · rw [settled_gustFreed lines _ _ _ (by decide) (by decide), wr]
    · rw [settled_gustFreed lines _ _ _ (by decide) (by decide), gapKept]; rfl
  · have kept : (s.flag F.JRN_GQ_STAT_GAP_OPEN && n.toNat == s.gustCount) = true := by rw [gap, whole, beq_self_eq_true]; rfl
    obtain ⟨rd, closed, wr, gapKept⟩ := gustFreed_fields s (n.toNat - 1) true
    refine ⟨_, gated (gustFreed s (n.toNat - 1) true).gustLevel ?_, ?_, ?_, ?_, ?_⟩
    · rw [gqFree_owner own some held, kept]; rfl
    · rw [settled_gustFreed lines _ _ _ (by decide) (by decide), rd, Nat.add_sub_assoc (Nat.pos_of_ne_zero some)]
    · rw [settled_gustFreed lines _ _ _ (by decide) (by decide), closed]
    · rw [settled_gustFreed lines _ _ _ (by decide) (by decide), gapKept]; rfl
    · rw [settled_gustFreed lines _ _ _ (by decide) (by decide), wr]
  · exact answers_of (gated _ (if_pos other)) (lines.steady.accErr _ _ _ _)
  · exact answers_of (gated _ ((if_neg (not_not.mpr own)).trans (if_pos bad))) (lines.steady.accErr _ _ _ _)

end Sys2Proof.Machine
end

section
/-!
PROOFS. The Bamdon window (R391, R394, R395): the freeze, the two-write clear, and what port A reaches of it. Settles O3, O4 and O5.
-/

namespace Sys2Proof.Machine

set_option Elab.async false

/-! ### Reads of the window (R394) -/

/-- A word of the window read by port B. -/
theorem readWord_window (s : State) {i : Nat} (lt : i ≤ 12) : readWord s .b (0x1E0000 + 4 * i) = bcwRead s i := by
  have h1 : ¬(0x1E0000 + 4 * i) % 4 ≠ 0 := by omega
  have h2 : ¬(0x200000 ≤ 0x1E0000 + 4 * i ∧ 0x1E0000 + 4 * i < 0x670000) := by omega
  have h3 : ¬(0x680000 ≤ 0x1E0000 + 4 * i ∧ 0x1E0000 + 4 * i < 0x6C0000) := by omega
  have h4 : ¬(0x670000 ≤ 0x1E0000 + 4 * i ∧ 0x1E0000 + 4 * i < 0xA00000) := by omega
  have h5 : 0x1E0000 ≤ 0x1E0000 + 4 * i ∧ 0x1E0000 + 4 * i < 0x1F0000 := by omega
  have h6 : 0x1E0000 + 4 * i ≤ 0x1E0030 := by omega
  have h7 : (0x1E0000 + 4 * i - 0x1E0000) / 4 = i := by omega
  simp only [readWord, if_neg h1, if_neg h2, if_neg h3, if_neg h4, if_pos h5, if_pos h6, h7]

theorem bcwWords_count (s : State) (frozen : Bool) {i : Nat} (lt : i < 8) : (bcwWords s frozen).getD i 0 = s.get F.BCW_CNTn_COUNT i := by
  simp [bcwWords, List.getD_eq_getElem?_getD, List.getElem?_append, lt]

theorem bcwWords_stat (s : State) (frozen : Bool) : (bcwWords s frozen).getD 10 0 = bcwStat s frozen := rfl

section
variable {s : State}

theorem bcwRead_count_live {i : Nat} (lt : i < 8) (live : s.bcw.image = none) :
    bcwRead s i = (s.putBcw { s.bcw with image := some (bcwWords s true) }, s.get F.BCW_CNTn_COUNT i) := by
  have word := bcwWords_count s true lt
  rw [List.getD_eq_getElem?_getD] at word
  simp [bcwRead, lt, live, bcwFreeze, word, show ¬i = 10 by omega, show ¬i = 12 by omega]

theorem bcwRead_count_frozen {i : Nat} (lt : i < 8) {ws : List Nat} (frozen : s.bcw.image = some ws) : bcwRead s i = (s, ws.getD i 0) := by
  simp [bcwRead, frozen, show ¬i = 10 by omega, show ¬i = 12 by omega]

theorem bcwRead_stat_live (live : s.bcw.image = none) : bcwRead s 10 = (s, bcwStat s false) := by
  have word := bcwWords_stat s false
  simp only [bcwRead, live, Option.isSome_none, Option.getD_none, Bool.false_eq_true, and_false, Nat.reduceLT, false_and, if_false, Nat.reduceEqDiff, word]

/-- The flags that the frozen word shows, cleared. -/
def shownCleared (s : State) (w : Nat) : State :=
  let u := if bitAt w 17 = true then s.set F.BCW_STAT_CLR_DONE 0 0 else s
  if bitAt w 18 = true then u.set F.BCW_STAT_CLR_TO 0 0 else u

theorem shownCleared_bcw (s : State) (w : Nat) : (shownCleared s w).bcw = s.bcw := by
  unfold shownCleared
  dsimp only
  split <;> split <;> rfl

theorem shownCleared_steady (h : DriveSteady s) (w : Nat) : DriveSteady (shownCleared s w) := by
  have done : DriveSteady (if bitAt w 17 = true then s.set F.BCW_STAT_CLR_DONE 0 0 else s) := (h.set (by decide)).ite h
  exact (done.set (by decide)).ite done

theorem bcwRead_stat_frozen {ws : List Nat} (frozen : s.bcw.image = some ws) :
    bcwRead s 10 = ((shownCleared s (ws.getD 10 0)).putBcw { s.bcw with image := none }, ws.getD 10 0) := by
  have same := shownCleared_bcw s (ws.getD 10 0)
  unfold shownCleared at same ⊢
  simp only [State.lower_eq, bcwRead, frozen, Option.isNone_some, Option.isSome_some, Option.getD_some, Bool.false_eq_true, and_false, if_false,
    and_self, if_true] at same ⊢
  rw [same]

end

theorem readBack_steady {s : State} (h : DriveSteady s) (p : HPort) (a w : Nat) : DriveSteady (s.readBack p a w) := h.updHost _ _

/-- A read of a word of the window by port B, whose effect leaves the drive steady. -/
theorem windowRead_answers {c : Instr} {s t : State} {i w : Nat} (up : s.portsUp = true) (lt : i ≤ 12)
    (run : exec c s = answer s (hostRead s .b (0x1E0000 + 4 * i))) (rd : bcwRead s i = (t, w)) (d : DriveSteady t) :
    Answers c s (t.readBack .b (0x1E0000 + 4 * i) w) :=
  answers_of (run.trans (congrArg (answer s) (hostRead_eq up ((readWord_window s lt).trans rd)))) (readBack_steady d _ _ _)

/-- Settles O3: a read of the window by the word read and by whether the window is frozen. -/
theorem bamdonFreeze : Obligations.BamdonFreeze := by
  intro s lines up
  have steady := lines.steady
  refine ⟨fun n live => ?_, fun n ws frozen => ?_, fun ws frozen => ?_, fun live => ?_⟩
  · exact windowRead_answers up (by omega) rfl (bcwRead_count_live n.isLt live) steady
  · exact windowRead_answers up (by omega) rfl (bcwRead_count_frozen n.isLt frozen) steady
  · exact windowRead_answers (i := 10) up (by omega) rfl (bcwRead_stat_frozen frozen) (shownCleared_steady steady _)
  · exact windowRead_answers (i := 10) up (by omega) rfl (bcwRead_stat_live live) steady

/-! ### The clear (R395) -/

/-- The bit addresses that the clear writes: the counts and direction codes from the first on, and CLR_DONE. -/
def clearKey (l : List (Nat × Nat)) (k : Nat) : Bool :=
  k == F.BCW_STAT_CLR_DONE.key 0
    || (List.range 8 ++ l.map (·.1)).any (fun n => k == F.BCW_CNTn_COUNT.key n || k == F.BCW_DIR_DIR.key n)

theorem clearKey_iff {l : List (Nat × Nat)} {k : Nat} : clearKey l k = true ↔ k = F.BCW_STAT_CLR_DONE.key 0
    ∨ ∃ n, (n < 8 ∨ ∃ x ∈ l, x.1 = n) ∧ (k = F.BCW_CNTn_COUNT.key n ∨ k = F.BCW_DIR_DIR.key n) := by
  simp only [clearKey, Bool.or_eq_true, beq_iff_eq, List.any_eq_true, List.mem_append, List.mem_range, List.mem_map]

theorem not_clearKey_of_drivesSource (l : List (Nat × Nat)) {k : Nat} (h : drivesSource k = true) : clearKey l k = false := by
  have low : k < 0x1E0000 * 8 := by
    simp only [drivesSource, Bool.or_eq_true, beq_iff_eq] at h
    rcases h with ((rfl | rfl) | rfl) | rfl <;> decide
  refine Bool.eq_false_iff.mpr fun w => ?_
  rcases clearKey_iff.mp w with rfl | ⟨n, -, rfl | rfl⟩ <;> simp only [Fld.key, F.BCW_STAT_CLR_DONE, F.BCW_CNTn_COUNT, F.BCW_DIR_DIR] at low <;> omega

/-- The counts and direction codes cleared. -/
def countsCleared (s : State) : State := forN 8 s (fun s n => (s.set F.BCW_CNTn_COUNT n 0).set F.BCW_DIR_DIR n 0)

/-- The clear's registers: the counts cleared, the passages of its own clock stepped, the flag raised. -/
def windowCleared (s : State) : State :=
  (forEach (bcwNow s) (countsCleared s) (fun s x => bcwStep s x.1 x.2)).set F.BCW_STAT_CLR_DONE 0 1

theorem countsCleared_writes (s : State) (l : List (Nat × Nat)) : WritesOnly (clearKey l) s (countsCleared s) := by
  unfold countsCleared forN
  refine WritesOnly.foldl _ _ (fun t n mem => ?_) s
  have lt := List.mem_range.mp mem
  exact ((WritesOnly.refl _ t).set (clearKey_iff.mpr (Or.inr ⟨n, Or.inl lt, Or.inl rfl⟩)) 0).set
    (clearKey_iff.mpr (Or.inr ⟨n, Or.inl lt, Or.inr rfl⟩)) 0

theorem windowCleared_writes (s : State) : WritesOnly (clearKey (bcwNow s)) s (windowCleared s) := by
  unfold windowCleared forEach
  refine WritesOnly.set (WritesOnly.trans (countsCleared_writes s _) (WritesOnly.foldl _ _ (fun t x mem => ?_) _)) (clearKey_iff.mpr (Or.inl rfl)) 1
  exact ((WritesOnly.refl _ t).set (clearKey_iff.mpr (Or.inr ⟨x.1, Or.inr ⟨x, mem, rfl⟩, Or.inl rfl⟩)) _).set
    (clearKey_iff.mpr (Or.inr ⟨x.1, Or.inr ⟨x, mem, rfl⟩, Or.inr rfl⟩)) _

theorem bcwClearAll_eq (s : State) : bcwClearAll s = (windowCleared s).putBcw { s.bcw with armed := none } := by
  have cleared := countsCleared_writes s []
  have bcw : (windowCleared s).bcw = s.bcw := (windowCleared_writes s).reads State.bcw fun _ _ => rfl
  have now : bcwNow (countsCleared s) = bcwNow s := cleared.reads bcwNow fun _ _ => rfl
  rw [← bcw]
  unfold windowCleared
  rw [← now]
  rfl

theorem key_window : ∀ n < 8, ∀ m < 8, F.BCW_CNTn_COUNT.key n ≠ F.BCW_DIR_DIR.key m
    ∧ F.BCW_CNTn_COUNT.key n ≠ F.BCW_STAT_CLR_DONE.key 0 ∧ F.BCW_DIR_DIR.key n ≠ F.BCW_STAT_CLR_DONE.key 0
    ∧ (n ≠ m → F.BCW_CNTn_COUNT.key n ≠ F.BCW_CNTn_COUNT.key m ∧ F.BCW_DIR_DIR.key n ≠ F.BCW_DIR_DIR.key m) := by decide

theorem key_window_quiet : ∀ n < 8, quietKey (F.BCW_CNTn_COUNT.key n) = true ∧ quietKey (F.BCW_DIR_DIR.key n) = true := by decide +kernel

theorem countsCleared_get (s : State) {n : Nat} (lt : n < 8) :
    (countsCleared s).get F.BCW_CNTn_COUNT n = 0 ∧ (countsCleared s).get F.BCW_DIR_DIR n = 0 := by
  constructor
  · refine forN_writes (fun s => s.get F.BCW_CNTn_COUNT n) lt (fun t => ?_) (fun t i hi ne => ?_) s
    · rw [State.get_set_ne _ _ (key_window n lt n lt).1, State.get_set_self]; rfl
    · rw [State.get_set_ne _ _ (key_window n lt i hi).1, State.get_set_ne _ _ ((key_window n lt i hi).2.2.2 ne.symm).1]
  · refine forN_writes (fun s => s.get F.BCW_DIR_DIR n) lt (fun t => ?_) (fun t i hi ne => ?_) s
    · rw [State.get_set_self]; rfl
    · rw [State.get_set_ne _ _ ((key_window n lt i hi).2.2.2 ne.symm).2, State.get_set_ne _ _ (key_window i hi n lt).1.symm]

theorem windowCleared_none {s : State} (none : bcwNow s = []) {n : Nat} (lt : n < 8) :
    (windowCleared s).get F.BCW_CNTn_COUNT n = 0 ∧ (windowCleared s).get F.BCW_DIR_DIR n = 0 := by
  obtain ⟨-, apartC, apartD, -⟩ := key_window n lt n lt
  unfold windowCleared
  rw [none, State.get_set_ne _ _ apartC, State.get_set_ne _ _ apartD]
  simp only [forEach, List.foldl_nil]
  exact countsCleared_get s lt

theorem windowCleared_one {s : State} {c code : Nat} (one : bcwNow s = [(c, code)]) (ltc : c < 8) (le : code ≤ 2) {n : Nat} (lt : n < 8) :
    (windowCleared s).get F.BCW_CNTn_COUNT n = (if n = c then 1 else 0) ∧ (windowCleared s).get F.BCW_DIR_DIR n = if n = c then code else 0 := by
  obtain ⟨countDir, apartC, apartD, apart⟩ := key_window n lt c ltc
  obtain ⟨zeroC, zeroD⟩ := countsCleared_get s lt
  have dirCount := (key_window c ltc n lt).1
  unfold windowCleared
  rw [one, State.get_set_ne _ _ apartC, State.get_set_ne _ _ apartD]
  simp only [forEach, List.foldl_cons, List.foldl_nil, bcwStep]
  by_cases e : n = c
  · subst e
    rw [State.get_set_ne _ _ countDir, State.get_set_self, State.get_set_self, zeroC, if_pos rfl, if_pos rfl]
    exact ⟨rfl, Nat.mod_eq_of_lt (Nat.lt_of_le_of_lt le (by decide))⟩
  · obtain ⟨apartCount, apartDir⟩ := apart e
    rw [State.get_set_ne _ _ countDir, State.get_set_ne _ _ apartCount, State.get_set_ne _ _ apartDir, State.get_set_ne _ _ dirCount.symm, zeroC, zeroD,
      if_neg e, if_neg e]
    exact ⟨rfl, rfl⟩

theorem DriveSteady.putBcw {s : State} (h : DriveSteady s) (b : Bcw) : DriveSteady (s.putBcw b) := h

theorem windowCleared_steady {s : State} (lines : LinesFollow s) (b : Bcw) : DriveSteady ((windowCleared s).putBcw b) :=
  (windowCleared_writes s).steady lines fun _ drives => not_clearKey_of_drivesSource _ drives

theorem bcwClr_arm (s : State) : bcwClr s 0x5A = s.putBcw { s.bcw with armed := some s.now } := rfl

theorem bcwClr_unarmed {s : State} (h : s.bcw.armed = none) : bcwClr s 0xA5 = s := by
  simp [bcwClr, h]

theorem bcwClr_armed {s : State} {t : Nat} (h : s.bcw.armed = some t) : bcwClr s 0xA5 =
    if s.now ≤ t + 600000 then bcwClearAll s else (s.set F.BCW_STAT_CLR_TO 0 1).putBcw { s.bcw with armed := none } := by
  simp [bcwClr, h]

theorem bcwClr_cancel (s : State) {v : Byte} (arm : v ≠ 0x5A) (clear : v ≠ 0xA5) : bcwClr s v.toNat = s.putBcw { s.bcw with armed := none } := by
  have h1 : ¬v.toNat % 256 = 0x5A := fun e => arm (by bv_omega)
  have h2 : ¬v.toNat % 256 = 0xA5 := fun e => clear (by bv_omega)
  simp [bcwClr, h1, h2]

theorem bcwExpire_due {s : State} {t : Nat} (armed : s.bcw.armed = some t) (due : t + 600001 < s.nextBoundary) :
    bcwExpire s = s.putNow (max s.now (t + 600001)) := by
  simp only [bcwExpire, armed]
  exact (if_pos (decide_eq_true due)).trans (advanceTo_due due)

/-- Settles O4: a write of BCW_CLR by its value and by the tick that armed it. -/
theorem bamdonClear : Obligations.BamdonClear := by
  intro s lines up
  have steady := lines.steady
  refine ⟨answers_gated up rfl steady, fun t armed soon => ?_, fun t armed late => ?_, fun idle => ?_, fun v arm clear => ?_, fun t armed due => ?_⟩
  · have eq : bcwClr s 0xA5 = (windowCleared s).putBcw { s.bcw with armed := none } := by
      rw [bcwClr_armed armed, if_pos soon, bcwClearAll_eq]
    have writes := windowCleared_writes s
    obtain ⟨u, run, res⟩ := answers_gated (c := .bcwClear) up rfl (eq ▸ windowCleared_steady lines _)
    rw [eq] at res
    refine ⟨u, run, fun none n lt => ?_, fun c code one ltc le n lt => ?_, ?_, res.keeps.reads State.bcw fun _ => rfl,
      (res.keeps.reads State.now fun _ => rfl).trans (writes.reads State.now fun _ _ => rfl),
      (res.keeps.reads State.cycle fun _ => rfl).trans (writes.reads State.cycle fun _ _ => rfl), fun k quiet flag inside other => ?_, fun a out => ?_⟩
    · rw [res.get _ _ (key_window_quiet n lt).1, res.get _ _ (key_window_quiet n lt).2]
      exact windowCleared_none none lt
    · rw [res.get _ _ (key_window_quiet n lt).1, res.get _ _ (key_window_quiet n lt).2]
      exact windowCleared_one one ltc le lt
    · rw [res.get _ _ (by decide), State.get_putBcw]
      exact State.get_set_self _ _ _ _
    · refine (res.keeps.regs k quiet).trans (writes.regs k (Bool.eq_false_iff.mpr fun w => ?_))
      rcases clearKey_iff.mp w with e | ⟨n, lt | ⟨x, mem, rfl⟩, e⟩
      · exact flag e
      · exact e.elim (other n lt).1 (other n lt).2
      · exact e.elim (other _ (inside x mem)).1 (other _ (inside x mem)).2
    · refine (res.keeps.byte a out).trans ?_
      rw [State.byte_putBcw, State.byte, writes.reads State.mem fun _ _ => rfl]
      rfl
  · exact answers_gated up (congrArg (fun u => answer s (gate s u)) ((bcwClr_armed armed).trans (if_neg (Nat.not_le_of_lt late))))
      (DriveSteady.putBcw (steady.set (by decide)) _)
  · exact answers_gated up (congrArg (fun u => answer s (gate s u)) (bcwClr_unarmed idle)) steady
  · exact answers_gated up (congrArg (fun u => answer s (gate s u)) (bcwClr_cancel s arm clear)) steady
  · exact answersTimed_of rfl (bcwExpire_due armed due)

/-! ### Port A (R391) -/

section
variable (s : State) {a : Nat} (lo : 0x1E0000 ≤ a) (hi : a < 0x1F0000) (al : a % 4 = 0)
include lo hi al

theorem writeWord_window_a (v : Nat) : writeWord s .a a v = s.accErr .a a true .port_ := by
  have h2 : ¬(0x200000 ≤ a ∧ a < 0x600000) := by omega
  have h3 : ¬(0x600000 ≤ a ∧ a < 0xA00000) := by omega
  simp only [writeWord, if_neg (not_not.mpr al), if_neg h2, if_neg h3, if_pos (And.intro lo hi)]

theorem readWord_window_a : readWord s .a a = (s.accErr .a a false .port_, 0) := by
  have h2 : ¬(0x200000 ≤ a ∧ a < 0x670000) := by omega
  have h3 : ¬(0x680000 ≤ a ∧ a < 0x6C0000) := by omega
  have h4 : ¬(0x670000 ≤ a ∧ a < 0xA00000) := by omega
  simp only [readWord, if_neg (not_not.mpr al), if_neg h2, if_neg h3, if_neg h4, if_pos (And.intro lo hi)]

end

/-- Bits added to a mask, of which none but bit 31 lies above bit 29, leave bit 30 clear. -/
theorem addedBits_clear {α : Type} (c : α → Bool) (e : α → Nat) (l : List α) (acc : Nat)
    (room : acc % 2 ^ 31 + (l.map (fun x => 2 ^ e x % 2 ^ 31)).sum < 2 ^ 30) :
    (l.foldl (fun v x => if c x then v + 2 ^ e x else v) acc) % 2 ^ 31 ≤ acc % 2 ^ 31 + (l.map (fun x => 2 ^ e x % 2 ^ 31)).sum := by
  induction l generalizing acc with
  | nil => simp
  | cons x l ih =>
    rw [List.map_cons, List.sum_cons] at room ⊢
    rw [List.foldl_cons]
    have step : (if c x then acc + 2 ^ e x else acc) % 2 ^ 31 ≤ acc % 2 ^ 31 + 2 ^ e x % 2 ^ 31 := by
      split
      · rw [Nat.add_mod]; exact Nat.mod_le _ _
      · exact Nat.le_add_right _ _
    exact (ih _ (by omega)).trans (by omega)

/-- The window has no route bit among the block interrupts. -/
theorem irqPend_window (s : State) : bitAt (irqPend s) 30 = false := by
  have masked := addedBits_clear (fun x : Nat × Nat × Nat => wordAt s 0 x.2.1 &&& wordAt s 0 x.2.2 != 0) (·.1) maskedBlocks 0 (by decide)
  have plain := addedBits_clear (fun x : Nat × Nat => w1cWord s x.2 != 0) (·.1) plainBlocks _ (lt_of_le_of_lt (Nat.add_le_add_right masked _) (by decide))
  have low := plain.trans (Nat.add_le_add_right masked _)
  have room : (0 % 2 ^ 31 + (maskedBlocks.map (fun x => 2 ^ x.1 % 2 ^ 31)).sum) + (plainBlocks.map (fun x => 2 ^ x.1 % 2 ^ 31)).sum < 2 ^ 30 := by decide
  have small : irqPend s % 2 ^ 31 < 2 ^ 30 := lt_of_le_of_lt low room
  have bit := Nat.testBit_mod_two_pow (irqPend s) 31 30
  rw [Nat.testBit_lt_two_pow small] at bit
  simpa [bitAt] using bit.symm

/-- Settles O5: port A's accesses fail before they reach the window, and no block of the route word is the window's. -/
theorem bamdonPortAReadsNothing : Obligations.BamdonPortAReadsNothing := by
  refine ⟨fun s a v lines up lo hi al => ⟨?_, readWord_window_a s lo hi al, ?_⟩, irqPend_window⟩
  · exact answers_gated up (congrArg (fun u => answer s (gate s u)) (writeWord_window_a s lo hi al _)) (lines.steady.accErr _ _ _ _)
  · exact answers_of (congrArg (answer s) (hostRead_eq up (readWord_window_a s lo hi al))) (readBack_steady (lines.steady.accErr _ _ _ _) _ _ _)

end Sys2Proof.Machine
end

section
/-!
PROOFS. Frames of a host port (R368 to R372): READ, WRITE and REPEAT, and the bytes that spell them. Settles O14, O15 and O16.
-/

namespace Sys2Proof.Machine

set_option Elab.async false

/-! ### Bytes and words -/

theorem toNat_append_byte {w : Nat} (x : BitVec w) (y : Byte) : (x ++ y).toNat = x.toNat * 256 + y.toNat := by
  rw [BitVec.toNat_append, ← Nat.shiftLeft_add_eq_or_of_lt y.isLt, Nat.shiftLeft_eq]

theorem beBytes_two (v : Nat) : beBytes 2 v = [BitVec.ofNat 8 (v / 256), BitVec.ofNat 8 v] := rfl

theorem beBytes_three (v : Nat) : beBytes 3 v = [BitVec.ofNat 8 (v / 256 / 256), BitVec.ofNat 8 (v / 256), BitVec.ofNat 8 v] := rfl

theorem beBytes_four (v : Nat) :
    beBytes 4 v = [BitVec.ofNat 8 (v / 256 / 256 / 256), BitVec.ofNat 8 (v / 256 / 256), BitVec.ofNat 8 (v / 256), BitVec.ofNat 8 v] := rfl

theorem addr_of_bytes (a : Addr) : BitVec.ofNat 8 (a.toNat / 256 / 256) ++ BitVec.ofNat 8 (a.toNat / 256) ++ BitVec.ofNat 8 a.toNat = a := by
  refine BitVec.eq_of_toNat_eq ?_
  have lt := a.isLt
  simp only [toNat_append_byte, BitVec.toNat_ofNat]
  omega

theorem word_of_bytes (v : Word) : BitVec.ofNat 8 (v.toNat / 256 / 256 / 256) ++ BitVec.ofNat 8 (v.toNat / 256 / 256)
    ++ BitVec.ofNat 8 (v.toNat / 256) ++ BitVec.ofNat 8 v.toNat = v := by
  refine BitVec.eq_of_toNat_eq ?_
  have lt := v.isLt
  simp only [toNat_append_byte, BitVec.toNat_ofNat]
  omega

theorem crc_of_bytes (crc : BitVec 16) :
    (beBytes 2 crc.toNat).foldl (fun (c : BitVec 16) x => c * 256 + x.zeroExtend 16) 0 = crc := by
  refine BitVec.eq_of_toNat_eq ?_
  have lt := crc.isLt
  simp only [beBytes_two, List.foldl_cons, List.foldl_nil, BitVec.toNat_add, BitVec.toNat_mul, BitVec.truncate_eq_setWidth, BitVec.toNat_setWidth,
    BitVec.toNat_ofNat, show BitVec.toNat (256 : BitVec 16) = 256 from rfl, show BitVec.toNat (0 : BitVec 16) = 0 from rfl]
  omega

theorem wireWords_length (ws : List Nat) : (wireWords ws).length = 4 * ws.length := by
  induction ws with
  | nil => rfl
  | cons w ws ih =>
    have four : (beBytes 4 w).length = 4 := rfl
    simp only [wireWords, List.flatMap_cons, List.length_append, List.length_cons] at ih ⊢
    omega

/-- The words of a frame read back from the wire. -/
theorem frameWords_wireWords (data : List Word) : frameWords (wireWords (data.map BitVec.toNat)) = data := by
  induction data with
  | nil => rfl
  | cons w ws ih =>
    have split : wireWords ((w :: ws).map BitVec.toNat) = beBytes 4 w.toNat ++ wireWords (ws.map BitVec.toNat) := rfl
    rw [split, beBytes_four]
    simp only [List.cons_append, List.nil_append, frameWords, ih, word_of_bytes]

/-! ### What the bytes of a frame spell (R368) -/

theorem reqBytes_eq (cmd n : Nat) (a : Addr) : reqBytes cmd n a.toNat = [BitVec.ofNat 8 (64 * cmd + n), BitVec.ofNat 8 (a.toNat / 256 / 256),
    BitVec.ofNat 8 (a.toNat / 256), BitVec.ofNat 8 a.toNat] := rfl

/-- The body of a frame and its check value, cut where the check value begins. -/
theorem frame_cut (body : List Byte) (crc : BitVec 16) :
    (body ++ beBytes 2 crc.toNat).take ((body ++ beBytes 2 crc.toNat).length - 2) = body
    ∧ ((body ++ beBytes 2 crc.toNat).drop ((body ++ beBytes 2 crc.toNat).length - 2)) = beBytes 2 crc.toNat := by
  have len : (body ++ beBytes 2 crc.toNat).length - 2 = body.length := by simp [beBytes_two]
  rw [len]
  exact ⟨List.take_left, List.drop_left⟩

/-- The command that a whole request with a body spells. -/
theorem frameCommand_eq (p : HPort) (cmd : Fin 4) (n : Fin 64) (a : Addr) (body : List Byte) (crc : BitVec 16) (cs : Bool) :
    frameCommand p (reqBytes cmd n.val a.toNat ++ body ++ beBytes 2 crc.toNat) cs =
      match cmd with
      | 0 => if body = [] then some (if a = 0xFFFFFF then .repeatResponse p n crc else .readInc p n a crc) else none
      | 1 => if body = [] then some (.readFix p n a crc) else none
      | 2 => some (.writeInc p n a (frameWords body) crc (cs && body.length == 4 * (n.val + 1)))
      | 3 => some (.writeFix p n a (frameWords body) crc (cs && body.length == 4 * (n.val + 1))) := by
  obtain ⟨front, back⟩ := frame_cut body crc
  have len : (body ++ beBytes 2 crc.toNat).length = body.length + 2 := by simp [beBytes_two]
  have empty : (body ++ beBytes 2 crc.toNat).length = 2 ↔ body = [] := by rw [len]; simp
  have whole : ((body ++ beBytes 2 crc.toNat).length == 4 * (n.val + 1) + 2) = (body.length == 4 * (n.val + 1)) := by
    rw [len, Bool.eq_iff_iff, beq_iff_eq, beq_iff_eq]
    omega
  have op : (BitVec.ofNat 8 (64 * cmd.val + n.val)).toNat = 64 * cmd.val + n.val := by
    rw [BitVec.toNat_ofNat]
    omega
  have count : (64 * cmd.val + n.val) % 64 = n.val := by omega
  have kind : (64 * cmd.val + n.val) / 64 = cmd.val := by omega
  rw [reqBytes_eq, List.append_assoc]
  simp only [List.cons_append, List.nil_append, frameCommand, op, count, kind, front, back, crc_of_bytes, addr_of_bytes, whole, empty]
  fin_cases cmd <;> rfl

/-! ### Reads of memory (R371, R388) -/

theorem readWord_memory {s : State} {p : HPort} {a : Nat} (al : a % 4 = 0) (lo : 0x200000 ≤ a) (hi : a < 0x670000) :
    readWord s p a = (s, s.memWord a) := by
  simp only [readWord, if_neg (not_not.mpr al), if_pos (And.intro lo hi)]

/-- Words that are all read without effect are collected in order. -/
theorem readWords_eq {s : State} {p : HPort} {fixed : Bool} {a : Nat} {w : Nat → Nat} (k i : Nat) (acc : List Nat)
    (each : ∀ j, i ≤ j → j < i + k → readWord s p (frameAddr fixed a j) = (s, w j)) :
    readWords p fixed a k i s acc = (s, acc.reverse ++ (List.range' i k).map w) := by
  induction k generalizing i acc with
  | zero => simp [readWords]
  | succ k ih =>
    rw [readWords, each i le_rfl (by omega)]
    dsimp only
    rw [ih (i + 1) (w i :: acc) fun j lo hi => each j (by omega) (by omega), List.range'_succ]
    simp

section
variable {s : State} {p : HPort} {cmd n a crc : Nat}

/-- A read of memory: its response, kept as the last accepted read. -/
theorem readFrame_right (up : s.portsUp = true) (right : crc = crc16 (reqBytes cmd n a)) (no : ¬(cmd = 0 ∧ a = 0xFFFFFF)) {w : Nat → Nat}
    (each : ∀ j, j < n + 1 → readWord s p (frameAddr (cmd == 1) a j) = (s, w j)) {ws : List Nat} (eq : (List.range (n + 1)).map w = ws) {op : Nat} (spelt : 64 * cmd + n = op) :
    readFrame s p cmd n a crc = s.updHost p.toNat (fun h =>
      { h with resp := ws, respCrc := crc16 (reqBytes cmd n a ++ wireWords ws), last := some (op, a, ws) }) := by
  have on : (!s.portsUp) = false := by rw [up]; rfl
  have rd : readWords p (cmd == 1) a (n + 1) 0 s [] = (s, ws) := by
    rw [readWords_eq (n + 1) 0 [] fun j _ lt => each j (by omega), ← List.range_eq_range', eq]
    rfl
  simp only [readFrame, on, Bool.false_eq_true, if_false, if_neg (not_not.mpr right), if_neg no, rd, respond, State.updHost_updHost, spelt]

/-- A read whose request CRC fails performs no read. -/
theorem readFrame_wrong (up : s.portsUp = true) (wrong : crc ≠ crc16 (reqBytes cmd n a)) :
    readFrame s p cmd n a crc = frameFail (respondBad s p cmd n a) p F.HPS_STATUS_CRC_ERR := by
  have on : (!s.portsUp) = false := by rw [up]; rfl
  simp only [readFrame, on, Bool.false_eq_true, if_false, if_pos wrong]

theorem readFrame_repeat (up : s.portsUp = true) (right : crc = crc16 (reqBytes 0 n 0xFFFFFF)) :
    readFrame s p 0 n 0xFFFFFF crc = repeatFrame s p n := by
  have on : (!s.portsUp) = false := by rw [up]; rfl
  simp only [readFrame, on, Bool.false_eq_true, if_false, if_neg (not_not.mpr right), and_self, if_true]

end

theorem key_port (p : HPort) : ∀ f ∈ [F.HPS_STATUS_CRC_ERR, F.HPS_STATUS_LEN_ERR, F.HPS_CNT_CRC_CNT, F.HPS_CNT_REPEAT_CNT],
    drivesSource ((f.port p.toNat).key 0) = false ∧ quietKey ((f.port p.toNat).key 0) = true := by
  cases p <;> decide

theorem DriveSteady.counted {s : State} (h : DriveSteady s) {f : Fld} {i : Nat} (k : drivesSource (f.key i) = false) : DriveSteady (s.counted f i) :=
  h.set k

theorem frameFail_steady {s : State} (h : DriveSteady s) (p : HPort) {f : Fld} (mem : f = F.HPS_STATUS_CRC_ERR ∨ f = F.HPS_STATUS_LEN_ERR) :
    DriveSteady (frameFail s p f) := by
  have flag : drivesSource ((f.port p.toNat).key 0) = false := by
    rcases mem with rfl | rfl
    · exact (key_port p _ (by simp)).1
    · exact (key_port p _ (by simp)).1
  exact (h.set flag).set (key_port p F.HPS_CNT_CRC_CNT (by simp)).1

/-- Settles O14: the words that a read frame collects, the refusal of a frame whose CRC fails, and what the bytes spell. -/
theorem readFrames : Obligations.ReadFrames := by
  intro s p n a crc lines up
  have steady := lines.steady
  have spelt (cmd : Fin 4) (b : Addr) (cs : Bool) := frameCommand_eq p cmd n b [] crc cs
  simp only [List.append_nil] at spelt
  refine ⟨fun al lo hi right => ?_, fun al lo hi right => ?_, fun wrong => ?_, fun wrong => ?_, fun cs => ⟨fun other => ?_, ?_, ?_⟩⟩
  · have each : ∀ j, j < n.val + 1 → readWord s p (frameAddr (0 == 1 : Bool) a.toNat j) = (s, s.memWord (a.toNat + 4 * j)) := fun j lt => by
      have here : frameAddr (0 == 1 : Bool) a.toNat j = a.toNat + 4 * j := Nat.mod_eq_of_lt (by omega)
      rw [here]
      exact readWord_memory (by omega) (by omega) (by omega)
    exact answers_of (c := .readInc p n a crc) (congrArg (answer s) (readFrame_right up right (by omega) each rfl (Nat.zero_add _))) (steady.updHost _ _)
  · have each : ∀ j, j < n.val + 1 → readWord s p (frameAddr (1 == 1 : Bool) a.toNat j) = (s, s.memWord a.toNat) :=
      fun _ _ => readWord_memory al lo hi
    exact answers_of (c := .readFix p n a crc) (congrArg (answer s) (readFrame_right up right (by omega) each (by simp) rfl)) (steady.updHost _ _)
  · exact answers_of (c := .readInc p n a crc) (congrArg (answer s) (readFrame_wrong up wrong)) (frameFail_steady (steady.updHost _ _) p (Or.inl rfl))
  · exact answers_of (c := .readFix p n a crc) (congrArg (answer s) (readFrame_wrong up wrong)) (frameFail_steady (steady.updHost _ _) p (Or.inl rfl))
  · exact (spelt 0 a cs).trans (congrArg some (if_neg other))
  · exact spelt 0 0xFFFFFF cs
  · exact spelt 1 a cs

/-! ### REPEAT (R372) -/

section
variable {s : State} {p : HPort} {n op a : Nat} {ws : List Nat}

theorem repeatFrame_same (last : (s.host p.toNat).last = some (op, a, ws)) (len : ws.length = n + 1) : repeatFrame s p n =
    (s.updHost p.toNat (fun h => { h with resp := ws, respCrc := crc16 (reqBytes 0 n 0xFFFFFF ++ wireWords ws) })).counted
      (F.HPS_CNT_REPEAT_CNT.port p.toNat) := by
  simp only [repeatFrame, last, if_pos len]
  rfl

theorem repeatFrame_other (last : (s.host p.toNat).last = some (op, a, ws)) (len : ws.length ≠ n + 1) :
    repeatFrame s p n = frameFail (respondBad s p 0 n 0xFFFFFF) p F.HPS_STATUS_LEN_ERR := by
  simp only [repeatFrame, last, if_neg len]

end

theorem Result.host {s u t : State} (h : Result s u t) (p : Nat) : t.host p = u.host p := h.keeps.reads (State.host · p) fun _ => rfl

/-- A port whose last accepted read is kept has its state. -/
theorem host_lt {s : State} {p : Nat} {x : Nat × Nat × List Nat} (last : (s.host p).last = some x) : p < s.hosts.length := by
  by_contra out
  have none : s.host p = default := List.getD_eq_default _ _ (by omega)
  rw [none] at last
  exact Option.some_ne_none x last.symm

theorem host_updHost {s : State} {p : Nat} (lt : p < s.hosts.length) (f : PortState → PortState) : (s.updHost p f).host p = f (s.host p) :=
  nth_upd_self lt f

theorem key_port_apart (p : HPort) : (F.HPS_STATUS_LEN_ERR.port p.toNat).key 0 ≠ (F.HPS_CNT_CRC_CNT.port p.toNat).key 0
    ∧ (F.HPS_CNT_REPEAT_CNT.port p.toNat).key 0 ≠ (F.HPS_CNT_CRC_CNT.port p.toNat).key 0
    ∧ (F.HPS_CNT_REPEAT_CNT.port p.toNat).key 0 ≠ (F.HPS_STATUS_LEN_ERR.port p.toNat).key 0 := by
  cases p <;> decide

/-- What a failed length leaves in the port's registers. -/
theorem frameFail_length (s : State) (p : HPort) :
    (frameFail s p F.HPS_STATUS_LEN_ERR).get (F.HPS_STATUS_LEN_ERR.port p.toNat) = 1
    ∧ (frameFail s p F.HPS_STATUS_LEN_ERR).get (F.HPS_CNT_CRC_CNT.port p.toNat)
      = satInc F.HPS_CNT_CRC_CNT.width (s.get (F.HPS_CNT_CRC_CNT.port p.toNat))
    ∧ (frameFail s p F.HPS_STATUS_LEN_ERR).get (F.HPS_CNT_REPEAT_CNT.port p.toNat) = s.get (F.HPS_CNT_REPEAT_CNT.port p.toNat) := by
  obtain ⟨flagCount, repeatCount, repeatFlag⟩ := key_port_apart p
  unfold frameFail
  rw [State.raise_eq, State.bump_eq]
  refine ⟨?_, ?_, ?_⟩
  · rw [State.get_set_ne _ _ flagCount, State.get_set_self]
    rfl
  · rw [State.get_set_self, State.get_set_ne _ _ flagCount.symm]
    exact satInc_mod _ _
  · rw [State.get_set_ne _ _ repeatCount, State.get_set_ne _ _ repeatFlag]

/-- Settles O16: the last accepted read, by whether its count is the request's. -/
theorem repeatReturnsLastResponse : Obligations.RepeatReturnsLastResponse := by
  intro s p n op a ws crc lines up right last
  have steady := lines.steady
  have run {u : State} (eq : repeatFrame s p n.val = u) : exec (.repeatResponse p n crc) s = answer s u :=
    congrArg (answer s) ((readFrame_repeat up right).trans eq)
  refine ⟨fun len => ?_, fun len => ?_⟩
  · exact answers_of (run (repeatFrame_same last len)) ((steady.updHost _ _).counted (key_port p F.HPS_CNT_REPEAT_CNT (by simp)).1)
  · obtain ⟨t, ran, res⟩ := answers_of (run (repeatFrame_other last len)) (frameFail_steady (steady.updHost _ _) p (Or.inr rfl))
    obtain ⟨flag, count, repeats⟩ := frameFail_length (respondBad s p 0 n.val 0xFFFFFF) p
    have host : t.host p.toNat = (respondBad s p 0 n.val 0xFFFFFF).host p.toNat := res.host _
    unfold respondBad respond at host
    rw [host_updHost (host_lt last)] at host
    refine ⟨t, ran, congrArg PortState.resp host, congrArg PortState.respCrc host, ?_, ?_, ?_⟩
    · rw [res.get _ _ (key_port p F.HPS_STATUS_LEN_ERR (by simp)).2, flag]
    · rw [res.get _ _ (key_port p F.HPS_CNT_CRC_CNT (by simp)).2, count]
      rfl
    · rw [res.get _ _ (key_port p F.HPS_CNT_REPEAT_CNT (by simp)).2, repeats]
      rfl

/-! ### Writes (R370) -/

section
variable {s : State} {p : HPort} {cmd n a crc : Nat} {data : List Nat}

theorem writeFrame_length (up : s.portsUp = true) {cs : Bool} (bad : cs = false ∨ data.length ≠ n + 1) :
    writeFrame s p cmd n a data crc cs = frameFail s p F.HPS_STATUS_LEN_ERR := by
  have on : (!s.portsUp) = false := by rw [up]; rfl
  have refused : !cs ∨ data.length ≠ n + 1 := bad.imp (fun e => by rw [e]; rfl) id
  simp only [writeFrame, on, Bool.false_eq_true, if_false, if_pos refused]

theorem writeFrame_crc (up : s.portsUp = true) (len : data.length = n + 1) (wrong : crc ≠ crc16 (reqBytes cmd n a ++ wireWords data)) :
    writeFrame s p cmd n a data crc true = frameFail s p F.HPS_STATUS_CRC_ERR := by
  have on : (!s.portsUp) = false := by rw [up]; rfl
  have whole : ¬(!true ∨ data.length ≠ n + 1) := by simp [len]
  simp only [writeFrame, on, Bool.false_eq_true, if_false, if_neg whole, if_pos wrong]

theorem writeFrame_whole (up : s.portsUp = true) (len : data.length = n + 1) (right : crc = crc16 (reqBytes cmd n a ++ wireWords data))
    {g : Nat → Nat} (addr : ∀ i, frameAddr (cmd == 3) a i = g i) :
    writeFrame s p cmd n a data crc true = forEach (indexed 0 data) s (fun s x => writeWord s p (g x.1) x.2) := by
  have on : (!s.portsUp) = false := by rw [up]; rfl
  have whole : ¬(!true ∨ data.length ≠ n + 1) := by simp [len]
  simp only [writeFrame, on, Bool.false_eq_true, if_false, if_neg whole, if_neg (not_not.mpr right), addr]

end

theorem forEach_indexed_map {α : Type} (g : α → Nat) (f : State → Nat → Nat → State) (l : List α) (k : Nat) (s : State) :
    forEach (indexed k (l.map g)) s (fun s x => f s x.1 x.2) = forEach (indexed k l) s (fun s x => f s x.1 (g x.2)) := by
  induction l generalizing k s with
  | nil => rfl
  | cons x l ih => exact ih (k + 1) _

theorem forEach_indexed_snd {α : Type} (f : State → α → State) (l : List α) (k : Nat) (s : State) :
    forEach (indexed k l) s (fun s x => f s x.2) = forEach l s f := by
  induction l generalizing k s with
  | nil => rfl
  | cons x l ih => exact ih (k + 1) _

/-- Settles O15: the words of a whole frame in order, the refusals by length and by CRC, and what the bytes spell. -/
theorem writeFrames : Obligations.WriteFrames := by
  intro s p n a data crc lines up
  have steady := lines.steady
  have mapped : (data.map BitVec.toNat).length = data.length := List.length_map _
  have long : data.length = n.val + 1 → (data.map BitVec.toNat).length = n.val + 1 := mapped.trans
  have refused {c : Instr} {f : Fld} {u : State} (mem : f = F.HPS_STATUS_CRC_ERR ∨ f = F.HPS_STATUS_LEN_ERR) (run : exec c s = answer s u)
      (eq : u = frameFail s p f) : Answers c s (frameFail s p f) := answers_of (eq ▸ run) (frameFail_steady steady p mem)
  refine ⟨fun len right => ?_, fun len right => ?_, ⟨fun len wrong => ?_, fun len wrong => ?_, fun len cs => ⟨?_, ?_⟩, ?_, ?_⟩, fun len cs => ?_⟩
  · have whole := writeFrame_whole (p := p) (cmd := 2) up (long len) right fun _ => rfl
    have words := forEach_indexed_map BitVec.toNat (fun s i v => writeWord s p ((a.toNat + 4 * i) % 2 ^ 24) v) data 0 s
    exact congrArg (answer s) (whole.trans words)
  · have whole := writeFrame_whole (p := p) (cmd := 3) up (long len) right fun _ => rfl
    have words := forEach_indexed_map BitVec.toNat (fun s _ v => writeWord s p a.toNat v) data 0 s
    have fixed := forEach_indexed_snd (fun s x => writeWord s p a.toNat x.toNat) data 0 s
    exact congrArg (answer s) (whole.trans (words.trans fixed))
  · exact refused (c := .writeInc p n a data crc true) (Or.inl rfl) rfl (writeFrame_crc up (long len) wrong)
  · exact refused (c := .writeFix p n a data crc true) (Or.inl rfl) rfl (writeFrame_crc up (long len) wrong)
  · exact refused (c := .writeInc p n a data crc cs) (Or.inr rfl) rfl (writeFrame_length up (Or.inr (mapped ▸ len)))
  · exact refused (c := .writeFix p n a data crc cs) (Or.inr rfl) rfl (writeFrame_length up (Or.inr (mapped ▸ len)))
  · exact refused (c := .writeInc p n a data crc false) (Or.inr rfl) rfl (writeFrame_length up (Or.inl rfl))
  · exact refused (c := .writeFix p n a data crc false) (Or.inr rfl) rfl (writeFrame_length up (Or.inl rfl))
  · have whole : (cs && (wireWords (data.map BitVec.toNat)).length == 4 * (n.val + 1)) = cs := by
      rw [wireWords_length, long len, beq_self_eq_true, Bool.and_true]
    refine ⟨(frameCommand_eq p 2 n a _ crc cs).trans ?_, (frameCommand_eq p 3 n a _ crc cs).trans ?_⟩ <;>
      simp only [whole, frameWords_wireWords]

end Sys2Proof.Machine
end

section
/-!
PROOFS. Locks, claims and requests of CAN buffers (R311 to R314). Settles O46.
-/

namespace Sys2Proof.Machine

set_option Elab.async false

/-! ### The commands by owner, lock and request -/

section
variable {s : State} {p : HPort} {x b k v : Nat}

theorem bufWrite_refused (h : portOwns s p x b = false) : bufWrite s p x b k v = s.accErr p (bufAddr x b k) true .owner := by simp [bufWrite, h]
theorem bufWrite_rx (h : portOwns s p x b = true) (rx : bufTx s x b = false) : bufWrite s p x b k v = s := by simp [bufWrite, h, rx]
theorem bufWrite_busy (h : portOwns s p x b = true) (tx : bufTx s x b = true) (busy : bufPending s x b = true) :
    bufWrite s p x b k v = s.accErr p (bufAddr x b k) true .busy := by simp [bufWrite, h, tx, busy]
theorem bufWrite_idle (h : portOwns s p x b = true) (tx : bufTx s x b = true) (idle : bufPending s x b = false) :
    bufWrite s p x b k v = bufWord (claimBuf s p x b) x b k v := by simp [bufWrite, h, tx, idle]

theorem txReq_refused (h : portOwns s p x b = false) : txReq s p x b = s.accErr p (ctrlAddr x b) true .owner := by simp [txReq, h]
theorem txReq_rx (h : portOwns s p x b = true) (rx : bufTx s x b = false) : txReq s p x b = s := by simp [txReq, h, rx]
theorem txReq_monitoring (h : portOwns s p x b = true) (tx : bufTx s x b = true) (mode : canNormal s x = false) :
    txReq s p x b = s.accErr p (ctrlAddr x b) true .state_ := by simp [txReq, h, tx, mode]
theorem txReq_normal (h : portOwns s p x b = true) (tx : bufTx s x b = true) (mode : canNormal s x = true) :
    txReq s p x b = reqStart (claimBuf s p x b) x b := by simp [txReq, h, tx, mode]

theorem bufAbort_refused (h : portOwns s p x b = false) : bufAbort s p x b = s.accErr p (ctrlAddr x b) true .owner := by simp [bufAbort, h]
theorem bufAbort_rx (h : portOwns s p x b = true) (rx : bufTx s x b = false) : bufAbort s p x b = s := by simp [bufAbort, h, rx]
theorem bufAbort_idle (h : portOwns s p x b = true) (idle : bufPending s x b = false) : bufAbort s p x b = s := by simp [bufAbort, h, idle]
theorem bufAbort_pending (h : portOwns s p x b = true) (tx : bufTx s x b = true) (busy : bufPending s x b = true) :
    bufAbort s p x b = reqAbort s x b := by simp [bufAbort, h, tx, busy]

theorem lockRel_refused (h : portOwns s p x b = false) : lockRel s p x b = s.accErr p (ctrlAddr x b) true .owner := by simp [lockRel, h]
theorem lockRel_holder (h : portOwns s p x b = true) (held : portHolds s p x b = true) : lockRel s p x b = bufUnlock s x b := by simp [lockRel, h, held]
theorem lockRel_other (h : portOwns s p x b = true) (held : portHolds s p x b = false) : lockRel s p x b = s := by simp [lockRel, h, held]

theorem reenable_refused (h : portOwns s p x b = false) (ste : bufOwner s x b ≠ ownSte) :
    reenable s p x b = s.accErr p (ctrlAddr x b) true .owner := by simp [reenable, h, ste]
theorem reenable_open (h : portOwns s p x b = true ∨ bufOwner s x b = ownSte) : reenable s p x b
    = (s.set (F.CANx_BUFCTRLb_HELD.can x) b 0).updCan x (fun c => { c with clash := upd c.clash b (fun _ => 0) }) := by
  rcases h with h | h <;> simp [reenable, h, State.lower]

theorem bufRead0_lock (rx : bufTx s x b = false) (h : portOwns s p x b = true) (free : bufLocked s x b = false) :
    bufRead0 s p x b = bufLock s p x b := by simp [bufRead0, rx, h, free]
theorem bufRead0_refused (h : portOwns s p x b = false) : bufRead0 s p x b = s := by simp [bufRead0, h]
theorem bufRead0_locked (held : bufLocked s x b = true) : bufRead0 s p x b = s := by simp [bufRead0, held]
theorem bufRead17_holder (rx : bufTx s x b = false) (held : portHolds s p x b = true) : bufRead17 s p x b
    = ((bufUnlock s x b).lower (F.CANx_BUFCTRLb_FULL.can x) b).lower (F.CANx_BUFCTRLb_OVERRUN.can x) b := by simp [bufRead17, rx, held]
theorem bufRead17_other (held : portHolds s p x b = false) : bufRead17 s p x b = s := by simp [bufRead17, held]

/-- A claim is taken of a TX buffer by the owner field and the lock alone. -/
theorem claimBuf_tx (tx : bufTx s x b = true) :
    claimBuf s p x b = if bufOwner s x b = ownEither ∧ bufLocked s x b = false then bufLock s p x b else s := by
  simp [claimBuf, tx]

end

theorem held_claimBuf {s : State} {p : HPort} {x b : Nat} :
    (claimBuf s p x b).flag (F.CANx_BUFCTRLb_HELD.can x) b = s.flag (F.CANx_BUFCTRLb_HELD.can x) b := by
  have apart : (F.CANx_BUFCTRLb_HELD.can x).key b ≠ (F.CANx_BUFCTRLb_LOCKED.can x).key b
      ∧ (F.CANx_BUFCTRLb_HELD.can x).key b ≠ (F.CANx_BUFCTRLb_LOCK_OWNER.can x).key b := by
    simp only [Fld.key, Fld.can, Fld.offB, F.CANx_BUFCTRLb_HELD, F.CANx_BUFCTRLb_LOCKED, F.CANx_BUFCTRLb_LOCK_OWNER]
    omega
  unfold claimBuf
  split
  · simp only [bufLock, State.raise, State.flag, State.get_set_ne _ _ apart.1, State.get_set_ne _ _ apart.2]
  · rfl

section
variable {c : Instr} {s u : State}

/-- A command that a port writes, while the ports answer, settles what is written. -/
theorem gated_into {v : State} (up : s.portsUp = true) (run : exec c s = answer s (gate s u)) (eq : u = v) : exec c s = .next (settled s v) :=
  run.trans ((congrArg (answer s) ((gate_up up u).trans eq)).trans rfl)

theorem gated_nothing (up : s.portsUp = true) (lines : LinesFollow s) (run : exec c s = answer s (gate s u)) (eq : u = s) : Answers c s s :=
  answers_gated up (run.trans (congrArg (fun v => answer s (gate s v)) eq)) lines.steady

theorem gated_refused {p : HPort} {a : Nat} {k : AccKind} (up : s.portsUp = true) (lines : LinesFollow s) (run : exec c s = answer s (gate s u))
    (eq : u = s.accErr p a true k) : Answers c s (s.accErr p a true k) :=
  answers_gated up (run.trans (congrArg (fun v => answer s (gate s v)) eq)) (lines.steady.accErr _ _ _ _)

end

/-- Settles O46: each command by owner, direction, lock and request. -/
theorem canBufferAccess : Obligations.CanBufferAccess := by
  intro s p x b lines up X B refused into free claimed
  refine ⟨fun no => ⟨fun k v => ?_, ?_, ?_, ?_, fun ste => ?_, ?_⟩, fun own => ?_, fun rx => ⟨fun own free => ?_, fun locked => ?_, fun held => ?_, fun own => ⟨fun k v => ?_, ?_, ?_⟩⟩,
    fun other => ?_, fun own held => ?_, fun own other => ?_, fun own tx => ⟨fun busy => ⟨fun k v => ?_, fun started => ?_, fun waits => ?_⟩,
      fun idle => ⟨?_, fun k v => ⟨fun data => ?_, fun one => ?_, fun zero => ?_⟩⟩, fun monitoring => ?_, fun normal ready => ?_, fun normal stopped => ?_⟩, ?_⟩
  · exact gated_refused up lines rfl (bufWrite_refused no)
  · exact gated_refused up lines rfl (txReq_refused no)
  · exact gated_refused up lines rfl (bufAbort_refused no)
  · exact gated_refused up lines rfl (lockRel_refused no)
  · exact gated_refused up lines rfl (reenable_refused no ste)
  · exact gated_nothing up lines rfl (bufRead0_refused no)
  · exact gated_into up rfl (reenable_open own)
  · exact gated_into up rfl (bufRead0_lock rx own free)
  · exact gated_nothing up lines rfl (bufRead0_locked locked)
  · exact gated_into up rfl (bufRead17_holder rx held)
  · exact gated_nothing up lines rfl (bufWrite_rx own rx)
  · exact gated_nothing up lines rfl (txReq_rx own rx)
  · exact gated_nothing up lines rfl (bufAbort_rx own rx)
  · exact gated_nothing up lines rfl (bufRead17_other other)
  · exact gated_into up rfl (lockRel_holder own held)
  · exact gated_nothing up lines rfl (lockRel_other own other)
  · exact gated_refused up lines rfl (bufWrite_busy own tx busy)
  · exact gated_into up rfl ((bufAbort_pending own tx busy).trans (if_pos started))
  · exact gated_into up rfl ((bufAbort_pending own tx busy).trans (if_neg waits))
  · exact gated_nothing up lines rfl (bufAbort_idle own idle)
  · exact gated_into up rfl (by rw [bufWrite_idle own tx idle, claimBuf_tx tx, bufWord, if_neg (by omega), if_neg (by omega)]; rfl)
  · exact gated_into up rfl (by rw [bufWrite_idle own tx idle, claimBuf_tx tx, one]; rfl)
  · exact gated_into up rfl (by rw [bufWrite_idle own tx idle, claimBuf_tx tx, zero]; rfl)
  · exact gated_refused up lines rfl (txReq_monitoring own tx monitoring)
  · exact gated_into up rfl (by rw [txReq_normal own tx normal, reqStart, held_claimBuf, ready, claimBuf_tx tx]; rfl)
  · exact gated_into up rfl (by rw [txReq_normal own tx normal, reqStart, held_claimBuf, stopped, claimBuf_tx tx]; rfl)
  · exact gated_into up rfl rfl

end Sys2Proof.Machine
end

section
/-!
PROOFS. Test pulses of a store without output ports (R287). Refutes O44.
-/

namespace Sys2Proof.Machine

set_option Elab.async false

/-- Tick 5 of cycle 880 of a driving unit: SOUT11 is enabled, demanded and closed, PULSE_LEN is 10 and PERIOD 1, so that its pulse is due;
a fabric clock runs, in which the demands stand. The list of the output ports is empty. -/
def portless : State :=
  let s := { State.reset with
    regs := [], boot := { State.reset.boot with stage := 5 }, cycle := 880, now := 52800005
    sio := { State.reset.sio with nextSample := 8801, outs := [] }
    spu := { State.reset.spu with grantEnd := 60000000 }
    ext := { State.reset.ext with intlkIn := false, lowSince := 0 }
    fab := { State.reset.fab with clockAt := 26400002, clock := [default] } }
  let s := ((s.set F.DEV_STATE_STATE 0 4).set F.DEV_STATE_ROLE 0 1).set F.CRU_CLK_PLL_LOCK 0 1
  let s := ((s.set F.SIO_OUTk_CFG_EN 11 1).set F.SIO_OUTk_CFG_PULSE_LEN 11 10).set F.SIO_PULSE_CFG_PERIOD 0 1
  let s := s.set F.FAB_OUTDEM_SOUT 0 (2 ^ 11)
  s.putLines (computeLines s)

theorem portless_follows : LinesFollow portless := by
  unfold LinesFollow
  decide +kernel

theorem portless_due : pulseDue portless 11 = true ∧ (portless.outPort 11).pulse = none
    ∧ (portless.outPort 11).closeAt ≤ portless.cycleStart ∧ (portless.outPort 11).pulsed ≠ portless.cycle + 1 := by
  decide +kernel

/-- The pulse finds no port to stand in: the switch stays closed. -/
theorem portless_closed : switchClosed (settled portless (pulseStart portless 11)) 11 = true := by
  decide +kernel

/-- Refutes O44: without an output port in the list a pulse that is due is kept nowhere, and its switch stays closed, where the statement has
it open. No step shortens the list of twelve ports, but the statement has no premise that it is whole. -/
theorem not_testPulsesAndClears : ¬Obligations.TestPulsesAndClears := by
  intro all
  obtain ⟨due, idle, since, first⟩ := portless_due
  obtain ⟨starts, -⟩ := all portless 11 portless_follows
  obtain ⟨t, run, opened, -⟩ := starts due idle since first
  have answered : exec (.testPulse 11) portless = .next (settled portless (pulseStart portless 11)) := rfl
  have same : settled portless (pulseStart portless 11) = t := Host.Outcome.next.inj (answered.symm.trans run)
  have closed : switchClosed t 11 = true := (congrArg (switchClosed · 11) same).symm.trans portless_closed
  exact Bool.false_ne_true (opened.symm.trans closed)

end Sys2Proof.Machine
end

section
/-!
PROOFS. Received frames and a receive counter above its field (R316). Refutes O47.
-/

namespace Sys2Proof.Machine

set_option Elab.async false

/-- An OPERATIONAL unit whose first CAN controller is in normal mode and error active; the cell of its receive error counter holds 200,
which seven bits do not hold. -/
def recWide : State :=
  let s := { State.reset with
    regs := [((F.CANx_ERR_REC.can 0).key 0, 200)], boot := { State.reset.boot with stage := 5 }, cycle := 7, now := 420000
    sio := { State.reset.sio with nextSample := 71 } }
  let s := ((s.set F.DEV_STATE_STATE 0 4).set F.DEV_STATE_ROLE 0 1).set F.CRU_CLK_PLL_LOCK 0 1
  let s := ((s.set (F.CANx_CFG_EN.can 0) 0 1).set (F.CANx_NBT_NTSEG1.can 0) 0 62).set (F.CANx_NBT_NTSEG2.can 0) 0 15
  let s := (s.set (F.CANx_DBT_DTSEG1.can 0) 0 14).set (F.CANx_DBT_DTSEG2.can 0) 0 3
  s.putLines (computeLines s)

/-- A frame that no filter takes. -/
def strayFrame : CanFrame := ⟨0, false, false, false, false, false, 1, [1]⟩

theorem recWide_follows : LinesFollow recWide := by
  unfold LinesFollow
  decide +kernel

theorem recWide_receives : canNormal recWide 0 = true ∧ canState recWide 0 = 0 ∧ firstFilter recWide 0 strayFrame = none
    ∧ 0 < recWide.get (F.CANx_ERR_REC.can 0) ∧ recWide.flag (F.CANx_ERR_RP.can 0) = false ∧ tecOf recWide 0 < 128 := by
  decide +kernel

theorem recWide_count : recWide.get (F.CANx_ERR_REC.can 0) = 200 := by decide +kernel

/-- A counter that falls from above 127 comes to stand between 119 and 127, whatever value the controller takes. -/
theorem recWide_falls : ∀ m < 9, (settled recWide (errState recWide 0 0 (119 + m)).fresh).get (F.CANx_ERR_REC.can 0) = 119 + m := by
  decide +kernel

theorem recWide_received : rxGood recWide 0 = (errState recWide 0 0 (119 + Config.recAfterPassive recWide.freeCtr % 9)).fresh := by
  obtain ⟨normal, -⟩ := recWide_receives
  have rec_ : recOf recWide 0 = 200 := by decide +kernel
  have tec : tecOf recWide 0 = 0 := by decide +kernel
  rw [rxGood, normal, rec_, tec]
  rfl

theorem recWide_stored : exec (.canFrameReceived 0 strayFrame) recWide = .next (settled recWide (rxGood recWide 0)) := by
  have stays : canReceive recWide 0 strayFrame = rxGood recWide 0 := by
    obtain ⟨normal, up, stray, -⟩ := recWide_receives
    have live : canLive recWide 0 = true := by decide +kernel
    rw [canReceive, live, canStore, stray]
    rfl
  exact congrArg (answer recWide) stays

/-- Refutes O47: a receive counter whose cell holds 200 falls to a value of 119 to 127, as every counter above 127 does, where the statement
has it fall by one to 199. `State.set` leaves no cell above its field's width, but the statement has no premise that the register store is
of that form. -/
theorem not_canFrames : ¬Obligations.CanFrames := by
  intro all
  obtain ⟨frames, -⟩ := all recWide 0 recWide_follows
  obtain ⟨-, -, -, -, falls⟩ := frames strayFrame
  obtain ⟨normal, active, stray, counts, below, transmits⟩ := recWide_receives
  obtain ⟨t, run, one, -⟩ := falls normal active stray counts below transmits
  have same : settled recWide (rxGood recWide 0) = t := Host.Outcome.next.inj (recWide_stored.symm.trans run)
  have value := recWide_falls (Config.recAfterPassive recWide.freeCtr % 9) (Nat.mod_lt _ (by decide))
  rw [← recWide_received, same] at value
  have fallen : t.get (F.CANx_ERR_REC.can 0) = 199 := one.trans (congrArg (· - 1) recWide_count)
  omega

end Sys2Proof.Machine
end

section
/-!
PROOFS. Channels of the check-value unit (R322 to R327): what a running register holds, and each command by owner and computation. Settles
O49.
-/

namespace Sys2Proof.Machine

set_option Elab.async false

/-! ### The running register (R323) -/

theorem crcBit_lt {w poly : Nat} (p : poly < 2 ^ w) (reg : Nat) (b : Bool) : crcBit w poly reg b < 2 ^ w := by
  have sh : reg * 2 % 2 ^ w < 2 ^ w := Nat.mod_lt _ (Nat.two_pow_pos w)
  unfold crcBit
  dsimp only
  split
  · exact Nat.xor_lt_two_pow sh p
  · exact sh

theorem foldl_lt {α : Type} {f : Nat → α → Nat} {lim : Nat} (step : ∀ r x, r < lim → f r x < lim) (xs : List α) {r : Nat} (lt : r < lim) :
    xs.foldl f r < lim := by
  induction xs generalizing r with
  | nil => exact lt
  | cons x xs ih => exact ih (step r x lt)

theorem cvuByte_lt {w poly reg : Nat} (p : poly < 2 ^ w) (refin : Bool) (b : Byte) (r : reg < 2 ^ w) : cvuByte w poly refin reg b < 2 ^ w :=
  foldl_lt (fun r x _ => crcBit_lt p r x) _ r

/-! ### Fields of a channel -/

/-- The fields that the commands of a channel write. -/
def channelFields : List Fld :=
  [F.CVU_CHn_STAT_ACTIVE, F.CVU_CHn_STAT_MATCH, F.CVU_CHn_STAT_MISMATCH, F.CVU_CHn_STAT_CLAIM, F.CVU_CHn_STAT_ERR, F.CVU_CHn_STAT_BYTES,
    F.CVU_CHn_CTX_CTX, F.CVU_CHn_RESULT_RESULT, F.CVU_CHn_ALIVE_ALIVE_CNT, F.CVU_STATUS_DONE, F.CVU_STATUS_MISMATCH]

theorem channelKeys : ∀ f ∈ channelFields, ∀ n < 16, drivesSource (f.key n) = false ∧ quietKey (f.key n) = true := by decide +kernel

theorem DriveSteady.channel {s : State} (h : DriveSteady s) {f : Fld} (mem : f ∈ channelFields) {n : Nat} (lt : n < 16) (v : Nat) :
    DriveSteady (s.set f n v) :=
  h.set (channelKeys f mem n lt).1

/-- Fields at different bits of their channels are apart. -/
theorem get_set_channel (s : State) {f g : Fld} (hf : 512 ∣ f.stride) (hg : 512 ∣ g.stride) (ne : g.bit % 512 ≠ f.bit % 512) (i j v : Nat) :
    (s.set f i v).get g j = s.get g j := by
  refine State.get_set_ne s v fun e => ne ?_
  obtain ⟨a, ha⟩ := hf
  obtain ⟨b, hb⟩ := hg
  have mods := congrArg (· % 512) e
  simpa only [Fld.key, ha, hb, Nat.mul_assoc, Nat.add_mul_mod_self_left] using mods

/-! ### START (R324) -/

/-- The guard bytes that a START absorbs. -/
def guardBytes (s : State) (n : Nat) : List Byte :=
  let g := s.get F.CVU_CHn_CFG_GUARD n
  (if g = 2 ∨ g = 3 then leBytes 4 (s.get F.CVU_CHn_FOLD_VALUE n) else []) ++ (if g = 1 ∨ g = 3 then leBytes 2 (s.get F.CVU_CHn_ALIVE_ALIVE_CNT n) else [])

/-- Bytes taken into a register by the parameters of a channel. -/
def channelFold (s : State) (n : Nat) (bs : List Byte) (reg : Nat) : Nat :=
  bs.foldl (cvuByte (s.get F.CVU_CHn_CFG_WIDTH n) (s.get F.CVU_CHn_POLY_VALUE n) (s.flag F.CVU_CHn_CFG_REFIN n)) reg

/-- A START without its guard: INIT is the running register, no byte is counted. -/
def channelOpened (s : State) (n : Nat) : State :=
  let s := (s.set F.CVU_CHn_CTX_CTX n (s.get F.CVU_CHn_INIT_VALUE n)).raise F.CVU_CHn_STAT_ACTIVE n
  let s := (s.lower F.CVU_CHn_STAT_MATCH n).lower F.CVU_CHn_STAT_MISMATCH n
  (s.lower F.CVU_CHn_STAT_ERR n).set F.CVU_CHn_STAT_BYTES n 0

section
variable {s : State} {n : Nat}

theorem cvuBad_false (h : cvuBad s n = false) : s.get F.CVU_CHn_CFG_WIDTH n ≠ 0 ∧ s.get F.CVU_CHn_CFG_WIDTH n ≤ 32
    ∧ s.get F.CVU_CHn_POLY_VALUE n < 2 ^ s.get F.CVU_CHn_CFG_WIDTH n ∧ s.get F.CVU_CHn_INIT_VALUE n < 2 ^ s.get F.CVU_CHn_CFG_WIDTH n := by
  simpa [cvuBad, and_assoc, Nat.not_le, Nat.not_lt] using h

theorem channelFold_lt (h : cvuBad s n = false) (bs : List Byte) {reg : Nat} (lt : reg < 2 ^ s.get F.CVU_CHn_CFG_WIDTH n) :
    channelFold s n bs reg < 2 ^ 32 := by
  obtain ⟨-, wide, poly, -⟩ := cvuBad_false h
  exact (foldl_lt (fun r b => cvuByte_lt poly _ b) bs lt).trans_le (Nat.pow_le_pow_right (by omega) wide)

/-- What absorbing leaves alone: every field but the running register. -/
theorem cvuAbsorb_get {f : Fld} (hf : 512 ∣ f.stride) (ne : f.bit % 512 ≠ F.CVU_CHn_CTX_CTX.bit % 512) (bs : List Byte) (j : Nat) :
    (cvuAbsorb s n bs).get f j = s.get f j :=
  get_set_channel s (by decide) hf ne n j _

theorem cvuAbsorb_ctx (bs : List Byte) : (cvuAbsorb s n bs).get F.CVU_CHn_CTX_CTX n = channelFold s n bs (s.get F.CVU_CHn_CTX_CTX n) % 2 ^ 32 :=
  State.get_set_self _ _ _ _

theorem cvuAbsorb_other (bs : List Byte) {m : Nat} (ne : m ≠ n) : (cvuAbsorb s n bs).get F.CVU_CHn_CTX_CTX m = s.get F.CVU_CHn_CTX_CTX m :=
  get_set_index s ne (by decide) _

theorem cvuBegin_eq (s : State) (n : Nat) : cvuBegin s n =
    let g := s.get F.CVU_CHn_CFG_GUARD n
    let o := channelOpened s n
    let a := if g = 2 ∨ g = 3 then cvuAbsorb o n (leBytes 4 (o.get F.CVU_CHn_FOLD_VALUE n)) else o
    if g = 1 ∨ g = 3 then cvuAbsorb a n (leBytes 2 (a.get F.CVU_CHn_ALIVE_ALIVE_CNT n)) else a := rfl

theorem channelOpened_get {f : Fld} (hf : 512 ∣ f.stride)
    (ne : ∀ g ∈ [F.CVU_CHn_CTX_CTX, F.CVU_CHn_STAT_ACTIVE, F.CVU_CHn_STAT_MATCH, F.CVU_CHn_STAT_MISMATCH, F.CVU_CHn_STAT_ERR, F.CVU_CHn_STAT_BYTES],
      f.bit % 512 ≠ g.bit % 512) (j : Nat) : (channelOpened s n).get f j = s.get f j := by
  simp only [List.forall_mem_cons] at ne
  obtain ⟨ctx, active, match_, mismatch, err, bytes, -⟩ := ne
  unfold channelOpened
  rw [get_set_channel _ (by decide) hf bytes, State.lower, get_set_channel _ (by decide) hf err, State.lower, get_set_channel _ (by decide) hf mismatch,
    State.lower, get_set_channel _ (by decide) hf match_, State.raise, get_set_channel _ (by decide) hf active, get_set_channel _ (by decide) hf ctx]

/-- A field that no START of the channel writes but the guard's register. -/
theorem cvuBegin_get {f : Fld} (hf : 512 ∣ f.stride) (ne : f.bit % 512 ≠ F.CVU_CHn_CTX_CTX.bit % 512) (j : Nat) :
    (cvuBegin s n).get f j = (channelOpened s n).get f j := by
  rw [cvuBegin_eq]
  dsimp only
  split <;> split <;> simp only [cvuAbsorb_get hf ne]

theorem cvuBegin_otherCtx {m : Nat} (ne : m ≠ n) : (cvuBegin s n).get F.CVU_CHn_CTX_CTX m = (channelOpened s n).get F.CVU_CHn_CTX_CTX m := by
  rw [cvuBegin_eq]
  dsimp only
  split <;> split <;> simp only [cvuAbsorb_other _ ne]

theorem channelOpened_fold (bs : List Byte) (reg : Nat) : channelFold (channelOpened s n) n bs reg = channelFold s n bs reg := by
  unfold channelFold State.flag
  rw [channelOpened_get (by decide) (by decide), channelOpened_get (by decide) (by decide), channelOpened_get (by decide) (by decide)]

theorem cvuAbsorb_fold (as bs : List Byte) (reg : Nat) : channelFold (cvuAbsorb s n as) n bs reg = channelFold s n bs reg := by
  unfold channelFold State.flag
  rw [cvuAbsorb_get (by decide) (by decide), cvuAbsorb_get (by decide) (by decide), cvuAbsorb_get (by decide) (by decide)]

theorem channelOpened_ctx : (channelOpened s n).get F.CVU_CHn_CTX_CTX n = s.get F.CVU_CHn_INIT_VALUE n % 2 ^ 32 := by
  unfold channelOpened State.lower State.raise
  simp (disch := decide) only [get_set_channel, State.get_set_self, F.CVU_CHn_CTX_CTX]

/-- The running register after a START: the guard taken into INIT. -/
theorem cvuBegin_ctx (h : cvuBad s n = false) :
    (cvuBegin s n).get F.CVU_CHn_CTX_CTX n = channelFold s n (guardBytes s n) (s.get F.CVU_CHn_INIT_VALUE n) := by
  obtain ⟨-, wide, -, init⟩ := cvuBad_false h
  have start : s.get F.CVU_CHn_INIT_VALUE n % 2 ^ 32 = s.get F.CVU_CHn_INIT_VALUE n :=
    Nat.mod_eq_of_lt (init.trans_le (Nat.pow_le_pow_right (by omega) wide))
  have keeps (bs : List Byte) : channelFold s n bs (s.get F.CVU_CHn_INIT_VALUE n) % 2 ^ 32 = channelFold s n bs (s.get F.CVU_CHn_INIT_VALUE n) :=
    Nat.mod_eq_of_lt (channelFold_lt h bs init)
  have both (as bs : List Byte) (reg : Nat) : channelFold s n bs (channelFold s n as reg) = channelFold s n (as ++ bs) reg := List.foldl_append.symm
  rw [cvuBegin_eq]
  unfold guardBytes
  dsimp only
  rw [channelOpened_get (by decide) (by decide)]
  split <;> split
  · rw [cvuAbsorb_ctx, cvuAbsorb_fold, channelOpened_fold, cvuAbsorb_ctx, channelOpened_fold, channelOpened_ctx, start, keeps, both, keeps,
      cvuAbsorb_get (by decide) (by decide), channelOpened_get (by decide) (by decide)]
  · rw [cvuAbsorb_ctx, channelOpened_fold, channelOpened_ctx, start, keeps, List.nil_append, channelOpened_get (by decide) (by decide)]
  · rw [cvuAbsorb_ctx, channelOpened_fold, channelOpened_ctx, start, keeps, List.append_nil]
  · exact channelOpened_ctx.trans start

/-! ### The commands by owner and computation -/

variable {p : HPort} {off k v : Nat}

theorem cvuStart_refused (no : cvuOwns s p n = false) : cvuStart s p n = s.accErr p (cvuAddr n 0x118) true .owner := by simp [cvuStart, no]
theorem cvuStart_busy (own : cvuOwns s p n = true) (busy : cvuActive s n = true) :
    cvuStart s p n = s.accErr p (cvuAddr n 0x118) true .busy := by simp [cvuStart, own, busy]
theorem cvuStart_bad (own : cvuOwns s p n = true) (idle : cvuActive s n = false) (bad : cvuBad s n = true) :
    cvuStart s p n = s.set F.CVU_CHn_STAT_ERR n 1 := by simp [cvuStart, own, idle, bad, State.raise]
theorem cvuData_refused (no : cvuOwns s p n = false) : cvuData s p n off k v = s.accErr p (cvuAddr n off) true .owner := by simp [cvuData, no]
theorem cvuData_busy (own : cvuOwns s p n = true) (idle : cvuActive s n = false) :
    cvuData s p n off k v = s.accErr p (cvuAddr n off) true .busy := by simp [cvuData, own, idle]
theorem cvuCtx_refused (no : cvuOwns s p n = false) : cvuCtx s p n v = s.accErr p (cvuAddr n 0x120) true .owner := by simp [cvuCtx, no]
theorem cvuCtx_owner (own : cvuOwns s p n = true) :
    cvuCtx s p n v = s.set F.CVU_CHn_CTX_CTX n (v % 2 ^ s.get F.CVU_CHn_CFG_WIDTH n) := by simp [cvuCtx, own]
theorem cvuFinish_refused (no : cvuOwns s p n = false) : cvuFinish s p n = s.accErr p (cvuAddr n 0x118) true .owner := by simp [cvuFinish, no]
theorem cvuFinish_idle (own : cvuOwns s p n = true) (idle : cvuActive s n = false) : cvuFinish s p n = s := by simp [cvuFinish, own, idle]
theorem cvuFinish_active (own : cvuOwns s p n = true) (busy : cvuActive s n = true) : cvuFinish s p n = cvuEnd s n := by simp [cvuFinish, own, busy]
theorem cvuRelease_refused (no : cvuOwns s p n = false) : cvuRelease s p n = s.accErr p (cvuAddr n 0x118) true .owner := by simp [cvuRelease, no]
theorem cvuRelease_owner (own : cvuOwns s p n = true) :
    cvuRelease s p n = (s.set F.CVU_CHn_STAT_ACTIVE n 0).set F.CVU_CHn_STAT_CLAIM n 3 := by simp [cvuRelease, own, State.lower]

theorem satAdd_min (w a d : Nat) : satAdd w a d = min (a + d) (2 ^ w - 1) := by
  unfold satAdd
  split <;> omega

theorem cvuData_active (own : cvuOwns s p n = true) (busy : cvuActive s n = true) : cvuData s p n off k v =
    (s.set F.CVU_CHn_CTX_CTX n (channelFold s n (leBytes k v) (s.get F.CVU_CHn_CTX_CTX n))).set F.CVU_CHn_STAT_BYTES n
      (min (s.get F.CVU_CHn_STAT_BYTES n + (leBytes k v).length) 65535) := by
  have fed : cvuData s p n off k v = cvuFeed s n (leBytes k v) := by simp [cvuData, own, busy]
  rw [fed, cvuFeed, satAdd_min]
  rfl

/-- A START that runs: the claim of an EITHER channel, then INIT and the guard. -/
theorem cvuStart_runs (own : cvuOwns s p n = true) (idle : cvuActive s n = false) (good : cvuBad s n = false) : cvuStart s p n
    = cvuBegin (if s.get F.CVU_CHn_CFG_OWNER n = 2 then s.set F.CVU_CHn_STAT_CLAIM n p.toNat else s) n := by
  simp [cvuStart, own, idle, good]

/-! ### FINISH (R324) -/

/-- The result that a FINISH forms. -/
def channelResult (s : State) (n : Nat) : Nat :=
  cvuOut (s.get F.CVU_CHn_CFG_WIDTH n) (s.flag F.CVU_CHn_CFG_REFOUT n) (s.flag F.CVU_CHn_CFG_INV n) (s.get F.CVU_CHn_CTX_CTX n)

theorem testBit_putBit_self (v i : Nat) : (putBit v i true).testBit i = true := by
  unfold putBit
  split
  · assumption
  · rename_i off
    rw [if_pos rfl, Nat.add_comm, Nat.testBit_two_pow_add_eq, Bool.eq_false_iff.mpr off]
    rfl

/-- A bit of a number put into a field that holds it. -/
theorem bitAt_putBit_mod {v i w : Nat} (lt : i < w) : bitAt (putBit v i true % 2 ^ w) i = true := by
  rw [bitAt, Nat.testBit_mod_two_pow, testBit_putBit_self, decide_eq_true lt]
  rfl

/-- A FINISH without its alive counter. -/
def channelClosed (s : State) (n : Nat) : State :=
  let cmp := s.flag F.CVU_CHn_CFG_CMP_EN n
  let ok := channelResult s n == s.get F.CVU_CHn_EXPECT_VALUE n
  let s := (s.set F.CVU_CHn_RESULT_RESULT n (channelResult s n)).lower F.CVU_CHn_STAT_ACTIVE n
  let s := (s.setFlag F.CVU_CHn_STAT_MATCH n (cmp && ok)).setFlag F.CVU_CHn_STAT_MISMATCH n (cmp && !ok)
  let s := s.set F.CVU_STATUS_DONE 0 (putBit (s.get F.CVU_STATUS_DONE) n true)
  if cmp && !ok then s.set F.CVU_STATUS_MISMATCH 0 (putBit (s.get F.CVU_STATUS_MISMATCH) n true) else s

theorem cvuEnd_eq (s : State) (n : Nat) : cvuEnd s n =
    let cmp := s.flag F.CVU_CHn_CFG_CMP_EN n
    let ok := channelResult s n == s.get F.CVU_CHn_EXPECT_VALUE n
    let g := s.get F.CVU_CHn_CFG_GUARD n
    let c := channelClosed s n
    if (g = 1 ∨ g = 3) ∧ (!c.flag F.CVU_CHn_CFG_ALIVE_ADV n ∨ (cmp && ok)) then c.bumpWrap F.CVU_CHn_ALIVE_ALIVE_CNT n else c := rfl

theorem channelClosed_get {f : Fld} (hf : 512 ∣ f.stride)
    (ne : ∀ g ∈ [F.CVU_CHn_RESULT_RESULT, F.CVU_CHn_STAT_ACTIVE, F.CVU_CHn_STAT_MATCH, F.CVU_CHn_STAT_MISMATCH, F.CVU_STATUS_DONE, F.CVU_STATUS_MISMATCH],
      f.bit % 512 ≠ g.bit % 512) (j : Nat) : (channelClosed s n).get f j = s.get f j := by
  simp only [List.forall_mem_cons] at ne
  obtain ⟨result, active, match_, mismatch, done, miss, -⟩ := ne
  unfold channelClosed
  dsimp only
  split
  all_goals
    simp only [get_set_channel _ (by decide) hf miss, get_set_channel _ (by decide) hf done, State.setFlag, State.lower,
      get_set_channel _ (by decide) hf mismatch, get_set_channel _ (by decide) hf match_, get_set_channel _ (by decide) hf active,
      get_set_channel _ (by decide) hf result]

theorem channelClosed_shows (lt : n < 16) :
    let t := channelClosed s n
    let cmp := s.flag F.CVU_CHn_CFG_CMP_EN n
    let ok := decide (channelResult s n = s.get F.CVU_CHn_EXPECT_VALUE n)
    t.get F.CVU_CHn_RESULT_RESULT n = channelResult s n % 2 ^ 32 ∧ t.get F.CVU_CHn_STAT_ACTIVE n = 0
      ∧ t.get F.CVU_CHn_STAT_MATCH n = b2n (cmp && ok) ∧ t.get F.CVU_CHn_STAT_MISMATCH n = b2n (cmp && !ok)
      ∧ bitAt (t.get F.CVU_STATUS_DONE) n = true ∧ (cmp = true → ok = false → bitAt (t.get F.CVU_STATUS_MISMATCH) n = true) := by
  have one (b : Bool) : b2n b % 2 = b2n b := by cases b <;> rfl
  have okay : (channelResult s n == s.get F.CVU_CHn_EXPECT_VALUE n) = decide (channelResult s n = s.get F.CVU_CHn_EXPECT_VALUE n) := rfl
  unfold channelClosed
  dsimp only
  rw [okay]
  generalize decide (channelResult s n = s.get F.CVU_CHn_EXPECT_VALUE n) = ok
  have done (v : Nat) : bitAt (putBit v n true % 2 ^ 16) n = true := bitAt_putBit_mod lt
  split
  · simp (disch := decide) only [State.setFlag, State.lower, get_set_channel, State.get_set_self, F.CVU_CHn_RESULT_RESULT, F.CVU_CHn_STAT_ACTIVE,
      F.CVU_CHn_STAT_MATCH, F.CVU_CHn_STAT_MISMATCH, F.CVU_STATUS_DONE, F.CVU_STATUS_MISMATCH, pow_one, one, done, Nat.zero_mod, implies_true, and_true]
  · rename_i hit
    simp (disch := decide) only [State.setFlag, State.lower, get_set_channel, State.get_set_self, F.CVU_CHn_RESULT_RESULT, F.CVU_CHn_STAT_ACTIVE,
      F.CVU_CHn_STAT_MATCH, F.CVU_CHn_STAT_MISMATCH, F.CVU_STATUS_DONE, pow_one, one, done, Nat.zero_mod, true_and]
    exact fun cmp no => absurd (by rw [cmp, no]; rfl) hit

theorem cvuEnd_get {f : Fld} (hf : 512 ∣ f.stride) (ne : f.bit % 512 ≠ F.CVU_CHn_ALIVE_ALIVE_CNT.bit % 512) (j : Nat) :
    (cvuEnd s n).get f j = (channelClosed s n).get f j := by
  rw [cvuEnd_eq]
  dsimp only
  split
  · exact get_set_channel _ (by decide) hf ne n j _
  · rfl

theorem cvuEnd_alive (s : State) (n : Nat) :
    let g := s.get F.CVU_CHn_CFG_GUARD n
    let ok := decide (channelResult s n = s.get F.CVU_CHn_EXPECT_VALUE n)
    (cvuEnd s n).get F.CVU_CHn_ALIVE_ALIVE_CNT n =
      if (g = 1 ∨ g = 3) ∧ (s.flag F.CVU_CHn_CFG_ALIVE_ADV n = false ∨ (s.flag F.CVU_CHn_CFG_CMP_EN n && ok) = true)
      then (s.get F.CVU_CHn_ALIVE_ALIVE_CNT n + 1) % 2 ^ F.CVU_CHn_ALIVE_ALIVE_CNT.width else s.get F.CVU_CHn_ALIVE_ALIVE_CNT n := by
  have count : (channelClosed s n).get F.CVU_CHn_ALIVE_ALIVE_CNT n = s.get F.CVU_CHn_ALIVE_ALIVE_CNT n := channelClosed_get (by decide) (by decide) n
  have adv : (channelClosed s n).flag F.CVU_CHn_CFG_ALIVE_ADV n = s.flag F.CVU_CHn_CFG_ALIVE_ADV n :=
    congrArg (· != 0) (channelClosed_get (by decide) (by decide) n)
  dsimp only
  rw [cvuEnd_eq, apply_ite (fun t : State => t.get F.CVU_CHn_ALIVE_ALIVE_CNT n), State.bumpWrap, State.get_set_self, count, adv]
  simp only [Bool.not_eq_true']
  rfl

/-! ### The claim of an EITHER channel (R322) -/

/-- A channel claimed by the port that starts it. -/
def channelClaimed (s : State) (p : HPort) (n : Nat) : State :=
  if s.get F.CVU_CHn_CFG_OWNER n = 2 then s.set F.CVU_CHn_STAT_CLAIM n p.toNat else s

theorem channelClaimed_get {f : Fld} (hf : 512 ∣ f.stride) (ne : f.bit % 512 ≠ F.CVU_CHn_STAT_CLAIM.bit % 512) (j : Nat) :
    (channelClaimed s p n).get f j = s.get f j := by
  unfold channelClaimed
  split
  · exact get_set_channel s (by decide) hf ne n j _
  · rfl

theorem channelClaimed_claim : (channelClaimed s p n).get F.CVU_CHn_STAT_CLAIM n
    = if s.get F.CVU_CHn_CFG_OWNER n = 2 then p.toNat else s.get F.CVU_CHn_STAT_CLAIM n := by
  have port : p.toNat % 2 ^ F.CVU_CHn_STAT_CLAIM.width = p.toNat := by cases p <;> rfl
  unfold channelClaimed
  split
  · rw [State.get_set_self, port]
  · rfl

theorem channelClaimed_bad : cvuBad (channelClaimed s p n) n = cvuBad s n := by
  unfold cvuBad
  simp (disch := decide) only [channelClaimed_get]

theorem channelClaimed_ctx : channelFold (channelClaimed s p n) n (guardBytes (channelClaimed s p n) n) ((channelClaimed s p n).get F.CVU_CHn_INIT_VALUE n)
    = channelFold s n (guardBytes s n) (s.get F.CVU_CHn_INIT_VALUE n) := by
  unfold channelFold guardBytes State.flag
  simp (disch := decide) only [channelClaimed_get]

/-- The rest of what a START shows. -/
theorem channelOpened_shows : (channelOpened s n).get F.CVU_CHn_STAT_ACTIVE n = 1 ∧ (channelOpened s n).get F.CVU_CHn_STAT_ERR n = 0
    ∧ (channelOpened s n).get F.CVU_CHn_STAT_BYTES n = 0 := by
  unfold channelOpened State.raise State.lower
  simp (disch := decide) only [get_set_channel, State.get_set_self, F.CVU_CHn_STAT_ACTIVE, F.CVU_CHn_STAT_ERR, F.CVU_CHn_STAT_BYTES, Nat.zero_mod, and_true]
  rfl

/-- The other channels stay. -/
theorem channelOpened_other {m : Nat} (ne : m ≠ n) : (channelOpened s n).get F.CVU_CHn_CTX_CTX m = s.get F.CVU_CHn_CTX_CTX m
    ∧ (channelOpened s n).get F.CVU_CHn_STAT_ACTIVE m = s.get F.CVU_CHn_STAT_ACTIVE m := by
  unfold channelOpened State.raise State.lower
  constructor
  · simp (disch := decide) only [get_set_channel]
    exact get_set_index s ne (by decide) _
  · simp (disch := decide) only [get_set_channel]
    rw [get_set_index _ ne (by decide), get_set_channel _ (by decide) (by decide) (by decide)]

/-! ### The drive through START and FINISH -/

theorem cvuBegin_steady (d : DriveSteady s) (lt : n < 16) : DriveSteady (cvuBegin s n) := by
  have ctx {t : State} (d : DriveSteady t) (v : Nat) : DriveSteady (t.set F.CVU_CHn_CTX_CTX n v) := d.channel (by decide) lt v
  have opened : DriveSteady (channelOpened s n) := (((((ctx d _).channel (by decide) lt _).channel (by decide) lt _).channel (by decide) lt _).channel
    (by decide) lt _).channel (by decide) lt _
  rw [cvuBegin_eq]
  dsimp only
  split <;> split
  · exact ctx (ctx opened _) _
  · exact ctx opened _
  · exact ctx opened _
  · exact opened

theorem cvuEnd_steady (d : DriveSteady s) (lt : n < 16) : DriveSteady (cvuEnd s n) := by
  have closed : DriveSteady (channelClosed s n) := by
    have base := ((((d.channel (f := F.CVU_CHn_RESULT_RESULT) (by decide) lt (channelResult s n)).channel (f := F.CVU_CHn_STAT_ACTIVE) (by decide) lt 0).channel
      (f := F.CVU_CHn_STAT_MATCH) (by decide) lt (b2n (s.flag F.CVU_CHn_CFG_CMP_EN n && channelResult s n == s.get F.CVU_CHn_EXPECT_VALUE n))).channel
      (f := F.CVU_CHn_STAT_MISMATCH) (by decide) lt (b2n (s.flag F.CVU_CHn_CFG_CMP_EN n && !channelResult s n == s.get F.CVU_CHn_EXPECT_VALUE n)))
    have done := base.channel (f := F.CVU_STATUS_DONE) (n := 0) (by decide) (by decide)
    exact ((done _).channel (by decide) (by decide) _).ite (done _)
  rw [cvuEnd_eq]
  exact (closed.channel (by decide) lt _).ite closed

end

/-- Settles O49: each command by owner and computation; a START and a FINISH read field by field. -/
theorem checkValueChannels : Obligations.CheckValueChannels := by
  intro s p n lines up N w poly refin g refused
  have lt := n.isLt
  have steady := lines.steady
  have reads {t : State} (d : DriveSteady t) {f : Fld} (mem : f ∈ channelFields) {m : Nat} (lt : m < 16) : (settled s t).get f m = t.get f m :=
    settled_get_quiet d f m (channelKeys f mem m lt).2
  refine ⟨fun no => ⟨?_, ?_, ?_, fun v => ?_, fun v => ?_, fun v => ?_, fun v => ?_⟩, fun own => ⟨fun v => ?_, ?_, fun busy => ?_, fun idle => ?_⟩⟩
  · exact gated_refused up lines rfl (cvuStart_refused no)
  · exact gated_refused up lines rfl (cvuFinish_refused no)
  · exact gated_refused up lines rfl (cvuRelease_refused no)
  · exact gated_refused up lines rfl (cvuCtx_refused no)
  · exact gated_refused up lines rfl (cvuData_refused no)
  · exact gated_refused up lines rfl (cvuData_refused no)
  · exact gated_refused up lines rfl (cvuData_refused no)
  · exact answers_gated up (congrArg (fun u => answer s (gate s u)) (cvuCtx_owner own)) (steady.channel (by decide) lt _)
  · exact answers_gated up (congrArg (fun u => answer s (gate s u)) (cvuRelease_owner own)) ((steady.channel (by decide) lt _).channel (by decide) lt _)
  · intro fed r ok
    have feeds (bs : List Byte) : DriveSteady (fed bs) := (steady.channel (by decide) lt _).channel (by decide) lt _
    refine ⟨gated_refused up lines rfl (cvuStart_busy own busy), fun v => ?_, fun v => ?_, fun v => ?_, ?_⟩
    · exact answers_gated up (congrArg (fun u => answer s (gate s u)) (cvuData_active own busy)) (feeds _)
    · exact answers_gated up (congrArg (fun u => answer s (gate s u)) (cvuData_active own busy)) (feeds _)
    · exact answers_gated up (congrArg (fun u => answer s (gate s u)) (cvuData_active own busy)) (feeds _)
    · have ends := cvuEnd_steady steady lt
      have get {f : Fld} (hf : 512 ∣ f.stride) (ne : f.bit % 512 ≠ F.CVU_CHn_ALIVE_ALIVE_CNT.bit % 512) (mem : f ∈ channelFields) {m : Nat} (lt : m < 16) :
          (settled s (cvuEnd s N)).get f m = (channelClosed s N).get f m := (reads ends mem lt).trans (cvuEnd_get hf ne m)
      obtain ⟨result, active, match_, mismatch, done, miss⟩ := channelClosed_shows (s := s) lt
      refine ⟨_, gated_into up rfl (cvuFinish_active own busy), (get (by decide) (by decide) (by decide) lt).trans result,
        (get (by decide) (by decide) (by decide) lt).trans active, (get (by decide) (by decide) (by decide) lt).trans match_,
        (get (by decide) (by decide) (by decide) lt).trans mismatch, ?_, fun cmp no => ?_, (reads ends (by decide) lt).trans (cvuEnd_alive s N)⟩
      · rw [get (by decide) (by decide) (by decide) (by decide)]
        exact done
      · rw [get (by decide) (by decide) (by decide) (by decide)]
        exact miss cmp no
  · refine ⟨gated_nothing up lines rfl (cvuFinish_idle own idle), fun v => gated_refused up lines rfl (cvuData_busy own idle),
      fun v => gated_refused up lines rfl (cvuData_busy own idle), fun v => gated_refused up lines rfl (cvuData_busy own idle), fun bad => ?_, fun good => ?_⟩
    · exact answers_gated up (congrArg (fun u => answer s (gate s u)) (cvuStart_bad own idle bad)) (steady.channel (by decide) lt _)
    · intro guard
      have claims : DriveSteady (channelClaimed s p N) := (steady.channel (by decide) lt _).ite steady
      have begins := cvuBegin_steady claims lt
      have get {f : Fld} (hf : 512 ∣ f.stride) (ne : f.bit % 512 ≠ F.CVU_CHn_CTX_CTX.bit % 512) (mem : f ∈ channelFields) {m : Nat} (lt : m < 16) :
          (settled s (cvuBegin (channelClaimed s p N) N)).get f m = (channelOpened (channelClaimed s p N) N).get f m :=
        (reads begins mem lt).trans (cvuBegin_get hf ne m)
      obtain ⟨active, err, bytes⟩ := channelOpened_shows (s := channelClaimed s p N) (n := N)
      refine ⟨_, gated_into up rfl (cvuStart_runs own idle good), (get (by decide) (by decide) (by decide) lt).trans active,
        (get (by decide) (by decide) (by decide) lt).trans err, (get (by decide) (by decide) (by decide) lt).trans bytes, ?_, ?_, fun m small ne => ⟨?_, ?_⟩⟩
      · exact (reads begins (by decide) lt).trans ((cvuBegin_ctx (channelClaimed_bad.trans good)).trans channelClaimed_ctx)
      · exact (get (by decide) (by decide) (by decide) lt).trans ((channelOpened_get (by decide) (by decide) N).trans channelClaimed_claim)
      · exact (reads begins (by decide) small).trans ((cvuBegin_otherCtx ne).trans ((channelOpened_other ne).1.trans (channelClaimed_get (by decide) (by decide) m)))
      · exact (get (by decide) (by decide) (by decide) small).trans ((channelOpened_other ne).2.trans (channelClaimed_get (by decide) (by decide) m))

end Sys2Proof.Machine
end

section
/-!
PROOFS. A rejected telegram while a clock of the fabric runs (R334, R211). Refutes O50.
-/

namespace Sys2Proof.Machine

set_option Elab.async false

/-- An OPERATIONAL unit at tick 420,000, where a clock of the fabric runs in which a count tile has received something; connection 0 is
VALID and takes frames of controller 0 with identifier 0; the journal takes every class. -/
def tileClocked : State :=
  let s := { State.reset with
    regs := [], boot := { State.reset.boot with stage := 5 }, cycle := 7, now := 420000
    sio := { State.reset.sio with nextSample := 71 }
    fab := { State.reset.fab with clockAt := 210000, clock := [default] } }
  let s := ((s.set F.DEV_STATE_STATE 0 4).set F.DEV_STATE_ROLE 0 1).set F.CRU_CLK_PLL_LOCK 0 1
  let s := (s.set F.STE_CONNc_STAT_STATE 0 2).set F.JRN_FILTER_CLASSES 0 15
  s.putLines (computeLines s)

/-- A frame without data. -/
def emptyFrame : SteFrame := ⟨419000, 0, 0, false, true, []⟩

theorem tileClocked_follows : LinesFollow tileClocked := by
  unfold LinesFollow
  decide +kernel

theorem tileClocked_names : rxName tileClocked emptyFrame = .conn 0 ∧ tileClocked.ste.conns.length = 64 := by decide +kernel

/-- The journal entry of the rejection is remembered with the clock. -/
theorem tileClocked_remembers : tileClocked.fab.clockLog.length = 0 ∧ (steFrame tileClocked emptyFrame).fab.clockLog.length = 1 := by
  decide +kernel

/-- Refutes O50: a frame of no length is rejected with a journal entry, which the running clock of the fabric remembers, where the statement
has the fabric stay as it was. -/
theorem not_safetyTelegrams : ¬Obligations.SafetyTelegrams := by
  intro all
  obtain ⟨-, -, frames, -⟩ := all tileClocked tileClocked_follows
  obtain ⟨named, whole⟩ := tileClocked_names
  obtain ⟨rejected, -⟩ := frames emptyFrame 0 named whole
  have short : ¬(emptyFrame.fdf = (!tileClocked.flag F.STE_CONNc_CFG_FMT 0)
      ∧ emptyFrame.data.length = (if (!tileClocked.flag F.STE_CONNc_CFG_FMT 0) = true then 64 else 8)) := by
    rintro ⟨-, length⟩
    change 0 = _ at length
    split at length <;> omega
  obtain ⟨-, -, -, -, fab, -⟩ := rejected short
  obtain ⟨before, after⟩ := tileClocked_remembers
  rw [fab, before] at after
  omega

end Sys2Proof.Machine
end

section
/-!
PROOFS. The test port and the debugger (R273 to R275): what each command leaves, the replay buffer's delivery to the cores and to working
memory. Settles O57.
-/

namespace Sys2Proof.Machine

set_option Elab.async false

/-! ### Instructions of the test port (R273) -/

theorem jtagSelect_eq (s : State) (i : Nat) :
    jtagSelect s i = (s.set F.SPU_DBG_EN 0 (if i = 4 then 1 else 0)).putSpu { s.spu with jtag := i } := by
  unfold jtagSelect State.setFlag b2n
  simp only [beq_iff_eq]
  rfl

/-- Neither the instruction, the cells nor the cores turn the sources. -/
theorem DriveSteady.putSpu {s : State} (h : DriveSteady s) (x : Spu) (same : x.grantEnd = s.spu.grantEnd) : DriveSteady (s.putSpu x) := by
  have may : srcMay (s.putSpu x) = srcMay s := by
    unfold srcMay trainRuns
    rw [State.putSpu_spu, same]
    rfl
  unfold DriveSteady
  rw [may]
  exact h

theorem jtagSelect_steady {s : State} (h : DriveSteady s) (i : Nat) : DriveSteady (jtagSelect s i) :=
  (h.set (by decide)).putSpu _ rfl

theorem jtagSample_steady {s : State} (h : DriveSteady s) : DriveSteady (jtagSample s) := (jtagSelect_steady h 2).putSpu _ rfl

/-- An effect is settled as it stands. -/
theorem answers_eq {c : Instr} {s t u : State} (run : exec c s = answer s t) (eq : t = u) (d : DriveSteady u) : Answers c s u :=
  answers_of (run.trans (congrArg (answer s) eq)) d

/-! ### The debugger's commands (R274, R275) -/

section
variable {s : State}

theorem debugOpen_iff : debugOpen s = true ↔ s.flag F.SPU_DBG_EN = true ∧ s.dev = .comm ∧ s.flag F.SPU_STATUS_HALTED = false := by
  simp [debugOpen, and_assoc]

theorem breakSet_iff : breakSet s = true ↔ ∃ a, some a ∈ s.spu.breaks ++ s.spu.watches := by
  simp only [breakSet, List.any_eq_true, Option.isSome_iff_exists]
  exact ⟨fun ⟨x, mem, a, eq⟩ => ⟨a, eq ▸ mem⟩, fun ⟨a, mem⟩ => ⟨some a, mem, a, rfl⟩⟩

theorem debugHalt_closed (h : debugOpen s = false) (hit : Bool) : debugHalt s hit = s := by simp [debugHalt, h]
theorem debugHalt_halted (h : s.flag F.SPU_DBG_HALTED = true) (hit : Bool) : debugHalt s hit = s := by simp [debugHalt, h]
theorem debugHalt_stalled (h : s.spu.stalled ≠ none) : debugHalt s false = s := by
  simp [debugHalt, Option.isSome_iff_ne_none, h]
theorem debugHalt_unset (h : ∀ a, some a ∉ s.spu.breaks ++ s.spu.watches) : debugHalt s true = s := by
  have unset : breakSet s = false := Bool.eq_false_iff.mpr fun on => (breakSet_iff.mp on).elim h
  simp [debugHalt, unset]
theorem debugHalt_request (op : debugOpen s = true) (runs : s.flag F.SPU_DBG_HALTED = false) (free : s.spu.stalled = none) :
    debugHalt s false = s.set F.SPU_DBG_HALTED 0 1 := by
  simp [debugHalt, op, runs, free, State.raise]
theorem debugHalt_break (op : debugOpen s = true) (runs : s.flag F.SPU_DBG_HALTED = false) (set_ : breakSet s = true) :
    debugHalt s true = (s.set F.SPU_DBG_HALTED 0 1).counted F.SPU_DBG_BP_HITS := by
  simp [debugHalt, op, runs, set_, State.raise, State.bump, State.counted]

theorem debugStep_closed (h : debugOpen s = false) : debugStep s = s := by simp [debugStep, h]
theorem debugStep_running (h : s.flag F.SPU_DBG_HALTED = false) : debugStep s = s := by simp [debugStep, h]
theorem debugStep_stalled (h : s.spu.stalled ≠ none) : debugStep s = s := by simp [debugStep, h]
theorem debugStep_halted (op : debugOpen s = true) (halted : s.flag F.SPU_DBG_HALTED = true) (free : s.spu.stalled = none) :
    debugStep s = coresStep (replayAll s) (coreWord (replayAll s)) := by simp [debugStep, op, halted, free]

theorem debugResume_closed (h : debugOpen s = false) : debugResume s = s := by simp [debugResume, h]
theorem debugResume_stalled (h : s.spu.stalled ≠ none) : debugResume s = s := by simp [debugResume, h]
theorem debugResume_free (op : debugOpen s = true) (free : s.spu.stalled = none) : debugResume s = (replayAll s).set F.SPU_DBG_HALTED 0 0 := by
  simp [debugResume, op, free, State.lower]

theorem debugWrite_closed (h : debugOpen s = false) (w : DebugWrite) : debugWrite s w = s := by simp [debugWrite, h]
theorem debugWrite_stalled (h : s.spu.stalled ≠ none) (w : DebugWrite) : debugWrite s w = s := by simp [debugWrite, h]
theorem debugWrite_free (op : debugOpen s = true) (free : s.spu.stalled = none) (w : DebugWrite) : debugWrite s w = replayPut s w := by
  simp [debugWrite, op, free]

theorem replayDrain_closed (h : debugOpen s = false) : replayDrain s = s := by simp [replayDrain, h]
theorem replayDrain_empty (h : s.spu.replay = []) : replayDrain s = s := by
  unfold replayDrain
  rw [h]
  exact ite_self s

/-- The first entry drains; a stalled write enters behind it. -/
theorem replayDrain_cons (op : debugOpen s = true) {w : DebugWrite} {ws : List DebugWrite} (h : s.spu.replay = w :: ws) :
    let u := debugDeliver (s.putSpu { s.spu with replay := ws, stalled := none }) w
    let v := u.set F.SPU_DBG_REPLAY_LVL 0 u.spu.replay.length
    replayDrain s = match s.spu.stalled with | some x => replayPut v x | none => v := by
  unfold replayDrain
  rw [op, h]
  rfl

/-- An empty buffer drains at once. -/
theorem replayAll_empty (h : s.spu.replay = []) : replayAll s = s := by
  unfold replayAll forN
  induction List.range (replayMax + 1) with
  | nil => rfl
  | cons i is ih => rw [List.foldl_cons, replayDrain_empty h, ih]

/-! ### Writes of the debugger -/

variable {w : DebugWrite}

theorem debugCore0_replay : (debugCore0 s w).spu.replay = s.spu.replay := by
  unfold debugCore0
  split <;> rfl

theorem debugCore0_stalled : (debugCore0 s w).spu.stalled = s.spu.stalled := by
  unfold debugCore0
  split <;> rfl

theorem replayPut_room (room : s.spu.replay.length < 64) :
    replayPut s w = (debugCore0 (s.putSpu { s.spu with replay := s.spu.replay ++ [w] }) w).set F.SPU_DBG_REPLAY_LVL 0 (s.spu.replay.length + 1) := by
  unfold replayPut replayMax
  rw [if_pos room]
  dsimp only
  rw [debugCore0_replay, State.putSpu_spu, List.length_append]
  rfl

theorem replayPut_full (full : 64 ≤ s.spu.replay.length) : replayPut s w = s.putSpu { s.spu with stalled := some w } := by
  unfold replayPut replayMax
  rw [if_neg (by omega)]

theorem debugCore0_steady (h : DriveSteady s) : DriveSteady (debugCore0 s w) := by
  unfold debugCore0
  split
  · exact h.putSpu _ rfl
  · exact h.putSpu _ rfl
  · exact h.putSpu _ rfl
  · exact h
  · exact h

theorem coreArch_coreRegPut {k : Nat} (lt : k < s.spu.cores.length) (n v : Nat) :
    storeGet 0 (coreArch (coreRegPut s k n v) k).regs n = v := by
  have put : coreArch (coreRegPut s k n v) k = { coreArch s k with regs := storePut 0 (coreArch s k).regs n v } := nth_upd_self lt _
  rw [put]
  exact storeGet_put_self 0 _ _ _

theorem coreArch_coreRegPut_ne {k j : Nat} (ne : k ≠ j) (n v : Nat) : coreArch (coreRegPut s k n v) j = coreArch s j := nth_upd_ne _ ne _

theorem coreRegPut_cores (k n v : Nat) : (coreRegPut s k n v).spu.cores.length = s.spu.cores.length := List.length_modify _ _ _

theorem coreRegPut_steady (h : DriveSteady s) (k n v : Nat) : DriveSteady (coreRegPut s k n v) := h.putSpu _ rfl

/-! ### A single step (R275) -/

/-- One instruction on a core. -/
def archStepped (word : Option Nat) (a : CoreArch) : CoreArch :=
  let r := Config.coreStep a.regs a.mem a.pos word
  ⟨r.1, r.2.1, r.2.2⟩

/-- One instruction on core `k`, if it runs. -/
def coreStepped (word : Option Nat) (s : State) (k : Nat) : State :=
  if coreSt s k ≠ 0 then s else putArch s k (archStepped word (coreArch s k))

theorem coresStep_eq (word : Option Nat) : coresStep s word = forN 3 s (coreStepped word) := rfl

/-- After the first `n` cores have stepped, only the cores are changed, and of these the first `n` that run. -/
theorem coresStepped (word : Option Nat) (n : Nat) : ∃ cs, forN n s (coreStepped word) = s.putSpu { s.spu with cores := cs }
    ∧ cs.length = s.spu.cores.length
    ∧ ∀ j, j < s.spu.cores.length → nth cs j = if j < n ∧ coreSt s j = 0 then archStepped word (coreArch s j) else coreArch s j := by
  induction n with
  | zero => exact ⟨s.spu.cores, rfl, rfl, fun j _ => by rw [if_neg (by omega)]; rfl⟩
  | succ n ih =>
    obtain ⟨cs, eq, length, each⟩ := ih
    have last : forN (n + 1) s (coreStepped word) = coreStepped word (forN n s (coreStepped word)) n := by simp [forN, List.range_succ]
    have status : coreSt (s.putSpu { s.spu with cores := cs }) n = coreSt s n := rfl
    rw [last, eq, coreStepped, status]
    split
    · rename_i idle
      refine ⟨cs, rfl, length, fun j lt => (each j lt).trans ?_⟩
      by_cases e : j = n
      · rw [e, if_neg fun h => idle h.2, if_neg fun h => idle h.2]
      · exact if_congr (and_congr_left' (by omega)) rfl rfl
    · rename_i runs
      refine ⟨upd cs n fun _ => archStepped word (nth cs n), rfl, (List.length_modify _ _ _).trans length, fun j lt => ?_⟩
      by_cases e : j = n
      · rw [e, nth_upd_self (by omega), each n (by omega), if_neg (by omega), if_pos ⟨by omega, not_not.mp runs⟩]
      · rw [nth_upd_ne _ (Ne.symm e), each j lt]
        exact if_congr (and_congr_left' (by omega)) rfl rfl

theorem coreArch_settled (u : State) (k : Nat) : coreArch (settled s u) k = coreArch u k := by
  unfold coreArch
  rw [spu_settled]

/-! ### Working memory through the replay buffer -/

theorem leBytes_word (v : Word) : ofLeBytes (leBytes 4 v.toNat) = v.toNat := by
  have lt := v.isLt
  simp only [leBytes, ofLeBytes, BitVec.toNat_ofNat]
  omega

theorem storeGetBytes_congr {l m : List (Nat × Byte)} {a n : Nat} (same : ∀ i < n, storeGet 0 l (a + i) = storeGet 0 m (a + i)) :
    storeGetBytes l a n = storeGetBytes m a n := by
  induction n generalizing a with
  | zero => rfl
  | succ n ih =>
    have rest := ih (a := a + 1) fun i lt => by rw [Nat.add_assoc, Nat.add_comm 1]; exact same (i + 1) (by omega)
    rw [storeGetBytes, storeGetBytes, rest]
    exact congrArg (· :: _) (same 0 (by omega))

theorem storeGetBytes_length (l : List (Nat × Byte)) (a n : Nat) : (storeGetBytes l a n).length = n := by
  induction n generalizing a with
  | zero => rfl
  | succ n ih => rw [storeGetBytes, List.length_cons, ih]

theorem storeGetBytes_getElem (l : List (Nat × Byte)) (a n i : Nat) (lt : i < (storeGetBytes l a n).length) :
    (storeGetBytes l a n)[i] = storeGet 0 l (a + i) := by
  induction n generalizing a i with
  | zero => exact absurd lt (Nat.not_lt_zero i)
  | succ n ih =>
    cases i with
    | zero => rfl
    | succ i => exact (ih (a + 1) i _).trans (congrArg (storeGet 0 l) (by omega))

theorem storeGetBytes_put (l : List (Nat × Byte)) (a : Nat) (bs : List Byte) : storeGetBytes (storePutBytes l a bs) a bs.length = bs := by
  refine List.ext_getElem (storeGetBytes_length _ _ _) fun i lt lt' => ?_
  rw [storeGetBytes_getElem]
  exact storeGet_putBytes_in l a bs i lt'

/-- Four bytes written are the word that stands there. -/
theorem memWord_putBytes (a : Nat) (v : Word) : (s.putBytes a (leBytes 4 v.toNat)).memWord a = v.toNat :=
  (congrArg ofLeBytes (storeGetBytes_put s.mem a (leBytes 4 v.toNat))).trans (leBytes_word v)

/-- The bytes of an aligned word outside the journal ring are outside it. -/
theorem word_outside {a : Nat} (aligned : a % 4 = 0) (out : inJournal a = false) {i : Nat} (lt : i < 4) : inJournal (a + i) = false := by
  have base : jrnBase = 0x680000 := rfl
  simp only [inJournal, Bool.and_eq_false_iff, decide_eq_false_iff_not, Nat.not_le, Nat.not_lt] at out ⊢
  omega

/-- A word outside the ring reads after settling as the effect has it. -/
theorem memWord_settled {u : State} (steady : DriveSteady u) {a : Nat} (aligned : a % 4 = 0) (out : inJournal a = false) :
    (settled s u).memWord a = u.memWord a := by
  have each (i : Nat) (lt : i < 4) : (settled s u).byte (a + i) = u.byte (a + i) := settled_byte s steady (word_outside aligned out lt)
  generalize settled s u = t at each
  exact congrArg ofLeBytes (storeGetBytes_congr each)

theorem DriveSteady.putBytes (h : DriveSteady s) (a : Nat) (bs : List Byte) : DriveSteady (s.putBytes a bs) := h

end

/-! ### Deliveries -/

section
variable {s : State} {w : DebugWrite}

theorem debugDeliver_core {n : BitVec 8} (target : w.target = .coreReg n) :
    debugDeliver s w = coreRegPut (coreRegPut s 1 n.toNat w.value.toNat) 2 n.toNat w.value.toNat := by
  unfold debugDeliver
  rw [target]

theorem debugDeliver_memory {a : Addr} (target : w.target = .memory a) (aligned : a.toNat % 4 = 0) (lo : 0x600000 ≤ a.toNat) (hi : a.toNat < 0xA00000) :
    debugDeliver s w = s.putBytes a.toNat (leBytes 4 w.value.toNat) := by
  unfold debugDeliver
  rw [target]
  exact (if_pos ⟨lo, hi⟩).trans (by rw [show a.toNat / 4 * 4 = a.toNat by omega])

/-- A core register delivered to CORE1 and CORE2 (R274). -/
theorem deliver_cores (three : s.spu.cores.length = 3) (n v : Nat) :
    let t := coreRegPut (coreRegPut s 1 n v) 2 n v
    storeGet 0 (coreArch t 1).regs n = v ∧ storeGet 0 (coreArch t 2).regs n = v ∧ coreArch t 0 = coreArch s 0 := by
  refine ⟨?_, ?_, ?_⟩
  · rw [coreArch_coreRegPut_ne (by decide)]
    exact coreArch_coreRegPut (by omega) n v
  · exact coreArch_coreRegPut (by rw [coreRegPut_cores]; omega) n v
  · rw [coreArch_coreRegPut_ne (by decide), coreArch_coreRegPut_ne (by decide)]

theorem debugCore0_core {n : BitVec 8} (target : w.target = .coreReg n) : debugCore0 s w = coreRegPut s 0 n.toNat w.value.toNat := by
  unfold debugCore0
  rw [target]

theorem debugCore0_break {k : Fin 8} {b : Bool} (target : w.target = .breakpoint k b) :
    debugCore0 s w = s.putSpu { s.spu with breaks := upd s.spu.breaks k.val (fun _ => if b then some w.value.toNat else none) } := by
  unfold debugCore0
  rw [target]

theorem debugCore0_watch {k : Fin 4} {b : Bool} (target : w.target = .watchpoint k b) :
    debugCore0 s w = s.putSpu { s.spu with watches := upd s.spu.watches k.val (fun _ => if b then some w.value.toNat else none) } := by
  unfold debugCore0
  rw [target]

theorem getElem?_upd {α : Type} {l : List α} {k : Nat} (lt : k < l.length) (x : α) : (upd l k fun _ => x)[k]? = some x := by
  simp [upd, lt]

end

/-- A write put into a buffer with room, as it acts on CORE0, breakpoints and watchpoints. -/
theorem debugWrite_acts {s : State} (steady : DriveSteady s) (op : debugOpen s = true) (w : DebugWrite) (free : s.spu.stalled = none)
    (room : s.spu.replay.length < 64) :
    let u := s.putSpu { s.spu with replay := s.spu.replay ++ [w] }
    Answers (.debugWrite w) s ((debugCore0 u w).set F.SPU_DBG_REPLAY_LVL 0 (s.spu.replay.length + 1))
      ∧ (∀ n, w.target = .coreReg n → s.spu.cores.length = 3 → ∃ t, exec (.debugWrite w) s = .next t
        ∧ storeGet 0 (coreArch t 0).regs n.toNat = w.value.toNat ∧ coreArch t 1 = coreArch s 1 ∧ coreArch t 2 = coreArch s 2)
      ∧ (∀ k b, w.target = .breakpoint k b → s.spu.breaks.length = 8 → ∃ t, exec (.debugWrite w) s = .next t
        ∧ t.spu.breaks[k.val]? = some (if b = true then some w.value.toNat else none))
      ∧ (∀ k b, w.target = .watchpoint k b → s.spu.watches.length = 4 → ∃ t, exec (.debugWrite w) s = .next t
        ∧ t.spu.watches[k.val]? = some (if b = true then some w.value.toNat else none)) := by
  intro u
  have effect : debugWrite s w = (debugCore0 u w).set F.SPU_DBG_REPLAY_LVL 0 (s.spu.replay.length + 1) :=
    (debugWrite_free op free w).trans (replayPut_room room)
  have pushed : DriveSteady u := steady.putSpu _ rfl
  have run : exec (.debugWrite w) s = .next (settled s ((debugCore0 u w).set F.SPU_DBG_REPLAY_LVL 0 (s.spu.replay.length + 1))) := congrArg (answer s) effect
  refine ⟨answers_eq rfl effect ((debugCore0_steady pushed).set (by decide)), fun n target three => ⟨_, run, ?_⟩, fun k b target eight => ⟨_, run, ?_⟩,
    fun k b target four => ⟨_, run, ?_⟩⟩
  · rw [coreArch_settled, coreArch_settled, coreArch_settled, debugCore0_core target]
    exact ⟨coreArch_coreRegPut (s := u) (three ▸ by decide) _ _, coreArch_coreRegPut_ne (by decide) _ _, coreArch_coreRegPut_ne (by decide) _ _⟩
  · rw [spu_settled, debugCore0_break target]
    exact getElem?_upd (k.isLt.trans_eq eight.symm) _
  · rw [spu_settled, debugCore0_watch target]
    exact getElem?_upd (k.isLt.trans_eq four.symm) _

/-! ### The obligation -/

/-- The lines in EXTEST of COMMISSIONING are the cells'. -/
theorem extest_lines {t : State} (h : LinesFollow t) (cells : t.spu.jtag = 3) (comm : t.dev = .comm) :
    t.lines.stopN = bitAt t.spu.preload 0 ∧ t.lines.tlDrive = bitAt t.spu.preload 1 ∧ t.lines.encClk = bitAt t.spu.preload 2
      ∧ (bitAt t.spu.preload 2 = false → t.lines.encTerm = false) := by
  have scan (i : Nat) (b : Bool) : (if t.spu.jtag == 3 && t.dev == .comm then bitAt t.spu.preload i else b) = bitAt t.spu.preload i := by
    rw [cells, comm]
    rfl
  rw [h]
  refine ⟨scan 0 _, scan 1 _, scan 2 _, fun off => ?_⟩
  have term : (computeLines t).encTerm = (srcMay t && (if t.spu.jtag == 3 && t.dev == .comm then bitAt t.spu.preload 2 else true)) := rfl
  exact term.trans (by rw [scan 2 true, off, Bool.and_false])

theorem settled_dev (s : State) {u : State} (d : DriveSteady u) : (settled s u).dev = u.dev := by
  have kept := (settled_result (s := s) d).keeps
  generalize settled s u = t at kept ⊢
  exact kept.dev

theorem dev_set {s : State} {f : Fld} {i v : Nat} (ne : F.DEV_STATE_STATE.key 0 ≠ f.key i) : (s.set f i v).dev = s.dev := by
  unfold State.dev
  rw [State.get_set_ne _ _ ne]
  rfl

theorem replayDrain_free {s u : State} {w : DebugWrite} {ws : List DebugWrite} (op : debugOpen s = true) (h : s.spu.replay = w :: ws)
    (free : s.spu.stalled = none) (eq : debugDeliver (s.putSpu { s.spu with replay := ws, stalled := none }) w = u) :
    replayDrain s = u.set F.SPU_DBG_REPLAY_LVL 0 u.spu.replay.length := by
  rw [← eq, replayDrain_cons op h, free]

/-- Settles O57: each command by protocol, stall and buffer. -/
theorem debugAndTestPort : Obligations.DebugAndTestPort := by
  intro s lines select sampled
  have steady := lines.steady
  have picks (i : Nat) : jtagSelect s i = select s i := jtagSelect_eq s i
  have selects (i : Nat) : DriveSteady (select s i) := picks i ▸ jtagSelect_steady steady i
  have preloads : DriveSteady (jtagPreload s) := (jtagSample_steady (s := s.fresh) steady).putSpu _ rfl
  refine ⟨answers_eq rfl (picks 0) (selects 0), answers_eq rfl (picks 1) (selects 1), answers_eq rfl (picks 1) (selects 1), ⟨Config.scanCells s.freeCtr, ?_, fun off => ?_⟩,
    fun comm => ⟨?_, ?_⟩, fun off => ?_, fun closed => ⟨fun hit => ?_, ?_, ?_, fun w => ?_, ?_⟩, fun op => ?_⟩
  · exact answers_eq (t := jtagPreload s) rfl rfl preloads
  · exact answers_eq (t := jtagExtest s) rfl (if_neg off) preloads
  · have extests : DriveSteady (select sampled 3) := (((steady.set (by decide)).putSpu _ rfl : DriveSteady sampled).set (by decide)).putSpu _ rfl
    have dev : (settled s (select sampled 3)).dev = .comm := by
      have again : (select sampled 3).dev = sampled.dev := dev_set (s := sampled) (f := F.SPU_DBG_EN) (i := 0) (v := 0) (by decide)
      have first : sampled.dev = s.dev := dev_set (s := s) (f := F.SPU_DBG_EN) (i := 0) (v := 0) (by decide)
      rw [settled_dev s extests, again, first, comm]
    have spu := spu_settled s (select sampled 3)
    obtain ⟨stopN, tlDrive, encClk, encTerm⟩ := extest_lines (settled_lines s (select sampled 3)) (by rw [spu]; rfl) dev
    have run : exec .extest s = .next (settled s (select sampled 3)) :=
      congrArg (answer s) ((if_pos comm).trans (jtagSelect_eq (jtagSample s) 3) : jtagExtest s = select sampled 3)
    rw [spu] at stopN tlDrive encClk encTerm
    exact ⟨_, run, settled_result extests, stopN, tlDrive, encClk, encTerm⟩
  · exact answers_eq (t := jtagVendor s) rfl ((congrArg (jtagSelect s) (if_pos comm)).trans (picks 4)) (selects 4)
  · exact answers_eq (t := jtagVendor s) rfl ((congrArg (jtagSelect s) (if_neg off)).trans (picks 0)) (selects 0)
  · exact answers_eq rfl (debugHalt_closed closed hit) steady
  · exact answers_eq rfl (debugStep_closed closed) steady
  · exact answers_eq rfl (debugResume_closed closed) steady
  · exact answers_eq rfl (debugWrite_closed closed w) steady
  · exact answers_eq rfl (replayDrain_closed closed) steady
  · refine ⟨fun runs => ⟨fun free => ?_, fun set_ => ?_, fun unset => ?_, ?_⟩, fun halted hit => ?_, fun stalled => ⟨?_, ?_, ?_, fun w => ?_⟩, fun free empty => ⟨?_, fun halted => ?_⟩,
      fun free => ⟨?_, fun halted => ?_⟩, fun w free room => ?_, fun w free full => ?_, fun empty => ?_, fun w ws queue => ?_⟩
    · exact answers_eq rfl (debugHalt_request op runs free) (steady.set (by decide))
    · exact answers_eq rfl (debugHalt_break op runs (breakSet_iff.mpr set_)) ((steady.set (by decide)).set (by decide))
    · exact answers_eq rfl (debugHalt_unset unset) steady
    · exact answers_eq rfl (debugStep_running runs) steady
    · exact answers_eq rfl (debugHalt_halted halted hit) steady
    · exact answers_eq rfl (debugHalt_stalled stalled) steady
    · exact answers_eq rfl (debugStep_stalled stalled) steady
    · exact answers_eq rfl (debugResume_stalled stalled) steady
    · exact answers_eq rfl (debugWrite_stalled stalled w) steady
    · exact answers_eq rfl ((debugResume_free op free).trans (by rw [replayAll_empty empty])) (steady.set (by decide))
    · obtain ⟨cs, eq, -, each⟩ := coresStepped (s := s) (coreWord s) 3
      have stepped : debugStep s = s.putSpu { s.spu with cores := cs } := by
        rw [debugStep_halted op halted free, replayAll_empty empty, coresStep_eq, eq]
      refine ⟨_, congrArg (answer s) stepped, ⟨cs, settled_result (steady.putSpu _ rfl)⟩, fun three k lt => ?_⟩
      rw [coreArch_settled]
      exact (each k (three ▸ lt)).trans (if_congr (and_iff_right lt) rfl rfl)
    · exact congrArg (answer s) (debugResume_free op free)
    · exact congrArg (answer s) (debugStep_halted op halted free)
    · exact debugWrite_acts steady op w free room
    · exact answers_eq rfl ((debugWrite_free op free w).trans (replayPut_full full)) (steady.putSpu _ rfl)
    · exact answers_eq rfl (replayDrain_empty empty) steady
    · intro u v
      have drained := replayDrain_cons op queue
      have free (none_ : s.spu.stalled = none) : replayDrain s = v := by rw [drained, none_]
      have stalls (x : DebugWrite) (some_ : s.spu.stalled = some x) : replayDrain s = replayPut v x := by rw [drained, some_]
      have popped : DriveSteady (s.putSpu { s.spu with replay := ws, stalled := none }) := steady.putSpu _ rfl
      refine ⟨fun none_ => congrArg (answer s) (free none_), fun x some_ => congrArg (answer s) (stalls x some_), fun n none_ target three => ?_,
        fun a none_ target aligned lo hi out => ?_, fun x n some_ target room => ?_⟩
      · refine ⟨_, congrArg (answer s) (free none_), ?_⟩
        obtain ⟨one, two, zero⟩ := deliver_cores (s := s.putSpu { s.spu with replay := ws, stalled := none }) three n.toNat w.value.toNat
        rw [spu_settled, coreArch_settled, coreArch_settled, coreArch_settled]
        change u.spu.replay = ws ∧ storeGet 0 (coreArch u 1).regs n.toNat = _ ∧ storeGet 0 (coreArch u 2).regs n.toNat = _ ∧ coreArch u 0 = _
        rw [show u = _ from debugDeliver_core target]
        exact ⟨rfl, one, two, zero⟩
      · have put : u = (s.putSpu { s.spu with replay := ws, stalled := none }).putBytes a.toNat (leBytes 4 w.value.toNat) :=
          debugDeliver_memory target aligned lo hi
        have written : DriveSteady v := (put ▸ popped.putBytes _ _ : DriveSteady u).set (by decide)
        have length : (leBytes 4 w.value.toNat).length = 4 := rfl
        refine ⟨_, congrArg (answer s) (free none_), ?_, ?_, fun b outB apart => ?_⟩
        · rw [memWord_settled written aligned out]
          change u.memWord a.toNat = _
          rw [put, memWord_putBytes]
        · rw [spu_settled]
          change u.spu.replay = ws
          rw [put]
          rfl
        · rw [settled_byte s written outB]
          change u.byte b = s.byte b
          rw [put]
          exact storeGet_putBytes_out _ _ _ (by rw [length]; exact apart)
      · have queued : v.spu.replay = ws := by
          change u.spu.replay = ws
          rw [show u = _ from debugDeliver_core target]
          rfl
        have entered : replayPut v x = (debugCore0 (v.putSpu { v.spu with replay := v.spu.replay ++ [x] }) x).set F.SPU_DBG_REPLAY_LVL 0 (v.spu.replay.length + 1) :=
          replayPut_room (queued ▸ room)
        have cores : DriveSteady u := by
          rw [show u = _ from debugDeliver_core target]
          exact coreRegPut_steady (coreRegPut_steady popped _ _ _) _ _ _
        have level : DriveSteady v := cores.set (by decide)
        have enters : DriveSteady (replayPut v x) := by
          have pushed : DriveSteady (v.putSpu { v.spu with replay := v.spu.replay ++ [x] }) := level.putSpu _ rfl
          rw [entered]
          exact (debugCore0_steady pushed).set (by decide)
        have free_ : v.spu.stalled = none := by
          change u.spu.stalled = none
          rw [show u = _ from debugDeliver_core target]
          rfl
        have keeps : (replayPut v x).spu.replay = v.spu.replay ++ [x] ∧ (replayPut v x).spu.stalled = v.spu.stalled := by
          rw [entered]
          exact ⟨debugCore0_replay, debugCore0_stalled⟩
        refine ⟨_, congrArg (answer s) (stalls x some_), ?_, ?_, ?_⟩
        · rw [spu_settled, keeps.1, queued]
        · rw [spu_settled, keeps.2, free_]
        · rw [settled_get_quiet enters _ _ (by decide), entered, State.get_set_self, queued]
          exact Nat.mod_eq_of_lt (by simp only [F.SPU_DBG_REPLAY_LVL]; omega)

end Sys2Proof.Machine
end

section
/-!
SUPPORT. Which registers each part of settling can write: the journal's head, the demands of the fabric, the counts of abandoned pulses, the
error counters and requests of a controller. The demands where they are forced to 0.
-/

namespace Sys2Proof.Machine

set_option Elab.async false

/-- Registers at bit addresses that `w` does not select read the same. -/
def Aside (w : Nat → Bool) (s t : State) : Prop := ∀ k, w k = false → storeGet 0 t.regs k = storeGet 0 s.regs k

namespace Aside

variable {w v : Nat → Bool} {s t u : State}

theorem of_regs (h : t.regs = s.regs) : Aside w s t := fun k _ => congrArg (storeGet 0 · k) h

theorem refl (s : State) : Aside w s s := of_regs rfl

theorem trans (a : Aside w s t) (b : Aside w t u) : Aside w s u := fun k h => (b k h).trans (a k h)

theorem mono (h : Aside v s t) (le : ∀ k, w k = false → v k = false) : Aside w s t := fun k hk => h k (le k hk)

theorem set (h : Aside w s t) {f : Fld} {i : Nat} (hf : w (f.key i) = true) (x : Nat) : Aside w s (t.set f i x) :=
  h.trans fun _ hk => State.regs_set_ne t x fun e => Bool.noConfusion (hf.symm.trans (e ▸ hk))

theorem regs (h : Aside w s t) (e : u.regs = t.regs) : Aside w s u := h.trans (of_regs e)

theorem ite {c : Prop} [Decidable c] (ht : Aside w s t) (hu : Aside w s u) : Aside w s (if c then t else u) := by
  split
  · exact ht
  · exact hu

theorem foldl {α : Type} (l : List α) (g : State → α → State) (h : ∀ t, ∀ x ∈ l, Aside w t (g t x)) (s : State) : Aside w s (l.foldl g s) := by
  induction l generalizing s with
  | nil => exact refl s
  | cons x l ih => exact (h s x (by simp)).trans (ih (fun t y hy => h t y (by simp [hy])) (g s x))

theorem forN (n : Nat) (g : State → Nat → State) (h : ∀ t i, i < n → Aside w t (g t i)) (s : State) : Aside w s (Sys2Proof.Machine.forN n s g) :=
  foldl _ g (fun t i hi => h t i (List.mem_range.mp hi)) s

theorem get (h : Aside w s t) {f : Fld} {i : Nat} (hf : w (f.key i) = false) : t.get f i = s.get f i := h _ hf

theorem flag (h : Aside w s t) {f : Fld} {i : Nat} (hf : w (f.key i) = false) : t.flag f i = s.flag f i := by
  unfold State.flag
  rw [h.get hf]

end Aside

/-! ### The journal -/

/-- What an entry writes of the registers. -/
def journalKey (k : Nat) : Bool := k == F.JRN_HEAD_HEAD.key 0 || k == F.JRN_STATUS_JRN_NEW.key 0

theorem aside_journal {w : Nat → Bool} (le : ∀ k, w k = false → journalKey k = false) (s : State) (e : JEntry) : Aside w s (s.journal e) := by
  have clock : Aside journalKey s (clockKeep s e) := .ite (.refl s) (.of_regs rfl)
  have put : Aside journalKey s (s.journalPut e) := by
    have head (v : Nat) : Aside journalKey s (((clockKeep s e).putBytes (jrnSlot (s.get F.JRN_HEAD_HEAD)) (e.bytes (s.get F.JRN_HEAD_HEAD))).set F.JRN_HEAD_HEAD 0 v) :=
      (clock.regs rfl).set (by decide) v
    exact .ite ((head _).set (by decide) 1) (head _)
  exact Aside.mono (.ite put (.refl s)) le

theorem aside_note (s : State) (a b c d e : Nat) : Aside journalKey s (s.note a b c d e) := aside_journal (fun _ h => h) s _

/-! ### Output switches -/

/-- What the output switches' following writes of the registers. -/
def outStepKey (k : Nat) : Bool := journalKey k || (List.range 12).any fun j => k == F.SIO_OUTk_CNT_ABANDONED.key j

theorem outStepKey_abandoned {k : Nat} (lt : k < 12) : outStepKey (F.SIO_OUTk_CNT_ABANDONED.key k) = true :=
  Bool.or_eq_true_iff.mpr (Or.inr (List.any_eq_true.mpr ⟨k, List.mem_range.mpr lt, beq_self_eq_true _⟩))

theorem outStepKey_journal {k : Nat} (h : outStepKey k = false) : journalKey k = false := (Bool.or_eq_false_iff.mp h).1

theorem aside_pulseAbandon (s : State) {k : Nat} (lt : k < 12) : Aside outStepKey s (pulseAbandon s k) := by
  have updated : Aside outStepKey s (s.updOut k fun o => { o with pulse := none, openAt := s.now }) := .of_regs rfl
  have counted (v : Nat) := updated.set (outStepKey_abandoned lt) v
  unfold pulseAbandon
  refine Aside.ite (.refl s) ?_
  exact (counted _).trans (aside_journal (fun _ => outStepKey_journal) _ _)

theorem aside_outStep (s : State) : Aside outStepKey s (outStep s) := by
  unfold outStep
  refine Aside.forN 12 _ (fun t k lt => ?_) s
  dsimp only
  split
  · exact aside_pulseAbandon t lt
  · split
    · exact .of_regs rfl
    · split
      · exact .of_regs rfl
      · exact .refl t

/-! ### The fabric -/

/-- What the fabric's settling writes of the registers. -/
def demandKey (k : Nat) : Bool := k == F.FAB_OUTDEM_SOUT.key 0 || k == F.FAB_OUTDEM_TLP.key 0 || k == F.FAB_OUTDEM_TLS.key 0

theorem fabRun_fab (n : Nat) (s : State) : ∃ x, fabRun n s = s.putFab x := by
  induction n generalizing s with
  | zero => exact ⟨s.fab, rfl⟩
  | succ n ih =>
    unfold fabRun
    dsimp only
    split
    · exact ⟨s.fab, rfl⟩
    · obtain ⟨x, eq⟩ := ih (fabClock s)
      exact ⟨x, eq⟩

theorem aside_putDemands (s : State) : Aside demandKey s (putDemands s) :=
  (((Aside.refl s).set (by decide) _).set (by decide) _).set (by decide) _

theorem aside_fabSettle (s : State) : Aside demandKey s (fabSettle s) := by
  obtain ⟨x, run⟩ := fabRun_fab 4096 s
  unfold fabSettle
  rw [run]
  exact .ite ((aside_putDemands (s.putFab x)).trans (.refl _)) (.ite (aside_putDemands s) (.refl s))

/-! ### Controllers -/

/-- What a controller's change of mode writes of the registers: MONITOR, the error counters and states, requests and locks. -/
def canSyncKey (x k : Nat) : Bool :=
  [F.CANx_ERR_MONITOR, F.CANx_ERR_TEC, F.CANx_ERR_REC, F.CANx_ERR_RP, F.CANx_ERR_ESTATE].any (fun f => k == (f.can x).key 0)
    || (List.range 64).any fun b => [F.CANx_BUFCTRLb_TX_REQ, F.CANx_BUFCTRLb_LOCKED, F.CANx_BUFCTRLb_LOCK_OWNER].any fun f => k == (f.can x).key b

theorem canSyncKey_error {f : Fld} (x : Nat) (mem : f ∈ [F.CANx_ERR_MONITOR, F.CANx_ERR_TEC, F.CANx_ERR_REC, F.CANx_ERR_RP, F.CANx_ERR_ESTATE]) :
    canSyncKey x ((f.can x).key 0) = true :=
  Bool.or_eq_true_iff.mpr (Or.inl (List.any_eq_true.mpr ⟨f, mem, beq_self_eq_true _⟩))

theorem canSyncKey_buffer {f : Fld} (x : Nat) {b : Nat} (lt : b < 64)
    (mem : f ∈ [F.CANx_BUFCTRLb_TX_REQ, F.CANx_BUFCTRLb_LOCKED, F.CANx_BUFCTRLb_LOCK_OWNER]) : canSyncKey x ((f.can x).key b) = true :=
  Bool.or_eq_true_iff.mpr (Or.inr (List.any_eq_true.mpr ⟨b, List.mem_range.mpr lt, List.any_eq_true.mpr ⟨f, mem, beq_self_eq_true _⟩⟩))

theorem aside_reqEnd (s : State) (x : Nat) {b : Nat} (lt : b < 64) : Aside (canSyncKey x) s (reqEnd s x b) := by
  have ended : Aside (canSyncKey x) s (s.set (F.CANx_BUFCTRLb_TX_REQ.can x) b 0) := (Aside.refl s).set (canSyncKey_buffer x lt (by decide)) _
  have held (l : List (Nat × Nat × Nat)) := ended.regs (u := (s.set (F.CANx_BUFCTRLb_TX_REQ.can x) b 0).putSte { s.ste with held := l }) rfl
  have unlocked (l : List (Nat × Nat × Nat)) := ((held l).set (canSyncKey_buffer (f := F.CANx_BUFCTRLb_LOCKED) x lt (by decide)) 0).set
    (canSyncKey_buffer (f := F.CANx_BUFCTRLb_LOCK_OWNER) x lt (by decide)) 3
  unfold reqEnd
  dsimp only
  split
  · exact unlocked _
  · exact held _

theorem aside_canSyncOne (s : State) (x : Nat) : Aside (canSyncKey x) s (canSyncOne s x) := by
  have err {t : State} {f : Fld} (h : Aside (canSyncKey x) s t) (v : Nat)
      (mem : f ∈ [F.CANx_ERR_MONITOR, F.CANx_ERR_TEC, F.CANx_ERR_REC, F.CANx_ERR_RP, F.CANx_ERR_ESTATE]) : Aside (canSyncKey x) s (t.set (f.can x) 0 v) :=
    h.set (canSyncKey_error x mem) v
  have shown (v : Nat) : Aside (canSyncKey x) s (s.set (F.CANx_ERR_MONITOR.can x) 0 v) :=
    err (f := F.CANx_ERR_MONITOR) (.refl s) v (by decide)
  have cut (t : State) : (attemptCut t x).regs = t.regs := by
    unfold attemptCut
    split <;> rfl
  unfold canSyncOne State.setFlag State.lower
  dsimp only
  split
  · refine Aside.trans ?_ (.forN 64 _ (fun t b lt => .ite (aside_reqEnd t x lt) (.refl t)) _)
    have cleared := err (f := F.CANx_ERR_ESTATE) (err (f := F.CANx_ERR_RP) (err (f := F.CANx_ERR_REC) (err (f := F.CANx_ERR_TEC)
      ((shown (b2n (canUp s x && !canDrives s))).regs (cut _)) 0 (by decide)) 0 (by decide)) 0 (by decide)) esActive (by decide)
    exact cleared.regs rfl
  · exact shown _

/-! ### Settling with every due sample taken -/

/-- What settling writes of the registers where the drive is steady and no sample is due. -/
def settleKey (k : Nat) : Bool := k == F.EXC_MODE_DRIVE_EN.key 0 || canSyncKey 0 k || canSyncKey 1 k || demandKey k || outStepKey k

theorem syncDrive_steady {s : State} (h : DriveSteady s) : syncDrive s = s.setFlag F.EXC_MODE_DRIVE_EN 0 (srcMay s) := by
  have counts : (s.setFlag F.EXC_MODE_DRIVE_EN 0 (srcMay s)).counting = s.counting := by
    unfold State.counting
    rw [show (s.setFlag F.EXC_MODE_DRIVE_EN 0 (srcMay s)).dev = s.dev from dev_set (by decide)]
  have stays : srcMay s = (s.setFlag F.EXC_MODE_DRIVE_EN 0 (srcMay s)).lines.src ∨ (!(s.setFlag F.EXC_MODE_DRIVE_EN 0 (srcMay s)).counting) = true := by
    rw [counts]
    exact h.elim (fun off => Or.inr (by rw [off]; rfl)) Or.inl
  exact if_pos stays

theorem aside_settle {s : State} (h : DriveSteady s) (sampled : sampleInputs s = s) : Aside settleKey s (settle s) := by
  have le {k : Nat} (q : settleKey k = false) : (k == F.EXC_MODE_DRIVE_EN.key 0) = false ∧ canSyncKey 0 k = false ∧ canSyncKey 1 k = false
      ∧ demandKey k = false ∧ outStepKey k = false := by
    simpa only [settleKey, Bool.or_eq_false_iff, and_assoc] using q
  have drive : Aside settleKey s (s.setFlag F.EXC_MODE_DRIVE_EN 0 (srcMay s)) := (Aside.refl s).set (by decide) _
  have can (t : State) : Aside settleKey t (canSync t) :=
    ((aside_canSyncOne t 0).mono fun _ q => (le q).2.1).trans ((aside_canSyncOne _ 1).mono fun _ q => (le q).2.2.1)
  rw [settle, sampled, syncDrive_steady h]
  exact (drive.trans (can _)).trans (((aside_fabSettle _).mono fun _ q => (le q).2.2.2.1).trans ((aside_outStep _).mono fun _ q => (le q).2.2.2.2))

/-- A field that no part of settling writes. -/
theorem settled_get_aside {s u : State} (h : DriveSteady u) (sampled : sampleInputs u = u) (f : Fld) (i : Nat) (q : settleKey (f.key i) = false) :
    (settled s u).get f i = u.get f i := by
  rw [settled_get]
  exact (aside_settle h sampled).get q

/-! ### Forced demands -/

/-- A clock of the fabric leaves what forces the demands, and so does a demand that is written. -/
theorem demandsForced_set {s : State} {f : Fld} {v : Nat} (h : f.key 0 ≠ F.SPU_STATUS_HALTED.key 0 ∧ f.key 0 ≠ F.URED_STATUS_FORCE_STOP.key 0) :
    demandsForced (s.set f 0 v) = demandsForced s := by
  unfold demandsForced State.flag
  rw [State.get_set_ne _ _ h.1.symm, State.get_set_ne _ _ h.2.symm]
  rfl

theorem demandAt_forced {s : State} (h : demandsForced s = true) (k : Nat) : demandAt s k = false := by
  rw [demandAt, h]
  rfl

theorem maskOf_none {n : Nat} {p : Nat → Bool} (h : ∀ k, k < n → p k = false) : maskOf n p = 0 := by
  refine Nat.eq_of_testBit_eq fun i => ?_
  rw [Nat.zero_testBit]
  refine (bitAt_maskOf n p i).trans ?_
  by_cases lt : i < n
  · rw [h i lt, Bool.and_false]
  · rw [decide_eq_false lt, Bool.false_and]

/-- No demand stands where a condition forces them to 0. -/
theorem putDemands_forced {s : State} (h : demandsForced s = true) : (putDemands s).get F.FAB_OUTDEM_SOUT = 0
    ∧ (putDemands s).get F.FAB_OUTDEM_TLP = 0 ∧ (putDemands s).get F.FAB_OUTDEM_TLS = 0 := by
  have first (v : Nat) : demandsForced (s.set F.FAB_OUTDEM_SOUT 0 v) = true := (demandsForced_set (by decide)).trans h
  have eq : putDemands s = ((s.set F.FAB_OUTDEM_SOUT 0 0).set F.FAB_OUTDEM_TLP 0 0).set F.FAB_OUTDEM_TLS 0 0 := by
    unfold putDemands State.setFlag
    dsimp only
    rw [maskOf_none fun k _ => demandAt_forced h k, demandAt_forced (first 0), demandAt_forced (first 0)]
    rfl
  rw [eq]
  refine ⟨?_, ?_, State.get_set_self _ _ _ _⟩
  · rw [State.get_set_ne _ _ (by decide), State.get_set_ne _ _ (by decide)]
    exact State.get_set_self _ _ _ _
  · rw [State.get_set_ne _ _ (by decide)]
    exact State.get_set_self _ _ _ _

/-- The fabric settles without a demand where a condition that no fabric clock changes forces them to 0. -/
theorem fabSettle_forced {s : State} (h : ∀ x, demandsForced (s.putFab x) = true) : (fabSettle s).get F.FAB_OUTDEM_SOUT = 0
    ∧ (fabSettle s).get F.FAB_OUTDEM_TLP = 0 ∧ (fabSettle s).get F.FAB_OUTDEM_TLS = 0 := by
  obtain ⟨x, run⟩ := fabRun_fab 4096 s
  have now : demandsForced s = true := h s.fab
  unfold fabSettle
  rw [run, if_pos now]
  split
  · exact putDemands_forced (h x)
  · exact putDemands_forced now

/-- So it is after a command that leaves the drive steady. -/
theorem settled_forced {s u : State} (d : DriveSteady u) (h : ∀ v x, Keeps u v → demandsForced (v.putFab x) = true) :
    (settled s u).get F.FAB_OUTDEM_SOUT = 0 ∧ (settled s u).get F.FAB_OUTDEM_TLP = 0 ∧ (settled s u).get F.FAB_OUTDEM_TLS = 0 := by
  have sampled := keeps_sampleInputs u
  have steady : DriveSteady (sampleInputs u) := d.keeps sampled
  have before := sampled.trans ((keeps_syncDrive _ steady).trans (keeps_canSync _))
  obtain ⟨sout, tlp, tls⟩ := fabSettle_forced fun x => h _ x before
  have read (f : Fld) (out : outStepKey (f.key 0) = false) : (settled s u).get f = (fabSettle (canSync (syncDrive (sampleInputs u)))).get f := by
    rw [settled_get, settle]
    exact (aside_outStep _).get out
  rw [read _ (by decide), read _ (by decide), read _ (by decide)]
  exact ⟨sout, tlp, tls⟩

/-- Without demands no switch is closed and no edge driven, whatever the conditions else. -/
theorem LinesFollow.undemanded {t : State} (h : LinesFollow t) (sout : t.get F.FAB_OUTDEM_SOUT = 0) (tlp : t.get F.FAB_OUTDEM_TLP = 0)
    (tls : t.get F.FAB_OUTDEM_TLS = 0) : t.lines.sout = 0 ∧ t.lines.tlp = false ∧ t.lines.still = false := by
  have no (f : Fld) (z : t.get f = 0) : t.flag f = false := by rw [State.flag, z]; rfl
  refine ⟨?_, ?_, ?_⟩
  · rw [h]
    refine maskOf_none fun k _ => ?_
    rw [outBase, sout, bitAt, Nat.zero_testBit, Bool.and_false, Bool.false_and, Bool.false_and, Bool.false_and]
  · rw [h.tlp, no _ tlp, Bool.and_false]
  · rw [h.still, no _ tls, Bool.and_false]

end Sys2Proof.Machine
end

section
/-!
PROOFS. Resets, release, lock and the monitors of the root clock (R398, R403 to R409). Settles O53.
-/

namespace Sys2Proof.Machine

set_option Elab.async false

/-! ### Resets (R406, R407) -/

theorem enterReset_steady (s : State) (cause : Nat) : DriveSteady (enterReset s cause) := Or.inl rfl

theorem satInc_min (w v : Nat) : satInc w v = min (v + 1) (2 ^ w - 1) := by
  unfold satInc
  split <;> omega

/-- A reset that counts: any but a power-on. -/
theorem enterReset_counts {s : State} {cause : Nat} (h : cause ≠ rcPower) : enterReset s cause =
    ({ State.reset with flash := s.flash, ext := { s.ext with lowSince := 0, roseIn := none }, pending := s.pending, freeCtr := s.freeCtr }.set
      F.CRU_RST_CAUSE_CAUSE 0 cause).set F.CRU_RST_CAUSE_RESETS 0 (min (s.get F.CRU_RST_CAUSE_RESETS + 1) 255) := by
  unfold enterReset
  rw [if_neg h, satInc_min]
  rfl

theorem vinStart_bounds : 900 ≤ vinStart ∧ vinStart ≤ 950 := by
  unfold vinStart
  omega

section
variable {s : State}

theorem powerOn_powered (h : s.ext.powered = true) (vin : Nat) : powerOn s vin = s := by simp [powerOn, h]
theorem powerOn_low {vin : Nat} (h : vin ≤ 900) : powerOn s vin = s := if_pos (Or.inr (h.trans vinStart_bounds.1))
theorem powerOn_high {vin : Nat} (off : s.ext.powered = false) (h : 950 < vin) :
    powerOn s vin = enterReset (s.putExt { s.ext with powered := true }) rcPower := by
  have above : ¬vin ≤ vinStart := by have := vinStart_bounds.2; omega
  simp [powerOn, off, above]

theorem resetPin_idle {dur : Nat} (h : s.ext.powered = false ∨ dur ≤ 10) : resetPin s dur = s := by simp [resetPin, h]
theorem resetPin_long {dur : Nat} (on : s.ext.powered = true) (h : 50 ≤ dur) : resetPin s dur = enterReset s rcPin := by
  have long : ¬dur ≤ 10 := by omega
  simp [resetPin, on, h, long]
theorem resetPin_between {dur : Nat} (on : s.ext.powered = true) (lo : 10 < dur) (hi : dur < 50) :
    resetPin s dur = if Config.pulseResets s.freeCtr then enterReset s.fresh rcPin else s.fresh := by
  have long : ¬dur ≤ 10 := by omega
  have short : ¬50 ≤ dur := by omega
  simp [resetPin, on, long, short]

theorem DriveSteady.fresh (h : DriveSteady s) : DriveSteady s.fresh := h

/-! ### Release and lock (R409, R40) -/

theorem patchesGood_iff (s : State) : patchesGood s = true ↔ ∀ p, p ∈ s.flash.patches → p.rom.toNat = s.get F.SPU_FW_ROM_REV
    ∧ ecdsaP256 (sha256 (leBytes 1 p.level.toNat ++ leBytes 2 p.rom.toNat ++ p.code)) p.signature = true := by
  simp only [patchesGood, List.all_eq_true, patchGood, Bool.and_eq_true, beq_iff_eq]

theorem resetRelease_idle (ps : Option (List Patch)) {q : Bool} (h : s.ext.powered = false ∨ s.boot.stage ≠ 0 ∨ q = false) :
    resetRelease s ps q = s := by
  refine if_pos ?_
  simpa using h

theorem resetRelease_runs (ps : Option (List Patch)) (on : s.ext.powered = true) (first : s.boot.stage = 0) : resetRelease s ps true =
    let u := s.putFlash { s.flash with patches := ps.getD s.flash.patches }
    let good := patchesGood u
    ((((((u.set F.SPU_FW_PATCH_LVL 0 (patchLevel u)).set F.SPU_FW_PATCH_OK 0 (b2n good)).set F.SPU_STATUS_PATCH_ERR 0 (b2n (!good))).set
      F.URED_STATE_PREF 0 (b2n s.ext.prefGnd)).putBoot { s.boot with stage := 1 }).putSpu { s.spu with patchBad := !good }).putMem [] := by
  unfold resetRelease
  rw [if_neg (by simp [on, first])]
  rfl

theorem pllLock_idle (r : List (BitVec 16)) (h : s.boot.stage ≠ 1) : pllLock s r = s := if_pos h

theorem sealReading_lt (r : List (BitVec 16)) : (sealReading r).1 < 2 ^ 16 := by
  unfold sealReading
  dsimp only
  exact maskOf_lt 16 _

/-- What the lock leaves: the tick restarts, stage 2 with the start-up reading, the ports answer. -/
theorem pllLock_leaves (r : List (BitVec 16)) (h : s.boot.stage = 1) :
    let t := pllLock s r
    t.now = 0 ∧ t.cycle = 0 ∧ t.ext.lowSince = 0 ∧ t.boot.stage = 2
      ∧ t.boot.sealStart = (if (sealReading r).2 = 0 then some (sealReading r).1 else none) := by
  intro t
  have eq : t = _ := if_neg (not_not.mpr h)
  rw [eq]
  unfold takeReading
  dsimp only
  split <;> exact ⟨rfl, rfl, rfl, rfl, rfl⟩

theorem takeReading_get (r : List (BitVec 16)) {f : Fld} (seal_ : f.key 0 ≠ F.CFG_SEAL_READ_SEAL.key 0) (open_ : f.key 0 ≠ F.CFG_SEAL_READ_UNSETTLED.key 0) :
    (takeReading s r).get f = s.get f := by
  unfold takeReading
  dsimp only
  split <;> simp only [State.get_putBoot, State.get_set_ne _ _ seal_, State.get_set_ne _ _ open_]

theorem takeReading_seal (r : List (BitVec 16)) : (takeReading s r).get F.CFG_SEAL_READ_SEAL = (sealReading r).1 := by
  have own := Nat.mod_eq_of_lt (sealReading_lt r)
  unfold takeReading
  dsimp only
  split <;> simp (disch := decide) only [State.get_putBoot, State.get_set_ne, State.get_set_self] <;> exact own

theorem syncSlots_get {f : Fld} (ne : ∀ g ∈ [F.CFG_SLOT_BOOT_SLOT, F.CFG_SLOT_A_VALID, F.CFG_SLOT_B_VALID, F.CFG_SLOT_SEAL_A_SEAL, F.CFG_SLOT_SEAL_B_SEAL],
    f.key 0 ≠ g.key 0) : (syncSlots s).get f = s.get f := by
  simp only [List.forall_mem_cons] at ne
  obtain ⟨slot, validA, validB, sealA, sealB, -⟩ := ne
  unfold syncSlots State.setFlag
  dsimp only
  rw [State.get_set_ne _ _ sealB, State.get_set_ne _ _ sealA, State.get_set_ne _ _ validB, State.get_set_ne _ _ validA, State.get_set_ne _ _ slot]

/-- The registers after the lock: the ports answer, the reading is shown, the device state is the same. -/
theorem pllLock_registers (r : List (BitVec 16)) (h : s.boot.stage = 1) :
    let t := pllLock s r
    t.get F.CRU_CLK_PLL_LOCK = 1 ∧ t.get F.CFG_SEAL_READ_SEAL = (sealReading r).1 ∧ t.get F.DEV_STATE_STATE = s.get F.DEV_STATE_STATE := by
  intro t
  have eq : t = _ := if_neg (not_not.mpr h)
  rw [eq]
  dsimp only
  refine ⟨?_, ?_, ?_⟩
  · rw [State.get_set_ne _ _ (by decide), State.get_putBoot, syncSlots_get (by decide), takeReading_get r (by decide) (by decide), State.raise, State.get_set_self]
    rfl
  · rw [State.get_set_ne _ _ (by decide), State.get_putBoot, syncSlots_get (by decide), takeReading_seal]
  · rw [State.get_set_ne _ _ (by decide), State.get_putBoot, syncSlots_get (by decide), takeReading_get r (by decide) (by decide), State.raise,
      State.get_set_ne _ _ (by decide)]
    rfl

/-- A device in BOOT counts nothing, so that its drive is steady. -/
theorem boot_steady {u : State} (stage : u.boot.stage ≠ 0) (state : u.get F.DEV_STATE_STATE = 1) : DriveSteady u := by
  refine Or.inl ?_
  unfold State.counting State.dev
  rw [if_neg stage, state]
  rfl

/-! ### Monitors of the root clock (R403, R404) -/

theorem monKeys : ∀ b, (monSt b).key 0 ≠ (monSt (!b)).key 0 ∧ (monSt b).key 0 ≠ (monCount b).key 0 ∧ (monSt b).key 0 ≠ (monWindows b).key 0
    ∧ (monSt (!b)).key 0 ≠ (monCount b).key 0 ∧ (monSt (!b)).key 0 ≠ (monWindows b).key 0 ∧ (monCount b).key 0 ≠ (monWindows b).key 0 := by decide

theorem monWindow_eq {b : Bool} {count : Nat} (on : s.get (monSt b) ≠ 2) : monWindow s b count =
    ((s.set (monCount b) 0 count).set (monWindows b) 0 (s.get (monWindows b) + 1)).set (monSt b) 0 (if 6021 ≤ count ∧ count ≤ 6267 then 0 else 1) := by
  obtain ⟨-, -, -, -, -, apart⟩ := monKeys b
  unfold monWindow State.bumpWrap
  rw [if_neg on]
  dsimp only
  rw [State.get_set_ne _ _ apart.symm]

/-- A window's class, the other monitor's state. -/
theorem monWindow_states {b : Bool} {count : Nat} (on : s.get (monSt b) ≠ 2) :
    (monWindow s b count).get (monSt b) = (if 6021 ≤ count ∧ count ≤ 6267 then 0 else 1)
      ∧ (monWindow s b count).get (monSt (!b)) = s.get (monSt (!b)) ∧ (monWindow s b count).get (monCount b) = count % 2 ^ 16 := by
  obtain ⟨own, stCount, stWindows, otherCount, otherWindows, apart⟩ := monKeys b
  have width : (monSt b).width = 2 ∧ (monCount b).width = 16 := by cases b <;> decide
  rw [monWindow_eq on]
  refine ⟨?_, ?_, ?_⟩
  · rw [State.get_set_self, width.1]
    split <;> rfl
  · rw [State.get_set_ne _ _ own.symm, State.get_set_ne _ _ otherWindows, State.get_set_ne _ _ otherCount]
  · rw [State.get_set_ne _ _ stCount.symm, State.get_set_ne _ _ apart, State.get_set_self, width.2]

theorem monitorWindow_down (h : s.portsUp = false) (b : Bool) (count : Nat) (o : Option Nat) : monitorWindow s b count o = s := by simp [monitorWindow, h]

theorem monitorWindow_one (h : s.portsUp = true) (b : Bool) (count : Nat) : monitorWindow s b count none = monDecide (monWindow s b count) := by
  simp [monitorWindow, h]

theorem monitorWindow_two (h : s.portsUp = true) (b : Bool) (count other : Nat) :
    monitorWindow s b count (some other) = monDecide (monWindow (monWindow s b count) (!b) other) := by simp [monitorWindow, h]

theorem monDecide_good {b : Bool} (own : s.get (monSt b) = 0) (other : s.get (monSt (!b)) = 0) : monDecide s = s := by
  cases b <;> simp_all [monDecide, monSt]

theorem monDecide_fault {b : Bool} (own : s.get (monSt b) = 1) (other : s.get (monSt (!b)) = 1) : monDecide s = enterReset s rcClock := by
  cases b <;> simp_all [monDecide, monSt]

theorem monDecide_first {b : Bool} (own : s.get (monSt b) = 1) (other : s.get (monSt (!b)) = 0) :
    monDecide s = raiseSquall ((monDisable s b).set F.CRU_CLK_CLK_SQ 0 1) 4 := by
  cases b <;> simp_all [monDecide, monSt, State.raise]

/-- Every demand forced to 0, and SAFE held for the boundary in a unit that follows. -/
def clockCut (s : State) : State :=
  let u := s.putSpu { s.spu with clkForce := true }
  if follows u then safeLater (u.set F.SPU_SQ_SECOND 0 4) 4 else u

/-- The second monitor's failure. -/
def monSecond (s : State) (b : Bool) : State := clockCut (monDisable s b)

theorem monDecide_second {b : Bool} (own : s.get (monSt b) = 1) (other : s.get (monSt (!b)) = 2) : monDecide s = monSecond s b := by
  cases b <;> simp_all [monDecide, monSt, monSecond, clockCut]

/-- A register that disabling a monitor leaves. -/
theorem monDisable_get {b : Bool} {f : Fld} (st : f.key 0 ≠ (monSt b).key 0) (fail : f.key 0 ≠ (monFail b).key 0) (j : journalKey (f.key 0) = false) :
    (monDisable s b).get f = s.get f := by
  unfold monDisable
  rw [(aside_note _ _ _ _ _ _).get j, State.raise, State.get_set_ne _ _ fail, State.get_set_ne _ _ st]

theorem monDisable_shows (s : State) (b : Bool) : (monDisable s b).get (monSt b) = 2 ∧ (monDisable s b).get (monFail b) = 1 := by
  have keys : journalKey ((monSt b).key 0) = false ∧ journalKey ((monFail b).key 0) = false ∧ (monSt b).key 0 ≠ (monFail b).key 0
      ∧ (monSt b).width = 2 ∧ (monFail b).width = 1 := by cases b <;> decide
  obtain ⟨jst, jfail, apart, wst, wfail⟩ := keys
  unfold monDisable
  constructor
  · rw [(aside_note _ _ _ _ _ _).get jst, State.raise, State.get_set_ne _ _ apart, State.get_set_self, wst]
    rfl
  · rw [(aside_note _ _ _ _ _ _).get jfail, State.raise, State.get_set_self, wfail]
    rfl

theorem monDisable_steady (h : DriveSteady s) (b : Bool) : DriveSteady (monDisable s b) := by
  have keys : drivesSource ((monSt b).key 0) = false ∧ drivesSource ((monFail b).key 0) = false := by cases b <;> decide
  exact DriveSteady.keeps ((h.set keys.1).set keys.2) (keeps_note _ _ _ _ _ _)

theorem monWindow_steady (h : DriveSteady s) (b : Bool) (count : Nat) : DriveSteady (monWindow s b count) := by
  have keys : drivesSource ((monCount b).key 0) = false ∧ drivesSource ((monWindows b).key 0) = false ∧ drivesSource ((monSt b).key 0) = false := by
    cases b <;> decide
  obtain ⟨kc, kw, ks⟩ := keys
  exact h.ite (((h.set kc).set kw).set ks)

/-- What neither window nor failure of a monitor writes. -/
theorem monWindow_get {b : Bool} {count : Nat} {f : Fld} (ne : f.key 0 ≠ (monCount b).key 0 ∧ f.key 0 ≠ (monWindows b).key 0 ∧ f.key 0 ≠ (monSt b).key 0) :
    (monWindow s b count).get f = s.get f := by
  obtain ⟨nc, nw, ns⟩ := ne
  unfold monWindow State.bumpWrap
  split
  · rfl
  · rw [State.get_set_ne _ _ ns, State.get_set_ne _ _ nw, State.get_set_ne _ _ nc]

theorem monWindow_rest (b : Bool) (count : Nat) : monWindow s b count = { s with regs := (monWindow s b count).regs } := by
  unfold monWindow
  split <;> rfl

theorem monWindow_outside (b : Bool) (count : Nat) : (monWindow s b count).flash = s.flash ∧ (monWindow s b count).ext = s.ext
    ∧ (monWindow s b count).pending = s.pending ∧ (monWindow s b count).freeCtr = s.freeCtr := by
  rw [monWindow_rest]
  exact ⟨rfl, rfl, rfl, rfl⟩

theorem raiseSquall_oper (h : s.dev = .oper) (c : Nat) : raiseSquall s c =
    (s.set F.SPU_SQ_CAUSES 0 (putBit (s.get F.SPU_SQ_CAUSES) (c - 1) true)).putSpu { s.spu with raised := s.spu.raised ++ [c] } := by
  have dev : (s.set F.SPU_SQ_CAUSES 0 (putBit (s.get F.SPU_SQ_CAUSES) (c - 1) true)).dev = .oper := (dev_set (by decide)).trans h
  unfold raiseSquall
  dsimp only
  rw [dev]
  rfl

theorem dev_eq {u : State} (boot : u.boot = s.boot) (state : u.get F.DEV_STATE_STATE = s.get F.DEV_STATE_STATE) : u.dev = s.dev := by
  unfold State.dev
  rw [boot, state]

theorem monWindow_dev (b : Bool) (count : Nat) : (monWindow s b count).dev = s.dev :=
  dev_eq (by rw [monWindow_rest]) (monWindow_get (by cases b <;> decide))

theorem monDisable_dev (b : Bool) : (monDisable s b).dev = s.dev := by
  have noted : ((s.set (monSt b) 0 2).set (monFail b) 0 1).dev = s.dev :=
    (dev_set (by cases b <;> decide)).trans (dev_set (by cases b <;> decide))
  exact (keeps_note ((s.set (monSt b) 0 2).set (monFail b) 0 1) 0 0x13 (b2n b) 0xFF 0).dev.trans noted

theorem monDisable_spu (b : Bool) : (monDisable s b).spu = s.spu :=
  (keeps_note ((s.set (monSt b) 0 2).set (monFail b) 0 1) 0 0x13 (b2n b) 0xFF 0).spu

theorem monDisable_toSafe (b : Bool) : (monDisable s b).toSafe = s.toSafe :=
  (keeps_note ((s.set (monSt b) 0 2).set (monFail b) 0 1) 0 0x13 (b2n b) 0xFF 0).reads State.toSafe fun _ => rfl

theorem settled_toSafe (s : State) {u : State} (d : DriveSteady u) : (settled s u).toSafe = u.toSafe := by
  have kept := (settled_result (s := s) d).keeps
  generalize settled s u = t at kept ⊢
  exact kept.reads State.toSafe fun _ => rfl

/-- The first monitor's failure in OPERATIONAL: DISABLED with its flag, and the Squall cause CLK_MON (R404). -/
theorem firstFailure {b : Bool} {count : Nat} (steady : DriveSteady s) (small : count < 2 ^ 16) (on : s.get (monSt b) ≠ 2) (oper : s.dev = .oper) :
    let u := raiseSquall ((monDisable (monWindow s b count) b).set F.CRU_CLK_CLK_SQ 0 1) 4
    DriveSteady u ∧ u.get (monSt b) = 2 ∧ u.get (monFail b) = 1 ∧ u.get F.CRU_CLK_CLK_SQ = 1 ∧ bitAt (u.get F.SPU_SQ_CAUSES) 3 = true
      ∧ u.spu.raised = s.spu.raised ++ [4] ∧ u.get (monCount b) = count := by
  intro u
  have dev : ((monDisable (monWindow s b count) b).set F.CRU_CLK_CLK_SQ 0 1).dev = .oper :=
    (dev_set (by decide)).trans ((monDisable_dev b).trans ((monWindow_dev b count).trans oper))
  have eq : u = _ := raiseSquall_oper dev 4
  have spu : (monDisable (monWindow s b count) b).spu = s.spu := (monDisable_spu b).trans (by rw [monWindow_rest])
  have keys : (monSt b).key 0 ≠ F.SPU_SQ_CAUSES.key 0 ∧ (monSt b).key 0 ≠ F.CRU_CLK_CLK_SQ.key 0 ∧ (monFail b).key 0 ≠ F.SPU_SQ_CAUSES.key 0
      ∧ (monFail b).key 0 ≠ F.CRU_CLK_CLK_SQ.key 0 ∧ (monCount b).key 0 ≠ F.SPU_SQ_CAUSES.key 0 ∧ (monCount b).key 0 ≠ F.CRU_CLK_CLK_SQ.key 0
      ∧ (monCount b).key 0 ≠ (monSt b).key 0 ∧ (monCount b).key 0 ≠ (monFail b).key 0 ∧ journalKey ((monCount b).key 0) = false := by cases b <;> decide
  obtain ⟨stCause, stSq, failCause, failSq, countCause, countSq, countSt, countFail, quiet⟩ := keys
  obtain ⟨disabled, flag⟩ := monDisable_shows (monWindow s b count) b
  have bit (v : Nat) : bitAt (putBit v 3 true % 2 ^ 5) 3 = true := bitAt_putBit_mod (by decide)
  have disables : DriveSteady ((monDisable (monWindow s b count) b).set F.CRU_CLK_CLK_SQ 0 1) :=
    (monDisable_steady (monWindow_steady steady b count) b).set (by decide)
  rw [eq]
  refine ⟨(disables.set (by decide)).putSpu _ rfl, ?_, ?_, ?_, ?_, ?_, ?_⟩
  · rw [State.get_putSpu, State.get_set_ne _ _ stCause, State.get_set_ne _ _ stSq, disabled]
  · rw [State.get_putSpu, State.get_set_ne _ _ failCause, State.get_set_ne _ _ failSq, flag]
  · rw [State.get_putSpu, State.get_set_ne _ _ (by decide), State.get_set_self]
    rfl
  · rw [State.get_putSpu, State.get_set_self]
    exact bit _
  · rw [State.putSpu_spu, State.set_spu, spu]
  · rw [State.get_putSpu, State.get_set_ne _ _ countCause, State.get_set_ne _ _ countSq, monDisable_get countSt countFail quiet,
      (monWindow_states on).2.2, Nat.mod_eq_of_lt small]

theorem clockCut_eq (h : follows s = true) :
    clockCut s = ((s.putSpu { s.spu with clkForce := true }).set F.SPU_SQ_SECOND 0 4).putToSafe (s.toSafe ++ [4]) := if_pos h

theorem DriveSteady.putToSafe (h : DriveSteady s) (l : List Nat) : DriveSteady (s.putToSafe l) := h

theorem clockCut_shows (steady : DriveSteady s) (h : follows s = true) :
    DriveSteady (clockCut s) ∧ (clockCut s).get F.SPU_SQ_SECOND = 4 ∧ (clockCut s).toSafe = s.toSafe ++ [4] ∧ (clockCut s).spu.clkForce = true
      ∧ ∀ f : Fld, f.key 0 ≠ F.SPU_SQ_SECOND.key 0 → (clockCut s).get f = s.get f := by
  have cut : DriveSteady (s.putSpu { s.spu with clkForce := true }) := steady.putSpu _ rfl
  rw [clockCut_eq h]
  have get (f : Fld) (v : State) (l : List Nat) : (v.putToSafe l).get f = v.get f := rfl
  refine ⟨(cut.set (by decide)).putToSafe _, ?_, rfl, rfl, fun f ne => ?_⟩
  · rw [get, State.get_set_self]
    rfl
  · rw [get, State.get_set_ne _ _ ne]
    rfl

/-- The second failure: DISABLED with its flag, SAFE cause 4 held for the boundary and every demand forced to 0 (R404). -/
theorem secondFailure {b : Bool} {count : Nat} (steady : DriveSteady s) (fol : follows s = true) :
    let u := monSecond (monWindow s b count) b
    DriveSteady u ∧ u.get (monSt b) = 2 ∧ u.get (monFail b) = 1 ∧ u.get F.SPU_SQ_SECOND = 4 ∧ u.toSafe = s.toSafe ++ [4] ∧ u.spu.clkForce = true := by
  have follow : follows (monDisable (monWindow s b count) b) = true := by
    rw [follows_iff, monDisable_dev, monWindow_dev]
    exact follows_iff.mp fol
  have keys : (monSt b).key 0 ≠ F.SPU_SQ_SECOND.key 0 ∧ (monFail b).key 0 ≠ F.SPU_SQ_SECOND.key 0 := by cases b <;> decide
  obtain ⟨disabled, flag⟩ := monDisable_shows (monWindow s b count) b
  obtain ⟨drives, second, safe, cut, other⟩ := clockCut_shows (monDisable_steady (monWindow_steady steady b count) b) follow
  have held : (monDisable (monWindow s b count) b).toSafe = s.toSafe := (monDisable_toSafe b).trans (by rw [monWindow_rest])
  exact ⟨drives, (other _ keys.1).trans disabled, (other _ keys.2).trans flag, second, safe.trans (by rw [held]), cut⟩

end

/-- Settles O53: each command by the branch that its premises name. -/
theorem resetsAndRelease : Obligations.ResetsAndRelease := by
  intro s lines rst on n
  have steady := lines.steady
  have resets {u : State} {cause : Nat} (h : cause ≠ rcPower) : enterReset u cause = rst u u.ext.powered cause (min (u.get F.CRU_RST_CAUSE_RESETS + 1) 255) :=
    enterReset_counts h
  have rests {v : State} {p : Bool} {cause m : Nat} : DriveSteady (rst v p cause m) := Or.inl rfl
  refine ⟨fun vin => ⟨fun off high => ?_, fun h => ?_⟩, ?_, fun dur => ⟨fun up long => ?_, fun up lo hi => ?_, fun h => ?_⟩, fun up => ?_, fun down => ?_, fun ps => ?_,
    fun seals => ⟨fun stage boot => ?_, fun stage => ?_⟩, fun b count => ⟨fun down => ?_, fun up own other => ⟨fun good => ?_, fun bad oper => ?_⟩,
      fun up own other bad fol => ?_, fun o up own other bad bad' => ?_⟩⟩
  · exact answers_eq rfl (powerOn_high off high) (enterReset_steady _ _)
  · exact answers_eq rfl (h.elim (fun up => powerOn_powered up _) powerOn_low) steady
  · exact answers_eq (t := powerDown s) rfl rfl rests
  · exact answers_eq rfl ((resetPin_long up long).trans (resets (by decide))) rests
  · have between := resetPin_between (s := s) up lo hi
    by_cases f : Config.pulseResets s.freeCtr = true
    · exact Or.inr (answers_eq rfl ((between.trans (if_pos f)).trans (resets (by decide))) rests)
    · exact Or.inl (answers_eq rfl (between.trans (if_neg f)) steady.fresh)
  · exact answers_eq rfl (resetPin_idle h) steady
  · exact answers_eq (t := pllLoss s) rfl ((if_pos up).trans (resets (by decide))) rests
  · exact answers_eq (t := pllLoss s) rfl (if_neg (Bool.eq_false_iff.mp down)) steady
  · intro u good
    refine ⟨patchesGood_iff u, fun up first boot => ?_, fun q h => ?_⟩
    · refine answers_eq rfl (resetRelease_runs ps up first) (boot_steady Nat.one_ne_zero ?_)
      have kept : ((((u.set F.SPU_FW_PATCH_LVL 0 (patchLevel u)).set F.SPU_FW_PATCH_OK 0 (b2n good)).set F.SPU_STATUS_PATCH_ERR 0 (b2n (!good))).set
          F.URED_STATE_PREF 0 (b2n s.ext.prefGnd)).get F.DEV_STATE_STATE = 1 := by
        rw [State.get_set_ne _ _ (by decide), State.get_set_ne _ _ (by decide), State.get_set_ne _ _ (by decide), State.get_set_ne _ _ (by decide)]
        exact boot
      exact kept
    · exact answers_eq rfl (resetRelease_idle ps h) steady
  · obtain ⟨now, cycle, low, stage2, start⟩ := pllLock_leaves (s := s) seals stage
    obtain ⟨locked, seal_, state⟩ := pllLock_registers (s := s) seals stage
    have drives : DriveSteady (pllLock s seals) := boot_steady (by rw [stage2]; decide) (state.trans boot)
    have kept := (settled_result (s := s) drives).keeps
    have get (f : Fld) (q : quietKey (f.key 0) = true) := settled_get_quiet (s := s) drives f 0 q
    refine ⟨settled s (pllLock s seals), rfl, ?_⟩
    generalize settled s (pllLock s seals) = t at kept get
    refine ⟨?_, kept.now.trans now, (kept.reads State.cycle fun _ => rfl).trans cycle, (congrArg Ext.lowSince kept.ext).trans low,
      (congrArg Boot.stage kept.boot).trans stage2, (congrArg Boot.sealStart kept.boot).trans start, (get _ (by decide)).trans seal_⟩
    rw [State.portsUp, State.flag, get _ (by decide), locked]
    rfl
  · exact answers_eq rfl (pllLock_idle seals stage) steady
  · exact answers_eq rfl (monitorWindow_down down b _ _) steady
  · obtain ⟨state, other', -⟩ := monWindow_states (s := s) (b := b) (count := count.toNat) own
    rw [if_pos (of_decide_eq_true good)] at state
    have effect : monitorWindow s b count.toNat none = _ := (monitorWindow_one up b _).trans ((monDecide_good state (other'.trans other)).trans
      ((monWindow_eq own).trans (by rw [if_pos (of_decide_eq_true good)])))
    exact answers_eq rfl effect (effect ▸ (monitorWindow_one up b count.toNat).trans (monDecide_good state (other'.trans other)) ▸ monWindow_steady steady b _)
  · obtain ⟨state, other', -⟩ := monWindow_states (s := s) (b := b) (count := count.toNat) own
    rw [if_neg (of_decide_eq_false bad)] at state
    obtain ⟨drives, st, fail, sq, cause, raised, shown⟩ := firstFailure (b := b) (count := count.toNat) steady count.isLt own oper
    have quiet : quietKey ((monSt b).key 0) = true ∧ quietKey ((monFail b).key 0) = true ∧ quietKey ((monCount b).key 0) = true := by cases b <;> decide
    have get (f : Fld) (q : quietKey (f.key 0) = true) := settled_get_quiet (s := s) drives f 0 q
    refine ⟨_, congrArg (answer s) ((monitorWindow_one up b _).trans (monDecide_first state (other'.trans other))), (get _ quiet.1).trans st, (get _ quiet.2.1).trans fail,
      (get _ (by decide)).trans sq, ?_, ?_, (get _ quiet.2.2).trans shown⟩
    · rw [get _ (by decide)]
      exact cause
    · rw [spu_settled]
      exact raised
  · obtain ⟨state, other', -⟩ := monWindow_states (s := s) (b := b) (count := count.toNat) own
    rw [if_neg (by omega)] at state
    obtain ⟨drives, st, fail, second, safe, cut⟩ := secondFailure (b := b) (count := count.toNat) steady fol
    have quiet : quietKey ((monSt b).key 0) = true ∧ quietKey ((monFail b).key 0) = true := by cases b <;> decide
    have get (f : Fld) (q : quietKey (f.key 0) = true) := settled_get_quiet (s := s) drives f 0 q
    obtain ⟨sout, tlp, tls⟩ := settled_forced (s := s) drives fun v x kept => by
      have clk : (v.putFab x).spu.clkForce = true := (congrArg Spu.clkForce kept.spu).trans cut
      rw [demandsForced, clk, Bool.or_true]
    obtain ⟨open_, edges, low⟩ := (settled_lines s (monSecond (monWindow s b count.toNat) b)).undemanded sout tlp tls
    exact ⟨_, congrArg (answer s) ((monitorWindow_one up b _).trans (monDecide_second state (other'.trans other))), (get _ quiet.1).trans st, (get _ quiet.2).trans fail,
      (get _ (by decide)).trans second, (settled_toSafe s drives).trans safe, sout, open_, edges, low⟩
  · obtain ⟨first, otherFirst, -⟩ := monWindow_states (s := s) (b := b) (count := count.toNat) own
    rw [if_neg (by omega)] at first
    obtain ⟨second, kept, -⟩ := monWindow_states (s := monWindow s b count.toNat) (b := !b) (count := o.toNat) (otherFirst ▸ other)
    rw [if_neg (by omega)] at second
    rw [Bool.not_not, first] at kept
    have effect : monitorWindow s b count.toNat (some o.toNat) = rst s on 4 n := by
      rw [monitorWindow_two up, monDecide_fault kept second, resets (by decide), monWindow_get (by cases b <;> decide), monWindow_get (by cases b <;> decide)]
      simp only [rst, monWindow_outside, on]
      rfl
    exact answers_eq rfl effect rests

end Sys2Proof.Machine
end

section
/-!
PROOFS. Input pairs (R277 to R282). Settles O42.
-/

namespace Sys2Proof.Machine

set_option Elab.async false

/-! ### Bits put -/

/-- A power of two added where its bit is clear leaves the other bits. -/
theorem testBit_add_two_pow {v i : Nat} (off : v.testBit i = false) {j : Nat} (ne : j ≠ i) : (v + 2 ^ i).testBit j = v.testBit j := by
  rcases Nat.lt_or_gt_of_ne ne with below | above
  · rw [Nat.add_comm]
    exact Nat.testBit_two_pow_add_gt below v
  · have even : v / 2 ^ i % 2 = 0 := by
      have := Nat.testBit_eq_decide_div_mod_eq.symm.trans off
      have := of_decide_eq_false this
      omega
    have low : v % 2 ^ (i + 1) < 2 ^ i := by
      rw [Nat.mod_pow_succ, even, Nat.mul_zero, Nat.add_zero]
      exact Nat.mod_lt _ (Nat.two_pow_pos i)
    have same : (v + 2 ^ i) / 2 ^ (i + 1) = v / 2 ^ (i + 1) := by
      have double : 2 ^ (i + 1) = 2 * 2 ^ i := Nat.pow_succ'
      rw [Nat.div_eq_iff (Nat.two_pow_pos _)]
      have parts := Nat.div_add_mod v (2 ^ (i + 1))
      constructor <;> grind
    obtain ⟨d, rfl⟩ : ∃ d, j = d + (i + 1) := ⟨j - (i + 1), by omega⟩
    rw [Nat.testBit_add, Nat.testBit_add, same]

theorem testBit_putBit_other (v : Nat) {i j : Nat} (ne : j ≠ i) (b : Bool) : (putBit v i b).testBit j = v.testBit j := by
  unfold putBit
  split
  · rename_i on
    split
    · rfl
    · have rest : v - 2 ^ i + 2 ^ i = v := Nat.sub_add_cancel (Nat.ge_two_pow_of_testBit on)
      have off : (v - 2 ^ i).testBit i = false := by
        rw [← rest, Nat.add_comm, Nat.testBit_two_pow_add_eq] at on
        exact Bool.not_eq_true' _ ▸ on
      conv_rhs => rw [← rest]
      exact (testBit_add_two_pow off ne).symm
  · rename_i off
    split
    · exact testBit_add_two_pow (Bool.eq_false_iff.mpr off) ne
    · rfl

theorem testBit_putBit (v i : Nat) (b : Bool) : (putBit v i b).testBit i = b := by
  cases b
  · unfold putBit
    split
    · rename_i on
      have rest : v - 2 ^ i + 2 ^ i = v := Nat.sub_add_cancel (Nat.ge_two_pow_of_testBit on)
      rw [← rest, Nat.add_comm, Nat.testBit_two_pow_add_eq] at on
      exact Bool.not_eq_true' _ ▸ on
    · rename_i off
      exact Bool.eq_false_iff.mpr off
  · exact testBit_putBit_self v i
/-! ### Input samples (R277 to R281) -/

/-- What one index of a loop does, between what the others leave alone. -/
theorem forN_focus {n k : Nat} {f : State → Nat → State} {P Q : State → Prop} (lt : k < n)
    (before : ∀ t i, i < n → i ≠ k → P t → P (f t i)) (own : ∀ t, P t → Q (f t k))
    (after : ∀ t i, i < n → i ≠ k → Q t → Q (f t i)) {s : State} (start : P s) : Q (forN n s f) := by
  induction n with
  | zero => omega
  | succ n ih =>
    have last : forN (n + 1) s f = f (forN n s f) n := by simp [forN, List.range_succ]
    rw [last]
    by_cases e : n = k
    · subst e
      exact own _ (forN_holds (fun t i h => before t i (by omega) (by omega)) start)
    · exact after _ n (by omega) e (ih (by omega) (fun t i h => before t i (by omega)) fun t i h => after t i (by omega))

theorem journal_sio (s : State) (e : JEntry) : (s.journal e).sio = s.sio := by
  have clock : (clockKeep s e).sio = s.sio := by
    unfold clockKeep
    split <;> rfl
  have put : (s.journalPut e).sio = (clockKeep s e).sio := by
    unfold State.journalPut
    dsimp only
    split <;> rfl
  unfold State.journal
  split
  · exact put.trans clock
  · rfl

/-- What the samples of pair `i` write of the registers. -/
def pairKey (i k : Nat) : Bool :=
  journalKey k || k == F.SIO_STATUS_IN_FAULT_NEW.key 0 || k == F.SIO_STATUS_DISC_NEW.key 0
    || k / 32 == F.SIO_INj_STAT_VALUE.key 0 / 32 + i || k / 32 == F.SIO_INj_CNT_RETURN_CNT.key 0 / 32 + i

/-- What samples of pair `i` may do: its registers, its bit of the levels last seen, and the two flags, which they only raise. -/
structure PairStep (i : Nat) (s t : State) : Prop where
  aside : Aside (pairKey i) s t
  raised : ∀ f ∈ [F.SIO_STATUS_IN_FAULT_NEW, F.SIO_STATUS_DISC_NEW], s.get f = 1 → t.get f = 1
  ext : t.ext = s.ext
  seen : ∀ j, j ≠ i → bitAt t.sio.lastAnti j = bitAt s.sio.lastAnti j
  outs : t.sio.outs = s.sio.outs

namespace PairStep

variable {i : Nat} {s t u : State}

theorem refl (s : State) : PairStep i s s := ⟨.refl s, fun _ _ h => h, rfl, fun _ _ => rfl, rfl⟩

theorem trans (a : PairStep i s t) (b : PairStep i t u) : PairStep i s u :=
  ⟨a.aside.trans b.aside, fun f mem h => b.raised f mem (a.raised f mem h), b.ext.trans a.ext, fun j ne => (b.seen j ne).trans (a.seen j ne),
    b.outs.trans a.outs⟩

theorem ite {c : Prop} [Decidable c] (ht : PairStep i s t) (hu : PairStep i s u) : PairStep i s (if c then t else u) := by
  split
  · exact ht
  · exact hu

theorem set (h : PairStep i s t) {f : Fld} (hf : f ∈ [F.SIO_INj_STAT_VALUE, F.SIO_INj_STAT_FAULT, F.SIO_INj_STAT_DISAGREE, F.SIO_INj_STAT_RUN,
    F.SIO_INj_CNT_RETURN_CNT, F.SIO_INj_CNT_SWITCH_CNT]) (lt : i < 16) (v : Nat) : PairStep i s (t.set f i v) := by
  have own : ∀ i < 16, ∀ f ∈ [F.SIO_INj_STAT_VALUE, F.SIO_INj_STAT_FAULT, F.SIO_INj_STAT_DISAGREE, F.SIO_INj_STAT_RUN,
      F.SIO_INj_CNT_RETURN_CNT, F.SIO_INj_CNT_SWITCH_CNT], pairKey i (f.key i) = true
      ∧ F.SIO_STATUS_IN_FAULT_NEW.key 0 ≠ f.key i ∧ F.SIO_STATUS_DISC_NEW.key 0 ≠ f.key i := by decide +kernel
  obtain ⟨key, fault, disc⟩ := own i lt f hf
  refine h.trans ⟨(Aside.refl t).set key v, fun g mem e => ?_, rfl, fun _ _ => rfl, rfl⟩
  rcases List.mem_pair.mp mem with rfl | rfl
  · exact (State.get_set_ne _ v fault).trans e
  · exact (State.get_set_ne _ v disc).trans e

theorem raise (h : PairStep i s t) {f : Fld} (hf : f ∈ [F.SIO_STATUS_IN_FAULT_NEW, F.SIO_STATUS_DISC_NEW]) : PairStep i s (t.raise f) := by
  have key : pairKey i (f.key 0) = true := by
    rcases List.mem_pair.mp hf with rfl | rfl <;> simp [pairKey]
  have one : ∀ f ∈ [F.SIO_STATUS_IN_FAULT_NEW, F.SIO_STATUS_DISC_NEW], ∀ g ∈ [F.SIO_STATUS_IN_FAULT_NEW, F.SIO_STATUS_DISC_NEW],
      (g = f ∨ g.key 0 ≠ f.key 0) ∧ 1 % 2 ^ f.width = 1 := by decide +kernel
  refine h.trans ⟨(Aside.refl t).set key 1, fun g mem e => ?_, rfl, fun _ _ => rfl, rfl⟩
  obtain ⟨same | other, width⟩ := one f hf g mem
  · rw [same]
    exact (State.get_set_self _ _ _ _).trans width
  · exact (State.get_set_ne _ 1 other).trans e

theorem journal (h : PairStep i s t) (e : JEntry) : PairStep i s (t.journal e) := by
  have aside := aside_journal (w := journalKey) (fun _ q => q) t e
  have keeps := keeps_journal t e
  refine h.trans ⟨aside.mono fun k q => ?_, fun f mem on => ?_, keeps.ext, fun j _ => ?_, by rw [journal_sio]⟩
  · simp only [pairKey, Bool.or_eq_false_iff] at q
    exact q.1.1.1.1
  · rcases List.mem_pair.mp mem with rfl | rfl
    · exact (aside.get (by decide)).trans on
    · exact (aside.get (by decide)).trans on
  · rw [journal_sio]

theorem sio (h : PairStep i s t) (x : Sio) (seen : ∀ j, j ≠ i → bitAt x.lastAnti j = bitAt t.sio.lastAnti j)
    (outs : x.outs = t.sio.outs) : PairStep i s (t.putSio x) :=
  h.trans ⟨.refl t, fun _ _ e => e, rfl, seen, outs⟩

end PairStep

theorem step_pairFault (s : State) {i : Nat} (lt : i < 16) : PairStep i s (pairFault s i) := by
  have base : PairStep i s s.indicate := ⟨.refl s, fun _ _ h => h, rfl, fun _ _ => rfl, rfl⟩
  have latched := ((base.set (f := F.SIO_INj_STAT_FAULT) (by decide) lt 1).set (f := F.SIO_INj_STAT_VALUE) (by decide) lt 0).raise
    (f := F.SIO_STATUS_IN_FAULT_NEW) (by decide)
  unfold pairFault
  exact latched.journal _

/-- An antivalent sample, before what it says of the value: no discrepancy, and the levels kept. -/
def pairAgreed (s : State) (j : Nat) (permit : Bool) : State :=
  ((s.lower F.SIO_INj_STAT_DISAGREE j).set F.SIO_INj_STAT_RUN j 0).putSio { s.sio with lastAnti := putBit s.sio.lastAnti j permit }

theorem step_pairAgreed (s : State) {i : Nat} (lt : i < 16) (permit : Bool) : PairStep i s (pairAgreed s i permit) :=
  (((PairStep.refl s).set (f := F.SIO_INj_STAT_DISAGREE) (by decide) lt 0).set (f := F.SIO_INj_STAT_RUN) (by decide) lt 0).sio _
    (fun _ ne => testBit_putBit_other _ ne permit) rfl

/-- The counter that the end of a discrepancy steps. -/
def pairCount (s : State) (j : Nat) (permit : Bool) : Fld :=
  if bitAt s.sio.lastAnti j = permit then F.SIO_INj_CNT_RETURN_CNT else F.SIO_INj_CNT_SWITCH_CNT

/-- The end of a discrepancy that has not reached DISC, without its journal entry. -/
def pairEnded (s : State) (j : Nat) (permit : Bool) : State :=
  let s' := (pairAgreed s j permit).setFlag F.SIO_INj_STAT_VALUE j permit
  (s'.bump (pairCount s j permit) j).raise F.SIO_STATUS_DISC_NEW

theorem step_pairEnded (s : State) {i : Nat} (lt : i < 16) (permit : Bool) : PairStep i s (pairEnded s i permit) := by
  have count : pairCount s i permit ∈ [F.SIO_INj_STAT_VALUE, F.SIO_INj_STAT_FAULT, F.SIO_INj_STAT_DISAGREE, F.SIO_INj_STAT_RUN,
      F.SIO_INj_CNT_RETURN_CNT, F.SIO_INj_CNT_SWITCH_CNT] := by
    unfold pairCount
    split <;> decide
  exact ((((step_pairAgreed s lt permit).set (f := F.SIO_INj_STAT_VALUE) (by decide) lt _).set count lt _).raise (f := F.SIO_STATUS_DISC_NEW) (by decide))

theorem pairAgree_eq (s : State) (j : Nat) (permit : Bool) : ∃ e, pairAgree s j permit =
    if s.flag F.SIO_INj_STAT_FAULT j then pairAgreed s j permit
    else if s.get F.SIO_INj_STAT_RUN j ≠ 0 ∧ (pairAgreed s j permit).get F.SIO_INj_CFG_DISC j ≤ s.get F.SIO_INj_STAT_RUN j then
      pairFault (pairAgreed s j permit) j
    else if s.get F.SIO_INj_STAT_RUN j = 0 then (pairAgreed s j permit).setFlag F.SIO_INj_STAT_VALUE j permit
    else (pairEnded s j permit).journal e := by
  refine ⟨⟨3, 0x0A, 1, j, s.now, pairWord (pairEnded s j permit) j, leBytes 4 (s.get F.SIO_INj_STAT_RUN j)⟩, ?_⟩
  have count : (if (bitAt s.sio.lastAnti j == permit) = true then F.SIO_INj_CNT_RETURN_CNT else F.SIO_INj_CNT_SWITCH_CNT) = pairCount s j permit := by
    simp only [beq_iff_eq]
    rfl
  unfold pairAgree
  dsimp only
  rw [count]
  rfl

theorem step_pairAgree (s : State) {i : Nat} (lt : i < 16) (permit : Bool) : PairStep i s (pairAgree s i permit) := by
  obtain ⟨e, eq⟩ := pairAgree_eq s i permit
  have agreed := step_pairAgreed s lt permit
  rw [eq]
  exact .ite agreed (.ite (agreed.trans (step_pairFault _ lt))
    (.ite (agreed.set (f := F.SIO_INj_STAT_VALUE) (by decide) lt _) ((step_pairEnded s lt permit).journal e)))

/-- A sample of equal levels, before it judges the fault: the discrepancy runs on. -/
def pairApart (s : State) (j m : Nat) : State :=
  (s.raise F.SIO_INj_STAT_DISAGREE j).set F.SIO_INj_STAT_RUN j (min (s.get F.SIO_INj_STAT_RUN j + m) 20000)

theorem step_pairApart (s : State) {i : Nat} (lt : i < 16) (m : Nat) : PairStep i s (pairApart s i m) :=
  ((PairStep.refl s).set (f := F.SIO_INj_STAT_DISAGREE) (by decide) lt 1).set (f := F.SIO_INj_STAT_RUN) (by decide) lt _

theorem step_pairSamples (s : State) {i : Nat} (lt : i < 16) (m : Nat) : PairStep i s (pairSamples s i m) := by
  have apart := step_pairApart s lt m
  exact .ite (.refl s) (.ite (step_pairAgree s lt _) (.ite (apart.trans (step_pairFault _ lt)) apart))

/-! ### What a sample shows of its own pair -/

/-- The fields of one pair. -/
def pairFlds : List Fld := [F.SIO_INj_STAT_VALUE, F.SIO_INj_STAT_FAULT, F.SIO_INj_STAT_DISAGREE, F.SIO_INj_STAT_RUN, F.SIO_INj_CNT_RETURN_CNT,
  F.SIO_INj_CNT_SWITCH_CNT, F.SIO_INj_CFG_EN, F.SIO_INj_CFG_POL, F.SIO_INj_CFG_DISC]

/-- No flag stands among the fields of a pair, no two of them share a bit address, and no journal entry nor settling writes one. -/
theorem pairFlds_keys : ∀ j < 16, ∀ f ∈ pairFlds, (∀ g ∈ pairFlds, f = g ∨ f.key j ≠ g.key j) ∧ journalKey (f.key j) = false
    ∧ settleKey (f.key j) = false ∧ f.key j ≠ F.SIO_STATUS_IN_FAULT_NEW.key 0 ∧ f.key j ≠ F.SIO_STATUS_DISC_NEW.key 0
    ∧ f.key j ≠ F.SIO_IN_RAW_A.key 0 ∧ f.key j ≠ F.SIO_IN_RAW_B.key 0 ∧ (∀ i < 16, i ≠ j → pairKey i (f.key j) = false) := by
  decide +kernel

theorem pair_get_set (s : State) {j : Nat} (lt : j < 16) {f g : Fld} (h : f ∈ pairFlds ∧ g ∈ pairFlds ∧ f ≠ g) (v : Nat) :
    (s.set g j v).get f j = s.get f j :=
  State.get_set_ne s v (((pairFlds_keys j lt f h.1).1 g h.2.1).resolve_left h.2.2)

theorem pair_get_journal (s : State) {j : Nat} (lt : j < 16) {f : Fld} (h : f ∈ pairFlds) (e : JEntry) : (s.journal e).get f j = s.get f j :=
  (aside_journal (fun _ q => q) s e).get (pairFlds_keys j lt f h).2.1

/-- SIO_INj_STAT field by field. -/
def pairStat (s : State) (j : Nat) : Nat × Nat × Nat × Nat :=
  (s.get F.SIO_INj_STAT_VALUE j, s.get F.SIO_INj_STAT_FAULT j, s.get F.SIO_INj_STAT_DISAGREE j, s.get F.SIO_INj_STAT_RUN j)

theorem pairStat_eq {s : State} {j v x d r : Nat} (hv : s.get F.SIO_INj_STAT_VALUE j = v) (hx : s.get F.SIO_INj_STAT_FAULT j = x)
    (hd : s.get F.SIO_INj_STAT_DISAGREE j = d) (hr : s.get F.SIO_INj_STAT_RUN j = r) : pairStat s j = (v, x, d, r) := by
  rw [pairStat, hv, hx, hd, hr]

theorem pairFault_shows (s : State) {j : Nat} (lt : j < 16) :
    pairStat (pairFault s j) j = (0, 1, s.get F.SIO_INj_STAT_DISAGREE j, s.get F.SIO_INj_STAT_RUN j)
    ∧ (pairFault s j).get F.SIO_STATUS_IN_FAULT_NEW = 1 := by
  obtain ⟨e, eq⟩ : ∃ e, pairFault s j = (((s.indicate.set F.SIO_INj_STAT_FAULT j 1).set F.SIO_INj_STAT_VALUE j 0).set F.SIO_STATUS_IN_FAULT_NEW 0 1).journal e := by
    unfold pairFault State.note
    exact ⟨_, rfl⟩
  have read {f : Fld} (h : f ∈ pairFlds) : (pairFault s j).get f j = ((s.indicate.set F.SIO_INj_STAT_FAULT j 1).set F.SIO_INj_STAT_VALUE j 0).get f j := by
    rw [eq, pair_get_journal _ lt h]
    exact State.get_set_ne _ 1 (pairFlds_keys j lt f h).2.2.2.1
  constructor
  · refine pairStat_eq ?_ ?_ ?_ ?_
    · rw [read (by decide)]
      exact State.get_set_self _ _ _ _
    · rw [read (by decide), pair_get_set _ lt (by decide)]
      exact State.get_set_self _ _ _ _
    · rw [read (by decide), pair_get_set _ lt (by decide), pair_get_set _ lt (by decide)]
      rfl
    · rw [read (by decide), pair_get_set _ lt (by decide), pair_get_set _ lt (by decide)]
      rfl
  · rw [eq]
    refine ((aside_journal (w := journalKey) (fun _ q => q) _ e).get (by decide)).trans ?_
    exact State.get_set_self _ _ _ _

theorem pairAgreed_get (s : State) {j : Nat} (lt : j < 16) (permit : Bool) :
    (pairAgreed s j permit).get F.SIO_INj_STAT_DISAGREE j = 0 ∧ (pairAgreed s j permit).get F.SIO_INj_STAT_RUN j = 0
    ∧ ∀ f ∈ pairFlds, f ≠ F.SIO_INj_STAT_DISAGREE → f ≠ F.SIO_INj_STAT_RUN → (pairAgreed s j permit).get f j = s.get f j := by
  refine ⟨?_, State.get_set_self (s.lower F.SIO_INj_STAT_DISAGREE j) F.SIO_INj_STAT_RUN j 0, fun f mem disagree run => ?_⟩
  · refine (pair_get_set _ lt (by decide) 0).trans ?_
    exact State.get_set_self _ _ _ _
  · refine (pair_get_set _ lt ⟨mem, by decide, run⟩ 0).trans ?_
    exact pair_get_set s lt ⟨mem, by decide, disagree⟩ 0

theorem b2n_mod (b : Bool) : b2n b % 2 ^ 1 = b2n b := by cases b <;> rfl

/-- The value of an antivalent sample that ends no discrepancy that has latched. -/
theorem pairValue_shows (s : State) {j : Nat} (lt : j < 16) (permit : Bool) :
    pairStat ((pairAgreed s j permit).setFlag F.SIO_INj_STAT_VALUE j permit) j = (b2n permit, s.get F.SIO_INj_STAT_FAULT j, 0, 0) := by
  obtain ⟨disagree, run, rest⟩ := pairAgreed_get s lt permit
  refine pairStat_eq ?_ ?_ ?_ ?_
  · exact (State.get_set_self _ _ _ _).trans (b2n_mod permit)
  · exact (pair_get_set _ lt (by decide) _).trans (rest _ (by decide) (by decide) (by decide))
  · exact (pair_get_set _ lt (by decide) _).trans disagree
  · exact (pair_get_set _ lt (by decide) _).trans run

theorem pairEnded_shows (s : State) {j : Nat} (lt : j < 16) (permit : Bool) :
    pairStat (pairEnded s j permit) j = (b2n permit, s.get F.SIO_INj_STAT_FAULT j, 0, 0) ∧ (pairEnded s j permit).get F.SIO_STATUS_DISC_NEW = 1
    ∧ (pairEnded s j permit).get (pairCount s j permit) j = satInc (pairCount s j permit).width (s.get (pairCount s j permit) j) := by
  have value := pairValue_shows s lt permit
  obtain ⟨-, -, rest⟩ := pairAgreed_get s lt permit
  have count : pairCount s j permit = F.SIO_INj_CNT_RETURN_CNT ∨ pairCount s j permit = F.SIO_INj_CNT_SWITCH_CNT := by
    unfold pairCount
    split
    · exact Or.inl rfl
    · exact Or.inr rfl
  have flag {f : Fld} (h : f ∈ pairFlds) : (pairEnded s j permit).get f j
      = (((pairAgreed s j permit).setFlag F.SIO_INj_STAT_VALUE j permit).bump (pairCount s j permit) j).get f j :=
    State.get_set_ne _ 1 (pairFlds_keys j lt f h).2.2.2.2.1
  have read {f : Fld} (h : f ∈ [F.SIO_INj_STAT_VALUE, F.SIO_INj_STAT_FAULT, F.SIO_INj_STAT_DISAGREE, F.SIO_INj_STAT_RUN]) :
      (pairEnded s j permit).get f j = ((pairAgreed s j permit).setFlag F.SIO_INj_STAT_VALUE j permit).get f j := by
    have apart : ∀ f ∈ [F.SIO_INj_STAT_VALUE, F.SIO_INj_STAT_FAULT, F.SIO_INj_STAT_DISAGREE, F.SIO_INj_STAT_RUN],
        ∀ g ∈ [F.SIO_INj_CNT_RETURN_CNT, F.SIO_INj_CNT_SWITCH_CNT], f ∈ pairFlds ∧ g ∈ pairFlds ∧ f ≠ g := by decide
    have ne := apart f h (pairCount s j permit) (List.mem_pair.mpr count)
    rw [flag ne.1]
    exact pair_get_set _ lt ne _
  refine ⟨?_, State.get_set_self _ _ _ _, ?_⟩
  · rw [← value]
    exact pairStat_eq (read (by decide)) (read (by decide)) (read (by decide)) (read (by decide))
  · have before : ((pairAgreed s j permit).setFlag F.SIO_INj_STAT_VALUE j permit).get (pairCount s j permit) j = s.get (pairCount s j permit) j := by
      rcases count with c | c <;> rw [c]
      · exact (pair_get_set _ lt (by decide) _).trans (rest _ (by decide) (by decide) (by decide))
      · exact (pair_get_set _ lt (by decide) _).trans (rest _ (by decide) (by decide) (by decide))
    have mem : pairCount s j permit ∈ pairFlds := by rcases count with c | c <;> rw [c] <;> decide
    rw [flag mem, ← before]
    exact (get_write_self _ _ _).2.2.2

theorem pairApart_get (s : State) {j : Nat} (lt : j < 16) (m : Nat) :
    (pairApart s j m).get F.SIO_INj_STAT_DISAGREE j = 1 ∧ (pairApart s j m).get F.SIO_INj_STAT_RUN j = min (s.get F.SIO_INj_STAT_RUN j + m) 20000
    ∧ ∀ f ∈ pairFlds, f ≠ F.SIO_INj_STAT_DISAGREE → f ≠ F.SIO_INj_STAT_RUN → (pairApart s j m).get f j = s.get f j := by
  refine ⟨?_, (State.get_set_self _ _ _ _).trans (Nat.mod_eq_of_lt ?_), fun f mem disagree run => ?_⟩
  · refine (pair_get_set _ lt (by decide) _).trans ?_
    exact State.get_set_self _ _ _ _
  · exact Nat.lt_of_le_of_lt (Nat.min_le_right _ _) (by decide)
  · refine (pair_get_set _ lt ⟨mem, by decide, run⟩ _).trans ?_
    exact pair_get_set s lt ⟨mem, by decide, disagree⟩ 1

/-! ### Samples by case -/

section
variable {w : State} {j m : Nat}

theorem pairSamples_off (off : w.flag F.SIO_INj_CFG_EN j = false) : pairSamples w j m = w :=
  if_pos (Or.inr (by rw [off]; rfl))

variable (due : m ≠ 0) (on : w.flag F.SIO_INj_CFG_EN j = true)
include due on

theorem pairSamples_agree (levels : bitAt w.ext.sinA j ≠ bitAt w.ext.sinB j) :
    pairSamples w j m = pairAgree w j (bitAt w.ext.sinA j != w.flag F.SIO_INj_CFG_POL j) := by
  unfold pairSamples
  dsimp only
  rw [if_neg (by simp [due, on]), if_pos (bne_iff_ne.mpr levels)]

theorem pairSamples_apart (levels : bitAt w.ext.sinA j = bitAt w.ext.sinB j) (ok : w.flag F.SIO_INj_STAT_FAULT j = false) (lt : j < 16) :
    pairSamples w j m = if w.get F.SIO_INj_CFG_DISC j ≤ min (w.get F.SIO_INj_STAT_RUN j + m) 20000 then pairFault (pairApart w j m) j
      else pairApart w j m := by
  obtain ⟨-, -, rest⟩ := pairApart_get w lt m
  have fault : (pairApart w j m).flag F.SIO_INj_STAT_FAULT j = false :=
    (congrArg (· != 0) (rest F.SIO_INj_STAT_FAULT (by decide) (by decide) (by decide))).trans ok
  have disc := rest F.SIO_INj_CFG_DISC (by decide) (by decide) (by decide)
  have eq : pairSamples w j m = if (!(pairApart w j m).flag F.SIO_INj_STAT_FAULT j) = true
      ∧ (pairApart w j m).get F.SIO_INj_CFG_DISC j ≤ min (w.get F.SIO_INj_STAT_RUN j + m) 20000 then pairFault (pairApart w j m) j
      else pairApart w j m := by
    unfold pairSamples
    dsimp only
    rw [if_neg (by simp [due, on]), if_neg (by rw [levels]; simp)]
    rfl
  rw [eq, fault, disc]
  simp

end

/-- A pair without fault at antivalent levels, by its run so far. -/
theorem pairAgree_shows {w : State} {j : Nat} (lt : j < 16) (ok : w.flag F.SIO_INj_STAT_FAULT j = false) (permit : Bool) :
    (w.get F.SIO_INj_STAT_RUN j = 0 → pairStat (pairAgree w j permit) j = (b2n permit, 0, 0, 0))
    ∧ (0 < w.get F.SIO_INj_STAT_RUN j → w.get F.SIO_INj_STAT_RUN j < w.get F.SIO_INj_CFG_DISC j →
      pairStat (pairAgree w j permit) j = (b2n permit, 0, 0, 0) ∧ (pairAgree w j permit).get F.SIO_STATUS_DISC_NEW = 1
      ∧ (pairAgree w j permit).get (pairCount w j permit) j = satInc (pairCount w j permit).width (w.get (pairCount w j permit) j)) := by
  obtain ⟨e, eq⟩ := pairAgree_eq w j permit
  have none : w.get F.SIO_INj_STAT_FAULT j = 0 := not_not.mp fun h => Bool.noConfusion ((bne_iff_ne.mpr h).symm.trans ok)
  have disc := (pairAgreed_get w lt permit).2.2 F.SIO_INj_CFG_DISC (by decide) (by decide) (by decide)
  rw [if_neg (by rw [ok]; exact Bool.false_ne_true), disc] at eq
  constructor
  · intro zero
    have value := pairValue_shows w lt permit
    rw [none] at value
    rw [eq, if_neg fun h => h.1 zero, if_pos zero]
    exact value
  · intro runs less
    rw [eq, if_neg fun h => Nat.not_le_of_lt less h.2, if_neg (Nat.ne_of_gt runs)]
    obtain ⟨stat, new, count⟩ := pairEnded_shows w lt permit
    rw [none] at stat
    have mem : pairCount w j permit ∈ pairFlds := by
      unfold pairCount
      split <;> decide
    refine ⟨?_, ?_, (pair_get_journal _ lt mem e).trans count⟩
    · rw [← stat]
      exact pairStat_eq (pair_get_journal _ lt (by decide) e) (pair_get_journal _ lt (by decide) e) (pair_get_journal _ lt (by decide) e)
        (pair_get_journal _ lt (by decide) e)
    · exact ((aside_journal (w := journalKey) (fun _ q => q) _ e).get (by decide)).trans new

/-- A pair without fault at equal levels, by whether its run reaches DISC. -/
theorem pairApart_shows {w : State} {j m : Nat} (lt : j < 16) (due : m ≠ 0) (on : w.flag F.SIO_INj_CFG_EN j = true)
    (levels : bitAt w.ext.sinA j = bitAt w.ext.sinB j) (ok : w.flag F.SIO_INj_STAT_FAULT j = false) (short : w.get F.SIO_INj_STAT_RUN j + m ≤ 20000) :
    (w.get F.SIO_INj_STAT_RUN j + m < w.get F.SIO_INj_CFG_DISC j →
      pairStat (pairSamples w j m) j = (w.get F.SIO_INj_STAT_VALUE j, 0, 1, w.get F.SIO_INj_STAT_RUN j + m))
    ∧ (w.get F.SIO_INj_CFG_DISC j ≤ w.get F.SIO_INj_STAT_RUN j + m →
      pairStat (pairSamples w j m) j = (0, 1, 1, w.get F.SIO_INj_STAT_RUN j + m) ∧ (pairSamples w j m).get F.SIO_STATUS_IN_FAULT_NEW = 1) := by
  have none : w.get F.SIO_INj_STAT_FAULT j = 0 := not_not.mp fun h => Bool.noConfusion ((bne_iff_ne.mpr h).symm.trans ok)
  obtain ⟨disagree, run, rest⟩ := pairApart_get w lt m
  rw [Nat.min_eq_left short] at run
  rw [pairSamples_apart due on levels ok lt, Nat.min_eq_left short]
  constructor
  · intro less
    rw [if_neg (Nat.not_le_of_lt less)]
    exact pairStat_eq (rest _ (by decide) (by decide) (by decide)) ((rest _ (by decide) (by decide) (by decide)).trans none) disagree run
  · intro reached
    have shows := pairFault_shows (pairApart w j m) lt
    rw [disagree, run] at shows
    rw [if_pos reached]
    exact shows

/-- What concerns pair `j` and no sample of another pair changes. -/
structure PairSame (j : Nat) (s t : State) : Prop where
  fields : ∀ f ∈ pairFlds, t.get f j = s.get f j
  ext : t.ext = s.ext
  seen : bitAt t.sio.lastAnti j = bitAt s.sio.lastAnti j

theorem PairSame.step {i j : Nat} {s t u : State} (h : PairSame j s t) (step : PairStep i t u) (lti : i < 16) (ltj : j < 16) (ne : i ≠ j) :
    PairSame j s u :=
  ⟨fun f mem => (step.aside.get ((pairFlds_keys j ltj f mem).2.2.2.2.2.2.2 i lti ne)).trans (h.fields f mem), step.ext.trans h.ext,
    (step.seen j ne.symm).trans h.seen⟩

/-- What `m` samples of all pairs leave of pair `j`: what its own samples do to a state that stands for it as the first. -/
theorem sampled_pair {s : State} {j m : Nat} (lt : j < 16) (up : s.portsUp = true) (count : s.now / 6000 + 1 - s.sio.nextSample = m) (due : m ≠ 0) :
    ∃ w, PairSame j s w ∧ PairSame j (pairSamples w j m) (sampleInputs s)
      ∧ ∀ f ∈ [F.SIO_STATUS_IN_FAULT_NEW, F.SIO_STATUS_DISC_NEW], (pairSamples w j m).get f = 1 → (sampleInputs s).get f = 1 := by
  let raw := (s.set F.SIO_IN_RAW_A 0 s.ext.sinA).set F.SIO_IN_RAW_B 0 s.ext.sinB
  have start : PairSame j s raw := by
    refine ⟨fun f mem => ?_, rfl, rfl⟩
    obtain ⟨-, -, -, -, -, rawA, rawB, -⟩ := pairFlds_keys j lt f mem
    exact (State.get_set_ne _ _ rawB).trans (State.get_set_ne _ _ rawA)
  have eq : sampleInputs s = (forN 16 raw fun t i => pairSamples t i m).putSio
      { (forN 16 raw fun t i => pairSamples t i m).sio with nextSample := (forN 16 raw fun t i => pairSamples t i m).now / 6000 + 1 } := by
    unfold sampleInputs
    dsimp only
    rw [up, count, if_neg due]
    rfl
  have focus := forN_focus (n := 16) (k := j) (f := fun t i => pairSamples t i m) (P := fun t => PairSame j s t)
    (Q := fun t => ∃ w, PairSame j s w ∧ PairSame j (pairSamples w j m) t
      ∧ ∀ f ∈ [F.SIO_STATUS_IN_FAULT_NEW, F.SIO_STATUS_DISC_NEW], (pairSamples w j m).get f = 1 → t.get f = 1) lt
    (fun t i lti ne h => h.step (step_pairSamples t lti m) lti lt ne)
    (fun t h => ⟨t, h, ⟨fun _ _ => rfl, rfl, rfl⟩, fun _ _ h => h⟩)
    (fun t i lti ne ⟨w, first, same, flags⟩ => ⟨w, first, same.step (step_pairSamples t lti m) lti lt ne,
      fun f mem h => (step_pairSamples t lti m).raised f mem (flags f mem h)⟩) start
  obtain ⟨w, first, same, flags⟩ := focus
  rw [eq]
  exact ⟨w, first, ⟨same.fields, same.ext, same.seen⟩, flags⟩

theorem sampleInputs_idle {s : State} (h : s.sio.nextSample = s.now / 6000 + 1) : sampleInputs s = s := by
  unfold sampleInputs
  dsimp only
  rw [h, Nat.sub_self, if_pos rfl, ite_self]

theorem sampleInputs_twice (s : State) : sampleInputs (sampleInputs s) = sampleInputs s := by
  by_cases up : (!s.portsUp) = true
  · have off : sampleInputs s = s := if_pos up
    rw [off, off]
  · by_cases due : s.now / 6000 + 1 - s.sio.nextSample = 0
    · have off : sampleInputs s = s := (if_neg up).trans (if_pos due)
      rw [off, off]
    · have eq : sampleInputs s = _ := (if_neg up).trans (if_neg due)
      rw [eq]
      exact sampleInputs_idle rfl

/-- Settling takes the due samples itself. -/
theorem settled_sampled (s u : State) : settled s (sampleInputs u) = settled s u := by
  have same : settle (sampleInputs u) = settle u := by
    unfold settle
    rw [sampleInputs_twice]
  rw [settled_eq, settled_eq, same]

/-- What pair `j` shows once its due samples are taken and the state has settled. -/
theorem settled_pair {s u : State} {j m : Nat} (d : DriveSteady u) (lt : j < 16) (up : u.portsUp = true)
    (count : u.now / 6000 + 1 - u.sio.nextSample = m) (due : m ≠ 0) :
    ∃ w, PairSame j u w ∧ (∀ f ∈ pairFlds, (settled s u).get f j = (pairSamples w j m).get f j)
      ∧ ∀ f ∈ [F.SIO_STATUS_IN_FAULT_NEW, F.SIO_STATUS_DISC_NEW], (pairSamples w j m).get f = 1 → (settled s u).get f = 1 := by
  obtain ⟨w, first, same, flags⟩ := sampled_pair lt up count due
  have sampled := keeps_sampleInputs u
  have read (f : Fld) (i : Nat) (q : settleKey (f.key i) = false) : (settled s u).get f i = (sampleInputs u).get f i := by
    rw [← settled_sampled]
    exact settled_get_aside (d.keeps sampled) (sampleInputs_twice u) f i q
  refine ⟨w, first, fun f mem => (read f j (pairFlds_keys j lt f mem).2.2.1).trans (same.fields f mem), fun f mem h => ?_⟩
  rw [← flags f mem h]
  rcases List.mem_pair.mp mem with rfl | rfl
  · exact read _ 0 (by decide +kernel)
  · exact read _ 0 (by decide +kernel)

/-! ### A change of levels, and a discrepancy that lasts -/

/-- The state that a change of a pair's levels is sampled in. -/
def pairMoved (s : State) (j : Nat) (a b : Bool) : State :=
  (s.putExt { s.ext with sinA := putBit s.ext.sinA j a, sinB := putBit s.ext.sinB j b }).advanceTo ((s.now / 6000 + 1) * 6000)

theorem pairChange_eq {s : State} (up : s.portsUp = true) (fresh : s.sio.nextSample = s.now / 6000 + 1) (j : Nat) (a b : Bool) :
    pairChange s j a b = sampleInputs (pairMoved s j a b) := by
  unfold pairChange
  rw [sampleInputs_idle fresh]
  exact if_neg (by change ¬(!s.portsUp) = true; rw [up]; exact Bool.false_ne_true)

theorem Result.now {s u t : State} (h : Result s u t) : t.now = u.now := h.keeps.now

theorem advanceTo_now {s : State} {t : Nat} (later : s.now ≤ t) (due : s.due t = true) : (s.advanceTo t).now = t := by
  have before : t < s.nextBoundary := of_decide_eq_true due
  change max s.now (min t (s.nextBoundary - 1)) = t
  omega

theorem clearIn_one (s : State) {j : Nat} (lt : j < 16) : clearIn s (2 ^ j) = if !s.flag F.SIO_INj_STAT_FAULT j then s
    else if (bitAt s.ext.sinA j != bitAt s.ext.sinB j) = true ∧ (bitAt s.ext.sinA j == s.flag F.SIO_INj_CFG_POL j) = true then
      (s.lower F.SIO_INj_STAT_FAULT j).note 0 0x0A 0xFF j (pairWord (s.lower F.SIO_INj_STAT_FAULT j) j)
    else s.raise F.SIO_STATUS_CLR_REJ := by
  have only : bitsSet (2 ^ j) 16 = [j] := (by decide +kernel : ∀ j < 16, bitsSet (2 ^ j) 16 = [j]) j lt
  unfold clearIn forEach
  rw [only]
  rfl

theorem clearIn_shows {s : State} {j : Nat} (lt : j < 16) (fault : s.flag F.SIO_INj_STAT_FAULT j = true) :
    (bitAt s.ext.sinA j = s.flag F.SIO_INj_CFG_POL j → bitAt s.ext.sinB j = (!s.flag F.SIO_INj_CFG_POL j) →
      (clearIn s (2 ^ j)).get F.SIO_INj_STAT_FAULT j = 0)
    ∧ (¬ (bitAt s.ext.sinA j = s.flag F.SIO_INj_CFG_POL j ∧ bitAt s.ext.sinB j = !s.flag F.SIO_INj_CFG_POL j) →
      clearIn s (2 ^ j) = s.set F.SIO_STATUS_CLR_REJ 0 1) := by
  rw [clearIn_one s lt, if_neg (by rw [fault]; exact Bool.false_ne_true)]
  constructor
  · intro a b
    rw [if_pos (by rw [a, b]; simp)]
    exact (pair_get_journal _ lt (by decide) _).trans (State.get_set_self _ _ _ _)
  · intro levels
    refine if_neg fun safe => levels ?_
    obtain ⟨apart, pol⟩ := safe
    rw [beq_iff_eq] at pol
    rw [bne_iff_ne, ← Bool.eq_not] at apart
    exact ⟨pol, by rw [← pol, apart, Bool.not_not]⟩

/-- Settles O42: a pair's own samples, which the samples of the others leave alone. -/
theorem inputPairs : Obligations.InputPairs := by
  intro s j lines up fresh stat run disc
  have steady := lines.steady
  have lt : j.val < 16 := j.isLt
  have later : s.now < (s.now / 6000 + 1) * 6000 := by omega
  refine ⟨fun a b => ?_, rfl, ?_, fun fault => ?_, fun p mask => answers_gated up rfl steady, fun fault => clearIn_shows lt fault⟩
  · intro d u
    refine ⟨rfl, fun quiet due drive short => ?_⟩
    have now : u.now = d := advanceTo_now (Nat.le_of_lt later) due
    have ans : exec (.pairInputChange j a b) s = .next (settled s u) := by
      have eq := pairChange_eq up fresh j.val a b
      change answer s (timed (pairChange · j.val a b) s) = _
      rw [timed_now (Or.inr quiet), eq]
      exact congrArg Host.Outcome.next (settled_sampled s u)
    have count : u.now / 6000 + 1 - u.sio.nextSample = 1 := by
      rw [now, show u.sio.nextSample = s.now / 6000 + 1 from fresh]
      omega
    obtain ⟨w, first, reads, flags⟩ := settled_pair (s := s) (j := j.val) drive lt up count one_ne_zero
    have levelA : bitAt w.ext.sinA j.val = a := by rw [first.ext]; exact testBit_putBit s.ext.sinA j.val a
    have levelB : bitAt w.ext.sinB j.val = b := by rw [first.ext]; exact testBit_putBit s.ext.sinB j.val b
    have same (f : Fld) (mem : f ∈ pairFlds) : w.get f j.val = s.get f j.val := first.fields f mem
    have sameFlag (f : Fld) (mem : f ∈ pairFlds) : w.flag f j.val = s.flag f j.val := congrArg (· != 0) (same f mem)
    have shown : stat (settled s u) = pairStat (pairSamples w j.val 1) j.val :=
      (pairStat_eq (reads _ (by decide)) (reads _ (by decide)) (reads _ (by decide)) (reads _ (by decide)) :)
    have before : pairStat w j.val = stat s := pairStat_eq (same _ (by decide)) (same _ (by decide)) (same _ (by decide)) (same _ (by decide))
    have sameRun : w.get F.SIO_INj_STAT_RUN j.val = run := same _ (by decide)
    have sameDisc : w.get F.SIO_INj_CFG_DISC j.val = disc := same _ (by decide)
    refine ⟨_, ans, settled_result drive, fun off => ?_, fun on ok => ?_⟩
    · rw [shown, pairSamples_off ((sameFlag _ (by decide)).trans off), before]
    have wOn : w.flag F.SIO_INj_CFG_EN j.val = true := (sameFlag _ (by decide)).trans on
    have wOk : w.flag F.SIO_INj_STAT_FAULT j.val = false := (sameFlag _ (by decide)).trans ok
    have agree (ne : a ≠ b) : pairSamples w j.val 1 = pairAgree w j.val (a != s.flag F.SIO_INj_CFG_POL j.val) := by
      rw [pairSamples_agree one_ne_zero wOn (by rw [levelA, levelB]; exact ne), levelA, sameFlag _ (by decide)]
    obtain ⟨steadyPair, ended⟩ := pairAgree_shows lt wOk (a != s.flag F.SIO_INj_CFG_POL j.val)
    have apart (e : a = b) := pairApart_shows lt one_ne_zero wOn (by rw [levelA, levelB, e]) wOk (by rw [sameRun]; exact short)
    rw [sameRun] at steadyPair ended
    rw [sameDisc] at ended
    refine ⟨fun ne zero => ?_, fun ne runs less => ?_, fun e less => ?_, fun e reached => ?_⟩
    · rw [shown, agree ne]
      exact steadyPair zero
    · obtain ⟨values, new, counted⟩ := ended runs less
      rw [← agree ne] at values new counted
      have cnt : pairCount w j.val (a != s.flag F.SIO_INj_CFG_POL j.val) =
          if bitAt s.sio.lastAnti j.val = (a != s.flag F.SIO_INj_CFG_POL j.val) then F.SIO_INj_CNT_RETURN_CNT else F.SIO_INj_CNT_SWITCH_CNT := by
        rw [pairCount, first.seen]
        rfl
      have mem : pairCount w j.val (a != s.flag F.SIO_INj_CFG_POL j.val) ∈ pairFlds := by
        unfold pairCount
        split <;> decide
      refine ⟨shown.trans values, flags _ (by decide) new, ?_⟩
      dsimp only
      rw [← cnt, reads _ mem, counted, same _ mem]
    · obtain ⟨runsOn, -⟩ := apart e
      rw [sameRun, sameDisc, same _ (by decide)] at runsOn
      exact shown.trans (runsOn less)
    · obtain ⟨-, latched⟩ := apart e
      rw [sameRun, sameDisc] at latched
      obtain ⟨values, new⟩ := latched reached
      exact ⟨shown.trans values, flags _ (by decide) new⟩
  · intro d quiet on apart ok less most levels due drive
    have next : s.sio.nextSample * 6000 ≤ d := Nat.mul_le_mul_right 6000 (by omega)
    have now : (s.advanceTo d).now = d := advanceTo_now (by omega) due
    have ans : exec (.discrepancyFault j) s = .next (settled s (s.advanceTo d)) := by
      have eq : discrepancy s j.val = sampleInputs (s.advanceTo d) := by
        unfold discrepancy
        exact if_pos (by rw [up, on, apart, ok]; exact due)
      change answer s (timed (discrepancy · j.val) s) = _
      rw [timed_now (Or.inr quiet), eq]
      exact congrArg Host.Outcome.next (settled_sampled s _)
    have count : (s.advanceTo d).now / 6000 + 1 - (s.advanceTo d).sio.nextSample = disc - run := by
      rw [now, show (s.advanceTo d).sio.nextSample = s.sio.nextSample from rfl]
      omega
    have some : disc - run ≠ 0 := by omega
    obtain ⟨w, first, reads, flags⟩ := settled_pair (s := s) (j := j.val) drive lt up count some
    have same (f : Fld) (mem : f ∈ pairFlds) : w.get f j.val = s.get f j.val := first.fields f mem
    have sameFlag (f : Fld) (mem : f ∈ pairFlds) : w.flag f j.val = s.flag f j.val := congrArg (· != 0) (same f mem)
    have total : w.get F.SIO_INj_STAT_RUN j.val + (disc - run) = disc := by
      rw [same _ (by decide)]
      omega
    obtain ⟨-, latched⟩ := pairApart_shows lt some ((sameFlag _ (by decide)).trans on) (by rw [first.ext]; exact levels)
      ((sameFlag _ (by decide)).trans ok) (by rw [total]; exact most)
    rw [total, same F.SIO_INj_CFG_DISC (by decide)] at latched
    obtain ⟨values, new⟩ := latched (Nat.le_refl _)
    refine ⟨_, ans, settled_result drive, (Result.now (settled_result drive)).trans now, ?_, flags _ (by decide) new⟩
    rw [← values]
    exact pairStat_eq (reads _ (by decide)) (reads _ (by decide)) (reads _ (by decide)) (reads _ (by decide))
  · have off : discrepancy s j.val = s := by
      unfold discrepancy
      exact if_neg (by rw [fault]; simp)
    refine answers_of (u := s) ?_ steady
    change answer s (timed (discrepancy · j.val) s) = _
    rw [timed_now (f := (discrepancy · j.val)) (Or.inl (congrArg State.now off)), off]

end Sys2Proof.Machine
end

section
/-!
PROOFS. Faults of the output switches (R286 to R293). Settles O43.
-/

namespace Sys2Proof.Machine

set_option Elab.async false

/-! ### Keeping two states alike -/

/-- The same write of two states that settling tells apart leaves them so. -/
theorem Keeps.set_both {s t : State} (h : Keeps s t) (f : Fld) (i v : Nat) : Keeps (s.set f i v) (t.set f i v) := by
  refine ⟨fun k q => ?_, h.byte, h.rest⟩
  by_cases e : k = f.key i
  · subst e
    exact (State.get_set_self t f i v).trans (State.get_set_self s f i v).symm
  · rw [State.regs_set_ne t v e, State.regs_set_ne s v e]
    exact h.regs k q

theorem Keeps.pending {s t : State} (h : Keeps s t) : t.pending = s.pending := h.reads State.pending fun _ => rfl

/-- A result of a state is one of any state that settling could turn into it. -/
theorem Result.of_keeps {s u v t : State} (h : Keeps u v) (r : Result s v t) : Result s u t := by
  refine ⟨r.queue, r.follow, ?_, ?_⟩
  · rw [← h.link]
    exact r.link
  · rw [← h.lines, ← h.link, ← h.pending]
    exact h.trans r.keeps

/-! ### A latched fault (R292) -/

/-- What a fault of kind `kind` leaves of `u` beside a pulse that it abandons and its journal entry, at tick `now`. -/
def outLatched (u : State) (k kind now : Nat) (stop : Bool) : State :=
  let v := (((u.indicate.set F.SIO_OUTk_STAT_FAULT_KIND k kind).counted F.SIO_OUTk_CNT_FAULTS k).updOut k
    (fun o => { o with pulse := none, openAt := now })).set F.SIO_STATUS_OUT_FAULT_NEW 0 1
  if stop = true then v.set F.TLNK_PIN_FSTOP 0 1 else v

/-- An output that takes a fault. -/
def Faultable (s : State) (k : Nat) : Prop :=
  mayDrive s = true ∧ s.flag F.SIO_OUTk_CFG_EN k = true ∧ s.get F.SIO_OUTk_STAT_FAULT_KIND k = 0

theorem outFault_none {s : State} {k : Nat} (kind : Nat)
    (h : mayDrive s = false ∨ s.flag F.SIO_OUTk_CFG_EN k = false ∨ s.get F.SIO_OUTk_STAT_FAULT_KIND k ≠ 0) : outFault s k kind = s := by
  refine if_pos ?_
  rwa [Bool.not_eq_true', Bool.not_eq_true']

/-- The parts of a fault: the kind and the count, the pulse abandoned and the switch open, the flags. -/
def outCounted (s : State) (k kind : Nat) : State := (s.indicate.set F.SIO_OUTk_STAT_FAULT_KIND k kind).bump F.SIO_OUTk_CNT_FAULTS k
def outOpened (s : State) (k : Nat) : State := (pulseAbandon s k).updOut k (fun o => { o with openAt := s.now })
def outFlagged (s : State) (k : Nat) : State :=
  let s := s.raise F.SIO_STATUS_OUT_FAULT_NEW
  if s.flag F.SIO_OUTk_CFG_FAULT_STOP k then s.raise F.TLNK_PIN_FSTOP else s

theorem outFault_some {s : State} {k : Nat} (kind : Nat) (h : Faultable s k) :
    ∃ e, outFault s k kind = (outFlagged (outOpened (outCounted s k kind) k) k).journal e := by
  obtain ⟨drive, on, sound⟩ := h
  unfold outFault outFlagged outOpened outCounted State.note
  rw [if_neg (by rw [drive, on, sound]; simp)]
  exact ⟨_, rfl⟩

/-- Of a switch's registers, those that the steps of a fault write at its index. -/
theorem outKeys : ∀ k < 12, quietKey (F.SIO_OUTk_CFG_FAULT_STOP.key k) = true
    ∧ F.SIO_OUTk_CFG_FAULT_STOP.key k ≠ F.SIO_OUTk_STAT_FAULT_KIND.key k ∧ F.SIO_OUTk_CFG_FAULT_STOP.key k ≠ F.SIO_OUTk_CNT_FAULTS.key k
    ∧ F.SIO_OUTk_CFG_FAULT_STOP.key k ≠ F.SIO_STATUS_OUT_FAULT_NEW.key 0 ∧ F.SIO_OUTk_STAT_FAULT_KIND.key k ≠ F.SIO_OUTk_CNT_FAULTS.key k
    ∧ F.SIO_OUTk_STAT_FAULT_KIND.key k ≠ F.SIO_STATUS_OUT_FAULT_NEW.key 0 ∧ F.SIO_OUTk_STAT_FAULT_KIND.key k ≠ F.TLNK_PIN_FSTOP.key 0
    ∧ F.DEV_STATE_STATE.key 0 ≠ F.SIO_OUTk_STAT_FAULT_KIND.key k ∧ F.DEV_STATE_STATE.key 0 ≠ F.SIO_OUTk_CNT_FAULTS.key k := by
  decide +kernel

theorem outFlagged_keeps {x y : State} {k : Nat} (lt : k < 12) (h : Keeps x y) {stop : Bool} (hs : x.flag F.SIO_OUTk_CFG_FAULT_STOP k = stop) :
    Keeps (if stop = true then (x.set F.SIO_STATUS_OUT_FAULT_NEW 0 1).set F.TLNK_PIN_FSTOP 0 1 else x.set F.SIO_STATUS_OUT_FAULT_NEW 0 1)
      (outFlagged y k) := by
  obtain ⟨quiet, -, -, newNe, -⟩ := outKeys k lt
  have flagged := h.set_both F.SIO_STATUS_OUT_FAULT_NEW 0 1
  have same : (y.raise F.SIO_STATUS_OUT_FAULT_NEW).flag F.SIO_OUTk_CFG_FAULT_STOP k = stop := by
    refine (flagged.flag _ _ quiet).trans (Eq.trans ?_ hs)
    unfold State.flag
    rw [State.get_set_ne x 1 newNe]
  unfold outFlagged
  dsimp only
  rw [same]
  split
  · exact flagged.set_both F.TLNK_PIN_FSTOP 0 1
  · exact flagged

theorem outOpened_keeps (x : State) {k : Nat} (lt : k < 12) (now : Nat) :
    Keeps (x.updOut k (fun o => { o with pulse := none, openAt := now })) (outOpened x k) := by
  have back : Keeps (x.updOut k (fun o => { o with pulse := none, openAt := now })) x := ⟨fun _ _ => rfl, fun _ _ => rfl, rfl⟩
  exact (back.trans (keeps_pulseAbandon x k lt)).updOut

theorem outFault_keeps {s : State} {k : Nat} (lt : k < 12) (kind now : Nat) (h : Faultable s k) :
    Keeps (outLatched s k kind now (s.flag F.SIO_OUTk_CFG_FAULT_STOP k)) (outFault s k kind) := by
  obtain ⟨e, eq⟩ := outFault_some kind h
  obtain ⟨-, kindNe, countNe, -⟩ := outKeys k lt
  have stop : (outCounted s k kind).flag F.SIO_OUTk_CFG_FAULT_STOP k = s.flag F.SIO_OUTk_CFG_FAULT_STOP k := by
    unfold State.flag outCounted State.bump
    rw [State.get_set_ne _ _ countNe, State.get_set_ne _ _ kindNe]
    rfl
  rw [eq]
  exact (outFlagged_keeps lt (outOpened_keeps (outCounted s k kind) lt now) stop).journal

/-- The state of an output that has latched: its kind, and FSTOP. -/
theorem outLatched_get {u : State} {k kind now : Nat} (lt : k < 12) (small : kind < 8) :
    (∀ stop, (outLatched u k kind now stop).get F.SIO_OUTk_STAT_FAULT_KIND k = kind)
    ∧ (outLatched u k kind now true).flag F.TLNK_PIN_FSTOP = true ∧ (∀ stop, (outLatched u k kind now stop).dev = u.dev) := by
  obtain ⟨-, -, -, -, countNe, newNe, stopNe, devKind, devCount⟩ := outKeys k lt
  let v := (((u.indicate.set F.SIO_OUTk_STAT_FAULT_KIND k kind).counted F.SIO_OUTk_CNT_FAULTS k).updOut k
    (fun o => { o with pulse := none, openAt := now })).set F.SIO_STATUS_OUT_FAULT_NEW 0 1
  have latched : v.get F.SIO_OUTk_STAT_FAULT_KIND k = kind := by
    refine (State.get_set_ne _ 1 newNe).trans ((State.get_set_ne _ _ countNe).trans ?_)
    exact (State.get_set_self _ _ _ _).trans (Nat.mod_eq_of_lt small)
  have dev : v.dev = u.dev := by
    refine (dev_set (f := F.SIO_STATUS_OUT_FAULT_NEW) (by decide)).trans ?_
    exact (dev_set (s := u.indicate.set F.SIO_OUTk_STAT_FAULT_KIND k kind) devCount).trans (dev_set (s := u.indicate) devKind)
  refine ⟨fun stop => ?_, ?_, fun stop => ?_⟩
  · cases stop
    · exact latched
    · exact (State.get_set_ne v 1 stopNe).trans latched
  · exact congrArg (· != 0) (State.get_set_self v F.TLNK_PIN_FSTOP 0 1)
  · cases stop
    · exact dev
    · exact (dev_set (s := v) (by decide)).trans dev

/-- A latched fault leaves the sources as they are. -/
theorem DriveSteady.outLatched {u : State} (h : DriveSteady u) {k : Nat} (lt : k < 12) (kind now : Nat) (stop : Bool) :
    DriveSteady (outLatched u k kind now stop) := by
  obtain ⟨kindKey, countKey⟩ := (by decide +kernel : ∀ k < 12, drivesSource (F.SIO_OUTk_STAT_FAULT_KIND.key k) = false
    ∧ drivesSource (F.SIO_OUTk_CNT_FAULTS.key k) = false) k lt
  have indicated : DriveSteady u.indicate := h
  have counted : DriveSteady ((u.indicate.set F.SIO_OUTk_STAT_FAULT_KIND k kind).counted F.SIO_OUTk_CNT_FAULTS k) :=
    (indicated.set kindKey).set countKey
  have opened : DriveSteady (((u.indicate.set F.SIO_OUTk_STAT_FAULT_KIND k kind).counted F.SIO_OUTk_CNT_FAULTS k).updOut k
      (fun o => { o with pulse := none, openAt := now })) := counted
  have flagged := opened.set (f := F.SIO_STATUS_OUT_FAULT_NEW) (i := 0) (v := 1) (by decide)
  unfold Machine.outLatched
  dsimp only
  split
  · exact flagged.set (by decide)
  · exact flagged

/-- FSTOP holds the traction link at stop, but where EXTEST of COMMISSIONING drives its cell. -/
theorem LinesFollow.stopped {t : State} (h : LinesFollow t) (clear : tlClear t = false) (dev : t.dev ≠ .comm) :
    t.lines.tlp = false ∧ t.lines.stopN = false ∧ t.lines.still = false := by
  obtain ⟨permit, stop, still⟩ := h.link
  refine ⟨Bool.eq_false_iff.mpr fun on => ?_, Bool.eq_false_iff.mpr fun on => ?_, Bool.eq_false_iff.mpr fun on => ?_⟩
  · exact Bool.noConfusion (clear.symm.trans (permit on).2.1)
  · rcases stop on with ⟨-, ok⟩ | ⟨comm, -⟩
    · exact Bool.noConfusion (clear.symm.trans ok)
    · exact dev comm
  · exact Bool.noConfusion (clear.symm.trans (still on).2.1)

theorem not_comm_of_mayDrive {s : State} (h : mayDrive s = true) : s.dev ≠ .comm := by
  obtain ⟨-, dev, -⟩ := mayDrive_iff.mp h
  intro comm
  rw [comm] at dev
  simp at dev

theorem Result.dev {s u t : State} (h : Result s u t) : t.dev = u.dev := h.keeps.dev

theorem Result.flag {s u t : State} (h : Result s u t) (f : Fld) (i : Nat) (q : quietKey (f.key i) = true) : t.flag f i = u.flag f i :=
  congrArg (· != 0) (h.get f i q)

/-- A fault that latches: its state, the switch open, and the traction link at stop where it is to stop it. -/
theorem outFault_latches {c : Instr} {s u : State} {k kind : Nat} (lt : k < 12) (some : kind ≠ 0) (small : kind < 8)
    (run : exec c s = answer s (outFault u k kind)) (h : Faultable u k) (stop : u.flag F.SIO_OUTk_CFG_FAULT_STOP k = s.flag F.SIO_OUTk_CFG_FAULT_STOP k)
    (steady : DriveSteady u) :
    ∃ t, exec c s = .next t ∧ Result s (outLatched u k kind s.now (s.flag F.SIO_OUTk_CFG_FAULT_STOP k)) t ∧ switchClosed t k = false
      ∧ (s.flag F.SIO_OUTk_CFG_FAULT_STOP k = true → t.lines.tlp = false ∧ t.lines.stopN = false ∧ t.lines.still = false) := by
  have keeps := outFault_keeps lt kind s.now h
  rw [stop] at keeps
  have drive : DriveSteady (outFault u k kind) := (steady.outLatched lt kind s.now _).keeps keeps
  have result := (settled_result (s := s) drive).of_keeps keeps
  obtain ⟨kindOf, flagOf, devOf⟩ := outLatched_get (u := u) (kind := kind) (now := s.now) lt small
  refine ⟨_, run, result, ?_, ?_⟩
  · refine Bool.eq_false_iff.mpr fun on => some ?_
    obtain ⟨-, -, -, -, sound, -⟩ := result.follow.closed on
    rw [← kindOf, ← result.get _ _ ((by decide +kernel : ∀ k < 12, quietKey (F.SIO_OUTk_STAT_FAULT_KIND.key k) = true) k lt)]
    exact sound
  · intro stops
    rw [stops] at result
    have held : (settled s (outFault u k kind)).flag F.TLNK_PIN_FSTOP = true := (result.flag _ _ (by decide +kernel)).trans flagOf
    refine result.follow.stopped (by rw [tlClear, held]; rfl) ?_
    rw [result.dev, devOf]
    exact not_comm_of_mayDrive h.1

/-! ### A pulse that a fault abandons (R289) -/

theorem pulse_upd {l : List OutPort} {n m : Nat} {f : OutPort → OutPort} (hf : ∀ o, o.pulse = none → (f o).pulse = none)
    (h : (nth l m).pulse = none) : (nth (upd l n f) m).pulse = none := by
  by_cases e : n = m
  · subst e
    by_cases lt : n < l.length
    · rw [nth_upd_self lt]
      exact hf _ h
    · rw [upd, List.modify_eq_self (Nat.le_of_not_lt lt)]
      exact h
  · rw [nth_upd_ne l e]
    exact h

theorem pulse_cleared (l : List OutPort) (n now : Nat) : (nth (upd l n fun o => { o with pulse := none, openAt := now }) n).pulse = none := by
  by_cases lt : n < l.length
  · rw [nth_upd_self lt]
  · rw [upd, List.modify_eq_self (Nat.le_of_not_lt lt), nth, List.getD_eq_default _ _ (Nat.le_of_not_lt lt)]
    rfl

theorem canSync_sio (s : State) : (canSync s).sio = s.sio := by
  have ended (t : State) (x b : Nat) : (reqEnd t x b).sio = t.sio := by
    unfold reqEnd bufUnlock
    dsimp only
    split <;> rfl
  have cut (t : State) (x : Nat) : (attemptCut t x).sio = t.sio := by
    unfold attemptCut
    split <;> rfl
  have one (t : State) (x : Nat) : (canSyncOne t x).sio = t.sio := by
    unfold canSyncOne
    dsimp only
    split
    · refine (forN_keeps State.sio (fun t i _ => ?_) _).trans (cut _ x)
      split
      · exact ended t x i
      · rfl
    · rfl
  exact (one _ 1).trans (one s 0)

/-- Output `k` without a pulse, and its count of pulses abandoned. -/
def Unpulsed (k v : Nat) (t : State) : Prop := (t.outPort k).pulse = none ∧ t.get F.SIO_OUTk_CNT_ABANDONED k = v

/-- Of what settling writes, only the switches' following writes a count of pulses abandoned. -/
theorem abandoned_keys : ∀ k < 12, journalKey (F.SIO_OUTk_CNT_ABANDONED.key k) = false ∧ (∀ i < 16, pairKey i (F.SIO_OUTk_CNT_ABANDONED.key k) = false)
    ∧ F.SIO_OUTk_CNT_ABANDONED.key k ≠ F.SIO_IN_RAW_A.key 0 ∧ F.SIO_OUTk_CNT_ABANDONED.key k ≠ F.SIO_IN_RAW_B.key 0
    ∧ F.SIO_OUTk_CNT_ABANDONED.key k ≠ F.EXC_MODE_DRIVE_EN.key 0 ∧ canSyncKey 0 (F.SIO_OUTk_CNT_ABANDONED.key k) = false
    ∧ canSyncKey 1 (F.SIO_OUTk_CNT_ABANDONED.key k) = false ∧ demandKey (F.SIO_OUTk_CNT_ABANDONED.key k) = false := by
  decide +kernel

theorem unpulsed_outStep {s : State} {k v : Nat} (lt : k < 12) (h : Unpulsed k v s) : Unpulsed k v (outStep s) := by
  unfold outStep
  refine forN_holds (fun t i _ held => ?_) h
  obtain ⟨none, count⟩ := held
  have moved (f : OutPort → OutPort) (hf : ∀ o, (f o).pulse = o.pulse) : Unpulsed k v (t.updOut i f) :=
    ⟨pulse_upd (fun o ho => (hf o).trans ho) none, count⟩
  dsimp only
  split
  · rename_i abandons
    have ne : i ≠ k := by
      rintro rfl
      rw [none] at abandons
      exact Bool.noConfusion abandons.1
    have dropped : Unpulsed k v ((t.updOut i fun o => { o with pulse := Option.none, openAt := t.now }).bump F.SIO_OUTk_CNT_ABANDONED i) :=
      ⟨pulse_upd (fun _ _ => rfl) none, (get_set_index _ ne.symm (by decide) _).trans count⟩
    unfold pulseAbandon
    split
    · exact ⟨none, count⟩
    · refine ⟨?_, ?_⟩
      · unfold State.outPort State.countNote
        rw [journal_sio]
        exact dropped.1
      · exact ((aside_journal (w := journalKey) (fun _ q => q) _ _).get (abandoned_keys k lt).1).trans dropped.2
  · split
    · exact moved _ fun _ => rfl
    · split
      · exact moved _ fun _ => rfl
      · exact ⟨none, count⟩

theorem Unpulsed.putLines {s : State} {k v : Nat} (h : Unpulsed k v s) (l : List Instr) : Unpulsed k v ((Machine.putLines s).putPending l) := h

theorem sampleInputs_outs (s : State) : (sampleInputs s).sio.outs = s.sio.outs := by
  unfold sampleInputs
  dsimp only
  split
  · rfl
  · split
    · rfl
    · exact forN_keeps (fun t => t.sio.outs) (fun t i lt => (step_pairSamples t lt _).outs) _

theorem sampleInputs_abandoned (s : State) {k : Nat} (lt : k < 12) :
    (sampleInputs s).get F.SIO_OUTk_CNT_ABANDONED k = s.get F.SIO_OUTk_CNT_ABANDONED k := by
  obtain ⟨-, pair, rawA, rawB, -⟩ := abandoned_keys k lt
  unfold sampleInputs
  dsimp only
  split
  · rfl
  · split
    · rfl
    · refine (forN_keeps (fun t => t.get F.SIO_OUTk_CNT_ABANDONED k) (fun t i lti => (step_pairSamples t lti _).aside.get (pair i lti)) _).trans ?_
      exact (State.get_set_ne _ _ rawB).trans (State.get_set_ne _ _ rawA)

/-- An output without a pulse keeps its count as the state settles. -/
theorem unpulsed_settled {s u : State} (d : DriveSteady u) {k v : Nat} (lt : k < 12) (h : Unpulsed k v u) : Unpulsed k v (settled s u) := by
  obtain ⟨none, count⟩ := h
  obtain ⟨-, -, -, -, drive, can0, can1, demand⟩ := abandoned_keys k lt
  have sampled : Unpulsed k v (sampleInputs u) :=
    ⟨by rw [State.outPort, sampleInputs_outs]; exact none, (sampleInputs_abandoned u lt).trans count⟩
  have driven : Unpulsed k v (syncDrive (sampleInputs u)) := by
    rw [syncDrive_steady (d.keeps (keeps_sampleInputs u))]
    exact ⟨sampled.1, (State.get_set_ne _ _ drive).trans sampled.2⟩
  have synced : Unpulsed k v (canSync (syncDrive (sampleInputs u))) := by
    refine ⟨by rw [State.outPort, canSync_sio]; exact driven.1, Eq.trans ?_ driven.2⟩
    exact ((aside_canSyncOne _ 1).get can1).trans ((aside_canSyncOne _ 0).get can0)
  have fabric : Unpulsed k v (fabSettle (canSync (syncDrive (sampleInputs u)))) := by
    refine ⟨?_, ((aside_fabSettle _).get demand).trans synced.2⟩
    obtain ⟨x, run⟩ := fabRun_fab 4096 (canSync (syncDrive (sampleInputs u)))
    have same : (fabSettle (canSync (syncDrive (sampleInputs u)))).sio = (canSync (syncDrive (sampleInputs u))).sio := by
      unfold fabSettle
      rw [run]
      split
      · rfl
      · split <;> rfl
    rw [State.outPort, same]
    exact synced.1
  rw [settled_eq]
  exact (unpulsed_outStep lt fabric).putLines s.pending

/-- A fault over a pulse counts it abandoned. -/
theorem unpulsed_outFault {s : State} {k kind : Nat} (lt : k < 12) (h : Faultable s k) (pulsing : (s.outPort k).pulse.isSome = true) :
    Unpulsed k (satInc F.SIO_OUTk_CNT_ABANDONED.width (s.get F.SIO_OUTk_CNT_ABANDONED k)) (outFault s k kind) := by
  obtain ⟨e, eq⟩ := outFault_some kind h
  obtain ⟨kindNe, countNe, newNe, stopNe⟩ := (by decide +kernel : ∀ k < 12, F.SIO_OUTk_CNT_ABANDONED.key k ≠ F.SIO_OUTk_STAT_FAULT_KIND.key k
    ∧ F.SIO_OUTk_CNT_ABANDONED.key k ≠ F.SIO_OUTk_CNT_FAULTS.key k ∧ F.SIO_OUTk_CNT_ABANDONED.key k ≠ F.SIO_STATUS_OUT_FAULT_NEW.key 0
    ∧ F.SIO_OUTk_CNT_ABANDONED.key k ≠ F.TLNK_PIN_FSTOP.key 0) k lt
  have before : (outCounted s k kind).get F.SIO_OUTk_CNT_ABANDONED k = s.get F.SIO_OUTk_CNT_ABANDONED k :=
    (State.get_set_ne _ _ countNe).trans (State.get_set_ne s.indicate _ kindNe)
  have abandoned : Unpulsed k (satInc F.SIO_OUTk_CNT_ABANDONED.width (s.get F.SIO_OUTk_CNT_ABANDONED k)) (pulseAbandon (outCounted s k kind) k) := by
    have some : ¬((outCounted s k kind).outPort k).pulse.isNone = true := by
      change ¬(s.outPort k).pulse.isNone = true
      rw [Option.isNone_iff_eq_none]
      exact Option.isSome_iff_ne_none.mp pulsing
    unfold pulseAbandon
    rw [if_neg some]
    refine ⟨?_, ?_⟩
    · unfold State.outPort State.countNote
      rw [journal_sio]
      exact pulse_cleared _ k _
    · refine ((aside_journal (w := journalKey) (fun _ q => q) _ _).get (abandoned_keys k lt).1).trans ?_
      refine (get_write_self _ F.SIO_OUTk_CNT_ABANDONED k).2.2.2.trans ?_
      rw [← before]
      rfl
  obtain ⟨none, count⟩ := abandoned
  have opened : Unpulsed k (satInc F.SIO_OUTk_CNT_ABANDONED.width (s.get F.SIO_OUTk_CNT_ABANDONED k)) (outOpened (outCounted s k kind) k) :=
    ⟨pulse_upd (fun _ ho => ho) none, count⟩
  have flagged : Unpulsed k (satInc F.SIO_OUTk_CNT_ABANDONED.width (s.get F.SIO_OUTk_CNT_ABANDONED k)) (outFlagged (outOpened (outCounted s k kind) k) k) := by
    have new := (State.get_set_ne (outOpened (outCounted s k kind) k) 1 newNe).trans opened.2
    unfold outFlagged
    dsimp only
    split
    · exact ⟨opened.1, (State.get_set_ne _ 1 stopNe).trans new⟩
    · exact ⟨opened.1, new⟩
  rw [eq]
  refine ⟨?_, ((aside_journal (w := journalKey) (fun _ q => q) _ e).get (abandoned_keys k lt).1).trans flagged.2⟩
  rw [State.outPort, journal_sio]
  exact flagged.1

/-! ### Reads that judge a ball (R286, R290) -/

/-- A level of a ball read 0, and the other as it is, which is open. -/
def ballRead (u : State) (k : Nat) (no other : Fld) : State :=
  ((u.set no k 0).set other k (if Config.ballReads u.freeCtr then 1 else 0)).fresh

/-- What judges whether output `k` takes a fault, and the sources, stand in `u` as in `s`. -/
structure OutSame (k : Nat) (s u : State) : Prop where
  drive : mayDrive u = mayDrive s
  fields : ∀ f ∈ [F.SIO_OUTk_CFG_EN, F.SIO_OUTk_CFG_FAULT_STOP, F.SIO_OUTk_STAT_FAULT_KIND], u.get f k = s.get f k
  steady : DriveSteady s → DriveSteady u

theorem mayDrive_set (s : State) {f : Fld} {i : Nat} (v : Nat) (h : drivesSource (f.key i) = false) : mayDrive (s.set f i v) = mayDrive s := by
  simp only [drivesSource, Bool.or_eq_false_iff, beq_eq_false_iff_ne, ne_eq] at h
  obtain ⟨⟨⟨role, dev⟩, -⟩, -⟩ := h
  unfold mayDrive follows State.role
  rw [dev_set (fun e => dev e.symm), State.get_set_ne s v fun e => role e.symm]
  rfl

namespace OutSame

variable {k : Nat} {s u : State}

theorem refl (s : State) : OutSame k s s := ⟨rfl, fun _ _ => rfl, id⟩

theorem set (h : OutSame k s u) {f : Fld} {i : Nat} (source : drivesSource (f.key i) = false)
    (apart : ∀ g ∈ [F.SIO_OUTk_CFG_EN, F.SIO_OUTk_CFG_FAULT_STOP, F.SIO_OUTk_STAT_FAULT_KIND], g.key k ≠ f.key i) (v : Nat) : OutSame k s (u.set f i v) :=
  ⟨(mayDrive_set u v source).trans h.drive, fun g mem => (State.get_set_ne u v (apart g mem)).trans (h.fields g mem), fun d => (h.steady d).set source⟩

/-- A read of the ball. -/
theorem ball (h : OutSame k s u) (lt : k < 12) {no other : Fld} (hn : no ∈ [F.SIO_OUTk_STAT_SENSE_HI, F.SIO_OUTk_STAT_SENSE_LO])
    (ho : other ∈ [F.SIO_OUTk_STAT_SENSE_HI, F.SIO_OUTk_STAT_SENSE_LO]) : OutSame k s (ballRead u k no other) := by
  have keys : ∀ k < 12, ∀ f ∈ [F.SIO_OUTk_STAT_SENSE_HI, F.SIO_OUTk_STAT_SENSE_LO], drivesSource (f.key k) = false
      ∧ ∀ g ∈ [F.SIO_OUTk_CFG_EN, F.SIO_OUTk_CFG_FAULT_STOP, F.SIO_OUTk_STAT_FAULT_KIND], g.key k ≠ f.key k := by decide +kernel
  have first := h.set (keys k lt no hn).1 (keys k lt no hn).2 0
  obtain ⟨drive, fields, steady⟩ := first.set (keys k lt other ho).1 (keys k lt other ho).2 (if Config.ballReads u.freeCtr then 1 else 0)
  exact ⟨drive, fields, steady⟩

/-- The first failure after a takeover (R362). -/
theorem firstErrFrom (h : OutSame k s u) (lt : k < 12) (latency from_ : Nat) : OutSame k s (u.firstErrFrom F.URED_FIRST_SOUT latency from_) := by
  have keys : ∀ k < 12, ∀ f ∈ [F.URED_FIRST_SOUT, F.URED_STATUS_FIRST_ERR], drivesSource (f.key 0) = false
      ∧ ∀ g ∈ [F.SIO_OUTk_CFG_EN, F.SIO_OUTk_CFG_FAULT_STOP, F.SIO_OUTk_STAT_FAULT_KIND], g.key k ≠ f.key 0 := by decide +kernel
  unfold State.firstErrFrom
  split
  · split
    · obtain ⟨sout, soutApart⟩ := keys k lt F.URED_FIRST_SOUT (by decide)
      obtain ⟨err, errApart⟩ := keys k lt F.URED_STATUS_FIRST_ERR (by decide)
      exact (h.set sout soutApart 1).set err errApart 1
    · exact h
  · exact h

theorem flag (h : OutSame k s u) {f : Fld} (mem : f ∈ [F.SIO_OUTk_CFG_EN, F.SIO_OUTk_CFG_FAULT_STOP, F.SIO_OUTk_STAT_FAULT_KIND]) :
    u.flag f k = s.flag f k := congrArg (· != 0) (h.fields f mem)

theorem faultable (h : OutSame k s u) (f : Faultable s k) : Faultable u k :=
  ⟨h.drive.trans f.1, (h.flag (by decide)).trans f.2.1, (h.fields _ (by decide)).trans f.2.2⟩

end OutSame

theorem closedLong_open {s : State} {k : Nat} (h : switchClosed s k = false) : closedLong s k = false := by
  rw [closedLong, show bitAt s.lines.sout k = false from h]
  rfl

theorem ballRead_high (s : State) (k : Nat) : ballNotHigh s k = ballRead s k F.SIO_OUTk_STAT_SENSE_HI F.SIO_OUTk_STAT_SENSE_LO := rfl

theorem ballRead_low (s : State) (k : Nat) : ballNotLow s k = ballRead s k F.SIO_OUTk_STAT_SENSE_LO F.SIO_OUTk_STAT_SENSE_HI := rfl

/-- Settles O43: what a fault leaves, and when one is judged. -/
theorem outputFaultsOpenTheSwitch : Obligations.OutputFaultsOpenTheSwitch := by
  intro s k lines flt latches open_
  have steady := lines.steady
  have lt : k.val < 12 := k.isLt
  have latch {c : Instr} {u : State} {kind : Nat} (some : kind ≠ 0) (small : kind < 8) (run : exec c s = answer s (outFault u k.val kind))
      (same : OutSame k.val s u) (f : Faultable s k.val) : latches c u kind :=
    outFault_latches lt some small run (same.faultable f) (same.flag (by decide)) (same.steady steady)
  have nothing {c : Instr} {u : State} (run : exec c s = answer s u) (eq : u = s) : Answers c s s := answers_of (run.trans (congrArg (answer s) eq)) steady
  refine ⟨fun closed => ⟨fun long limit => ?_, fun short limit => ?_, ?_⟩, fun faultable => ⟨?_, ?_, fun pulsing c mem => ?_⟩, fun off => ⟨?_, ?_⟩,
    fun opened => ⟨fun limit => ?_, fun drive on sound none => ?_, fun off none => ?_, fun pulsing => ?_⟩⟩
  · obtain ⟨-, live, -, on, sound, -⟩ := lines.closed closed
    have drive : mayDrive s = true := (Bool.and_eq_true_iff.mp (live_iff.mpr live)).1
    have first : OutSame k.val s (if s.get F.SIO_OUTk_STAT_FAULT_KIND k.val = 0 then s.firstErrFrom F.URED_FIRST_SOUT 12000 (s.firstTick k.val) else s) := by
      rw [if_pos sound]
      exact (OutSame.refl s).firstErrFrom lt _ _
    have judged : closedLong s k.val = true := by
      rw [closedLong, show bitAt s.lines.sout k.val = true from closed, decide_eq_true long]
      rfl
    refine latch ?_ ?_ (congrArg (answer s) (if_pos judged)) (first.ball lt (by decide) (by decide)) ⟨drive, on, sound⟩
    · cases limit <;> decide
    · cases limit <;> decide
  · have early : closedLong s k.val = false := by
      rw [closedLong, decide_eq_false (Nat.not_le_of_lt short), Bool.and_false]
    exact nothing rfl (if_neg (by rw [early]; exact Bool.false_ne_true))
  · exact nothing rfl (if_neg fun h => by rw [show bitAt s.lines.sout k.val = true from closed] at h; exact Bool.noConfusion h.1)
  · exact latch (by decide) (by decide) rfl (.refl s) faultable
  · exact latch (by decide) (by decide) rfl (.refl s) faultable
  · have abandons (kind : Nat) (run : exec c s = answer s (outFault s k.val kind)) : ∃ t, exec c s = .next t ∧ (t.outPort k.val).pulse = none
        ∧ t.get F.SIO_OUTk_CNT_ABANDONED k.val = satInc F.SIO_OUTk_CNT_ABANDONED.width (s.get F.SIO_OUTk_CNT_ABANDONED k.val) := by
      have drive : DriveSteady (outFault s k.val kind) := (steady.outLatched lt kind s.now _).keeps (outFault_keeps lt kind s.now faultable)
      exact ⟨_, run, unpulsed_settled drive lt (unpulsed_outFault lt faultable pulsing)⟩
    rcases List.mem_pair.mp mem with rfl | rfl
    · exact abandons 3 rfl
    · exact abandons 4 rfl
  · exact nothing rfl (outFault_none 3 off)
  · exact nothing rfl (outFault_none 4 off)
  · exact nothing rfl (if_neg (by rw [closedLong_open opened]; exact Bool.false_ne_true))
  · have judged : (!bitAt s.lines.sout k.val) = true ∧ (s.outPort k.val).pulse.isNone = true :=
      ⟨by rw [show bitAt s.lines.sout k.val = false from opened]; rfl, by rw [none]; rfl⟩
    exact latch (by decide) (by decide) (congrArg (answer s) (if_pos judged)) ((OutSame.refl s).ball lt (by decide) (by decide)) ⟨drive, on, sound⟩
  · have judged : (!bitAt s.lines.sout k.val) = true ∧ (s.outPort k.val).pulse.isNone = true :=
      ⟨by rw [show bitAt s.lines.sout k.val = false from opened]; rfl, by rw [none]; rfl⟩
    have same : OutSame k.val s (ballRead s k.val F.SIO_OUTk_STAT_SENSE_LO F.SIO_OUTk_STAT_SENSE_HI) := (OutSame.refl s).ball lt (by decide) (by decide)
    have unfaulted : outFault (ballNotLow s k.val) k.val 1 = ballRead s k.val F.SIO_OUTk_STAT_SENSE_LO F.SIO_OUTk_STAT_SENSE_HI := by
      refine outFault_none 1 ?_
      rw [ballRead_low, same.drive, same.flag (by decide), same.fields _ (by decide)]
      exact off
    exact answers_of (congrArg (answer s) ((if_pos judged).trans unfaulted)) (same.steady steady)
  · exact nothing rfl (if_neg fun h => pulsing (Option.isNone_iff_eq_none.mp h.2))

end Sys2Proof.Machine
end

section
/-!
PROOFS. Error counters and states of the CAN controllers, and their loss (R316 to R321). Settles O48.
-/

namespace Sys2Proof.Machine

set_option Elab.async false

/-! ### The mode of a controller (R307) -/

/-- The fields of a controller that its mode rests on. -/
def modeFields : List Fld := [F.CANx_CFG_EN, F.CANx_ERR_LOST, F.CANx_NBT_NBRP, F.CANx_NBT_NTSEG1, F.CANx_NBT_NTSEG2, F.CANx_NBT_NSJW,
  F.CANx_DBT_DBRP, F.CANx_DBT_DTSEG1, F.CANx_DBT_DTSEG2, F.CANx_DBT_DSJW]

theorem canNormal_congr {s t : State} {x : Nat} (fields : ∀ f ∈ modeFields, t.get (f.can x) = s.get (f.can x)) (dev : t.dev = s.dev)
    (role : t.role = s.role) (ext : t.ext = s.ext) (now : t.now = s.now) : canNormal t x = canNormal s x := by
  have counting : t.counting = s.counting := by rw [State.counting, State.counting, dev]
  have drives : canDrives t = canDrives s := by rw [canDrives, canDrives, role, dev, intlkActive, intlkActive, ext, now]
  have timing : timingOk t x = timingOk s x := by
    unfold timingOk nomBit dataBit
    rw [fields F.CANx_NBT_NBRP (by decide), fields F.CANx_NBT_NTSEG1 (by decide), fields F.CANx_NBT_NTSEG2 (by decide),
      fields F.CANx_NBT_NSJW (by decide), fields F.CANx_DBT_DBRP (by decide), fields F.CANx_DBT_DTSEG1 (by decide),
      fields F.CANx_DBT_DTSEG2 (by decide), fields F.CANx_DBT_DSJW (by decide)]
  unfold canNormal canUp State.flag
  rw [fields F.CANx_CFG_EN (by decide), fields F.CANx_ERR_LOST (by decide), counting, timing, drives]

theorem Keeps.canNormal {s t : State} (h : Keeps s t) {x : Nat} (lt : x < 2) : Machine.canNormal t x = Machine.canNormal s x :=
  canNormal_congr (fun f mem => h.get _ 0 ((by decide +kernel : ∀ x < 2, ∀ f ∈ modeFields, quietKey ((f.can x).key 0) = true) x lt f mem))
    h.dev h.role h.ext h.now

/-! ### What errors write of a controller -/

/-- The fields of a controller that errors and recovery write. -/
def errFields : List Fld := [F.CANx_ERR_TEC, F.CANx_ERR_REC, F.CANx_ERR_RP, F.CANx_ERR_ESTATE, F.CANx_ERR_LEC, F.CANx_ERR_LEC_DATA,
  F.CANx_CNT_RECOV_SEQ, F.CANx_CNT_BO_CNT, F.CANx_STATUS_BUSOFF, F.CANx_STATUS_EPASS, F.CANx_CFG_AUTO_REC]

theorem errFields_keys : ∀ x < 2, ∀ f ∈ errFields, (∀ g ∈ errFields, f = g ∨ (f.can x).key 0 ≠ (g.can x).key 0) ∧ journalKey ((f.can x).key 0) = false
    ∧ drivesSource ((f.can x).key 0) = false ∧ (∀ g ∈ modeFields, (g.can x).key 0 ≠ (f.can x).key 0) := by
  decide +kernel

theorem errFields_apart : ∀ x < 2, ∀ f ∈ errFields, (∀ i < 16, pairKey i ((f.can x).key 0) = false)
    ∧ (f.can x).key 0 ≠ F.SIO_IN_RAW_A.key 0 ∧ (f.can x).key 0 ≠ F.SIO_IN_RAW_B.key 0
    ∧ (f.can x).key 0 ≠ F.EXC_MODE_DRIVE_EN.key 0 ∧ canSyncKey (1 - x) ((f.can x).key 0) = false
    ∧ (f.can x).key 0 ≠ (F.CANx_ERR_MONITOR.can x).key 0 ∧ demandKey ((f.can x).key 0) = false ∧ outStepKey ((f.can x).key 0) = false := by
  decide +kernel

theorem err_get_set (s : State) {x : Nat} (lt : x < 2) {f g : Fld} (h : f ∈ errFields ∧ g ∈ errFields ∧ f ≠ g) (v : Nat) :
    (s.set (g.can x) 0 v).get (f.can x) = s.get (f.can x) :=
  State.get_set_ne s v (((errFields_keys x lt f h.1).1 g h.2.1).resolve_left h.2.2)

theorem err_get_note (s : State) {x : Nat} (lt : x < 2) {f : Fld} (h : f ∈ errFields) (a b c d e : Nat) : (s.note a b c d e).get (f.can x) = s.get (f.can x) :=
  (aside_note s a b c d e).get (errFields_keys x lt f h).2.1

/-- What leaves a controller's mode and the sources as they are. -/
structure ErrStep (x : Nat) (s u : State) : Prop where
  normal : canNormal u x = canNormal s x
  steady : DriveSteady s → DriveSteady u

namespace ErrStep

variable {x : Nat} {s u : State}

theorem refl (s : State) : ErrStep x s s := ⟨rfl, id⟩

theorem set (h : ErrStep x s u) (lt : x < 2) {f : Fld} (mem : f ∈ errFields) (v : Nat) : ErrStep x s (u.set (f.can x) 0 v) := by
  obtain ⟨-, -, source, mode⟩ := errFields_keys x lt f mem
  have apart := source
  simp only [drivesSource, Bool.or_eq_false_iff, beq_eq_false_iff_ne, ne_eq] at apart
  obtain ⟨⟨⟨role, dev⟩, -⟩, -⟩ := apart
  refine ⟨Eq.trans (canNormal_congr (fun g hg => State.get_set_ne u v (mode g hg)) (dev_set fun e => dev e.symm) ?_ rfl rfl) h.normal,
    fun d => (h.steady d).set source⟩
  unfold State.role
  rw [State.get_set_ne u v fun e => role e.symm]

theorem keeps (h : ErrStep x s u) (lt : x < 2) {v : State} (k : Keeps u v) : ErrStep x s v :=
  ⟨(k.canNormal lt).trans h.normal, fun d => (h.steady d).keeps k⟩

end ErrStep

/-- The fields of a controller in normal mode, as settling leaves them. -/
theorem settled_normal {s u : State} {x : Nat} (lt : x < 2) (d : DriveSteady u) (normal : canNormal u x = true) {f : Fld} (mem : f ∈ errFields) :
    (settled s u).get (f.can x) = u.get (f.can x) := by
  obtain ⟨pair, rawA, rawB, drive, other, monitor, demand, out⟩ := errFields_apart x lt f mem
  have sampled : (sampleInputs u).get (f.can x) = u.get (f.can x) := by
    unfold sampleInputs
    dsimp only
    split
    · rfl
    · split
      · rfl
      · refine (forN_keeps (fun t => t.get (f.can x)) (fun t i lti => (step_pairSamples t lti _).aside.get (pair i lti)) _).trans ?_
        exact (State.get_set_ne _ _ rawB).trans (State.get_set_ne _ _ rawA)
  have driven : (syncDrive (sampleInputs u)).get (f.can x) = u.get (f.can x) := by
    rw [syncDrive_steady (d.keeps (keeps_sampleInputs u))]
    exact (State.get_set_ne _ _ drive).trans sampled
  have mode : canNormal (syncDrive (sampleInputs u)) x = true :=
    (((keeps_sampleInputs u).trans (keeps_syncDrive _ (d.keeps (keeps_sampleInputs u)))).canNormal lt).trans normal
  have shown {w : State} (h : canNormal w x = true) : (canSyncOne w x).get (f.can x) = w.get (f.can x) := by
    have drives : canDrives w = true := (Bool.and_eq_true_iff.mp h).2
    have off : (canUp w x && !canDrives w) = false := by rw [drives, Bool.not_true, Bool.and_false]
    unfold canSyncOne
    dsimp only
    rw [off, if_neg fun h => Bool.noConfusion h.1]
    exact State.get_set_ne _ _ monitor
  have synced : (canSync (syncDrive (sampleInputs u))).get (f.can x) = u.get (f.can x) := by
    rcases (by omega : x = 0 ∨ x = 1) with rfl | rfl
    · exact ((aside_canSyncOne _ 1).get other).trans ((shown mode).trans driven)
    · have kept : canNormal (canSyncOne (syncDrive (sampleInputs u)) 0) 1 = true := ((keeps_canSyncOne _ (by decide)).canNormal (by decide)).trans mode
      exact (shown kept).trans (((aside_canSyncOne _ 0).get other).trans driven)
  rw [settled_get, settle]
  exact ((aside_outStep _).get out).trans (((aside_fabSettle _).get demand).trans synced)

/-! ### The error state (R316, R317) -/

theorem recOf_congr {s t : State} {x : Nat} (rp : t.get (F.CANx_ERR_RP.can x) = s.get (F.CANx_ERR_RP.can x))
    (count : t.get (F.CANx_ERR_REC.can x) = s.get (F.CANx_ERR_REC.can x)) : recOf t x = recOf s x := by
  unfold recOf State.flag
  rw [rp, count]

theorem putRec_rec (s : State) {x : Nat} (lt : x < 2) (v : Nat) : recOf (putRec s x v) x = min v 128 := by
  have rp : (putRec s x v).get (F.CANx_ERR_RP.can x) = b2n (decide (128 ≤ v)) := (State.get_set_self _ _ _ _).trans (b2n_mod _)
  have count : (putRec s x v).get (F.CANx_ERR_REC.can x) = min v 127 := by
    refine (err_get_set _ lt (by decide) _).trans ((State.get_set_self _ _ _ _).trans (Nat.mod_eq_of_lt ?_))
    change min v 127 < 128
    omega
  unfold recOf State.flag
  rw [rp, count]
  by_cases h : 128 ≤ v
  · rw [decide_eq_true h]
    exact (Nat.min_eq_right h).symm
  · rw [decide_eq_false h]
    change min v 127 = _
    omega

theorem putRec_get (s : State) {x : Nat} (lt : x < 2) (v : Nat) {f : Fld} (mem : f ∈ errFields) (rec_ : f ≠ F.CANx_ERR_REC) (rp : f ≠ F.CANx_ERR_RP) :
    (putRec s x v).get (f.can x) = s.get (f.can x) :=
  (err_get_set _ lt ⟨mem, by decide, rp⟩ _).trans (err_get_set _ lt ⟨mem, by decide, rec_⟩ _)

theorem putRec_step (s : State) {x : Nat} (lt : x < 2) (v : Nat) : ErrStep x s (putRec s x v) :=
  ((ErrStep.refl s).set (f := F.CANx_ERR_REC) lt (by decide) _).set (f := F.CANx_ERR_RP) lt (by decide) _

/-- Entry to bus-off, without its journal entry. -/
def busOffSet (s : State) (x : Nat) : State :=
  let s := s.set (F.CANx_ERR_TEC.can x) 0 255
  let s := s.set (F.CANx_ERR_ESTATE.can x) 0 (if s.flag (F.CANx_CFG_AUTO_REC.can x) then 3 else 2)
  ((s.set (F.CANx_CNT_RECOV_SEQ.can x) 0 0).bump (F.CANx_CNT_BO_CNT.can x)).raise (F.CANx_STATUS_BUSOFF.can x)

theorem busOff_eq (s : State) (x : Nat) : busOff s x =
    let t := (busOffSet s x).updCan x (fun c => { c with boSince := some s.now, onBus := none })
    t.note 0 (canBlk x) 4 0xFF (canErrWord t x) := rfl

theorem busOff_step (s : State) {x : Nat} (lt : x < 2) : ErrStep x s (busOff s x) := by
  have set : ErrStep x s (busOffSet s x) := (((((ErrStep.refl s).set (f := F.CANx_ERR_TEC) lt (by decide) _).set (f := F.CANx_ERR_ESTATE) lt (by decide) _).set
    (f := F.CANx_CNT_RECOV_SEQ) lt (by decide) _).set (f := F.CANx_CNT_BO_CNT) lt (by decide) _).set (f := F.CANx_STATUS_BUSOFF) lt (by decide) _
  rw [busOff_eq]
  exact (set.keeps lt (keeps_can _ _)).keeps lt (keeps_note _ _ _ _ _ _)

/-- What entry to bus-off shows. -/
theorem busOff_get (s : State) {x : Nat} (lt : x < 2) :
    (busOff s x).get (F.CANx_ERR_TEC.can x) = 255 ∧ (busOff s x).get (F.CANx_STATUS_BUSOFF.can x) = 1
    ∧ (busOff s x).get (F.CANx_ERR_ESTATE.can x) = (if s.flag (F.CANx_CFG_AUTO_REC.can x) then 3 else 2)
    ∧ (busOff s x).get (F.CANx_CNT_RECOV_SEQ.can x) = 0
    ∧ (busOff s x).get (F.CANx_CNT_BO_CNT.can x) = satInc (F.CANx_CNT_BO_CNT.can x).width (s.get (F.CANx_CNT_BO_CNT.can x))
    ∧ ∀ f ∈ [F.CANx_ERR_LEC, F.CANx_ERR_LEC_DATA], (busOff s x).get (f.can x) = s.get (f.can x) := by
  have read {f : Fld} (mem : f ∈ errFields) : (busOff s x).get (f.can x) = (busOffSet s x).get (f.can x) := by
    have moved (w : State) (g : CanCtl → CanCtl) : (w.updCan x g).get (f.can x) = w.get (f.can x) := rfl
    rw [busOff_eq]
    dsimp only
    rw [err_get_note _ lt mem, moved]
  let a := s.set (F.CANx_ERR_TEC.can x) 0 255
  let b := a.set (F.CANx_ERR_ESTATE.can x) 0 (if a.flag (F.CANx_CFG_AUTO_REC.can x) then 3 else 2)
  let c := b.set (F.CANx_CNT_RECOV_SEQ.can x) 0 0
  let d := c.bump (F.CANx_CNT_BO_CNT.can x)
  have last {f : Fld} (mem : f ∈ errFields) (ne : f ≠ F.CANx_STATUS_BUSOFF) : (busOff s x).get (f.can x) = d.get (f.can x) :=
    (read mem).trans (err_get_set d lt ⟨mem, by decide, ne⟩ 1)
  have counted {f : Fld} (mem : f ∈ errFields) (ne : f ≠ F.CANx_CNT_BO_CNT) : d.get (f.can x) = c.get (f.can x) :=
    err_get_set c lt ⟨mem, by decide, ne⟩ _
  have cleared {f : Fld} (mem : f ∈ errFields) (ne : f ≠ F.CANx_CNT_RECOV_SEQ) : c.get (f.can x) = b.get (f.can x) :=
    err_get_set b lt ⟨mem, by decide, ne⟩ 0
  have stated {f : Fld} (mem : f ∈ errFields) (ne : f ≠ F.CANx_ERR_ESTATE) : b.get (f.can x) = a.get (f.can x) :=
    err_get_set a lt ⟨mem, by decide, ne⟩ _
  have full {f : Fld} (mem : f ∈ errFields) (ne : f ≠ F.CANx_ERR_TEC) : a.get (f.can x) = s.get (f.can x) :=
    err_get_set s lt ⟨mem, by decide, ne⟩ 255
  have auto : a.flag (F.CANx_CFG_AUTO_REC.can x) = s.flag (F.CANx_CFG_AUTO_REC.can x) := congrArg (· != 0) (full (by decide) (by decide))
  refine ⟨?_, ?_, ?_, ?_, ?_, fun f mem => ?_⟩
  · rw [last (by decide) (by decide), counted (by decide) (by decide), cleared (by decide) (by decide), stated (by decide) (by decide)]
    exact State.get_set_self _ _ _ _
  · rw [read (by decide)]
    exact State.get_set_self d _ _ _
  · rw [last (by decide) (by decide), counted (by decide) (by decide), cleared (by decide) (by decide)]
    refine (State.get_set_self a _ _ _).trans ?_
    rw [auto]
    split <;> rfl
  · rw [last (by decide) (by decide), counted (by decide) (by decide)]
    exact State.get_set_self b _ _ _
  · rw [last (by decide) (by decide)]
    refine (State.get_set_self c _ _ _).trans ((satInc_mod _ _).trans ?_)
    rw [cleared (by decide) (by decide), stated (by decide) (by decide), full (by decide) (by decide)]
  · have ne : ∀ f ∈ [F.CANx_ERR_LEC, F.CANx_ERR_LEC_DATA], f ∈ errFields ∧ f ≠ F.CANx_STATUS_BUSOFF ∧ f ≠ F.CANx_CNT_BO_CNT
        ∧ f ≠ F.CANx_CNT_RECOV_SEQ ∧ f ≠ F.CANx_ERR_ESTATE ∧ f ≠ F.CANx_ERR_TEC := by decide
    obtain ⟨field, flag, count, seq, state, tec⟩ := ne f mem
    rw [last field flag, counted field count, cleared field seq, stated field state, full field tec]

/-- The counters below bus-off, without the error state. -/
def errCounted (s : State) (x tec rec_ : Nat) : State := (putRec s x rec_).set (F.CANx_ERR_TEC.can x) 0 tec

theorem errState_eq (s : State) (x tec rec_ : Nat) : errState s x tec rec_ =
    if 255 < tec then busOff (putRec s x rec_) x
    else if 128 ≤ tec ∨ 128 ≤ rec_ then
      if canState (errCounted s x tec rec_) x = 1 then errCounted s x tec rec_
      else
        let t := ((errCounted s x tec rec_).set (F.CANx_ERR_ESTATE.can x) 0 1).set (F.CANx_STATUS_EPASS.can x) 0 1
        t.note 0 (canBlk x) 3 0xFF (canErrWord t x)
    else (errCounted s x tec rec_).set (F.CANx_ERR_ESTATE.can x) 0 0 := rfl

theorem errCounted_step (s : State) {x : Nat} (lt : x < 2) (tec rec_ : Nat) : ErrStep x s (errCounted s x tec rec_) :=
  (putRec_step s lt rec_).set (f := F.CANx_ERR_TEC) lt (by decide) _

theorem errState_step (s : State) {x : Nat} (lt : x < 2) (tec rec_ : Nat) : ErrStep x s (errState s x tec rec_) := by
  have counted := errCounted_step s lt tec rec_
  rw [errState_eq]
  split
  · have off := busOff_step (putRec s x rec_) lt
    have first := putRec_step s lt rec_
    exact ⟨off.normal.trans first.normal, fun d => off.steady (first.steady d)⟩
  · split
    · split
      · exact counted
      · exact ((counted.set (f := F.CANx_ERR_ESTATE) lt (by decide) 1).set (f := F.CANx_STATUS_EPASS) lt (by decide) 1).keeps lt (keeps_note _ _ _ _ _ _)
    · exact counted.set (f := F.CANx_ERR_ESTATE) lt (by decide) 0

/-- A state `t` that shows what the counters `tec` and `rec_` of controller `x` make of `s`. -/
structure ErrShown (s : State) (x tec rec_ : Nat) (t : State) : Prop where
  lec : ∀ f ∈ [F.CANx_ERR_LEC, F.CANx_ERR_LEC_DATA], t.get (f.can x) = s.get (f.can x)
  counts : tec ≤ 255 → t.get (F.CANx_ERR_TEC.can x) = tec ∧ recOf t x = min rec_ 128
    ∧ t.get (F.CANx_ERR_ESTATE.can x) = (if 128 ≤ tec ∨ 128 ≤ rec_ then 1 else 0)
    ∧ (128 ≤ tec ∨ 128 ≤ rec_ → canState s x = 0 → t.get (F.CANx_STATUS_EPASS.can x) = 1)
  off : 255 < tec → t.get (F.CANx_ERR_TEC.can x) = 255 ∧ t.get (F.CANx_STATUS_BUSOFF.can x) = 1
    ∧ t.get (F.CANx_ERR_ESTATE.can x) = (if s.flag (F.CANx_CFG_AUTO_REC.can x) then 3 else 2) ∧ t.get (F.CANx_CNT_RECOV_SEQ.can x) = 0
    ∧ t.get (F.CANx_CNT_BO_CNT.can x) = satInc (F.CANx_CNT_BO_CNT.can x).width (s.get (F.CANx_CNT_BO_CNT.can x))

theorem ErrShown.congr {s t u : State} {x tec rec_ : Nat} (h : ErrShown s x tec rec_ t) (same : ∀ f ∈ errFields, u.get (f.can x) = t.get (f.can x)) :
    ErrShown s x tec rec_ u := by
  have read (f : Fld) (mem : f ∈ errFields) := same f mem
  have lecs : ∀ f ∈ [F.CANx_ERR_LEC, F.CANx_ERR_LEC_DATA], f ∈ errFields := by decide
  refine ⟨fun f mem => (same f (lecs f mem)).trans (h.lec f mem), fun small => ?_, fun large => ?_⟩
  · rw [read F.CANx_ERR_TEC (by decide), read F.CANx_ERR_ESTATE (by decide), read F.CANx_STATUS_EPASS (by decide),
      recOf_congr (read F.CANx_ERR_RP (by decide)) (read F.CANx_ERR_REC (by decide))]
    exact h.counts small
  · rw [read F.CANx_ERR_TEC (by decide), read F.CANx_ERR_ESTATE (by decide), read F.CANx_STATUS_BUSOFF (by decide),
      read F.CANx_CNT_RECOV_SEQ (by decide), read F.CANx_CNT_BO_CNT (by decide)]
    exact h.off large

/-- The counters alone, with the error state and the flags as they were. -/
theorem errCounted_get (s : State) {x : Nat} (lt : x < 2) {tec : Nat} (small : tec ≤ 255) (rec_ : Nat) :
    (errCounted s x tec rec_).get (F.CANx_ERR_TEC.can x) = tec ∧ recOf (errCounted s x tec rec_) x = min rec_ 128
    ∧ ∀ f ∈ [F.CANx_ERR_LEC, F.CANx_ERR_LEC_DATA, F.CANx_ERR_ESTATE], (errCounted s x tec rec_).get (f.can x) = s.get (f.can x) := by
  refine ⟨(State.get_set_self _ _ _ _).trans (Nat.mod_eq_of_lt (Nat.lt_succ_of_le small)), ?_, fun f mem => ?_⟩
  · rw [← putRec_rec s lt rec_]
    exact recOf_congr (err_get_set _ lt (by decide) _) (err_get_set _ lt (by decide) _)
  · have fields : ∀ f ∈ [F.CANx_ERR_LEC, F.CANx_ERR_LEC_DATA, F.CANx_ERR_ESTATE], f ∈ errFields ∧ f ≠ F.CANx_ERR_TEC ∧ f ≠ F.CANx_ERR_REC ∧ f ≠ F.CANx_ERR_RP := by
      decide
    obtain ⟨field, ne, neRec, neRp⟩ := fields f mem
    exact (err_get_set _ lt ⟨field, by decide, ne⟩ _).trans (putRec_get s lt rec_ field neRec neRp)

/-- The error state of two counters (R316, R317). -/
theorem errState_shown {s : State} {x : Nat} (lt : x < 2) (tec rec_ : Nat) : ErrShown s x tec rec_ (errState s x tec rec_) := by
  rw [errState_eq]
  by_cases large : 255 < tec
  · rw [if_pos large]
    obtain ⟨count, flag, state, seq, counted, lec⟩ := busOff_get (putRec s x rec_) lt
    have kept {f : Fld} (mem : f ∈ errFields) (ne : f ≠ F.CANx_ERR_REC) (rp : f ≠ F.CANx_ERR_RP) := putRec_get s lt rec_ mem ne rp
    have auto : (putRec s x rec_).flag (F.CANx_CFG_AUTO_REC.can x) = s.flag (F.CANx_CFG_AUTO_REC.can x) :=
      congrArg (· != 0) (kept (by decide) (by decide) (by decide))
    rw [auto] at state
    rw [kept (by decide) (by decide) (by decide)] at counted
    refine ⟨fun f mem => (lec f mem).trans ?_, fun small => absurd large (Nat.not_lt_of_le small), fun _ => ⟨count, flag, state, seq, counted⟩⟩
    rcases List.mem_pair.mp mem with rfl | rfl
    · exact kept (by decide) (by decide) (by decide)
    · exact kept (by decide) (by decide) (by decide)
  · rw [if_neg large]
    obtain ⟨count, received, same⟩ := errCounted_get s lt (Nat.le_of_not_lt large) rec_
    have state : canState (errCounted s x tec rec_) x = canState s x := same _ (by decide)
    have lecs : ∀ f ∈ [F.CANx_ERR_LEC, F.CANx_ERR_LEC_DATA], f ∈ [F.CANx_ERR_LEC, F.CANx_ERR_LEC_DATA, F.CANx_ERR_ESTATE]
        ∧ f ∈ errFields ∧ f ≠ F.CANx_ERR_ESTATE ∧ f ≠ F.CANx_STATUS_EPASS := by decide
    by_cases warned : 128 ≤ tec ∨ 128 ≤ rec_
    · rw [if_pos warned, state]
      by_cases passive : canState s x = 1
      · rw [if_pos passive]
        refine ⟨fun f mem => same f (lecs f mem).1, fun _ => ⟨count, received, ?_, fun _ active => ?_⟩, fun h => absurd h large⟩
        · rw [if_pos warned]
          exact (same _ (by decide)).trans passive
        · omega
      · rw [if_neg passive]
        refine ErrShown.congr (t := ((errCounted s x tec rec_).set (F.CANx_ERR_ESTATE.can x) 0 1).set (F.CANx_STATUS_EPASS.can x) 0 1) ?_
          fun f mem => err_get_note _ lt mem _ _ _ _ _
        refine ⟨fun f mem => ?_, fun _ => ⟨?_, ?_, ?_, fun _ _ => State.get_set_self _ _ _ _⟩, fun h => absurd h large⟩
        · obtain ⟨kept, field, ne, flag⟩ := lecs f mem
          exact (err_get_set _ lt ⟨field, by decide, flag⟩ _).trans ((err_get_set _ lt ⟨field, by decide, ne⟩ _).trans (same f kept))
        · exact (err_get_set _ lt (by decide) _).trans ((err_get_set _ lt (by decide) _).trans count)
        · refine (recOf_congr ?_ ?_).trans received
          · exact (err_get_set _ lt (by decide) _).trans (err_get_set _ lt (by decide) _)
          · exact (err_get_set _ lt (by decide) _).trans (err_get_set _ lt (by decide) _)
        · rw [if_pos warned]
          refine (err_get_set _ lt (by decide) _).trans ?_
          exact State.get_set_self _ _ _ _
    · rw [if_neg warned]
      refine ⟨fun f mem => ?_, fun _ => ⟨?_, ?_, ?_, fun h => absurd h warned⟩, fun h => absurd h large⟩
      · obtain ⟨kept, field, ne, -⟩ := lecs f mem
        exact (err_get_set _ lt ⟨field, by decide, ne⟩ _).trans (same f kept)
      · exact (err_get_set _ lt (by decide) _).trans count
      · exact (recOf_congr (err_get_set _ lt (by decide) _) (err_get_set _ lt (by decide) _)).trans received
      · rw [if_neg warned]
        exact State.get_set_self _ _ _ _

/-! ### A bus error -/

/-- The last error code of controller `x`. -/
def lecSet (s : State) (x : Nat) (e : CanError) : State :=
  (s.set (F.CANx_ERR_LEC.can x) 0 (lecCode e.code)).set (F.CANx_ERR_LEC_DATA.can x) 0 (b2n e.dataPhase)

theorem lecSet_get (s : State) {x : Nat} (lt : x < 2) (e : CanError) : (lecSet s x e).get (F.CANx_ERR_LEC.can x) = lecCode e.code
    ∧ (lecSet s x e).get (F.CANx_ERR_LEC_DATA.can x) = b2n e.dataPhase
    ∧ ∀ f ∈ errFields, f ≠ F.CANx_ERR_LEC → f ≠ F.CANx_ERR_LEC_DATA → (lecSet s x e).get (f.can x) = s.get (f.can x) := by
  refine ⟨?_, (State.get_set_self _ _ _ _).trans (b2n_mod _), fun f mem code phase => ?_⟩
  · refine (err_get_set _ lt (by decide) _).trans ((State.get_set_self _ _ _ _).trans ?_)
    cases e.code <;> rfl
  · exact (err_get_set _ lt ⟨mem, by decide, phase⟩ _).trans (err_get_set s lt ⟨mem, by decide, code⟩ _)

theorem lecSet_step (s : State) {x : Nat} (lt : x < 2) (e : CanError) : ErrStep x s (lecSet s x e) :=
  ((ErrStep.refl s).set (f := F.CANx_ERR_LEC) lt (by decide) _).set (f := F.CANx_ERR_LEC_DATA) lt (by decide) _

theorem steFreed_self (s : State) : steFreed s s = s := if_neg (Nat.lt_irrefl _)

/-- An error that a controller does not take. -/
theorem canError_none {s : State} {x : Fin 2} {e : CanError} (h : canError s x.val e = s) : exec (.canError x e) s = answer s s := by
  change execCanError x e s = _
  unfold execCanError
  dsimp only
  rw [h, steFreed_self]
  cases e.kind <;> rfl

/-- What an error acts on in normal mode. -/
theorem canError_normal {s : State} {x : Fin 2} (e : CanError) (normal : canNormal s x.val = true) (on : canState s x.val < 2) :
    canError s x.val e = match e.kind, busPick s x.val with
      | .rxError, _ => errState (lecSet s x.val e) x.val (tecOf s x.val) (recOf s x.val + 1)
      | .rxFlag, _ => errState (lecSet s x.val e) x.val (tecOf s x.val) (recOf s x.val + 8)
      | .txFlag, _ => errState (lecSet s x.val e) x.val (tecOf s x.val + 8) (recOf s x.val)
      | .txUncounted, some b => txFailed (lecSet s x.val e) x.val b e
      | .txError, some b => errState (txFailed (lecSet s x.val e) x.val b e) x.val (tecOf s x.val + 8) (recOf s x.val)
      | .txAck dom, some b =>
        let s' := noAck (txFailed (lecSet s x.val e) x.val b e) x.val
        if canState s' x.val = esPassive ∧ !dom then s' else errState s' x.val (tecOf s x.val + 8) (recOf s x.val)
      | _, none => s := by
  have live : canLive s x.val = true := by
    rw [canLive, (Bool.and_eq_true_iff.mp normal).1, decide_eq_true on]
    rfl
  unfold canError
  dsimp only
  rw [live, normal]
  rfl

/-- An error that counts, as it shows once the state has settled. -/
theorem errState_answer {c : Instr} {s : State} {x : Nat} (lt : x < 2) {e : CanError} {tec rec_ : Nat} (lines : LinesFollow s) (normal : canNormal s x = true)
    (run : exec c s = answer s (errState (lecSet s x e) x tec rec_)) :
    ∃ t, exec c s = .next t ∧ t.get (F.CANx_ERR_LEC.can x) = lecCode e.code ∧ t.get (F.CANx_ERR_LEC_DATA.can x) = b2n e.dataPhase
      ∧ (tec ≤ 255 → t.get (F.CANx_ERR_TEC.can x) = tec ∧ recOf t x = min rec_ 128
        ∧ t.get (F.CANx_ERR_ESTATE.can x) = (if 128 ≤ tec ∨ 128 ≤ rec_ then 1 else 0)
        ∧ (128 ≤ tec ∨ 128 ≤ rec_ → canState s x = 0 → t.get (F.CANx_STATUS_EPASS.can x) = 1))
      ∧ (255 < tec → t.get (F.CANx_ERR_TEC.can x) = 255 ∧ t.get (F.CANx_STATUS_BUSOFF.can x) = 1
        ∧ t.get (F.CANx_ERR_ESTATE.can x) = (if s.flag (F.CANx_CFG_AUTO_REC.can x) then 3 else 2) ∧ t.get (F.CANx_CNT_RECOV_SEQ.can x) = 0
        ∧ t.get (F.CANx_CNT_BO_CNT.can x) = satInc (F.CANx_CNT_BO_CNT.can x).width (s.get (F.CANx_CNT_BO_CNT.can x))) := by
  have lec := lecSet_step s lt e
  have state := errState_step (lecSet s x e) lt tec rec_
  obtain ⟨code, phase, rest⟩ := lecSet_get s lt e
  have shown := (errState_shown (s := lecSet s x e) lt tec rec_).congr (u := settled s (errState (lecSet s x e) x tec rec_))
    fun f mem => settled_normal lt (state.steady (lec.steady lines.steady)) ((state.normal.trans lec.normal).trans normal) mem
  obtain ⟨lecs, counts, off⟩ := shown
  have auto : (lecSet s x e).flag (F.CANx_CFG_AUTO_REC.can x) = s.flag (F.CANx_CFG_AUTO_REC.can x) :=
    congrArg (· != 0) (rest _ (by decide) (by decide) (by decide))
  have was : canState (lecSet s x e) x = canState s x := rest _ (by decide) (by decide) (by decide)
  rw [was] at counts
  rw [auto, rest _ (by decide) (by decide) (by decide)] at off
  exact ⟨_, run, (lecs F.CANx_ERR_LEC (by decide)).trans code, (lecs F.CANx_ERR_LEC_DATA (by decide)).trans phase, counts, off⟩

/-! ### Recovery and loss -/

/-- A complete recovery (R317). -/
def recovered (s : State) (x : Nat) : State :=
  ((putRec (s.set (F.CANx_ERR_TEC.can x) 0 0) x 0).set (F.CANx_ERR_ESTATE.can x) 0 0).set (F.CANx_CNT_RECOV_SEQ.can x) 0 128

theorem recovered_step (s : State) {x : Nat} (lt : x < 2) : ErrStep x s (recovered s x) :=
  ((((ErrStep.refl s).set (f := F.CANx_ERR_TEC) lt (by decide) 0).set (f := F.CANx_ERR_REC) lt (by decide) _).set (f := F.CANx_ERR_RP) lt (by decide) _
    |>.set (f := F.CANx_ERR_ESTATE) lt (by decide) 0).set (f := F.CANx_CNT_RECOV_SEQ) lt (by decide) 128

theorem recovered_get (s : State) {x : Nat} (lt : x < 2) : (recovered s x).get (F.CANx_ERR_TEC.can x) = 0 ∧ recOf (recovered s x) x = 0
    ∧ (recovered s x).get (F.CANx_ERR_ESTATE.can x) = 0 ∧ (recovered s x).get (F.CANx_CNT_RECOV_SEQ.can x) = 128 := by
  have kept {f : Fld} (mem : f ∈ errFields) (seq : f ≠ F.CANx_CNT_RECOV_SEQ) (state : f ≠ F.CANx_ERR_ESTATE) :
      (recovered s x).get (f.can x) = (putRec (s.set (F.CANx_ERR_TEC.can x) 0 0) x 0).get (f.can x) :=
    (err_get_set _ lt ⟨mem, by decide, seq⟩ _).trans (err_get_set _ lt ⟨mem, by decide, state⟩ _)
  refine ⟨?_, ?_, ?_, State.get_set_self _ _ _ _⟩
  · rw [kept (by decide) (by decide) (by decide), putRec_get _ lt 0 (by decide) (by decide) (by decide)]
    exact State.get_set_self _ _ _ _
  · refine (recOf_congr (kept (by decide) (by decide) (by decide)) (kept (by decide) (by decide) (by decide))).trans ?_
    rw [putRec_rec _ lt]
    rfl
  · refine (err_get_set _ lt (by decide) _).trans ?_
    exact State.get_set_self _ _ _ _

theorem canRecover_eq {s : State} {x : Nat} (state : canState s x = 3) (up : canUp s x = true) :
    canRecover s x = (recovered s x).updCan x (fun c => { c with boSince := none }) := by
  unfold canRecover
  rw [if_neg (by rw [up]; simp [state, esRecovering])]
  rfl

/-- A loss without the telegrams that it cuts and without its journal entry (R321). -/
def lostMarked (s : State) (x : Nat) (cause : CanLostCause) : State :=
  ((s.set (F.CANx_ERR_LOST.can x) 0 1).set (F.CANx_ERR_LOST_CAUSE.can x) 0 (lostCode cause)).set (F.CANx_STATUS_LOST.can x) 0 1

/-- The state in which a loss is judged for the connections. -/
def lostNoted (s : State) (x : Nat) (cause : CanLostCause) : State :=
  let t := (attemptCut ((s.set (F.CANx_ERR_LOST.can x) 0 1).set (F.CANx_ERR_LOST_CAUSE.can x) 0 (lostCode cause)) x).set (F.CANx_STATUS_LOST.can x) 0 1
  t.note 0 (canBlk x) 7 0xFF (canErrWord t x)

theorem lostNoted_keeps (s : State) (x : Nat) (cause : CanLostCause) : Keeps (lostMarked s x cause) (lostNoted s x cause) :=
  ((keeps_attemptCut _ x).set_both (F.CANx_STATUS_LOST.can x) 0 1).note

theorem canLost_eq {s : State} {x : Nat} {cause : CanLostCause} (on : s.flag (F.CANx_CFG_EN.can x) = true) (counting : s.counting = true)
    (here : s.flag (F.CANx_ERR_LOST.can x) = false) (ne : cause ≠ .busOff) :
    canLost s x cause = if dupConn (lostNoted s x cause) then raiseSquall (lostNoted s x cause) 2 else lostNoted s x cause := by
  have now : lostNow s x cause = some s := by
    cases cause with
    | busOff => exact absurd rfl ne
    | _ => rfl
  unfold canLost
  rw [if_neg (by rw [on, counting, here]; simp), now]
  rfl

theorem lostKeys : ∀ x < 2, ∀ f ∈ [F.CANx_ERR_LOST, F.CANx_ERR_LOST_CAUSE, F.CANx_STATUS_LOST], drivesSource ((f.can x).key 0) = false
    ∧ quietKey ((F.CANx_ERR_LOST.can x).key 0) = true ∧ (F.CANx_ERR_LOST.can x).key 0 ≠ F.SPU_SQ_CAUSES.key 0 ∧ (f.can x).key 0 ≠ F.DEV_STATE_STATE.key 0
    ∧ (f = F.CANx_ERR_LOST ∨ (F.CANx_ERR_LOST.can x).key 0 ≠ (f.can x).key 0)
    ∧ ∀ c < 64, ∀ g ∈ [F.STE_CONNc_CFG_CLASS, F.STE_CONNc_CFG_DUP], g.key c ≠ (f.can x).key 0 ∧ quietKey (g.key c) = true := by
  decide +kernel

theorem lostMarked_get (s : State) {x : Nat} (lt : x < 2) (cause : CanLostCause) :
    (lostMarked s x cause).get (F.CANx_ERR_LOST.can x) = 1 ∧ (lostMarked s x cause).dev = s.dev
    ∧ ∀ c < 64, ∀ g ∈ [F.STE_CONNc_CFG_CLASS, F.STE_CONNc_CFG_DUP], (lostMarked s x cause).get g c = s.get g c := by
  obtain ⟨-, -, -, devLost, -, connLost⟩ := lostKeys x lt F.CANx_ERR_LOST (by decide)
  obtain ⟨-, -, -, devCause, causeNe, connCause⟩ := lostKeys x lt F.CANx_ERR_LOST_CAUSE (by decide)
  obtain ⟨-, -, -, devFlag, flagNe, connFlag⟩ := lostKeys x lt F.CANx_STATUS_LOST (by decide)
  refine ⟨?_, ?_, fun c ltc g mem => ?_⟩
  · refine (State.get_set_ne _ _ (flagNe.resolve_left (by decide))).trans ((State.get_set_ne _ _ (causeNe.resolve_left (by decide))).trans ?_)
    exact State.get_set_self _ _ _ _
  · exact (dev_set devFlag.symm).trans ((dev_set devCause.symm).trans (dev_set devLost.symm))
  · exact (State.get_set_ne _ _ (connFlag c ltc g mem).1).trans ((State.get_set_ne _ _ (connCause c ltc g mem).1).trans
      (State.get_set_ne s _ (connLost c ltc g mem).1))

theorem lostNoted_dup (s : State) {x : Nat} (lt : x < 2) (cause : CanLostCause) : dupConn (lostNoted s x cause) = dupConn s := by
  have keeps := lostNoted_keeps s x cause
  obtain ⟨-, -, same⟩ := lostMarked_get s lt cause
  obtain ⟨-, -, -, -, -, conn⟩ := lostKeys x lt F.CANx_ERR_LOST (by decide)
  have read {c : Nat} (ltc : c < 64) {g : Fld} (mem : g ∈ [F.STE_CONNc_CFG_CLASS, F.STE_CONNc_CFG_DUP]) : (lostNoted s x cause).get g c = s.get g c :=
    (keeps.get g c (conn c ltc g mem).2).trans (same c ltc g mem)
  unfold dupConn
  rw [Bool.eq_iff_iff, List.any_eq_true, List.any_eq_true]
  refine exists_congr fun c => and_congr_right fun mem => ?_
  have ltc := List.mem_range.mp mem
  rw [read ltc (by decide), read ltc (by decide)]

theorem lostMarked_steady {s : State} (d : DriveSteady s) {x : Nat} (lt : x < 2) (cause : CanLostCause) : DriveSteady (lostMarked s x cause) :=
  ((d.set (lostKeys x lt F.CANx_ERR_LOST (by decide)).1).set (lostKeys x lt F.CANx_ERR_LOST_CAUSE (by decide)).1).set
    (lostKeys x lt F.CANx_STATUS_LOST (by decide)).1

/-- A loss over a duplicated connection in OPERATIONAL (R268, R321). -/
theorem lost_squall {s : State} (d : DriveSteady s) (oper : s.dev = .oper) {x : Nat} (lt : x < 2) (cause : CanLostCause) :
    let t := settled s (raiseSquall (lostNoted s x cause) 2)
    t.get (F.CANx_ERR_LOST.can x) = 1 ∧ bitAt (t.get F.SPU_SQ_CAUSES) 1 = true ∧ t.spu.raised = s.spu.raised ++ [2] := by
  have keeps := lostNoted_keeps s x cause
  obtain ⟨lost, dev, -⟩ := lostMarked_get s lt cause
  obtain ⟨-, quiet, apart, -⟩ := lostKeys x lt F.CANx_ERR_LOST (by decide)
  have spu : (lostNoted s x cause).spu = s.spu := keeps.spu
  have drives : DriveSteady (((lostNoted s x cause).set F.SPU_SQ_CAUSES 0 (putBit ((lostNoted s x cause).get F.SPU_SQ_CAUSES) 1 true)).putSpu
      { (lostNoted s x cause).spu with raised := (lostNoted s x cause).spu.raised ++ [2] }) :=
    (((lostMarked_steady d lt cause).keeps keeps).set (by decide)).putSpu _ rfl
  rw [raiseSquall_oper (keeps.dev.trans (dev.trans oper)) 2]
  refine ⟨?_, ?_, ?_⟩
  · rw [settled_get_quiet (s := s) drives _ 0 quiet, State.get_putSpu, State.get_set_ne _ _ apart]
    exact (keeps.get _ 0 quiet).trans lost
  · rw [settled_get_quiet (s := s) drives _ 0 (by decide), State.get_putSpu, State.get_set_self]
    exact bitAt_putBit_mod (by decide)
  · rw [spu_settled, State.putSpu_spu, spu]

/-- Settles O48: the error state of the two counters, and each command by the branch that its premises name. -/
theorem canErrorStates : Obligations.CanErrorStates := by
  intro s x lines X
  have steady := lines.steady
  have lt : X < 2 := x.isLt
  refine ⟨fun e off => ?_, fun e live mon => ⟨fun kind => ?_, fun notErr notFlag => ?_⟩, fun e normal on => ?_, fun state up normal => ?_, fun state => ?_,
    fun p ports => ⟨fun state => ?_, fun state => ?_⟩, fun cause => ⟨fun idle => ?_, fun on counting here ne => ?_⟩⟩
  · exact answers_of (canError_none (if_pos (by rw [off]; rfl))) steady
  · have eq : canError s X e = lecSet s X e := by
      unfold canError
      dsimp only
      rw [live, mon]
      rcases kind with k | k <;> rw [k] <;> rfl
    have run : exec (.canError x e) s = answer s (lecSet s X e) := by
      change execCanError x e s = _
      unfold execCanError
      dsimp only
      rw [eq]
      rcases kind with k | k <;> rw [k]
    exact answers_of run ((lecSet_step s lt e).steady steady)
  · refine answers_of (canError_none ?_) steady
    unfold canError
    dsimp only
    rw [live, mon]
    cases k : e.kind with
    | rxError => exact absurd k notErr
    | rxFlag => exact absurd k notFlag
    | _ => rfl
  · have effect := canError_normal e normal on
    intro lec up
    have counted {tec rec_ : Nat} (run : exec (.canError x e) s = answer s (errState (lecSet s X e) X tec rec_)) : up tec rec_ := by
      obtain ⟨t, ran, code, phase, counts, off⟩ := errState_answer lt lines normal run
      exact ⟨t, ran, ⟨code, phase⟩, counts, off⟩
    have receives (k : CanErrKind) (kind : e.kind = k) (quiet : k = .rxError ∨ k = .rxFlag ∨ k = .txFlag) :
        exec (.canError x e) s = answer s (canError s X e) := by
      change execCanError x e s = _
      unfold execCanError
      dsimp only
      rw [kind]
      rcases quiet with rfl | rfl | rfl <;> rfl
    have sends (k : CanErrKind) (kind : e.kind = k) (ends : k = .txUncounted ∨ k = .txError) :
        exec (.canError x e) s = answer s (steFreed s (canError s X e)) := by
      change execCanError x e s = _
      unfold execCanError
      dsimp only
      rw [kind]
      rcases ends with rfl | rfl <;> rfl
    refine ⟨fun kind => ?_, fun kind => ?_, fun kind => ?_, fun none kind => ?_, fun b pick => ?_⟩
    · refine counted ((receives _ kind (by decide)).trans (congrArg (answer s) (effect.trans ?_)))
      rw [kind]
    · refine counted ((receives _ kind (by decide)).trans (congrArg (answer s) (effect.trans ?_)))
      rw [kind]
    · refine counted ((receives _ kind (by decide)).trans (congrArg (answer s) (effect.trans ?_)))
      rw [kind]
    · refine answers_of (canError_none (effect.trans ?_)) steady
      rcases kind with k | k <;> rw [k, none]
    · intro v
      refine ⟨fun kind => ?_, fun kind => ?_⟩
      · refine (sends _ kind (by decide)).trans (congrArg (fun t => answer s (steFreed s t)) (effect.trans ?_))
        rw [kind, pick]
        rfl
      · refine (sends _ kind (by decide)).trans (congrArg (fun t => answer s (steFreed s t)) (effect.trans ?_))
        rw [kind, pick]
        rfl
  · have step := recovered_step s lt
    have moved : Keeps (recovered s X) ((recovered s X).updCan X (fun c => { c with boSince := none })) := keeps_can _ _
    have step' := step.keeps lt moved
    have read {f : Fld} (mem : f ∈ errFields) : (settled s ((recovered s X).updCan X (fun c => { c with boSince := none }))).get (f.can X)
        = (recovered s X).get (f.can X) := by
      have same (w : State) (g : CanCtl → CanCtl) : (w.updCan X g).get (f.can X) = w.get (f.can X) := rfl
      rw [settled_normal lt (step'.steady steady) (step'.normal.trans normal) mem, same]
    obtain ⟨tec, received, active, seq⟩ := recovered_get s lt
    have run : exec (.busoffRecovery x) s = .next (settled s ((recovered s X).updCan X (fun c => { c with boSince := none }))) := by
      change answer s (canRecover s X) = _
      rw [canRecover_eq state up]
      rfl
    generalize settled s ((recovered s X).updCan X (fun c => { c with boSince := none })) = t at read run
    exact ⟨t, run, (read (by decide)).trans tec, (recOf_congr (read (by decide)) (read (by decide))).trans received,
      (read (by decide)).trans active, (read (by decide)).trans seq⟩
  · have eq : canRecover s X = s := if_pos (Or.inl state)
    exact answers_of (u := s) (congrArg (answer s) eq) steady
  · have eq : canRelease s X = (s.set (F.CANx_ERR_ESTATE.can X) 0 3).set (F.CANx_CNT_RECOV_SEQ.can X) 0 0 := if_pos state
    change answer s (gate s (canRelease s X)) = _
    rw [gate_up ports, eq]
    rfl
  · have eq : canRelease s X = s := if_neg state
    refine answers_gated ports (u := s) ?_ steady
    change answer s (gate s (canRelease s X)) = _
    rw [eq]
  · have eq : canLost s X cause = s := by
      unfold canLost
      refine if_pos ?_
      rw [Bool.not_eq_true', Bool.not_eq_true']
      exact idle
    refine answers_of (u := s) ?_ steady
    change answer s (timed (canLost · X cause) s) = _
    rw [timed_now (f := (canLost · X cause)) (Or.inl (congrArg State.now eq)), eq]
  · intro u
    have keeps := lostNoted_keeps s X cause
    have effect := canLost_eq on counting here ne
    rw [lostNoted_dup s lt cause] at effect
    have now : (canLost s X cause).now = s.now → exec (.canControllerLost x cause) s = answer s (canLost s X cause) :=
      fun same => congrArg (answer s) (timed_now (f := (canLost · X cause)) (Or.inl same))
    have noted : (lostNoted s X cause).now = s.now := keeps.now
    refine ⟨fun single => ?_, fun dup oper => ?_⟩
    · rw [single] at effect
      have run := now ((congrArg State.now effect).trans noted)
      rw [effect] at run
      exact ⟨_, run, (settled_result ((lostMarked_steady steady lt cause).keeps keeps)).of_keeps keeps⟩
    · rw [dup, if_pos rfl] at effect
      have oper' : (lostNoted s X cause).dev = .oper := keeps.dev.trans ((lostMarked_get s lt cause).2.1.trans oper)
      have same : (raiseSquall (lostNoted s X cause) 2).now = s.now := by
        rw [raiseSquall_oper oper' 2]
        exact noted
      have run := now ((congrArg State.now effect).trans same)
      rw [effect] at run
      exact ⟨_, run, lost_squall steady oper lt cause⟩

end Sys2Proof.Machine
end

section
/-!
PROOFS. The traction link: readback, telegrams and lapse (R297 to R301). Settles O45.
-/

namespace Sys2Proof.Machine

set_option Elab.async false

/-! ### Readback (R297) -/

/-- A readback fault without its journal entry. -/
def linkFault (u : State) (f : Fld) : State := (u.indicate.set f 0 1).set F.TLNK_PIN_RBSTOP 0 1

/-- A condition that holds the traction link stops it in what follows, but where EXTEST drives its cell. -/
theorem Result.stopped {s u t : State} (h : Result s u t) {f : Fld} (hf : f ∈ [F.TLNK_PIN_FSTOP, F.TLNK_PIN_RSTOP, F.TLNK_PIN_RBSTOP])
    (on : u.flag f = true) : tlClear t = false := by
  have quiet : ∀ f ∈ [F.TLNK_PIN_FSTOP, F.TLNK_PIN_RSTOP, F.TLNK_PIN_RBSTOP], quietKey (f.key 0) = true := by decide
  have held : t.flag f = true := (h.flag f 0 (quiet f hf)).trans on
  unfold tlClear
  simp only [List.mem_cons, List.not_mem_nil, or_false] at hf
  rcases hf with rfl | rfl | rfl <;> rw [held] <;> simp

/-- A readback fault latches, and stops the link of a unit that may drive. -/
theorem linkFault_stops {c : Instr} {s u : State} {f : Fld} {bit : Nat} (run : exec c s = answer s (tlFault u f bit)) (steady : DriveSteady u)
    (source : drivesSource (f.key 0) = false) (dev : u.dev = s.dev) :
    ∃ t, exec c s = .next t ∧ Result s (linkFault u f) t ∧ (mayDrive s = true → t.lines.tlp = false ∧ t.lines.stopN = false ∧ t.lines.still = false) := by
  have keeps : Keeps (linkFault u f) (tlFault u f bit) := keeps_note _ _ _ _ _ _
  have indicated : DriveSteady u.indicate := steady
  have drive : DriveSteady (linkFault u f) := (indicated.set source).set (by decide)
  have result := (settled_result (s := s) (drive.keeps keeps)).of_keeps keeps
  have devNe : F.DEV_STATE_STATE.key 0 ≠ f.key 0 := by
    rintro e
    rw [← e] at source
    exact Bool.noConfusion source
  refine ⟨_, run, result, fun may => result.follow.stopped (result.stopped (f := F.TLNK_PIN_RBSTOP) (by decide) ?_) ?_⟩
  · exact congrArg (· != 0) (State.get_set_self _ _ _ _)
  · rw [result.dev, linkFault, dev_set (by decide), dev_set devNe, show u.indicate.dev = u.dev from rfl, dev]
    exact not_comm_of_mayDrive may

/-- What the reads before a readback fault leave: the sources and the device state. -/
structure LinkRead (s u : State) : Prop where
  steady : DriveSteady s → DriveSteady u
  dev : u.dev = s.dev

namespace LinkRead

variable {s u : State}

theorem refl (s : State) : LinkRead s s := ⟨id, rfl⟩

theorem fresh (h : LinkRead s u) : LinkRead s u.fresh := ⟨h.steady, h.dev⟩

theorem set (h : LinkRead s u) {f : Fld} (source : drivesSource (f.key 0) = false) (apart : F.DEV_STATE_STATE.key 0 ≠ f.key 0) (v : Nat) :
    LinkRead s (u.set f 0 v) := ⟨fun d => (h.steady d).set source, (dev_set apart).trans h.dev⟩

theorem firstErrFrom (h : LinkRead s u) {f : Fld} (source : drivesSource (f.key 0) = false) (apart : F.DEV_STATE_STATE.key 0 ≠ f.key 0) (latency from_ : Nat) :
    LinkRead s (u.firstErrFrom f latency from_) := by
  unfold State.firstErrFrom
  split
  · split
    · exact (h.set source apart 1).set (f := F.URED_STATUS_FIRST_ERR) (by decide) (by decide) 1
    · exact h
  · exact h

end LinkRead

/-- The levels of the two lines as read. -/
def linkRead (u : State) (a b : Bool) (v : Nat) : State :=
  let w := if a then u.set F.TLNK_PIN_STOP_N 0 v else u
  (if b then w.set F.TLNK_PIN_STILL 0 v else w).fresh

theorem LinkRead.levels {s u : State} (h : LinkRead s u) (a b : Bool) (v : Nat) : LinkRead s (linkRead u a b v) := by
  have first : LinkRead s (if a then u.set F.TLNK_PIN_STOP_N 0 v else u) := by
    split
    · exact h.set (by decide) (by decide) v
    · exact h
  unfold linkRead
  dsimp only
  split
  · exact (first.set (f := F.TLNK_PIN_STILL) (by decide) (by decide) v).fresh
  · exact first.fresh

theorem linesRead_eq (u : State) (x : Bool × Bool) (high : Bool) : linesRead u x high = linkRead u x.1 x.2 (b2n high) := rfl

/-- The lines that a fault concerns: of those at one level, at least one. -/
theorem linesAt_some (s : State) (a b : Bool) : ((linesAt s a b).1 = true → a = true) ∧ ((linesAt s a b).2 = true → b = true)
    ∧ (a = true ∨ b = true → (linesAt s a b).1 = true ∨ (linesAt s a b).2 = true) := by
  unfold linesAt
  cases a <;> cases b
  · simp
  · simp
  · simp
  · refine ⟨fun _ => rfl, fun _ => rfl, fun _ => ?_⟩
    by_cases one : Config.lineOf s.freeCtr = 1
    · exact Or.inr (by simp [one])
    · exact Or.inl (by simp [one])

/-! ### The exchange of telegrams (R298 to R301) -/

/-- The state of a frame received: once sent, what the cycle's exchange judges. -/
def tlSent (s : State) : State :=
  let u := s.advanceTo (s.cycleStart + 33072)
  tlSend (u.putTl { u.tl with sent := u.cycle + 1 })

theorem tlExchange_idle {s : State} (rx : List Byte) (h : s.flag F.TLNK_CFG_EN = false ∨ s.counting = false ∨ s.tl.sent = s.cycle + 1) :
    tlExchange s rx = s := by
  refine if_pos ?_
  rw [Bool.not_eq_true', Bool.not_eq_true']
  exact h

theorem tlExchange_due {s : State} (rx : List Byte) (on : s.flag F.TLNK_CFG_EN = true) (counting : s.counting = true) (first : s.tl.sent ≠ s.cycle + 1) :
    tlExchange s rx = tlReceive (tlSent s) rx := by
  unfold tlExchange
  rw [if_neg (by rw [on, counting]; simpa using first)]
  rfl

/-- The check value of a frame, and what its sequence number adds to the last accepted. -/
def frameGood (v : State) (bs : List Byte) : Prop :=
  crc32c (leBytes 4 (cidRx (v.get F.TLNK_CONN_ID_CONN_ID)) ++ bs.take 60) = ofLeBytes (bs.drop 60)
def frameAdv (v : State) (bs : List Byte) : Nat := (ofLeBytes ((bs.drop 1).take 2) + 65536 - v.get F.TLNK_SEQ_RX_SEQ) % 65536

section
variable {v : State} {rx : List Byte}

theorem tlReceive_type (h : ofLeBytes ((pad64 rx).take 1) ≠ 0x51) : tlReceive v rx = tlReject v F.TLNK_STATUS_RX_TYPE 3 := if_pos h

variable (type_ : ofLeBytes ((pad64 rx).take 1) = 0x51)
include type_

theorem tlReceive_check (h : ¬frameGood v (pad64 rx)) : tlReceive v rx = tlReject v F.TLNK_STATUS_RX_CHECK 1 :=
  (if_neg (not_not.mpr type_)).trans (if_pos h)

variable (good : frameGood v (pad64 rx))
include good

theorem tlReceive_seq (any : v.tl.anySeq = false) (h : frameAdv v (pad64 rx) = 0 ∨ 4 < frameAdv v (pad64 rx)) :
    tlReceive v rx = tlReject v F.TLNK_STATUS_RX_SEQ 2 := by
  refine (if_neg (not_not.mpr type_)).trans ((if_neg (not_not.mpr good)).trans (if_pos ⟨by rw [any]; rfl, ?_⟩))
  change (!decide (1 ≤ frameAdv v (pad64 rx) ∧ frameAdv v (pad64 rx) ≤ 4)) = true
  rw [Bool.not_eq_true', decide_eq_false_iff_not]
  omega

/-- A frame in order. -/
theorem tlReceive_ok (h : v.tl.anySeq = true ∨ (1 ≤ frameAdv v (pad64 rx) ∧ frameAdv v (pad64 rx) ≤ 4)) :
    tlReceive v rx =
      let w := putFrame ((v.set F.TLNK_SEQ_RX_SEQ 0 (ofLeBytes (((pad64 rx).drop 1).take 2))).set F.TLNK_RX_CNT_ACCEPTED 0 (v.get F.TLNK_RX_CNT_ACCEPTED + 1))
        F.TLNK_RX_Wk_DATA (pad64 rx)
      w.putTl { w.tl with idle := 0, anySeq := false, lapsed := false, okSince := true } := by
  have count : ∀ x, (v.set F.TLNK_SEQ_RX_SEQ 0 x).bumpWrap F.TLNK_RX_CNT_ACCEPTED
      = (v.set F.TLNK_SEQ_RX_SEQ 0 x).set F.TLNK_RX_CNT_ACCEPTED 0 (v.get F.TLNK_RX_CNT_ACCEPTED + 1) := fun x => by
    rw [State.bumpWrap, State.get_set_ne _ x (by decide)]
  refine (if_neg (not_not.mpr type_)).trans ((if_neg (not_not.mpr good)).trans ((if_neg ?_).trans ?_))
  · rintro ⟨none, late⟩
    change (!decide (1 ≤ frameAdv v (pad64 rx) ∧ frameAdv v (pad64 rx) ≤ 4)) = true at late
    rw [Bool.not_eq_true', decide_eq_false_iff_not] at late
    rw [Bool.not_eq_true'] at none
    exact h.elim (fun any => Bool.noConfusion (none.symm.trans any)) late
  · dsimp only
    rw [count]

end

/-! ### The lapse (R301) -/

/-- A lapse without its journal entry. -/
def lapsedLink (s : State) : State :=
  let u := ((s.raise F.TLNK_STATUS_RX_LAPSE).bump F.TLNK_RX_CNT_LAPSES).putTl { s.tl with lapsed := true, anySeq := true, okSince := false }
  if s.flag F.TLNK_CFG_RX_STOP then u.raise F.TLNK_PIN_RSTOP else u

theorem rxLapse_due {s : State} (on : s.flag F.TLNK_CFG_EN = true) (counting : s.counting = true) (here : s.tl.lapsed = false)
    (late : s.get F.TLNK_CFG_TEXP ≤ s.tl.idle) : rxLapse s = (lapsedLink s).note 0 0x0B 0 0xFF 0 := by
  have stop : (((s.raise F.TLNK_STATUS_RX_LAPSE).bump F.TLNK_RX_CNT_LAPSES).putTl { s.tl with lapsed := true, anySeq := true, okSince := false }).flag
      F.TLNK_CFG_RX_STOP = s.flag F.TLNK_CFG_RX_STOP := by
    change (((s.set F.TLNK_STATUS_RX_LAPSE 0 1).set F.TLNK_RX_CNT_LAPSES 0 _).get F.TLNK_CFG_RX_STOP != 0) = _
    rw [State.get_set_ne _ _ (by decide), State.get_set_ne _ _ (by decide)]
    rfl
  have cond : (s.flag F.TLNK_CFG_EN && s.counting && !s.tl.lapsed && decide (s.get F.TLNK_CFG_TEXP ≤ s.tl.idle)) = true := by
    rw [on, counting, here, decide_eq_true late]
    rfl
  unfold lapsedLink
  rw [← stop]
  exact if_pos cond

/-- What a lapse shows of the link. -/
theorem lapsedLink_shows (s : State) :
    (lapsedLink s).get F.TLNK_STATUS_RX_LAPSE = 1
    ∧ (lapsedLink s).get F.TLNK_RX_CNT_LAPSES = satInc F.TLNK_RX_CNT_LAPSES.width (s.get F.TLNK_RX_CNT_LAPSES)
    ∧ (lapsedLink s).tl = { s.tl with lapsed := true, anySeq := true, okSince := false }
    ∧ (s.flag F.TLNK_CFG_RX_STOP = true → (lapsedLink s).get F.TLNK_PIN_RSTOP = 1)
    ∧ (lapsedLink s).dev = s.dev ∧ (lapsedLink s).spu = s.spu ∧ (DriveSteady s → DriveSteady (lapsedLink s)) := by
  let u := (s.set F.TLNK_STATUS_RX_LAPSE 0 1).bump F.TLNK_RX_CNT_LAPSES
  have lapse : u.get F.TLNK_STATUS_RX_LAPSE = 1 := (State.get_set_ne _ _ (by decide)).trans (State.get_set_self s F.TLNK_STATUS_RX_LAPSE 0 1)
  have count : u.get F.TLNK_RX_CNT_LAPSES = satInc F.TLNK_RX_CNT_LAPSES.width (s.get F.TLNK_RX_CNT_LAPSES) := by
    refine (State.get_set_self _ _ _ _).trans ((satInc_mod _ _).trans ?_)
    rw [State.get_set_ne _ _ (by decide)]
  have dev : u.dev = s.dev := (dev_set (by decide)).trans (dev_set (by decide))
  have steady (d : DriveSteady s) : DriveSteady u := (d.set (by decide)).set (by decide)
  let w := u.putTl { s.tl with lapsed := true, anySeq := true, okSince := false }
  by_cases stop : s.flag F.TLNK_CFG_RX_STOP = true
  · have eq : lapsedLink s = w.set F.TLNK_PIN_RSTOP 0 1 := if_pos stop
    have drive (d : DriveSteady s) : DriveSteady w := steady d
    rw [eq]
    exact ⟨(State.get_set_ne w 1 (by decide)).trans lapse, (State.get_set_ne w 1 (by decide)).trans count, rfl, fun _ => State.get_set_self w F.TLNK_PIN_RSTOP 0 1,
      (dev_set (s := w) (by decide)).trans dev, rfl, fun d => (drive d).set (by decide)⟩
  · have eq : lapsedLink s = w := if_neg stop
    rw [eq]
    exact ⟨lapse, count, rfl, fun h => absurd h stop, dev, rfl, steady⟩

/-- Settles O45: each readback fault, each judgement of a frame and the lapse by the branch that its premises name. -/
theorem tractionLink : Obligations.TractionLink := by
  intro s lines stops reads
  have steady := lines.steady
  have idle {c : Instr} {u : State} (run : exec c s = answer s u) (eq : u = s) : Answers c s s := answers_of (run.trans (congrArg (answer s) eq)) steady
  have off (b : Bool) (h : s.lines.tlDrive = false) : (s.lines.tlDrive && b) = false := by rw [h]; rfl
  refine ⟨fun on => ⟨fun edges => ?_, fun high => ?_, fun low => ?_, fun none => ?_, fun a b => ?_, fun p a b => ?_⟩, fun none => ⟨?_, ?_, ?_⟩,
    fun rx => ⟨fun h => ?_, fun en counting first => ?_⟩, fun en counting here late => ?_, fun h => ?_⟩
  · have eq : tlpDrv s = tlFault (s.firstErrFrom F.URED_FIRST_TLP_DRV 6000 (s.firstTick 12)) F.TLNK_STATUS_TLP_DRV 4 := if_pos (by rw [on, edges]; rfl)
    have read := (LinkRead.refl s).firstErrFrom (f := F.URED_FIRST_TLP_DRV) (by decide) (by decide) 6000 (s.firstTick 12)
    exact linkFault_stops (congrArg (answer s) eq) (read.steady steady) (by decide) read.dev
  · have eq : tlsDrv s = tlFault (linkRead (s.firstErrFrom F.URED_FIRST_TLS_DRV 600 (max (if (linesAt s s.lines.stopN s.lines.still).1 then s.firstTick 13 else 0)
        (if (linesAt s s.lines.stopN s.lines.still).2 then s.firstTick 14 else 0))) (linesAt s s.lines.stopN s.lines.still).1
        (linesAt s s.lines.stopN s.lines.still).2 0) F.TLNK_STATUS_TLS_DRV 5 :=
      if_pos (by rw [on, Bool.true_and, Bool.or_eq_true]; exact high)
    obtain ⟨first, second, some⟩ := linesAt_some s s.lines.stopN s.lines.still
    have read := ((LinkRead.refl s).firstErrFrom (f := F.URED_FIRST_TLS_DRV) (by decide) (by decide) 600
      (max (if (linesAt s s.lines.stopN s.lines.still).1 then s.firstTick 13 else 0) (if (linesAt s s.lines.stopN s.lines.still).2 then s.firstTick 14 else 0))).levels
      (linesAt s s.lines.stopN s.lines.still).1 (linesAt s s.lines.stopN s.lines.still).2 0
    exact ⟨_, _, some high, first, second, linkFault_stops (congrArg (answer s) eq) (read.steady steady) (by decide) read.dev⟩
  · have some : (!(s.lines.tlp && s.lines.stopN && s.lines.still)) = true := by
      rcases low with h | h | h <;> rw [h] <;> simp
    have eq : tlForeign s = tlFault (if s.lines.tlp || Config.ballReads s.freeCtr then linkRead s (linesAt s (!s.lines.stopN) (!s.lines.still)).1
        (linesAt s (!s.lines.stopN) (!s.lines.still)).2 1 else s.fresh) F.TLNK_STATUS_TL_FOREIGN 6 := if_pos (by rw [on, some]; rfl)
    obtain ⟨first, second, either⟩ := linesAt_some s (!s.lines.stopN) (!s.lines.still)
    by_cases seen : (s.lines.tlp || Config.ballReads s.freeCtr) = true
    · rw [if_pos seen] at eq
      have read := (LinkRead.refl s).levels (linesAt s (!s.lines.stopN) (!s.lines.still)).1 (linesAt s (!s.lines.stopN) (!s.lines.still)).2 1
      refine ⟨_, _, ?_, fun h => Bool.not_eq_true'  _ ▸ first h, fun h => Bool.not_eq_true' _ ▸ second h,
        linkFault_stops (congrArg (answer s) eq) (read.steady steady) (by decide) read.dev⟩
      rcases low with h | h | h
      · exact Or.inr (Or.inr h)
      · exact (either (Or.inr (by rw [h]; rfl))).imp_right Or.inl
      · exact (either (Or.inl (by rw [h]; rfl))).imp_right Or.inl
    · rw [if_neg seen] at eq
      have quiet : s.lines.tlp = false := (Bool.or_eq_false_iff.mp (Bool.eq_false_iff.mpr seen)).1
      have read := (LinkRead.refl s).fresh
      exact ⟨false, false, Or.inr (Or.inr quiet), fun h => Bool.noConfusion h, fun h => Bool.noConfusion h,
        linkFault_stops (congrArg (answer s) eq) (read.steady steady) (by decide) read.dev⟩
  · exact idle rfl (if_neg (by rw [none, Bool.and_false]; exact Bool.false_ne_true))
  · exact idle rfl (if_neg (by rw [a, b]; simp))
  · exact idle rfl (if_neg (by rw [p, a, b]; simp))
  · exact idle rfl (if_neg (by rw [off _ none]; exact Bool.false_ne_true))
  · exact idle rfl (if_neg (by rw [off _ none]; exact Bool.false_ne_true))
  · exact idle rfl (if_neg (by rw [off _ none]; exact Bool.false_ne_true))
  · have eq := tlExchange_idle rx h
    refine idle (u := timed (tlExchange · rx) s) rfl ?_
    rw [timed_now (f := (tlExchange · rx)) (Or.inl (congrArg State.now eq)), eq]
  · intro u v bs seq adv good rejected
    have due := tlExchange_due rx en counting first
    have reject {f : Fld} {bit : Nat} (h : tlReceive (tlSent s) rx = tlReject (tlSent s) f bit) : rejected f bit := answersTimed_of rfl (due.trans h)
    exact ⟨fun ne => reject (tlReceive_type ne), fun ty bad => reject (tlReceive_check ty bad), fun ty ok any h => reject (tlReceive_seq ty ok any h),
      fun ty ok h => answersTimed_of rfl (due.trans (tlReceive_ok ty ok h))⟩
  · have eq := rxLapse_due en counting here late
    obtain ⟨lapse, count, tl, stop, dev, spu, drive⟩ := lapsedLink_shows s
    have keeps : Keeps (lapsedLink s) ((lapsedLink s).note 0 0x0B 0 0xFF 0) := keeps_note _ _ _ _ _ _
    have result := (settled_result (s := s) ((drive steady).keeps keeps)).of_keeps keeps
    have run : exec .rxLapse s = .next (settled s ((lapsedLink s).note 0 0x0B 0 0xFF 0)) := congrArg (answer s) eq
    generalize settled s ((lapsedLink s).note 0 0x0B 0 0xFF 0) = t at result run
    refine ⟨t, run, (result.get _ _ (by decide)).trans lapse, (result.get _ _ (by decide)).trans count,
      (result.keeps.reads State.tl fun _ => rfl).trans tl, fun stops => ?_⟩
    have held := stop stops
    have clear := result.stopped (f := F.TLNK_PIN_RSTOP) (by decide) (congrArg (· != 0) held)
    obtain ⟨permit, stopN, still⟩ := result.follow.link
    refine ⟨(result.get _ _ (by decide)).trans held, Bool.eq_false_iff.mpr fun h => ?_, Bool.eq_false_iff.mpr fun h => ?_,
      fun cell => Bool.eq_false_iff.mpr fun h => ?_⟩
    · exact Bool.noConfusion (clear.symm.trans (permit h).2.1)
    · exact Bool.noConfusion (clear.symm.trans (still h).2.1)
    · rcases stopN h with ⟨-, ok⟩ | ⟨comm, jtag⟩
      · exact Bool.noConfusion (clear.symm.trans ok)
      · rw [result.dev, dev] at comm
        have spuOf : t.spu = s.spu := result.keeps.spu.trans spu
        rw [spuOf] at jtag
        exact cell.elim (fun h => h comm) (fun h => h jtag)
  · refine idle (u := rxLapse s) rfl (if_neg ?_)
    rcases h with early | dis
    · rw [decide_eq_false (Nat.not_le_of_lt early), Bool.and_false]
      exact Bool.false_ne_true
    · rw [dis]
      simp

end Sys2Proof.Machine
end

section
/-!
PROOFS. The voter and HALT (R255, R256). Refutes O56.
-/

namespace Sys2Proof.Machine

set_option Elab.async false

/-- The device state is no part of what the drive of the sources reaches. -/
theorem dev_aloof : Aloof State.dev where
  set s f high i v := by
    refine dev_set fun e => ?_
    have low : F.DEV_STATE_STATE.key 0 = 64 := rfl
    have above : f.bit ≤ f.key i := Nat.le_add_right _ _
    omega
  mem _ _ := rfl
  secs _ _ := rfl
  encs _ _ := rfl
  units _ _ := rfl
  cmps _ _ := rfl
  ests _ _ := rfl
  fab _ _ := rfl
  ledger _ _ := rfl
  bcw _ _ := rfl
  bound s f mem c lt v := by
    have above : ∀ f ∈ [F.MEAS_CHn_BPASS_B, F.MEAS_CHn_BPASS_VALID], 64 < f.bit := by decide
    have key : f.bit ≤ f.key c := Nat.le_add_right _ _
    have low : F.DEV_STATE_STATE.key 0 = 64 := rfl
    have := above f mem
    exact dev_set (by omega)
  points _ _ := rfl
  chans _ _ := rfl

/-- Settling leaves the device state, whether or not the drive of the sources begins or ends. -/
theorem dev_settled (s u : State) : (settled s u).dev = u.dev := by
  have lines : (settled s u).dev = (settle u).dev := by
    rw [settled_eq]
    generalize settle u = w
    obtain ⟨l, eq, -⟩ := putLines_eq w
    rw [eq]
    rfl
  have rest : Keeps (syncDrive (sampleInputs u)) (settle u) := ((keeps_canSync _).trans (keeps_fabSettle _)).trans (keeps_outStep _)
  calc (settled s u).dev = (settle u).dev := lines
    _ = (syncDrive (sampleInputs u)).dev := rest.dev
    _ = ((sampleInputs u).setFlag F.EXC_MODE_DRIVE_EN 0 (srcMay (sampleInputs u))).dev := dev_aloof.over_syncDrive _
    _ = (sampleInputs u).dev := dev_set (by decide)
    _ = u.dev := (keeps_sampleInputs u).dev

/-- A unit in RESET whose telegram engine is said to hold buffer 64,966 of controller 0, which has 64: the cell of that buffer's TX_REQ is
the cell of SPU_MM_INFO's KIND. -/
def heldBeyond : State :=
  let s := { State.reset with regs := [], ste := { State.reset.ste with held := [(0, 64966, 0)] } }
  s.putLines (computeLines s)

/-- Three lanes that differ. -/
def threeWays : VoterTxn := ⟨⟨0, 0, 0, 0⟩, ⟨0, 0, 1, 0⟩, ⟨0, 0, 2, 0⟩, none, false⟩

theorem heldBeyond_meets : LinesFollow heldBeyond ∧ heldBeyond.flag F.SPU_STATUS_HALTED = false ∧ coreSt heldBeyond 0 = 0 ∧ coreSt heldBeyond 1 = 0
    ∧ coreSt heldBeyond 2 = 0 :=
  ⟨rfl, by decide +kernel⟩

/-- The HALT clears KIND: it withdraws the request of the buffer that is held. -/
theorem heldBeyond_halts : (vote heldBeyond threeWays).get F.SPU_MM_INFO_KIND = 0 ∧ (vote heldBeyond threeWays).dev = .reset := by
  decide +kernel

/-- Refutes O56: a HALT withdraws what the telegram engine holds, after the voter has recorded its result (R255, R256). The statement's states
may hold a buffer beyond a controller's 64, and the withdrawal then reaches the record: KIND reads 0 after three lanes that differ. -/
theorem not_voterAndCores : ¬Obligations.VoterAndCores := by
  intro all
  obtain ⟨lines, running, core0, core1, core2⟩ := heldBeyond_meets
  obtain ⟨kind, dev⟩ := heldBeyond_halts
  obtain ⟨-, votes, -⟩ := all heldBeyond lines
  obtain ⟨-, compared⟩ := votes threeWays running
  obtain ⟨triple, -⟩ := compared fun k h => absurd h (by simp [threeWays])
  obtain ⟨-, -, -, -, differ⟩ := triple core0 core1 core2
  obtain ⟨u, run, -, recorded, -⟩ := differ (by decide) (by decide) (by decide)
  have same : settled heldBeyond u = settled heldBeyond (vote heldBeyond threeWays) := Host.Outcome.next.inj (run.symm.trans rfl)
  have still {v : State} (h : v.dev = .reset) : DriveSteady v := Or.inl (by rw [State.counting, h])
  have stays : u.dev = .reset := by rw [← dev_settled heldBeyond u, same, dev_settled, dev]
  have shown : u.get F.SPU_MM_INFO_KIND = (vote heldBeyond threeWays).get F.SPU_MM_INFO_KIND := by
    rw [← settled_get_quiet (s := heldBeyond) (still stays) F.SPU_MM_INFO_KIND 0 (by decide), same,
      settled_get_quiet (still dev) F.SPU_MM_INFO_KIND 0 (by decide)]
  rw [recorded, kind] at shown
  exact absurd shown (by decide)

end Sys2Proof.Machine
end

section
/-!
PROOFS. The STATUS frame that ends a verdict exchange (R351, R355). Refutes O51.
-/

namespace Sys2Proof.Machine

set_option Elab.async false

/-- Cycle 7 of a driving active unit with the link up: the exchange that it requested at boundary 5 has both verdicts, and its own names a
fault of its own. -/
def exchanging : State :=
  let s := { State.reset with
    regs := [], boot := { State.reset.boot with stage := 5 }, cycle := 7, now := 420005
    link := { State.reset.link with lanes := true, reqAt := some 5, own := some true, part := some false } }
  let s := ((s.set F.DEV_STATE_STATE 0 4).set F.DEV_STATE_ROLE 0 1).set F.CRU_CLK_PLL_LOCK 0 1
  let s := (s.set F.URED_STATE_LINK_UP 0 1).set F.URED_CFG_PAIR_EN 0 1
  s.putLines (computeLines s)

/-- The partner's STATUS in that cycle: its comparison still mismatches. -/
def stillMismatching : PartnerStatus := { (default : PartnerStatus) with ready := true, verdictReq := true, role := 2, dev := 4 }

/-- The frame that carries it. -/
def stillMismatchingFrame : LinkFrame := ⟨true, false, false, 0, 7, .status stillMismatching⟩

theorem exchanging_meets : LinesFollow exchanging ∧ exchanging.flag F.URED_STATE_LINK_UP = true ∧ exchanging.flag F.URED_CFG_PAIR_EN = true :=
  ⟨rfl, by decide +kernel⟩

/-- The request in the STATUS belongs to the exchange that ends, and is taken out of what is kept. -/
theorem exchanging_drops_request :
    (settled exchanging (linkFrame exchanging stillMismatchingFrame)).link.status.map (·.verdictReq) = some false := by
  decide +kernel

/-- Refutes O51: the statement has the STATUS kept as it came, but at B + 2 of a verdict exchange that both units have judged, the active unit
keeps it without the request, which belongs to the exchange that ends with it (R355, log entry 67). -/
theorem not_interlockAndLink : ¬Obligations.InterlockAndLink := by
  intro all
  obtain ⟨lines, up, paired⟩ := exchanging_meets
  obtain ⟨-, -, -, -, -, -, -, -, -, -, -, frames, -⟩ := all exchanging lines
  obtain ⟨-, -, status, -⟩ := frames stillMismatchingFrame up paired
  obtain ⟨t, run, -, kept, -⟩ := status stillMismatching rfl rfl
  have same : t = settled exchanging (linkFrame exchanging stillMismatchingFrame) := Host.Outcome.next.inj (run.symm.trans rfl)
  have dropped := exchanging_drops_request
  rw [← same, kept] at dropped
  exact absurd dropped (by decide)

end Sys2Proof.Machine
end

section
/-!
PROOFS. The claim of a takeover (R359) beside a section that does not exist. Refutes O52.
-/

namespace Sys2Proof.Machine

set_option Elab.async false

/-! ### A standby unit whose points are in OFF mode settles without a change of its points -/

/-- The bit addresses of STATE and ROLE of DEV_STATE and of the points' excitation modes. -/
def standCells : List Nat :=
  [F.DEV_STATE_STATE.key 0, F.DEV_STATE_ROLE.key 0] ++ (List.range 24).map F.EXC_CARRIER_SPn_MODE.key

def standKey (k : Nat) : Bool := standCells.contains k

theorem standKey_mode {p : Nat} (lt : p < 24) : standKey (F.EXC_CARRIER_SPn_MODE.key p) = true :=
  List.contains_iff_mem.mpr (List.mem_append_right _ (List.mem_map_of_mem (List.mem_range.mpr lt)))

theorem not_standKey_of_high {k : Nat} (high : 0x100000 ≤ k) : standKey k = false := by
  have below : ∀ x ∈ standCells, x < 0x100000 := by decide
  refine Bool.eq_false_iff.mpr fun h => ?_
  have := below k (List.contains_iff_mem.mp h)
  omega

theorem quietKey_of_standKey {k : Nat} (h : standKey k = true) : quietKey k = true := by
  have quiet : ∀ x ∈ standCells, quietKey x = true := by decide
  exact quiet k (List.contains_iff_mem.mp h)

theorem standKey_aloof : Aloof fun s => s.seen standKey where
  set s f high i v := seen_set s (not_standKey_of_high (by unfold Fld.key; omega)) v
  mem _ _ := rfl
  secs _ _ := rfl
  encs _ _ := rfl
  units _ _ := rfl
  cmps _ _ := rfl
  ests _ _ := rfl
  fab _ _ := rfl
  ledger _ _ := rfl
  bcw _ _ := rfl
  bound s f mem c lt v := by
    have keys : ∀ f ∈ [F.MEAS_CHn_BPASS_B, F.MEAS_CHn_BPASS_VALID], ∀ c < 48, 0x100000 ≤ f.key c := by decide
    exact seen_set s (not_standKey_of_high (keys f mem c lt)) v
  points _ _ := rfl
  chans _ _ := rfl

theorem seen_of_keeps {s t : State} (h : Keeps s t) : t.seen standKey = s.seen standKey := by
  funext k
  unfold State.seen
  split
  next at_ => exact h.regs k (quietKey_of_standKey at_)
  next => rfl

/-- Settling leaves STATE, ROLE and the modes, whether or not the drive of the sources begins or ends. -/
theorem standKey_settled (s u : State) : (settled s u).seen standKey = u.seen standKey := by
  have lines : (settled s u).seen standKey = (settle u).seen standKey := by
    rw [settled_eq]
    generalize settle u = w
    obtain ⟨l, eq, -⟩ := putLines_eq w
    rw [eq]
    rfl
  have drive (v : State) : (v.setFlag F.EXC_MODE_DRIVE_EN 0 (srcMay v)).seen standKey = v.seen standKey := seen_set v (by decide) _
  have rest : Keeps (syncDrive (sampleInputs u)) (settle u) := ((keeps_canSync _).trans (keeps_fabSettle _)).trans (keeps_outStep _)
  calc (settled s u).seen standKey = (settle u).seen standKey := lines
    _ = (syncDrive (sampleInputs u)).seen standKey := seen_of_keeps rest
    _ = (sampleInputs u).seen standKey := (standKey_aloof.over_syncDrive _).trans (drive _)
    _ = u.seen standKey := seen_of_keeps (keeps_sampleInputs u)

/-- A STANDBY unit in OPERATIONAL with every point in OFF mode. -/
def StandsOff (s : State) : Prop :=
  s.get F.DEV_STATE_STATE = 4 ∧ s.get F.DEV_STATE_ROLE = 2 ∧ ∀ p < 24, s.get F.EXC_CARRIER_SPn_MODE p = mOff

theorem StandsOff.of_seen {s t : State} (h : StandsOff s) (same : t.seen standKey = s.seen standKey) : StandsOff t := by
  obtain ⟨state, role, modes⟩ := h
  exact ⟨(get_of_seen same (by decide)).trans state, (get_of_seen same (by decide)).trans role,
    fun p lt => (get_of_seen same (standKey_mode lt)).trans (modes p lt)⟩

/-- A unit that listens drives no source. -/
theorem StandsOff.srcMay {s : State} (h : StandsOff s) : Sys2Proof.Machine.srcMay s = false := by
  obtain ⟨state, role, -⟩ := h
  have standby : s.role = .standby := by rw [State.role, role]; rfl
  have dev : s.dev = .reset ∨ s.dev = .oper := by
    rw [State.dev, state]
    exact (em _).imp (fun h => if_pos h) (fun h => if_neg h)
  rw [Sys2Proof.Machine.srcMay, standby]
  obtain dev | dev := dev <;> rw [dev] <;> exact Bool.and_false _

/-- The loss of its carrier does not concern a point in OFF mode. -/
theorem carrierGone_off {s : State} {p : Nat} (off : s.get F.EXC_CARRIER_SPn_MODE p = mOff) (t : Nat) : carrierGone s p t = s := by
  have mode : excMode s p = mOff := by rw [excMode, off]; rfl
  exact if_pos mode

theorem StandsOff.syncDrive {s : State} (h : StandsOff s) : Sys2Proof.Machine.syncDrive s = s.setFlag F.EXC_MODE_DRIVE_EN 0 false := by
  obtain ⟨-, -, off⟩ := h.of_seen (t := s.setFlag F.EXC_MODE_DRIVE_EN 0 false) (seen_set s (by decide) _)
  unfold Sys2Proof.Machine.syncDrive
  rw [h.srcMay]
  extract_lets on t
  split
  · rfl
  · exact forN_holds (P := (· = t)) (fun u p lt eq => by subst eq; exact carrierGone_off (off p lt) _) rfl

/-- A register that settling never writes reads the same, wherever the lines stand. -/
theorem StandsOff.settled_get {s u : State} (h : StandsOff u) (f : Fld) (q : quietKey (f.key 0) = true) : (settled s u).get f = u.get f := by
  have sampled : StandsOff (sampleInputs u) := h.of_seen (seen_of_keeps (keeps_sampleInputs u))
  have rest : Keeps (Sys2Proof.Machine.syncDrive (sampleInputs u)) (settle u) :=
    ((keeps_canSync _).trans (keeps_fabSettle _)).trans (keeps_outStep _)
  have quiet : f.key 0 ≠ F.EXC_MODE_DRIVE_EN.key 0 := fun e => absurd (e ▸ q) (by decide)
  calc (settled s u).get f = (settle u).get f := Sys2Proof.Machine.settled_get ..
    _ = (Sys2Proof.Machine.syncDrive (sampleInputs u)).get f := rest.get f 0 q
    _ = (sampleInputs u).get f := by rw [sampled.syncDrive]; exact State.get_set_ne _ _ quiet
    _ = u.get f := (keeps_sampleInputs u).get f 0 q

/-! ### The claim -/

/-- A decided takeover of a unit that is still READY is claimed (R357, R359). -/
theorem takeoverClaim_claims {s : State} (standby : listens s = true) (idle : s.flag F.URED_STATE_CLAIM = false) (decided : s.link.decided = true)
    (ready : notReady s = 0) : takeoverClaim s = claim s 0 := by
  have due : (s.link.decided && listens s && !s.flag F.URED_STATE_CLAIM) = true := by rw [decided, standby, idle]; rfl
  exact (if_pos due).trans (if_pos ready)

/-- Tick 420,006, at which a READY standby unit claims a decided takeover: counting point 0 of section 0 lies on point 0, which was not in
Lull, and in the running fabric clock a disturbance is said to have reached section 147,405 of the 48. The cell of that section's STATE is the
cell of URED_TO_TS_L. -/
def sectionBeyond : State :=
  let s := { State.reset with
    regs := [], boot := { State.reset.boot with stage := 5 }, cycle := 7, now := 420006
    link := { State.reset.link with lanes := true, decided := true, resync := 0 }
    ext := { State.reset.ext with intlkIn := false }
    fab := { State.reset.fab with clockAt := 210003, clock := [⟨147405, [], [⟨1, 63, none⟩], [], none, false⟩] } }
  let s := ((s.set F.DEV_STATE_STATE 0 4).set F.DEV_STATE_ROLE 0 2).set F.CRU_CLK_PLL_LOCK 0 1
  let s := (s.set F.URED_CFG_PAIR_EN 0 1).set F.WEV_CPc_MAP_VALID 0 1
  let s := ((s.set F.SECT_n_CFG_NBND 0 1).set F.SECT_n_BND_VALID 0 1).set F.FAB_PPq_k_VALID 0 1
  let s := forN 24 s (fun s p => s.set F.EXC_CARRIER_SPn_MODE p mOff)
  s.putLines (computeLines s)

theorem sectionBeyond_follows : LinesFollow sectionBeyond := by
  unfold LinesFollow
  decide +kernel

theorem sectionBeyond_meets : listens sectionBeyond = true ∧ sectionBeyond.flag F.URED_STATE_CLAIM = false
    ∧ sectionBeyond.link.decided = true ∧ notReady sectionBeyond = 0 ∧ sectionBeyond.ext.intlkIn = false := by
  decide +kernel

theorem sectionBeyond_standsOff : StandsOff (claim sectionBeyond 0) := by
  unfold StandsOff
  decide +kernel

/-- The disturbance of section 0 by point 0 runs the clock again, and the other section's STATE becomes DISTURBED where the tick stood. -/
theorem sectionBeyond_claims : (claim sectionBeyond 0).get F.URED_TO_TS_L_TS = 2 := by
  decide +kernel

/-- Refutes O52: the claim records its tick and then takes every point out of use, whose disturbances run the fabric clock again (R164, R359).
The statement's states may hold a section beyond the 48 in that clock, and its tile then reaches the record: URED_TO_TS_L reads 2. -/
theorem not_takeoverClaims : ¬Obligations.TakeoverClaims := by
  intro all
  obtain ⟨standby, idle, decided, ready, alone⟩ := sectionBeyond_meets
  obtain ⟨claims, -⟩ := all sectionBeyond sectionBeyond_follows
  obtain ⟨takeover, -⟩ := claims standby idle
  obtain ⟨u, run, -, -, -, stamped, -⟩ := takeover decided ready (Or.inl alone)
  have ran : exec .takeoverClaim sectionBeyond = .next (settled sectionBeyond (claim sectionBeyond 0)) := by
    rw [← takeoverClaim_claims standby idle decided ready]
    rfl
  have same : settled sectionBeyond u = settled sectionBeyond (claim sectionBeyond 0) := Host.Outcome.next.inj (run.symm.trans ran)
  have off : StandsOff u := sectionBeyond_standsOff.of_seen <| by
    rw [← standKey_settled sectionBeyond u, same, standKey_settled]
  have low : u.get F.URED_TO_TS_L_TS = 2 := by
    rw [← off.settled_get (s := sectionBeyond) F.URED_TO_TS_L_TS (by decide), same,
      sectionBeyond_standsOff.settled_get F.URED_TO_TS_L_TS (by decide), sectionBeyond_claims]
  have tick : ts40 sectionBeyond.now = 420006 := by decide +kernel
  rw [State.get40, low, tick] at stamped
  omega

end Sys2Proof.Machine
end
